-- ==== Sys2Proof/Word.lean ====
section
/-! DEFINITION. The plain words of the BX920 and the small fixed sets of names its commands use. -/

namespace Sys2Proof

/-- A byte of memory or of a message. -/
abbrev Byte := BitVec 8

/-- A 64-bit register or memory word (R5: byte 0 holds bits [7:0]). -/
abbrev W64 := BitVec 64

/-- A context number, 0 to 15 (R12). -/
abbrev CtxId := Fin 16

/-- A Trelbo port number, 0 to 7. -/
abbrev PortId := Fin 8

/-- The four queued engines, in the order of their codes (R12, R29). -/
inductive Engine where
  | mxe | caf | vec | tmv
  deriving DecidableEq, Repr

/-- The engine code of R12. -/
def Engine.code : Engine → Fin 4
  | .mxe => 0 | .caf => 1 | .vec => 2 | .tmv => 3

/-- The engine a code of R12 names; codes 4 to 7 are reserved. -/
def Engine.ofCode : Nat → Option Engine
  | 0 => some .mxe | 1 => some .caf | 2 => some .vec | 3 => some .tmv | _ => none

/-- Who sends a register access: a PCI Express function (0 is the physical function) or the
management controller, which has its own register space (R33, R256). -/
inductive Requester where
  | fn (n : Fin 16)
  | mgc
  deriving DecidableEq, Repr

/-- What the verify after a program pulse found: the cells that do not verify (for a page, any: the page does not), and those that read 1
after the erase of a restart, if one follows (R102, R103, R283). -/
structure PulseCells where
  unset : List Nat := []
  ones : List (Nat × Nat) := []
  deriving DecidableEq, Repr

/-- What a PORTS message says beside its control message: the neighbours (own port, number, their port; 256 for one without a number), and
whether the partner belongs to another system (R357, R371). -/
structure PortsNote where
  nbrs : List (Nat × Nat × Nat) := []
  foreign : Bool := false
  deriving DecidableEq, Repr

end Sys2Proof
end

