-- ==== Sys2Proof/Syntax.lean ====
section
/-! DEFINITION. The commands of the BX920: one constructor per row of spec/opcode_table.json, in the table's order. A constructor's
operands are what its row leaves to the outside: who sends it, the value written, the bytes carried, or the environment's part of
an event (what a sensor reads, which cells verify). -/

namespace Sys2Proof

/-- A command (a row of the opcode table). -/
inductive Instr where
  /-- QUEUE_ENTRY_WRITE: A host write of word 7 of a queue slot with the expected phase makes the entry valid, or wakes the device during an entry sequence (R184) -/
  | queueEntryWrite (fn : Fin 16) (off : Nat) (data : List Byte) (ep : Bool)
  /-- REGISTER_WRITE: A host or MGC write to a register field that has no row of its own sets the field according to its access type (R9) -/
  | registerWrite (who : Requester) (off : Nat) (size : Nat) (v : W64) (ep : Bool)
  /-- APERTURE_READ: A host read through BAR4 is served from the fastest valid copy of the selected context's object, or completes with Completer Abort on a fault (R436) -/
  | apertureRead (fn : Fin 16) (off : Nat) (n : Nat)
  /-- APERTURE_WRITE: A host write through BAR4 lands in the selected context's object, is merged into its 64-bit words, or is discarded on a fault (R436) -/
  | apertureWrite (fn : Fin 16) (off : Nat) (data : List Byte) (ep : Bool)
  /-- LINK_DOWN: The PCI Express link leaves DL_Active without a hot reset; the endpoint's configuration returns to reset values and host-bound traffic waits or fails (R438) -/
  | linkDown
  /-- HOT_RESET: A hot reset received on the link triggers a device reset (R439) -/
  | hotReset (straps : BitVec 2)
  /-- PERST_N_ASSERT: PERST_N is asserted; in a P-state, IDLE or DOZE this is a device reset, and in PARK it is a wake (R439) -/
  | perstNAssert (straps : BitVec 2)
  /-- PERST_N_DEASSERT: PERST_N is deasserted; the endpoint answers with retry status until ready, and in OFF this starts a cold boot (R441) -/
  | perstNDeassert
  /-- DEV_RESET: A write of key 0x6B1D to DEV_RESET makes a device reset (R441) -/
  | devReset (v : W64) (straps : BitVec 2)
  /-- WATCHDOG_EXPIRY: The MGC watchdog count reaches 0; the device resets with reset_cause 5 and the booted slot's streak rises (R455) -/
  | watchdogExpiry (straps : BitVec 2)
  /-- BOOT_OK_TIMER: After 10 s of readiness with no watchdog expiry, stage 1 sets SEC_BOOT.ok and clears the slot's streak (R448) -/
  | bootOkTimer
  /-- VF_FLR: A function-level reset of a virtual function resets its context and its configuration space (R440) -/
  | vfFlr (n : Fin 16)
  /-- PF_FLR: A function-level reset of the physical function clears VF Enable and resets every context and function (R440) -/
  | pfFlr
  /-- VF_ENABLE_SET: VF Enable changes from 0 to 1; contexts 1 to NumVFs are reset and pass to their virtual functions (R428) -/
  | vfEnableSet (num : Fin 16)
  /-- VF_ENABLE_CLEAR: VF Enable changes from 1 to 0; the virtual functions' contexts are reset and return to the physical function, with ABORTED records dropped (R428) -/
  | vfEnableClear
  /-- MSIX_UNMASK: Unmasking an MSI-X vector or clearing the Function Mask sends its pending message (R437) -/
  | msixUnmask (fn : Fin 16) (vec : Option (Fin 128))
  /-- QUEUE_ENTRY_DECODE: The CFE decodes a valid head entry, checks its header and class 0x2_ conditions, and holds it on its wait (R189) -/
  | queueEntryDecode (c : CtxId) (e : Engine)
  /-- COMMAND_HANDOVER: A released command is handed to its engine when the share table, engine capacity and Exact mode allow (R31) -/
  | commandHandover (e : Engine)
  /-- COMMAND_COMPLETE: A command completes; its Tail entry, completion record and signals are applied in order and its arming retires (R195) -/
  | commandComplete (c : CtxId) (e : Engine)
  /-- MSIX_TIMER_EXPIRY: The oldest pending irq record has waited the configured timer microseconds, so the MSI-X message is sent (R198) -/
  | msixTimerExpiry (c : CtxId)
  /-- CQ_HEAD_WRITE: Software reports consumed completion records; buffered records move into the freed ring space, and a write beyond the tail is refused (R196) -/
  | cqHeadWrite (c : CtxId) (v : W64)
  /-- QUEUE_ENABLE_WRITE: A write of CTX_CTRL.q_en enables or sets aside the context's queues and makes the CFE decode head slots afresh (R184) -/
  | queueEnableWrite (c : CtxId) (v : W64)
  /-- CONTEXT_RESET: A write of CTX_CTRL.reset abandons the context's commands and clears its queues, counters, request table and duplicate window (R206) -/
  | contextReset (c : CtxId)
  /-- DEV_CTX_QUEUE_DISABLE: DEV_CTX_CTL op 1 clears every q_en bit of the named context (R442) -/
  | devCtxQueueDisable (c : CtxId)
  /-- DEV_CTX_RESET: DEV_CTX_CTL op 2 performs a context reset of the named context (R442) -/
  | devCtxReset (c : CtxId)
  /-- ABORT_REQUEST: A CTX_ABORT write with all = 0 makes every not-yet-started command of the named open request complete ABORTED (R205) -/
  | abortRequest (c : CtxId) (req : BitVec 48)
  /-- ABORT_ALL: A CTX_ABORT write with all = 1 aborts every request of the context that is open (R205) -/
  | abortAll (c : CtxId)
  /-- SYNC_ADD: A write of CTX_SYNC_ADD adds a value atomically to a context counter as an SCN increment (R199) -/
  | syncAdd (c : CtxId) (v : W64)
  /-- SYNC_COUNTER_WRITE: A host write of CTX_SYNCn sets a context counter, applied before any same-cycle increment (R199) -/
  | syncCounterWrite (c : CtxId) (n : Fin 256) (v : W64)
  /-- SYSTEM_COUNTER_WRITE: A host write of DEV_SYSCNTn on the Planet sets a system counter and sends the new value to every device (R201) -/
  | systemCounterWrite (n : Fin 256) (v : W64)
  /-- QUANT: VEC QUANT converts a tensor to a narrow format by first pass or carried scale, with statistics, outliers and an optional wide re-run (R44) -/
  | quant (c : CtxId) (slot : Nat)
  /-- FUNC: VEC FUNC applies an elementwise function defined to the bit and writes FP32 or BF16 (R60) -/
  | func (c : CtxId) (slot : Nat)
  /-- SCALE_FIND: VEC SCALE_FIND runs the first pass only and writes a header with the exponent found (R46) -/
  | scaleFind (c : CtxId) (slot : Nat)
  /-- NORM: VEC NORM normalises each channel row by mean and variance or by root mean square using the canonical tree (R491) -/
  | norm (c : CtxId) (slot : Nat)
  /-- SOFTMAX: VEC SOFTMAX computes the softmax of each channel row using the canonical tree (R491) -/
  | softmax (c : CtxId) (slot : Nat)
  /-- RESCALE: VEC RESCALE folds an INT16 weight tensor by a per-channel rescale table into INT8 or INT4 (R58) -/
  | rescale (c : CtxId) (slot : Nat)
  /-- OUTLIER: VEC OUTLIER adds the BF16 outlier contribution to a main integer result in FP32 (R57) -/
  | outlier (c : CtxId) (slot : Nat)
  /-- RANDOM: VEC RANDOM fills the destination with counter-based random words or FP32 values in [0, 1) (R61) -/
  | random (c : CtxId) (slot : Nat)
  /-- ADD: VEC ADD sums two sources elementwise and writes the result in the destination format (R66) -/
  | add (c : CtxId) (slot : Nat)
  /-- MATVEC: CAF MATVEC multiplies input vectors by a resident tile set bit-serially and writes exact ACC64 results (R79) -/
  | matvec (c : CtxId) (slot : Nat) (faults : List (Nat × Nat × Nat))
  /-- SCRUB: CAF SCRUB reads every cell of a slot at nominal and shifted references and writes a weak-cell report (R111) -/
  | scrub (c : CtxId) (slot : Nat) (weak : List (Nat × Nat × Nat))
  /-- MATMUL: MXE MATMUL multiplies stationary activations by a streamed weight matrix, whole or as one node of the canonical chunk tree (R127) -/
  | matmul (c : CtxId) (slot : Nat)
  /-- OPERAND_STALL_EPISODE: A stall episode ends when all of the slot's weight vectors arrive in the operand buffer, and the array takes the slot (R137) -/
  | operandStallEpisode (cycles : Nat)
  /-- COMBINE: MXE COMBINE completes the canonical chunk tree from node tensors by pairwise addition (R130) -/
  | combine (c : CtxId) (slot : Nat)
  /-- BLOCK_DECODE: An expander decodes the 16 sub-streams of a compressed block whose coded bytes have arrived, or passes a raw block through (R167) -/
  | blockDecode (c : CtxId) (slot : Nat)
  /-- ARM: TMV ARM installs a stream descriptor in a slot as the current or shadow arming (R217) -/
  | arm (c : CtxId) (slot : Nat)
  /-- DISARM: TMV DISARM removes every arming of a slot that has no consumer (R236) -/
  | disarm (c : CtxId) (slot : Nat)
  /-- COPY: TMV COPY reads a source walk and writes its bytes to a destination walk (R237) -/
  | copy (c : CtxId) (slot : Nat)
  /-- SLOT_TABLE: TMV SLOT_TABLE loads a static slot table for one engine and resets its pointer (R238) -/
  | slotTable (c : CtxId) (slot : Nat)
  /-- CTX_SAVE: TMV CTX_SAVE writes the sealed save image of a quiescent context (R240) -/
  | ctxSave (c : CtxId) (slot : Nat)
  /-- CTX_RESTORE: TMV CTX_RESTORE checks the seal and replaces a context's state and armings from a save image (R241) -/
  | ctxRestore (c : CtxId) (slot : Nat)
  /-- COMPRESS: TMV COMPRESS builds a code table from a raw tensor and writes the compressed tensor and the table image (R174) -/
  | compress (c : CtxId) (slot : Nat)
  /-- TABLE_LOAD: TMV TABLE_LOAD requests a code-table image load or clear of a slot, holding its queue's head until it completes (R176) -/
  | tableLoad (c : CtxId)
  /-- TABLE_LOAD_UNPINNED: A waiting TABLE_LOAD or restore proceeds once its slot is unpinned, reads its image and loads it (R172) -/
  | tableLoadUnpinned (c : CtxId)
  /-- TRANSFER_GRANT: When a transfer place is free, the engine's arbiter grants it to an eligible arming by age cap, time-to-empty or the Exact-mode slot table (R227) -/
  | transferGrant (e : Engine) (waits : List Nat)
  /-- TRANSFER_RETIRE: A stream tile arrives in the slot's buffer or at the consumer, and the transfer retires (R223) -/
  | transferRetire (c : CtxId) (e : Engine) (slot : Nat)
  /-- TILE_DEADLINE_EXPIRY: A consumer has waited tile_dl µs for one tile, so that tile and every later tile of the arming are poisoned (R231) -/
  | tileDeadlineExpiry (c : CtxId) (e : Engine) (slot : Nat)
  /-- DRAM_REFRESH: The DST controller performs a refresh that may delay a DST access (R28) -/
  | dramRefresh (hits : List Nat)
  /-- PROMOTE: A CTX_MIG_REQ PROMOTE request asks for the context's reference to a copy in a faster tier (R263) -/
  | promote (c : CtxId) (v : W64)
  /-- EVICT: A CTX_MIG_REQ EVICT request drops the context's reference to an upper copy (R264) -/
  | evict (c : CtxId) (v : W64)
  /-- WRITEBACK: A CTX_MIG_REQ WRITEBACK request writes a dirty copy to its home and keeps the copy (R259) -/
  | writeback (c : CtxId) (v : W64)
  /-- MIGRATION_OP_START: A migration operation starts once earlier operations on its object have ended and no quiesce or Exact-mode hold applies (R262) -/
  | migrationOpStart
  /-- MIGRATION_OP_END: A migration operation ends; residency, references and charges are updated, the result word is written and the signal is applied (R261) -/
  | migrationOpEnd (c : CtxId) (id : BitVec 8)
  /-- MIGRATION_DEADLINE: A migration request's deadline passes before it ends, so it completes with TIER_LATE (R267) -/
  | migrationDeadline (c : CtxId) (id : BitVec 8)
  /-- QUIESCE_REQUEST: A write of MEM_QUIESCE.req = 1 stops the migration engine from starting new operations (R254) -/
  | quiesceRequest (who : Requester)
  /-- QUIESCE_DONE: The last migration operation in progress ends under a quiesce request, so done reads 1 (R256) -/
  | quiesceDone
  /-- QUIESCE_RELEASE: A write of MEM_QUIESCE.req = 0 lets queued migration requests run in arrival order (R254) -/
  | quiesceRelease (who : Requester)
  /-- OBJ_READ: MEM_OBJ_OP READ loads an object-table entry into MEM_OBJ_W0 to MEM_OBJ_W3 (R253) -/
  | objRead (who : Requester)
  /-- CREATE: MEM_OBJ_OP CREATE checks and makes an object-table entry and charges its home tier (R255) -/
  | create (who : Requester)
  /-- DELETE: MEM_OBJ_OP DELETE frees an object's entry, copies and charges (R257) -/
  | delete (who : Requester)
  /-- SET_SHARE: MEM_OBJ_OP SET_SHARE changes an object's share mask (R255) -/
  | setShare (who : Requester)
  /-- SET_STATE: MEM_OBJ_OP SET_STATE changes an object's ro and install state (R255) -/
  | setState (who : Requester)
  /-- MDL_READ: MEM_MDL_OP READ loads a model-table entry into MEM_MDL_W0 to MEM_MDL_W3 (R327) -/
  | mdlRead (who : Requester)
  /-- DEFINE: MEM_MDL_OP DEFINE checks and makes a model-table entry (R327) -/
  | define (who : Requester)
  /-- UNDEFINE: MEM_MDL_OP UNDEFINE removes a model entry whose slots are empty or stale (R327) -/
  | undefine (who : Requester)
  /-- CRC_CONFIG_WRITE: A write of CTX_CRC_CFGu sets the unit's width and feed length and clears its running value (R383) -/
  | crcConfigWrite (c : CtxId) (u : Fin 4) (v : W64)
  /-- CRC_FEED: A write of CTX_CRC_FEEDu feeds bytes into a context check-value unit (R383) -/
  | crcFeed (c : CtxId) (u : Fin 4) (v : W64)
  /-- CRC_ADVANCE: A write of CTX_CRC_ADVu starts advancing the running value over a number of zero bytes (R383) -/
  | crcAdvance (c : CtxId) (u : Fin 4) (v : W64)
  /-- CRC_ADVANCE_DONE: An advance completes, busy clears, and waiting accesses to the unit are applied in order (R383) -/
  | crcAdvanceDone (c : CtxId) (u : Fin 4)
  /-- EXACT_ENTER: A write of CTX_EXACT.req = 1 holds other contexts and T0 moves, wakes domains, or is refused (R336) -/
  | exactEnter (c : CtxId)
  /-- EXACT_ACTIVATE: When no other or earlier command is in execution, the context becomes active in Exact mode (R336) -/
  | exactActivate (c : CtxId)
  /-- EXACT_EXIT: A write of CTX_EXACT.req = 0 stops handing the context's commands to engines (R336) -/
  | exactExit (c : CtxId)
  /-- EXACT_DEACTIVATE: When the context has no command in execution, active clears and other contexts, migrations and gating resume (R336) -/
  | exactDeactivate (c : CtxId)
  /-- TAIL_HEAD_WRITE: Software reports consumed Tail entries, and buffered entries move into the freed ring space (R342) -/
  | tailHeadWrite (c : CtxId) (v : W64)
  /-- FPC_KEY_WRITE: A write of FPC_KEY advances, claims or relocks the unlock sequence (R291) -/
  | fpcKeyWrite (who : Requester) (v : W64)
  /-- FPC_CMD_WRITE: A write of FPC_CMD in the unlocked sequence records the operation or relocks (R291) -/
  | fpcCmdWrite (who : Requester) (v : W64)
  /-- FPC_ADDR_WRITE: A write of FPC_ADDR after FPC_CMD records the address or relocks (R291) -/
  | fpcAddrWrite (who : Requester) (v : W64)
  /-- FPC_SEQUENCE_TIMEOUT: A sequence step comes later than its MCLK limit, so the FPC relocks (R292) -/
  | fpcSequenceTimeout
  /-- FPC_LOCKOUT_EXPIRY: The 2^27 MCLK lockout after 16 relocks ends, and FPC_KEY is accepted again (R292) -/
  | fpcLockoutExpiry
  /-- PROG_PAGES: A launched PROG_PAGES programs pages from a staging buffer into the object's next flash pages (R281) -/
  | progPages (who : Requester) (v : W64)
  /-- ERASE_BLOCK: A launched ERASE_BLOCK erases a WST block with no live pages (R285) -/
  | eraseBlock (who : Requester) (v : W64)
  /-- RELOCATE: A launched RELOCATE moves a block's live pages to the plane's fill position (R299) -/
  | relocate (who : Requester) (v : W64)
  /-- CAF_TILE: A launched CAF_TILE plans and programs one tile from a tile image around its stuck cells (R102) -/
  | cafTile (who : Requester) (v : W64)
  /-- CAF_ERASE: A launched CAF_ERASE erases sectors of a tile that is in no bound slot (R98) -/
  | cafErase (who : Requester) (v : W64)
  /-- FW_PAGE: A launched FW_PAGE programs one page of a firmware slot that is being updated (R452) -/
  | fwPage (who : Requester) (v : W64)
  /-- FPC_OPERATION_START: A launched FPC operation starts once earlier operations on its plane or tile are done and the program-rate limit allows (R294) -/
  | fpcOperationStart (id : BitVec 8) (ones : List (Nat × Nat))
  /-- PROGRAM_PULSE_END: A program pulse and its verify end; the next pulse follows, the page or row is done, or the pulse limit is reached (R283) -/
  | programPulseEnd (id : BitVec 8) (cells : PulseCells)
  /-- ERASE_PULSE_END: An erase pulse and its verify end; the next pulse follows, the erase completes, or the unit becomes BAD (R285) -/
  | erasePulseEnd (id : BitVec 8) (good : Bool)
  /-- ERASE_SUSPEND: A read or program of the plane, or a host request, suspends a running erase and abandons its pulse (R286) -/
  | eraseSuspend (id : BitVec 8)
  /-- ERASE_RESUME_GAP: A read-suspended erase resumes after its plane has had no queued work for resume_gap µs (R286) -/
  | eraseResumeGap (id : BitVec 8)
  /-- ERASE_CTL_SUSPEND: FPC_ERASE_CTL action 1 suspends an erase in progress (R286) -/
  | eraseCtlSuspend (id : BitVec 8)
  /-- ERASE_CTL_RESUME: FPC_ERASE_CTL action 2 resumes a host-suspended erase (R286) -/
  | eraseCtlResume (id : BitVec 8)
  /-- ERASE_CTL_HOLD: FPC_ERASE_CTL action 3 sets hold so the erase is no longer suspended (R287) -/
  | eraseCtlHold (id : BitVec 8)
  /-- FPC_RESULT_POP: A write of FPC_RESULT.pop removes the oldest result from the accessing requester's queue (R294) -/
  | fpcResultPop (who : Requester)
  /-- CAL_DATA_READ: A read of FPC_CAL_DATA returns a calibration-row word and advances the word index (R302) -/
  | calDataRead
  /-- CAF_PAIR_RETIRE: A write of CAF_PAIR_RETIRE marks a data pair of a tile for remapping at its next program (R115) -/
  | cafPairRetire (v : W64)
  /-- START: FPC_INST_CMD START begins building a model's target batch slot from a manifest (R314) -/
  | start (v : W64)
  /-- SWITCH: FPC_INST_CMD SWITCH orders every device to make the standby slot active, in IMMEDIATE or NUMBERED mode (R318) -/
  | switch (v : W64)
  /-- CLOSE: FPC_INST_CMD CLOSE removes the NUMBERED boundary on every device (R319) -/
  | close (v : W64)
  /-- RETIRE: FPC_INST_CMD RETIRE makes a model's active slot retiring and leaves it with no active slot (R320) -/
  | retire (v : W64)
  /-- ABORT: FPC_INST_CMD ABORT ends the installation without a switch (R325) -/
  | abort (v : W64)
  /-- INSTALL_TIMEOUT: The installation timeout passes before every completion report, so it ends with WEIGHTS_UNAVAILABLE (R325) -/
  | installTimeout
  /-- SHARD_FETCH: The leader fetches the next shard, checks it and sends it down every chain holding a destination (R321) -/
  | shardFetch
  /-- INSTALLER_PROGRAM_LAUNCH: The installer launches the next PROG_PAGES or CAF_TILE for a held shard once the earlier page has been launched (R315) -/
  | installerProgramLaunch
  /-- PART_COMPLETE: A device that has checked every shard and received DONE for every operation sets its objects LIVE and its slot STANDBY (R317) -/
  | partComplete
  /-- DATA_FLIT: A received data flit is checked for CRC and sequence, and is accepted, dropped as a duplicate, or NAKed (R356) -/
  | dataFlit (p : PortId) (bytes : List Byte)
  /-- CONTROL_FLIT: A received control flit is checked for CRC and sequence, and its messages are accepted or it is NAKed (R356) -/
  | controlFlit (p : PortId) (bytes : List Byte)
  /-- DACK: A DACK releases acknowledged data flits from the replay buffer (R356) -/
  | dack (p : PortId)
  /-- DNAK: A DNAK makes the transmitter replay data flits from the named sequence number (R356) -/
  | dnak (p : PortId)
  /-- CACK: A CACK releases acknowledged control flits from the replay buffer (R356) -/
  | cack (p : PortId)
  /-- CNAK: A CNAK makes the transmitter replay control flits from the named sequence number (R356) -/
  | cnak (p : PortId)
  /-- CREDIT: A CREDIT message returns credits for a channel to the sender (R359) -/
  | credit (p : PortId)
  /-- SYNC_INC: A system-counter increment travelling to the Planet is applied there, and the new value is sent down (R201) -/
  | syncInc (p : PortId)
  /-- SYNC_VAL: A Moon updates its copy of a system counter and passes the value on (R201) -/
  | syncVal (p : PortId)
  /-- TIME: A Moon compares a received TIME message with its own time and steps or slews it (R369) -/
  | time (p : PortId)
  /-- MEASURE_REQUEST: A MEASURE request is answered with a reply carrying the turnaround (R364) -/
  | measureRequest (p : PortId) (turn : BitVec 30)
  /-- MEASURE_REPLY: A MEASURE reply is recorded toward the port's one-way latency (R364) -/
  | measureReply (p : PortId) (ui : Nat)
  /-- JOIN: A JOIN reaching the Planet assigns the lowest free device number or refuses it (R372) -/
  | join (p : PortId)
  /-- ASSIGN: An ASSIGN gives a device its number and upstream link (R371) -/
  | assign (p : PortId)
  /-- LOST: A LOST report makes the Planet mark the region below the link REATTACHING and start reattachment (R373) -/
  | lost (p : PortId)
  /-- REATTACH: A REATTACH makes the device take the standby link as its upstream and answer ATTACHED (R373) -/
  | reattach (p : PortId)
  /-- ATTACHED: An ATTACHED answer puts the region back in the tree with new hop counts (R373) -/
  | attached (p : PortId)
  /-- PORTS: A PORTS report records a device's ports in the Planet's topology map (R371) -/
  | ports (p : PortId) (note : PortsNote)
  /-- REFUSE: A REFUSE leaves a device unnumbered, with its links carrying only link-layer messages (R372) -/
  | refuse (p : PortId)
  /-- INST_ACK: An ACK frees the upstream device's replay store for an installation shard (R323) -/
  | instAck (p : PortId)
  /-- INST_REREQ: A REREQ makes the upstream device resend shards from the corrupt one onward (R323) -/
  | instRereq (p : PortId)
  /-- INST_DONE: A DONE report tells the leader a device has completed its part; all reports make the leader READY (R324) -/
  | instDone (p : PortId)
  /-- INST_FAIL: A FAIL report tells the leader a device's part failed, ending the installation (R324) -/
  | instFail (p : PortId) (st : BitVec 8) (detail : BitVec 16)
  /-- INST_SWITCH: A switch order makes a Moon activate the standby slot, install held boundaries and acknowledge (R318) -/
  | instSwitch (p : PortId)
  /-- INST_SWITCH_ACK: A switch acknowledgement reaches the leader; all of them make it ARMED (R318) -/
  | instSwitchAck (p : PortId)
  /-- INST_CLOSE: A CLOSE order removes the model's boundary on a Moon (R319) -/
  | instClose (p : PortId)
  /-- INST_SWITCH_REC: A Moon holds a per-context boundary record for the next SWITCH (R355) -/
  | instSwitchRec (p : PortId)
  /-- READ: A peer READ is served as an access of the named context, or answered as a fault with poisoned data (R362) -/
  | read (p : PortId)
  /-- WRITE: A peer WRITE is applied as an access of the named context, or refused (R362) -/
  | write (p : PortId)
  /-- READ_DATA: A READ_DATA response delivers peer data, poisoned on a fault, to the requesting transfer (R362) -/
  | readData (p : PortId)
  /-- WRITE_ACK: A WRITE_ACK completes a peer write (R362) -/
  | writeAck (p : PortId)
  /-- MGMT_REQ: A MGMT_REQ carries system-counter ownership copies or an attestation request to a neighbour (R362) -/
  | mgmtReq (p : PortId)
  /-- MGMT_RESP: A MGMT_RESP returns a management answer, such as a relayed report (R362) -/
  | mgmtResp (p : PortId)
  /-- SHARD: A received installation shard is checked, kept or forwarded, and acknowledged or re-requested (R323) -/
  | shard (p : PortId) (cmd : W64) (hdr : List Byte)
  /-- LOSS_OF_SIGNAL: A lane loses signal or clock lock for 1 µs, so the port goes DOWN (R357) -/
  | lossOfSignal (p : PortId)
  /-- FLIT_SILENCE_TIMEOUT: No valid flit arrives on the data or control lanes for 2 µs, so the port goes DOWN (R357) -/
  | flitSilenceTimeout (p : PortId)
  /-- PORT_DOWN_REQUEST: A write of LNK_PORTp_CTL.down takes the port DOWN with cause 5 (R357) -/
  | portDownRequest (p : PortId)
  /-- COMET_SEND: A write of LNK_PORTp_CTL.comet sends 64 periods of the Comet pattern on a port that is not ACTIVE (R410) -/
  | cometSend (p : PortId)
  /-- COMET_PATTERN_DETECT: A wake detector recognises the Comet pattern on a privileged port and wakes the device from PARK (R410) -/
  | cometPatternDetect (p : PortId)
  /-- TRELBO_WAKE_ACTIVITY: A data message in IDLE or DOZE, or lane signal in PARK, on a privileged port wakes the device (R408) -/
  | trelboWakeActivity (p : PortId)
  /-- PARTNER_SIGNAL_DETECT: The partner's signal is detected on all lanes of an enabled port, and training begins (R363) -/
  | partnerSignalDetect (p : PortId)
  /-- TRAINING_STATE_DONE: A port finishes equalisation, alignment or measurement, moves to the next training state, and on ACTIVE joins formation (R363) -/
  | trainingStateDone (p : PortId)
  /-- TRAINING_TIMEOUT: A training state passes its limit, so the port goes DOWN with cause 7 (R363) -/
  | trainingTimeout (p : PortId)
  /-- RETRAIN_WAIT_EXPIRY: The 1 ms wait after a training-limit DOWN ends, and the port may train again (R357) -/
  | retrainWaitExpiry (p : PortId)
  /-- TIME_SEND_INTERVAL: Every 2^15 CLK_CTL cycles, a TIME message is sent on each downstream tree link (R369) -/
  | timeSendInterval
  /-- TIME_HOLDOVER: No TIME message arrives for 1 ms, so the Moon clears locked and enters holdover (R369) -/
  | timeHoldover
  /-- REATTACH_NO_ANSWER: A REATTACH gets no answer within 10 µs, and the candidate is removed (R373) -/
  | reattachNoAnswer (dev : BitVec 8)
  /-- REATTACH_WAIT_EXPIRY: reattach_wait after a LOST passes; unreattached devices are freed, and held system signals complete LINK_LOST (R373) -/
  | reattachWaitExpiry
  /-- JOIN_RETRY: 1 s after a REFUSE, the refused device sends JOIN again (R372) -/
  | joinRetry
  /-- TIME_SET: A write of TIME_SET sets device time at the next CLK_CTL cycle (R368) -/
  | timeSet (v : W64)
  /-- TIME_ADJ: A write of TIME_ADJ starts slewing device time by a signed amount at 200 ppm (R368) -/
  | timeAdj (v : W64)
  /-- TIME_NOW_READ: A read of TIME_NOW returns integer nanoseconds and latches the fraction (R367) -/
  | timeNowRead
  /-- PPS_EDGE: Device time reaches a whole second, and TIME_PPS_OUT rises for pps_width µs (R370) -/
  | ppsEdge
  /-- PSTATE_CHANGE: PWR_STATE_CMD naming P0 to P3 retargets ACLK and VDD_CORE in steps (R396) -/
  | pstateChange (n : Fin 4)
  /-- ACLK_STEP: Each 10 µs step of a P-state change moves ACLK by 0.3 GHz (R396) -/
  | aclkStep
  /-- AVS_VOLTAGE_CONFIRM: The AVSBus status and read confirm the requested VDD_CORE voltage, and the transition continues (R413) -/
  | avsVoltageConfirm
  /-- AVS_TIMEOUT: A voltage request is not confirmed within 100 µs, and the transition fails as tabled (R413) -/
  | avsTimeout
  /-- ENTER_IDLE: PWR_STATE_CMD naming IDLE runs the entry sequence to IDLE (R405) -/
  | enterIdle (wake : Fin 4)
  /-- ENTER_DOZE: PWR_STATE_CMD naming DOZE runs the entry sequence to DOZE (R405) -/
  | enterDoze (wake : Fin 4)
  /-- ENTER_PARK: PWR_STATE_CMD naming PARK runs the entry sequence to PARK (R405) -/
  | enterPark (wake : Fin 4)
  /-- ENTER_OFF: PWR_STATE_CMD naming OFF runs the entry sequence and deasserts PWR_EN_MAIN (R405) -/
  | enterOff (wake : Fin 4)
  /-- PME_TO_ACK: The host's PME_Turn_Off exchange completes, and the link enters L2 during entry step 5 (R405) -/
  | pmeToAck
  /-- PME_TURN_OFF_TIMEOUT: The PME_Turn_Off exchange does not happen within 10 ms, so the entry is abandoned (R405) -/
  | pmeTurnOffTimeout
  /-- RTC_ALARM: The real-time clock reaches the alarm second, sets fired and wakes the device if enabled (R408) -/
  | rtcAlarm
  /-- WAKE_COMPLETE: The exit from IDLE, DOZE or PARK finishes, and the device is in its wake state (R403) -/
  | wakeComplete
  /-- DOMAIN_POWER_GATE: PWR_DOM_CTL op 1 shuts a domain down to power-gated (R400) -/
  | domainPowerGate (d : BitVec 7)
  /-- DOMAIN_POWER_UP: PWR_DOM_CTL op 2 powers up a domain or abandons its shut-down (R399) -/
  | domainPowerUp (d : BitVec 7)
  /-- DOMAIN_CLOCK_GATE: PWR_DOM_CTL op 3 clock-gates a domain (R399) -/
  | domainClockGate (d : BitVec 7)
  /-- DOMAIN_WAKE_READY: A domain woken on demand becomes ready, and the stalled access proceeds (R401) -/
  | domainWakeReady (d : BitVec 7)
  /-- PAD_HOLD_RELEASE: A write of PWR_PAD_HOLD_RELEASE ends the pad hold and applies pending pad writes (R412) -/
  | padHoldRelease (v : W64)
  /-- THERMAL_SAMPLE: Every 10 µs the 64 sensors are sampled for alert and trip (R416) -/
  | thermalSample (temps : List Int)
  /-- OFF_THERMAL_SAMPLE: Every 10 ms in OFF after a trip, sensor 63 is sampled, and a held wake starts the boot below 95 °C (R418) -/
  | offThermalSample (temp : Int)
  /-- RAIL_POLL: Every 1 ms the MGC polls each PMBus rail and updates TEL_RAIL (R414) -/
  | railPoll (l : List (Option (Nat × Nat × Nat × Bool)))
  /-- VDD_AON_POWER_UP: VDD_AON and VDD_IO have been in tolerance for 2 ms, so the always-on island leaves reset and a cold boot follows (R474) -/
  | vddAonPowerUp
  /-- VDD_AON_LOSS: VDD_AON or VDD_IO falls, and the device is unpowered (R488) -/
  | vddAonLoss
  /-- PWR_GOOD_MAIN_RISE: PWR_GOOD_MAIN rises, and the boot ROM begins 1 ms later (R474) -/
  | pwrGoodMainRise (straps : BitVec 2)
  /-- PWR_GOOD_TIMEOUT: PWR_GOOD_MAIN does not rise within 50 ms, so PWR_EN_MAIN is deasserted (R474) -/
  | pwrGoodTimeout
  /-- RAIL_RETRY: 1 s after a failed rail sequence, PWR_EN_MAIN is asserted again (R474) -/
  | railRetry
  /-- PWR_GOOD_MAIN_FALL: PWR_GOOD_MAIN falls while PWR_EN_MAIN is asserted: a power failure stops the clocks and removes the rails (R476) -/
  | pwrGoodMainFall
  /-- POWER_FAIL_RESTART: 100 ms after a power failure, PWR_EN_MAIN is asserted again for a cold boot (R476) -/
  | powerFailRestart
  /-- RECOVERY_VERIFY: A write of SEC_RECOV.go verifies the recovery buffer image and boots it or reports the failure (R449) -/
  | recoveryVerify
  /-- FWUP_BEGIN: SEC_FWUP op begin marks a slot IN_PROGRESS for update (R453) -/
  | fwupBegin (fwSlot : Bool) (version : BitVec 32)
  /-- FWUP_FINISH: SEC_FWUP op finish clears the update record (R453) -/
  | fwupFinish
  /-- FWUP_CANCEL: SEC_FWUP op cancel clears the record and leaves the slot to verification (R453) -/
  | fwupCancel
  /-- SVN_COMMIT: A keyed write of SEC_SVN_COMMIT raises min_svn in fuses (R454) -/
  | svnCommit (v : W64)
  /-- MEASUREMENT_EXTEND: A write of SEC_EXT_CTL extends measurement register 9, 10 or 11 (R456) -/
  | measurementExtend (k : Fin 16)
  /-- CONTEXT_MEASUREMENT_EXTEND: A write of CTX_EXT_CTL.go extends the context's CTX_MEAS (R457) -/
  | contextMeasurementExtend (c : CtxId)
  /-- ATTESTATION_REQUEST: SEC_ATT_CTL.go with dev = 0 queues a report of kind 1 (R459) -/
  | attestationRequest (mctx : CtxId)
  /-- REMOTE_ATTESTATION_REQUEST: SEC_ATT_CTL.go with nonzero dev on a Planet requests a Moon's report hop by hop (R462) -/
  | remoteAttestationRequest (dev : BitVec 8) (mctx : CtxId)
  /-- CONTEXT_ATTESTATION_REQUEST: CTX_ATT_REQ.go queues a report of kind 2 for the context (R459) -/
  | contextAttestationRequest (c : CtxId)
  /-- REPORT_SIGN_START: Stage 2 takes the next queued request, samples the values, and begins signing (R460) -/
  | reportSignStart
  /-- REPORT_SIGN_DONE: Signing ends, and the report is written to its destination or the write faults (R460) -/
  | reportSignDone
  /-- CERT_DATA_READ: A read of SEC_CERT_DATA or CTX_CERT_DATA returns a certificate word and advances the index (R458) -/
  | certDataRead (c : Option CtxId)
  /-- LOG_SELECT: A write of TEL_LOG_SEL latches the selected log entry into TEL_LOG_W0 to TEL_LOG_W3 (R390) -/
  | logSelect (v : W64)
  /-- PCIE_LINK_UP: The PCI Express link returns to DL_Active after a loss, and waiting completion records, migration result words and Tail entries are written to host memory (R438) -/
  | pcieLinkUp (gen : Nat) (width : Nat)
  /-- PCIE_COMPLETION_TIMEOUT: A read from host memory gets no completion in time, so the T3 read counts as a failed lower tier and its stream or migration ends with TIER_FAULT (R388) -/
  | pcieCompletionTimeout (c : CtxId) (e : Engine) (slot : Nat) (off : Nat) (mig : Option (BitVec 8))
  /-- ABORTED_RECORD_DROP_TIMEOUT: 1 ms after a context reset began, ABORTED records that still do not fit in the ring are dropped and counted, and the reset goes on to clear the queues (R206) -/
  | abortedRecordDropTimeout (c : CtxId)
  /-- ENTRY_STEP_DONE: A timed step of a power-state entry, such as the write-back of dirty copies or the PMBus turn-off of the rails, finishes, and the sequence reaches its abort point, is abandoned, or completes in the target state (R405) -/
  | entryStepDone
  deriving DecidableEq, Repr

end Sys2Proof
end

