-- ==== Sys2Proof/Decode.lean ====
section
/-! DEFINITION. The commands that a word spells by the opcode table's bits. -/

namespace Sys2Proof

/-- The command a word of `nbits` bits spells. No row of the opcode table gives bits (the block's commands are events, register
accesses and messages, which no one word spells), so none does. (DESIGN CHOICE, assumption 12) -/
def decodeTableWord (_nbits _w : Nat) : Option Instr := none

end Sys2Proof
end

