-- ==== Sys2Proof/Machine/SMap.lean ====
section
/-! DEFINITION. Sparse data keyed by a number: a list with strictly rising keys and no entry equal to
what an unlisted key reads as, so that equal contents are equal lists. -/

namespace Sys2Proof.Machine

/-- Sparse data: an association list in rising key order. -/
abbrev SMap (α : Type) := List (Nat × α)

namespace SMap

variable {α : Type}

/-- The entry at a key, if one is listed. -/
def find? : SMap α → Nat → Option α
  | [], _ => none
  | (k, v) :: m, i => if i = k then some v else find? m i

/-- The content at a key: the listed entry, else the default. -/
def get (d : α) (m : SMap α) (i : Nat) : α := (find? m i).getD d

/-- Remove a key. -/
def erase : SMap α → Nat → SMap α
  | [], _ => []
  | (k, v) :: m, i => if i = k then erase m i else (k, v) :: erase m i

/-- List a key with a content, in its place. -/
def insert : SMap α → Nat → α → SMap α
  | [], i, x => [(i, x)]
  | (k, v) :: m, i, x =>
    if i = k then (i, x) :: m else if i < k then (i, x) :: (k, v) :: m else (k, v) :: insert m i x

/-- Write a content; writing the default unlists the key. -/
def put [DecidableEq α] (d : α) (m : SMap α) (i : Nat) (x : α) : SMap α :=
  if x = d then erase m i else insert m i x

/-- Every listed key is above `b`, keys rise strictly, and no entry is the default. -/
def wfFrom [DecidableEq α] (d : α) : Nat → SMap α → Bool
  | _, [] => true
  | b, (k, v) :: m => decide (b ≤ k) && decide (v ≠ d) && wfFrom d (k + 1) m

/-- The canonical form. -/
def wf [DecidableEq α] (d : α) (m : SMap α) : Bool := wfFrom d 0 m

/-- The listed keys. -/
def keys (m : SMap α) : List Nat := m.map Prod.fst

/-- Keep the entries whose key meets a test. -/
def keepKeys (p : Nat → Bool) (m : SMap α) : SMap α := m.filter (fun e => p e.1)

end SMap

end Sys2Proof.Machine
end

