-- ==== Sys2Proof/Machine/Bits.lean ====
section
/-! DEFINITION. Bit fields (R4), byte order (R5), and rounding of integers (R39). -/

namespace Sys2Proof.Machine

/-- A field of a 64-bit word: `width` bits from bit `lo` up (R4). -/
structure Fld where
  off : Nat
  lo : Nat
  width : Nat
  deriving DecidableEq, Repr

/-- Bits [lo + width − 1 : lo] of a number. -/
def bitsOf (v lo width : Nat) : Nat := (v / 2 ^ lo) % 2 ^ width

/-- Bits [lo + width − 1 : lo] of a 64-bit word, as a number. -/
def wBits (w : W64) (lo width : Nat) : Nat := bitsOf w.toNat lo width

/-- One bit of a 64-bit word. -/
def wBit (w : W64) (i : Nat) : Bool := w.getLsbD i

/-- A word with `width` bits from `lo` replaced by `x`, taken modulo 2^width. -/
def wSet (w : W64) (lo width x : Nat) : W64 :=
  let mask : W64 := BitVec.ofNat 64 ((2 ^ width - 1) * 2 ^ lo)
  (w &&& ~~~ mask) ||| (BitVec.ofNat 64 ((x % 2 ^ width) * 2 ^ lo))

/-- A two's-complement field of `width` bits as an integer. -/
def signed (width v : Nat) : Int :=
  if v % 2 ^ width < 2 ^ (width - 1) then ((v % 2 ^ width : Nat) : Int)
  else ((v % 2 ^ width : Nat) : Int) - (2 ^ width : Nat)

/-- An integer as a two's-complement field of `width` bits. -/
def unsigned (width : Nat) (v : Int) : Nat := (v % ((2 ^ width : Nat) : Int)).toNat

/-- The value of little-endian bytes (R5). -/
def leVal : List Byte → Nat
  | [] => 0
  | b :: bs => b.toNat + 256 * leVal bs

/-- A number as `n` little-endian bytes (R5). -/
def leBytes : Nat → Nat → List Byte
  | 0, _ => []
  | n + 1, v => BitVec.ofNat 8 v :: leBytes n (v / 256)

/-- Saturating addition to an unsigned field of `width` bits. -/
def satAdd (width a b : Nat) : Nat := min (2 ^ width - 1) (a + b)

/-- ⌈a / b⌉. -/
def ceilDiv (a b : Nat) : Nat := (a + b - 1) / b

/-- `a` rounded up to a multiple of `b`. -/
def roundUp (a b : Nat) : Nat := ceilDiv a b * b

/-- R39 on naturals: `a / 2^k` to the nearest, ties away from zero. -/
def roundShiftNat (a k : Nat) : Nat := if k = 0 then a else (a + 2 ^ (k - 1)) / 2 ^ k

/-- `round_shift` of R39: the rounded quotient `a / 2^k`, ties away from zero. -/
def roundShift (a : Int) (k : Nat) : Int :=
  if 0 ≤ a then (roundShiftNat a.toNat k : Nat) else - ((roundShiftNat (-a).toNat k : Nat) : Int)

/-- `a × 2^k` for an integer exponent, rounded by R39 when the shift is to the right. -/
def scaleInt (a : Int) (k : Int) : Int :=
  if 0 ≤ k then a * (2 ^ k.toNat : Nat) else roundShift a (-k).toNat

/-- Saturation into a range. -/
def clampInt (lo hi a : Int) : Int := max lo (min hi a)

/-- The number of binary digits of a natural. -/
def bitLen (n : Nat) : Nat := if n = 0 then 0 else Nat.log2 n + 1

/-- A natural rotated left by `k` within 64 bits. -/
def rotl64 (w : W64) (k : Nat) : W64 := w.rotateLeft k

/-- The bits of a number that are 1, below `n`, in rising order. -/
def setBitsBelow (n v : Nat) : List Nat := (List.range n).filter (fun i => Nat.testBit v i)

/-- The number of 1 bits below `n`. -/
def popCount (n v : Nat) : Nat := (setBitsBelow n v).length

/-- A Bool as a bit. -/
def b2n (b : Bool) : Nat := if b then 1 else 0

/-- Replace the element at a position of a list; beyond the end, nothing. -/
def listSet {α : Type} (l : List α) (i : Nat) (x : α) : List α := l.set i x

/-- Update the element at a position. -/
def listUpd {α : Type} (l : List α) (i : Nat) (f : α → α) : List α := l.modify i f

/-- Cut a list into pieces of `n` elements, with at most `fuel` pieces. -/
def chunksOf {α : Type} (n : Nat) : Nat → List α → List (List α)
  | 0, _ => []
  | _, [] => []
  | fuel + 1, l => l.take n :: chunksOf n fuel (l.drop n)

end Sys2Proof.Machine
end

