-- ==== Sys2Proof/Machine/CafMath.lean ====
section
/-! DEFINITION. The charge array's arithmetic: counts and exact sums (R72, R79, R82), weight encodings around stuck cells (R75, R105). -/

namespace Sys2Proof.Machine

/-- The stored slice bits of one weight: positive side and negative side, bit k for slice k (R75). -/
abbrev Cell2 := Nat × Nat

/-- The slice weights of R75, the redundancy slice last. -/
def sliceWt (int4 : Bool) : List Nat := if int4 then [1, 2, 4, 4] else [1, 2, 4, 8, 16, 32, 64, 64]

/-- The magnitude one side's slice bits hold. -/
def sideVal (int4 : Bool) (bits : Nat) : Nat :=
  ((sliceWt int4).zipIdx.map (fun p => p.1 * b2n (Nat.testBit bits p.2))).sum

/-- The weight a pair of sides stores, p − n (R75). -/
def cellVal (int4 : Bool) (c : Cell2) : Int := (sideVal int4 c.1 : Int) - (sideVal int4 c.2 : Int)

/-- Bit j of a B-bit two's-complement input (R77). -/
def inBit (b : Nat) (x : Int) (j : Nat) : Bool := Nat.testBit (unsigned b x) j

/-- One conversion (R72): the rows of the group whose input bit j is 1 and whose cell in the column holds 1. -/
def colCount (b j : Nat) (sel : Cell2 → Nat) (k : Nat) (rows : List (Int × Cell2)) : Nat :=
  (rows.filter (fun r => inBit b r.1 j && Nat.testBit (sel r.2) k)).length

/-- The group value G[o] of R79 for one output: the counts of every bit-step and slice, recombined. -/
def groupValue (int4 : Bool) (b : Nat) (rows : List (Int × Cell2)) : Int :=
  ((List.range b).map (fun j =>
    let sg : Int := if j + 1 = b then -1 else 1
    sg * (2 ^ j : Nat) *
      ((sliceWt int4).zipIdx.map (fun p =>
        (p.1 : Int) * ((colCount b j Prod.fst p.2 rows : Int) - (colCount b j Prod.snd p.2 rows : Int)))).sum)).sum

/-- The group loop of R79: groups of `gr` rows, each shifted by the shift of its sector. -/
def tileAccFrom (int4 : Bool) (b gr : Nat) (shift : Nat → Nat) : Nat → Nat → List (Int × Cell2) → Int
  | 0, _, _ => 0
  | fuel + 1, g, rows =>
    match rows with
    | [] => 0
    | _ =>
      groupValue int4 b (rows.take gr) * (2 ^ shift (g * gr / 64) : Nat)
        + tileAccFrom int4 b gr shift fuel (g + 1) (rows.drop gr)

/-- `tile_product` of R79 for one output of a tile: the row block's accumulator. -/
def tileAcc (int4 : Bool) (b gr : Nat) (shift : Nat → Nat) (rows : List (Int × Cell2)) : Int :=
  tileAccFrom int4 b gr shift rows.length 0 rows

/-- One level of the reduction of R82. -/
def pairSums : List Int → List Int
  | a :: b :: l => (a + b) :: pairSums l
  | l => l

/-- The levels of R82 over a list padded to a power of two. -/
def reduceLevels : Nat → List Int → Int
  | 0, l => l.headD 0
  | n + 1, l => reduceLevels n (pairSums l)

/-- `reduce` of R82: the canonical binary tree over the row blocks. -/
def reduceTree (l : List Int) : Int :=
  let k := if l.length ≤ 1 then 0 else bitLen (l.length - 1)
  reduceLevels k (l ++ List.replicate (2 ^ k - l.length) 0)

/-- The bit-steps of an input format code (R77): INT4, INT8, UINT8, INT16. -/
def bitSteps : Nat → Nat
  | 0 => 4 | 1 => 8 | 2 => 9 | _ => 16

/-- The largest input magnitude A of R83. -/
def inMag : Nat → Nat
  | 0 => 8 | 1 => 128 | 2 => 255 | _ => 32768

/-- The check of R83: no sum can leave the 40-bit range. -/
def sumFits (int4 : Bool) (srcFmt hs : Nat) : Bool :=
  decide (64 * (if int4 then 7 else 127) * inMag srcFmt * hs ≤ 2 ^ 39 - 1)

/-! Encoding around stuck cells (R105). -/

/-- T of R105, the weight of the top slice. -/
def encT (int4 : Bool) : Nat := if int4 then 4 else 64
/-- L of R105, the largest magnitude of a side. -/
def encL (int4 : Bool) : Nat := if int4 then 11 else 191
/-- The slices of a side. -/
def nSlices (int4 : Bool) : Nat := if int4 then 4 else 8

/-- Do slice bits equal the forced values (slice, value)? -/
def meets (bits : Nat) (forced : List (Nat × Bool)) : Bool := forced.all (fun f => Nat.testBit bits f.1 == f.2)

/-- `fit` of R105: the first candidate bit pattern of magnitude v that equals every forced cell. -/
def fitSide (int4 : Bool) (v : Nat) (forced : List (Nat × Bool)) : Option Nat :=
  let t := encT int4
  let lo := v % t
  let top := t
  let red := 2 * t
  let cands :=
    if v < t then [lo] else if v < 2 * t then [lo + top, lo + red] else [lo + top + red]
  cands.find? (fun c => meets c forced)

/-- `encode` of R105: the stored sides of weight w, or none. -/
def encodeW (int4 : Bool) (w : Int) (fPos fNeg : List (Nat × Bool)) : Option Cell2 :=
  let p0 := w.toNat
  let n0 := (-w).toNat
  (List.range (encL int4 - max p0 n0 + 1)).findSome? (fun d =>
    match fitSide int4 (p0 + d) fPos, fitSide int4 (n0 + d) fNeg with
    | some p, some n => some (p, n)
    | _, _ => none)

/-- The ordinary encoding of a weight with no stuck cell. -/
def ordinary (int4 : Bool) (w : Int) : Option Cell2 := encodeW int4 w [] []

/-- The encodable value nearest to w, ties to the smaller magnitude (R109), with its encoding. Of the two values at one distance from
w = 0, equal in magnitude, it is the negative one; the value may lie outside the format's codes, as R105 encodes every value up to L.
(DESIGN CHOICE, assumption 78) -/
def nearestEnc (int4 : Bool) (w : Int) (fPos fNeg : List (Nat × Bool)) : Option (Int × Cell2) :=
  (List.range (2 * encL int4 + 1)).findSome? (fun dist =>
    let a := w - (dist : Int)
    let b := w + (dist : Int)
    let cands := if a.natAbs ≤ b.natAbs then [a, b] else [b, a]
    cands.findSome? (fun v =>
      if v.natAbs ≤ encL int4 then (encodeW int4 v fPos fNeg).map (fun c => (v, c)) else none))

end Sys2Proof.Machine
end

