-- ==== Sys2Proof/Machine/Crc.lean ====
section
/-! DEFINITION. The check-value functions of R378, their running values (R381) and the advance of R382; the scrambler and the striping of a
Trelbo lane group (R352). -/

namespace Sys2Proof.Machine

/-- One bit step of the reflected CRC-32C register. -/
def crc32Step (r : BitVec 32) : BitVec 32 :=
  if r.getLsbD 0 then (r >>> 1) ^^^ 0x82F63B78 else r >>> 1

/-- One bit step of the CRC-64/ECMA-182 register. -/
def crc64Step (r : W64) : W64 :=
  if r.getLsbD 63 then (r <<< 1) ^^^ 0x42F0E1EBA9EA3693 else r <<< 1

/-- Eight bit steps. -/
def step8 {α : Type} (f : α → α) (x : α) : α := f (f (f (f (f (f (f (f x)))))))

/-- Feed one byte to the CRC-32C register (R378). -/
def crc32Feed (r : BitVec 32) (b : Byte) : BitVec 32 := step8 crc32Step (r ^^^ b.setWidth 32)

/-- Feed one byte to the CRC-64 register, most significant bit first. -/
def crc64Feed (r : W64) (b : Byte) : W64 := step8 crc64Step (r ^^^ (b.setWidth 64 <<< 56))

/-- CRC-32C continued from a running value (R381). -/
def crc32Run (v : BitVec 32) (bs : List Byte) : BitVec 32 := (bs.foldl crc32Feed (v ^^^ 0xFFFFFFFF)) ^^^ 0xFFFFFFFF

/-- CRC-64 continued from a running value (R381). -/
def crc64Run (v : W64) (bs : List Byte) : W64 := bs.foldl crc64Feed v

/-- CRC-32C of a byte string. -/
def crc32c (bs : List Byte) : BitVec 32 := crc32Run 0 bs

/-- CRC-64/ECMA-182 of a byte string. -/
def crc64 (bs : List Byte) : W64 := crc64Run 0 bs

/-- `advance(v, L)` of R382 for CRC-32C: L zero bytes through the bare register. -/
def crc32Advance (v : BitVec 32) (n : Nat) : BitVec 32 := Nat.repeat (step8 crc32Step) n v

/-- `advance(v, L)` of R343 for CRC-64. -/
def crc64Advance (v : W64) (n : Nat) : W64 := Nat.repeat (step8 crc64Step) n v

/-! ### Lanes (R352). A flit sent shows its bytes before they are striped and scrambled. (DESIGN CHOICE, assumption 101) -/

/-- One bit of the self-synchronising scrambler x^58 + x^39 + 1: the bit on the lane, and the last 58 lane bits, newest lowest. -/
def scrambleBit (r : BitVec 58) (b : Bool) : Bool × BitVec 58 :=
  let o := b ^^ (r.getLsbD 38 ^^ r.getLsbD 57)
  (o, (r <<< 1) ||| (if o then 1 else 0))

/-- One bit of the descrambler: the data bit, and the last 58 lane bits. -/
def descrambleBit (r : BitVec 58) (o : Bool) : Bool × BitVec 58 :=
  (o ^^ (r.getLsbD 38 ^^ r.getLsbD 57), (r <<< 1) ||| (if o then 1 else 0))

/-- The bits of a lane through a scrambler or descrambler. -/
def laneRun (f : BitVec 58 → Bool → Bool × BitVec 58) (r : BitVec 58) : List Bool → List Bool
  | [] => []
  | b :: l => (f r b).1 :: laneRun f (f r b).2 l

/-- The bytes of a flit that lane i of a group of n carries: 4 data lanes, 2 control lanes (R352). (DESIGN CHOICE, assumption 101) -/
def laneBytes (n i : Nat) (flit : List Byte) : List Byte :=
  (flit.zipIdx.filter (fun b => decide (b.2 % n = i))).map Prod.fst

end Sys2Proof.Machine
end

