-- ==== Sys2Proof/Machine/Codec.lean ====
section
/-! DEFINITION. The compression code of chapter 6: canonical codes (R156), table images (R157), the table builder (R158),
coded blocks (R159 to R163) and the sub-stream decoder (R167). -/

namespace Sys2Proof.Machine

/-- A code table: the 256 code lengths L[s] of R156. -/
abbrev CodeTable := List Nat

/-- `count[l]` of R156. -/
def codeCount (t : CodeTable) (l : Nat) : Nat := (t.filter (· = l)).length

/-- `first[l]` of R156. -/
def codeFirst (t : CodeTable) : Nat → Nat
  | 0 => 0
  | 1 => 0
  | l + 2 => (codeFirst t (l + 1) + codeCount t (l + 1)) * 2

/-- The code of a symbol: its length's first code plus the symbols of that length below it (R156). -/
def codeOf (t : CodeTable) (s : Nat) : Nat :=
  let l := t.getD s 0
  codeFirst t l + codeCount (t.take s) l

/-- Is the table image valid (R157)? -/
def tableValid (t : CodeTable) : Bool :=
  let used := t.filter (· ≠ 0)
  decide (2 ≤ used.length) && decide ((used.map (fun l => 2 ^ (15 - l))).sum ≤ 2 ^ 15)

/-- The lengths a 128-byte table image holds (R157). -/
def tableOfImage (bs : List Byte) : CodeTable :=
  bs.flatMap (fun b => [b.toNat % 16, b.toNat / 16])

/-- The 128-byte image of a table (R157). -/
def imageOfTable : CodeTable → List Byte
  | a :: b :: t => BitVec.ofNat 8 (a + 16 * b) :: imageOfTable t
  | [a] => [BitVec.ofNat 8 a]
  | [] => []

/-- The symbols a code length has, in rising order. -/
def symsOfLen (t : CodeTable) (l : Nat) : List Nat :=
  (t.zipIdx.filter (fun p => p.1 = l)).map Prod.snd

/-- The decoding rows of a table: for each length 1 to 15, first code, count, symbols. -/
def decodeRows (t : CodeTable) : List (Nat × Nat × List Nat) :=
  (List.range 15).map (fun i => (codeFirst t (i + 1), codeCount t (i + 1), symsOfLen t (i + 1)))

/-- How a sub-stream fails (R168, causes 3 to 5). -/
inductive DecodeErr where
  | invalidCode | overrun | underrun
  deriving DecidableEq, Repr

/-- Read one symbol (R167): the rows left give the lengths still possible; answers the symbol and the bits left. -/
def decodeSym : List (Nat × Nat × List Nat) → Nat → List Bool → Except DecodeErr (Nat × List Bool)
  | [], _, _ => .error .invalidCode
  | _ :: _, _, [] => .error .overrun
  | (first, count, syms) :: rows, c, b :: bs =>
    let c' := 2 * c + b2n b
    if first ≤ c' ∧ c' < first + count then .ok (syms.getD (c' - first) 0, bs)
    else decodeSym rows c' bs

/-- Read a number of symbols. -/
def decodeSyms (rows : List (Nat × Nat × List Nat)) : Nat → List Bool → Except DecodeErr (List Nat × List Bool)
  | 0, bs => .ok ([], bs)
  | n + 1, bs =>
    match decodeSym rows 0 bs with
    | .error e => .error e
    | .ok (s, bs') =>
      match decodeSyms rows n bs' with
      | .error e => .error e
      | .ok (l, bs'') => .ok (s :: l, bs'')

/-- The bits of a byte, bit 7 first (R159). -/
def byteBits (b : Byte) : List Bool := (List.range 8).map (fun i => b.getLsbD (7 - i))

/-- `decode_substream` of R167 over a sub-stream's bytes: 256 symbols, ending in the last 64-bit unit, then zeros. -/
def decodeSub (rows : List (Nat × Nat × List Nat)) (bs : List Byte) : Except DecodeErr (List Byte) :=
  match decodeSyms rows 256 (bs.flatMap byteBits) with
  | .error e => .error e
  | .ok (l, rest) =>
    if 64 ≤ rest.length ∨ rest.any id then .error .underrun
    else .ok (l.map (BitVec.ofNat 8))

/-- The fields of a block header (R161). -/
structure BlkHdr where
  tid : Nat
  raw : Bool
  codedLen : Nat
  tag : Nat
  lens : List Nat
  deriving DecidableEq, Repr

/-- Read a block header from its 16 bytes (R161). -/
def hdrOfBytes (bs : List Byte) : BlkHdr :=
  let v := leVal bs
  { tid := bitsOf v 0 3, raw := Nat.testBit v 3, codedLen := bitsOf v 4 12, tag := bitsOf v 16 16,
    lens := (List.range 16).map (fun i => bitsOf v (32 + 6 * i) 6) }

/-- The 16 bytes of a block header (R161). -/
def bytesOfHdr (h : BlkHdr) : List Byte :=
  leBytes 16 (h.tid + 8 * b2n h.raw + 16 * h.codedLen + 2 ^ 16 * h.tag
    + (h.lens.zipIdx.map (fun p => p.1 * 2 ^ (32 + 6 * p.2))).sum)

/-- The header checks of R168, cause 1. -/
def hdrOk (h : BlkHdr) : Bool :=
  if h.raw then decide (h.tid = 0) && decide (h.codedLen = 0) && h.lens.all (· = 0)
  else h.lens.all (fun l => decide (4 ≤ l ∧ l ≤ 60)) && decide (h.codedLen = 8 * h.lens.sum)
    && decide (h.codedLen ≤ 3840)

/-- What decoding a coded block's payload finds (R168): the first damaged sub-stream's cause and number, or the bytes. -/
def decodePayload (t : CodeTable) : List Nat → Nat → List Byte → Except (Nat × Nat) (List Byte)
  | [], _, _ => .ok []
  | l :: ls, i, bs =>
    match decodeSub (decodeRows t) (bs.take (8 * l)) with
    | .error .invalidCode => .error (3, i)
    | .error .overrun => .error (4, i)
    | .error .underrun => .error (5, i)
    | .ok out =>
      match decodePayload t ls (i + 1) (bs.drop (8 * l)) with
      | .error e => .error e
      | .ok rest => .ok (out ++ rest)

/-- The (cause, sub-stream) of every failed sub-stream of a payload (R170). -/
def payloadFaults (t : CodeTable) : List Nat → Nat → List Byte → List (Nat × Nat)
  | [], _, _ => []
  | l :: ls, i, bs =>
    let rest := payloadFaults t ls (i + 1) (bs.drop (8 * l))
    match decodeSub (decodeRows t) (bs.take (8 * l)) with
    | .error .invalidCode => (3, i) :: rest
    | .error .overrun => (4, i) :: rest
    | .error .underrun => (5, i) :: rest
    | .ok _ => rest

/-! The table builder of R158. -/

/-- A node of the code tree: its weight and the leaves below it with their depths. -/
abbrev HuffNode := Nat × List (Nat × Nat)

/-- Take the lower-weight head of leaves and inner; equal weights take the leaf (R158). -/
def takeNode : List HuffNode → List HuffNode → Option (HuffNode × List HuffNode × List HuffNode)
  | a :: l, b :: m => if a.1 ≤ b.1 then some (a, l, b :: m) else some (b, a :: l, m)
  | a :: l, [] => some (a, l, [])
  | [], b :: m => some (b, [], m)
  | [], [] => none

/-- The merging loop of R158, with fuel for at most 255 merges; answers the leaves' depths. -/
def huffLoop : Nat → List HuffNode → List HuffNode → List (Nat × Nat)
  | 0, _, _ => []
  | fuel + 1, leaves, inner =>
    match takeNode leaves inner with
    | none => []
    | some (a, l, m) =>
      match takeNode l m with
      | none => a.2
      | some (b, l', m') =>
        huffLoop fuel l' (m' ++ [(a.1 + b.1, (a.2 ++ b.2).map (fun p => (p.1, p.2 + 1)))])

/-- Insert into a list sorted by weight, then symbol. -/
def insertLeaf (x : HuffNode) : List HuffNode → List HuffNode
  | [] => [x]
  | y :: l => if y.1 ≤ x.1 then y :: insertLeaf x l else x :: y :: l

/-- One lengthening step of R158: the symbol with a length below 15 and the largest length, then the smallest count, then
the largest symbol. -/
def pickLonger (f t : List Nat) : Option Nat :=
  (List.range 256).foldl (fun best s =>
    let l := t.getD s 0
    if l = 0 ∨ 15 ≤ l then best
    else match best with
      | none => some s
      | some b =>
        let lb := t.getD b 0
        if lb < l ∨ (lb = l ∧ f.getD s 0 ≤ f.getD b 0) then some s else best) none

/-- The repair loop of R158 that brings the code within the Kraft bound. -/
def fixLengths (f : List Nat) : Nat → CodeTable → CodeTable
  | 0, t => t
  | fuel + 1, t =>
    if 2 ^ 15 < ((t.filter (· ≠ 0)).map (fun l => 2 ^ (15 - l))).sum then
      match pickLonger f t with
      | none => t
      | some s => fixLengths f fuel (t.modify s (· + 1))
    else t

/-- `build_lengths` of R158 from the 256 byte counts. -/
def buildLengths (f : List Nat) : CodeTable :=
  let syms := (List.range 256).filter (fun s => f.getD s 0 ≠ 0)
  match syms with
  | [] => List.replicate 256 0
  | [s] => (List.range 256).map (fun i => if i = s ∨ i = (s + 1) % 256 then 1 else 0)
  | _ =>
    let leaves := syms.foldl (fun l s => insertLeaf (f.getD s 0, [(s, 0)]) l) []
    let depths := huffLoop 256 leaves []
    let t := depths.foldl (fun t p => t.set p.1 (min p.2 15)) (List.replicate 256 0)
    fixLengths f 4096 t

/-- The counts f[s] of R158. -/
def byteCounts (bs : List Byte) : List Nat :=
  bs.foldl (fun f b => f.modify b.toNat (· + 1)) (List.replicate 256 0)

/-- The bits of a symbol's code, most significant first (R156). -/
def codeBits (t : CodeTable) (s : Nat) : List Bool :=
  let l := t.getD s 0
  let c := codeOf t s
  (List.range l).map (fun i => Nat.testBit c (l - 1 - i))

/-- Pack bits into bytes, bit 7 first, padding the last byte with zeros. -/
def packBits : Nat → List Bool → List Byte
  | 0, _ => []
  | fuel + 1, bs =>
    match bs with
    | [] => []
    | bs =>
      let h := (bs.take 8) ++ List.replicate (8 - (bs.take 8).length) false
      BitVec.ofNat 8 (h.foldl (fun a b => 2 * a + b2n b) 0) :: packBits fuel (bs.drop 8)

/-- One sub-stream: the codes of 256 bytes padded to whole 64-bit units (R159). -/
def encodeSub (t : CodeTable) (bs : List Byte) : List Byte :=
  let bits := bs.flatMap (fun b => codeBits t b.toNat)
  let u := ceilDiv bits.length 64
  packBits (8 * u) (bits ++ List.replicate (64 * u - bits.length) false)

/-- A block as COMPRESS stores it (R159, R160): header and payload. -/
def encodeBlock (t : CodeTable) (tid tag : Nat) (raw : Bool) (bs : List Byte) : BlkHdr × List Byte :=
  let subs := (chunksOf 256 16 bs).map (encodeSub t)
  let codedLen := (subs.map List.length).sum
  if raw || decide (3840 < codedLen) then
    ({ tid := 0, raw := true, codedLen := 0, tag := tag, lens := List.replicate 16 0 }, bs)
  else
    ({ tid := tid, raw := false, codedLen := codedLen, tag := tag, lens := subs.map (fun s => s.length / 8) },
      subs.flatten)

/-- The 8 bytes of a scale record (R162). -/
def scaleRecord (tag : Nat) (e : Int) : List Byte := leBytes 8 (tag + 2 ^ 16 * unsigned 6 e)

end Sys2Proof.Machine
end

