-- ==== Sys2Proof/Config.lean ====
section
/-! DEFINITION. The free values: constants without a body, for what the spec leaves open or places outside the device. Nothing can
be proved of a value of one, so a statement holds for every choice. -/

namespace Sys2Proof.Config

/-- A free 64-bit word, by its place in the order of free values taken (see `State.freeCtr`). (DESIGN CHOICE, assumptions 13 and 15) -/
opaque freeWord : Nat → W64

/-- The FP32 weight of an outlier channel for an output column of an OUTLIER command (R57): by the command's layer_id, the channel, and what
places the column in the whole layer (R331): the device's el_base, the columns of the command, the column. (DESIGN CHOICE, assumption 69) -/
opaque outlierWeight : Nat → Nat → Nat → Nat → Nat → BitVec 32

/-- A result for which the spec states no value, by the numbers it is computed from. (DESIGN CHOICE, assumption 13) -/
opaque unstated : List Int → W64

/-- A byte of host memory that this device has not written: host memory belongs to the host (R249, T3). (DESIGN CHOICE, assumption 9) -/
opaque hostByte : Nat → Byte

/-- Whether the completion that reads a host-memory word this device has not written carries EP (R388). (DESIGN CHOICE, assumption 9) -/
opaque hostPoison : Nat → Bool

/-- A byte of a flash page that is not programmed, or whose program or erase was cut short (R288). (DESIGN CHOICE, assumption 14) -/
opaque flashByte : Nat → Byte

/-- What a read delivers in place of a stored byte of a word with 3 or more bit errors, or of a failed codeword (R385, R278). (DESIGN
CHOICE, assumption 14) -/
opaque corruptByte : Nat → Byte → Byte

/-- A byte of a poisoned element that no store delivers (a faulting, late, lost or undecodable one), by its place (R231, R168). (DESIGN
CHOICE, assumption 14) -/
opaque poisonByte : Nat → Byte

/-- Whether a word with 4 or more bit errors is delivered poisoned (R385). (DESIGN CHOICE, assumption 14) -/
opaque corruptMark : Nat → Bool

/-- The BCH decoder's diagnostic syndrome of a word (R392). (DESIGN CHOICE, assumption 14) -/
opaque syndrome : Nat → BitVec 15

/-- Octurn's vendor identifier less 1, so that it is neither 0x0000 nor 0xFFFF (R427). (DESIGN CHOICE, assumption 15) -/
opaque vendorIndex : Fin 65534

/-- The digest of the boot ROM of this stepping (R456). (DESIGN CHOICE, assumption 7) -/
opaque romDigest : BitVec 384

/-- The ROM's hash of an RSA firmware key (R446). (DESIGN CHOICE, assumption 7) -/
opaque romRsaHash : Nat → BitVec 384

/-- The ROM's hash of an SLH-DSA firmware key (R446). (DESIGN CHOICE, assumption 7) -/
opaque romSlhHash : Nat → BitVec 384

/-- A byte of the device's RSA-3072 signature over a report body, by body and position (R460). (DESIGN CHOICE, assumption 7) -/
opaque rsaSigByte : List Byte → Nat → Byte

/-- A byte of the device's SLH-DSA-SHA2-192f signature over a report body (R460). (DESIGN CHOICE, assumption 7) -/
opaque slhSigByte : List Byte → Nat → Byte

/-- A byte of an identity certificate (false RSA, true SLH-DSA) (R458). (DESIGN CHOICE, assumption 7) -/
opaque certByte : Bool → Nat → Byte

/-- The length of an identity certificate (R458, R466). (DESIGN CHOICE, assumption 7) -/
opaque certLen : Bool → BitVec 16

/-- A byte of a die's factory-calibration row that the spec leaves to the factory: serial, lot, position, grade, version, trims and
calibration; and of the row shown for a die neither of whose copies is valid (R302). (DESIGN CHOICE, assumption 15) -/
opaque calByte : Nat → Nat → Byte

/-- A byte of the ciphertext sealed at a value of the save counter, by position (R465). (DESIGN CHOICE, assumption 8) -/
opaque sealByte : W64 → Nat → Byte

/-- A byte of the authentication tag of that image (R465). (DESIGN CHOICE, assumption 8) -/
opaque sealTag : W64 → Nat → Byte

/-- The 32 random bits of that image's nonce (R465). (DESIGN CHOICE, assumption 8) -/
opaque sealRandom : W64 → BitVec 32

end Sys2Proof.Config
end

