-- ==== Sys2Proof/Machine/RegTable.lean ====
section
/-! DEFINITION. The register map: the offset of every register (device blocks from the base of BAR0, R430; context registers
from the base of the context page, R434), every field with its bits, and the register table with each field's access and reset
value. -/

namespace Sys2Proof.Machine

/-- The access types of R9. -/
inductive Acc where
  | rw | ro | wo | w1c
  deriving DecidableEq, Repr

/-- A field of the register table: bits, access and the reset value the register's table gives (0 where the table says that it
is loaded, strapped, fused or AON). -/
structure RegField where
  lo : Nat
  width : Nat
  acc : Acc
  reset : Nat
  deriving DecidableEq, Repr

/-- A row of the register table: `count` registers of one layout, `stride` bytes apart from `base`. -/
structure RegRow where
  base : Nat
  count : Nat
  stride : Nat
  fields : List RegField
  deriving DecidableEq, Repr

namespace Reg

/-- DEV_ID (R442, 16 of spec/). -/
abbrev devId : Nat := 0x0000
def devId_vendor : Fld := ⟨0x0000, 0, 16⟩
def devId_device : Fld := ⟨0x0000, 16, 16⟩
def devId_stepping : Fld := ⟨0x0000, 32, 4⟩
def devId_grade : Fld := ⟨0x0000, 36, 2⟩
/-- DEV_SERIAL, 2 registers 8 bytes apart (R442, 16 of spec/). -/
abbrev devSerial : Nat := 0x0008
def devSerial_serial : Fld := ⟨0x0008, 0, 64⟩
/-- DEV_CAP (R442, 16 of spec/). -/
abbrev devCap : Nat := 0x0018
def devCap_nCtx : Fld := ⟨0x0018, 0, 5⟩
def devCap_nVf : Fld := ⟨0x0018, 5, 4⟩
def devCap_msix : Fld := ⟨0x0018, 9, 8⟩
def devCap_tiles : Fld := ⟨0x0018, 17, 11⟩
def devCap_wstGib : Fld := ⟨0x0018, 28, 16⟩
/-- DEV_STATUS (R442, 16 of spec/). -/
abbrev devStatus : Nat := 0x0020
def devStatus_ready : Fld := ⟨0x0020, 0, 1⟩
def devStatus_linkUp : Fld := ⟨0x0020, 1, 1⟩
def devStatus_linkLow : Fld := ⟨0x0020, 2, 1⟩
def devStatus_speed : Fld := ⟨0x0020, 3, 3⟩
def devStatus_width : Fld := ⟨0x0020, 6, 4⟩
def devStatus_resetCause : Fld := ⟨0x0020, 10, 4⟩
def devStatus_linkDowns : Fld := ⟨0x0020, 16, 16⟩
/-- DEV_RESET (R442, 16 of spec/). -/
abbrev devReset : Nat := 0x0028
def devReset_key : Fld := ⟨0x0028, 0, 16⟩
/-- DEV_VF_MAP (R442, 16 of spec/). -/
abbrev devVfMap : Nat := 0x0030
def devVfMap_vfEn : Fld := ⟨0x0030, 0, 1⟩
def devVfMap_numVfs : Fld := ⟨0x0030, 1, 4⟩
def devVfMap_vfCtx : Fld := ⟨0x0030, 5, 16⟩
def devVfMap_handover : Fld := ⟨0x0030, 21, 1⟩
/-- DEV_CTX_SEL (R442, 16 of spec/). -/
abbrev devCtxSel : Nat := 0x0040
def devCtxSel_ctx : Fld := ⟨0x0040, 0, 4⟩
/-- DEV_CTX_CTL (R442, 16 of spec/). -/
abbrev devCtxCtl : Nat := 0x0048
def devCtxCtl_ctx : Fld := ⟨0x0048, 0, 4⟩
def devCtxCtl_op : Fld := ⟨0x0048, 4, 2⟩
/-- DEV_CTX_VIEW (R442, 16 of spec/). -/
abbrev devCtxView : Nat := 0x0050
def devCtxView_qEn : Fld := ⟨0x0050, 0, 4⟩
def devCtxView_resetBusy : Fld := ⟨0x0050, 4, 1⟩
def devCtxView_cbuf : Fld := ⟨0x0050, 5, 10⟩
def devCtxView_exec : Fld := ⟨0x0050, 15, 7⟩
def devCtxView_openReq : Fld := ⟨0x0050, 22, 11⟩
def devCtxView_exact : Fld := ⟨0x0050, 33, 1⟩
/-- DEV_SHARE, 16 registers 8 bytes apart (R211, 07 of spec/). -/
abbrev devShare : Nat := 0x1000
def devShare_slots : Fld := ⟨0x1000, 0, 64⟩
/-- DEV_SYSCNT_OWN (R211, 07 of spec/). -/
abbrev devSyscntOwn : Nat := 0x1080
def devSyscntOwn_grps : Fld := ⟨0x1080, 0, 64⟩
/-- DEV_SYSCNT_EN (R211, 07 of spec/). -/
abbrev devSyscntEn : Nat := 0x1088
def devSyscntEn_en : Fld := ⟨0x1088, 0, 16⟩
/-- DEV_SYSCNT, 256 registers 8 bytes apart (R211, 07 of spec/). -/
abbrev devSyscnt : Nat := 0x1800
def devSyscnt_value : Fld := ⟨0x1800, 0, 32⟩
/-- PWR_STATE_CMD (R419, 15 of spec/). -/
abbrev pwrStateCmd : Nat := 0x100000
def pwrStateCmd_state : Fld := ⟨0x100000, 0, 3⟩
def pwrStateCmd_wakeTo : Fld := ⟨0x100000, 4, 2⟩
/-- PWR_STATUS (R419, 15 of spec/). -/
abbrev pwrStatus : Nat := 0x100008
def pwrStatus_state : Fld := ⟨0x100008, 0, 3⟩
def pwrStatus_pstate : Fld := ⟨0x100008, 4, 2⟩
def pwrStatus_busy : Fld := ⟨0x100008, 6, 1⟩
def pwrStatus_step : Fld := ⟨0x100008, 7, 4⟩
def pwrStatus_refused : Fld := ⟨0x100008, 11, 3⟩
def pwrStatus_fail : Fld := ⟨0x100008, 14, 3⟩
def pwrStatus_abandoned : Fld := ⟨0x100008, 17, 15⟩
def pwrStatus_padHold : Fld := ⟨0x100008, 32, 1⟩
def pwrStatus_vddOk : Fld := ⟨0x100008, 33, 1⟩
/-- PWR_RETAIN_MASK (R419, 15 of spec/). -/
abbrev pwrRetainMask : Nat := 0x100010
def pwrRetainMask_bank : Fld := ⟨0x100010, 0, 32⟩
def pwrRetainMask_dst0 : Fld := ⟨0x100010, 32, 1⟩
def pwrRetainMask_dst1 : Fld := ⟨0x100010, 33, 1⟩
/-- PWR_WAKE_EN (R419, 15 of spec/). -/
abbrev pwrWakeEn : Nat := 0x100018
def pwrWakeEn_rtc : Fld := ⟨0x100018, 0, 1⟩
def pwrWakeEn_pcie : Fld := ⟨0x100018, 1, 1⟩
def pwrWakeEn_ports : Fld := ⟨0x100018, 8, 8⟩
def pwrWakeEn_cometOnly : Fld := ⟨0x100018, 16, 8⟩
/-- PWR_LAST_WAKE (R419, 15 of spec/). -/
abbrev pwrLastWake : Nat := 0x100020
def pwrLastWake_source : Fld := ⟨0x100020, 0, 4⟩
def pwrLastWake_port : Fld := ⟨0x100020, 4, 3⟩
def pwrLastWake_from : Fld := ⟨0x100020, 7, 3⟩
def pwrLastWake_duringEntry : Fld := ⟨0x100020, 10, 1⟩
def pwrLastWake_step : Fld := ⟨0x100020, 11, 4⟩
def pwrLastWake_count : Fld := ⟨0x100020, 16, 16⟩
def pwrLastWake_rtcSec : Fld := ⟨0x100020, 32, 32⟩
/-- PWR_DOM_CTL (R419, 15 of spec/). -/
abbrev pwrDomCtl : Nat := 0x100028
def pwrDomCtl_dom : Fld := ⟨0x100028, 0, 7⟩
def pwrDomCtl_op : Fld := ⟨0x100028, 8, 2⟩
/-- PWR_PAD_HOLD_RELEASE (R419, 15 of spec/). -/
abbrev pwrPadHoldRelease : Nat := 0x100040
def pwrPadHoldRelease_release : Fld := ⟨0x100040, 0, 1⟩
/-- PWR_RTC_NOW (R419, 15 of spec/). -/
abbrev pwrRtcNow : Nat := 0x100048
def pwrRtcNow_sub : Fld := ⟨0x100048, 0, 15⟩
def pwrRtcNow_sec : Fld := ⟨0x100048, 15, 48⟩
/-- PWR_RTC_ALARM (R419, 15 of spec/). -/
abbrev pwrRtcAlarm : Nat := 0x100050
def pwrRtcAlarm_sec : Fld := ⟨0x100050, 0, 48⟩
def pwrRtcAlarm_en : Fld := ⟨0x100050, 48, 1⟩
def pwrRtcAlarm_fired : Fld := ⟨0x100050, 49, 1⟩
/-- PWR_THERM_CFG (R419, 15 of spec/). -/
abbrev pwrThermCfg : Nat := 0x100058
def pwrThermCfg_alertThr : Fld := ⟨0x100058, 0, 8⟩
def pwrThermCfg_alertEn : Fld := ⟨0x100058, 8, 1⟩
def pwrThermCfg_vector : Fld := ⟨0x100058, 9, 11⟩
/-- PWR_TRIP (R419, 15 of spec/). -/
abbrev pwrTrip : Nat := 0x100060
def pwrTrip_count : Fld := ⟨0x100060, 0, 16⟩
def pwrTrip_sensor : Fld := ⟨0x100060, 16, 6⟩
def pwrTrip_temp : Fld := ⟨0x100060, 22, 8⟩
def pwrTrip_active : Fld := ⟨0x100060, 30, 1⟩
def pwrTrip_recorded : Fld := ⟨0x100060, 31, 11⟩
def pwrTrip_deferred : Fld := ⟨0x100060, 42, 1⟩
/-- PWR_DOM_ON, 2 registers 8 bytes apart (R419, 15 of spec/). -/
abbrev pwrDomOn : Nat := 0x100030
def pwrDomOn_on : Fld := ⟨0x100030, 0, 64⟩
/-- CLK_STATUS (R420, 15 of spec/). -/
abbrev clkStatus : Nat := 0x200000
def clkStatus_pllLock : Fld := ⟨0x200000, 0, 1⟩
def clkStatus_target : Fld := ⟨0x200000, 1, 2⟩
def clkStatus_glide : Fld := ⟨0x200000, 3, 1⟩
def clkStatus_xoOk : Fld := ⟨0x200000, 4, 1⟩
def clkStatus_rtcOk : Fld := ⟨0x200000, 5, 1⟩
def clkStatus_refOk : Fld := ⟨0x200000, 6, 1⟩
/-- CLK_RUN, 2 registers 8 bytes apart (R420, 15 of spec/). -/
abbrev clkRun : Nat := 0x200008
def clkRun_run : Fld := ⟨0x200008, 0, 64⟩
/-- MXE_STATUS (R150, 05 of spec/). -/
abbrev mxeStatus : Nat := 0x300000
def mxeStatus_busy : Fld := ⟨0x300000, 0, 1⟩
def mxeStatus_ctx : Fld := ⟨0x300000, 1, 4⟩
def mxeStatus_stage : Fld := ⟨0x300000, 5, 3⟩
def mxeStatus_pass : Fld := ⟨0x300000, 8, 16⟩
def mxeStatus_chunk : Fld := ⟨0x300000, 24, 7⟩
def mxeStatus_stalled : Fld := ⟨0x300000, 31, 1⟩
/-- MXE_STALL_TOTAL (R150, 05 of spec/). -/
abbrev mxeStallTotal : Nat := 0x300008
def mxeStallTotal_cycles : Fld := ⟨0x300008, 0, 48⟩
/-- MXE_CMD_COUNT (R150, 05 of spec/). -/
abbrev mxeCmdCount : Nat := 0x300010
def mxeCmdCount_count : Fld := ⟨0x300010, 0, 48⟩
/-- MXE_EXP_LAST (R178, 06 of spec/). -/
abbrev mxeExpLast : Nat := 0x300018
def mxeExpLast_ctx : Fld := ⟨0x300018, 0, 4⟩
def mxeExpLast_kind : Fld := ⟨0x300018, 4, 3⟩
def mxeExpLast_cause : Fld := ⟨0x300018, 7, 4⟩
def mxeExpLast_sub : Fld := ⟨0x300018, 11, 4⟩
def mxeExpLast_hdrTag : Fld := ⟨0x300018, 16, 16⟩
def mxeExpLast_recTag : Fld := ⟨0x300018, 32, 16⟩
def mxeExpLast_expander : Fld := ⟨0x300018, 48, 9⟩
/-- CAF_TSET_IDX (R99, 03 of spec/). -/
abbrev cafTsetIdx : Nat := 0x400000
def cafTsetIdx_idx : Fld := ⟨0x400000, 0, 9⟩
def cafTsetIdx_slot : Fld := ⟨0x400000, 9, 1⟩
def cafTsetIdx_activeSlot : Fld := ⟨0x400000, 16, 1⟩
/-- CAF_TSET_DESC0 (R99, 03 of spec/). -/
abbrev cafTsetDesc0 : Nat := 0x400008
def cafTsetDesc0_state : Fld := ⟨0x400008, 0, 2⟩
def cafTsetDesc0_owner : Fld := ⟨0x400008, 2, 4⟩
def cafTsetDesc0_wfmt : Fld := ⟨0x400008, 6, 1⟩
def cafTsetDesc0_tolerant : Fld := ⟨0x400008, 7, 1⟩
def cafTsetDesc0_firstTile : Fld := ⟨0x400008, 8, 10⟩
def cafTsetDesc0_nRbM1 : Fld := ⟨0x400008, 18, 6⟩
def cafTsetDesc0_nCbM1 : Fld := ⟨0x400008, 24, 10⟩
def cafTsetDesc0_rowsLastM1 : Fld := ⟨0x400008, 34, 10⟩
def cafTsetDesc0_eW : Fld := ⟨0x400008, 44, 6⟩
/-- CAF_TSET_DESC1 (R99, 03 of spec/). -/
abbrev cafTsetDesc1 : Nat := 0x400010
def cafTsetDesc1_hs : Fld := ⟨0x400010, 0, 26⟩
/-- CAF_RUN (R99, 03 of spec/). -/
abbrev cafRun : Nat := 0x400018
def cafRun_busy : Fld := ⟨0x400018, 0, 16⟩
def cafRun_nBusy : Fld := ⟨0x400018, 16, 5⟩
/-- CAF_CONV_FAULT (R99, 03 of spec/). -/
abbrev cafConvFault : Nat := 0x400020
def cafConvFault_count : Fld := ⟨0x400020, 0, 32⟩
def cafConvFault_lastTile : Fld := ⟨0x400020, 32, 10⟩
def cafConvFault_lastCol : Fld := ⟨0x400020, 42, 12⟩
/-- CAF_CFG (R99, 03 of spec/). -/
abbrev cafCfg : Nat := 0x400028
def cafCfg_skipEn : Fld := ⟨0x400028, 0, 1⟩
/-- CAF_TILE_IDX (R116, 04 of spec/). -/
abbrev cafTileIdx : Nat := 0x400030
def cafTileIdx_tile : Fld := ⟨0x400030, 0, 10⟩
def cafTileIdx_remapIdx : Fld := ⟨0x400030, 16, 5⟩
/-- CAF_TILE_HEALTH (R116, 04 of spec/). -/
abbrev cafTileHealth : Nat := 0x400038
def cafTileHealth_sparesFree : Fld := ⟨0x400038, 0, 6⟩
def cafTileHealth_factoryRemaps : Fld := ⟨0x400038, 6, 6⟩
def cafTileHealth_fieldRemaps : Fld := ⟨0x400038, 12, 6⟩
def cafTileHealth_stuckEntries : Fld := ⟨0x400038, 18, 9⟩
def cafTileHealth_stuckFull : Fld := ⟨0x400038, 27, 1⟩
def cafTileHealth_bound : Fld := ⟨0x400038, 28, 1⟩
def cafTileHealth_tolerant : Fld := ⟨0x400038, 29, 1⟩
def cafTileHealth_retirePending : Fld := ⟨0x400038, 30, 1⟩
/-- CAF_TILE_STUCK (R116, 04 of spec/). -/
abbrev cafTileStuck : Nat := 0x400040
def cafTileStuck_stuck0 : Fld := ⟨0x400040, 0, 16⟩
def cafTileStuck_stuck1 : Fld := ⟨0x400040, 16, 16⟩
def cafTileStuck_reencoded : Fld := ⟨0x400040, 32, 16⟩
def cafTileStuck_deviated : Fld := ⟨0x400040, 48, 16⟩
/-- CAF_REMAP_ENTRY (R116, 04 of spec/). -/
abbrev cafRemapEntry : Nat := 0x400048
def cafRemapEntry_valid : Fld := ⟨0x400048, 0, 1⟩
def cafRemapEntry_origin : Fld := ⟨0x400048, 1, 1⟩
def cafRemapEntry_dataPair : Fld := ⟨0x400048, 2, 10⟩
/-- CAF_TSET_HEALTH (R116, 04 of spec/). -/
abbrev cafTsetHealth : Nat := 0x400050
def cafTsetHealth_sparesUsed : Fld := ⟨0x400050, 0, 16⟩
def cafTsetHealth_minFree : Fld := ⟨0x400050, 16, 6⟩
def cafTsetHealth_reencoded : Fld := ⟨0x400050, 32, 32⟩
/-- CAF_TSET_DEV (R116, 04 of spec/). -/
abbrev cafTsetDev : Nat := 0x400058
def cafTsetDev_deviated : Fld := ⟨0x400058, 0, 32⟩
/-- CAF_HEALTH_SUM (R116, 04 of spec/). -/
abbrev cafHealthSum : Nat := 0x400060
def cafHealthSum_tilesNoSpare : Fld := ⟨0x400060, 0, 11⟩
def cafHealthSum_tilesLowSpare : Fld := ⟨0x400060, 11, 11⟩
def cafHealthSum_tolerantSlots : Fld := ⟨0x400060, 22, 11⟩
/-- CAF_PAIR_RETIRE (R116, 04 of spec/). -/
abbrev cafPairRetire : Nat := 0x400068
def cafPairRetire_tile : Fld := ⟨0x400068, 0, 10⟩
def cafPairRetire_pair : Fld := ⟨0x400068, 10, 10⟩
/-- TMV_INFLIGHT (R243, 08 of spec/). -/
abbrev tmvInflight : Nat := 0x600000
def tmvInflight_mxe : Fld := ⟨0x600000, 0, 4⟩
def tmvInflight_caf : Fld := ⟨0x600000, 4, 4⟩
def tmvInflight_vec : Fld := ⟨0x600000, 8, 4⟩
def tmvInflight_tmv : Fld := ⟨0x600000, 12, 4⟩
def tmvInflight_exactCtx : Fld := ⟨0x600000, 16, 4⟩
def tmvInflight_exact : Fld := ⟨0x600000, 20, 1⟩
/-- TMV_BUF (R243, 08 of spec/). -/
abbrev tmvBuf : Nat := 0x600008
def tmvBuf_buffers : Fld := ⟨0x600008, 0, 10⟩
def tmvBuf_unbuffered : Fld := ⟨0x600008, 10, 12⟩
/-- TMV_AGECAP (R243, 08 of spec/). -/
abbrev tmvAgecap : Nat := 0x600010
def tmvAgecap_count : Fld := ⟨0x600010, 0, 48⟩
/-- MEM_QUIESCE (R272, 09 of spec/). -/
abbrev memQuiesce : Nat := 0x700000
def memQuiesce_req : Fld := ⟨0x700000, 0, 1⟩
def memQuiesce_done : Fld := ⟨0x700000, 1, 1⟩
/-- MEM_OBJ_IDX (R272, 09 of spec/). -/
abbrev memObjIdx : Nat := 0x700008
def memObjIdx_idx : Fld := ⟨0x700008, 0, 18⟩
/-- MEM_OBJ_W, 4 registers 8 bytes apart (R272, 09 of spec/). -/
abbrev memObjW : Nat := 0x700010
def memObjW_word : Fld := ⟨0x700010, 0, 64⟩
/-- MEM_OBJ_OP (R272, 09 of spec/). -/
abbrev memObjOp : Nat := 0x700030
def memObjOp_op : Fld := ⟨0x700030, 0, 3⟩
/-- MEM_OBJ_STATUS (R272, 09 of spec/). -/
abbrev memObjStatus : Nat := 0x700038
def memObjStatus_code : Fld := ⟨0x700038, 0, 4⟩
def memObjStatus_freeEntries : Fld := ⟨0x700038, 8, 19⟩
/-- MEM_QUOTA_SEL (R272, 09 of spec/). -/
abbrev memQuotaSel : Nat := 0x700040
def memQuotaSel_ctx : Fld := ⟨0x700040, 0, 4⟩
def memQuotaSel_tier : Fld := ⟨0x700040, 4, 2⟩
/-- MEM_QUOTA (R272, 09 of spec/). -/
abbrev memQuota : Nat := 0x700048
def memQuota_quota : Fld := ⟨0x700048, 0, 32⟩
/-- MEM_USAGE (R272, 09 of spec/). -/
abbrev memUsage : Nat := 0x700050
def memUsage_used : Fld := ⟨0x700050, 0, 32⟩
def memUsage_over : Fld := ⟨0x700050, 32, 1⟩
/-- MEM_TIER_FREE (R272, 09 of spec/). -/
abbrev memTierFree : Nat := 0x700058
def memTierFree_t0Free : Fld := ⟨0x700058, 0, 16⟩
def memTierFree_t1Free : Fld := ⟨0x700058, 16, 20⟩
/-- MEM_MIG_STAT (R272, 09 of spec/). -/
abbrev memMigStat : Nat := 0x700060
def memMigStat_ops : Fld := ⟨0x700060, 0, 32⟩
def memMigStat_failed : Fld := ⟨0x700060, 32, 16⟩
def memMigStat_inProgress : Fld := ⟨0x700060, 48, 7⟩
def memMigStat_exactHold : Fld := ⟨0x700060, 55, 1⟩
/-- MEM_MDL_SEL (R327, 11 of spec/). -/
abbrev memMdlSel : Nat := 0x700100
def memMdlSel_model : Fld := ⟨0x700100, 0, 6⟩
/-- MEM_MDL_W, 4 registers 8 bytes apart (R327, 11 of spec/). -/
abbrev memMdlW : Nat := 0x700108
def memMdlW_word : Fld := ⟨0x700108, 0, 64⟩
/-- MEM_MDL_OP (R327, 11 of spec/). -/
abbrev memMdlOp : Nat := 0x700128
def memMdlOp_op : Fld := ⟨0x700128, 0, 2⟩
/-- MEM_MDL_STATE (R327, 11 of spec/). -/
abbrev memMdlState : Nat := 0x700130
def memMdlState_valid : Fld := ⟨0x700130, 0, 1⟩
def memMdlState_code : Fld := ⟨0x700130, 1, 4⟩
def memMdlState_active : Fld := ⟨0x700130, 5, 2⟩
def memMdlState_stateA : Fld := ⟨0x700130, 7, 3⟩
def memMdlState_stateB : Fld := ⟨0x700130, 10, 3⟩
def memMdlState_boundary : Fld := ⟨0x700130, 13, 1⟩
def memMdlState_boundA : Fld := ⟨0x700130, 14, 15⟩
def memMdlState_boundB : Fld := ⟨0x700130, 29, 15⟩
/-- MEM_MDL_VER (R327, 11 of spec/). -/
abbrev memMdlVer : Nat := 0x700138
def memMdlVer_verA : Fld := ⟨0x700138, 0, 32⟩
def memMdlVer_verB : Fld := ⟨0x700138, 32, 32⟩
/-- FPC_KEY (R303, 10 of spec/). -/
abbrev fpcKey : Nat := 0x800000
def fpcKey_key : Fld := ⟨0x800000, 0, 16⟩
/-- FPC_CMD (R303, 10 of spec/). -/
abbrev fpcCmd : Nat := 0x800008
def fpcCmd_op : Fld := ⟨0x800008, 0, 8⟩
def fpcCmd_hold : Fld := ⟨0x800008, 8, 1⟩
def fpcCmd_permit : Fld := ⟨0x800008, 9, 1⟩
/-- FPC_ADDR (R303, 10 of spec/). -/
abbrev fpcAddr : Nat := 0x800010
def fpcAddr_addr : Fld := ⟨0x800010, 0, 64⟩
/-- FPC_DATA (R303, 10 of spec/). -/
abbrev fpcData : Nat := 0x800018
def fpcData_data : Fld := ⟨0x800018, 0, 16⟩
/-- FPC_PARAM0 (R303, 10 of spec/). -/
abbrev fpcParam0 : Nat := 0x800020
def fpcParam0_shifts : Fld := ⟨0x800020, 0, 64⟩
/-- FPC_PARAM1 (R303, 10 of spec/). -/
abbrev fpcParam1 : Nat := 0x800028
def fpcParam1_report : Fld := ⟨0x800028, 0, 52⟩
/-- FPC_LOCK (R303, 10 of spec/). -/
abbrev fpcLock : Nat := 0x800030
def fpcLock_state : Fld := ⟨0x800030, 0, 3⟩
def fpcLock_owner : Fld := ⟨0x800030, 3, 1⟩
def fpcLock_lockout : Fld := ⟨0x800030, 4, 1⟩
def fpcLock_badSeq : Fld := ⟨0x800030, 16, 16⟩
def fpcLock_foreign : Fld := ⟨0x800030, 32, 16⟩
/-- FPC_STATUS (R303, 10 of spec/). -/
abbrev fpcStatus : Nat := 0x800038
def fpcStatus_outstanding : Fld := ⟨0x800038, 0, 5⟩
def fpcStatus_running : Fld := ⟨0x800038, 5, 8⟩
def fpcStatus_nextId : Fld := ⟨0x800038, 16, 8⟩
def fpcStatus_erasing : Fld := ⟨0x800038, 24, 8⟩
def fpcStatus_starved : Fld := ⟨0x800038, 32, 16⟩
/-- FPC_RESULT (R303, 10 of spec/). -/
abbrev fpcResult : Nat := 0x800040
def fpcResult_valid : Fld := ⟨0x800040, 0, 1⟩
def fpcResult_id : Fld := ⟨0x800040, 8, 8⟩
def fpcResult_op : Fld := ⟨0x800040, 16, 8⟩
def fpcResult_code : Fld := ⟨0x800040, 24, 4⟩
def fpcResult_fail : Fld := ⟨0x800040, 28, 1⟩
def fpcResult_fails : Fld := ⟨0x800040, 32, 16⟩
def fpcResult_pop : Fld := ⟨0x800040, 63, 1⟩
/-- FPC_CFG (R303, 10 of spec/). -/
abbrev fpcCfg : Nat := 0x800048
def fpcCfg_rdSuspend : Fld := ⟨0x800048, 0, 1⟩
def fpcCfg_resumeGap : Fld := ⟨0x800048, 4, 12⟩
def fpcCfg_starveThr : Fld := ⟨0x800048, 16, 16⟩
def fpcCfg_irqEn : Fld := ⟨0x800048, 32, 1⟩
def fpcCfg_vector : Fld := ⟨0x800048, 33, 11⟩
/-- FPC_ERASE_CTL (R303, 10 of spec/). -/
abbrev fpcEraseCtl : Nat := 0x800050
def fpcEraseCtl_id : Fld := ⟨0x800050, 0, 8⟩
def fpcEraseCtl_action : Fld := ⟨0x800050, 8, 2⟩
/-- FPC_OP_SEL (R303, 10 of spec/). -/
abbrev fpcOpSel : Nat := 0x800058
def fpcOpSel_id : Fld := ⟨0x800058, 0, 8⟩
/-- FPC_OP_INFO (R303, 10 of spec/). -/
abbrev fpcOpInfo : Nat := 0x800060
def fpcOpInfo_state : Fld := ⟨0x800060, 0, 3⟩
def fpcOpInfo_pulses : Fld := ⟨0x800060, 3, 4⟩
def fpcOpInfo_starved : Fld := ⟨0x800060, 7, 1⟩
def fpcOpInfo_hold : Fld := ⟨0x800060, 8, 1⟩
def fpcOpInfo_suspends : Fld := ⟨0x800060, 16, 32⟩
/-- FPC_BLK_SEL (R303, 10 of spec/). -/
abbrev fpcBlkSel : Nat := 0x800068
def fpcBlkSel_block : Fld := ⟨0x800068, 11, 7⟩
def fpcBlkSel_plane : Fld := ⟨0x800068, 18, 7⟩
def fpcBlkSel_die : Fld := ⟨0x800068, 25, 4⟩
/-- FPC_BLK_INFO0 (R303, 10 of spec/). -/
abbrev fpcBlkInfo0 : Nat := 0x800070
def fpcBlkInfo0_state : Fld := ⟨0x800070, 0, 3⟩
def fpcBlkInfo0_retirePending : Fld := ⟨0x800070, 3, 1⟩
def fpcBlkInfo0_disturbWarn : Fld := ⟨0x800070, 4, 1⟩
def fpcBlkInfo0_peOver : Fld := ⟨0x800070, 5, 1⟩
def fpcBlkInfo0_ptr : Fld := ⟨0x800070, 8, 12⟩
def fpcBlkInfo0_live : Fld := ⟨0x800070, 20, 12⟩
def fpcBlkInfo0_pe : Fld := ⟨0x800070, 32, 16⟩
def fpcBlkInfo0_fails : Fld := ⟨0x800070, 48, 8⟩
/-- FPC_BLK_INFO1 (R303, 10 of spec/). -/
abbrev fpcBlkInfo1 : Nat := 0x800078
def fpcBlkInfo1_reads : Fld := ⟨0x800078, 0, 40⟩
/-- FPC_SEC_SEL (R303, 10 of spec/). -/
abbrev fpcSecSel : Nat := 0x800080
def fpcSecSel_tile : Fld := ⟨0x800080, 0, 10⟩
def fpcSecSel_sector : Fld := ⟨0x800080, 10, 4⟩
/-- FPC_SEC_INFO (R303, 10 of spec/). -/
abbrev fpcSecInfo : Nat := 0x800088
def fpcSecInfo_state : Fld := ⟨0x800088, 0, 3⟩
def fpcSecInfo_rows : Fld := ⟨0x800088, 3, 7⟩
def fpcSecInfo_shift : Fld := ⟨0x800088, 10, 4⟩
def fpcSecInfo_pe : Fld := ⟨0x800088, 14, 16⟩
def fpcSecInfo_peOver : Fld := ⟨0x800088, 30, 1⟩
/-- FPC_WST_STAT (R303, 10 of spec/). -/
abbrev fpcWstStat : Nat := 0x800090
def fpcWstStat_freePages : Fld := ⟨0x800090, 0, 29⟩
def fpcWstStat_bad : Fld := ⟨0x800090, 32, 13⟩
def fpcWstStat_undefined : Fld := ⟨0x800090, 45, 8⟩
def fpcWstStat_incomplete : Fld := ⟨0x800090, 53, 8⟩
/-- FPC_ERR (R303, 10 of spec/). -/
abbrev fpcErr : Nat := 0x800098
def fpcErr_uncorr : Fld := ⟨0x800098, 0, 32⟩
def fpcErr_retries : Fld := ⟨0x800098, 32, 32⟩
/-- FPC_DISTURB (R303, 10 of spec/). -/
abbrev fpcDisturb : Nat := 0x8000A0
def fpcDisturb_warnBlocks : Fld := ⟨0x8000A0, 0, 16⟩
def fpcDisturb_overBlocks : Fld := ⟨0x8000A0, 16, 16⟩
def fpcDisturb_lastBlk : Fld := ⟨0x8000A0, 32, 18⟩
/-- FPC_STAGE (R303, 10 of spec/). -/
abbrev fpcStage : Nat := 0x8000A8
def fpcStage_held : Fld := ⟨0x8000A8, 0, 8⟩
def fpcStage_verified : Fld := ⟨0x8000A8, 8, 8⟩
/-- FPC_CAL_SEL (R303, 10 of spec/). -/
abbrev fpcCalSel : Nat := 0x8000B0
def fpcCalSel_die : Fld := ⟨0x8000B0, 0, 5⟩
def fpcCalSel_word : Fld := ⟨0x8000B0, 5, 13⟩
/-- FPC_CAL_DATA (R303, 10 of spec/). -/
abbrev fpcCalData : Nat := 0x8000B8
def fpcCalData_data : Fld := ⟨0x8000B8, 0, 64⟩
/-- FPC_INST_ADDR (R326, 11 of spec/). -/
abbrev fpcInstAddr : Nat := 0x800100
def fpcInstAddr_addr : Fld := ⟨0x800100, 0, 52⟩
/-- FPC_INST_CMD (R326, 11 of spec/). -/
abbrev fpcInstCmd : Nat := 0x800108
def fpcInstCmd_op : Fld := ⟨0x800108, 0, 3⟩
def fpcInstCmd_model : Fld := ⟨0x800108, 3, 6⟩
def fpcInstCmd_slot : Fld := ⟨0x800108, 9, 1⟩
def fpcInstCmd_permit : Fld := ⟨0x800108, 10, 1⟩
def fpcInstCmd_mode : Fld := ⟨0x800108, 11, 1⟩
def fpcInstCmd_cut : Fld := ⟨0x800108, 12, 1⟩
def fpcInstCmd_auto : Fld := ⟨0x800108, 13, 1⟩
def fpcInstCmd_timeout : Fld := ⟨0x800108, 16, 16⟩
/-- FPC_INST_STATUS (R326, 11 of spec/). -/
abbrev fpcInstStatus : Nat := 0x800110
def fpcInstStatus_state : Fld := ⟨0x800110, 0, 3⟩
def fpcInstStatus_model : Fld := ⟨0x800110, 3, 6⟩
def fpcInstStatus_slot : Fld := ⟨0x800110, 9, 1⟩
def fpcInstStatus_leader : Fld := ⟨0x800110, 10, 1⟩
def fpcInstStatus_refused : Fld := ⟨0x800110, 11, 3⟩
def fpcInstStatus_shardsOk : Fld := ⟨0x800110, 16, 24⟩
def fpcInstStatus_rereq : Fld := ⟨0x800110, 40, 16⟩
/-- FPC_INST_RESULT (R326, 11 of spec/). -/
abbrev fpcInstResult : Nat := 0x800118
def fpcInstResult_valid : Fld := ⟨0x800118, 0, 1⟩
def fpcInstResult_status : Fld := ⟨0x800118, 8, 8⟩
def fpcInstResult_dev : Fld := ⟨0x800118, 16, 8⟩
def fpcInstResult_detail : Fld := ⟨0x800118, 24, 16⟩
def fpcInstResult_shard : Fld := ⟨0x800118, 40, 24⟩
/-- LNK_SYS (R375, 13 of spec/). -/
abbrev lnkSys : Nat := 0x900000
def lnkSys_role : Fld := ⟨0x900000, 0, 2⟩
def lnkSys_roleFault : Fld := ⟨0x900000, 2, 1⟩
def lnkSys_formed : Fld := ⟨0x900000, 3, 1⟩
def lnkSys_dev : Fld := ⟨0x900000, 8, 8⟩
def lnkSys_hops : Fld := ⟨0x900000, 16, 8⟩
def lnkSys_upPort : Fld := ⟨0x900000, 24, 3⟩
def lnkSys_upValid : Fld := ⟨0x900000, 27, 1⟩
def lnkSys_nDev : Fld := ⟨0x900000, 28, 9⟩
/-- LNK_SYS_CFG (R375, 13 of spec/). -/
abbrev lnkSysCfg : Nat := 0x900008
def lnkSysCfg_reattachWait : Fld := ⟨0x900008, 0, 16⟩
def lnkSysCfg_peerMask : Fld := ⟨0x900008, 16, 16⟩
def lnkSysCfg_irqEn : Fld := ⟨0x900008, 32, 1⟩
def lnkSysCfg_vector : Fld := ⟨0x900008, 33, 11⟩
/-- LNK_EVENT (R375, 13 of spec/). -/
abbrev lnkEvent : Nat := 0x900010
def lnkEvent_portDown : Fld := ⟨0x900010, 0, 8⟩
def lnkEvent_devLost : Fld := ⟨0x900010, 8, 1⟩
def lnkEvent_devAdded : Fld := ⟨0x900010, 9, 1⟩
def lnkEvent_reformed : Fld := ⟨0x900010, 10, 1⟩
def lnkEvent_syncDropped : Fld := ⟨0x900010, 11, 1⟩
def lnkEvent_timeStep : Fld := ⟨0x900010, 12, 1⟩
def lnkEvent_joinRefused : Fld := ⟨0x900010, 13, 1⟩
/-- LNK_TOPO_SEL (R375, 13 of spec/). -/
abbrev lnkTopoSel : Nat := 0x900018
def lnkTopoSel_dev : Fld := ⟨0x900018, 0, 8⟩
/-- LNK_TOPO (R375, 13 of spec/). -/
abbrev lnkTopo : Nat := 0x900020
def lnkTopo_state : Fld := ⟨0x900020, 0, 2⟩
def lnkTopo_parent : Fld := ⟨0x900020, 2, 8⟩
def lnkTopo_parentPort : Fld := ⟨0x900020, 10, 3⟩
def lnkTopo_hops : Fld := ⟨0x900020, 13, 8⟩
def lnkTopo_standby : Fld := ⟨0x900020, 21, 8⟩
def lnkTopo_active : Fld := ⟨0x900020, 29, 8⟩
/-- LNK_SYNC_STAT (R375, 13 of spec/). -/
abbrev lnkSyncStat : Nat := 0x900028
def lnkSyncStat_held : Fld := ⟨0x900028, 0, 9⟩
def lnkSyncStat_pending : Fld := ⟨0x900028, 9, 9⟩
def lnkSyncStat_dropped : Fld := ⟨0x900028, 32, 16⟩
/-- LNK_PORT_CTL, 8 registers 64 bytes apart (R375, 13 of spec/). -/
abbrev lnkPortCtl : Nat := 0x900100
def lnkPortCtl_en : Fld := ⟨0x900100, 0, 1⟩
def lnkPortCtl_down : Fld := ⟨0x900100, 1, 1⟩
def lnkPortCtl_comet : Fld := ⟨0x900100, 2, 1⟩
def lnkPortCtl_peerEn : Fld := ⟨0x900100, 3, 1⟩
/-- LNK_PORT_STATUS, 8 registers 64 bytes apart (R375, 13 of spec/). -/
abbrev lnkPortStatus : Nat := 0x900108
def lnkPortStatus_state : Fld := ⟨0x900108, 0, 3⟩
def lnkPortStatus_use : Fld := ⟨0x900108, 3, 2⟩
def lnkPortStatus_partner : Fld := ⟨0x900108, 5, 8⟩
def lnkPortStatus_partnerPort : Fld := ⟨0x900108, 13, 3⟩
def lnkPortStatus_partnerRole : Fld := ⟨0x900108, 16, 2⟩
def lnkPortStatus_lanesOk : Fld := ⟨0x900108, 18, 6⟩
def lnkPortStatus_downCause : Fld := ⟨0x900108, 24, 4⟩
/-- LNK_PORT_LAT, 8 registers 64 bytes apart (R375, 13 of spec/). -/
abbrev lnkPortLat : Nat := 0x900110
def lnkPortLat_latPs : Fld := ⟨0x900110, 0, 20⟩
def lnkPortLat_rttPs : Fld := ⟨0x900110, 20, 20⟩
/-- LNK_PORT_ERR, 8 registers 64 bytes apart (R375, 13 of spec/). -/
abbrev lnkPortErr : Nat := 0x900118
def lnkPortErr_crcData : Fld := ⟨0x900118, 0, 16⟩
def lnkPortErr_crcCtl : Fld := ⟨0x900118, 16, 16⟩
def lnkPortErr_replays : Fld := ⟨0x900118, 32, 16⟩
def lnkPortErr_dup : Fld := ⟨0x900118, 48, 8⟩
def lnkPortErr_downs : Fld := ⟨0x900118, 56, 8⟩
/-- LNK_PORT_FLITS, 8 registers 64 bytes apart (R375, 13 of spec/). -/
abbrev lnkPortFlits : Nat := 0x900120
def lnkPortFlits_tx : Fld := ⟨0x900120, 0, 32⟩
def lnkPortFlits_rx : Fld := ⟨0x900120, 32, 32⟩
/-- SEC_BOOT (R466, 17 of spec/). -/
abbrev secBoot : Nat := 0xA00000
def secBoot_state : Fld := ⟨0xA00000, 0, 3⟩
def secBoot_slot : Fld := ⟨0xA00000, 3, 1⟩
def secBoot_fallback : Fld := ⟨0xA00000, 4, 1⟩
def secBoot_resA : Fld := ⟨0xA00000, 5, 3⟩
def secBoot_resB : Fld := ⟨0xA00000, 8, 3⟩
def secBoot_dieFail : Fld := ⟨0xA00000, 11, 20⟩
def secBoot_ok : Fld := ⟨0xA00000, 31, 1⟩
def secBoot_streakA : Fld := ⟨0xA00000, 32, 2⟩
def secBoot_streakB : Fld := ⟨0xA00000, 34, 2⟩
/-- SEC_FW (R466, 17 of spec/). -/
abbrev secFw : Nat := 0xA00008
def secFw_version : Fld := ⟨0xA00008, 0, 32⟩
def secFw_svn : Fld := ⟨0xA00008, 32, 6⟩
def secFw_rsaIdx : Fld := ⟨0xA00008, 38, 2⟩
def secFw_slhIdx : Fld := ⟨0xA00008, 40, 2⟩
/-- SEC_FUSE (R466, 17 of spec/). -/
abbrev secFuse : Nat := 0xA00010
def secFuse_minSvn : Fld := ⟨0xA00010, 0, 6⟩
def secFuse_rsaRevoked : Fld := ⟨0xA00010, 8, 4⟩
def secFuse_slhRevoked : Fld := ⟨0xA00010, 12, 4⟩
def secFuse_debugLocked : Fld := ⟨0xA00010, 16, 1⟩
/-- SEC_SVN_COMMIT (R466, 17 of spec/). -/
abbrev secSvnCommit : Nat := 0xA00018
def secSvnCommit_key : Fld := ⟨0xA00018, 0, 16⟩
def secSvnCommit_svn : Fld := ⟨0xA00018, 16, 6⟩
/-- SEC_FWUP (R466, 17 of spec/). -/
abbrev secFwup : Nat := 0xA00020
def secFwup_op : Fld := ⟨0xA00020, 0, 2⟩
def secFwup_slot : Fld := ⟨0xA00020, 2, 1⟩
def secFwup_state : Fld := ⟨0xA00020, 4, 2⟩
def secFwup_version : Fld := ⟨0xA00020, 32, 32⟩
/-- SEC_WDOG (R466, 17 of spec/). -/
abbrev secWdog : Nat := 0xA00028
def secWdog_timeoutMs : Fld := ⟨0xA00028, 0, 16⟩
def secWdog_expiries : Fld := ⟨0xA00028, 16, 16⟩
def secWdog_remainingMs : Fld := ⟨0xA00028, 32, 16⟩
/-- SEC_MEAS_SEL (R466, 17 of spec/). -/
abbrev secMeasSel : Nat := 0xA00040
def secMeasSel_reg : Fld := ⟨0xA00040, 0, 4⟩
/-- SEC_MEAS_D, 6 registers 8 bytes apart (R466, 17 of spec/). -/
abbrev secMeasD : Nat := 0xA00048
def secMeasD_bytes : Fld := ⟨0xA00048, 0, 64⟩
/-- SEC_EXT_D, 6 registers 8 bytes apart (R466, 17 of spec/). -/
abbrev secExtD : Nat := 0xA00080
def secExtD_bytes : Fld := ⟨0xA00080, 0, 64⟩
/-- SEC_EXT_CTL (R466, 17 of spec/). -/
abbrev secExtCtl : Nat := 0xA000B0
def secExtCtl_reg : Fld := ⟨0xA000B0, 0, 4⟩
/-- SEC_ATT_ADDR (R466, 17 of spec/). -/
abbrev secAttAddr : Nat := 0xA000C0
def secAttAddr_addr : Fld := ⟨0xA000C0, 0, 52⟩
/-- SEC_ATT_CTL (R466, 17 of spec/). -/
abbrev secAttCtl : Nat := 0xA000C8
def secAttCtl_go : Fld := ⟨0xA000C8, 0, 1⟩
def secAttCtl_ctx : Fld := ⟨0xA000C8, 1, 4⟩
def secAttCtl_dev : Fld := ⟨0xA000C8, 5, 8⟩
/-- SEC_ATT_STAT (R466, 17 of spec/). -/
abbrev secAttStat : Nat := 0xA000D0
def secAttStat_state : Fld := ⟨0xA000D0, 0, 3⟩
def secAttStat_ahead : Fld := ⟨0xA000D0, 3, 5⟩
/-- SEC_ATT_NONCE, 4 registers 8 bytes apart (R466, 17 of spec/). -/
abbrev secAttNonce : Nat := 0xA000E0
def secAttNonce_bytes : Fld := ⟨0xA000E0, 0, 64⟩
/-- SEC_CERT_SEL (R466, 17 of spec/). -/
abbrev secCertSel : Nat := 0xA00100
def secCertSel_cert : Fld := ⟨0xA00100, 0, 1⟩
def secCertSel_word : Fld := ⟨0xA00100, 1, 12⟩
def secCertSel_len : Fld := ⟨0xA00100, 16, 16⟩
/-- SEC_CERT_DATA (R466, 17 of spec/). -/
abbrev secCertData : Nat := 0xA00108
def secCertData_data : Fld := ⟨0xA00108, 0, 64⟩
/-- SEC_RECOV (R466, 17 of spec/). -/
abbrev secRecov : Nat := 0xA00110
def secRecov_go : Fld := ⟨0xA00110, 0, 1⟩
def secRecov_result : Fld := ⟨0xA00110, 1, 3⟩
/-- TIME_NOW (R376, 13 of spec/). -/
abbrev timeNow : Nat := 0xB00000
def timeNow_ns : Fld := ⟨0xB00000, 0, 64⟩
/-- TIME_NOW_FRAC (R376, 13 of spec/). -/
abbrev timeNowFrac : Nat := 0xB00008
def timeNowFrac_frac : Fld := ⟨0xB00008, 0, 32⟩
/-- TIME_SET (R376, 13 of spec/). -/
abbrev timeSet : Nat := 0xB00010
def timeSet_ns : Fld := ⟨0xB00010, 0, 64⟩
/-- TIME_ADJ (R376, 13 of spec/). -/
abbrev timeAdj : Nat := 0xB00018
def timeAdj_offset : Fld := ⟨0xB00018, 0, 32⟩
/-- TIME_TRIM (R376, 13 of spec/). -/
abbrev timeTrim : Nat := 0xB00020
def timeTrim_trim : Fld := ⟨0xB00020, 0, 32⟩
/-- TIME_STATUS (R376, 13 of spec/). -/
abbrev timeStatus : Nat := 0xB00028
def timeStatus_locked : Fld := ⟨0xB00028, 0, 1⟩
def timeStatus_holdover : Fld := ⟨0xB00028, 1, 1⟩
def timeStatus_offsetPs : Fld := ⟨0xB00028, 16, 32⟩
def timeStatus_steps : Fld := ⟨0xB00028, 48, 16⟩
/-- TIME_OUT_CFG (R376, 13 of spec/). -/
abbrev timeOutCfg : Nat := 0xB00030
def timeOutCfg_ppsEn : Fld := ⟨0xB00030, 0, 1⟩
def timeOutCfg_m10En : Fld := ⟨0xB00030, 1, 1⟩
def timeOutCfg_free : Fld := ⟨0xB00030, 2, 1⟩
def timeOutCfg_ppsWidth : Fld := ⟨0xB00030, 8, 16⟩
/-- TEL_LOG_CFG (R393, 14 of spec/). -/
abbrev telLogCfg : Nat := 0xC00000
def telLogCfg_irqEn : Fld := ⟨0xC00000, 0, 1⟩
def telLogCfg_vector : Fld := ⟨0xC00000, 1, 11⟩
/-- TEL_LOG_STATUS (R393, 14 of spec/). -/
abbrev telLogStatus : Nat := 0xC00008
def telLogStatus_nextSeq : Fld := ⟨0xC00008, 0, 32⟩
def telLogStatus_held : Fld := ⟨0xC00008, 32, 11⟩
/-- TEL_LOG_SEL (R393, 14 of spec/). -/
abbrev telLogSel : Nat := 0xC00010
def telLogSel_seq : Fld := ⟨0xC00010, 0, 32⟩
/-- TEL_LOG_W, 4 registers 8 bytes apart (R393, 14 of spec/). -/
abbrev telLogW : Nat := 0xC00018
def telLogW_word : Fld := ⟨0xC00018, 0, 64⟩
/-- TEL_ECC, 4 registers 8 bytes apart (R393, 14 of spec/). -/
abbrev telEcc : Nat := 0xC00040
def telEcc_corrected : Fld := ⟨0xC00040, 0, 32⟩
def telEcc_uncorr : Fld := ⟨0xC00040, 32, 24⟩
/-- TEL_POISON_IN (R393, 14 of spec/). -/
abbrev telPoisonIn : Nat := 0xC00060
def telPoisonIn_pcie : Fld := ⟨0xC00060, 0, 32⟩
def telPoisonIn_link : Fld := ⟨0xC00060, 32, 32⟩
/-- TEL_RAIL_SEL (R421, 15 of spec/). -/
abbrev telRailSel : Nat := 0xC00100
def telRailSel_rail : Fld := ⟨0xC00100, 0, 4⟩
/-- TEL_RAIL (R421, 15 of spec/). -/
abbrev telRail : Nat := 0xC00108
def telRail_mv : Fld := ⟨0xC00108, 0, 16⟩
def telRail_ma : Fld := ⟨0xC00108, 16, 20⟩
def telRail_mw : Fld := ⟨0xC00108, 36, 24⟩
def telRail_stale : Fld := ⟨0xC00108, 60, 1⟩
def telRail_fault : Fld := ⟨0xC00108, 61, 1⟩
/-- TEL_POWER (R421, 15 of spec/). -/
abbrev telPower : Nat := 0xC00110
def telPower_nowMw : Fld := ⟨0xC00110, 0, 24⟩
def telPower_avgMw : Fld := ⟨0xC00110, 24, 24⟩
/-- TEL_THERM_SEL (R421, 15 of spec/). -/
abbrev telThermSel : Nat := 0xC00118
def telThermSel_sensor : Fld := ⟨0xC00118, 0, 6⟩
/-- TEL_THERM (R421, 15 of spec/). -/
abbrev telTherm : Nat := 0xC00120
def telTherm_temp : Fld := ⟨0xC00120, 0, 9⟩
def telTherm_max : Fld := ⟨0xC00120, 16, 9⟩
def telTherm_maxSensor : Fld := ⟨0xC00120, 25, 6⟩
/-- CTX_CTRL (R210, 07 of spec/). -/
abbrev ctxCtrl : Nat := 0x0000
def ctxCtrl_reset : Fld := ⟨0x0000, 0, 1⟩
def ctxCtrl_qEn : Fld := ⟨0x0000, 4, 4⟩
/-- CTX_STATUS (R210, 07 of spec/). -/
abbrev ctxStatus : Nat := 0x0008
def ctxStatus_resetBusy : Fld := ⟨0x0008, 0, 1⟩
def ctxStatus_ringFull : Fld := ⟨0x0008, 1, 1⟩
def ctxStatus_cbufHold : Fld := ⟨0x0008, 2, 1⟩
def ctxStatus_aborting : Fld := ⟨0x0008, 3, 1⟩
def ctxStatus_qWait : Fld := ⟨0x0008, 4, 4⟩
def ctxStatus_openReq : Fld := ⟨0x0008, 8, 11⟩
def ctxStatus_cbuf : Fld := ⟨0x0008, 19, 10⟩
/-- CTX_ABORT (R210, 07 of spec/). -/
abbrev ctxAbort : Nat := 0x0010
def ctxAbort_req : Fld := ⟨0x0010, 0, 48⟩
def ctxAbort_all : Fld := ⟨0x0010, 48, 1⟩
/-- CTX_CQ_BASE (R210, 07 of spec/). -/
abbrev ctxCqBase : Nat := 0x0040
def ctxCqBase_addr : Fld := ⟨0x0040, 8, 56⟩
/-- CTX_CQ_CFG (R210, 07 of spec/). -/
abbrev ctxCqCfg : Nat := 0x0048
def ctxCqCfg_log2Size : Fld := ⟨0x0048, 0, 5⟩
/-- CTX_CQ_HEAD (R210, 07 of spec/). -/
abbrev ctxCqHead : Nat := 0x0050
def ctxCqHead_head : Fld := ⟨0x0050, 0, 16⟩
def ctxCqHead_lap : Fld := ⟨0x0050, 16, 1⟩
/-- CTX_CQ_TAIL (R210, 07 of spec/). -/
abbrev ctxCqTail : Nat := 0x0058
def ctxCqTail_tail : Fld := ⟨0x0058, 0, 16⟩
def ctxCqTail_lap : Fld := ⟨0x0058, 16, 1⟩
/-- CTX_CQ_IRQ (R210, 07 of spec/). -/
abbrev ctxCqIrq : Nat := 0x0060
def ctxCqIrq_vector : Fld := ⟨0x0060, 0, 11⟩
def ctxCqIrq_en : Fld := ⟨0x0060, 16, 1⟩
def ctxCqIrq_cnt : Fld := ⟨0x0060, 24, 8⟩
def ctxCqIrq_timer : Fld := ⟨0x0060, 32, 16⟩
/-- CTX_REQ_STAT (R210, 07 of spec/). -/
abbrev ctxReqStat : Nat := 0x0068
def ctxReqStat_dupCount : Fld := ⟨0x0068, 0, 32⟩
def ctxReqStat_dropped : Fld := ⟨0x0068, 32, 16⟩
/-- CTX_SYNC_ADD (R210, 07 of spec/). -/
abbrev ctxSyncAdd : Nat := 0x0080
def ctxSyncAdd_idx : Fld := ⟨0x0080, 0, 8⟩
def ctxSyncAdd_inc : Fld := ⟨0x0080, 32, 32⟩
/-- CTX_QUANT_CFG (R68, 02 of spec/). -/
abbrev ctxQuantCfg : Nat := 0x0400
def ctxQuantCfg_clipThr : Fld := ⟨0x0400, 0, 16⟩
def ctxQuantCfg_zeroThr : Fld := ⟨0x0400, 16, 16⟩
def ctxQuantCfg_rerunEn : Fld := ⟨0x0400, 32, 1⟩
/-- CTX_QUANT_STAT (R68, 02 of spec/). -/
abbrev ctxQuantStat : Nat := 0x0408
def ctxQuantStat_clipTotal : Fld := ⟨0x0408, 0, 32⟩
def ctxQuantStat_zeroTotal : Fld := ⟨0x0408, 32, 32⟩
/-- CTX_QUANT_NCOUNT (R68, 02 of spec/). -/
abbrev ctxQuantNcount : Nat := 0x0410
def ctxQuantNcount_rerunCount : Fld := ⟨0x0410, 0, 32⟩
def ctxQuantNcount_nanTotal : Fld := ⟨0x0410, 32, 32⟩
/-- CTX_RND_BASE (R68, 02 of spec/). -/
abbrev ctxRndBase : Nat := 0x0418
def ctxRndBase_elBase : Fld := ⟨0x0418, 0, 48⟩
/-- CTX_CAF_STAT (R100, 03 of spec/). -/
abbrev ctxCafStat : Nat := 0x0500
def ctxCafStat_groupsSkipped : Fld := ⟨0x0500, 0, 32⟩
def ctxCafStat_stepsRemoved : Fld := ⟨0x0500, 32, 32⟩
/-- CTX_MXE_STAT (R151, 05 of spec/). -/
abbrev ctxMxeStat : Nat := 0x0508
def ctxMxeStat_stallEpisodes : Fld := ⟨0x0508, 0, 32⟩
def ctxMxeStat_poisonedOut : Fld := ⟨0x0508, 32, 32⟩
/-- CTX_MXE_STALLCYC (R151, 05 of spec/). -/
abbrev ctxMxeStallcyc : Nat := 0x0510
def ctxMxeStallcyc_cycles : Fld := ⟨0x0510, 0, 48⟩
/-- CTX_CMP_TABLES (R177, 06 of spec/). -/
abbrev ctxCmpTables : Nat := 0x0520
def ctxCmpTables_valid : Fld := ⟨0x0520, 0, 8⟩
def ctxCmpTables_pinned : Fld := ⟨0x0520, 8, 8⟩
def ctxCmpTables_loadWait : Fld := ⟨0x0520, 16, 8⟩
/-- CTX_CMP_STAT (R177, 06 of spec/). -/
abbrev ctxCmpStat : Nat := 0x0528
def ctxCmpStat_blocksCoded : Fld := ⟨0x0528, 0, 32⟩
def ctxCmpStat_blocksRaw : Fld := ⟨0x0528, 32, 32⟩
/-- CTX_CMP_SAVED (R177, 06 of spec/). -/
abbrev ctxCmpSaved : Nat := 0x0530
def ctxCmpSaved_sectorsSaved : Fld := ⟨0x0530, 0, 48⟩
/-- CTX_CMP_ERR (R177, 06 of spec/). -/
abbrev ctxCmpErr : Nat := 0x0538
def ctxCmpErr_decodeCheck : Fld := ⟨0x0538, 0, 16⟩
def ctxCmpErr_pairing : Fld := ⟨0x0538, 16, 16⟩
def ctxCmpErr_poisonedIn : Fld := ⟨0x0538, 32, 16⟩
/-- CTX_TMV_SEL (R244, 08 of spec/). -/
abbrev ctxTmvSel : Nat := 0x0540
def ctxTmvSel_eng : Fld := ⟨0x0540, 0, 2⟩
def ctxTmvSel_slot : Fld := ⟨0x0540, 2, 5⟩
/-- CTX_TMV_SLOT (R244, 08 of spec/). -/
abbrev ctxTmvSlot : Nat := 0x0548
def ctxTmvSlot_nArm : Fld := ⟨0x0548, 0, 2⟩
def ctxTmvSlot_shadow : Fld := ⟨0x0548, 2, 1⟩
def ctxTmvSlot_attached : Fld := ⟨0x0548, 3, 1⟩
def ctxTmvSlot_unbuffered : Fld := ⟨0x0548, 4, 1⟩
def ctxTmvSlot_ahead : Fld := ⟨0x0548, 5, 3⟩
def ctxTmvSlot_pos : Fld := ⟨0x0548, 8, 48⟩
/-- CTX_TMV_STAT (R244, 08 of spec/). -/
abbrev ctxTmvStat : Nat := 0x0550
def ctxTmvStat_misses : Fld := ⟨0x0550, 0, 32⟩
def ctxTmvStat_late : Fld := ⟨0x0550, 32, 12⟩
def ctxTmvStat_faults : Fld := ⟨0x0550, 44, 12⟩
def ctxTmvStat_chkFail : Fld := ⟨0x0550, 56, 8⟩
/-- CTX_TMV_ARB (R244, 08 of spec/). -/
abbrev ctxTmvArb : Nat := 0x0558
def ctxTmvArb_diverged : Fld := ⟨0x0558, 0, 32⟩
def ctxTmvArb_agecap : Fld := ⟨0x0558, 32, 32⟩
/-- CTX_TMV_RUN (R244, 08 of spec/). -/
abbrev ctxTmvRun : Nat := 0x0560
def ctxTmvRun_exec : Fld := ⟨0x0560, 0, 7⟩
def ctxTmvRun_copies : Fld := ⟨0x0560, 7, 6⟩
/-- CTX_MIG_OBJ (R273, 09 of spec/). -/
abbrev ctxMigObj : Nat := 0x0580
def ctxMigObj_addr : Fld := ⟨0x0580, 12, 40⟩
/-- CTX_MIG_REQ (R273, 09 of spec/). -/
abbrev ctxMigReq : Nat := 0x0588
def ctxMigReq_op : Fld := ⟨0x0588, 0, 2⟩
def ctxMigReq_tier : Fld := ⟨0x0588, 2, 2⟩
def ctxMigReq_id : Fld := ⟨0x0588, 8, 8⟩
def ctxMigReq_sigEn : Fld := ⟨0x0588, 16, 1⟩
def ctxMigReq_sigIdx : Fld := ⟨0x0588, 17, 8⟩
def ctxMigReq_sigInc : Fld := ⟨0x0588, 25, 8⟩
def ctxMigReq_dl : Fld := ⟨0x0588, 33, 16⟩
/-- CTX_MIG_RBASE (R273, 09 of spec/). -/
abbrev ctxMigRbase : Nat := 0x0590
def ctxMigRbase_addr : Fld := ⟨0x0590, 11, 53⟩
/-- CTX_MIG_STAT (R273, 09 of spec/). -/
abbrev ctxMigStat : Nat := 0x0598
def ctxMigStat_outstanding : Fld := ⟨0x0598, 0, 9⟩
def ctxMigStat_rejected : Fld := ⟨0x0598, 16, 16⟩
def ctxMigStat_refused : Fld := ⟨0x0598, 32, 16⟩
def ctxMigStat_poison : Fld := ⟨0x0598, 48, 16⟩
/-- CTX_MIG_USE (R273, 09 of spec/). -/
abbrev ctxMigUse : Nat := 0x05A0
def ctxMigUse_t0Used : Fld := ⟨0x05A0, 0, 16⟩
def ctxMigUse_t1Used : Fld := ⟨0x05A0, 16, 20⟩
def ctxMigUse_t0Over : Fld := ⟨0x05A0, 36, 1⟩
def ctxMigUse_t1Over : Fld := ⟨0x05A0, 37, 1⟩
/-- CTX_STEP (R347, 12 of spec/). -/
abbrev ctxStep : Nat := 0x0600
def ctxStep_value : Fld := ⟨0x0600, 0, 64⟩
/-- CTX_DIV_COUNT (R347, 12 of spec/). -/
abbrev ctxDivCount : Nat := 0x0608
def ctxDivCount_count : Fld := ⟨0x0608, 0, 64⟩
/-- CTX_EXACT (R347, 12 of spec/). -/
abbrev ctxExact : Nat := 0x0620
def ctxExact_req : Fld := ⟨0x0620, 0, 1⟩
def ctxExact_active : Fld := ⟨0x0620, 1, 1⟩
def ctxExact_refused : Fld := ⟨0x0620, 2, 1⟩
def ctxExact_draining : Fld := ⟨0x0620, 3, 1⟩
/-- CTX_TAIL_BASE (R347, 12 of spec/). -/
abbrev ctxTailBase : Nat := 0x0640
def ctxTailBase_addr : Fld := ⟨0x0640, 12, 40⟩
/-- CTX_TAIL_CFG (R347, 12 of spec/). -/
abbrev ctxTailCfg : Nat := 0x0648
def ctxTailCfg_log2Size : Fld := ⟨0x0648, 0, 5⟩
def ctxTailCfg_en : Fld := ⟨0x0648, 8, 1⟩
/-- CTX_TAIL_HEAD (R347, 12 of spec/). -/
abbrev ctxTailHead : Nat := 0x0650
def ctxTailHead_head : Fld := ⟨0x0650, 0, 20⟩
def ctxTailHead_lap : Fld := ⟨0x0650, 20, 1⟩
/-- CTX_TAIL_TAIL (R347, 12 of spec/). -/
abbrev ctxTailTail : Nat := 0x0658
def ctxTailTail_tail : Fld := ⟨0x0658, 0, 20⟩
def ctxTailTail_lap : Fld := ⟨0x0658, 20, 1⟩
/-- CTX_TAIL_STAT (R347, 12 of spec/). -/
abbrev ctxTailStat : Nat := 0x0660
def ctxTailStat_lost : Fld := ⟨0x0660, 0, 32⟩
def ctxTailStat_overflow : Fld := ⟨0x0660, 32, 1⟩
def ctxTailStat_fault : Fld := ⟨0x0660, 33, 1⟩
def ctxTailStat_buffered : Fld := ⟨0x0660, 34, 9⟩
/-- CTX_APT_BASE (R436, 16 of spec/). -/
abbrev ctxAptBase : Nat := 0x0800
def ctxAptBase_addr : Fld := ⟨0x0800, 30, 22⟩
/-- CTX_APT_CFG (R436, 16 of spec/). -/
abbrev ctxAptCfg : Nat := 0x0808
def ctxAptCfg_ctx : Fld := ⟨0x0808, 0, 4⟩
/-- CTX_APT_STAT (R436, 16 of spec/). -/
abbrev ctxAptStat : Nat := 0x0810
def ctxAptStat_faults : Fld := ⟨0x0810, 0, 32⟩
/-- CTX_Q_HEAD, 4 registers 8 bytes apart (R210, 07 of spec/). -/
abbrev ctxQHead : Nat := 0x0020
def ctxQHead_head : Fld := ⟨0x0020, 0, 12⟩
def ctxQHead_phase : Fld := ⟨0x0020, 12, 1⟩
/-- CTX_DIV_SRC, 2 registers 8 bytes apart (R347, 12 of spec/). -/
abbrev ctxDivSrc : Nat := 0x0610
def ctxDivSrc_srcK : Fld := ⟨0x0610, 0, 64⟩
/-- CTX_SEED, 8 registers 8 bytes apart (R347, 12 of spec/). -/
abbrev ctxSeed : Nat := 0x0680
def ctxSeed_seed : Fld := ⟨0x0680, 0, 64⟩
/-- CTX_CRC_CFG, 4 registers 32 bytes apart (R383, 14 of spec/). -/
abbrev ctxCrcCfg : Nat := 0x0700
def ctxCrcCfg_width : Fld := ⟨0x0700, 0, 1⟩
def ctxCrcCfg_lenM1 : Fld := ⟨0x0700, 1, 3⟩
def ctxCrcCfg_busy : Fld := ⟨0x0700, 8, 1⟩
/-- CTX_CRC_RUN, 4 registers 32 bytes apart (R383, 14 of spec/). -/
abbrev ctxCrcRun : Nat := 0x0708
def ctxCrcRun_value : Fld := ⟨0x0708, 0, 64⟩
/-- CTX_CRC_FEED, 4 registers 32 bytes apart (R383, 14 of spec/). -/
abbrev ctxCrcFeed : Nat := 0x0710
def ctxCrcFeed_data : Fld := ⟨0x0710, 0, 64⟩
/-- CTX_CRC_ADV, 4 registers 32 bytes apart (R383, 14 of spec/). -/
abbrev ctxCrcAdv : Nat := 0x0718
def ctxCrcAdv_len : Fld := ⟨0x0718, 0, 48⟩
/-- CTX_SYNC, 256 registers 8 bytes apart (R210, 07 of spec/). -/
abbrev ctxSync : Nat := 0x1000
def ctxSync_value : Fld := ⟨0x1000, 0, 32⟩
/-- CTX_ATT_NONCE, 4 registers 8 bytes apart (R466, 17 of spec/). -/
abbrev ctxAttNonce : Nat := 0x0900
def ctxAttNonce_bytes : Fld := ⟨0x0900, 0, 64⟩
/-- CTX_ATT_ADDR (R467, 17 of spec/). -/
abbrev ctxAttAddr : Nat := 0x0920
def ctxAttAddr_addr : Fld := ⟨0x0920, 0, 52⟩
/-- CTX_ATT_REQ (R467, 17 of spec/). -/
abbrev ctxAttReq : Nat := 0x0928
def ctxAttReq_go : Fld := ⟨0x0928, 0, 1⟩
/-- CTX_ATT_STAT (R466, 17 of spec/). -/
abbrev ctxAttStat : Nat := 0x0930
def ctxAttStat_state : Fld := ⟨0x0930, 0, 3⟩
def ctxAttStat_ahead : Fld := ⟨0x0930, 3, 5⟩
/-- CTX_MEAS_D, 6 registers 8 bytes apart (R466, 17 of spec/). -/
abbrev ctxMeasD : Nat := 0x0940
def ctxMeasD_bytes : Fld := ⟨0x0940, 0, 64⟩
/-- CTX_EXT_D, 6 registers 8 bytes apart (R466, 17 of spec/). -/
abbrev ctxExtD : Nat := 0x0970
def ctxExtD_bytes : Fld := ⟨0x0970, 0, 64⟩
/-- CTX_EXT_CTL (R467, 17 of spec/). -/
abbrev ctxExtCtl : Nat := 0x09A0
def ctxExtCtl_go : Fld := ⟨0x09A0, 0, 1⟩
/-- CTX_SEC_KEYSEED, 4 registers 8 bytes apart (R467, 17 of spec/). -/
abbrev ctxSecKeyseed : Nat := 0x09C0
def ctxSecKeyseed_seed : Fld := ⟨0x09C0, 0, 64⟩
/-- CTX_SEC_STAT (R467, 17 of spec/). -/
abbrev ctxSecStat : Nat := 0x09E0
def ctxSecStat_seedSet : Fld := ⟨0x09E0, 0, 1⟩
/-- CTX_CERT_SEL (R466, 17 of spec/). -/
abbrev ctxCertSel : Nat := 0x09E8
def ctxCertSel_cert : Fld := ⟨0x09E8, 0, 1⟩
def ctxCertSel_word : Fld := ⟨0x09E8, 1, 12⟩
def ctxCertSel_len : Fld := ⟨0x09E8, 16, 16⟩
/-- CTX_CERT_DATA (R466, 17 of spec/). -/
abbrev ctxCertData : Nat := 0x09F0
def ctxCertData_data : Fld := ⟨0x09F0, 0, 64⟩

end Reg

/-- Rows of the DEV registers. -/
def regRowsDev : List RegRow := [
  ⟨0x0000, 1, 8, [⟨0, 16, .ro, 0⟩, ⟨16, 16, .ro, 0x920⟩, ⟨32, 4, .ro, 0⟩, ⟨36, 2, .ro, 0⟩]⟩,
  ⟨0x0008, 2, 8, [⟨0, 64, .ro, 0⟩]⟩,
  ⟨0x0018, 1, 8, [⟨0, 5, .ro, 16⟩, ⟨5, 4, .ro, 15⟩, ⟨9, 8, .ro, 128⟩, ⟨17, 11, .ro, 0⟩, ⟨28, 16, .ro, 0⟩]⟩,
  ⟨0x0020, 1, 8, [⟨0, 1, .ro, 0⟩, ⟨1, 1, .ro, 0⟩, ⟨2, 1, .ro, 0⟩, ⟨3, 3, .ro, 0⟩, ⟨6, 4, .ro, 0⟩, ⟨10, 4, .ro, 0⟩, ⟨16, 16, .rw, 0⟩]⟩,
  ⟨0x0028, 1, 8, [⟨0, 16, .wo, 0⟩]⟩,
  ⟨0x0030, 1, 8, [⟨0, 1, .ro, 0⟩, ⟨1, 4, .ro, 0⟩, ⟨5, 16, .ro, 0⟩, ⟨21, 1, .ro, 0⟩]⟩,
  ⟨0x0040, 1, 8, [⟨0, 4, .rw, 0⟩]⟩,
  ⟨0x0048, 1, 8, [⟨0, 4, .wo, 0⟩, ⟨4, 2, .wo, 0⟩]⟩,
  ⟨0x0050, 1, 8, [⟨0, 4, .ro, 0⟩, ⟨4, 1, .ro, 0⟩, ⟨5, 10, .ro, 0⟩, ⟨15, 7, .ro, 0⟩, ⟨22, 11, .ro, 0⟩, ⟨33, 1, .ro, 0⟩]⟩,
  ⟨0x1000, 16, 8, [⟨0, 64, .rw, 0xfedcba9876543210⟩]⟩,
  ⟨0x1080, 1, 8, [⟨0, 64, .rw, 0⟩]⟩,
  ⟨0x1088, 1, 8, [⟨0, 16, .rw, 0⟩]⟩,
  ⟨0x1800, 256, 8, [⟨0, 32, .rw, 0⟩]⟩]

/-- Rows of the PWR registers. -/
def regRowsPwr : List RegRow := [
  ⟨0x100000, 1, 8, [⟨0, 3, .wo, 0⟩, ⟨4, 2, .wo, 0⟩]⟩,
  ⟨0x100008, 1, 8, [⟨0, 3, .ro, 3⟩, ⟨4, 2, .ro, 3⟩, ⟨6, 1, .ro, 0⟩, ⟨7, 4, .ro, 0⟩, ⟨11, 3, .ro, 0⟩, ⟨14, 3, .ro, 0⟩, ⟨17, 15, .rw, 0⟩, ⟨32, 1, .ro, 0⟩, ⟨33, 1, .ro, 1⟩]⟩,
  ⟨0x100010, 1, 8, [⟨0, 32, .rw, 0⟩, ⟨32, 1, .rw, 0⟩, ⟨33, 1, .rw, 0⟩]⟩,
  ⟨0x100018, 1, 8, [⟨0, 1, .rw, 1⟩, ⟨1, 1, .rw, 1⟩, ⟨8, 8, .rw, 3⟩, ⟨16, 8, .rw, 0⟩]⟩,
  ⟨0x100020, 1, 8, [⟨0, 4, .ro, 0⟩, ⟨4, 3, .ro, 0⟩, ⟨7, 3, .ro, 0⟩, ⟨10, 1, .ro, 0⟩, ⟨11, 4, .ro, 0⟩, ⟨16, 16, .ro, 0⟩, ⟨32, 32, .ro, 0⟩]⟩,
  ⟨0x100028, 1, 8, [⟨0, 7, .wo, 0⟩, ⟨8, 2, .wo, 0⟩]⟩,
  ⟨0x100040, 1, 8, [⟨0, 1, .wo, 0⟩]⟩,
  ⟨0x100048, 1, 8, [⟨0, 15, .rw, 0⟩, ⟨15, 48, .rw, 0⟩]⟩,
  ⟨0x100050, 1, 8, [⟨0, 48, .rw, 0⟩, ⟨48, 1, .rw, 0⟩, ⟨49, 1, .w1c, 0⟩]⟩,
  ⟨0x100058, 1, 8, [⟨0, 8, .rw, 105⟩, ⟨8, 1, .rw, 0⟩, ⟨9, 11, .rw, 0⟩]⟩,
  ⟨0x100060, 1, 8, [⟨0, 16, .rw, 0⟩, ⟨16, 6, .ro, 0⟩, ⟨22, 8, .ro, 0⟩, ⟨30, 1, .ro, 0⟩, ⟨31, 11, .ro, 0⟩, ⟨42, 1, .ro, 0⟩]⟩,
  ⟨0x100030, 2, 8, [⟨0, 64, .ro, 0xffffffffffffffff⟩]⟩]

/-- Rows of the CLK registers. -/
def regRowsClk : List RegRow := [
  ⟨0x200000, 1, 8, [⟨0, 1, .ro, 0⟩, ⟨1, 2, .ro, 3⟩, ⟨3, 1, .ro, 0⟩, ⟨4, 1, .ro, 0⟩, ⟨5, 1, .ro, 0⟩, ⟨6, 1, .ro, 0⟩]⟩,
  ⟨0x200008, 2, 8, [⟨0, 64, .ro, 0xffffffffffffffff⟩]⟩]

/-- Rows of the MXE registers. -/
def regRowsMxe : List RegRow := [
  ⟨0x300000, 1, 8, [⟨0, 1, .ro, 0⟩, ⟨1, 4, .ro, 0⟩, ⟨5, 3, .ro, 0⟩, ⟨8, 16, .ro, 0⟩, ⟨24, 7, .ro, 0⟩, ⟨31, 1, .ro, 0⟩]⟩,
  ⟨0x300008, 1, 8, [⟨0, 48, .rw, 0⟩]⟩,
  ⟨0x300010, 1, 8, [⟨0, 48, .rw, 0⟩]⟩,
  ⟨0x300018, 1, 8, [⟨0, 4, .ro, 0⟩, ⟨4, 3, .ro, 0⟩, ⟨7, 4, .ro, 0⟩, ⟨11, 4, .ro, 0⟩, ⟨16, 16, .ro, 0⟩, ⟨32, 16, .ro, 0⟩, ⟨48, 9, .ro, 0⟩]⟩]

/-- Rows of the CAF registers. -/
def regRowsCaf : List RegRow := [
  ⟨0x400000, 1, 8, [⟨0, 9, .rw, 0⟩, ⟨9, 1, .rw, 0⟩, ⟨16, 1, .ro, 0⟩]⟩,
  ⟨0x400008, 1, 8, [⟨0, 2, .ro, 0⟩, ⟨2, 4, .ro, 0⟩, ⟨6, 1, .ro, 0⟩, ⟨7, 1, .ro, 0⟩, ⟨8, 10, .ro, 0⟩, ⟨18, 6, .ro, 0⟩, ⟨24, 10, .ro, 0⟩, ⟨34, 10, .ro, 0⟩, ⟨44, 6, .ro, 0⟩]⟩,
  ⟨0x400010, 1, 8, [⟨0, 26, .ro, 0⟩]⟩,
  ⟨0x400018, 1, 8, [⟨0, 16, .ro, 0⟩, ⟨16, 5, .ro, 0⟩]⟩,
  ⟨0x400020, 1, 8, [⟨0, 32, .rw, 0⟩, ⟨32, 10, .ro, 0⟩, ⟨42, 12, .ro, 0⟩]⟩,
  ⟨0x400028, 1, 8, [⟨0, 1, .rw, 1⟩]⟩,
  ⟨0x400030, 1, 8, [⟨0, 10, .rw, 0⟩, ⟨16, 5, .rw, 0⟩]⟩,
  ⟨0x400038, 1, 8, [⟨0, 6, .ro, 0⟩, ⟨6, 6, .ro, 0⟩, ⟨12, 6, .ro, 0⟩, ⟨18, 9, .ro, 0⟩, ⟨27, 1, .ro, 0⟩, ⟨28, 1, .ro, 0⟩, ⟨29, 1, .ro, 0⟩, ⟨30, 1, .ro, 0⟩]⟩,
  ⟨0x400040, 1, 8, [⟨0, 16, .ro, 0⟩, ⟨16, 16, .ro, 0⟩, ⟨32, 16, .ro, 0⟩, ⟨48, 16, .ro, 0⟩]⟩,
  ⟨0x400048, 1, 8, [⟨0, 1, .ro, 0⟩, ⟨1, 1, .ro, 0⟩, ⟨2, 10, .ro, 0⟩]⟩,
  ⟨0x400050, 1, 8, [⟨0, 16, .ro, 0⟩, ⟨16, 6, .ro, 0⟩, ⟨32, 32, .ro, 0⟩]⟩,
  ⟨0x400058, 1, 8, [⟨0, 32, .ro, 0⟩]⟩,
  ⟨0x400060, 1, 8, [⟨0, 11, .ro, 0⟩, ⟨11, 11, .ro, 0⟩, ⟨22, 11, .ro, 0⟩]⟩,
  ⟨0x400068, 1, 8, [⟨0, 10, .wo, 0⟩, ⟨10, 10, .wo, 0⟩]⟩]

/-- Rows of the TMV registers. -/
def regRowsTmv : List RegRow := [
  ⟨0x600000, 1, 8, [⟨0, 4, .ro, 0⟩, ⟨4, 4, .ro, 0⟩, ⟨8, 4, .ro, 0⟩, ⟨12, 4, .ro, 0⟩, ⟨16, 4, .ro, 0⟩, ⟨20, 1, .ro, 0⟩]⟩,
  ⟨0x600008, 1, 8, [⟨0, 10, .ro, 0⟩, ⟨10, 12, .ro, 0⟩]⟩,
  ⟨0x600010, 1, 8, [⟨0, 48, .rw, 0⟩]⟩]

/-- Rows of the MEM registers. -/
def regRowsMem : List RegRow := [
  ⟨0x700000, 1, 8, [⟨0, 1, .rw, 0⟩, ⟨1, 1, .ro, 0⟩]⟩,
  ⟨0x700008, 1, 8, [⟨0, 18, .rw, 0⟩]⟩,
  ⟨0x700010, 4, 8, [⟨0, 64, .rw, 0⟩]⟩,
  ⟨0x700030, 1, 8, [⟨0, 3, .wo, 0⟩]⟩,
  ⟨0x700038, 1, 8, [⟨0, 4, .ro, 0⟩, ⟨8, 19, .ro, 0⟩]⟩,
  ⟨0x700040, 1, 8, [⟨0, 4, .rw, 0⟩, ⟨4, 2, .rw, 0⟩]⟩,
  ⟨0x700048, 1, 8, [⟨0, 32, .rw, 0⟩]⟩,
  ⟨0x700050, 1, 8, [⟨0, 32, .ro, 0⟩, ⟨32, 1, .ro, 0⟩]⟩,
  ⟨0x700058, 1, 8, [⟨0, 16, .ro, 0xc000⟩, ⟨16, 20, .ro, 0xc0000⟩]⟩,
  ⟨0x700060, 1, 8, [⟨0, 32, .rw, 0⟩, ⟨32, 16, .rw, 0⟩, ⟨48, 7, .ro, 0⟩, ⟨55, 1, .ro, 0⟩]⟩,
  ⟨0x700100, 1, 8, [⟨0, 6, .rw, 0⟩]⟩,
  ⟨0x700108, 4, 8, [⟨0, 64, .rw, 0⟩]⟩,
  ⟨0x700128, 1, 8, [⟨0, 2, .wo, 0⟩]⟩,
  ⟨0x700130, 1, 8, [⟨0, 1, .ro, 0⟩, ⟨1, 4, .ro, 0⟩, ⟨5, 2, .ro, 0⟩, ⟨7, 3, .ro, 0⟩, ⟨10, 3, .ro, 0⟩, ⟨13, 1, .ro, 0⟩, ⟨14, 15, .ro, 0⟩, ⟨29, 15, .ro, 0⟩]⟩,
  ⟨0x700138, 1, 8, [⟨0, 32, .ro, 0⟩, ⟨32, 32, .ro, 0⟩]⟩]

/-- Rows of the FPC registers. -/
def regRowsFpc : List RegRow := [
  ⟨0x800000, 1, 8, [⟨0, 16, .wo, 0⟩]⟩,
  ⟨0x800008, 1, 8, [⟨0, 8, .rw, 0⟩, ⟨8, 1, .rw, 0⟩, ⟨9, 1, .rw, 0⟩]⟩,
  ⟨0x800010, 1, 8, [⟨0, 64, .rw, 0⟩]⟩,
  ⟨0x800018, 1, 8, [⟨0, 16, .wo, 0⟩]⟩,
  ⟨0x800020, 1, 8, [⟨0, 64, .rw, 0⟩]⟩,
  ⟨0x800028, 1, 8, [⟨0, 52, .rw, 0⟩]⟩,
  ⟨0x800030, 1, 8, [⟨0, 3, .ro, 0⟩, ⟨3, 1, .ro, 0⟩, ⟨4, 1, .ro, 0⟩, ⟨16, 16, .rw, 0⟩, ⟨32, 16, .rw, 0⟩]⟩,
  ⟨0x800038, 1, 8, [⟨0, 5, .ro, 0⟩, ⟨5, 8, .ro, 0⟩, ⟨16, 8, .ro, 0⟩, ⟨24, 8, .ro, 0⟩, ⟨32, 16, .rw, 0⟩]⟩,
  ⟨0x800040, 1, 8, [⟨0, 1, .ro, 0⟩, ⟨8, 8, .ro, 0⟩, ⟨16, 8, .ro, 0⟩, ⟨24, 4, .ro, 0⟩, ⟨28, 1, .ro, 0⟩, ⟨32, 16, .ro, 0⟩, ⟨63, 1, .wo, 0⟩]⟩,
  ⟨0x800048, 1, 8, [⟨0, 1, .rw, 1⟩, ⟨4, 12, .rw, 100⟩, ⟨16, 16, .rw, 0x3e8⟩, ⟨32, 1, .rw, 0⟩, ⟨33, 11, .rw, 0⟩]⟩,
  ⟨0x800050, 1, 8, [⟨0, 8, .wo, 0⟩, ⟨8, 2, .wo, 0⟩]⟩,
  ⟨0x800058, 1, 8, [⟨0, 8, .rw, 0⟩]⟩,
  ⟨0x800060, 1, 8, [⟨0, 3, .ro, 0⟩, ⟨3, 4, .ro, 0⟩, ⟨7, 1, .ro, 0⟩, ⟨8, 1, .ro, 0⟩, ⟨16, 32, .ro, 0⟩]⟩,
  ⟨0x800068, 1, 8, [⟨11, 7, .rw, 0⟩, ⟨18, 7, .rw, 0⟩, ⟨25, 4, .rw, 0⟩]⟩,
  ⟨0x800070, 1, 8, [⟨0, 3, .ro, 0⟩, ⟨3, 1, .ro, 0⟩, ⟨4, 1, .ro, 0⟩, ⟨5, 1, .ro, 0⟩, ⟨8, 12, .ro, 0⟩, ⟨20, 12, .ro, 0⟩, ⟨32, 16, .ro, 0⟩, ⟨48, 8, .ro, 0⟩]⟩,
  ⟨0x800078, 1, 8, [⟨0, 40, .ro, 0⟩]⟩,
  ⟨0x800080, 1, 8, [⟨0, 10, .rw, 0⟩, ⟨10, 4, .rw, 0⟩]⟩,
  ⟨0x800088, 1, 8, [⟨0, 3, .ro, 0⟩, ⟨3, 7, .ro, 0⟩, ⟨10, 4, .ro, 0⟩, ⟨14, 16, .ro, 0⟩, ⟨30, 1, .ro, 0⟩]⟩,
  ⟨0x800090, 1, 8, [⟨0, 29, .ro, 0⟩, ⟨32, 13, .ro, 0⟩, ⟨45, 8, .ro, 0⟩, ⟨53, 8, .ro, 0⟩]⟩,
  ⟨0x800098, 1, 8, [⟨0, 32, .rw, 0⟩, ⟨32, 32, .rw, 0⟩]⟩,
  ⟨0x8000A0, 1, 8, [⟨0, 16, .ro, 0⟩, ⟨16, 16, .ro, 0⟩, ⟨32, 18, .ro, 0⟩]⟩,
  ⟨0x8000A8, 1, 8, [⟨0, 8, .ro, 0⟩, ⟨8, 8, .ro, 0⟩]⟩,
  ⟨0x8000B0, 1, 8, [⟨0, 5, .rw, 0⟩, ⟨5, 13, .rw, 0⟩]⟩,
  ⟨0x8000B8, 1, 8, [⟨0, 64, .ro, 0⟩]⟩,
  ⟨0x800100, 1, 8, [⟨0, 52, .rw, 0⟩]⟩,
  ⟨0x800108, 1, 8, [⟨0, 3, .wo, 0⟩, ⟨3, 6, .wo, 0⟩, ⟨9, 1, .wo, 0⟩, ⟨10, 1, .wo, 0⟩, ⟨11, 1, .wo, 0⟩, ⟨12, 1, .wo, 0⟩, ⟨13, 1, .wo, 0⟩, ⟨16, 16, .wo, 0⟩]⟩,
  ⟨0x800110, 1, 8, [⟨0, 3, .ro, 0⟩, ⟨3, 6, .ro, 0⟩, ⟨9, 1, .ro, 0⟩, ⟨10, 1, .ro, 0⟩, ⟨11, 3, .ro, 0⟩, ⟨16, 24, .ro, 0⟩, ⟨40, 16, .ro, 0⟩]⟩,
  ⟨0x800118, 1, 8, [⟨0, 1, .ro, 0⟩, ⟨8, 8, .ro, 0⟩, ⟨16, 8, .ro, 0⟩, ⟨24, 16, .ro, 0⟩, ⟨40, 24, .ro, 0⟩]⟩]

/-- Rows of the LNK registers. -/
def regRowsLnk : List RegRow := [
  ⟨0x900000, 1, 8, [⟨0, 2, .ro, 0⟩, ⟨2, 1, .ro, 0⟩, ⟨3, 1, .ro, 0⟩, ⟨8, 8, .ro, 0⟩, ⟨16, 8, .ro, 0⟩, ⟨24, 3, .ro, 0⟩, ⟨27, 1, .ro, 0⟩, ⟨28, 9, .ro, 1⟩]⟩,
  ⟨0x900008, 1, 8, [⟨0, 16, .rw, 50⟩, ⟨16, 16, .rw, 0⟩, ⟨32, 1, .rw, 0⟩, ⟨33, 11, .rw, 0⟩]⟩,
  ⟨0x900010, 1, 8, [⟨0, 8, .w1c, 0⟩, ⟨8, 1, .w1c, 0⟩, ⟨9, 1, .w1c, 0⟩, ⟨10, 1, .w1c, 0⟩, ⟨11, 1, .w1c, 0⟩, ⟨12, 1, .w1c, 0⟩, ⟨13, 1, .w1c, 0⟩]⟩,
  ⟨0x900018, 1, 8, [⟨0, 8, .rw, 0⟩]⟩,
  ⟨0x900020, 1, 8, [⟨0, 2, .ro, 0⟩, ⟨2, 8, .ro, 0⟩, ⟨10, 3, .ro, 0⟩, ⟨13, 8, .ro, 0⟩, ⟨21, 8, .ro, 0⟩, ⟨29, 8, .ro, 0⟩]⟩,
  ⟨0x900028, 1, 8, [⟨0, 9, .ro, 0⟩, ⟨9, 9, .ro, 0⟩, ⟨32, 16, .rw, 0⟩]⟩,
  ⟨0x900100, 8, 64, [⟨0, 1, .rw, 0⟩, ⟨1, 1, .wo, 0⟩, ⟨2, 1, .wo, 0⟩, ⟨3, 1, .rw, 1⟩]⟩,
  ⟨0x900108, 8, 64, [⟨0, 3, .ro, 0⟩, ⟨3, 2, .ro, 0⟩, ⟨5, 8, .ro, 0⟩, ⟨13, 3, .ro, 0⟩, ⟨16, 2, .ro, 0⟩, ⟨18, 6, .ro, 0⟩, ⟨24, 4, .ro, 0⟩]⟩,
  ⟨0x900110, 8, 64, [⟨0, 20, .ro, 0⟩, ⟨20, 20, .ro, 0⟩]⟩,
  ⟨0x900118, 8, 64, [⟨0, 16, .rw, 0⟩, ⟨16, 16, .rw, 0⟩, ⟨32, 16, .rw, 0⟩, ⟨48, 8, .rw, 0⟩, ⟨56, 8, .rw, 0⟩]⟩,
  ⟨0x900120, 8, 64, [⟨0, 32, .ro, 0⟩, ⟨32, 32, .ro, 0⟩]⟩]

/-- Rows of the SEC registers. -/
def regRowsSec : List RegRow := [
  ⟨0xA00000, 1, 8, [⟨0, 3, .ro, 0⟩, ⟨3, 1, .ro, 0⟩, ⟨4, 1, .ro, 0⟩, ⟨5, 3, .ro, 0⟩, ⟨8, 3, .ro, 0⟩, ⟨11, 20, .ro, 0⟩, ⟨31, 1, .ro, 0⟩, ⟨32, 2, .ro, 0⟩, ⟨34, 2, .ro, 0⟩]⟩,
  ⟨0xA00008, 1, 8, [⟨0, 32, .ro, 0⟩, ⟨32, 6, .ro, 0⟩, ⟨38, 2, .ro, 0⟩, ⟨40, 2, .ro, 0⟩]⟩,
  ⟨0xA00010, 1, 8, [⟨0, 6, .ro, 0⟩, ⟨8, 4, .ro, 0⟩, ⟨12, 4, .ro, 0⟩, ⟨16, 1, .ro, 0⟩]⟩,
  ⟨0xA00018, 1, 8, [⟨0, 16, .wo, 0⟩, ⟨16, 6, .wo, 0⟩]⟩,
  ⟨0xA00020, 1, 8, [⟨0, 2, .wo, 0⟩, ⟨2, 1, .rw, 0⟩, ⟨4, 2, .ro, 0⟩, ⟨32, 32, .rw, 0⟩]⟩,
  ⟨0xA00028, 1, 8, [⟨0, 16, .rw, 0x7d0⟩, ⟨16, 16, .rw, 0⟩, ⟨32, 16, .ro, 0x7d0⟩]⟩,
  ⟨0xA00040, 1, 8, [⟨0, 4, .rw, 0⟩]⟩,
  ⟨0xA00048, 6, 8, [⟨0, 64, .ro, 0⟩]⟩,
  ⟨0xA00080, 6, 8, [⟨0, 64, .rw, 0⟩]⟩,
  ⟨0xA000B0, 1, 8, [⟨0, 4, .wo, 0⟩]⟩,
  ⟨0xA000C0, 1, 8, [⟨0, 52, .rw, 0⟩]⟩,
  ⟨0xA000C8, 1, 8, [⟨0, 1, .wo, 0⟩, ⟨1, 4, .wo, 0⟩, ⟨5, 8, .wo, 0⟩]⟩,
  ⟨0xA000D0, 1, 8, [⟨0, 3, .ro, 0⟩, ⟨3, 5, .ro, 0⟩]⟩,
  ⟨0xA000E0, 4, 8, [⟨0, 64, .rw, 0⟩]⟩,
  ⟨0xA00100, 1, 8, [⟨0, 1, .rw, 0⟩, ⟨1, 12, .rw, 0⟩, ⟨16, 16, .ro, 0⟩]⟩,
  ⟨0xA00108, 1, 8, [⟨0, 64, .ro, 0⟩]⟩,
  ⟨0xA00110, 1, 8, [⟨0, 1, .wo, 0⟩, ⟨1, 3, .ro, 0⟩]⟩]

/-- Rows of the TIME registers. -/
def regRowsTime : List RegRow := [
  ⟨0xB00000, 1, 8, [⟨0, 64, .ro, 0⟩]⟩,
  ⟨0xB00008, 1, 8, [⟨0, 32, .ro, 0⟩]⟩,
  ⟨0xB00010, 1, 8, [⟨0, 64, .wo, 0⟩]⟩,
  ⟨0xB00018, 1, 8, [⟨0, 32, .wo, 0⟩]⟩,
  ⟨0xB00020, 1, 8, [⟨0, 32, .rw, 0⟩]⟩,
  ⟨0xB00028, 1, 8, [⟨0, 1, .ro, 0⟩, ⟨1, 1, .ro, 0⟩, ⟨16, 32, .ro, 0⟩, ⟨48, 16, .rw, 0⟩]⟩,
  ⟨0xB00030, 1, 8, [⟨0, 1, .rw, 0⟩, ⟨1, 1, .rw, 0⟩, ⟨2, 1, .rw, 0⟩, ⟨8, 16, .rw, 0x3e8⟩]⟩]

/-- Rows of the TEL registers. -/
def regRowsTel : List RegRow := [
  ⟨0xC00000, 1, 8, [⟨0, 1, .rw, 0⟩, ⟨1, 11, .rw, 0⟩]⟩,
  ⟨0xC00008, 1, 8, [⟨0, 32, .ro, 0⟩, ⟨32, 11, .ro, 0⟩]⟩,
  ⟨0xC00010, 1, 8, [⟨0, 32, .rw, 0⟩]⟩,
  ⟨0xC00018, 4, 8, [⟨0, 64, .ro, 0⟩]⟩,
  ⟨0xC00040, 4, 8, [⟨0, 32, .rw, 0⟩, ⟨32, 24, .rw, 0⟩]⟩,
  ⟨0xC00060, 1, 8, [⟨0, 32, .rw, 0⟩, ⟨32, 32, .rw, 0⟩]⟩,
  ⟨0xC00100, 1, 8, [⟨0, 4, .rw, 0⟩]⟩,
  ⟨0xC00108, 1, 8, [⟨0, 16, .ro, 0⟩, ⟨16, 20, .ro, 0⟩, ⟨36, 24, .ro, 0⟩, ⟨60, 1, .ro, 0⟩, ⟨61, 1, .ro, 0⟩]⟩,
  ⟨0xC00110, 1, 8, [⟨0, 24, .ro, 0⟩, ⟨24, 24, .ro, 0⟩]⟩,
  ⟨0xC00118, 1, 8, [⟨0, 6, .rw, 0⟩]⟩,
  ⟨0xC00120, 1, 8, [⟨0, 9, .ro, 0⟩, ⟨16, 9, .ro, 0⟩, ⟨25, 6, .ro, 0⟩]⟩]

/-- Rows of the CTX registers, part 1. -/
def regRowsCtxA : List RegRow := [
  ⟨0x0000, 1, 8, [⟨0, 1, .wo, 0⟩, ⟨4, 4, .rw, 0⟩]⟩,
  ⟨0x0008, 1, 8, [⟨0, 1, .ro, 0⟩, ⟨1, 1, .ro, 0⟩, ⟨2, 1, .ro, 0⟩, ⟨3, 1, .ro, 0⟩, ⟨4, 4, .ro, 0⟩, ⟨8, 11, .ro, 0⟩, ⟨19, 10, .ro, 0⟩]⟩,
  ⟨0x0010, 1, 8, [⟨0, 48, .wo, 0⟩, ⟨48, 1, .wo, 0⟩]⟩,
  ⟨0x0040, 1, 8, [⟨8, 56, .rw, 0⟩]⟩,
  ⟨0x0048, 1, 8, [⟨0, 5, .rw, 6⟩]⟩,
  ⟨0x0050, 1, 8, [⟨0, 16, .rw, 0⟩, ⟨16, 1, .rw, 0⟩]⟩,
  ⟨0x0058, 1, 8, [⟨0, 16, .ro, 0⟩, ⟨16, 1, .ro, 0⟩]⟩,
  ⟨0x0060, 1, 8, [⟨0, 11, .rw, 0⟩, ⟨16, 1, .rw, 0⟩, ⟨24, 8, .rw, 1⟩, ⟨32, 16, .rw, 0⟩]⟩,
  ⟨0x0068, 1, 8, [⟨0, 32, .rw, 0⟩, ⟨32, 16, .rw, 0⟩]⟩,
  ⟨0x0080, 1, 8, [⟨0, 8, .wo, 0⟩, ⟨32, 32, .wo, 0⟩]⟩,
  ⟨0x0400, 1, 8, [⟨0, 16, .rw, 16⟩, ⟨16, 16, .rw, 0x8000⟩, ⟨32, 1, .rw, 1⟩]⟩,
  ⟨0x0408, 1, 8, [⟨0, 32, .rw, 0⟩, ⟨32, 32, .rw, 0⟩]⟩,
  ⟨0x0410, 1, 8, [⟨0, 32, .rw, 0⟩, ⟨32, 32, .rw, 0⟩]⟩,
  ⟨0x0418, 1, 8, [⟨0, 48, .rw, 0⟩]⟩,
  ⟨0x0500, 1, 8, [⟨0, 32, .rw, 0⟩, ⟨32, 32, .rw, 0⟩]⟩,
  ⟨0x0508, 1, 8, [⟨0, 32, .rw, 0⟩, ⟨32, 32, .rw, 0⟩]⟩,
  ⟨0x0510, 1, 8, [⟨0, 48, .rw, 0⟩]⟩,
  ⟨0x0520, 1, 8, [⟨0, 8, .ro, 0⟩, ⟨8, 8, .ro, 0⟩, ⟨16, 8, .ro, 0⟩]⟩,
  ⟨0x0528, 1, 8, [⟨0, 32, .rw, 0⟩, ⟨32, 32, .rw, 0⟩]⟩,
  ⟨0x0530, 1, 8, [⟨0, 48, .rw, 0⟩]⟩,
  ⟨0x0538, 1, 8, [⟨0, 16, .rw, 0⟩, ⟨16, 16, .rw, 0⟩, ⟨32, 16, .rw, 0⟩]⟩,
  ⟨0x0540, 1, 8, [⟨0, 2, .rw, 0⟩, ⟨2, 5, .rw, 0⟩]⟩,
  ⟨0x0548, 1, 8, [⟨0, 2, .ro, 0⟩, ⟨2, 1, .ro, 0⟩, ⟨3, 1, .ro, 0⟩, ⟨4, 1, .ro, 0⟩, ⟨5, 3, .ro, 0⟩, ⟨8, 48, .ro, 0⟩]⟩,
  ⟨0x0550, 1, 8, [⟨0, 32, .rw, 0⟩, ⟨32, 12, .rw, 0⟩, ⟨44, 12, .rw, 0⟩, ⟨56, 8, .rw, 0⟩]⟩,
  ⟨0x0558, 1, 8, [⟨0, 32, .rw, 0⟩, ⟨32, 32, .rw, 0⟩]⟩,
  ⟨0x0560, 1, 8, [⟨0, 7, .ro, 0⟩, ⟨7, 6, .ro, 0⟩]⟩,
  ⟨0x0580, 1, 8, [⟨12, 40, .rw, 0⟩]⟩,
  ⟨0x0588, 1, 8, [⟨0, 2, .wo, 0⟩, ⟨2, 2, .wo, 0⟩, ⟨8, 8, .wo, 0⟩, ⟨16, 1, .wo, 0⟩, ⟨17, 8, .wo, 0⟩, ⟨25, 8, .wo, 0⟩, ⟨33, 16, .wo, 0⟩]⟩,
  ⟨0x0590, 1, 8, [⟨11, 53, .rw, 0⟩]⟩,
  ⟨0x0598, 1, 8, [⟨0, 9, .ro, 0⟩, ⟨16, 16, .rw, 0⟩, ⟨32, 16, .rw, 0⟩, ⟨48, 16, .rw, 0⟩]⟩]

/-- Rows of the CTX registers, part 2. -/
def regRowsCtxB : List RegRow := [
  ⟨0x05A0, 1, 8, [⟨0, 16, .ro, 0⟩, ⟨16, 20, .ro, 0⟩, ⟨36, 1, .ro, 0⟩, ⟨37, 1, .ro, 0⟩]⟩,
  ⟨0x0600, 1, 8, [⟨0, 64, .rw, 0⟩]⟩,
  ⟨0x0608, 1, 8, [⟨0, 64, .rw, 0⟩]⟩,
  ⟨0x0620, 1, 8, [⟨0, 1, .rw, 0⟩, ⟨1, 1, .ro, 0⟩, ⟨2, 1, .ro, 0⟩, ⟨3, 1, .ro, 0⟩]⟩,
  ⟨0x0640, 1, 8, [⟨12, 40, .rw, 0⟩]⟩,
  ⟨0x0648, 1, 8, [⟨0, 5, .rw, 6⟩, ⟨8, 1, .rw, 0⟩]⟩,
  ⟨0x0650, 1, 8, [⟨0, 20, .rw, 0⟩, ⟨20, 1, .rw, 0⟩]⟩,
  ⟨0x0658, 1, 8, [⟨0, 20, .ro, 0⟩, ⟨20, 1, .ro, 0⟩]⟩,
  ⟨0x0660, 1, 8, [⟨0, 32, .rw, 0⟩, ⟨32, 1, .w1c, 0⟩, ⟨33, 1, .w1c, 0⟩, ⟨34, 9, .ro, 0⟩]⟩,
  ⟨0x0800, 1, 8, [⟨30, 22, .rw, 0⟩]⟩,
  ⟨0x0808, 1, 8, [⟨0, 4, .rw, 0⟩]⟩,
  ⟨0x0810, 1, 8, [⟨0, 32, .rw, 0⟩]⟩,
  ⟨0x0020, 4, 8, [⟨0, 12, .ro, 0⟩, ⟨12, 1, .ro, 1⟩]⟩,
  ⟨0x0610, 2, 8, [⟨0, 64, .rw, 0⟩]⟩,
  ⟨0x0680, 8, 8, [⟨0, 64, .rw, 0⟩]⟩,
  ⟨0x0700, 4, 32, [⟨0, 1, .rw, 0⟩, ⟨1, 3, .rw, 7⟩, ⟨8, 1, .ro, 0⟩]⟩,
  ⟨0x0708, 4, 32, [⟨0, 64, .rw, 0⟩]⟩,
  ⟨0x0710, 4, 32, [⟨0, 64, .wo, 0⟩]⟩,
  ⟨0x0718, 4, 32, [⟨0, 48, .wo, 0⟩]⟩,
  ⟨0x1000, 256, 8, [⟨0, 32, .rw, 0⟩]⟩,
  ⟨0x0900, 4, 8, [⟨0, 64, .rw, 0⟩]⟩,
  ⟨0x0920, 1, 8, [⟨0, 52, .rw, 0⟩]⟩,
  ⟨0x0928, 1, 8, [⟨0, 1, .wo, 0⟩]⟩,
  ⟨0x0930, 1, 8, [⟨0, 3, .ro, 0⟩, ⟨3, 5, .ro, 0⟩]⟩,
  ⟨0x0940, 6, 8, [⟨0, 64, .ro, 0⟩]⟩,
  ⟨0x0970, 6, 8, [⟨0, 64, .rw, 0⟩]⟩,
  ⟨0x09A0, 1, 8, [⟨0, 1, .wo, 0⟩]⟩,
  ⟨0x09C0, 4, 8, [⟨0, 64, .wo, 0⟩]⟩,
  ⟨0x09E0, 1, 8, [⟨0, 1, .ro, 0⟩]⟩,
  ⟨0x09E8, 1, 8, [⟨0, 1, .rw, 0⟩, ⟨1, 12, .rw, 0⟩, ⟨16, 16, .ro, 0⟩]⟩]

/-- Rows of the CTX registers, part 3. -/
def regRowsCtxC : List RegRow := [
  ⟨0x09F0, 1, 8, [⟨0, 64, .ro, 0⟩]⟩]

/-- Rows of the CTX registers. -/
def regRowsCtx : List RegRow := regRowsCtxA ++ regRowsCtxB ++ regRowsCtxC

/-- The rows of a device block, by its 1 MiB place in BAR0 (R430). The VEC block has none. -/
def blockRows : Nat → List RegRow
  | 0x0 => regRowsDev | 0x1 => regRowsPwr | 0x2 => regRowsClk | 0x3 => regRowsMxe | 0x4 => regRowsCaf
  | 0x6 => regRowsTmv | 0x7 => regRowsMem | 0x8 => regRowsFpc | 0x9 => regRowsLnk | 0xA => regRowsSec
  | 0xB => regRowsTime | 0xC => regRowsTel | _ => []

/-- Whether a row holds the register at an offset. -/
def RegRow.covers (r : RegRow) (off : Nat) : Bool :=
  decide (r.base ≤ off) && decide ((off - r.base) % r.stride = 0) && decide ((off - r.base) / r.stride < r.count)

/-- The base of context page c in the physical function's BAR0 (R434). -/
def ctxBase (c : CtxId) : Nat := 0x1000000 + 0x10000 * c.val

/-- The row of a device-block register. -/
def blockRow? (off : Nat) : Option RegRow := (blockRows (off / 0x100000)).find? (·.covers off)

/-- The row of a context register, by its offset in the page. -/
def pageRow? (off : Nat) : Option RegRow := regRowsCtx.find? (·.covers off)

/-- The row of the register at an offset of the physical function's BAR0; none: a reserved offset. -/
def regRow? (off : Nat) : Option RegRow :=
  if off < 0x1000000 then blockRow? off
  else if off < 0x1100000 then pageRow? (off % 0x10000) else none

/-- The reset value of a row's registers. -/
def RegRow.resetW (r : RegRow) : W64 := BitVec.ofNat 64 ((r.fields.map (fun f => f.reset * 2 ^ f.lo)).sum)

/-- The reset value of the register at an offset (R440, R442 and the register tables). (DESIGN CHOICE, assumption 11) -/
def regReset (off : Nat) : W64 := ((regRow? off).map RegRow.resetW).getD 0

/-- The bits of a row whose fields have one of two access types, as a mask. -/
def RegRow.mask (r : RegRow) (a : Acc) : W64 :=
  BitVec.ofNat 64 (((r.fields.filter (·.acc = a)).map (fun f => (2 ^ f.width - 1) * 2 ^ f.lo)).sum)

/-- Whether a row has a field of an access type. -/
def RegRow.has (r : RegRow) (a : Acc) : Bool := r.fields.any (·.acc = a)

/-- R9: the word a write of `v` leaves in a register that holds `old`: RW fields take the value, W1C fields clear where it has
a 1, and RO, WO and reserved bits keep theirs. -/
def RegRow.merge (r : RegRow) (old v : W64) : W64 :=
  ((old &&& ~~~ (r.mask .rw)) ||| (v &&& r.mask .rw)) &&& ~~~ (v &&& r.mask .w1c)

end Sys2Proof.Machine
end

