-- ==== Sys2Proof/Machine/State.lean ====
section
/-! DEFINITION. The state of the BX920 (every piece the spec names), its faults and refusals, and its reset value. -/

namespace Sys2Proof.Machine

/-! ### Command path (chapter 7) -/

/-- The completion statuses of R13. -/
inductive Status where
  | ok | okRerunWide | okTolerant | duplicate | illegalCommand | cafGroupLimit | armBusy
  | poisoned | decodeCheck | pairingMismatch | tierFault | tierLate | quota | linkLost
  | weightsUnavailable | aborted
  deriving DecidableEq, Repr

/-- The code of R13. -/
def Status.code : Status → Nat
  | .ok => 0x00 | .okRerunWide => 0x01 | .okTolerant => 0x02 | .duplicate => 0x10
  | .illegalCommand => 0x20 | .cafGroupLimit => 0x21 | .armBusy => 0x22
  | .poisoned => 0x30 | .decodeCheck => 0x31 | .pairingMismatch => 0x32
  | .tierFault => 0x40 | .tierLate => 0x41 | .quota => 0x42
  | .linkLost => 0x50 | .weightsUnavailable => 0x51 | .aborted => 0x60

/-- R14: the numerically higher status code applies. -/
def Status.worse (a b : Status) : Status := if a.code < b.code then b else a

/-- What an engine reports of a command: the fields of R195 that it chooses. -/
structure Report where
  status : Status := .ok
  detail : Nat := 0
  tolerant : Bool := false
  rerunWide : Bool := false
  deriving DecidableEq, Repr

/-- How the head entry of a queue will complete if it is not handed over (R189, R190, R202, R205, R389). -/
inductive Fate where
  /-- legal: handed to its engine -/
  | run
  /-- rejected at decode, or poisoned beyond word 0: completes in its queue's order with this report -/
  | reject (r : Report)
  /-- word 1 read poisoned: rejected POISONED in its queue's order, a command of no known request (R389) -/
  | poisonTag
  /-- aborted by the host before it started (R205) -/
  | abort
  /-- its tag is in the duplicate window: completes at once (R202) -/
  | dup (first : Status) (tolerant rerun : Bool)
  /-- its tag belongs to an admitted command that has not completed (R202) -/
  | dupWait
  /-- word 0 reads poisoned: completes at once, unsignalled (R389) -/
  | poisonHead (tag : W64)
  deriving DecidableEq, Repr

/-- The eight words of a queue entry. -/
abbrev Entry := List W64

/-- What the CFE holds for the head of a queue. -/
inductive Head where
  /-- the head slot is not decoded -/
  | idle
  /-- decoded and held: its words, whether its wait is released, and its fate (R189, R190) -/
  | held (words : Entry) (released : Bool) (fate : Fate)
  /-- a TABLE_LOAD that the TMV has started while it keeps the head (R172, R176): whether it waits on a pinned slot, its report -/
  | loading (words : Entry) (waiting : Bool) (report : Option Report)
  deriving DecidableEq, Repr

/-- One queue: its head slot, expected phase (R183) and decoded head; `step` is the CTX_STEP that a TABLE_LOAD at its head sampled at its
start (R332), `aside` the tag of an admitted head that was set aside (R184). -/
structure Queue where
  head : Nat := 0
  phase : Bool := true
  dec : Head := .idle
  step : W64 := 0
  aside : Option W64 := none
  deriving DecidableEq, Repr

/-- One open request (R192): its number, the batch slot bound for each model that had one ACTIVE (0 A, 1 B),
its admitted commands that have not completed, whether its req_end command has completed, and whether a host
abort is in force for it (R205). -/
structure Request where
  num : Nat
  bind : List (Nat × Nat) := []
  live : Nat := 0
  ended : Bool := false
  aborting : Bool := false
  deriving DecidableEq, Repr

/-- One entry of the duplicate window (R202). -/
structure DupEntry where
  tag : W64
  status : Status
  tolerant : Bool
  rerun : Bool
  deriving DecidableEq, Repr

/-- A completion record of R195 but for its phase bit, which its ring place gives. -/
structure CplRec where
  tag : W64
  status : Status
  tolerant : Bool
  rerun : Bool
  engine : Engine
  slot : Nat
  layerId : Nat
  detail : Nat
  time : W64
  firstStatus : Status
  irq : Bool
  deriving DecidableEq, Repr

/-- A command in execution (handed over and not completed). `result` is what its engine has reported so far, `early` the conditions met
before that by a peer access of it, with their details; step, seed, elBase, quantCfg and skipEn are sampled at command start (R70); a
CTX_SAVE samples its target's `keySeed` there (R468); `cafSlot` is the execution slot of the CAF that its tile set takes (R91). `dupOf` is
the first execution of a fill entry found in the duplicate window (R143). -/
structure Exec where
  ctx : CtxId
  eng : Engine
  slot : Nat
  words : Entry
  bind : List (Nat × Nat) := []
  step : W64 := 0
  seed : List (BitVec 128) := []
  elBase : Nat := 0
  quantCfg : W64 := 0
  skipEn : Bool := true
  cafSlot : Nat := 0
  fillOf : Option Nat := none
  keySeed : List W64 := []
  dupOf : Option DupEntry := none
  started : Bool := false
  early : List (Status × Nat) := []
  result : Option Report := none
  digest : W64 := 0
  digLen : Nat := 0
  digFmt : Nat := 0
  digE : Nat := 0
  digPoison : Bool := false
  hostLost : Bool := false
  deriving DecidableEq, Repr

/-! ### Objects, migration, models (chapters 9 and 11) -/

/-- A memory tier, 0 to 3 (R249). -/
abbrev Tier := Fin 4

/-- An object-table entry (R253). `cp0` and `cp1` say that T0 and T1 hold a valid copy above the home; holders are
listed oldest reference first (R264). `nextPage` is the next unprogrammed flash page (R281). -/
structure Obj where
  valid : Bool := false
  base : Nat := 0
  owner : CtxId := 0
  home : Tier := 0
  ro : Bool := false
  inst : Bool := false
  size : Nat := 0
  share : BitVec 16 := 0
  cp0 : Bool := false
  cp1 : Bool := false
  dirty : Bool := false
  busy : Bool := false
  hold0 : List CtxId := []
  hold1 : List CtxId := []
  chg0 : CtxId := 0
  chg1 : CtxId := 0
  peerDev : Nat := 0
  peerCtx : CtxId := 0
  t3Peer : Bool := false
  loc : W64 := 0
  nextPage : Nat := 0
  deriving DecidableEq, Repr

/-- A migration request (R260, R262): `obj` is the object of a started one, `charged` says that a PROMOTE has taken its charge and
reference, `writeBack` that the operation writes a dirty copy back, `sent` that its writes to a peer are on their way. -/
structure MigReq where
  ctx : CtxId
  op : Nat
  tier : Nat
  id : Nat
  addr : Nat
  sigEn : Bool
  sigIdx : Nat
  sigInc : Nat
  dl : Nat
  started : Bool := false
  obj : Option Nat := none
  charged : Bool := false
  writeBack : Bool := false
  sent : Bool := false
  report : Option Status := none
  moved : Bool := false
  deriving DecidableEq, Repr

/-- The states of a batch slot (R307), in the code of MEM_MDL_STATE. -/
inductive SlotState where
  | empty | building | standby | active | retiring | stale
  deriving DecidableEq, Repr

/-- The code of MEM_MDL_STATE.state_a. -/
def SlotState.code : SlotState → Nat
  | .empty => 0 | .building => 1 | .standby => 2 | .active => 3 | .retiring => 4 | .stale => 5

/-- A NUMBERED boundary (R309): the contexts named and the first request number bound to the new slot. -/
structure Boundary where
  mask : BitVec 16
  firstNew : List Nat
  new : Nat
  deriving DecidableEq, Repr

/-- A switch whose pointer is not yet in the metadata journal (R318): the new slot, whether the other was ACTIVE, the logical tile
sets whose slots it held, and the installation that can repeat it (R328). -/
structure Unrecorded where
  slot : Nat
  wasActive : Bool
  tsets : List Nat
  leader : Bool := false
  hdr : List Byte := []
  devices : List Nat := []
  deriving DecidableEq, Repr

/-- A model-table entry (R305); slot A is index 0 of `st` and `ver`. -/
structure Model where
  valid : Bool := false
  wbase : Nat := 0
  owner : CtxId := 0
  wsize : Nat := 0
  share : BitVec 16 := 0
  baseA : Nat := 0
  baseB : Nat := 0
  tsetFirst : Nat := 0
  tsetN : Nat := 0
  stA : SlotState := .empty
  stB : SlotState := .empty
  verA : Nat := 0
  verB : Nat := 0
  boundary : Option Boundary := none
  unrec : Option Unrecorded := none
  deriving DecidableEq, Repr

/-- The live flash pages of an object that was deleted before its batch slot became STALE (R310). -/
structure Orphan where
  model : Nat
  slot : Nat
  pages : List Nat
  deriving DecidableEq, Repr

/-- One bank of MEM_ edit registers (R256): quiesce request, index, words, and the two outcome codes. -/
structure EditBank where
  req : Bool := false
  done : Bool := false
  idx : Nat := 0
  w : List W64 := [0, 0, 0, 0]
  code : Nat := 0
  mdlSel : Nat := 0
  mdlW : List W64 := [0, 0, 0, 0]
  mdlCode : Nat := 0
  deriving DecidableEq, Repr

/-! ### Weight store and flash program controller (chapter 10) -/

/-- The block states of R284, in the code of FPC_BLK_INFO0. -/
inductive BlkState where
  | erased | opened | full | erasing | undefined | eraseIncomplete | bad | reserved
  deriving DecidableEq, Repr

/-- The code of FPC_BLK_INFO0.state. -/
def BlkState.code : BlkState → Nat
  | .erased => 0 | .opened => 1 | .full => 2 | .erasing => 3 | .undefined => 4
  | .eraseIncomplete => 5 | .bad => 6 | .reserved => 7

/-- What the journal says of a block or sector (R289): the state of a block or of a sector, the pages or rows programmed, its cycles, and
which records are open. -/
structure Jrn (α : Type) where
  state : α
  n : Nat := 0
  pe : Nat := 0
  inFlight : Bool := false
  eraseIntent : Bool := false
  deriving DecidableEq, Repr

/-- A block-table entry (R284) with the journal's open records for it (R289); `liveEnd` says that its last page was moved there by a
RELOCATE and counts as a page of a LIVE object (R299). `was` is what the records before the last one say, and `cut` says that the last one
fails its check, cut short by a loss of power (R288). (DESIGN CHOICE, assumption 84) -/
structure Blk where
  state : BlkState := .erased
  retire : Bool := false
  warn : Bool := false
  isOver : Bool := false
  peOver : Bool := false
  ptr : Nat := 0
  live : Nat := 0
  pe : Nat := 0
  fails : Nat := 0
  reads : Nat := 0
  inFlight : Bool := false
  eraseIntent : Bool := false
  liveEnd : Bool := false
  was : Jrn BlkState := { state := .erased }
  cut : Bool := false
  deriving DecidableEq, Repr

/-- The CAF sector states, in the code of FPC_SEC_INFO. -/
inductive SecState where
  | erased | programmed | undefined | eraseIncomplete | erasing | bad
  deriving DecidableEq, Repr

/-- The code of FPC_SEC_INFO.state. -/
def SecState.code : SecState → Nat
  | .erased => 0 | .programmed => 1 | .undefined => 2 | .eraseIncomplete => 3 | .erasing => 4 | .bad => 6

/-- A CAF sector (R98, R289); `was` and `cut` as for a block. (DESIGN CHOICE, assumption 84) -/
structure Sector where
  state : SecState := .erased
  rows : Nat := 0
  shift : Nat := 0
  pe : Nat := 0
  inFlight : Bool := false
  eraseIntent : Bool := false
  was : Jrn SecState := { state := .erased }
  cut : Bool := false
  deriving DecidableEq, Repr

/-- Where a launched FPC operation stands (FPC_OP_INFO.state); an erase is suspended by a read or program of its plane, by the host, or by
an entry below IDLE; `reporting` is a CAF_TILE whose repair report waits for a memory; `resuming` is an erase resumed while a program of its
plane runs, which
it waits for (R304). -/
inductive OpPhase where
  | queued | running | suspendedRead | suspendedHost | suspendedEntry | resuming | reporting
  deriving DecidableEq, Repr

/-- A launched FPC operation whose result has not been posted (R294): its id and its number in launch order (ids recur after 256
launches), who launched it, its encoding, how far it has come. `unit` is the page, row or sector step in progress at `target`; `todo` are its
remaining physical targets; a PROG_PAGES has its further pages in progress in `rest` (page, target, pulses) and its first page without room in
`stuck`. -/
structure FpcOp where
  id : Nat
  seq : Nat := 0
  op : Nat
  mgc : Bool
  addr : W64
  data : W64
  permit : Bool := false
  param0 : W64 := 0
  param1 : W64 := 0
  phase : OpPhase := .queued
  pulses : Nat := 0
  starved : Bool := false
  hold : Bool := false
  suspends : Nat := 0
  unit : Nat := 0
  target : Nat := 0
  todo : List Nat := []
  rest : List (Nat × Nat × Nat) := []
  stuck : Option Nat := none
  attempt : Nat := 0
  fails : Nat := 0
  fail : Bool := false
  deriving DecidableEq, Repr

/-- A posted FPC result (FPC_RESULT). -/
structure FpcResult where
  id : Nat
  op : Nat
  code : Nat
  fail : Bool := false
  fails : Nat := 0
  deriving DecidableEq, Repr

/-- The FPC (R291 to R297): the unlock sequencer with its latched command and address, the launches so far, operations, results,
staging. -/
structure Fpc where
  lock : Nat := 0
  owner : Bool := false
  lockout : Bool := false
  relocks : Nat := 0
  cmd : W64 := 0
  addr : W64 := 0
  nextId : Nat := 0
  launches : Nat := 0
  ops : List FpcOp := []
  resHost : List FpcResult := []
  resMgc : List FpcResult := []
  held : BitVec 8 := 0
  verified : BitVec 8 := 0
  deriving DecidableEq, Repr

/-! ### Installation (chapter 11) -/

/-- A shard descriptor (R312). -/
structure ShardDesc where
  index : Nat
  kind : Nat
  bytes : Nat
  crc : Nat
  src : Nat
  target : Nat
  dest : BitVec 256
  deriving DecidableEq, Repr

/-- A plan record that applies to this device (R313). -/
inductive PlanRec where
  | device (shards : Nat)
  | object (off size : Nat)
  | tset (id firstTile nRb nCb rowsLast wfmt : Nat) (eW : Int)
  | shifts (tile : Nat) (s : W64)
  deriving DecidableEq, Repr

/-- A shard held in a staging buffer for the installer: how many of its operations are launched, and those not done. -/
structure HeldShard where
  buf : Nat
  desc : ShardDesc
  launched : Nat := 0
  ids : List Nat := []
  deriving DecidableEq, Repr

/-- The installation in progress or last ended (R326), with what the installer firmware keeps: the manifest header and, on the
leader, its descriptors and the next to fetch; the devices of the installation, those that reported completion and those that
acknowledged the switch; the plan records of this device, applied or not; the data shards its type 1 record counts and those that
passed; the shards held; the tiles to erase first; the operations launched and not done, and those an ended installation left;
the failed checks of the shard awaited; the SWITCH_REC messages held (R355), and whether the switch was NUMBERED; how many of the plan's
records are applied; the orders of FPC_INST_CMD that stall (operation and value), and whether the installer has asked for quiesce. -/
structure Inst where
  state : Nat := 0
  model : Nat := 0
  slot : Nat := 0
  leader : Bool := false
  refused : Nat := 0
  shardsOk : Nat := 0
  rereq : Nat := 0
  resValid : Bool := false
  resStatus : Status := .ok
  resDev : Nat := 0
  resDetail : Nat := 0
  resShard : Nat := 0
  permit : Bool := false
  cut : Bool := false
  auto : Bool := false
  timeout : Nat := 0
  hdr : List Byte := []
  descs : List ShardDesc := []
  next : Nat := 0
  devices : List Nat := []
  reported : List Nat := []
  acked : List Nat := []
  plan : List PlanRec := []
  planned : Bool := false
  expected : Nat := 0
  dataOk : Nat := 0
  held : List HeldShard := []
  erase : List Nat := []
  opIds : List Nat := []
  oldIds : List Nat := []
  tries : Nat := 0
  recs : List (Nat × Nat) := []
  numbered : Bool := false
  applied : Nat := 0
  orders : List (Nat × W64) := []
  quiet : Bool := false
  deriving DecidableEq, Repr

/-! ### Streams, code tables, determinism, check values (chapters 6, 8, 12, 14) -/

/-- A byte with its poison mark (R387); in transit it has no bit errors of its own. (DESIGN CHOICE, assumption 83) -/
abbrev SB := Byte × Bool

/-- A stream descriptor (R213). -/
structure Desc where
  base : Nat := 0
  esize : Nat := 0
  ndim : Nat := 1
  tier : Nat := 0
  cmp : Bool := false
  chk : Bool := false
  cnt : List Nat := []
  stride : List Int := []
  rate : Nat := 1
  tileDl : Nat := 0
  tmask : Nat := 0
  aux : Nat := 0
  deriving DecidableEq, Repr

/-- A transfer in flight (R223): its stream tile, the bytes captured from the copy it was issued against, the check value fetched with
it (R233), and the fault it met, from the byte `faultAt` on, after which every byte is poisoned (R231); `first` is its first tensor
address, `host` and `dst` say that it reads host memory or DST; `doms` are the clock domains of the memories it reads; `errs` are the bit
errors of its words on their way, in transit and lookahead buffers and on the fabric (R384). (DESIGN CHOICE, assumption 83) -/
structure Flight where
  tile : Nat
  data : List SB
  chk : List SB := []
  fault : Option Status := none
  faultAt : Nat := 0
  first : Nat := 0
  host : Bool := false
  dst : Bool := false
  doms : List Nat := []
  errs : SMap Nat := []
  deriving DecidableEq, Repr

/-- An arming in a stream slot (R217), the walk of a COPY's source (`dst` is its destination walk), or a direct operand read (`direct`,
R223), which has a slot number above 31 of its own. `issued` counts granted tiles, `data` the bytes that have arrived, which stay here
until the consumer's work is done, `pos` the bytes that work has used; a compressed walk has n_blk `nBlk` (R216) and has moved `mvOff`
bytes of its block `mvNext`; `draining` marks an arming restored as a draining one (R241); `dec` holds the decoded bytes of a compressed
stream and `decBlk` its next block; `side` marks the operand of an outlier stage (R132);
`tilesHit` are the tiles whose transfers a refresh has delayed (R335). -/
structure Arming where
  ctx : CtxId
  eng : Engine
  slot : Nat
  desc : Desc
  nBlk : Nat := 0
  direct : Bool := false
  dst : Option Desc := none
  bind : List (Nat × Nat) := []
  buffered : Bool := false
  unbuffered : Bool := false
  issued : Nat := 0
  mvNext : Nat := 0
  mvOff : Nat := 0
  flight : List Flight := []
  data : List SB := []
  pos : Nat := 0
  dead : Option Status := none
  deadPort : Nat := 0
  consumer : Option (Engine × Nat) := none
  demand : Bool := false
  waited : Nat := 0
  dec : List SB := []
  decBlk : Nat := 0
  decStat : Option Status := none
  draining : Bool := false
  side : Bool := false
  tilesHit : List Nat := []
  deriving DecidableEq, Repr

/-- A static slot table (R228) and its pointer. -/
structure SlotTab where
  ents : List Nat := []
  ptr : Nat := 0
  deriving DecidableEq, Repr

/-- A context check-value unit (R383): width, feed length, running value, and while an advance is in progress
its length and the accesses that wait. -/
structure CrcUnit where
  w64 : Bool := false
  lenM1 : Nat := 7
  run : W64 := 0
  adv : Option Nat := none
  waiting : List (Nat × W64) := []
  deriving DecidableEq, Repr

/-- A context: what it owns (R180) beside the registers of its page; `tailSent` says that the first entry of the Tail buffer is on its way
to a peer's memory. -/
structure Ctx where
  queues : Vector Queue 4 := Vector.replicate 4 {}
  sync : SMap (BitVec 32) := []
  reqs : List Request := []
  dup : List DupEntry := []
  cbuf : List CplRec := []
  cqTail : Nat := 0
  cqLap : Bool := false
  irqPending : Nat := 0
  resetBusy : Bool := false
  tailBuf : List Entry := []
  tailSent : Bool := false
  tailTail : Nat := 0
  tailLap : Bool := false
  tables : List (Option (List Nat)) := List.replicate 8 none
  slotTabs : Vector SlotTab 4 := Vector.replicate 4 {}
  crc : List CrcUnit := List.replicate 4 {}
  exactReq : Bool := false
  exactActive : Bool := false
  exactRefused : Bool := false
  deriving DecidableEq, Repr

/-! ### Charge-array fabric (chapters 3 and 4) -/

/-- The states of a tile-set slot (CAF_TSET_DESC0.state). -/
inductive TsetState where
  | free | installing | ready | retiring
  deriving DecidableEq, Repr

/-- The code of CAF_TSET_DESC0.state. -/
def TsetState.code : TsetState → Nat
  | .free => 0 | .installing => 1 | .ready => 2 | .retiring => 3

/-- One slot of a logical tile set (R81, R99). -/
structure TsetSlot where
  state : TsetState := .free
  owner : CtxId := 0
  int4 : Bool := false
  tolerant : Bool := false
  firstTile : Nat := 0
  nRb : Nat := 1
  nCb : Nat := 1
  rowsLast : Nat := 1
  eW : Int := 0
  hs : Nat := 0
  deriving DecidableEq, Repr

/-- A stuck cell: row, physical column (0 to 2,111) and the value it reads (R101). -/
structure StuckCell where
  row : Nat
  col : Nat
  one : Bool
  deriving DecidableEq, Repr

/-- A valid remap entry: spare pair, origin (factory or field) and the data pair it replaces (R107, R108). -/
structure RemapEnt where
  spare : Nat
  field : Bool
  pair : Nat
  deriving DecidableEq, Repr

/-- The tile state that the health registers show while the tile is being programmed: that of the last completed update (R116, R118). -/
structure TileView where
  fieldStuck : List StuckCell
  remap : List RemapEnt
  marks : List Nat
  deriving DecidableEq, Repr

/-- What a tile keeps beside its cells: stuck lists, remap table, retirement marks (R115), counts of its last program (R116), and
while it is being programmed what the health registers show. -/
structure Tile where
  factoryStuck : List StuckCell := []
  fieldStuck : List StuckCell := []
  remap : List RemapEnt := []
  marks : List Nat := []
  reencoded : Nat := 0
  deviated : Nat := 0
  shown : Option TileView := none
  deriving DecidableEq, Repr

/-! ### Trelbo links, system and time (chapter 13) -/

/-- The port states of R363, in the code of LNK_PORTp_STATUS.state. -/
inductive PortState where
  | off | detect | eq | align | measure | active | down
  deriving DecidableEq, Repr

/-- The code of LNK_PORTp_STATUS.state. -/
def PortState.code : PortState → Nat
  | .off => 0 | .detect => 1 | .eq => 2 | .align => 3 | .measure => 4 | .active => 5 | .down => 6

/-- What a port's link is used for, in the code of LNK_PORTp_STATUS.use. -/
inductive PortUse where
  | none | upstream | downstream | standby
  deriving DecidableEq, Repr

/-- The code of LNK_PORTp_STATUS.use. -/
def PortUse.code : PortUse → Nat
  | .none => 0 | .upstream => 1 | .downstream => 2 | .standby => 3

/-- A data flit's contents beside its sequence number (R353); `own` is the context whose traffic a sent one carries (R335). -/
structure DataFlit where
  ch : Nat
  first : Bool
  last : Bool
  payload : List SB
  own : Option CtxId := none
  deriving DecidableEq, Repr

/-- A message received on the data lanes (R361): kind, contexts, status, tag, address and data bytes. `errs` are the bit errors of its
words in the transit buffer (R384). (DESIGN CHOICE, assumption 83) -/
structure DataMsg where
  kind : Nat
  srcCtx : CtxId
  dstCtx : CtxId
  status : Nat
  tag : Nat
  len : Nat
  addr : Nat
  data : List SB
  errs : SMap Nat := []
  deriving DecidableEq, Repr

/-- A Trelbo port: training state, partner, sequence numbers and replay buffers (R356), credits held (`cred…`), receive space in use
(`rxReq`, `rxCtl`) and installation credits granted (`rxInst`) (R359), receive queues, response space reserved (`respRes`), a partner of
another system (`foreign`, R357), and the contexts whose increments a queued SYNC_INC of a counter (`qown`) or a control flit in replay
(`cown`) carries (R335). -/
structure Port where
  state : PortState := .off
  use : PortUse := .none
  partner : Nat := 0
  partnerPort : Nat := 0
  partnerRole : Nat := 0
  lanesOk : Nat := 0
  downCause : Nat := 0
  wait1ms : Bool := false
  txSeq : Nat := 0
  rxSeq : Nat := 0
  txCseq : Nat := 0
  rxCseq : Nat := 0
  replay : List (Nat × DataFlit) := []
  creplay : List (Nat × List W64) := []
  nakSeq : Nat := 0
  nakRun : Nat := 0
  cnakSeq : Nat := 0
  cnakRun : Nat := 0
  credReq : Nat := 64
  credInst : Nat := 0
  credCtl : Nat := 64
  rxReq : Nat := 0
  rxCtl : Nat := 0
  rxInst : Nat := 0
  txData : List DataFlit := []
  txCtl : List W64 := []
  sinceInst : Nat := 0
  part : List (List SB) := [[], [], []]
  inMsgs : List DataMsg := []
  inCtl : List W64 := []
  measSent : Nat := 0
  measSum : Nat := 0
  measTurn : Nat := 0
  measRtt : Nat := 0
  measDone : Nat := 0
  latPs : Nat := 0
  rttPs : Nat := 0
  txFlits : BitVec 32 := 0
  rxFlits : BitVec 32 := 0
  rereqs : Nat := 0
  expectShard : Nat := 0
  discard : Bool := false
  shardStore : List (Nat × List SB) := []
  shardWant : Option Nat := none
  nextTag : Nat := 0
  respRes : Nat := 0
  foreign : Bool := false
  qown : List (Nat × CtxId) := []
  cown : List (Nat × CtxId) := []
  deriving DecidableEq, Repr

/-- A device of the Planet's topology map (LNK_TOPO); state 0 free, 1 active, 2 reattaching. `nbrs` are its links as last reported:
own port, neighbour's number (256 for one without a number), neighbour's port. `reported` says that its report has arrived
(R371); `added` that it joined after formation (R372); `cand` and `ask` serve
R373: still a candidate, and the link (neighbour, neighbour's port) that a REATTACH has named. On a Moon an entry only names, in
`parentPort`, the port that leads toward the device. -/
structure TopoEnt where
  state : Nat := 0
  parent : Nat := 0
  parentPort : Nat := 0
  hops : Nat := 0
  active : Nat := 0
  nbrs : List (Nat × Nat × Nat) := []
  reported : Bool := false
  added : Bool := false
  cand : Bool := true
  ask : Option (Nat × Nat) := none
  deriving DecidableEq, Repr

/-- A peer read or write of this device that has not been answered: port, tag, the context, engine and slot of the stream or
command it serves, and the peer address; `newer` are bytes of the range written since it was asked for, which a migration takes (R265). -/
structure PeerReq where
  port : PortId
  tag : Nat
  ctx : CtxId
  eng : Engine
  slot : Nat
  stream : Bool
  dev : Nat
  peerCtx : CtxId
  addr : Nat
  len : Nat
  write : Bool
  tile : Nat := 0
  off : Nat := 0
  newer : List (Nat × SB) := []
  deriving DecidableEq, Repr

/-- System and link state (R349 to R373). `topo` is keyed by device; `joinWait` are the links (device, port) whose neighbours wait for a
number (R371, R372, R377), `sysDevs` is the number of devices as the Planet last told a Moon; `syncGot` has a bit for each system counter
received; `heldSig` are the completions held by R366; `relays` are (port, tag) a management request came by and (port, tag) it was passed on
by (R462). `lostWait` are the ports whose tree links a Moon without a path has lost, and `portsWait` says that its other links have changed:
the Planet is told once there is a path (R373). -/
structure Link where
  role : Nat := 0
  roleFault : Bool := false
  formed : Bool := false
  dev : Nat := 0
  hops : Nat := 0
  upPort : Nat := 0
  upValid : Bool := false
  refused : Bool := false
  ports : Vector Port 8 := Vector.replicate 8 {}
  topo : SMap TopoEnt := []
  joinWait : List (Nat × Nat) := []
  sysDevs : Nat := 1
  syncGot : BitVec 256 := 0
  heldSig : List (CtxId × Engine) := []
  peerReqs : List PeerReq := []
  missing : List (Nat × CtxId × Nat × Nat) := []
  relays : List (PortId × Nat × PortId × Nat) := []
  lostWait : List PortId := []
  portsWait : Bool := false
  deriving DecidableEq, Repr

/-- Device time (R367 to R370): integer nanoseconds, fraction in 2^−32 ns, slew left in 2^−32 ns, the lock state of a Moon, and the rate,
in 2^−32 ns a cycle, that its last TIME message showed its clock to lack (R369). -/
structure TimeSt where
  ns : W64 := 0
  frac : Nat := 0
  latched : Nat := 0
  slew : Int := 0
  pendingSet : Option W64 := none
  locked : Bool := true
  holdover : Bool := false
  good : Nat := 0
  offsetPs : Int := 0
  rate : Int := 0
  firstTime : Bool := true
  ppsHigh : Bool := false
  deriving DecidableEq, Repr

/-! ### Power, clocks, waking, pins (chapters 15, 16, 18) -/

/-- A clock domain's condition (R398, R400): `shutting k` is in shut-down step k. -/
inductive DomState where
  | on | clockGated | shutting (step : Nat) | powerGated | waking (clean : Bool)
  deriving DecidableEq, Repr

/-- The overall power condition (R402): a P-state runs in `run`; `unpowered` is VDD_AON absent; `rising` waits for the rails. -/
inductive PwrMode where
  | run | idle | doze | park | off | rising | unpowered
  deriving DecidableEq, Repr

/-- An entry sequence in progress (R405): target, step, the state left, the wake state, and the event that abandons it (R406):
its wake source code and a P-state a host command named; `written` says that step 4 has sent its writes. -/
structure EntrySeq where
  target : PwrMode
  step : Nat
  fromMode : PwrMode
  wake : Nat
  abandon : Option (Nat × Option Nat) := none
  lateWake : Option Nat := none
  written : Bool := false
  deriving DecidableEq, Repr

/-- A P-state change in progress (R396): its target, and whether it waits for the regulator. -/
structure Ramp where
  target : Nat
  raising : Bool
  waitVolt : Bool
  deriving DecidableEq, Repr

/-- A command recorded at a trip or device reset (R417, R441). -/
structure TripRec where
  ctx : CtxId
  tag : W64
  eng : Engine
  slot : Nat
  layerId : Nat
  irq : Bool
  detail : Nat
  deriving DecidableEq, Repr

/-- A polled regulator (TEL_RAIL). -/
structure Rail where
  mv : Nat := 0
  ma : Nat := 0
  mw : Nat := 0
  fault : Bool := false
  stale : Bool := false
  deriving DecidableEq, Repr

/-- The main rails (R472): those that the device or the board removes. -/
inductive MainRail where
  | core | sram | caf | dram | wst | vpp | serdes09 | serdes12
  deriving DecidableEq, Repr

/-- Power state and the pins it drives. ACLK is held in steps of 0.3 GHz. `stall` lists the gated domains that the access in
progress has met (R401); it is empty between steps. `padPending` are register writes that take effect at the pads' release, `hot` the
sensors that read 115 °C or more in the last sample, `mwHist` the power sums of the last ten polls. `rtcAcc` is the part of a
real-time clock unit that has passed, in 1/375,000,000; `lostBanks` are the NST banks whose free pages a loss of power has left poisoned
(R251), and `cleanFree` those of which pages have been freed, and so zeroed, since. `railsOff` are the main rails turned off over PMBus
(R475), `wakeSeen` the source of a wake event of this cycle (R409), `sysCfg` the level of SYSCFG[1:0] (R480), `gpio` what drives GPIO[15:0]
and `gpioHeld` its latched level (R412). (DESIGN CHOICE, assumption 88) -/
structure Pwr where
  mode : PwrMode := .run
  pstate : Nat := 3
  aclk : Nat := 2
  wakeState : Nat := 3
  entry : Option EntrySeq := none
  exiting : Bool := false
  ramp : Option Ramp := none
  vddOk : Bool := true
  fail : Nat := 0
  refused : Nat := 0
  doms : SMap DomState := []
  stall : List Nat := []
  padHold : Bool := false
  padPending : List (Nat × W64) := []
  sensors : SMap Nat := []
  hot : SMap Bool := []
  trips : List TripRec := []
  tripActive : Bool := false
  heldWake : Bool := false
  thermTripN : Bool := true
  pwrEnMain : Bool := true
  pcieWakeN : Bool := true
  perst : Bool := false
  rtcAcc : Nat := 0
  lostBanks : List Nat := []
  cleanFree : List Nat := []
  rails : SMap Rail := []
  mwHist : List Nat := []
  railsOff : List MainRail := []
  wakeSeen : Option Nat := none
  sysCfg : BitVec 2 := 0
  gpio : BitVec 16 := 0
  gpioHeld : BitVec 16 := 0
  deriving DecidableEq, Repr

/-- The PCI Express side: VF enable, link, presence of the reference clock (R483), MSI-X tables (entry words by function and vector), pending bits,
held functions, function-level resets that wait for a CTX_SAVE or CTX_RESTORE (R443), contexts that a virtual function takes whose
reset is still in progress (R428), and the requesters (context, engine, slot) whose next read of host memory gets no completion (R388). -/
structure Pcie where
  vfEn : Bool := false
  numVfs : Nat := 0
  linkUp : Bool := false
  gen : Nat := 0
  width : Nat := 0
  msix : SMap W64 := []
  pend : SMap Bool := []
  held : BitVec 16 := 0xFFFF
  flrWait : BitVec 16 := 0
  d3 : BitVec 16 := 0
  refClk : Bool := false
  handover : BitVec 16 := 0
  lostReads : List (CtxId × Engine × Nat) := []
  deriving DecidableEq, Repr

/-- An entry of the TEL_ error log (R391). -/
structure LogEnt where
  seq : BitVec 32
  src : Nat
  code : Nat
  ctx : Option CtxId
  time : W64
  loc : Nat
  detail : Nat
  deriving DecidableEq, Repr

/-- What the block sends outward, in order: the observable effects of a step that are no state of the device. (DESIGN CHOICE, assumption 16) -/
inductive Out where
  /-- an MSI-X message of a function -/
  | msix (fn : Fin 16) (vector : Nat)
  /-- a value returned to a register read that itself acts (TIME_NOW, FPC_CAL_DATA, certificate data) -/
  | readVal (off : Nat) (value : W64)
  /-- data returned for an aperture read, and whether the completion carries EP -/
  | apertureData (bytes : List Byte) (ep : Bool)
  /-- Completer Abort -/
  | completerAbort
  /-- a data flit (256 bytes) or control flit (32 bytes) sent on a port -/
  | flit (port : PortId) (bytes : List Byte)
  /-- 64 periods of the Comet pattern on a port -/
  | comet (port : PortId)
  /-- an AVSBus voltage write: the VDD_CORE target in mV -/
  | avsVoltage (mv : Nat)
  /-- the time output TIME_PPS_OUT rises -/
  | pps
  /-- PMBus turns rails off, one group of R474 (R475) -/
  | railsDown (rails : List MainRail)
  deriving DecidableEq, Repr

/-! ### Boot, identity, attestation and sealing (chapter 17) -/

/-- Who asked for an attestation report (R459, R462): the physical function, a context, or a Planet through a neighbour's
MGMT_REQ that arrived on a port with a tag. -/
inductive AttSrc where
  | pf
  | ctx (c : CtxId)
  | remote (port : PortId) (tag : Nat)
  deriving DecidableEq, Repr

/-- A queued attestation request (R459): its source, kind, the context whose CTX_MEAS it shows, nonce and destination address. -/
structure AttReq where
  src : AttSrc
  kind : Nat
  mctx : CtxId
  nonce : List W64
  addr : Nat
  deriving DecidableEq, Repr

/-- What a save image holds (R240, R345, R346, R69, R100, R151, R177, R210, R244, R273, R383): the context's structures, its saved
page registers by offset, its queue memory with poison marks, its armings, and the install_id of each bound (model, slot). -/
structure Saved where
  body : Ctx
  regs : List (Nat × W64)
  qmem : List (Nat × Byte)
  qpoison : List Nat
  arms : List Arming
  installs : List (Nat × Nat × Nat)
  deriving DecidableEq, Repr

/-- The seal of one save image (R465): the save counter in its nonce, the key's inputs (target context and keyseed), and what the
image holds. (DESIGN CHOICE, assumption 8) -/
structure Seal where
  count : W64
  tgt : CtxId
  seed : List W64
  saved : Saved
  deriving DecidableEq, Repr

/-- The security island (R444 to R467): boot record, firmware record, fuses, update record (AON), watchdog, measurement
registers, attestation queue with the report in signing, the Planet's requests to Moons that are not answered (port, tag, address), and
the save counter (AON) with the images sealed. (DESIGN CHOICE, assumption 11) -/
structure Sec where
  state : Nat := 0
  slot : Bool := false
  fallback : Bool := false
  resA : Nat := 0
  resB : Nat := 0
  dieFail : BitVec 20 := 0
  ok : Bool := false
  streakA : Nat := 0
  streakB : Nat := 0
  version : BitVec 32 := 0
  svn : Nat := 0
  rsaIdx : Nat := 0
  slhIdx : Nat := 0
  minSvn : Nat := 0
  rsaRevoked : BitVec 4 := 0
  slhRevoked : BitVec 4 := 0
  debugLocked : Bool := true
  upSlot : Bool := false
  upState : Nat := 0
  upVersion : BitVec 32 := 0
  expiries : Nat := 0
  recovResult : Nat := 0
  meas : List (BitVec 384) := List.replicate 12 0
  ctxMeas : List (BitVec 384) := List.replicate 16 0
  seedSet : BitVec 16 := 0
  attState : Nat := 0
  ctxAtt : List Nat := List.replicate 16 0
  attQ : List AttReq := []
  signing : Option (AttReq × List Byte) := none
  remote : List (PortId × Nat × Nat) := []
  saveCount : W64 := 0
  seals : List Seal := []
  deriving DecidableEq, Repr

/-- What is fixed in a part at the factory and loaded at reset (R442, R302, R450): stepping, grade, serial number, the dies whose first and
second copy of the calibration row fail their check, and what the rows record of replaced blocks (user block + 1 by 4 × plane + reserve
block − 64, R277) and of factory remaps (data pair + 1 by 32 × tile + spare pair, R107), and the VDD_CORE offset in mV (R396). The factory
stuck-cell maps are in the tiles. (DESIGN CHOICE, assumption 11) -/
structure Factory where
  stepping : BitVec 4 := 0
  grade : BitVec 2 := 0
  serial0 : W64 := 0
  serial1 : W64 := 0
  calBad1 : BitVec 20 := 0
  calBad2 : BitVec 20 := 0
  replaced : SMap Nat := []
  remaps : SMap Nat := []
  vddOffset : Fin 101 := 0
  deriving DecidableEq, Repr

/-- The dies neither of whose copies of the calibration row matches its check value (R302). -/
def Factory.calBad (x : Factory) : BitVec 20 := x.calBad1 &&& x.calBad2

/-! ### The whole state -/

/-- A write through the tensor aperture that waits for a gated domain (R25): its context, tensor address and bytes, and the function
that sent it. -/
structure AptWrite where
  ctx : CtxId
  addr : Nat
  data : List SB
  fn : Fin 16 := 0
  deriving DecidableEq, Repr

/-- A host access that has arrived and waits: an aperture access for a gated domain or a peer's bytes, another access of a function behind
one (R25, R432). An aperture access has its address from its arrival (R436). -/
inductive HostAcc where
  | write (w : AptWrite)
  | read (fn : Fin 16) (ctx : CtxId) (ok : Bool) (addr n : Nat)
  | queue (fn : Fin 16) (off : Nat) (data : List Byte) (ep : Bool)
  | reg (fn : Fin 16) (off size : Nat) (v : W64) (ep : Bool)
  | timeNow
  | calData
  | certData (fn : Fin 16) (c : Option CtxId)
  deriving DecidableEq, Repr

/-- Whether an access is a write, which asks for no completion. -/
def HostAcc.posted : HostAcc → Bool
  | .write _ | .queue .. | .reg .. => true
  | _ => false

/-- The function that sent an access. -/
def HostAcc.fn : HostAcc → Fin 16
  | .write w => w.fn
  | .read f .. => f
  | .queue f .. => f
  | .reg f .. => f
  | .certData f _ => f
  | .timeNow | .calData => 0

/-- Byte memory: strictly rising addresses, and no entry that holds 0, which is what an unlisted address reads as. -/
abbrev Memory := List Host.Cell

/-- The canonical form of a memory. -/
def Memory.wf (m : Memory) : Bool := SMap.wf (α := Byte) 0 m

/-- The state of the block. `regs` holds every register field that has no structured home, by its offset in the physical function's BAR0
(R430, R434); an unlisted register holds its reset value (`regReset`). `mem` holds the device's own memories, each in its own space of 2^64
addresses (`Space`): T0 object contents, T1, flash pages, FPC staging buffers, the recovery buffer and queue memory; an unlisted byte holds
0. `hostMem` holds the host-memory bytes this device has written, `deposits` the bytes that peers have sent; what they do not list belongs
to others and is free (`Config`). `poison` marks poisoned 64-bit words (R387), `bch` the bit errors of a word (R385), `flashErr` the retry
levels a flash codeword needs (R278; more than 8: it fails) (assumptions 5, 8 to 10, 16). `freeCtr` counts the free values taken (the
model's own field). `migWait` are ended migration requests whose result words wait for the PCI Express link (R438), `aptWait` the host
accesses that wait, oldest first. -/
structure State where
  pending : List Instr := []
  freeCtr : Nat := 0
  regs : SMap W64 := []
  ctxs : Vector Ctx 16 := Vector.replicate 16 {}
  shareAt : List Nat := [0, 0, 0, 0]
  shareTab : List (List W64) := List.replicate 4 (List.replicate 4 0xFEDCBA9876543210)
  running : List Exec := []
  sysCnt : SMap (BitVec 32) := []
  mem : Memory := []
  hostMem : SMap Byte := []
  deposits : SMap SB := []
  poison : SMap Bool := []
  bch : SMap Nat := []
  flashErr : SMap Nat := []
  objs : SMap Obj := []
  pmap : SMap Nat := []
  orphans : List Orphan := []
  quotas : SMap Nat := []
  mig : List MigReq := []
  migWait : List MigReq := []
  bankHost : EditBank := {}
  bankMgc : EditBank := {}
  models : SMap Model := []
  blks : SMap Blk := []
  fpc : Fpc := {}
  sectors : SMap Sector := []
  inst : Inst := {}
  armings : List Arming := []
  tsets : SMap TsetSlot := []
  tiles : SMap Tile := []
  cells : SMap Cell2 := []
  link : Link := {}
  time : TimeSt := {}
  pwr : Pwr := {}
  pcie : Pcie := {}
  aptWait : List HostAcc := []
  sec : Sec := {}
  fac : Factory := {}
  log : List LogEnt := []
  logNext : BitVec 32 := 0
  out : List Out := []
  deriving DecidableEq, Repr

/-- What stops the machine. (DEDUCED, assumption 3) -/
inductive Fault where
  /-- A register write that the spec calls undefined (R212: CTX_CQ_BASE or log2_size written while records of the context are waiting or being
  written; R348: CTX_TAIL_BASE or log2_size written while Tail entries wait). Raised by REGISTER_WRITE. Safe: the model stops where the
  hardware goes on. -/
  | undefinedRingMove
  /-- A q_en bit of a context set while a CTX_SAVE or CTX_RESTORE of it is in execution, which the spec calls undefined (R245).
  Raised by QUEUE_ENABLE_WRITE and REGISTER_WRITE. Safe: the model stops where the hardware goes on. -/
  | undefinedUnderSave
  deriving DecidableEq, Repr

/-- What the model declines. -/
inductive Refusal where
  /-- A command whose meaning is not written. Raised by its arm of `exec`. Safe: the model stops. -/
  | notModelled (mnemonic : String)
  deriving DecidableEq, Repr

/-- The block right after a device reset and before its boot has run: every field holds the value of the spec's reset
columns; fields the spec loads from fuses, straps, the factory or always-on storage hold the values named in notes/assumptions/11.md;
memories list nothing and no command waits. (DESIGN CHOICE, assumption 11) -/
def State.reset : State := {}

end Sys2Proof.Machine
end

