-- ==== Sys2Proof/Machine/Ops.lean ====
section
/-! DEFINITION. The named operations over registers, contexts, MSI-X messages, the TEL_ error log and byte memory. -/

namespace Sys2Proof.Machine

open Sys2Proof

/-! ### Registers -/

/-- The stored word of the register at an offset of the physical function's BAR0; an unlisted register holds its reset value. -/
def State.reg (s : State) (off : Nat) : W64 := SMap.get (regReset off) s.regs off

/-- Store a register word. -/
def State.setReg (s : State) (off : Nat) (v : W64) : State :=
  { s with regs := SMap.put (regReset off) s.regs off v }

/-- A field of a stored register. -/
def State.fld (s : State) (f : Fld) : Nat := wBits (s.reg f.off) f.lo f.width

/-- A one-bit field of a stored register. -/
def State.flag (s : State) (f : Fld) : Bool := decide (s.fld f ≠ 0)

/-- Store a field of a register, modulo its width. -/
def State.setFld (s : State) (f : Fld) (n : Nat) : State := s.setReg f.off (wSet (s.reg f.off) f.lo f.width n)

/-- Add to a counting field; it saturates. -/
def State.addFld (s : State) (f : Fld) (n : Nat) : State := s.setFld f (satAdd f.width (s.fld f) n)

/-- The field of context c's page that a page field names. -/
def Fld.at (f : Fld) (c : CtxId) : Fld := { f with off := ctxBase c + f.off }

/-- The same field of a register `d` bytes further. -/
def Fld.plus (f : Fld) (d : Nat) : Fld := { f with off := f.off + d }

/-- A device-block field written by name with its register's word (used where a word is composed). -/
def Fld.put (f : Fld) (n : Nat) : Nat := (n % 2 ^ f.width) * 2 ^ f.lo

/-- A register word composed from fields. -/
def wordOf (fs : List (Fld × Nat)) : W64 := BitVec.ofNat 64 ((fs.map (fun p => p.1.put p.2)).sum)

/-! ### Contexts -/

/-- Context c. -/
def State.ctx (s : State) (c : CtxId) : Ctx := s.ctxs[c]

/-- Replace context c. -/
def State.setCtx (s : State) (c : CtxId) (x : Ctx) : State := { s with ctxs := s.ctxs.set c x }

/-- Update context c. -/
def State.updCtx (s : State) (c : CtxId) (f : Ctx → Ctx) : State := s.setCtx c (f (s.ctx c))

/-- All contexts, in number order. -/
def allCtx : List CtxId := List.finRange 16

/-- All engines, in code order. -/
def allEng : List Engine := [.mxe, .caf, .vec, .tmv]

/-- All ports, in number order. -/
def allPorts : List PortId := List.finRange 8

/-- The queue of context c for engine e. -/
def State.queue (s : State) (c : CtxId) (e : Engine) : Queue := (s.ctx c).queues[e.code]

/-- Replace a queue. -/
def State.setQueue (s : State) (c : CtxId) (e : Engine) (q : Queue) : State :=
  s.updCtx c (fun x => { x with queues := x.queues.set e.code q })

/-- Whether CTX_CTRL.q_en has the bit of engine e (R184). -/
def State.qEn (s : State) (c : CtxId) (e : Engine) : Bool := Nat.testBit (s.fld (Reg.ctxCtrl_qEn.at c)) e.code

/-- R428: whether context c belongs to its virtual function now. -/
def State.vfHolds (s : State) (c : CtxId) : Bool := s.pcie.vfEn && decide (1 ≤ c.val) && decide (c.val ≤ s.pcie.numVfs)

/-- R181, R428: the function that holds context c. -/
def State.owner (s : State) (c : CtxId) : Fin 16 := if s.vfHolds c then c else 0

/-- Take the next free word (see `Config.freeWord`). (DESIGN CHOICE, assumption 13) -/
def State.takeFree (s : State) : W64 × State := (Config.freeWord s.freeCtr, { s with freeCtr := s.freeCtr + 1 })

/-! ### Roles -/

/-- The role straps as sampled (R349): 0 single, 1 Planet, 2 Moon, 3 reserved. -/
def State.role (s : State) : Nat := s.link.role

/-- Whether the device is a Moon. -/
def State.isMoon (s : State) : Bool := decide (s.link.role = 2)

/-- Whether the device is the Planet. -/
def State.isPlanet (s : State) : Bool := decide (s.link.role = 1)

/-! ### Power -/

/-- Whether the device is powered and out of reset: a P-state, IDLE or DOZE. -/
def State.up (s : State) : Bool := decide (s.pwr.mode = .run) || decide (s.pwr.mode = .idle) || decide (s.pwr.mode = .doze)

/-- Whether the functions' BARs answer: powered, out of reset, not in D3hot (R426, R441), and past the handover (R428).
(DESIGN CHOICE, assumption 4; DESIGN CHOICE, assumption 39) -/
def State.barsOpen (s : State) (fn : Fin 16) : Bool :=
  s.up && s.flag Reg.devStatus_ready && !(s.pcie.d3.getLsbD fn.val) &&
    (decide (fn = 0) || (s.vfHolds fn && !(s.pcie.handover.getLsbD fn.val)))

/-- Whether the boot ROM waits in RECOVERY (R449). -/
def State.inRecovery (s : State) : Bool := decide (s.sec.state = 3)

/-- Whether an access of a function finds earlier ones of it that wait (R432). -/
def State.hostBehind (s : State) (fn : Fin 16) : Bool := s.aptWait.any (fun a => decide (a.fn = fn))

/-- An access joins those that wait. -/
def State.putOff (s : State) (a : HostAcc) : State := { s with aptWait := s.aptWait ++ [a] }

/-- The condition of a clock domain. -/
def State.dom (s : State) (d : Nat) : DomState := SMap.get .on s.pwr.doms d

/-- Set the condition of a domain. -/
def State.setDom (s : State) (d : Nat) (x : DomState) : State :=
  { s with pwr := { s.pwr with doms := SMap.put .on s.pwr.doms d x } }

/-- Whether a domain is gated or wakes: it does no work, and an access to it waits (R400, R401). -/
def State.gated (s : State) (d : Nat) : Bool :=
  match s.dom d with
  | .on => false
  | .shutting k => decide (4 ≤ k)
  | _ => true

/-- A port whose domain wakes trains if it is enabled (R363, R401). -/
def State.wakePort (s : State) (d : Nat) : State :=
  let p : PortId := Fin.ofNat 8 (d - 108)
  if 108 ≤ d ∧ d < 116 ∧ (s.isPlanet || s.isMoon) ∧ s.link.ports[p].state = .off ∧ s.flag (Reg.lnkPortCtl_en.plus (0x40 * p.val)) then
    { s with link := { s.link with ports := s.link.ports.set p { s.link.ports[p] with state := .detect } } }
  else s

/-- An access to a domain: a gated one wakes, and one in a shut-down step before step 4 abandons it (R400). -/
def State.wakeDom (s : State) (d : Nat) : State :=
  match s.dom d with
  | .clockGated => s.setDom d (.waking true)
  | .powerGated => (s.setDom d (.waking false)).wakePort d
  | .shutting k => if k < 4 then s.setDom d .on else (s.setDom d (.waking false)).wakePort d
  | _ => s

/-- The PCI Express endpoint's domain (R398). -/
def epDom : Nat := 116

/-- Whether host memory can be reached: the link is up and the endpoint is not gated (R399, R438). -/
def State.hostUp (s : State) : Bool := s.pcie.linkUp && !(s.gated epDom)

/-! ### Outward effects -/

/-- Send something outward. -/
def State.emit (s : State) (o : Out) : State := { s with out := s.out ++ [o] }

/-- A read by function `fn` of a register that acts when read. Before the device is ready, and in RECOVERY where the register's block does
not answer, it reads as 0 without effect (R431, R441, R449); behind accesses of the function that wait it waits (R432). -/
def State.actingRead (s : State) (fn : Fin 16) (off : Nat) (recov : Bool) (acc : HostAcc) (f : State → State) : State :=
  if !s.up || s.pcie.d3.getLsbD fn.val then s
  else if !(s.flag Reg.devStatus_ready) || (s.inRecovery && !recov) then s.emit (.readVal off 0)
  else if s.hostBehind fn then s.putOff acc
  else f s

/-- The place of a vector's entry words: address at 2 × vector, data and control at 2 × vector + 1. -/
def msixKey (fn : Fin 16) (i : Nat) : Nat := fn.val * 256 + i

/-- An MSI-X table word; a vector is masked until its control word is written. -/
def State.msixWord (s : State) (fn : Fin 16) (i : Nat) : W64 :=
  SMap.get (if i % 2 = 1 then 0x100000000 else 0) s.pcie.msix (msixKey fn i)

/-- Whether a vector's mask bit is set. -/
def State.vecMasked (s : State) (fn : Fin 16) (v : Nat) : Bool := wBit (s.msixWord fn (2 * v + 1)) 32

/-- R437, R426, R438: send the message of a function's vector, or hold it as pending while the vector or the function is masked
or disabled, the function is in D3hot, or the link is down. One held for the gated endpoint alone wakes it (R399).
A vector at or above 128 sends nothing. (PRESUMED, assumption 41) -/
def State.sendMsix (s : State) (fn : Fin 16) (v : Nat) : State :=
  if 128 ≤ v then s
  else if s.vecMasked fn v || s.pcie.held.getLsbD fn.val || s.pcie.d3.getLsbD fn.val then
    { s with pcie := { s.pcie with pend := SMap.put false s.pcie.pend (fn.val * 128 + v) true } }
  else if s.hostUp then s.emit (.msix fn v)
  else { s with pcie := { s.pcie with pend := SMap.put false s.pcie.pend (fn.val * 128 + v) true } }.wakeDom epDom

/-! ### The error log (R390 to R393) -/

/-- R391: write one log entry; the oldest of 1,024 is overwritten; with irq_en it sends its message. -/
def State.logEvent (s : State) (src code : Nat) (c : Option CtxId) (loc detail : Nat) : State :=
  let e : LogEnt := { seq := s.logNext, src := src, code := code, ctx := c, time := s.time.ns, loc := loc, detail := detail }
  let l := s.log ++ [e]
  let s1 := { s with log := l.drop (l.length - 1024), logNext := s.logNext + 1 }
  if s1.flag Reg.telLogCfg_irqEn then s1.sendMsix 0 (s1.fld Reg.telLogCfg_vector) else s1

/-! ### Byte memory

Every memory of the device lies in its own range of 2^64 keys. -/

/-- The key of a byte of an object's T0 content. -/
def kT0 (idx off : Nat) : Nat := 2 ^ 64 + idx * 2 ^ 42 + off

/-- The key of a byte of an object's T1 content. -/
def kT1 (idx off : Nat) : Nat := 2 * 2 ^ 64 + idx * 2 ^ 42 + off

/-- The key of a byte of a physical flash page (R277). -/
def kFlash (page off : Nat) : Nat := 3 * 2 ^ 64 + page * 16384 + off

/-- The key of a byte of an FPC staging buffer (R26). -/
def kStage (buf off : Nat) : Nat := 4 * 2 ^ 64 + buf * 2 ^ 20 + off

/-- The key of a byte of the recovery buffer (R449). -/
def kRecov (off : Nat) : Nat := 5 * 2 ^ 64 + off

/-- The key of a byte of a queue slot (R182). -/
def kQueue (c : CtxId) (e : Engine) (slot off : Nat) : Nat :=
  6 * 2 ^ 64 + (4 * c.val + e.code.val) * 2 ^ 18 + slot * 64 + off

/-- The number of bit errors in the 80-bit word that holds a byte (R385). (DESIGN CHOICE, assumption 5) -/
def State.wordErr (s : State) (k : Nat) : Nat := SMap.get 0 s.bch (k / 8)

/-- Whether the word that holds a byte is marked poisoned (R387). -/
def State.isPoison (s : State) (k : Nat) : Bool := SMap.get false s.poison (k / 8)

/-- R385: how a byte of a word with `n` bit errors is delivered: as it is up to 2; with 3 a free byte, poisoned; with 4 or more a free
byte and mark. (DESIGN CHOICE, assumption 14) -/
def deliverByte (key n : Nat) (b : SB) : SB :=
  if n ≤ 2 then b else (Config.corruptByte key b.1, decide (n = 3) || Config.corruptMark (key / 8))

/-- What a read of a stored byte delivers: the byte with its word's poison mark (R385, R387). (DESIGN CHOICE, assumption 10) -/
def State.peek (s : State) (k : Nat) : SB := deliverByte k (s.wordErr k) (SMap.get 0 s.mem k, s.isPoison k)

/-- `n` poisoned bytes that no store delivers. (DESIGN CHOICE, assumption 14) -/
def poisonRun (n : Nat) : List SB := (List.range n).map (fun i => (Config.poisonByte i, true))

/-- Put one byte in the device's memory. -/
def State.poke (s : State) (k : Nat) (b : Byte) : State := { s with mem := SMap.put 0 s.mem k b }

/-- Put consecutive bytes, leaving the words' marks. -/
def State.pokes (s : State) (k : Nat) : List Byte → State
  | [] => s
  | b :: bs => (s.poke k b).pokes (k + 1) bs

/-- Set the poison mark of a word. -/
def State.setPoison (s : State) (w : Nat) (p : Bool) : State := { s with poison := SMap.put false s.poison w p }

/-- Give a word fresh check bits. -/
def State.freshen (s : State) (w : Nat) : State := { s with bch := SMap.put 0 s.bch w 0 }

/-- The marks of one word after the bytes of `part` of it are written (R384, R387): poisoned bytes poison it; a clean write of
all 8 bytes clears it; a clean partial write merges and keeps the mark, and a detected word stays poisoned. -/
def State.markWord (s : State) (w : Nat) (part : List SB) : State :=
  let err := SMap.get 0 s.bch w
  if part.any (·.2) then (s.setPoison w true).freshen w
  else if part.length = 8 then (s.setPoison w false).freshen w
  else if err = 3 then (s.setPoison w true).freshen w
  else if err ≤ 2 then s.freshen w
  else s

/-- The marks of every word that a write of `data` at key `k` touches; `fuel` is the number of bytes. -/
def State.markWords (s : State) (k : Nat) (data : List SB) : Nat → State
  | 0 => s
  | fuel + 1 =>
    if data.isEmpty then s
    else
      let n := 8 - k % 8
      (s.markWord (k / 8) (data.take n)).markWords (k + n) (data.drop n) fuel

/-- Write bytes with their poison marks at a key of the device's memory. -/
def State.store (s : State) (k : Nat) (data : List SB) : State :=
  (s.pokes k (data.map (·.1))).markWords k data data.length

/-- A word of the device's memory as a read delivers it. -/
def State.peekWord (s : State) (k : Nat) : W64 × Bool :=
  let bs := (List.range 8).map (fun i => s.peek (k + i))
  (BitVec.ofNat 64 (leVal (bs.map (·.1))), bs.any (·.2))

/-- Clean bytes. -/
def clean (bs : List Byte) : List SB := bs.map (fun b => (b, false))

/-- Fill a range of keys with zero bytes and fresh, clean words. -/
def State.zeroFrom (s : State) (lo hi : Nat) : State :=
  { s with
    mem := SMap.keepKeys (fun k => !(decide (lo ≤ k) && decide (k < hi))) s.mem
    poison := SMap.keepKeys (fun w => !(decide (lo / 8 ≤ w) && decide (w < hi / 8))) s.poison
    bch := SMap.keepKeys (fun w => !(decide (lo / 8 ≤ w) && decide (w < hi / 8))) s.bch }

/-- Copy a range of `n` bytes of the device's memory with its poison marks, as a read of every word delivers it; `s` is read
throughout. -/
def State.copyRange (s : State) (src dst n : Nat) : State :=
  s.store dst ((List.range n).map (fun i => s.peek (src + i)))

/-! ### Counting reads of BCH words (R385) -/

/-- The four TEL_ECC_ registers by store: 0 NST, 1 DST, 2 fabric or buffer, 3 queue memory. -/
def eccCorrected (store : Nat) : Fld := Reg.telEcc_corrected.plus (8 * store)

/-- The uncorr field of a store's TEL_ECC_ register. -/
def eccUncorr (store : Nat) : Fld := Reg.telEcc_uncorr.plus (8 * store)

/-- R385: what the delivery of a word with `n` bit errors counts: a corrected word adds 1 to `corrected`; a detected word adds 1 to
`uncorr` and writes a source 1 entry at `loc`. -/
def State.noteErr (s : State) (store : Nat) (c : Option CtxId) (n w loc : Nat) : State :=
  if n = 1 ∨ n = 2 then s.addFld (eccCorrected store) 1
  else if n = 3 then
    (s.addFld (eccUncorr store) 1).logEvent 1 (store + 1) c loc (Config.syndrome w).toNat
  else s

/-- R385: what the read of one stored word counts. -/
def State.noteWord (s : State) (store : Nat) (c : Option CtxId) (w loc : Nat) : State :=
  s.noteErr store c (SMap.get 0 s.bch w) w loc

/-- Count the reads of `n` consecutive words from word `w`, located at `loc` rising by 8. -/
def State.noteWords (s : State) (store : Nat) (c : Option CtxId) (w loc : Nat) : Nat → State
  | 0 => s
  | n + 1 => (s.noteWord store c w loc).noteWords store c (w + 1) (loc + 8) n

/-- Count the reads of the words of the recovery buffer, which lies in NST, at `n` bytes from offset `off` (R385, R449). -/
def State.noteRecov (s : State) (off n : Nat) : State :=
  s.noteWords 0 none (kRecov off / 8) (off / 8 * 8) (if n = 0 then 0 else (off + n - 1) / 8 - off / 8 + 1)

/-- The words in transit at address `a` as they are delivered, `errs` holding the bit errors by word (R384, R385).
(DESIGN CHOICE, assumption 83) -/
def throughFabric (a : Nat) (errs : SMap Nat) (data : List SB) : List SB :=
  if errs.isEmpty then data else data.mapIdx (fun i b => deliverByte (a + i) (SMap.get 0 errs (i / 8)) b)

/-- Count the errors of words in transit at address `a`, in TEL_ECC_FAB (R385). (DESIGN CHOICE, assumption 83) -/
def State.noteTransit (s : State) (c : CtxId) (a : Nat) (errs : SMap Nat) : State :=
  errs.foldl (fun s e => s.noteErr 2 (some c) e.2 (a / 8 + e.1) (a + 8 * e.1)) s

/-! ### Domains that wake on demand (R399 to R401) -/

/-- Wake a list of domains. -/
def State.wakeDoms (s : State) : List Nat → State
  | [] => s
  | d :: l => (s.wakeDom d).wakeDoms l

/-- Whether a domain accepts an access: it is on, and outside the P-states it lies in no group that IDLE and DOZE gate (R402). -/
def State.domOn (s : State) (d : Nat) : Bool := decide (s.dom d = .on) && (decide (s.pwr.mode = .run) || decide (108 ≤ d))

/-- Note the domains of an access that cannot accept it now (R401). (DESIGN CHOICE, assumption 28) -/
def State.touch (s : State) (ds : List Nat) : State :=
  let l := ds.filter (fun d => !(s.domOn d))
  if l.isEmpty then s else { s with pwr := { s.pwr with stall := s.pwr.stall ++ l } }

/-- Do a piece of work. An access in it that meets a gated domain stalls: the domains wake, and the work waits for its next turn
(R399, R401). (DESIGN CHOICE, assumption 28) -/
def State.orStall (s : State) (f : State → State) : State :=
  let t := f s
  if t.pwr.stall.isEmpty then t else s.wakeDoms t.pwr.stall

/-- The gated domains that stall a piece of work tried from `s` that led to `t`. What IDLE and DOZE gate as a group opens for it.
(DESIGN CHOICE, assumption 28) -/
def State.gatedBy (s t : State) : List Nat := t.pwr.stall.filter (fun d => decide (s.dom d ≠ .on))

/-- Do a piece of work that no engine does: of the host, of the installer, of a peer. Where it meets a gated domain, the domains wake and it
is not done yet (R25, R401); whether it is done is the second part. (DESIGN CHOICE, assumption 28) -/
def State.tryOnce (s : State) (f : State → State) : State × Bool :=
  let t := f s
  if (s.gatedBy t).isEmpty then ({ t with pwr := { t.pwr with stall := s.pwr.stall } }, true) else (s.wakeDoms (s.gatedBy t), false)

/-- Domains `lo` to `lo + n − 1`. -/
def domRange (lo n : Nat) : List Nat := (List.range n).map (lo + ·)

/-- The domains an engine's work needs beside the memories it reaches: its own and the tensor fabric (R398). (DESIGN CHOICE, assumption 28) -/
def engineDoms : Engine → List Nat
  | .mxe => domRange 0 40 ++ domRange 94 8
  | .caf => domRange 80 9 ++ domRange 94 8
  | .vec => domRange 40 8 ++ domRange 94 8
  | .tmv => 92 :: domRange 94 8

/-! ### Running commands -/

/-- The commands of context c in execution on engine e. -/
def State.execsOf (s : State) (c : CtxId) (e : Engine) : List Exec :=
  s.running.filter (fun x => decide (x.ctx = c) && decide (x.eng = e))

/-- The commands of context c in execution. -/
def State.execsCtx (s : State) (c : CtxId) : List Exec := s.running.filter (fun x => decide (x.ctx = c))

/-- The commands of context c in execution on all engines, a TABLE_LOAD that keeps its queue's head among them (CTX_TMV_RUN.exec). -/
def State.execCount (s : State) (c : CtxId) : Nat :=
  (s.execsCtx c).length + (match (s.queue c .tmv).dec with | .loading .. => 1 | _ => 0)

/-- Update the running command of context c on engine e in queue slot `slot`. -/
def State.updExec (s : State) (c : CtxId) (e : Engine) (slot : Nat) (f : Exec → Exec) : State :=
  { s with running := s.running.map (fun x => if x.ctx = c ∧ x.eng = e ∧ x.slot = slot then f x else x) }

end Sys2Proof.Machine
end

