-- ==== Sys2Proof/Machine/LinkTx.lean ====
section
/-! DEFINITION. The sending side of a Trelbo port (R353 to R360): flit layouts, the control-slot priorities, data-channel
arbitration, credits and the replay buffers. -/

namespace Sys2Proof.Machine

open Sys2Proof

/-- Port p. -/
def State.port (s : State) (p : PortId) : Port := s.link.ports[p]

/-- Replace port p. -/
def State.setPort (s : State) (p : PortId) (x : Port) : State :=
  { s with link := { s.link with ports := s.link.ports.set p x } }

/-- Update port p. -/
def State.updPort (s : State) (p : PortId) (f : Port → Port) : State := s.setPort p (f (s.port p))

/-- A field of port p's registers. -/
def Fld.port (f : Fld) (p : PortId) : Fld := f.plus (0x40 * p.val)

/-! ### Flit layouts -/

/-- The payload words of a data flit: 30 words of 8 bytes and one of 4 (R353). -/
def payloadWords (l : List SB) : List (List SB) := chunksOf 8 31 l

/-- R353: the bytes 0 to 251 of a data flit. -/
def dataFlitBody (seq : Nat) (f : DataFlit) : List Byte :=
  let ws := payloadWords f.payload
  let poison := ((ws.zipIdx).map (fun p => if p.1.any (·.2) then 2 ^ (29 + p.2) else 0)).sum
  let w0 := seq % 65536 + f.ch * 2 ^ 16 + b2n f.first * 2 ^ 19 + b2n f.last * 2 ^ 20 + f.payload.length * 2 ^ 21 + poison
  leBytes 8 w0 ++ f.payload.map (·.1) ++ List.replicate (244 - f.payload.length) 0

/-- R353, R380: a whole data flit, its CRC-32C last. -/
def encodeDataFlit (seq : Nat) (f : DataFlit) : List Byte :=
  let b := dataFlitBody seq f
  b ++ leBytes 4 (crc32c b).toNat

/-- R353: a null data flit. (DESIGN CHOICE, assumption 86) -/
def nullDataFlit (seq : Nat) : List Byte :=
  let b := leBytes 8 (seq % 65536 + 2 ^ 18) ++ List.replicate 244 (0 : Byte)
  b ++ leBytes 4 (crc32c b).toNat

/-- R354: a null control flit. -/
def nullCtlFlit (seq : Nat) : List Byte :=
  let b := leBytes 4 (seq % 4096 + 2 ^ 12) ++ List.replicate 24 (0 : Byte)
  b ++ leBytes 4 (crc32c b).toNat

/-- R354: the bytes 0 to 27 of a control flit with up to three messages. -/
def ctlFlitBody (seq : Nat) (msgs : List W64) : List Byte :=
  leBytes 4 (seq % 4096) ++ ((msgs ++ List.replicate (3 - msgs.length) 0).take 3).flatMap (fun (m : W64) => leBytes 8 m.toNat)

/-- R354, R380: a whole control flit. -/
def encodeCtlFlit (seq : Nat) (msgs : List W64) : List Byte :=
  let b := ctlFlitBody seq msgs
  b ++ leBytes 4 (crc32c b).toNat

/-- What a received data flit holds. -/
structure RxData where
  crcOk : Bool
  seq : Nat
  null : Bool
  flit : DataFlit
  deriving DecidableEq, Repr

/-- Read a received data flit of 256 bytes; each byte of a poisoned payload word is poisoned (R387). -/
def decodeDataFlit (bs : List Byte) : RxData :=
  let w0 := leVal (bs.take 8)
  let len := bitsOf w0 21 8
  let pl := (bs.drop 8).take (min len 244)
  { crcOk := decide (bs.length = 256) && decide ((crc32c (bs.take 252)).toNat = leVal (bs.drop 252))
    seq := bitsOf w0 0 16
    null := Nat.testBit w0 18
    flit := { ch := bitsOf w0 16 2, first := Nat.testBit w0 19, last := Nat.testBit w0 20,
              payload := pl.zipIdx.map (fun p => (p.1, Nat.testBit w0 (29 + p.2 / 8))) } }

/-- What a received control flit holds. -/
structure RxCtl where
  crcOk : Bool
  seq : Nat
  null : Bool
  msgs : List W64
  deriving DecidableEq, Repr

/-- Read a received control flit of 32 bytes; empty slots are dropped. -/
def decodeCtlFlit (bs : List Byte) : RxCtl :=
  let h := leVal (bs.take 4)
  { crcOk := decide (bs.length = 32) && decide ((crc32c (bs.take 28)).toNat = leVal (bs.drop 28))
    seq := bitsOf h 0 12
    null := Nat.testBit h 12
    msgs := ((chunksOf 8 3 ((bs.drop 4).take 24)).map (fun c => BitVec.ofNat 64 (leVal c))).filter
      (fun m => decide (wBits m 0 4 ≠ 0)) }

/-! ### Control messages (R355) -/

/-- The type of a control message. -/
def msgType (m : W64) : Nat := wBits m 0 4

/-- R360: the priority class of a control message, 1 first. -/
def msgClass (m : W64) : Nat :=
  match msgType m with
  | 2 | 4 => 1
  | 6 | 7 => 2
  | 1 | 3 | 5 => 3
  | 8 | 9 => 4
  | _ => 5

/-- A control message word from its type and fields (low bit, value). -/
def ctlMsg (ty : Nat) (fs : List (Nat × Nat)) : W64 := BitVec.ofNat 64 (ty + (fs.map (fun f => f.2 * 2 ^ f.1)).sum)

/-- R360: queue a control message. A SYNC_INC adds to a queued one of its counter, a SYNC_VAL replaces it. -/
def queueCtl (q : List W64) (m : W64) : List W64 :=
  let same := fun x => decide (msgType x = msgType m) && decide (wBits x 4 8 = wBits m 4 8)
  if msgType m = 6 ∧ q.any same then
    q.map (fun x => if same x then wSet x 12 32 (wBits x 12 32 + wBits m 12 32) else x)
  else if msgType m = 7 ∧ q.any same then q.map (fun x => if same x then m else x)
  else q ++ [m]

/-- Whether a port's transmitter carries a message now: all of them while ACTIVE, in MEASURE the link-layer messages, MEASURE and TOPO
PORTS (R356, R363); TOPO and INST only with a control credit (R359). -/
def Port.canSend (x : Port) (m : W64) : Bool :=
  (decide (x.state = .active) || (decide (x.state = .measure) && ([1, 2, 3, 4, 5, 9, 10].contains (msgType m)))) &&
  (decide (msgClass m ≠ 5) || decide (0 < x.credCtl))

/-- The next control message to send, by class and arrival order, with the queue it leaves. -/
def Port.pickCtl (x : Port) : Option (W64 × List W64) :=
  let ok := fun k m => decide (msgClass m = k) && x.canSend m
  ([1, 2, 3, 4, 5].findSome? (fun k => x.txCtl.find? (ok k))).map (fun m => (m, x.txCtl.erase m))

/-- Fill the slots of one control flit. -/
def Port.fillCtl : Nat → Port → List W64 × Port
  | 0, x => ([], x)
  | n + 1, x =>
    match x.pickCtl with
    | none => ([], x)
    | some (m, q) =>
      let r := Port.fillCtl n { x with txCtl := q, credCtl := if msgClass m = 5 then x.credCtl - 1 else x.credCtl }
      (m :: r.1, r.2)

/-- A TIME message (R355): the sender's time. -/
def State.timeMsg (s : State) : W64 := ctlMsg 8 [(4, s.time.ns.toNat % 2 ^ 32), (36, s.time.frac / 16)]

/-- A message as its flit carries it: TIME gives the time at which the flit goes (R369). -/
def State.atSend (s : State) (m : W64) : W64 := if msgType m = 8 then s.timeMsg else m

/-- The system counters that the SYNC_INC messages of a flit add to. -/
def incsOf (msgs : List W64) : List Nat := (msgs.filter (fun m => decide (msgType m = 6))).map (fun m => wBits m 4 8)

/-- A control flit leaves: it is kept for a replay, with the contexts whose increments it carries. -/
def Port.sentCtl (x : Port) (msgs : List W64) : Port :=
  { x with
    txCseq := (x.txCseq + 1) % 4096, creplay := x.creplay ++ [(x.txCseq, msgs)]
    qown := x.qown.filter (fun e => !(incsOf msgs).contains e.1)
    cown := x.cown ++ ((x.qown.filter (fun e => (incsOf msgs).contains e.1)).map (fun e => (x.txCseq, e.2))) }

/-- Whether a port's domain is gated or wakes: what it would send waits (R401). -/
def State.portGated (s : State) (p : PortId) : Bool := s.gated (108 + p.val)

/-- Send control flits while messages may go and the replay buffer has room (R356, R360). -/
def State.pumpCtl (s : State) (p : PortId) : Nat → State
  | 0 => s
  | fuel + 1 =>
    let x := s.port p
    if 256 ≤ x.creplay.length || s.portGated p then s
    else
      let r := Port.fillCtl 3 x
      let msgs := r.1.map s.atSend
      if msgs.isEmpty then s
      else ((s.setPort p (r.2.sentCtl msgs)).emit (.flit p (encodeCtlFlit x.txCseq msgs))).pumpCtl p fuel

/-- Send a control message on a port, whose domain wakes for it (R401). -/
def State.sendCtl (s : State) (p : PortId) (m : W64) : State :=
  let s1 := (s.wakeDom (108 + p.val)).updPort p (fun x => { x with txCtl := queueCtl x.txCtl m })
  s1.pumpCtl p ((s1.port p).txCtl.length + 1)

/-! ### Data messages (R358, R361) -/

/-- The 16-byte header of a data-lane message (R361). -/
def dataHeader (kind srcCtx dstCtx status tag len addr : Nat) : List Byte :=
  leBytes 8 (kind + srcCtx * 2 ^ 4 + dstCtx * 2 ^ 8 + status * 2 ^ 12 + tag * 2 ^ 20 + ((len - 1) % 65536) * 2 ^ 36) ++
  leBytes 8 (addr % 2 ^ 52)

/-- The channel of a message kind: 0 request, 1 response, 2 installation. -/
def kindChannel : Nat → Nat
  | 1 | 2 | 5 => 0
  | 7 => 2
  | _ => 1

/-- The context of this device that a message serves: the requester of a READ or WRITE, the target of an answer. -/
def msgOwner (kind : Nat) (header : List Byte) : Option CtxId :=
  if kind = 1 ∨ kind = 2 then some (Fin.ofNat 16 (bitsOf (leVal header) 4 4))
  else if kind = 3 ∨ kind = 4 then some (Fin.ofNat 16 (bitsOf (leVal header) 8 4)) else none

/-- Cut a message into data flits. -/
def flitsOf (ch : Nat) (own : Option CtxId) (bytes : List SB) : List DataFlit :=
  let cs := chunksOf 244 (bytes.length / 244 + 1) bytes
  cs.zipIdx.map (fun c =>
    { ch := ch, first := decide (c.2 = 0), last := decide (c.2 + 1 = cs.length), payload := c.1, own := own })

/-- The flits of a message of `n` data bytes. -/
def flitsFor (n : Nat) : Nat := ceilDiv (16 + n) 244

/-- The flits of the MGMT_RESP that carries an attestation report (R460, R462): 37,384 data bytes. -/
def mgmtFlits : Nat := flitsFor 37384

/-- The response space that the request whose first flit this is reserves (R358, R359): that of READ_DATA, WRITE_ACK, or of the report that
an attestation request asks for; the other management requests have no answer. (DESIGN CHOICE, assumption 86) -/
def DataFlit.reserves (f : DataFlit) : Nat :=
  let v := leVal ((f.payload.take 24).map Prod.fst)
  if f.ch ≠ 0 ∨ !f.first then 0
  else match bitsOf v 0 4 with
    | 1 => flitsFor (bitsOf v 36 16 + 1)
    | 2 => 1
    | 5 => if bitsOf v 128 8 = 2 then mgmtFlits else 0
    | _ => 0

/-- The flits of response space of a port (R358). -/
def respSpace : Nat := 256

/-- Whether a data flit may go: the request channel spends a credit per flit, and a request goes once its response has its space; the
installation channel spends one per shard (R358, R359). -/
def Port.flitOk (x : Port) (f : DataFlit) : Bool :=
  match f.ch with
  | 0 => decide (0 < x.credReq) && decide (x.respRes + f.reserves ≤ respSpace)
  | 2 => !f.first || decide (0 < x.credInst)
  | _ => true

/-- R360: the next data flit: response, request, installation, each channel in order; an installation flit that may go is not
passed over more than 15 times running. -/
def Port.pickData (x : Port) : Option DataFlit :=
  let head := fun ch => (x.txData.find? (fun f => decide (f.ch = ch))).filter (x.flitOk ·)
  match head 2 with
  | some f => if 15 ≤ x.sinceInst then some f else (head 1).or ((head 0).or (some f))
  | none => (head 1).or (head 0)

/-- Send data flits while some may go and the replay buffer has room. -/
def State.pumpData (s : State) (p : PortId) : Nat → State
  | 0 => s
  | fuel + 1 =>
    let x := s.port p
    if 256 ≤ x.replay.length || decide (x.state ≠ .active) || s.portGated p then s
    else
      match x.pickData with
      | none => s
      | some f =>
        let y := { x with
          txData := x.txData.erase f
          txSeq := (x.txSeq + 1) % 65536
          replay := x.replay ++ [(x.txSeq, f)]
          credReq := if f.ch = 0 then x.credReq - 1 else x.credReq
          credInst := if f.ch = 2 ∧ f.first then x.credInst - 1 else x.credInst
          sinceInst := if f.ch = 2 then 0 else x.sinceInst + 1
          respRes := x.respRes + f.reserves
          txFlits := x.txFlits + 1 }
        ((s.setPort p y).emit (.flit p (encodeDataFlit x.txSeq f))).pumpData p fuel

/-- Send a data-lane message on a port: its header and data (R361). -/
def State.sendData (s : State) (p : PortId) (kind : Nat) (header : List Byte) (data : List SB) : State :=
  let s1 := (s.wakeDom (108 + p.val)).updPort p (fun x => { x with txData := x.txData ++ flitsOf (kindChannel kind) (msgOwner kind header) (clean header ++ data) })
  s1.pumpData p ((s1.port p).txData.length + 1)

/-- What a port with nothing to send puts on its lanes: null flits (R353, R354). -/
def State.nullFlits (s : State) : List PortId → State
  | [] => s
  | p :: l =>
    let x := s.port p
    let s1 := if s.portGated p then s else if (x.state = .active ∨ x.state = .measure) ∧ x.pickCtl.isNone then s.emit (.flit p (nullCtlFlit x.txCseq)) else s
    (if !(s.portGated p) ∧ x.state = .active ∧ x.pickData.isNone then s1.emit (.flit p (nullDataFlit x.txSeq)) else s1).nullFlits l

/-- A port's queues move on: after credits or acknowledgements arrive. -/
def State.pump (s : State) (p : PortId) : State :=
  let s1 := s.pumpCtl p ((s.port p).txCtl.length + 1)
  s1.pumpData p ((s1.port p).txData.length + 1)

/-- The port of the upstream link, if the device has one (R350). -/
def State.upstream (s : State) : Option PortId :=
  if s.link.upValid then allPorts.find? (fun p => decide (p.val = s.link.upPort)) else none

/-- The ports of the downstream tree links. -/
def State.downstream (s : State) : List PortId :=
  allPorts.filter (fun p => decide ((s.port p).state = .active) && decide ((s.port p).use = .downstream))

/-- Whether the device carries more than link-layer messages on its links (R372). -/
def State.serves (s : State) : Bool := !s.link.refused

/-- R351: the port of an ACTIVE link, tree or standby, to a neighbour, the lowest number; else a gated port that led there (R401), or none. -/
def State.peerPort (s : State) (dev : Nat) : Option PortId :=
  if s.link.role = 1 ∨ s.link.role = 2 then
    (allPorts.find? (fun p => decide ((s.port p).state = .active) && decide ((s.port p).partner = dev) &&
      decide ((s.port p).use ≠ .none) && s.serves)).or
    (allPorts.find? (fun p => s.portGated p && decide ((s.port p).state ≠ .active) && decide ((s.port p).partner = dev) &&
      decide ((s.port p).partnerRole ≠ 0) && s.serves))
  else none

/-- Set a bit of LNK_EVENT; with irq_en each sends the message of LNK_SYS_CFG (R375). -/
def State.linkEvent (s : State) (bit : Nat) : State :=
  let s1 := s.setReg Reg.lnkEvent (s.reg Reg.lnkEvent ||| BitVec.ofNat 64 (2 ^ bit))
  if s1.flag Reg.lnkSysCfg_irqEn then s1.sendMsix 0 (s1.fld Reg.lnkSysCfg_vector) else s1

/-- R366: whether the device is a Moon without an upstream path. -/
def State.noPath (s : State) : Bool := s.isMoon && s.upstream.isNone

end Sys2Proof.Machine
end

