-- ==== Sys2Proof/Machine/Access.lean ====
section
/-! DEFINITION. Tensor memory: which object and which copy an address reaches (R246 to R251, R306, R311), and what a read or
a write there does (R258, R278, R384 to R388). -/

namespace Sys2Proof.Machine

open Sys2Proof

/-- Who accesses tensor memory: a context, with the batch slot each window address resolves to (R306, R311); `noHost` marks a command
one of whose host reads has failed (R388). -/
structure View where
  ctx : CtxId
  bind : List (Nat × Nat) := []
  noHost : Bool := false
  deriving DecidableEq, Repr

/-- The ACTIVE batch slot of a model: 0 A, 1 B (R307). -/
def Model.activeSlot (m : Model) : Option Nat :=
  if m.stA = .active then some 0 else if m.stB = .active then some 1 else none

/-- The active slot of every model that has one (R308). -/
def State.activeBind (s : State) : List (Nat × Nat) :=
  s.models.filterMap (fun e => if e.2.valid then e.2.activeSlot.map (fun k => (e.1, k)) else none)

/-- The view of a host access: the slots that are ACTIVE now (R311). -/
def State.hostView (s : State) (c : CtxId) : View := { ctx := c, bind := s.activeBind }

/-- Whether the next read of host memory of a requester gets no completion, or one with an error status (R388).
(DESIGN CHOICE, assumption 42) -/
def State.lostFor (s : State) (c : CtxId) (e : Engine) (slot : Nat) : Bool := s.pcie.lostReads.contains (c, e, slot)

/-- The requester has made its read. -/
def State.dropLost (s : State) (c : CtxId) (e : Engine) (slot : Nat) : State :=
  { s with pcie := { s.pcie with lostReads := s.pcie.lostReads.filter (fun k => decide (k ≠ (c, e, slot))) } }

/-- The slot a view binds a model to. -/
def View.slotOf (v : View) (model : Nat) : Option Nat := (v.bind.find? (fun b => decide (b.1 = model))).map (·.2)

/-- Whether context c is a model's owner or in its share mask. -/
def Model.reaches (m : Model) (c : CtxId) : Bool := decide (m.owner = c) || m.share.getLsbD c.val

/-- R306: translate a window address; an address in no window of the context stays; a window bound to no slot gives none. -/
def State.translate (s : State) (v : View) (a : Nat) : Option Nat :=
  match List.find? (fun (e : Nat × Model) => e.2.valid && e.2.reaches v.ctx && decide (e.2.wbase * 4096 ≤ a) &&
      decide (a < (e.2.wbase + e.2.wsize) * 4096)) s.models with
  | none => some a
  | some (i, m) =>
    (v.slotOf i).map (fun k => (if k = 0 then m.baseA else m.baseB) * 4096 + (a - m.wbase * 4096))

/-- Whether context c may read an object (R247, R248). -/
def Obj.visible (o : Obj) (c : CtxId) : Bool := o.valid && (decide (o.owner = c) || o.share.getLsbD c.val)

/-- Whether an address lies in an object. -/
def Obj.holds (o : Obj) (a : Nat) : Bool := decide (o.base * 4096 ≤ a) && decide (a < (o.base + o.size) * 4096)

/-- The object of context c at an address. -/
def State.objAt (s : State) (c : CtxId) (a : Nat) : Option (Nat × Obj) :=
  List.find? (fun (e : Nat × Obj) => e.2.visible c && e.2.holds a) s.objs

/-- Where a byte of an object lies. `t2` names the physical flash page, if the page is programmed. -/
inductive Loc where
  | t0 (key : Nat)
  | t1 (key : Nat)
  | t2 (page : Option Nat) (off : Nat)
  | host (addr : Nat)
  | peer (port : PortId) (dev : Nat) (ctx : CtxId) (addr : Nat)
  deriving DecidableEq, Repr

/-- The tier of a place. -/
def Loc.tier : Loc → Nat
  | .t0 _ => 0 | .t1 _ => 1 | .t2 _ _ => 2 | _ => 3

/-- Whether a place lies in a peer's memory. -/
def Loc.isPeer : Loc → Bool
  | .peer .. => true
  | _ => false

/-- Whether a place lies in host memory. -/
def Loc.isHost : Loc → Bool
  | .host _ => true
  | _ => false

/-- The page-map key of flash page q of object idx (R280). -/
def pmapKey (idx q : Nat) : Nat := idx * 2 ^ 28 + q

/-- The physical page of flash page q of an object. -/
def State.physPage (s : State) (idx q : Nat) : Option Nat :=
  match SMap.get 0 s.pmap (pmapKey idx q) with
  | 0 => none
  | p + 1 => some p

/-- The home place of a byte of an object; none where the store fails: a die without calibration (R450), host memory with the
link down (R438), a peer that is no neighbour (R351). A gated endpoint is woken first (R399). -/
def State.homeLoc (s : State) (idx : Nat) (o : Obj) (off : Nat) : Option Loc :=
  match o.home with
  | 0 => some (.t0 (kT0 idx off))
  | 1 => some (.t1 (kT1 idx off))
  | 2 =>
    let p := s.physPage idx (off / 16384)
    if p.any (fun p => s.fac.calBad.getLsbD (p / 2 ^ 25)) then none else some (.t2 p (off % 16384))
  | 3 =>
    if o.t3Peer then (s.peerPort o.peerDev).map (fun p => .peer p o.peerDev o.peerCtx (o.loc.toNat % 2 ^ 40 * 4096 + off))
    else if s.pcie.linkUp || s.gated epDom then some (.host (o.loc.toNat % 2 ^ 52 * 4096 + off)) else none

/-- R258: the fastest valid copy's place of a byte of an object. -/
def State.readLoc (s : State) (idx : Nat) (o : Obj) (off : Nat) : Option Loc :=
  if o.cp0 then some (.t0 (kT0 idx off)) else if o.cp1 && decide (o.home ≠ 0) then some (.t1 (kT1 idx off))
  else s.homeLoc idx o off

/-- What an address reaches under R247: the object, its table index, and the byte offset in it; none is a fault. -/
def State.reach (s : State) (v : View) (a : Nat) : Option (Nat × Obj × Nat) :=
  if 2 ^ 52 ≤ a then none
  else
    (s.translate v a).bind (fun a' =>
      (s.objAt v.ctx a').bind (fun e => if e.2.inst then none else some (e.1, e.2, a' - e.2.base * 4096)))

/-- The place a read of an address is served from. -/
def State.readPlace (s : State) (v : View) (a : Nat) : Option Loc :=
  (s.reach v a).bind (fun r => s.readLoc r.1 r.2.1 r.2.2)

/-- The place a write of an address lands in (R258): a writable object of the writing context, in its upper copy or its home. -/
def State.writePlace (s : State) (v : View) (a : Nat) : Option Loc :=
  (s.reach v a).bind (fun r => if r.2.1.ro ∨ r.2.1.owner ≠ v.ctx then none else s.readLoc r.1 r.2.1 r.2.2)

/-! ### Reading -/

/-- The block state of a physical page's block (R284). -/
def State.blk (s : State) (b : Nat) : Blk := SMap.get {} s.blks b

/-- Whether a flash page reads back what was programmed: it lies below its block's pointer in an OPEN or FULL block, or in an UNDEFINED
one outside the word line of the interrupted page (R288). -/
def State.pageGood (s : State) (p : Nat) : Bool :=
  let b := s.blk (p / 2048)
  ((decide (b.state = .opened) || decide (b.state = .full)) && decide (p % 2048 < b.ptr)) ||
  (decide (b.state = .undefined) && decide (p % 2048 < (b.ptr - 1) / 4 * 4))

/-- R301: a block's disturb count crossed a limit: it is shown and logged. -/
def State.noteDisturb (s : State) (hit : Bool) (code p : Nat) : State :=
  if hit then (s.setFld Reg.fpcDisturb_lastBlk (p / 2048)).logEvent 2 code none (p / 2048 * 2048) 0 else s

/-- R301: a read of a physical page counts for its block; crossing 8 × 10^11 and 10^12 is marked and logged. -/
def State.countRead (s : State) (p : Nat) : State :=
  let b := s.blk (p / 2048)
  let n := min (2 ^ 40 - 1) (b.reads + 1)
  let warn := decide (800000000000 ≤ n) && !b.warn
  let isOver := decide (1000000000000 ≤ n) && !b.isOver
  let s1 := { s with blks := SMap.put {} s.blks (p / 2048) { b with reads := n, warn := b.warn || warn, isOver := b.isOver || isOver } }
  (s1.noteDisturb warn 4 p).noteDisturb isOver 5 p

/-- The retry levels a codeword needs (R278). (DESIGN CHOICE, assumption 5) -/
def State.cwRetries (s : State) (page off : Nat) : Nat := SMap.get 0 s.flashErr (page * 4 + off / 4096)

/-- The deposit key of a peer byte. -/
def depKey (dev : Nat) (c : CtxId) (a : Nat) : Nat := dev * 2 ^ 56 + c.val * 2 ^ 52 + a

/-- A byte of host memory, with the EP mark of the completion that carries it (R388). (DESIGN CHOICE, assumption 9) -/
def State.hostPeek (s : State) (a : Nat) : SB :=
  match SMap.find? s.hostMem a with
  | some b => (b, s.isPoison a)
  | none => (Config.hostByte a, Config.hostPoison (a / 8))

/-- What a read of a place delivers (R278, R385, R387, R388). A peer byte that has not arrived yet reads 0 here, and the step that
needs it asks the peer first (`State.missingPeer`). (DESIGN CHOICE, assumption 14) -/
def State.peekLoc (s : State) : Loc → SB
  | .t0 k => s.peek k
  | .t1 k => s.peek k
  | .t2 none off => (Config.flashByte off, false)
  | .t2 (some p) off =>
    if !s.pageGood p then (Config.flashByte (kFlash p off), false)
    else if 8 < s.cwRetries p off then (Config.corruptByte (kFlash p off) (s.peek (kFlash p off)).1, true)
    else ((s.peek (kFlash p off)).1, s.isPoison (kFlash p off))
  | .host a => s.hostPeek a
  | .peer _ d c a => (SMap.find? s.deposits (depKey d c a)).getD (0, false)

/-- A byte as a read of a tensor address delivers it; none is a fault, which delivers a poisoned element (R231). -/
def State.readByte (s : State) (v : View) (a : Nat) : Option SB := (s.readPlace v a).map s.peekLoc

/-- `n` bytes from a tensor address. -/
def State.readBytes (s : State) (v : View) (a n : Nat) : List (Option SB) :=
  (List.range n).map (fun i => s.readByte v (a + i))

/-- The bytes a consumer is given: a faulting byte is delivered poisoned. (DESIGN CHOICE, assumption 14) -/
def delivered (l : List (Option SB)) : List SB := l.zipIdx.map (fun b => b.1.getD (Config.poisonByte b.2, true))

/-- Whether a read faults anywhere. -/
def anyFault (l : List (Option SB)) : Bool := l.any (·.isNone)

/-- Whether any byte is poisoned. -/
def anyPoison (l : List SB) : Bool := l.any (·.2)

/-- A range of addresses cut at 4 KiB boundaries: (address, length) pairs. -/
def pieces : Nat → Nat → Nat → List (Nat × Nat)
  | 0, _, _ => []
  | fuel + 1, a, n =>
    if n = 0 then []
    else
      let k := min n (4096 - a % 4096)
      (a, k) :: pieces fuel (a + k) (n - k)

/-- The pieces of a range. -/
def piecesOf (a n : Nat) : List (Nat × Nat) := pieces (n / 4096 + 2) a n

/-- The words that `n` bytes from key `k` touch. -/
def wordsTouched (k n : Nat) : Nat := if n = 0 then 0 else (k + n - 1) / 8 + 1 - k / 8

/-- The NST banks of an object's T0 content, in rising order (R250). (DEDUCED, assumption 29) -/
def State.bankSet (s : State) (idx : Nat) : List Nat :=
  match SMap.find? s.objs idx with
  | some o => if o.home = 0 then setBitsBelow 32 o.loc.toNat else List.range 32
  | none => List.range 32

/-- The units of `size` bytes that `n` bytes from offset `off` touch. -/
def unitsOf (size off n : Nat) : List Nat := if n = 0 then [] else
  (List.range ((off + n - 1) / size + 1 - off / size)).map (off / size + ·)

/-- The clock domains of the memory that `n` bytes from a place lie in (R249, R250, R398): NST banks, DST controllers, WST stacks, the port
to a peer.
(DESIGN CHOICE, assumption 28; DEDUCED, assumption 29) -/
def State.memDoms (s : State) (n : Nat) : Loc → List Nat
  | .t0 k =>
    let b := s.bankSet ((k - 2 ^ 64) / 2 ^ 42)
    (unitsOf 256 (k % 2 ^ 42) n).map (fun u => 48 + b.getD (u % b.length) 0)
  | .t1 k => (unitsOf 1024 (k % 2 ^ 42) n).map (fun u => 102 + u % 32 / 16)
  | .t2 (some p) _ => [104 + p / 2 ^ 27]
  | .peer p _ _ _ => [108 + p.val]
  | .host _ => [epDom]
  | .t2 none _ => []

/-- R278: whether a page read needs a shifted read level: the base die decodes all 4 codewords of the page. -/
def State.pageRetried (s : State) (p : Nat) : Bool := (List.range 4).any (fun i => decide (0 < s.cwRetries p (4096 * i)))

/-- R278, R392: each codeword of a page read that fails at the last level is counted and logged. -/
def State.failedWords (s : State) (c : Option CtxId) (p : Nat) : List Nat → State
  | [] => s
  | i :: l =>
    (if 8 < s.cwRetries p (4096 * i) then (s.addFld Reg.fpcErr_uncorr 1).logEvent 2 1 c p i else s).failedWords c p l

/-- What one read of a flash page counts: the read, one page that needed a retry, every codeword that failed (R278, R301). -/
def State.pageRead (s : State) (c : Option CtxId) (p : Nat) : State :=
  let s1 := s.countRead p
  let s2 := if s1.pageRetried p then s1.addFld Reg.fpcErr_retries 1 else s1
  s2.failedWords c p (List.range 4)

/-- What one piece of a read at a place counts, for context c and at tensor address a: BCH words (R385), where `page` says so a flash
page read with its retries and failures (R278, R301), peer bytes asked for. -/
def State.notePlace (s0 : State) (c : CtxId) (place : Option Loc) (page : Bool) (a n : Nat) : State :=
  let s := s0.touch (place.elim [] (s0.memDoms n))
  match place with
  | some (.t0 k) => s.noteWords 0 (some c) (k / 8) (a - a % 8) (wordsTouched k n)
  | some (.t1 k) => s.noteWords 1 (some c) (k / 8) (a - a % 8) (wordsTouched k n)
  | some (.t2 (some p) _) => if page then s.pageRead (some c) p else s
  | some (.peer _ d pc b) =>
    if (List.range n).all (fun i => (SMap.find? s.deposits (depKey d pc (b + i))).isSome) then s
    else { s with link := { s.link with missing := s.link.missing ++ [(d, pc, b, n)] } }
  | _ => s

/-- Whether a place begins a flash page. -/
def pageStart : Option Loc → Bool
  | some (.t2 _ 0) => true
  | _ => false

/-- What one piece of a read counts: a read of consecutive addresses meets a flash page once. -/
def State.notePiece (s : State) (v : View) (first : Bool) (a n : Nat) : State :=
  s.notePlace v.ctx (s.readPlace v a) (first || pageStart (s.readPlace v a)) a n

/-- What a read of a range counts. -/
def State.noteReadL (s : State) (v : View) (first : Bool) : List (Nat × Nat) → State
  | [] => s
  | (a, n) :: l => (s.notePiece v first a n).noteReadL v false l

/-- What a read of `n` bytes counts. -/
def State.noteRead (s : State) (v : View) (a n : Nat) : State := s.noteReadL v true (piecesOf a n)

/-- What reading pieces counts beside flash page reads. -/
def State.notePlainL (s : State) (v : View) : List (Nat × Nat) → State
  | [] => s
  | (a, n) :: l => (s.notePlace v.ctx (s.readPlace v a) false a n).notePlainL v l

/-- The read of a list of flash pages. -/
def State.pageReads (s : State) (c : CtxId) : List Nat → State
  | [] => s
  | p :: l => (s.pageRead (some c) p).pageReads c l

/-- Whether an object is resident in tier t: its home lies there, or a valid copy (R258). -/
def Obj.residentIn (o : Obj) (t : Nat) : Bool := decide (o.home.val = t) || (decide (t = 0) && o.cp0) || (decide (t = 1) && o.cp1)

/-- Whether the object an address reaches is resident in tier t. -/
def State.residentAt (s : State) (v : View) (t a : Nat) : Bool := (s.reach v a).any (fun r => r.2.1.residentIn t)

/-! ### Writing -/

/-- The place's object marked dirty when its upper copy is written (R258). -/
def State.markDirty (s : State) (idx : Nat) : State :=
  match SMap.find? s.objs idx with
  | none => s
  | some o => if (o.cp0 && decide (o.home ≠ 0)) || (o.cp1 && decide (o.home ≠ 1)) then
      { s with objs := SMap.insert s.objs idx { o with dirty := true } } else s

/-- Store bytes in host memory: a poisoned word is sent with EP set and stays marked, a whole clean word clears the mark (R388). -/
def State.hostStore (s : State) (a : Nat) (data : List SB) : State :=
  let s1 := { s with hostMem := (data.zipIdx).foldl (fun (m : SMap Byte) (p : SB × Nat) => SMap.insert m (a + p.2) p.1.1) s.hostMem }
  (s1.markWords a data data.length)

/-- A peer write leaves as a WRITE message (R361); its answer is awaited by the command it serves. -/
def State.peerWrite (s : State) (c : CtxId) (e : Engine) (slot : Nat) (p : PortId) (dev : Nat) (pc : CtxId) (a : Nat)
    (data : List SB) : State :=
  let tag := (s.port p).nextTag
  let s1 := s.updPort p (fun x => { x with nextTag := (tag + 1) % 65536 })
  let r : PeerReq := { port := p, tag := tag, ctx := c, eng := e, slot := slot, stream := false, dev := dev, peerCtx := pc,
                       addr := a, len := data.length, write := true }
  let s2 := { s1 with link := { s1.link with peerReqs := s1.link.peerReqs ++ [r] } }
  s2.sendData p 2 (dataHeader 2 c.val pc.val 0 tag data.length a) data

/-- R265: what is written to a peer reaches what a migration has read, or asked for, of the same bytes. -/
def State.overlay (s : State) (dev : Nat) (pc : CtxId) (a : Nat) (data : List SB) : State :=
  let hits := fun (r : PeerReq) => !r.write && !r.stream && decide (r.eng = .tmv) && decide (2 ^ 21 ≤ r.slot) && decide (r.dev = dev) &&
    decide (r.peerCtx = pc)
  let part := fun (r : PeerReq) => ((data.zipIdx).map (fun d => (a + d.2, d.1))).filter (fun d => decide (r.addr ≤ d.1) && decide (d.1 < r.addr + r.len))
  let k := depKey dev pc a
  { s with
    link := { s.link with peerReqs := s.link.peerReqs.map (fun r => if hits r then { r with newer := r.newer ++ part r } else r) }
    deposits := s.deposits.map (fun e => if k ≤ e.1 then (e.1, data.getD (e.1 - k) e.2) else e) }

/-- Write one piece of a range; a fault writes nothing and is reported. `who` is the engine and slot of the writing command. -/
def State.writePiece (s : State) (v : View) (who : Engine × Nat) (a : Nat) (data : List SB) : State × Bool :=
  match s.reach v a, s.writePlace v a with
  | some (idx, _, _), some loc =>
    let s1 := s.touch (s.memDoms data.length loc)
    match loc with
    | .t0 k => ((s1.store k data).markDirty idx, true)
    | .t1 k => ((s1.store k data).markDirty idx, true)
    | .host h => (s.hostStore h data, true)
    | .peer p d c b => ((s.overlay d c b data).peerWrite v.ctx who.1 who.2 p d c b data, true)
    | .t2 _ _ => (s, false)
  | _, _ => (s, false)

/-- Write the pieces of a range in order; every piece that can be written is. (DESIGN CHOICE, assumption 26) -/
def State.writeL (s : State) (v : View) (who : Engine × Nat) : List (Nat × Nat) → List SB → State × Bool
  | [], _ => (s, true)
  | (a, n) :: l, data =>
    let r := s.writePiece v who a (data.take n)
    let q := r.1.writeL v who l (data.drop n)
    (q.1, r.2 && q.2)

/-- Write bytes with their poison marks at a tensor address; false: some of it faulted and was not written (R237, R247). -/
def State.writeBytes (s : State) (v : View) (who : Engine × Nat) (a : Nat) (data : List SB) : State × Bool :=
  s.writeL v who (piecesOf a data.length) data

/-- Whether every byte of a range can be written. -/
def State.canWrite (s : State) (v : View) (a n : Nat) : Bool :=
  (piecesOf a n).all (fun p => (s.writePlace v p.1).isSome)

/-- Whether every byte of a range can be read. -/
def State.canRead (s : State) (v : View) (a n : Nat) : Bool :=
  (piecesOf a n).all (fun p => (s.readPlace v p.1).isSome)

/-- Whether any of a range is read from host memory. -/
def State.readsHost (s : State) (v : View) (a n : Nat) : Bool :=
  (piecesOf a n).any (fun p => (s.readPlace v p.1).any Loc.isHost)

/-! ### Peer reads that a command needs -/

/-- Ask the peers for the bytes a command found missing: one READ per range (R361), each awaited. -/
def State.askPeers (s : State) (c : CtxId) (e : Engine) (slot : Nat) : List (Nat × CtxId × Nat × Nat) → State
  | [] => s
  | (dev, pc, a, n) :: l =>
    let s' := match s.peerPort dev with
      | none => s
      | some p =>
        let tag := (s.port p).nextTag
        let s1 := s.updPort p (fun x => { x with nextTag := (tag + 1) % 65536 })
        let r : PeerReq := { port := p, tag := tag, ctx := c, eng := e, slot := slot, stream := false, dev := dev,
                             peerCtx := pc, addr := a, len := n, write := false }
        let s2 := { s1 with link := { s1.link with peerReqs := s1.link.peerReqs ++ [r] } }
        s2.sendData p 1 (dataHeader 1 c.val pc.val 0 tag n a) []
    s'.askPeers c e slot l

/-- Run work `f` for queue slot `slot` of a context and engine; `ds` are the domains it needs beside the memories it reaches. Where it
meets a gated domain it stalls (R401). Where it meets peer bytes that have not arrived, the work is put off: the peers are asked and
nothing else happens until its next turn; otherwise its work stands and the bytes that came for it are spent. -/
def State.awaitPeers (s : State) (ds : List Nat) (c : CtxId) (e : Engine) (slot : Nat) (f : State → State) : State :=
  s.orStall (fun s =>
    let t := f (s.touch ds)
    if t.link.missing.isEmpty then { t with deposits := if s.deposits.isEmpty then t.deposits else [] }
    else if s.link.peerReqs.any (fun r => decide (r.ctx = c) && decide (r.eng = e) && decide (r.slot = slot) && !r.write && !r.stream) then s
    else s.askPeers c e slot t.link.missing)

/-- `tryOnce` for work that may read a peer's memory: the bytes that have not arrived are asked for first. -/
def State.tryPeers (s : State) (c : CtxId) (e : Engine) (slot : Nat) (f : State → State) : State × Bool :=
  let r := s.tryOnce f
  if !r.2 then r
  else if r.1.link.missing.isEmpty then ({ r.1 with deposits := if s.deposits.isEmpty then r.1.deposits else [] }, true)
  else if s.link.peerReqs.any (fun r => decide (r.ctx = c) && decide (r.eng = e) && decide (r.slot = slot) && !r.write && !r.stream) then
    (s, false)
  else (s.askPeers c e slot r.1.link.missing, false)

/-- Run the work of a command on its engine. -/
def State.withPeers (s : State) (c : CtxId) (e : Engine) (slot : Nat) (f : State → State) : State :=
  s.awaitPeers (engineDoms e) c e slot f

/-! ### Writes through the tensor aperture (R25, R436) -/

/-- The queue slot under which the messages of aperture accesses run. -/
def aptSlot : Nat := 2 ^ 20 + 3

/-- The slot under which an order's reads of a peer run. -/
def instSlot : Nat := 2 ^ 20 + 4

/-- The slot under which the reads that a port's neighbour asks for run. -/
def peerSlot (p : PortId) : Nat := 2 ^ 20 + 16 + p.val

/-- A faulting aperture access counts. -/
def State.aptFault (s : State) (c : CtxId) : State := s.addFld (Reg.ctxAptStat_faults.at c) 1

/-- One aperture write lands, is discarded and counted where it faults, or meets a gated domain. -/
def State.aptLand (s : State) (w : AptWrite) : State × Bool :=
  s.tryOnce (fun s =>
    let v := s.hostView w.ctx
    if s.canWrite v w.addr w.data.length then (s.writeBytes v (.tmv, aptSlot) w.addr w.data).1 else s.aptFault w.ctx)

end Sys2Proof.Machine
end

