-- ==== Sys2Proof/Machine/Flags.lean ====
section
/-! DEFINITION. Statuses, divergence counts and what a running command reports: the device's flag computations (R13, R14, R204,
R332, R335, R339 to R341). -/

namespace Sys2Proof.Machine

open Sys2Proof

/-- Every status of R13. -/
def allStatus : List Status :=
  [.ok, .okRerunWide, .okTolerant, .duplicate, .illegalCommand, .cafGroupLimit, .armBusy, .poisoned, .decodeCheck, .pairingMismatch,
   .tierFault, .tierLate, .quota, .linkLost, .weightsUnavailable, .aborted]

/-- The status of a code; a code of none stands for OK. -/
def Status.ofCode (n : Nat) : Status := (allStatus.find? (fun x => decide (x.code = n))).getD .ok

/-- R335: count `n` divergence events of a source code in a context. -/
def State.div (s : State) (c : CtxId) (code n : Nat) : State :=
  let src : Fld := ⟨ctxBase c + Reg.ctxDivSrc + 8 * (code / 4), 16 * (code % 4), 16⟩
  if n = 0 then s else (s.addFld (Reg.ctxDivCount_count.at c) n).addFld src n

/-- R14, R204 over the data conditions met: the highest status applies; the detail is the number of output elements written
poisoned, or the port for LINK_LOST. -/
def reportOf (sts : List Status) (poisoned port : Nat) : Report :=
  let st := sts.foldl Status.worse .ok
  match st with
  | .ok | .okTolerant | .okRerunWide => { status := st }
  | .linkLost => { status := st, detail := port }
  | _ => { status := st, detail := min 0xFFFF poisoned }

/-- The lowest position whose check fails, if any: the detail of R204. (DEDUCED, assumption 17) -/
def lowestBad (l : List (Nat × Bool)) : Option Nat := ((l.filter (·.2)).map (·.1)).min?

/-- A command rejected with a class 0x2_ status at command start (R15): detail is the lowest illegal bit, or 0xFFFF. -/
def rejected (st : Status) (detail : Nat) : Report := { status := st, detail := min 0xFFFF detail }

/-- R14 on two reports of one command: the higher status with its detail; flags add up. -/
def Report.join (q r : Report) : Report :=
  { (if q.status.code < r.status.code then r else q) with
    tolerant := r.tolerant || q.tolerant, rerunWide := r.rerunWide || q.rerunWide }

/-- Record what an engine reports of a command, with the conditions its peer accesses met before (R14). -/
def State.report (s : State) (c : CtxId) (e : Engine) (slot : Nat) (r : Report) : State :=
  s.updExec c e slot (fun x => { x with
    started := true
    early := []
    result := some ((x.early.map (fun p =>
        { status := p.1, detail := if p.1 = .linkLost then p.2 else r.detail : Report })).foldl Report.join
      (match x.result with | none => r | some q => q.join r)) })

/-- Record the output image's digest, length in bytes, format, exponent and poison mark for the Tail (R339 to R341). -/
def State.image (s : State) (c : CtxId) (e : Engine) (slot : Nat) (img : List Byte) (fmt : Nat) (exp : Nat) (poisoned : Bool) :
    State :=
  s.updExec c e slot (fun x => { x with
    digest := crc64 img, digLen := img.length, digFmt := fmt, digE := exp, digPoison := poisoned })

/-- A word of a queue entry. -/
def Entry.word (e : Entry) (i : Nat) : W64 := e.getD i 0

/-- A field of a queue entry by its lowest bit position among the entry's 512 bits (R204). -/
def Entry.pos (e : Entry) (p width : Nat) : Nat := wBits (e.word (p / 64)) (p % 64) width

/-- A field of a queue entry. -/
def Entry.fld (e : Entry) (i lo width : Nat) : Nat := wBits (e.word i) lo width

/-- A one-bit field of a queue entry. -/
def Entry.bit (e : Entry) (i lo : Nat) : Bool := wBit (e.word i) lo

/-! The common header (R187). -/

/-- The opcode. -/
def Entry.opcode (e : Entry) : Nat := e.fld 0 0 8
/-- The request tag. -/
def Entry.tag (e : Entry) : W64 := e.word 1
/-- The request number. -/
def Entry.reqNum (e : Entry) : Nat := e.fld 1 16 48
/-- Increment of signal k. -/
def Entry.sigInc (e : Entry) (k : Nat) : Nat := e.fld 0 (40 + 8 * k) 8
/-- Counter of signal k. -/
def Entry.sigIdx (e : Entry) (k : Nat) : Nat := e.fld 0 (24 + 8 * k) 8
/-- Whether signal k names a system counter. -/
def Entry.sigSys (e : Entry) (k : Nat) : Bool := e.bit 0 (13 + k)
/-- Whether the command waits. -/
def Entry.waitEn (e : Entry) : Bool := e.bit 0 11
/-- Whether the wait names a system counter. -/
def Entry.waitSys (e : Entry) : Bool := e.bit 0 12
/-- The counter waited on. -/
def Entry.waitIdx (e : Entry) : Nat := e.fld 0 16 8
/-- The target of the wait. -/
def Entry.waitTarget (e : Entry) : BitVec 32 := BitVec.ofNat 32 (e.fld 7 8 32)
/-- The layer identifier. -/
def Entry.layerId (e : Entry) : Nat := e.fld 7 40 16
/-- Whether the record counts toward an MSI-X message. -/
def Entry.irq (e : Entry) : Bool := e.bit 0 15
/-- Whether the command ends its request. -/
def Entry.reqEnd (e : Entry) : Bool := e.bit 0 56
/-- Whether CTX_STEP advances when the command signals. -/
def Entry.stepAdv (e : Entry) : Bool := e.bit 0 57
/-- Whether the output is digested into the Tail. -/
def Entry.tail (e : Entry) : Bool := e.bit 0 58

/-! ### Sync counters (R188, R199 to R201) -/

/-- A context counter. -/
def State.syncVal (s : State) (c : CtxId) (n : Nat) : BitVec 32 := SMap.get 0 (s.ctx c).sync n

/-- The context assigned a system counter's group (R200). -/
def State.sysOwner (s : State) (n : Nat) : Nat := wBits (s.reg Reg.devSyscntOwn) (4 * (n / 16)) 4

/-- R200: whether context c owns system counter n and its group is enabled. -/
def State.sysOk (s : State) (c : CtxId) (n : Nat) : Bool :=
  Nat.testBit (s.fld Reg.devSyscntEn_en) (n / 16) && decide (s.sysOwner n = c.val)

/-- R188: whether a counter value releases a wait. -/
def waitReleased (value target : BitVec 32) : Bool := decide ((value - target).toNat < 2 ^ 31)

/-- Whether an entry's wait is met now (R188). -/
def State.waitMet (s : State) (c : CtxId) (e : Entry) : Bool :=
  !e.waitEn ||
  waitReleased (if e.waitSys then SMap.get 0 s.sysCnt e.waitIdx else s.syncVal c e.waitIdx) e.waitTarget

/-- A held head whose wait is met is released, and stays so. (DEDUCED, assumption 30) -/
def State.releaseHead (s : State) (c : CtxId) (q : Queue) : Queue :=
  match q.dec with
  | .held w false f => if s.waitMet c w then { q with dec := .held w true f } else q
  | _ => q

/-- Release every held head whose wait is met (R188, R23). -/
def State.release (s : State) : State :=
  { s with ctxs := Vector.ofFn (fun c => { s.ctx c with queues := (s.ctx c).queues.map (s.releaseHead c) }) }

/-- Set a context counter and release its waiters. -/
def State.setSync (s : State) (c : CtxId) (n : Nat) (v : BitVec 32) : State :=
  (s.updCtx c (fun x => { x with sync := SMap.put 0 x.sync n v })).release

/-- R199: add to a context counter, modulo 2^32. -/
def State.scnAdd (s : State) (c : CtxId) (n inc : Nat) : State := s.setSync c n (s.syncVal c n + BitVec.ofNat 32 inc)

/-- A SYNC_VAL message (R355). -/
def syncValMsg (n : Nat) (v : BitVec 32) : W64 := ctlMsg 7 [(4, n), (12, v.toNat)]

/-- A SYNC_INC message (R355). -/
def syncIncMsg (n inc : Nat) : W64 := ctlMsg 6 [(4, n), (12, inc % 2 ^ 32)]

/-- Send a control message on each of a list of ports. -/
def State.sendCtlAll (s : State) (m : W64) : List PortId → State
  | [] => s
  | p :: l => (s.sendCtl p m).sendCtlAll m l

/-- Set the value of a system counter; the Planet sends it down to every device (R201). -/
def State.setSys (s : State) (n : Nat) (v : BitVec 32) : State :=
  let s1 := ({ s with sysCnt := SMap.put 0 s.sysCnt n v }).release
  if s.isPlanet then s1.sendCtlAll (syncValMsg n v) s1.downstream else s1

/-- R201: an increment made on this device: a Moon sends it to the Planet, every other device applies it. -/
def State.sysAdd (s : State) (n inc : Nat) : State :=
  if s.isMoon then
    match s.upstream with
    | some p => s.sendCtl p (syncIncMsg n inc)
    | none => s
  else s.setSys n (SMap.get 0 s.sysCnt n + BitVec.ofNat 32 inc)

/-- R201: an increment that a command of context c signals: a replay of the flit that carries it from a Moon touches the context (R335). -/
def State.sysSignal (s : State) (c : CtxId) (n inc : Nat) : State :=
  match s.isMoon, s.upstream with
  | true, some p => (s.updPort p (fun x => { x with qown := if x.qown.contains (n, c) then x.qown else x.qown ++ [(n, c)] })).sysAdd n inc
  | _, _ => s.sysAdd n inc

/-- The checks of the common header of an entry in a queue of engine `eng` of context c (R10, R187): the lowest illegal position.
(DEDUCED, assumption 17) -/
def State.headerIllegal (s : State) (c : CtxId) (eng : Engine) (e : Entry) : Option Nat :=
  lowestBad
    [(8, decide (e.fld 0 8 3 ≠ eng.code.val)), (12, e.waitEn && e.waitSys && !(s.sysOk c e.waitIdx)),
     (13, decide (e.sigInc 0 ≠ 0) && e.sigSys 0 && !(s.sysOk c (e.sigIdx 0))),
     (14, decide (e.sigInc 1 ≠ 0) && e.sigSys 1 && !(s.sysOk c (e.sigIdx 1))),
     (59, decide (e.fld 0 59 5 ≠ 0)), (449, decide (e.fld 7 1 7 ≠ 0)), (504, decide (e.fld 7 56 8 ≠ 0))]

/-- Whether an entry signals a system counter. -/
def Entry.signalsSys (e : Entry) : Bool :=
  (e.sigSys 0 && decide (e.sigInc 0 ≠ 0)) || (e.sigSys 1 && decide (e.sigInc 1 ≠ 0))

/-- Apply signal k of a command; `sys` says whether system signals apply (R337, R366). A command that is rejected because a system counter is
not its context's signals it all the same (R15, R204). (DEDUCED, assumption 96) -/
def State.signalOne (s : State) (c : CtxId) (e : Entry) (sys : Bool) (k : Nat) : State :=
  if e.sigInc k = 0 then s
  else if e.sigSys k then (if sys then s.sysSignal c (e.sigIdx k) (e.sigInc k) else s)
  else s.scnAdd c (e.sigIdx k) (e.sigInc k)

/-- The system signals of a command alone, in order (R366). -/
def State.signalSys (s : State) (c : CtxId) (e : Entry) : State :=
  let one := fun (s : State) (k : Nat) => if e.sigSys k then s.signalOne c e true k else s
  one (one s 0) 1

/-- R199, R332: a command's signals, 0 then 1, and CTX_STEP when step_adv is set. -/
def State.signal (s : State) (c : CtxId) (e : Entry) (sys : Bool) : State :=
  let s1 := (s.signalOne c e sys 0).signalOne c e sys 1
  if e.stepAdv then s1.setReg (ctxBase c + Reg.ctxStep) (s1.reg (ctxBase c + Reg.ctxStep) + 1) else s1

end Sys2Proof.Machine
end

