-- ==== Sys2Proof/Machine/Fp.lean ====
section
/-! DEFINITION. Exact values, the storage formats of R37, the rounding of R39, FP32 arithmetic (R40, R489)
and the conversions of R44 and R45. -/

namespace Sys2Proof.Machine

/-- An exact value: a NaN with its sign, an infinity, or ±m × 2^e (the sign matters for zero). -/
inductive Val where
  | nan (neg : Bool)
  | inf (neg : Bool)
  | fin (neg : Bool) (m : Nat) (e : Int)
  deriving DecidableEq, Repr

namespace Val

/-- An integer times a power of two. -/
def ofInt (i : Int) (e : Int) : Val := .fin (decide (i < 0)) i.natAbs e

/-- +0. -/
def zero : Val := .fin false 0 0

/-- The sign. -/
def isNeg : Val → Bool
  | .nan n => n | .inf n => n | .fin n _ _ => n

/-- Is it a NaN? -/
def isNan : Val → Bool
  | .nan _ => true | _ => false

/-- Is it a zero of either sign? -/
def isZero : Val → Bool
  | .fin _ m _ => m == 0 | _ => false

/-- Sign inverted. -/
def neg : Val → Val
  | .nan n => .nan (!n) | .inf n => .inf (!n) | .fin n m e => .fin (!n) m e

/-- Magnitude. -/
def abs : Val → Val
  | .nan _ => .nan false | .inf _ => .inf false | .fin _ m e => .fin false m e

/-- Scaled exactly by 2^k. -/
def scale (v : Val) (k : Int) : Val :=
  match v with
  | .fin n m e => .fin n m (e + k)
  | v => v

/-- The signed integer coefficient at exponent `e0`, for `e0` not above the value's exponent. -/
def coeffAt (n : Bool) (m : Nat) (e e0 : Int) : Int :=
  let c : Int := (m * 2 ^ (e - e0).toNat : Nat)
  if n then -c else c

/-- Is the first value strictly below the second? Not meaningful for NaN; −0 equals +0. -/
def lt : Val → Val → Bool
  | .fin n m e, .fin n' m' e' =>
    let e0 := min e e'
    decide (coeffAt n m e e0 < coeffAt n' m' e' e0)
  | .inf n, .inf n' => n && !n'
  | .inf n, .fin _ _ _ => n
  | .fin _ _ _, .inf n => !n
  | _, _ => false

/-- The exact sum, with the zero and NaN rules of R40 and R489 (`a` is the first operand). -/
def add : Val → Val → Val
  | .nan n, _ => .nan n
  | _, .nan n => .nan n
  | .inf n, .inf n' => if n = n' then .inf n else .nan false
  | .inf n, _ => .inf n
  | _, .inf n => .inf n
  | .fin n m e, .fin n' m' e' =>
    let e0 := min e e'
    let s := coeffAt n m e e0 + coeffAt n' m' e' e0
    if s = 0 then .fin (n && n' && m == 0 && m' == 0) 0 0 else .fin (decide (s < 0)) s.natAbs e0

/-- The exact difference: a NaN operand counts by its own sign (R489). -/
def sub (a b : Val) : Val :=
  match a, b with
  | .nan n, _ => .nan n
  | _, .nan n => .nan n
  | a, b => add a (neg b)

/-- The exact product (R40, R489). -/
def mul : Val → Val → Val
  | .nan n, _ => .nan n
  | _, .nan n => .nan n
  | .inf n, .inf n' => .inf (n != n')
  | .inf n, .fin n' m _ => if m = 0 then .nan false else .inf (n != n')
  | .fin n m _, .inf n' => if m = 0 then .nan false else .inf (n != n')
  | .fin n m e, .fin n' m' e' => .fin (n != n') (m * m') (e + e')

/-- `round_ta`: the nearest integer, ties away from zero (R39); 0 for what is not finite. -/
def toIntTa : Val → Int
  | .fin n m e =>
    let r := scaleInt (m : Int) e
    if n then -r else r
  | _ => 0

end Val

/-- A binary floating-point storage format: significand bits with the hidden one, the exponent of the
last place of the subnormals, and the largest exponent of a leading one. -/
structure FpFmt where
  prec : Nat
  qmin : Int
  emax : Int
  deriving DecidableEq, Repr

/-- IEEE 754 binary32. -/
def fp32Fmt : FpFmt := ⟨24, -149, 127⟩
/-- BF16. -/
def bf16Fmt : FpFmt := ⟨8, -133, 127⟩
/-- FP8 E4M3: the largest finite value is 448, checked apart (its top code is the NaN). -/
def e4m3Fmt : FpFmt := ⟨4, -9, 8⟩
/-- FP8 E5M2. -/
def e5m2Fmt : FpFmt := ⟨3, -16, 15⟩

/-- A finite magnitude rounded to a format by R39, with no upper limit on the exponent. -/
def roundMag (f : FpFmt) (m : Nat) (e : Int) : Nat × Int :=
  if m = 0 then (0, 0)
  else
    let q : Int := max (e + (bitLen m : Int) - (f.prec : Int)) f.qmin
    if q ≤ e then (m * 2 ^ (e - q).toNat, q) else (roundShiftNat m (q - e).toNat, q)

/-- Is a magnitude at or above 2^k? -/
def magGePow (m : Nat) (e k : Int) : Bool :=
  decide (m ≠ 0 ∧ k < e + (bitLen m : Int))

/-- Rounding to a format that has infinities: too large a magnitude becomes an infinity (R39, R45). -/
def roundVal (f : FpFmt) : Val → Val
  | .fin n m e =>
    let r := roundMag f m e
    if magGePow r.1 r.2 (f.emax + 1) then .inf n else .fin n r.1 r.2
  | v => v

/-- The IEEE-style code of a value already rounded to a format with `ebits` exponent bits. -/
def encodeIeee (f : FpFmt) (ebits : Nat) (v : Val) : Nat :=
  let mb := f.prec - 1
  let w := ebits + mb
  match v with
  | .nan n => b2n n * 2 ^ w + ((2 ^ ebits - 1) * 2 ^ mb + 2 ^ (mb - 1))
  | .inf n => b2n n * 2 ^ w + (2 ^ ebits - 1) * 2 ^ mb
  | .fin n m e =>
    -- the coefficient at the subnormals' last place, or at the value's own
    let k : Int := e - f.qmin
    let c := m * 2 ^ k.toNat
    let l := bitLen c
    if l ≤ mb then b2n n * 2 ^ w + c
    else b2n n * 2 ^ w + ((l - mb) * 2 ^ mb + (c / 2 ^ (l - mb - 1) - 2 ^ mb))

/-- The value of an IEEE-style code. -/
def decodeIeee (f : FpFmt) (ebits : Nat) (c : Nat) : Val :=
  let mb := f.prec - 1
  let n := Nat.testBit c (ebits + mb)
  let ex := bitsOf c mb ebits
  let man := bitsOf c 0 mb
  if ex = 2 ^ ebits - 1 then (if man = 0 then .inf n else .nan n)
  else if ex = 0 then .fin n man f.qmin
  else .fin n (2 ^ mb + man) (f.qmin + ((ex : Int) - 1))

/-- An FP32 bit pattern. -/
abbrev F32 := BitVec 32

/-- The value of an FP32 pattern. -/
def F32.val (x : F32) : Val := decodeIeee fp32Fmt 8 x.toNat

/-- A value rounded to FP32 by R39. -/
def f32OfVal (v : Val) : F32 := BitVec.ofNat 32 (encodeIeee fp32Fmt 8 (roundVal fp32Fmt v))

/-- FP32 addition, rounded by R40. -/
def f32Add (a b : F32) : F32 := f32OfVal (Val.add (F32.val a) (F32.val b))
/-- FP32 subtraction, rounded by R40. -/
def f32Sub (a b : F32) : F32 := f32OfVal (Val.sub (F32.val a) (F32.val b))
/-- FP32 multiplication, rounded by R40. -/
def f32Mul (a b : F32) : F32 := f32OfVal (Val.mul (F32.val a) (F32.val b))
/-- A power-of-two scaling, rounded once by R39. -/
def f32Scale (a : F32) (k : Int) : F32 := f32OfVal ((F32.val a).scale k)
/-- An integer as FP32. -/
def f32OfInt (i : Int) : F32 := f32OfVal (Val.ofInt i 0)
/-- An FP32 value rounded to BF16 by R39, as a code. -/
def bf16OfVal (v : Val) : Nat := encodeIeee bf16Fmt 8 (roundVal bf16Fmt v)

/-- The storage formats of R37. -/
inductive Fmt where
  | int4 | int8 | uint8 | int16 | e4m3 | e5m2 | bf16 | fp32 | int32 | acc64
  deriving DecidableEq, Repr

namespace Fmt

/-- The format a code of R37 names; 0xA to 0xF name none. -/
def ofCode : Nat → Option Fmt
  | 0 => some .int4 | 1 => some .int8 | 2 => some .uint8 | 3 => some .int16 | 4 => some .e4m3
  | 5 => some .e5m2 | 6 => some .bf16 | 7 => some .fp32 | 8 => some .int32 | 9 => some .acc64
  | _ => none

/-- The code of R37. -/
def code : Fmt → Nat
  | .int4 => 0 | .int8 => 1 | .uint8 => 2 | .int16 => 3 | .e4m3 => 4
  | .e5m2 => 5 | .bf16 => 6 | .fp32 => 7 | .int32 => 8 | .acc64 => 9

/-- Bits of one element. -/
def bits : Fmt → Nat
  | .int4 => 4 | .int8 => 8 | .uint8 => 8 | .int16 => 16 | .e4m3 => 8
  | .e5m2 => 8 | .bf16 => 16 | .fp32 => 32 | .int32 => 32 | .acc64 => 64

/-- An integer format? -/
def isInt : Fmt → Bool
  | .e4m3 | .e5m2 | .bf16 | .fp32 => false
  | _ => true

/-- BF16 and FP32 carry exponent 0 whatever the header says (R42). -/
def noScale : Fmt → Bool
  | .bf16 | .fp32 => true
  | _ => false

/-- The largest magnitude a conversion produces for a signed target with a scale (R46). -/
def qmax : Fmt → Nat
  | .int4 => 7 | .int8 => 127 | .uint8 => 255 | .int16 => 32767 | .e4m3 => 448 | .e5m2 => 57344
  | .bf16 => 0 | .fp32 => 0 | .int32 => 2147483647 | .acc64 => 9223372036854775807

end Fmt

/-- The integer an integer format's storage code stands for. -/
def intOfCode (f : Fmt) (c : Nat) : Int :=
  match f with
  | .uint8 => ((c % 256 : Nat) : Int)
  | f => signed f.bits c

/-- The value of a storage code: integers less the zero point for UINT8, times 2^e (R41, R42). -/
def valOfCode (f : Fmt) (z : Nat) (e : Int) (c : Nat) : Val :=
  match f with
  | .e4m3 =>
    if bitsOf c 0 7 = 127 then .nan (Nat.testBit c 7)
    else
      let ex := bitsOf c 3 4
      let man := bitsOf c 0 3
      if ex = 0 then .fin (Nat.testBit c 7) man (-9 + e)
      else .fin (Nat.testBit c 7) (8 + man) (-9 + ((ex : Int) - 1) + e)
  | .e5m2 => (decodeIeee e5m2Fmt 5 c).scale e
  | .bf16 => decodeIeee bf16Fmt 8 c
  | .fp32 => decodeIeee fp32Fmt 8 c
  | .uint8 => Val.ofInt (intOfCode .uint8 c - (z : Int)) e
  | f => Val.ofInt (intOfCode f c) e

/-- What a conversion adds to the statistics of R48. -/
inductive Stat where
  | none | clip | zero | both | nan
  deriving DecidableEq, Repr

/-- The code of a finite value in an FP8 format after rounding, with saturation (R45); a nonzero value that rounds to −0 counts as one that
became 0 (R48). (DEDUCED, assumption 98) -/
def convFp8 (f : FpFmt) (top topCode : Nat) (n : Bool) (m : Nat) (e : Int) : Nat × Stat :=
  let r := roundMag f m e
  let sgn := b2n n * 128
  if decide ((top : Int) < scaleInt (r.1 : Int) r.2) then (sgn + topCode, .clip)
  else
    let c := r.1 * 2 ^ (r.2 - f.qmin).toNat
    let mb := f.prec - 1
    let l := bitLen c
    let mag := if l ≤ mb then c else (l - mb) * 2 ^ mb + (c / 2 ^ (l - mb - 1) - 2 ^ mb)
    (sgn + mag, if r.1 = 0 ∧ m ≠ 0 then .zero else .none)

/-- What an element saturated to the end `x` of the range counts as (R48): a saturated element is not zero in its source, so at an end
that is the code of 0 (a UINT8 zero point of 0 or 255) it counts as clipped and as quantised to zero. -/
def endStat (x z : Int) : Stat := if x = z then .both else .clip

/-- The conversion of R44 with the special cases of R45: the storage code, and what it counts as. -/
def convert (t : Fmt) (z : Nat) (e : Int) (v : Val) : Nat × Stat :=
  match t with
  | .bf16 =>
    (bf16OfVal v,
      match v, roundVal bf16Fmt v with
      | .nan _, _ => .nan
      | .fin _ _ _, .inf _ => .clip
      | .fin _ m _, .fin _ m' _ => if m ≠ 0 ∧ m' = 0 then .zero else .none
      | _, _ => .none)
  | .fp32 =>
    (encodeIeee fp32Fmt 8 (roundVal fp32Fmt v),
      match v, roundVal fp32Fmt v with
      | .nan _, _ => .nan
      | .fin _ _ _, .inf _ => .clip
      | .fin _ m _, .fin _ m' _ => if m ≠ 0 ∧ m' = 0 then .zero else .none
      | _, _ => .none)
  | .e4m3 =>
    match v.scale (-e) with
    | .nan n => (b2n n * 128 + 127, .nan)
    | .inf n => (b2n n * 128 + 126, .clip)
    | .fin n m k => convFp8 e4m3Fmt 448 126 n m k
  | .e5m2 =>
    match v.scale (-e) with
    | .nan n => (b2n n * 128 + 127, .nan)
    | .inf n => (b2n n * 128 + 123, .clip)
    | .fin n m k => convFp8 e5m2Fmt 57344 123 n m k
  | t =>
    let zi : Int := if t = .uint8 then (z : Int) else 0
    let lo : Int := if t = .uint8 then 0 else - (t.qmax : Int)
    match v with
    | .nan _ => (unsigned t.bits zi, .nan)
    | .inf n => (unsigned t.bits (if n then lo else (t.qmax : Int)), endStat (if n then lo else (t.qmax : Int)) zi)
    | .fin n m k =>
      let r := Val.toIntTa (.fin n m (k - e))
      let q := r + zi
      if q < lo then (unsigned t.bits lo, endStat lo zi)
      else if (t.qmax : Int) < q then (unsigned t.bits (t.qmax : Int), endStat (t.qmax : Int) zi)
      else (unsigned t.bits q, if r = 0 ∧ m ≠ 0 then .zero else .none)

/-- The magnitude test of the first pass of R46 for a signed target at one exponent. -/
def fitsSigned (t : Fmt) (e : Int) (m : Nat) (k : Int) : Bool :=
  match t with
  | .e4m3 => let r := roundMag e4m3Fmt m (k - e); decide (scaleInt (r.1 : Int) r.2 ≤ 448)
  | .e5m2 => let r := roundMag e5m2Fmt m (k - e); decide (scaleInt (r.1 : Int) r.2 ≤ 57344)
  | t => decide (scaleInt (m : Int) (k - e) ≤ (t.qmax : Int))

/-- The exponents −32 to +31, in rising order (R41). -/
def exponents : List Int := (List.range 64).map (fun i => (i : Int) - 32)

/-- The larger of two values that are not NaN. -/
def Val.maxv (a b : Val) : Val := if Val.lt a b then b else a

/-- The smaller of two values that are not NaN. -/
def Val.minv (a b : Val) : Val := if Val.lt b a then b else a

/-- The first pass of R46 over the elements that take part: the smallest exponent at which none clips. -/
def firstPass (t : Fmt) (z : Nat) (xs : List Val) : Int :=
  let ys := xs.filter (fun v => !v.isNan)
  let test : Int → Bool :=
    if t = .uint8 then
      match ys.foldl Val.maxv .zero, ys.foldl Val.minv .zero with
      | .fin n m k, .fin n' m' k' => fun e =>
        decide (Val.toIntTa (.fin n m (k - e)) + (z : Int) ≤ 255)
          && decide (0 ≤ (z : Int) + Val.toIntTa (.fin n' m' (k' - e)))
      | _, _ => fun _ => false
    else
      match (ys.map Val.abs).foldl Val.maxv .zero with
      | .fin _ m k => fun e => fitsSigned t e m k
      | _ => fun _ => false
  (exponents.find? test).getD 31

end Sys2Proof.Machine
end

