-- ==== Sys2Proof/Machine/Operands.lean ====
section
/-! DEFINITION. Every way a command reaches an operand: tensor headers (R43), stream descriptors and walks (R213 to R216),
stream tiles and their faults (R231 to R233), compressed blocks (R153 to R170), and the operand itself, through an attached arming or
directly (R219, R223). -/

namespace Sys2Proof.Machine

open Sys2Proof

/-! ### The tensor header (R43) -/

/-- The fields of a tensor header. -/
structure Hdr where
  e : Int := 0
  fmt : Nat := 0
  zp : Nat := 0
  redirect : Bool := false
  nOut : Nat := 0
  eOut : Int := 0
  n : Nat := 0
  ch : Nat := 0
  clip : Nat := 0
  zero : Nat := 0
  wide : Nat := 0
  outList : Nat := 0
  outData : Nat := 0
  nan : Nat := 0
  deriving DecidableEq, Repr

/-- Read a header from its 64 bytes. -/
def Hdr.ofBytes (bs : List Byte) : Hdr :=
  let v := leVal bs
  { e := signed 6 (bitsOf v 0 6), fmt := bitsOf v 8 4, zp := bitsOf v 16 8, redirect := Nat.testBit v 24,
    nOut := bitsOf v 32 8, eOut := signed 6 (bitsOf v 40 6), n := bitsOf v 64 48, ch := bitsOf v 112 16,
    clip := bitsOf v 128 32, zero := bitsOf v 160 32, wide := bitsOf v 192 52, outList := bitsOf v 256 52,
    outData := bitsOf v 320 52, nan := bitsOf v 384 32 }

/-- The 64 bytes of a header; counts that do not fit their field saturate, and an R above 65,535 (R56) is stored in ch modulo 2^16.
(DESIGN CHOICE, assumption 70) -/
def Hdr.bytes (h : Hdr) : List Byte :=
  leBytes 8 (unsigned 6 h.e + h.fmt * 2 ^ 8 + h.zp * 2 ^ 16 + b2n h.redirect * 2 ^ 24 + h.nOut * 2 ^ 32 +
    unsigned 6 h.eOut * 2 ^ 40) ++
  leBytes 8 (h.n + h.ch % 2 ^ 16 * 2 ^ 48) ++ leBytes 8 (satAdd 32 h.clip 0 + satAdd 32 h.zero 0 * 2 ^ 32) ++ leBytes 8 h.wide ++
  leBytes 8 h.outList ++ leBytes 8 h.outData ++ leBytes 8 (satAdd 32 h.nan 0) ++ leBytes 8 0

/-! ### Direct reads -/

/-- The view of a running command. -/
def Exec.view (x : Exec) : View := { ctx := x.ctx, bind := x.bind, noHost := x.hostLost }

/-- Whether a context is in Exact mode (R336). -/
def State.inExact (s : State) (c : CtxId) : Bool := (s.ctx c).exactActive

/-- R231, R337: the place a stream or operand read of an address is served from; in a context in Exact mode only T0 serves, and host
memory no longer serves a command one of whose host reads has failed (R388). (DEDUCED, assumption 65) -/
def State.streamPlace (s : State) (v : View) (a : Nat) : Option Loc :=
  (s.readPlace v a).filter (fun l => (!(s.inExact v.ctx) || decide (l.tier = 0)) && !(v.noHost && l.isHost))

/-- Deliver up to the first fault; the faulting byte and every later one are poisoned (R231). -/
def cutFault : List (Option SB) → List SB × Bool
  | [] => ([], false)
  | none :: l => (poisonRun (l.length + 1), true)
  | some b :: l => (b :: (cutFault l).1, (cutFault l).2)

/-- The bytes of `n` addresses from `a` as an engine's own read delivers them. -/
def State.span (s : State) (v : View) (a n : Nat) : List SB × Bool :=
  cutFault ((List.range n).map (fun i => (s.streamPlace v (a + i)).map s.peekLoc))

/-- What an engine's own read of a range counts: what is read before the first fault, and an Exact-mode miss (R231, R337). -/
def State.noteSpan (s : State) (v : View) (a n : Nat) : State :=
  let l := piecesOf a n
  let s1 := s.noteReadL v true (l.takeWhile (fun p => (s.streamPlace v p.1).isSome))
  if (l.find? (fun p => (s.streamPlace v p.1).isNone)).any (fun p => (s.readPlace v p.1).isSome) then
    s1.addFld (Reg.ctxTmvStat_faults.at v.ctx) 1
  else s1

/-- Note the peer bytes that an engine's read of a range would ask for. -/
def State.needPeers (s : State) (v : View) (a n : Nat) : State :=
  { s with link := { s.link with missing := (s.noteSpan v a n).link.missing } }

/-- What an operand read gives: its bytes, the conditions met, and the port of a lost link. -/
structure Rd where
  bytes : List SB := []
  sts : List Status := []
  port : Nat := 0
  deriving DecidableEq, Repr

/-- The report of a command that ends before any output because a read it needs whole met a condition (R43, R56, R58, R490). -/
def Rd.failure (r : Rd) : Option Report :=
  match r.sts.foldl Status.worse .ok with
  | .ok => none
  | st => some { status := st, detail := if st = .linkLost then r.port else 0 }

/-- The addresses of `rows` rows of `rb` bytes, `stride` apart. -/
def rowAddrs (a rb stride rows : Nat) : List Nat :=
  (List.range rows).flatMap (fun r => (List.range rb).map (fun i => a + r * stride + i))

/-- Runs of consecutive addresses: (first, length). -/
def runsOf : List (Option Nat) → List (Nat × Nat)
  | [] => []
  | none :: _ => []
  | some x :: l =>
    match runsOf l with
    | (y, n) :: r => if y = x + 1 then (x, n + 1) :: r else (x, 1) :: (y, n) :: r
    | [] => [(x, 1)]

/-- The flash pages among places, each once: a transfer reads each page of its tile once (R225, R279). -/
def pagesOf (l : List (Option Loc)) : List Nat :=
  (l.filterMap (fun o => match o with
    | some (.t2 (some p) _) => some p
    | _ => none)).dedup

/-- A read of several rows made at once: as one arming, so a fault poisons the rest (R223, R231); it reads each flash page once and
nothing behind the fault. -/
def State.readDirectRows (s : State) (v : View) (a rb stride rows : Nat) : Rd × State :=
  let ps := (rowAddrs a rb stride rows).map (s.streamPlace v)
  let r := cutFault (ps.map (·.map s.peekLoc))
  let g := ps.takeWhile (·.isSome)
  let s0 := (s.notePlainL v ((runsOf (((rowAddrs a rb stride rows).take g.length).map some)).flatMap (fun r => piecesOf r.1 r.2))).pageReads
    v.ctx (pagesOf g)
  let s1 := s0.div v.ctx 6 ((pagesOf g).filter s.pageRetried).length
  let s2 := if r.2 then s1.addFld (Reg.ctxTmvStat_faults.at v.ctx) 1 else s1
  ({ bytes := r.1, sts := (if r.2 then [.tierFault] else []) ++ (if anyPoison r.1 then [.poisoned] else []) }, s2)

/-- R43: read the header of the tensor at `a`, or the report of a command whose header reads poisoned or faults. -/
def State.readHdr (s : State) (v : View) (a : Nat) : Except Report Hdr × State :=
  if a < 64 then (.error { status := .tierFault }, s)
  else
    let r := s.span v (a - 64) 64
    let s1 := s.noteSpan v (a - 64) 64
    if r.2 then (.error { status := .tierFault }, s1)
    else if anyPoison r.1 then (.error { status := .poisoned }, s1)
    else (.ok (Hdr.ofBytes (r.1.map (·.1))), s1)

/-- Write a tensor header below `a`; there is no room for one below an address under 64, which no object holds (R43, R246). -/
def State.writeHdr (s : State) (v : View) (who : Engine × Nat) (a : Nat) (h : Hdr) : State × Bool :=
  if a < 64 then (s, false) else s.writeBytes v who (a - 64) (clean h.bytes)

/-! ### Stream descriptors and walks -/

/-- The element size in bytes (R213). -/
def Desc.size (d : Desc) : Nat := if d.esize = 7 then 4096 else 2 ^ d.esize

/-- The number of elements. -/
def Desc.count (d : Desc) : Nat := (d.cnt.map (· + 1)).prod

/-- The stream's length L in delivered bytes (R214). -/
def Desc.len (d : Desc) : Nat := d.size * d.count

/-- The sum Σ i_d × stride_d of element e (R214). -/
def walkOff : List Nat → List Int → Nat → Int
  | c :: cs, st :: sts, e => ((e % (c + 1) : Nat) : Int) * st + walkOff cs sts (e / (c + 1))
  | _, _, _ => 0

/-- The tensor address of element e; none below 0 (R214). -/
def Desc.elemAddr (d : Desc) (e : Nat) : Option Nat :=
  let a := (d.base : Int) + walkOff d.cnt d.stride e
  if a < 0 then none else some a.toNat

/-- Read a descriptor's 64 bytes. -/
def Desc.ofBytes (bs : List Byte) : Desc :=
  let w := fun i => leVal ((bs.drop (8 * i)).take 8)
  let nd := bitsOf (w 0) 55 3
  { base := bitsOf (w 0) 0 52, esize := bitsOf (w 0) 52 3, ndim := nd, tier := bitsOf (w 0) 58 2, cmp := Nat.testBit (w 0) 60,
    chk := Nat.testBit (w 0) 61,
    cnt := (List.range nd).map (fun d => bitsOf (w (1 + d)) 0 16),
    stride := (List.range nd).map (fun d => signed 40 (bitsOf (w (1 + d)) 16 40)),
    rate := bitsOf (w 6) 0 16, tileDl := bitsOf (w 6) 16 16, tmask := bitsOf (w 6) 32 8, aux := bitsOf (w 7) 0 52 }

/-- R213, R214: the checks of a descriptor's own encoding; `exact` forbids a tier hint other than 0. -/
def descLegal (bs : List Byte) (exact : Bool) : Bool :=
  let d := Desc.ofBytes bs
  let w := fun i => leVal ((bs.drop (8 * i)).take 8)
  decide (d.base % d.size = 0 ∨ (d.cmp ∧ d.base % 4096 = 0)) &&
  decide ((d.esize = 7) ↔ d.cmp) && decide (1 ≤ d.ndim) && decide (d.ndim ≤ 5) && decide (¬ exact ∨ d.tier = 0) &&
  decide (¬ (d.chk ∧ d.cmp)) && decide (bitsOf (w 0) 62 2 = 0) &&
  (List.range 5).all (fun i => decide (bitsOf (w (1 + i)) 56 8 = 0) && (decide (i < d.ndim) || decide (w (1 + i) = 0))) &&
  d.stride.all (fun st => decide (st % (d.size : Int) = 0)) &&
  decide (1 ≤ d.rate) && decide (d.rate ≤ 16384) && decide (bitsOf (w 6) 40 24 = 0) &&
  decide (d.cmp ↔ d.tmask ≠ 0) && decide (bitsOf (w 7) 52 12 = 0) &&
  (if d.cmp then true else if d.chk then decide (d.aux % 64 = 0) else decide (d.aux = 0)) &&
  decide (d.len ≤ 2 ^ 48 - 1)

/-! The areas of a compressed tensor of `nb` blocks at base `a` (R153). -/

/-- The address of the block-header area. -/
def hdrArea (a nb : Nat) : Nat := a + nb * 4096

/-- The address of the scale-record area. -/
def recArea (a nb : Nat) : Nat := hdrArea a nb + roundUp (nb * 16) 64

/-- n_blk of the tensor whose header lies below `a` (R153, R216). -/
def Hdr.nBlk (h : Hdr) : Nat := ceilDiv (h.n * (((Fmt.ofCode h.fmt).map Fmt.bits).getD 8)) 32768

/-- The addresses a stream moves for block k of `nb`: header, scale record, and the payload's 256-byte sectors: 16 of a raw block or of
one whose header reads poisoned (R154, R169). -/
def State.blockAddrs (s : State) (v : View) (aux nb k : Nat) : List Nat :=
  let ha := hdrArea aux nb + 16 * k
  let h := s.span v ha 16
  let hd := hdrOfBytes (h.1.map (·.1))
  let n := if anyPoison h.1 ∨ hd.raw then 4096 else min 4096 (256 * ceilDiv hd.codedLen 256)
  (List.range 16).map (ha + ·) ++ (List.range 8).map (recArea aux nb + 8 * k + ·) ++
    (List.range n).map (aux + 4096 * k + ·)

/-! ### Stream tiles (R215) -/

/-- A tile holds 65,536 moved bytes. -/
def tileBytes : Nat := 65536

/-- The view by which an arming resolves its walk: the binding of its ARM's request (R311). -/
def Arming.view (a : Arming) : View := { ctx := a.ctx, bind := a.bind }

/-- Whether every tile of the walk has been issued. -/
def Arming.allIssued (a : Arming) : Bool :=
  if a.desc.cmp then decide (a.desc.count ≤ a.mvNext) else decide (a.desc.len ≤ a.issued * tileBytes)

/-- Whether every transfer of the arming has retired. -/
def Arming.fetched (a : Arming) : Bool := a.flight.isEmpty && (a.allIssued || a.dead.isSome)

/-- The addresses of the next compressed tile: whole blocks from `mvNext`, less `mvOff` bytes, up to a tile; with the place after. -/
def State.cmpTile (s : State) (a : Arming) : Nat → Nat → Nat → Nat → List (Option Nat) × Nat × Nat
  | 0, e, off, _ => ([], e, off)
  | fuel + 1, e, off, room =>
    if a.desc.count ≤ e ∨ room = 0 then ([], e, off)
    else
      let l := match a.desc.elemAddr e with
        | none => [none]
        | some x => (s.blockAddrs a.view a.desc.aux a.nBlk ((x - a.desc.aux) / 4096)).map some
      let part := l.drop off
      if part.length ≤ room then
        let r := s.cmpTile a fuel (e + 1) 0 (room - part.length)
        (part ++ r.1, r.2)
      else (part.take room, e, off + room)

/-- The addresses of the arming's next tile, and the walk's place after it. -/
def State.nextTile (s : State) (a : Arming) : List (Option Nat) × Nat × Nat :=
  if a.desc.cmp then s.cmpTile a (tileBytes / 24 + 2) a.mvNext a.mvOff tileBytes
  else
    let lo := a.issued * tileBytes
    let n := min tileBytes (a.desc.len - lo)
    ((List.range n).map (fun i => (a.desc.elemAddr ((lo + i) / a.desc.size)).map (· + (lo + i) % a.desc.size)), 0, 0)

/-- Where the block headers and scale records of a compressed tensor begin (R153); an uncompressed stream has none. -/
def Arming.metaStart (a : Arming) : Nat := if a.desc.cmp then hdrArea a.desc.aux a.nBlk else 2 ^ 64

/-- The reads a tile makes: its payload as runs, and the whole 256-byte sectors that hold its headers and records (R154). -/
def Arming.tileReads (a : Arming) (addrs : List (Option Nat)) : List (Nat × Nat) :=
  runsOf (addrs.filter (fun o => o.all (fun x => decide (x < a.metaStart)))) ++
  ((addrs.filterMap (fun o => (o.filter (fun x => decide (a.metaStart ≤ x))).map (· / 256))).dedup).map (fun k => (256 * k, 256))

/-- A tile as captured at its issue: addresses, places, bytes with the first fault applied, and its check value (R233). -/
structure Capture where
  addrs : List (Option Nat)
  places : List (Option Loc)
  bytes : List SB
  fault : Bool
  next : Nat × Nat
  chk : List SB := []
  deriving DecidableEq, Repr

/-- The address of the check value of a tile (R233). -/
def Desc.chkAddr (d : Desc) (tile : Nat) : Nat := d.aux + 4 * tile

/-- Capture the next tile of an arming (R215, R231), with its check value (R233). -/
def State.capture (s : State) (a : Arming) : Capture :=
  let t := s.nextTile a
  let ps := t.1.map (fun o => o.bind (fun x => s.streamPlace a.view x))
  let r := cutFault (ps.map (·.map s.peekLoc))
  { addrs := t.1, places := ps, bytes := r.1, fault := r.2, next := t.2
    chk := if a.desc.chk then (s.span a.view (a.desc.chkAddr a.issued) 4).1 else [] }

/-- The good part of a capture: the places before the first fault. -/
def Capture.good (k : Capture) : List (Option Loc) := k.places.takeWhile (·.isSome)

/-- R231: whether a transfer of an arming misses: a read of it reaches an object that is not resident in the hinted tier. A direct read
has no hint (R223). -/
def State.misses (s : State) (a : Arming) (reads : List (Nat × Nat)) : Bool :=
  !a.direct && reads.any (fun r => (piecesOf r.1 r.2).any (fun p => (s.readPlace a.view p.1).isSome && !(s.residentAt a.view a.desc.tier p.1)))

/-- The flash pages that hold the check value of an arming's next tile. -/
def State.chkPages (s : State) (a : Arming) : List Nat :=
  if a.desc.chk then pagesOf ((List.range 4).map (fun i => s.streamPlace a.view (a.desc.chkAddr a.issued + i))) else []

/-- What capturing a tile counts: the reads, each flash page once, the check value's read, one miss per transfer (R231), one event per
retried page (R335), a fault. -/
def State.noteCapture (s : State) (a : Arming) (k : Capture) : State :=
  let g := k.good
  let reads := a.tileReads (k.addrs.take g.length)
  let pages := pagesOf g
  let s1 := ((s.notePlainL a.view (reads.flatMap (fun r => piecesOf r.1 r.2))).pageReads a.ctx pages)
  let s2 := if a.desc.chk then s1.noteSpan a.view (a.desc.chkAddr a.issued) 4 else s1
  let s3 := if s.misses a reads then (s2.addFld (Reg.ctxTmvStat_misses.at a.ctx) 1).div a.ctx 5 1 else s2
  let s4 := s3.div a.ctx 6 ((pages ++ s.chkPages a).dedup.filter s.pageRetried).length
  if k.fault then s4.addFld (Reg.ctxTmvStat_faults.at a.ctx) 1 else s4

/-- The arming after it has issued a captured tile. -/
def Arming.issue (a : Arming) (k : Capture) : Arming :=
  { a with issued := a.issued + 1, mvNext := k.next.1, mvOff := k.next.2,
           dead := if k.fault then some .tierFault else a.dead }

/-- R233: whether a tile's bytes agree with the check value fetched with them; a value that faulted or reads poisoned does not. -/
def chkOk (d : Desc) (chk bytes : List SB) : Bool :=
  !d.chk || (!anyPoison chk && decide (leVal (chk.map (·.1)) = (crc32c (bytes.map (·.1))).toNat))

/-- R233: a tile arrives, its words delivered through the fabric (R385): a check mismatch poisons it, counts and logs. -/
def State.arrive (s : State) (a : Arming) (f : Flight) : List SB × State :=
  let d := throughFabric f.first f.errs f.data
  let s := s.noteTransit a.ctx f.first f.errs
  if chkOk a.desc f.chk d then (d, s)
  else
    (d.map (fun b => (b.1, true)),
     (s.addFld (Reg.ctxTmvStat_chkFail.at a.ctx) 1).logEvent 5 1 (some a.ctx) f.first f.tile)

/-- Replace an arming by its place in the list. -/
def State.setArming (s : State) (i : Nat) (a : Arming) : State := { s with armings := s.armings.set i a }

/-- The conditions an arming's consumer reports (R231). -/
def Arming.sts (a : Arming) (bytes : List SB) : List Status :=
  a.dead.toList ++ a.decStat.toList ++ (if anyPoison bytes then [.poisoned] else [])

/-- Pad a stream's delivered bytes with the poisoned remainder (R232). -/
def padPoison (n : Nat) (l : List SB) : List SB := (l ++ poisonRun (n - l.length)).take n

/-- The attached arming that stands in for an operand (R219): same base and byte count, not consumed yet. -/
def Arming.serves (a : Arming) (c : CtxId) (e : Engine) (slot addr n : Nat) : Bool :=
  decide (a.ctx = c) && decide (a.eng = e) && decide (a.consumer = some (e, slot)) && decide (a.desc.base = addr) &&
  decide (a.desc.len = n) && !a.desc.cmp && decide (a.pos < a.desc.len)

/-- R219, R223: an operand of `rows` rows of `rb` bytes of a running command: through the arming that serves it, else at once.
(DESIGN CHOICE, assumption 27) -/
def State.readRows (s : State) (x : Exec) (addr rb stride rows : Nat) : Rd × State :=
  match s.armings.findIdx? (fun a => a.serves x.ctx x.eng x.slot addr (rb * rows)) with
  | none => s.readDirectRows x.view addr rb stride rows
  | some i =>
    match s.armings[i]? with
    | none => s.readDirectRows x.view addr rb stride rows
    | some a =>
      let bytes := padPoison (rb * rows) a.data
      ({ bytes := bytes, sts := a.sts bytes, port := a.deadPort }, s.setArming i { a with pos := rb * rows, data := [] })

/-- An operand of `n` consecutive bytes. -/
def State.readOperand (s : State) (x : Exec) (addr n : Nat) : Rd × State := s.readRows x addr n n 1

/-! ### Compressed blocks (R164 to R170) -/

/-- The code table of a context's slot, if it holds one. -/
def State.table (s : State) (c : CtxId) (t : Nat) : Option CodeTable := ((s.ctx c).tables.getD t none)

/-- What the expander finds in one block; `raw` says that it counts as raw, as one with a poisoned header does, of which all 16 sectors are
moved; `saved` are the payload sectors not moved (R177). (DESIGN CHOICE, assumption 74) -/
structure BlockRd where
  bytes : List SB
  faults : List (Nat × Nat) := []
  pairing : Bool := false
  poisoned : Bool := false
  hdrTag : Nat := 0
  recTag : Nat := 0
  raw : Bool := false
  saved : Nat := 0
  deriving DecidableEq, Repr

/-- A block delivered poisoned. -/
def poisonBlock : List SB := poisonRun 4096

/-- R164, R167 to R169: expand one block from its header, record and payload bytes. -/
def State.expand (s : State) (c : CtxId) (tmask : Nat) (hd rec payload : List SB) : BlockRd :=
  let h := hdrOfBytes (hd.map (·.1))
  let r := leVal (rec.map (·.1))
  let whole := h.raw || anyPoison hd
  let base : BlockRd := { bytes := poisonBlock, hdrTag := h.tag, recTag := bitsOf r 0 16, raw := whole,
                           saved := if whole then 0 else 16 - ceilDiv h.codedLen 256 }
  if anyPoison hd ∨ anyPoison rec ∨ anyPoison payload then { base with poisoned := true }
  else
    let tbl := s.table c h.tid
    let f1 := if hdrOk h then [] else [(1, 0)]
    let f2 := if !h.raw && (tbl.isNone || !Nat.testBit tmask h.tid) then [(2, 0)] else []
    let f345 := match tbl with
      | some t => if h.raw ∨ !f1.isEmpty ∨ !f2.isEmpty then [] else payloadFaults t h.lens 0 (payload.map (·.1))
      | none => []
    let f6 := if bitsOf r 22 42 ≠ 0 then [(6, 0)] else []
    let faults := f1 ++ f2 ++ f345 ++ f6
    let pair := decide (h.tag ≠ bitsOf r 0 16)
    if faults.isEmpty && !pair then
      if h.raw then { base with bytes := payload.take 4096 }
      else match tbl with
        | some t => { base with bytes := match decodePayload t h.lens 0 (payload.map (·.1)) with
            | .ok l => clean l
            | .error _ => poisonBlock }
        | none => base
    else { base with faults := faults, pairing := pair }

/-- The status a block's expansion gives its consumer (R14, R164, R168, R169). -/
def BlockRd.status (b : BlockRd) : Option Status :=
  if b.pairing then some .pairingMismatch
  else if !b.faults.isEmpty then some .decodeCheck
  else if b.poisoned then some .poisoned else none

/-- Write one log entry for each failed check of a block (R170, R392): expander k mod 512, sub-stream in [19:16]. -/
def State.logFaults (s : State) (c : CtxId) (addr exp : Nat) : List (Nat × Nat) → State
  | [] => s
  | (cause, sub) :: l => (s.logEvent 4 cause (some c) addr (exp % 512 + sub * 2 ^ 16)).logFaults c addr exp l

/-- R177: what a delivered block counts. -/
def State.countBlock (s : State) (c : CtxId) (b : BlockRd) : State :=
  if b.raw then s.addFld (Reg.ctxCmpStat_blocksRaw.at c) 1
  else (s.addFld (Reg.ctxCmpStat_blocksCoded.at c) 1).addFld (Reg.ctxCmpSaved_sectorsSaved.at c) b.saved

/-- What expanding a block leaves in the registers: the counts of a delivered block, poisoned or not; MXE_EXP_LAST for a poisoned block
(R178), CTX_CMP_ERR, the log (R170). The block's tensor address is `addr`, its place in the stream k, which names its expander (R165). -/
def State.noteBlock (s : State) (c : CtxId) (addr k : Nat) (b : BlockRd) : State :=
  let s0 := s.countBlock c b
  if b.status.isNone then s0
  else
    let kind := if b.pairing then 2 else if !b.faults.isEmpty then 1 else 3
    let f := b.faults.headD (0, 0)
    let s1 := s0.setReg Reg.mxeExpLast (wordOf [(Reg.mxeExpLast_ctx, c.val), (Reg.mxeExpLast_kind, kind),
      (Reg.mxeExpLast_cause, f.1), (Reg.mxeExpLast_sub, f.2), (Reg.mxeExpLast_hdrTag, b.hdrTag),
      (Reg.mxeExpLast_recTag, b.recTag), (Reg.mxeExpLast_expander, k % 512)])
    let s2 := if !b.faults.isEmpty then s1.addFld (Reg.ctxCmpErr_decodeCheck.at c) 1 else s1
    let s3 := if b.pairing then s2.addFld (Reg.ctxCmpErr_pairing.at c) 1 else s2
    let s4 := if b.poisoned then s3.addFld (Reg.ctxCmpErr_poisonedIn.at c) 1 else s3
    let s5 := s4.logFaults c addr k b.faults
    if b.pairing then s5.logEvent 4 7 (some c) addr (k % 512) else s5

/-- The length of the block at the front of a compressed stream's moved bytes. -/
def blockLen (data : List SB) : Nat :=
  let h := hdrOfBytes ((data.take 16).map (·.1))
  24 + (if anyPoison (data.take 16) ∨ h.raw then 4096 else min 4096 (256 * ceilDiv h.codedLen 256))

/-- Decode the next block of a compressed arming from its arrived bytes; a stream that has ended early gives a poisoned block. -/
def State.decodeNext (s : State) (a : Arming) : Arming × State :=
  let k := ((a.desc.elemAddr a.decBlk).getD a.desc.aux - a.desc.aux) / 4096
  let n := blockLen a.data
  if a.data.length < n then
    ({ a with dec := a.dec ++ poisonBlock, decBlk := a.decBlk + 1, data := [] }, s)
  else
    let b := s.expand a.ctx a.desc.tmask (a.data.take 16) ((a.data.drop 16).take 8) ((a.data.take n).drop 24)
    let st := match a.decStat, b.status with
      | some x, some y => some (Status.worse x y)
      | none, y => y
      | x, none => x
    ({ a with dec := a.dec ++ b.bytes, decBlk := a.decBlk + 1, data := a.data.drop n, decStat := st },
     s.noteBlock a.ctx (a.desc.aux + 4096 * k) a.decBlk b)

/-- Decode every block that is left. -/
def State.decodeRest (s : State) (a : Arming) : Nat → Arming × State
  | 0 => (a, s)
  | fuel + 1 =>
    if a.desc.count ≤ a.decBlk then (a, s)
    else
      let r := s.decodeNext a
      r.2.decodeRest r.1 fuel

/-- All the decoded bytes of an MXE weight stream, compressed or not (R165). -/
def State.readWeights (s : State) (i : Nat) (a : Arming) : Rd × State :=
  if a.desc.cmp then
    let q := s.decodeRest a a.desc.count
    let bytes := padPoison a.desc.len q.1.dec
    ({ bytes := bytes, sts := q.1.sts bytes, port := a.deadPort },
     q.2.setArming i { q.1 with pos := a.desc.len, data := [], dec := [] })
  else
    let bytes := padPoison a.desc.len a.data
    ({ bytes := bytes, sts := a.sts bytes, port := a.deadPort }, s.setArming i { a with pos := a.desc.len, data := [] })

/-! ### Elements -/

/-- Cut bytes into elements of a format: INT4 two to a byte, low half first (R37); an element of a poisoned byte is poisoned. -/
def elemsOf (f : Fmt) (bs : List SB) : List (Nat × Bool) :=
  match f.bits with
  | 4 => bs.flatMap (fun b => [(b.1.toNat % 16, b.2), (b.1.toNat / 16, b.2)])
  | w => (chunksOf (w / 8) bs.length bs).map (fun c => (leVal (c.map (·.1)), anyPoison c))

/-- The byte count of `n` elements of a format. -/
def elemBytes (f : Fmt) (n : Nat) : Nat := ceilDiv (n * f.bits) 8

/-- Pack elements into bytes; an odd last INT4 element leaves the high half 0. -/
def packElems (f : Fmt) : List (Nat × Bool) → List SB
  | [] => []
  | [x] => if f.bits = 4 then [(BitVec.ofNat 8 (x.1 % 16), x.2)] else (leBytes (f.bits / 8) x.1).map (fun b => (b, x.2))
  | x :: y :: l =>
    if f.bits = 4 then (BitVec.ofNat 8 (x.1 % 16 + 16 * (y.1 % 16)), x.2 || y.2) :: packElems f l
    else (leBytes (f.bits / 8) x.1).map (fun b => (b, x.2)) ++ packElems f (y :: l)

/-- The exponent a header gives a format: 0 for BF16 and FP32 (R42). -/
def Hdr.exp (h : Hdr) (f : Fmt) : Int := if f.noScale then 0 else h.e

/-! ### Running the work of a command -/

/-- Whether a running command has ended with a status of class 0x2_ (R15). -/
def Exec.refusedWork (x : Exec) : Bool := x.result.any (fun r => decide (r.status.code / 16 = 2))

/-- Whether command x has ended with a status of class 0x2_. -/
def State.rejects (t : State) (x : Exec) : Bool :=
  t.running.any (fun y => decide (y.ctx = x.ctx) && decide (y.eng = x.eng) && decide (y.slot = x.slot) && y.refusedWork)

/-- R15: `t` after the work of a command that started in `s`; a command that is rejected at its start leaves every arming as it was,
even where an operand of it had been read before the check that failed. (DEDUCED, assumption 67) -/
def State.keepStreams (t s : State) (x : Exec) : State :=
  if x.eng ≠ .tmv ∧ t.rejects x = true then { t with armings := s.armings } else t

/-- Whether every byte has arrived of every arming that serves the command of context c on engine e in queue slot `slot`, or one of its
fill entries. -/
def State.streamsIn (s : State) (c : CtxId) (e : Engine) (slot : Nat) : Bool :=
  s.armings.all (fun a => !(decide (a.ctx = c) && a.consumer.any (fun k => decide (k.1 = e ∧ k.2 % 4096 = slot))) || a.fetched)

/-- The work of a command: it is done once its operands have all arrived; before that only a rejection at its start takes effect (R15).
(DESIGN CHOICE, assumption 27) -/
def State.workOf (s : State) (x : Exec) (f : Exec → State → State) : State :=
  let t := f x s
  if s.streamsIn x.ctx x.eng (x.slot % 4096) || t.rejects x then t.keepStreams s x else s

/-- Run the work `f` of a command in execution on engine e, from queue slot `slot`, with opcode `op`: once.
(DESIGN CHOICE, assumption 1; DESIGN CHOICE, assumption 27) -/
def State.engineRun (s : State) (c : CtxId) (e : Engine) (slot op : Nat) (f : Exec → State → State) : State :=
  match s.running.find? (fun x => decide (x.ctx = c) && decide (x.eng = e) && decide (x.slot = slot)) with
  | none => s
  | some x =>
    if wBits (x.words.getD 0 0) 0 8 = op ∧ x.result = none then s.withPeers c e slot (fun s => s.workOf x f)
    else s

end Sys2Proof.Machine
end

