-- ==== Sys2Proof/Machine/Caf.lean ====
section
/-! DEFINITION. The Charge-Array Fabric (chapters 3 and 4): the checks of its commands (R73, R83 to R88), MATVEC, SCRUB, and the
marking of a column pair. -/

namespace Sys2Proof.Machine

open Sys2Proof

/-! ### Tile sets (R81, R86) -/

/-- A slot of a logical tile set: 0 A, 1 B. -/
def State.tset (s : State) (t k : Nat) : TsetSlot := SMap.get {} s.tsets (2 * t + k)

/-- Replace a slot of a logical tile set. -/
def State.setTset (s : State) (t k : Nat) (x : TsetSlot) : State := { s with tsets := SMap.put {} s.tsets (2 * t + k) x }

/-- Outputs per column block (R81). -/
def TsetSlot.m (x : TsetSlot) : Nat := if x.int4 then 256 else 128

/-- K of R81. -/
def TsetSlot.k (x : TsetSlot) : Nat := (x.nRb - 1) * 1024 + x.rowsLast

/-- N of R81. -/
def TsetSlot.n (x : TsetSlot) : Nat := x.nCb * x.m

/-- The tiles of a slot, in ascending order. -/
def TsetSlot.tiles (x : TsetSlot) : List Nat := (List.range (x.nRb * x.nCb)).map (x.firstTile + ·)

/-- The rows of a row block that are driven. -/
def TsetSlot.rows (x : TsetSlot) (rb : Nat) : Nat := if rb + 1 = x.nRb then x.rowsLast else 1024

/-- The model that a logical tile set belongs to (R305). -/
def State.tsetModel (s : State) (t : Nat) : Option (Nat × Model) :=
  List.find? (fun (e : Nat × Model) => e.2.valid && decide (e.2.tsetFirst ≤ t) && decide (t < e.2.tsetFirst + e.2.tsetN)) s.models

/-- R86, R306: the slot of a logical tile set that a request's binding gives. -/
def State.boundSlot (s : State) (bind : List (Nat × Nat)) (t : Nat) : Option Nat :=
  (s.tsetModel t).bind (fun m => ({ ctx := 0, bind := bind : View }).slotOf m.1)

/-- The slot a tile belongs to, if any slot that is not FREE holds it. -/
def State.tileSlot (s : State) (tile : Nat) : Option (Nat × TsetSlot) :=
  List.find? (fun (e : Nat × TsetSlot) => decide (e.2.state ≠ .free) && decide (e.2.firstTile ≤ tile) &&
    decide (tile < e.2.firstTile + e.2.nRb * e.2.nCb)) s.tsets

/-- What a tile keeps beside its cells. -/
def State.tile (s : State) (t : Nat) : Tile := SMap.get {} s.tiles t

/-- Replace a tile's record. -/
def State.setTile (s : State) (t : Nat) (x : Tile) : State := { s with tiles := SMap.put {} s.tiles t x }

/-- A sector of a tile. -/
def State.sector (s : State) (tile m : Nat) : Sector := SMap.get {} s.sectors (16 * tile + m)

/-- Replace a sector. -/
def State.setSector (s : State) (tile m : Nat) (x : Sector) : State :=
  { s with sectors := SMap.put {} s.sectors (16 * tile + m) x }

/-- The place of a weight's stored slices. (DEDUCED, assumption 22) -/
def cellKey (tile row out : Nat) : Nat := (tile * 1024 + row) * 256 + out

/-- The stored slices of output column set `out` in a row of a tile. -/
def State.cell (s : State) (tile row out : Nat) : Cell2 := SMap.get (0, 0) s.cells (cellKey tile row out)

/-! ### Encoding checks -/

/-! The body fields of MATVEC (R86) and SCRUB (R88). -/

/-- MATVEC: src_addr -/
def Entry.mvSrc (e : Entry) : Nat := e.pos 128 52
/-- MATVEC: src_fmt -/
def Entry.mvFmt (e : Entry) : Nat := e.pos 180 4
/-- MATVEC: group_rows -/
def Entry.mvRows (e : Entry) : Nat := e.pos 184 7
/-- MATVEC: dst_addr -/
def Entry.mvDst (e : Entry) : Nat := e.pos 192 52
/-- MATVEC: tset -/
def Entry.mvTset (e : Entry) : Nat := e.pos 256 9
/-- MATVEC: n_vec -/
def Entry.mvNvec (e : Entry) : Nat := e.pos 272 16
/-- MATVEC: src_stride -/
def Entry.mvSrcStride (e : Entry) : Nat := e.pos 320 32
/-- MATVEC: dst_stride -/
def Entry.mvDstStride (e : Entry) : Nat := e.pos 352 32
/-- SCRUB: tset -/
def Entry.scTset (e : Entry) : Nat := e.pos 128 9
/-- SCRUB: slot -/
def Entry.scSlot (e : Entry) : Nat := e.pos 137 1
/-- SCRUB: ref_offset -/
def Entry.scRef (e : Entry) : Int := signed 6 (e.pos 138 6)
/-- SCRUB: report_addr -/
def Entry.scReport (e : Entry) : Nat := e.pos 192 52

/-- The bytes of K inputs in a format. -/
def inBytes (fmt k : Nat) : Nat := if fmt = 0 then ceilDiv k 2 else k

/-- The checks of MATVEC at decode (R10, R83, R86). (DEDUCED, assumption 22) -/
def matvecIllegal (s : State) (c : CtxId) (bind : List (Nat × Nat)) (e : Entry) : Option Nat :=
  let sl := s.boundSlot bind e.mvTset
  let x := sl.elim {} (s.tset e.mvTset)
  let usable := sl.isSome && decide (x.owner = c) && decide (x.state = .ready ∨ x.state = .retiring)
  lowestBad
    [(128, decide (e.mvSrc % 64 ≠ 0)), (180, decide (2 < e.mvFmt)),
     (184, !([1, 2, 4, 8, 16, 32, 64].contains e.mvRows)), (191, decide (e.pos 191 1 ≠ 0)),
     (192, decide (e.mvDst % 64 ≠ 0)), (244, decide (e.pos 244 12 ≠ 0)),
     (256, !usable || !(sumFits x.int4 e.mvFmt x.hs)),
     (265, decide (e.pos 265 7 ≠ 0)), (272, decide (e.mvNvec = 0)), (288, decide (e.pos 288 32 ≠ 0)),
     (320, decide (e.mvSrcStride % 64 ≠ 0) || (decide (1 < e.mvNvec) && decide (e.mvSrcStride < inBytes e.mvFmt x.k))),
     (352, decide (e.mvDstStride % 64 ≠ 0) || (decide (1 < e.mvNvec) && decide (e.mvDstStride < 8 * x.n))),
     (384, decide (e.word 6 ≠ 0))]

/-- The checks of SCRUB at decode (R10, R88). -/
def scrubIllegal (s : State) (c : CtxId) (e : Entry) : Option Nat :=
  let x := s.tset e.scTset e.scSlot
  lowestBad
    [(128, decide (x.owner ≠ c)), (137, decide (x.state ≠ .ready)), (138, decide (e.scRef = -32)),
     (144, decide (e.pos 144 48 ≠ 0)), (192, decide (e.scReport % 64 ≠ 0)), (244, decide (e.pos 244 12 ≠ 0)),
     (256, decide (e.word 4 ≠ 0)), (320, decide (e.word 5 ≠ 0)), (384, decide (e.word 6 ≠ 0))]

/-- The checks of a CAF command at decode; CAF_GROUP_LIMIT is the higher status (R14, R73, R85). -/
def cafIllegal (s : State) (c : CtxId) (bind : List (Nat × Nat)) (e : Entry) : Option (Status × Nat) :=
  match e.opcode with
  | 1 => if 64 < e.mvRows then some (.cafGroupLimit, 184)
         else (matvecIllegal s c bind e).map (fun b => (.illegalCommand, b))
  | 2 => (scrubIllegal s c e).map (fun b => (.illegalCommand, b))
  | _ => some (.illegalCommand, 0)

/-- The logical tile set a CAF command works on, and the slot. -/
def State.cafTarget (s : State) (bind : List (Nat × Nat)) (e : Entry) : Nat × Nat :=
  if e.opcode = 2 then (e.scTset, e.scSlot) else (e.mvTset, (s.boundSlot bind e.mvTset).getD 0)

/-! ### MATVEC (R77 to R96) -/

/-- The inputs as the tiles see them: B, the source's element format, its exponent and where vector v starts. -/
structure MvIn where
  fmt : Fmt
  b : Nat
  zp : Nat
  e : Int
  base : Nat
  stride : Nat
  deriving DecidableEq, Repr

/-- R77, R78, R84, R87: what the header of the input selects, or the report of a command it makes illegal. -/
def mvInput (x : TsetSlot) (e : Entry) (h : Hdr) (wide : Option Hdr) : Except Report MvIn :=
  if h.fmt ≠ e.mvFmt ∨ h.n ≠ x.k * e.mvNvec ∨ h.nOut ≠ 0 then .error (rejected .illegalCommand 0xFFFF)
  else
    let r : Except Report MvIn := match wide with
      | none => match Fmt.ofCode h.fmt with
        | some f => .ok { fmt := f, b := bitSteps h.fmt, zp := if f = .uint8 then h.zp else 0, e := h.e, base := e.mvSrc,
                          stride := e.mvSrcStride }
        | none => .error (rejected .illegalCommand 0xFFFF)
      | some w =>
        if w.fmt ≠ 3 ∨ !(sumFits x.int4 3 x.hs) then .error (rejected .illegalCommand 0xFFFF)
        else .ok { fmt := .int16, b := 16, zp := 0, e := w.e, base := h.wide,
                   stride := e.mvSrcStride * 16 / (if e.mvFmt = 0 then 4 else 8) }
    match r with
    | .ok i => if i.e + x.eW < -32 ∨ 31 < i.e + x.eW then .error (rejected .illegalCommand 0xFFFF) else .ok i
    | .error q => .error q

/-- The result of one output for one input vector: the canonical tree over the row blocks' accumulators (R79, R82). -/
def State.mvOutput (s : State) (x : TsetSlot) (b gr : Nat) (xs : List Int) (o : Nat) : Int :=
  let cb := o / x.m
  let i := o % x.m
  reduceTree ((List.range x.nRb).map (fun rb =>
    let t := x.firstTile + cb * x.nRb + rb
    tileAcc x.int4 b gr (fun m => (s.sector t m).shift)
      ((List.range (x.rows rb)).map (fun r => (xs.getD (rb * 1024 + r) 0, s.cell t r i)))))

/-- The groups of a row block that are all zero (R92). -/
def zeroGroups (gr : Nat) (xs : List Int) : List Bool := (chunksOf gr xs.length xs).map (fun g => g.all (· = 0))

/-- R92: what skipping counts for one vector: (groups skipped over the row blocks, positions removed). -/
def skipCounts (x : TsetSlot) (gr : Nat) (xs : List Int) : Nat × Nat :=
  let blocks := (List.range x.nRb).map (fun rb => zeroGroups gr ((xs.drop (rb * 1024)).take (x.rows rb)))
  let g := ceilDiv (if 1 < x.nRb then 1024 else x.rowsLast) gr
  ((blocks.map (fun l => (l.filter id).length)).sum,
   ((List.range g).filter (fun i => blocks.all (fun l => l.getD i true))).length)

/-- The data pair a physical column serves, if it is in use (R106, R108). -/
def Tile.pairOf (t : Tile) (col : Nat) : Option Nat :=
  if col < 2048 then (if t.remap.any (fun r => decide (r.pair = col / 2)) then none else some (col / 2))
  else (t.remap.find? (fun r => decide (r.spare = (col - 2048) / 2))).map (·.pair)

/-- The output column set of a tile that uses a physical column, if one does. -/
def State.colOutput (s : State) (tile : Nat) (int4 : Bool) (col : Nat) : Option Nat :=
  ((s.tile tile).pairOf col).map (fun d => d / nSlices int4)

/-- R74: a count-check fault of a column of a tile counts and logs. -/
def State.convFault (s : State) (c : CtxId) (tile col : Nat) : State :=
  (((s.addFld Reg.cafConvFault_count 1).setFld Reg.cafConvFault_lastTile tile).setFld Reg.cafConvFault_lastCol col).logEvent
    3 1 (some c) tile col

/-- Log every count-check fault of a command. -/
def State.convFaults (s : State) (c : CtxId) : List (Nat × Nat × Nat) → State
  | [] => s
  | (_, t, col) :: l => (s.convFault c t col).convFaults c l

/-- The outputs of vector v that the faults poison. -/
def State.faultyOuts (s : State) (x : TsetSlot) (v : Nat) (faults : List (Nat × Nat × Nat)) : List Nat :=
  faults.filterMap (fun f => if f.1 = v then
    (s.colOutput f.2.1 x.int4 f.2.2).map (fun i => (f.2.1 - x.firstTile) / x.nRb * x.m + i) else none)

/-- The N outputs of vector v as ACC64 elements (R84, R95, R74); the value of an output that a fault poisons is free.
(DESIGN CHOICE, assumption 13) -/
def State.mvVector (s : State) (x : TsetSlot) (b gr : Nat) (xs : List Int) (poisoned : Bool) (bad : List Nat) (free : Nat → W64) :
    List (Nat × Bool) :=
  (List.range x.n).map (fun o =>
    if bad.contains o then ((free o).toNat, true) else (unsigned 64 (s.mvOutput x b gr xs o), poisoned))

/-- Write the output vectors in order. -/
def State.mvWrite (s : State) (x : Exec) (dst stride v : Nat) : List (List (Nat × Bool)) → State × Bool
  | [] => (s, true)
  | o :: l =>
    let r := s.writeBytes x.view (x.eng, x.slot) (dst + v * stride) (packElems .acc64 o)
    let q := r.1.mvWrite x dst stride (v + 1) l
    (q.1, r.2 && q.2)

/-- MATVEC once its inputs are known: skip counts, outputs, header, image, report. -/
def State.mvBody (s : State) (x : Exec) (t : TsetSlot) (i : MvIn) (faults : List (Nat × Nat × Nat)) : State :=
  let e : Entry := x.words
  let nv := e.mvNvec
  let r := s.readRows x i.base (elemBytes i.fmt t.k) i.stride nv
  let vecs := (chunksOf (elemBytes i.fmt t.k) nv r.1.bytes).map (fun bs => (elemsOf i.fmt bs).take t.k)
  let ints := vecs.map (fun l => l.map (fun q => intOfCode i.fmt q.1 - (i.zp : Int)))
  let sk := if x.skipEn && !(s.inExact x.ctx) then ints.map (skipCounts t e.mvRows) else []
  let removed := (sk.map (·.2)).sum
  let s1 := ((r.2.addFld (Reg.ctxCafStat_groupsSkipped.at x.ctx) (sk.map (·.1)).sum).addFld
    (Reg.ctxCafStat_stepsRemoved.at x.ctx) removed).div x.ctx 4 removed
  let good := faults.filter (fun f => decide (f.1 < nv) && t.tiles.contains f.2.1 && decide (f.2.2 < 2112))
  let s2 := s1.convFaults x.ctx good
  let ctr := s2.freeCtr
  let outs := (vecs.zip ints).zipIdx.map (fun p =>
    s2.mvVector t i.b e.mvRows p.1.2 (p.1.1.any (·.2)) (s2.faultyOuts t p.2 good) (fun o => Config.freeWord (ctr + p.2 * t.n + o)))
  let s3 := if good.isEmpty then s2 else { s2 with freeCtr := ctr + nv * t.n }
  let w := s3.mvWrite x e.mvDst e.mvDstStride 0 outs
  let ex := i.e + t.eW
  let h := w.1.writeHdr x.view (x.eng, x.slot) e.mvDst { fmt := 9, e := ex, n := t.n * nv }
  let flat := outs.flatten
  let bad := (flat.filter (·.2)).length
  let s4 := h.1.image x.ctx x.eng x.slot ((packElems .acc64 flat).map Prod.fst) 9 (unsigned 6 ex) (decide (0 < bad))
  s4.report x.ctx x.eng x.slot
    { reportOf (r.1.sts ++ (if t.tolerant then [.okTolerant] else []) ++ (if 0 < bad ∨ good ≠ [] then [.poisoned] else []) ++
        (if w.2 && h.2 then [] else [.tierFault])) bad r.1.port with tolerant := t.tolerant }

/-- MATVEC as the CAF runs it; `faults` are the count-check faults met (vector, tile, physical column). A header that faults or reads
poisoned ends a MATVEC through a tolerant slot with the tolerant flag (R96, R110). (DEDUCED, assumption 94) -/
def matvecRun (faults : List (Nat × Nat × Nat)) (x : Exec) (s : State) : State :=
  let e : Entry := x.words
  let t := s.tset e.mvTset ((s.boundSlot x.bind e.mvTset).getD 0)
  match s.readHdr x.view e.mvSrc with
  | (.error r, s1) => s1.report x.ctx x.eng x.slot { r with tolerant := t.tolerant }
  | (.ok h, s1) =>
    let go := fun (w : Option Hdr) (s2 : State) =>
      match mvInput t e h w with
      | .error r => s2.report x.ctx x.eng x.slot r
      | .ok i => s2.mvBody x t i faults
    if h.redirect then
      match s1.readHdr x.view h.wide with
      | (.error r, s2) => s2.report x.ctx x.eng x.slot { r with tolerant := t.tolerant }
      | (.ok w, s2) => go (some w) s2
    else go none s1

/-- MATVEC (R79). -/
def execMatvec (c : CtxId) (slot : Nat) (faults : List (Nat × Nat × Nat)) (s : State) : Host.Outcome State Fault Refusal :=
  .next (s.engineRun c .caf slot 1 (matvecRun faults))

/-! ### SCRUB (R111, R112) -/

/-- The known stuck cells of a tile. -/
def Tile.stuck (t : Tile) : List StuckCell := t.factoryStuck ++ t.fieldStuck

/-- The value a cell is stuck at, if it is: where it was found stuck at both, that of the latest finding. (DEDUCED, assumption 81) -/
def Tile.stuckAt (t : Tile) (row col : Nat) : Option Bool :=
  (t.stuck.reverse.find? (fun k => decide (k.row = row) && decide (k.col = col))).map (·.one)

/-- What a physical cell holds: a stuck cell its stuck value, a cell in use its slice bit, another cell 0. (DEDUCED, assumption 22) -/
def State.physCell (s : State) (int4 : Bool) (tile row col : Nat) : Bool :=
  match (s.tile tile).stuckAt row col with
  | some one => one
  | none =>
    match (s.tile tile).pairOf col with
    | none => false
    | some d =>
      let c := s.cell tile row (d / nSlices int4)
      Nat.testBit (if col % 2 = 0 then c.1 else c.2) (d % nSlices int4)

/-- R111: the weak cells a scrub finds: of the cells that read the other value at the shifted reference, those that hold 1 for a
positive offset, those that hold 0 for a negative one; a stuck cell reads the same at both. -/
def State.weakCells (s : State) (x : TsetSlot) (ref : Int) (weak : List (Nat × Nat × Nat)) : List (Nat × Nat × Nat) :=
  weak.dedup.filter (fun w => x.tiles.contains w.1 && decide (w.2.1 < 1024) && decide (w.2.2 < 2112) &&
    !((s.tile w.1).stuck.any (fun k => decide (k.row = w.2.1) && decide (k.col = w.2.2))) &&
    (if 0 < ref then s.physCell x.int4 w.1 w.2.1 w.2.2 else if ref < 0 then !(s.physCell x.int4 w.1 w.2.1 w.2.2) else false))

/-- A report entry (R112). -/
def State.scrubEntry (s : State) (tile col weak : Nat) : Nat :=
  tile + col * 2 ^ 10 + weak * 2 ^ 22 + b2n (decide (2048 ≤ col)) * 2 ^ 33 + b2n (((s.tile tile).pairOf col).isSome) * 2 ^ 34

/-- The entries of a report: ascending tile, then column. -/
def State.scrubEntries (s : State) (x : TsetSlot) (weak : List (Nat × Nat × Nat)) : List Nat :=
  x.tiles.flatMap (fun t => (List.range 2112).filterMap (fun col =>
    let n := (weak.filter (fun w => decide (w.1 = t) && decide (w.2.2 = col))).length
    if n = 0 then none else some (s.scrubEntry t col n)))

/-- The bytes of a scrub report (R112). -/
def State.scrubReport (s : State) (x : TsetSlot) (ref : Int) (weak : List (Nat × Nat × Nat)) : List Byte :=
  let l := s.scrubEntries x weak
  let n := min 65536 l.length
  leBytes 8 (n + b2n (decide (65536 < l.length)) * 2 ^ 32 + unsigned 6 ref * 2 ^ 33) ++
  leBytes 8 (weak.length + (x.nRb * x.nCb - 1) * 2 ^ 32) ++ List.replicate 48 0 ++ (l.take n).flatMap (leBytes 8)

/-- SCRUB as the CAF runs it; `weak` are the cells (tile, row, physical column) that read differently at the shifted reference. -/
def scrubRun (weak : List (Nat × Nat × Nat)) (x : Exec) (s : State) : State :=
  let e : Entry := x.words
  let t := s.tset e.scTset e.scSlot
  let w := s.writeBytes x.view (x.eng, x.slot) e.scReport (clean (s.scrubReport t e.scRef (s.weakCells t e.scRef weak)))
  w.1.report x.ctx x.eng x.slot { status := if w.2 then .ok else .tierFault }

/-- SCRUB (R111). -/
def execScrub (c : CtxId) (slot : Nat) (weak : List (Nat × Nat × Nat)) (s : State) : Host.Outcome State Fault Refusal :=
  .next (s.engineRun c .caf slot 2 (scrubRun weak))

/-! ### CAF_PAIR_RETIRE (R115) and the health registers (R116) -/

/-- Mark a data pair of a tile; a second mark of the pair has no further effect (R118). -/
def State.markPair (s : State) (v : W64) : State :=
  let t := wBits v 0 10
  let d := wBits v 10 10
  if (s.tile t).marks.contains d then s else s.setTile t { s.tile t with marks := (s.tile t).marks ++ [d] }

/-- CAF_PAIR_RETIRE (R115). -/
def execCafPairRetire (v : W64) (s : State) : Host.Outcome State Fault Refusal := .next (s.markPair v)

/-- spares_free of R116. -/
def Tile.sparesFree (t : Tile) : Nat := 32 - t.remap.length

/-- The number of known stuck cells of a tile in columns in use that are stuck at a value. -/
def Tile.stuckUsed (t : Tile) (one : Bool) : Nat :=
  ((t.stuck.map (fun k => (k.row, k.col))).dedup.filter (fun k => decide (t.stuckAt k.1 k.2 = some one) && (t.pairOf k.2).isSome)).length

/-- The tile as the health registers show it: while it is being programmed as the last completed update left it (R116, R118). -/
def Tile.seen (t : Tile) : Tile :=
  match t.shown with
  | none => t
  | some v => { t with fieldStuck := v.fieldStuck, remap := v.remap, marks := v.marks }

/-- A tile as the health registers show it. -/
def State.tileSeen (s : State) (i : Nat) : Tile := (s.tile i).seen

/-- CAF_TILE_HEALTH. -/
def State.tileHealth (s : State) (i : Nat) : W64 :=
  let t := s.tileSeen i
  let sl := s.tileSlot i
  wordOf [(Reg.cafTileHealth_sparesFree, t.sparesFree), (Reg.cafTileHealth_factoryRemaps, (t.remap.filter (fun r => !r.field)).length),
    (Reg.cafTileHealth_fieldRemaps, (t.remap.filter (fun r => r.field)).length),
    (Reg.cafTileHealth_stuckEntries, t.fieldStuck.length), (Reg.cafTileHealth_stuckFull, b2n (decide (256 ≤ t.fieldStuck.length))),
    (Reg.cafTileHealth_bound, b2n sl.isSome), (Reg.cafTileHealth_tolerant, b2n (sl.any (fun x => x.2.tolerant))),
    (Reg.cafTileHealth_retirePending, b2n (!t.marks.isEmpty))]

/-- CAF_TILE_STUCK. -/
def State.tileStuck (s : State) (i : Nat) : W64 :=
  let t := s.tileSeen i
  wordOf [(Reg.cafTileStuck_stuck0, min 0xFFFF (t.stuckUsed false)), (Reg.cafTileStuck_stuck1, min 0xFFFF (t.stuckUsed true)),
    (Reg.cafTileStuck_reencoded, min 0xFFFF t.reencoded), (Reg.cafTileStuck_deviated, min 0xFFFF t.deviated)]

/-- CAF_REMAP_ENTRY. -/
def State.remapEntry (s : State) (i spare : Nat) : W64 :=
  match (s.tileSeen i).remap.find? (fun r => decide (r.spare = spare)) with
  | none => 0
  | some r => wordOf [(Reg.cafRemapEntry_valid, 1), (Reg.cafRemapEntry_origin, b2n r.field), (Reg.cafRemapEntry_dataPair, r.pair)]

/-- The tiles of a slot that is not FREE: the counts shown for a FREE slot are 0, min_free included. (DESIGN CHOICE, assumption 78) -/
def TsetSlot.held (x : TsetSlot) : List Nat := if x.state = .free then [] else x.tiles

/-- CAF_TSET_HEALTH. -/
def State.tsetHealth (s : State) (x : TsetSlot) : W64 :=
  let l := x.held.map s.tileSeen
  wordOf [(Reg.cafTsetHealth_sparesUsed, (l.map (fun t => t.remap.length)).sum),
    (Reg.cafTsetHealth_minFree, ((l.map Tile.sparesFree).min?).getD 0),
    (Reg.cafTsetHealth_reencoded, min 0xFFFFFFFF (l.map (·.reencoded)).sum)]

/-- CAF_TSET_DEV: nonzero only for a slot installed in tolerant mode. -/
def State.tsetDev (s : State) (x : TsetSlot) : W64 :=
  if x.tolerant then BitVec.ofNat 64 (x.held.map (fun t => (s.tile t).deviated)).sum else 0

/-- CAF_HEALTH_SUM; a slot keeps `tolerant`, and counts, until its next START, FREE or not. (DESIGN CHOICE, assumption 78) -/
def State.healthSum (s : State) : W64 :=
  let l := (List.range 1024).map (fun t => (s.tileSeen t).sparesFree)
  wordOf [(Reg.cafHealthSum_tilesNoSpare, (l.filter (· = 0)).length),
    (Reg.cafHealthSum_tilesLowSpare, (l.filter (fun n => decide (1 ≤ n) && decide (n ≤ 4))).length),
    (Reg.cafHealthSum_tolerantSlots, (s.tsets.filter (fun e => e.2.tolerant)).length)]

end Sys2Proof.Machine
end

