-- ==== Sys2Proof/Machine/Models.lean ====
section
/-! DEFINITION. Models and their batch slots (R305 to R310): what a request binds to, and when a retiring slot becomes STALE. -/

namespace Sys2Proof.Machine

open Sys2Proof

/-- A model-table entry. -/
def State.model (s : State) (i : Nat) : Model := SMap.get {} s.models i

/-- Replace a model-table entry. -/
def State.setModel (s : State) (i : Nat) (m : Model) : State := { s with models := SMap.put {} s.models i m }

/-- The state of slot k (0 A, 1 B) of a model. -/
def Model.st (m : Model) (k : Nat) : SlotState := if k = 0 then m.stA else m.stB

/-- Set the state of a slot. -/
def Model.setSt (m : Model) (k : Nat) (x : SlotState) : Model := if k = 0 then { m with stA := x } else { m with stB := x }

/-- The install_id of a slot. -/
def Model.ver (m : Model) (k : Nat) : Nat := if k = 0 then m.verA else m.verB

/-- Set the install_id of a slot. -/
def Model.setVer (m : Model) (k : Nat) (v : Nat) : Model := if k = 0 then { m with verA := v } else { m with verB := v }

/-- The first page of a slot's backing range. -/
def Model.base (m : Model) (k : Nat) : Nat := if k = 0 then m.baseA else m.baseB

/-- R308, R309: the slot that a request of context c with number `num` binds to. -/
def Model.bindAt (m : Model) (c : CtxId) (num : Nat) : Option Nat :=
  match m.boundary with
  | some b =>
    if b.mask.getLsbD c.val then
      if (num + 2 ^ 48 - b.firstNew.getD c.val 0 % 2 ^ 48) % 2 ^ 48 < 2 ^ 47 then some b.new else some (1 - b.new)
    else some b.new
  | none => m.activeSlot

/-- What a request admitted now binds to, model by model (R192, R308, R309). -/
def State.bindFor (s : State) (c : CtxId) (num : Nat) : List (Nat × Nat) :=
  List.filterMap (fun (e : Nat × Model) => if e.2.valid then (e.2.bindAt c num).map (fun k => (e.1, k)) else none) s.models

/-- The open requests bound to slot k of model i (R308). -/
def State.boundCount (s : State) (i k : Nat) : Nat :=
  (allCtx.map (fun c => ((s.ctx c).reqs.filter (fun r => r.bind.contains (i, k))).length)).sum

/-- R284: a flash page is no longer live. -/
def State.pageDead (s : State) (p : Nat) : State :=
  { s with blks := SMap.put {} s.blks (p / 2048) { s.blk (p / 2048) with live := (s.blk (p / 2048)).live - 1 } }

/-- Pages that are no longer live. -/
def State.pagesDead (s : State) : List Nat → State
  | [] => s
  | p :: l => (s.pageDead p).pagesDead l

/-- Set the state of slot k of a list of logical tile sets. -/
def State.setTsets (s : State) (k : Nat) (st : TsetState) : List Nat → State
  | [] => s
  | t :: l => (s.setTset t k { s.tset t k with state := st }).setTsets k st l

/-- The logical tile sets of a model (R305). -/
def Model.tsets (m : Model) : List Nat := (List.range m.tsetN).map (m.tsetFirst + ·)

/-- The tile sets of a slot of a model that are in use: those not FREE. -/
def State.slotTsets (s : State) (m : Model) (k : Nat) : List Nat := m.tsets.filter (fun t => decide ((s.tset t k).state ≠ .free))

/-- A slot becomes STALE: its tile-set slots are FREE, and the pages of its deleted objects are no longer live (R307, R310). -/
def State.makeStale (s : State) (i k : Nat) : State :=
  let m := s.model i
  let dead := (s.orphans.filter (fun o => decide (o.model = i ∧ o.slot = k))).flatMap (·.pages)
  let s1 := (s.setModel i (m.setSt k .stale)).setTsets k .free (s.slotTsets m k)
  ({ s1 with orphans := s1.orphans.filter (fun o => !decide (o.model = i ∧ o.slot = k)) }).pagesDead dead

/-- R310: a RETIRING slot with no bound open request and no boundary in force becomes STALE. -/
def State.drainSlot (s : State) (i k : Nat) : State :=
  let m := s.model i
  if m.valid ∧ m.st k = .retiring ∧ m.boundary = none ∧ s.boundCount i k = 0 then s.makeStale i k else s

/-- R310 for both slots of a list of models. -/
def State.drainModels (s : State) : List Nat → State
  | [] => s
  | i :: l => ((s.drainSlot i 0).drainSlot i 1).drainModels l

/-- R310 for every model. -/
def State.drainSlots (s : State) : State := s.drainModels (SMap.keys s.models)

/-- R318: the pointers of the switches made are in the journal now. (DESIGN CHOICE, assumption 85) -/
def State.recordPtrs (s : State) : State :=
  { s with models := s.models.map (fun (e : Nat × Model) => (e.1, { e.2 with unrec := none })) }

/-- R318, R328: a model whose pointer is not in the journal has its old pointer: the new slot is STANDBY again and the other ACTIVE, and its
installation is READY again, so that the SWITCH can be repeated. (DEDUCED, assumption 58) -/
def State.unswitch (s : State) (i : Nat) : State :=
  let m := s.model i
  match m.unrec with
  | none => s
  | some u =>
    let m1 := m.setSt u.slot .standby
    let s0 := s.setModel i { (if u.wasActive then m1.setSt (1 - u.slot) .active else m1) with unrec := none }
    let s1 := { s0 with inst := { state := if u.leader then 3 else 2, model := i, slot := u.slot, leader := u.leader, hdr := u.hdr,
                                  devices := u.devices, reported := u.devices } }
    if u.wasActive then s1.setTsets (1 - u.slot) .ready u.tsets else s1

/-- R320 on one device: the ACTIVE slot retires, where the other is EMPTY or STALE; none: it may not. -/
def State.retireHere (s : State) (md : Nat) : Option State :=
  let m := s.model md
  m.activeSlot.bind (fun k =>
    if m.valid ∧ (m.st (1 - k) = .empty ∨ m.st (1 - k) = .stale) then
      some ((s.setModel md { m.setSt k .retiring with unrec := none }).setTsets k .retiring (s.slotTsets m k)).drainSlots
    else none)

end Sys2Proof.Machine
end

