-- ==== Sys2Proof/Machine/VecTables.lean ====
section
/-! DEFINITION. The tables and constants of the VEC functions of R60, each the exact mathematical value of its formula
rounded to FP32 by R39. -/

namespace Sys2Proof.Machine

/-- L = 64/ln 2, as FP32. -/
def cL : F32 := 0x42B8AA3B

/-- c_hi = ln 2/64 truncated to 16 significant bits, as FP32. -/
def cHi : F32 := 0x3C317200

/-- c_lo = ln 2/64 − c_hi, as FP32. -/
def cLo : F32 := 0x32BFBE8E

/-- ln 2, as FP32. -/
def cLn2 : F32 := 0x3F317218

/-- 2^−0.5, as FP32. -/
def cRsqrt2 : F32 := 0x3F3504F3

/-- 1, as FP32. -/
def cOne : F32 := 0x3F800000

/-- 2, as FP32. -/
def cTwo : F32 := 0x40000000

/-- 1/2, as FP32. -/
def cHalf : F32 := 0x3F000000

/-- 1/3, as FP32. -/
def cThird : F32 := 0x3EAAAAAB

/-- 1/6, as FP32. -/
def cSixth : F32 := 0x3E2AAAAB

/-- 1.5, as FP32. -/
def cOneHalf : F32 := 0x3FC00000

/-- −1/2, as FP32. -/
def cMinusHalf : F32 := 0xBF000000

/-- TE[i] of R60: 2^(i/64). -/
def tabTE : List Nat :=
  [0x3F800000, 0x3F8164D2, 0x3F82CD87, 0x3F843A29, 0x3F85AAC3, 0x3F871F62, 0x3F88980F, 0x3F8A14D5,
    0x3F8B95C2, 0x3F8D1ADF, 0x3F8EA43A, 0x3F9031DC, 0x3F91C3D3, 0x3F935A2B, 0x3F94F4F0, 0x3F96942D] ++
  [0x3F9837F0, 0x3F99E046, 0x3F9B8D3A, 0x3F9D3EDA, 0x3F9EF532, 0x3FA0B051, 0x3FA27043, 0x3FA43516,
    0x3FA5FED7, 0x3FA7CD94, 0x3FA9A15B, 0x3FAB7A3A, 0x3FAD583F, 0x3FAF3B79, 0x3FB123F6, 0x3FB311C4] ++
  [0x3FB504F3, 0x3FB6FD92, 0x3FB8FBAF, 0x3FBAFF5B, 0x3FBD08A4, 0x3FBF179A, 0x3FC12C4D, 0x3FC346CD,
    0x3FC5672A, 0x3FC78D75, 0x3FC9B9BE, 0x3FCBEC15, 0x3FCE248C, 0x3FD06334, 0x3FD2A81E, 0x3FD4F35B] ++
  [0x3FD744FD, 0x3FD99D16, 0x3FDBFBB8, 0x3FDE60F5, 0x3FE0CCDF, 0x3FE33F89, 0x3FE5B907, 0x3FE8396A,
    0x3FEAC0C7, 0x3FED4F30, 0x3FEFE4BA, 0x3FF28177, 0x3FF5257D, 0x3FF7D0DF, 0x3FFA83B3, 0x3FFD3E0C]

/-- TI[i] of R60: 1/c_i with c_i = 1 + (i + 0.5)/64. -/
def tabTI : List Nat :=
  [0x3F7E03F8, 0x3F7A232D, 0x3F76603E, 0x3F72B9D6, 0x3F6F2EB7, 0x3F6BBDB3, 0x3F6865AC, 0x3F652598,
    0x3F61FC78, 0x3F5EE95C, 0x3F5BEB62, 0x3F5901B2, 0x3F562B81, 0x3F53680D, 0x3F50B6A0, 0x3F4E168A] ++
  [0x3F4B8728, 0x3F4907DA, 0x3F46980C, 0x3F443730, 0x3F41E4BC, 0x3F3FA030, 0x3F3D6910, 0x3F3B3EE7,
    0x3F392144, 0x3F370FBB, 0x3F3509E7, 0x3F330F63, 0x3F311FD4, 0x3F2F3ADE, 0x3F2D602B, 0x3F2B8F6A] ++
  [0x3F29C84A, 0x3F280A81, 0x3F2655C4, 0x3F24A9CF, 0x3F23065E, 0x3F216B31, 0x3F1FD80A, 0x3F1E4CAD,
    0x3F1CC8E1, 0x3F1B4C70, 0x3F19D723, 0x3F1868C8, 0x3F17012E, 0x3F15A025, 0x3F144581, 0x3F12F114] ++
  [0x3F11A2B4, 0x3F105A38, 0x3F0F177A, 0x3F0DDA52, 0x3F0CA29C, 0x3F0B7034, 0x3F0A42F8, 0x3F091AC7,
    0x3F07F781, 0x3F06D905, 0x3F05BF37, 0x3F04A9FA, 0x3F039930, 0x3F028CC0, 0x3F01848E, 0x3F008081]

/-- TL[i] of R60: ln c_i. -/
def tabTL : List Nat :=
  [0x3BFF0153, 0x3CBDC8D8, 0x3D1CF43E, 0x3D5A16EC, 0x3D8B29B7, 0x3DA8D83A, 0x3DC61A2F, 0x3DE2F2A4,
    0x3DFF648A, 0x3E0DB957, 0x3E1B8FE1, 0x3E29372F, 0x3E36B07F, 0x3E43FD03, 0x3E511DE1, 0x3E5E1434] ++
  [0x3E6AE10B, 0x3E77856E, 0x3E82012D, 0x3E882C60, 0x3E8E44C6, 0x3E944AD1, 0x3E9A3EED, 0x3EA02184,
    0x3EA5F2FD, 0x3EABB3B9, 0x3EB16418, 0x3EB70475, 0x3EBC952B, 0x3EC2168F, 0x3EC788F4, 0x3ECCECAC] ++
  [0x3ED24205, 0x3ED7894A, 0x3EDCC2C5, 0x3EE1EEBD, 0x3EE70D78, 0x3EEC1F39, 0x3EF12441, 0x3EF61CCF,
    0x3EFB0920, 0x3EFFE970, 0x3F025EFD, 0x3F04C37A, 0x3F07224C, 0x3F097B8D, 0x3F0BCF56, 0x3F0E1DC1] ++
  [0x3F1066E7, 0x3F12AADE, 0x3F14E9C0, 0x3F1723A2, 0x3F19589A, 0x3F1B88BE, 0x3F1DB422, 0x3F1FDADC,
    0x3F21FCFF, 0x3F241A9F, 0x3F2633CD, 0x3F28489E, 0x3F2A5923, 0x3F2C656E, 0x3F2E6D8F, 0x3F307198]

/-- TQ[i] of R60: 1/√c_i, the second half with c_i doubled. -/
def tabTQ : List Nat :=
  [0x3F7F017E, 0x3F7D0D3E, 0x3F7B2452, 0x3F79464E, 0x3F7772CB, 0x3F75A969, 0x3F73E9CB, 0x3F723399,
    0x3F708681, 0x3F6EE232, 0x3F6D4660, 0x3F6BB2C5, 0x3F6A271A, 0x3F68A31D, 0x3F672691, 0x3F65B139] ++
  [0x3F6442DB, 0x3F62DB41, 0x3F617A36, 0x3F601F87, 0x3F5ECB04, 0x3F5D7C7F, 0x3F5C33CC, 0x3F5AF0BF,
    0x3F59B330, 0x3F587AF7, 0x3F5747EE, 0x3F5619F2, 0x3F54F0DF, 0x3F53CC93, 0x3F52ACEE, 0x3F5191D1] ++
  [0x3F507B1D, 0x3F4F68B6, 0x3F4E5A7F, 0x3F4D505E, 0x3F4C4A38, 0x3F4B47F4, 0x3F4A497A, 0x3F494EB3,
    0x3F485787, 0x3F4763E2, 0x3F4673AC, 0x3F4586D3, 0x3F449D42, 0x3F43B6E6, 0x3F42D3AD, 0x3F41F383] ++
  [0x3F411659, 0x3F403C1C, 0x3F3F64BD, 0x3F3E902C, 0x3F3DBE58, 0x3F3CEF34, 0x3F3C22B1, 0x3F3B58C0,
    0x3F3A9154, 0x3F39CC60, 0x3F3909D6, 0x3F3849AA, 0x3F378BD0, 0x3F36D03D, 0x3F3616E4, 0x3F355FBA] ++
  [0x3F3450FC, 0x3F32EF41, 0x3F319589, 0x3F304387, 0x3F2EF8F2, 0x3F2DB587, 0x3F2C7904, 0x3F2B432A,
    0x3F2A13C0, 0x3F28EA8C, 0x3F27C759, 0x3F26A9F4, 0x3F25922C, 0x3F247FD3, 0x3F2372BD, 0x3F226ABE] ++
  [0x3F2167AF, 0x3F206968, 0x3F1F6FC4, 0x3F1E7AA0, 0x3F1D89D9, 0x3F1C9D4E, 0x3F1BB4E1, 0x3F1AD073,
    0x3F19EFE6, 0x3F191320, 0x3F183A05, 0x3F17647C, 0x3F16926C, 0x3F15C3BC, 0x3F14F857, 0x3F143026] ++
  [0x3F136B13, 0x3F12A90B, 0x3F11E9F9, 0x3F112DCA, 0x3F10746D, 0x3F0FBDCE, 0x3F0F09DD, 0x3F0E5889,
    0x3F0DA9C2, 0x3F0CFD79, 0x3F0C539F, 0x3F0BAC25, 0x3F0B06FD, 0x3F0A641A, 0x3F09C36D, 0x3F0924EC] ++
  [0x3F088889, 0x3F07EE37, 0x3F0755ED, 0x3F06BF9E, 0x3F062B40, 0x3F0598C7, 0x3F05082A, 0x3F04795F,
    0x3F03EC5C, 0x3F036117, 0x3F02D788, 0x3F024FA6, 0x3F01C967, 0x3F0144C4, 0x3F00C1B4, 0x3F004030]

/-- TF[i] of R60: erf(x_i) with x_i = (i + 0.5)/16. -/
def tabTF : List Nat :=
  [0x3D1062B2, 0x3DD80409, 0x3E331506, 0x3E78C855, 0x3E9E4D54, 0x3EBF0ACA, 0x3EDE67F6, 0x3EFC37D5,
    0x3F0C2AD3, 0x3F1952A6, 0x3F2589B9, 0x3F30CAAB, 0x3F3B1438, 0x3F4468E7, 0x3F4CCEA1, 0x3F544E43] ++
  [0x3F5AF318, 0x3F60CA59, 0x3F65E2A6, 0x3F6A4B88, 0x3F6E14FE, 0x3F714F11, 0x3F74097E, 0x3F765366,
    0x3F783B18, 0x3F79CDE1, 0x3F7B17F4, 0x3F7C2456, 0x3F7CFCDD, 0x3F7DAA32, 0x3F7E33DE, 0x3F7EA05F] ++
  [0x3F7EF537, 0x3F7F370C, 0x3F7F69BA, 0x3F7F9070, 0x3F7FADC8, 0x3F7FC3D9, 0x3F7FD450, 0x3F7FE081,
    0x3F7FE975, 0x3F7FEFFD, 0x3F7FF4B5, 0x3F7FF819, 0x3F7FFA82, 0x3F7FFC36, 0x3F7FFD68, 0x3F7FFE3D] ++
  [0x3F7FFED0, 0x3F7FFF34, 0x3F7FFF79, 0x3F7FFFA7, 0x3F7FFFC6, 0x3F7FFFDA, 0x3F7FFFE8, 0x3F7FFFF0,
    0x3F7FFFF6, 0x3F7FFFFA, 0x3F7FFFFC, 0x3F7FFFFE, 0x3F7FFFFF, 0x3F7FFFFF, 0x3F7FFFFF, 0x3F800000]

/-- D1[i] of R60: erf′(x_i). -/
def tabD1 : List Nat :=
  [0x3F904AA3, 0x3F8F2B2E, 0x3F8CF2F5, 0x3F89AF18, 0x3F8572A8, 0x3F8055E8, 0x3F74EAD4, 0x3F67E20F,
    0x3F59D57E, 0x3F4B0B28, 0x3F3BC8DC, 0x3F2C5223, 0x3F1CE661, 0x3F0DBF4C, 0x3EFE1F73, 0x3EE20584] ++
  [0x3EC7769B, 0x3EAEA7EA, 0x3E97BE62, 0x3E82CFAD, 0x3E5FC70E, 0x3E3DEAE4, 0x3E1FED36, 0x3E059FA9,
    0x3DDD8E4C, 0x3DB63F32, 0x3D94BEDD, 0x3D70EA68, 0x3D4194C7, 0x3D1A561B, 0x3CF42E22, 0x3CBFA8C4] ++
  [0x3C9543AE, 0x3C66AF65, 0x3C30DF57, 0x3C068EB5, 0x3BCB237A, 0x3B9824CE, 0x3B622096, 0x3B26BC5E,
    0x3AF3F919, 0x3AB11AFE, 0x3A7F20E7, 0x3A365507, 0x3A014AF8, 0x39B5F011, 0x397E06AB, 0x392FF56D] ++
  [0x38F1DE7A, 0x38A4F0BC, 0x385F355E, 0x3815DAE6, 0x37C7A666, 0x3783F5E9, 0x372D1570, 0x36E14167,
    0x36916F95, 0x363A56E4, 0x35ECE39B, 0x35956771, 0x353AFD47, 0x34E8356B, 0x348F0F43, 0x342EE6B3]

/-- D2[i] of R60: erf″(x_i)/2. -/
def tabD2 : List Nat :=
  [0xBD104AA3, 0xBDD6C0C5, 0xBE302FB2, 0xBE70F26A, 0xBE9620FD, 0xBEB0761E, 0xBEC6FECD, 0xBED963EE,
    0xBEE772D6, 0xBEF11D3F, 0xBEF677A1, 0xBEF7B612, 0xBEF527F7, 0xBEEF32D1, 0xBEE64C80, 0xBEDAF557] ++
  [0xBECDB250, 0xBEBF07A8, 0xBEAF7421, 0xBE9F6D1B, 0xBE8F5B85, 0xBE7F33A2, 0xBE60E594, 0xBE444281,
    0xBE29A0F2, 0xBE113A5C, 0xBDF65C1E, 0xBDCF0971, 0xBDAC6881, 0xBD8E4761, 0xBD68BBF9, 0xBD3CAA21] ++
  [0xBD1798BC, 0xBCF17F9D, 0xBCBEB0CA, 0xBC954650, 0xBC67B477, 0xBC324B21, 0xBC08079A, 0xBBCDD084,
    0xBB9A63A2, 0xBB65AF01, 0xBB296BD9, 0xBAF7DB95, 0xBAB3CC40, 0xBA8158AC, 0xBA3890D8, 0xBA029827] ++
  [0xB9B74A99, 0xB97F2462, 0xB930201C, 0xB8F12C4A, 0xB8A3C680, 0xB85C9F22, 0xB8136441, 0xB7C356B7,
    0xB7806481, 0xB7276A11, 0xB6D8880C, 0xB68AE62C, 0xB630C36D, 0xB5DF2355, 0xB58BB4E7, 0xB52D88E6]

/-- D3[i] of R60: erf‴(x_i)/6. -/
def tabD3 : List Nat :=
  [0xBEC00353, 0xBEBB893A, 0xBEB2C175, 0xBEA60273, 0xBE95C806, 0xBE82ACCE, 0xBE5AC46C, 0xBE2D4EF5,
    0xBDFD014C, 0xBD9FAF71, 0xBD0AE1E3, 0x3BF41F07, 0x3D38AF2D, 0x3DA03435, 0x3DD9B99C, 0x3E0423E4] ++
  [0x3E15DB71, 0x3E2225E3, 0x3E29541D, 0x3E2BDC2D, 0x3E2A4F53, 0x3E254FF5, 0x3E1D8829, 0x3E13A13B,
    0x3E083C95, 0x3DF7DC48, 0x3DDE70C2, 0x3DC513C0, 0x3DAC78A3, 0x3D952963, 0x3D7F11DC, 0x3D57ADD5] ++
  [0x3D3468E2, 0x3D155273, 0x3CF4A394, 0x3CC66039, 0x3C9F439B, 0x3C7D39EC, 0x3C475ED0, 0x3C1B793A,
    0x3BF0335F, 0x3BB7D264, 0x3B8B60C9, 0x3B516D3E, 0x3B1BE9C7, 0x3AE60EC4, 0x3AA836B5, 0x3A73CE04] ++
  [0x3A2F1F70, 0x39F95ECB, 0x39AFFF8F, 0x39764547, 0x392ACF82, 0x38EAE78B, 0x38A0239B, 0x3858798A,
    0x381111A7, 0x37C0C8C6, 0x377E06FD, 0x3725F3AC, 0x36D70119, 0x368A1C30, 0x362FF2EA, 0x35DE48D3]

end Sys2Proof.Machine
end

