-- ==== Sys2Proof/Machine/VecFuncs.lean ====
section
/-! DEFINITION. The VEC functions defined to the bit (R59, R60), the random words (R61, R62), and the canonical tree sum of R491. -/

namespace Sys2Proof.Machine

/-- Entry i of a table of FP32 patterns. -/
def tabAt (t : List Nat) (i : Nat) : F32 := BitVec.ofNat 32 (t.getD i 0)

/-- The quiet NaN with a sign (R489). -/
def qnan (neg : Bool) : F32 := if neg then 0xFFC00000 else 0x7FC00000

/-- ±∞ as FP32. -/
def f32Inf (neg : Bool) : F32 := if neg then 0xFF800000 else 0x7F800000

/-- ±0 as FP32. -/
def f32Zero (neg : Bool) : F32 := if neg then 0x80000000 else 0

/-- ±1 as FP32. -/
def f32One (neg : Bool) : F32 := if neg then 0xBF800000 else 0x3F800000

/-- Sign inverted; a NaN keeps its own sign through the operation that follows. -/
def f32Neg (x : F32) : F32 := x ^^^ 0x80000000

/-- x = 2^E × M with 1 ≤ M < 2 for a positive finite nonzero x: E, the pattern of M, and M's mantissa bits [22:17]. -/
def splitF32 (x : F32) : Int × F32 × Nat :=
  match F32.val x with
  | .fin _ m e =>
    let l := bitLen m
    let man := m * 2 ^ (24 - l)
    (e + (l : Int) - 1, BitVec.ofNat 32 (0x3F800000 + (man - 2 ^ 23)), bitsOf (man - 2 ^ 23) 17 6)
  | _ => (0, cOne, 0)

/-- c_i = 1 + (i + 0.5)/64, exact in FP32. -/
def midC (i : Nat) : F32 := f32OfVal (.fin false (129 + 2 * i) (-7))

/-- exp of R60. -/
def fnExp (x : F32) : F32 :=
  match F32.val x with
  | .nan n => qnan n
  | v =>
    if Val.lt (.fin false 89 0) v then f32Inf false
    else if Val.lt v (.fin true 104 0) then f32Zero false
    else
      let j := Val.toIntTa (F32.val (f32Mul x cL))
      let jf := f32OfInt j
      let rho := f32Sub (f32Sub x (f32Mul jf cHi)) (f32Mul jf cLo)
      let p := f32Add cOne (f32Mul rho (f32Add cOne (f32Mul rho (f32Add cHalf (f32Mul rho cSixth)))))
      f32Scale (f32Mul (tabAt tabTE (j % 64).toNat) p) (j / 64)

/-- log of R60. -/
def fnLog (x : F32) : F32 :=
  match F32.val x with
  | .nan n => qnan n
  | .inf n => if n then qnan false else f32Inf false
  | .fin n m _ =>
    if m = 0 then f32Inf true
    else if n then qnan false
    else
      let (e, mm, i) := splitF32 x
      let t := f32Mul (f32Sub mm (midC i)) (tabAt tabTI i)
      let q := f32Mul t (f32Add cOne (f32Mul t (f32Add cMinusHalf (f32Mul t cThird))))
      f32Add (f32Mul (f32OfInt e) cLn2) (f32Add (tabAt tabTL i) q)

/-- recip of R60; the sign of the argument is kept. -/
def fnRecip (x : F32) : F32 :=
  match F32.val x with
  | .nan n => qnan n
  | .inf n => f32Zero n
  | .fin n m _ =>
    if m = 0 then f32Inf n
    else
      let (e, mm, i) := splitF32 (if n then f32Neg x else x)
      let refine : F32 → F32 := fun y => f32Mul y (f32Sub cTwo (f32Mul mm y))
      let y := f32Scale (refine (refine (tabAt tabTI i))) (-e)
      if n then f32Neg y else y

/-- rsqrt of R60. -/
def fnRsqrt (x : F32) : F32 :=
  match F32.val x with
  | .nan n => qnan n
  | .inf n => if n then qnan false else f32Zero false
  | .fin n m _ =>
    if m = 0 then f32Inf n
    else if n then qnan false
    else
      let (e, mm, i) := splitF32 x
      let par := (e % 2).toNat
      let mp := f32Scale mm (par : Int)
      let half := f32Mul cHalf mp
      let refine : F32 → F32 := fun y => f32Mul y (f32Sub cOneHalf (f32Mul (f32Mul half y) y))
      f32Scale (refine (refine (tabAt tabTQ (64 * par + i)))) (-(e / 2))

/-- |x| as FP32. -/
def f32Abs (x : F32) : F32 := x &&& 0x7FFFFFFF

/-- tanh of R60. -/
def fnTanh (x : F32) : F32 :=
  match F32.val x with
  | .nan n => qnan n
  | v =>
    if Val.lt v.abs (.fin false 1 (-12)) then x
    else if !(Val.lt v.abs (.fin false 9 0)) then f32One v.isNeg
    else
      let y := f32Sub cOne (f32Mul cTwo (fnRecip (f32Add (fnExp (f32Mul cTwo (f32Abs x))) cOne)))
      if v.isNeg then f32Neg y else y

/-- sigmoid of R60. -/
def fnSigmoid (x : F32) : F32 :=
  match F32.val x with
  | .nan n => qnan n
  | _ => fnRecip (f32Add cOne (fnExp (f32Neg x)))

/-- erf of R60. The sign of a zero argument is its sign bit. (DESIGN CHOICE, assumption 80) -/
def fnErf (x : F32) : F32 :=
  match F32.val x with
  | .nan n => qnan n
  | v =>
    if !(Val.lt v.abs (.fin false 4 0)) then f32One v.isNeg
    else
      let i := match v with
        | .fin _ m e => if 0 ≤ e + 4 then m * 2 ^ (e + 4).toNat else m / 2 ^ (-(e + 4)).toNat
        | _ => 0
      let d := f32Sub (f32Abs x) (f32OfVal (.fin false (2 * i + 1) (-5)))
      let y := f32Add (tabAt tabTF i)
        (f32Mul d (f32Add (tabAt tabD1 i) (f32Mul d (f32Add (tabAt tabD2 i) (f32Mul d (tabAt tabD3 i))))))
      if v.isNeg then f32Neg y else y

/-- The rectifier of R64: max(x, 0). -/
def fnRect (x : F32) : F32 :=
  match F32.val x with
  | .nan n => qnan n
  | v => if v.isNeg then f32Zero false else x

/-- GELU of R64: x × 0.5 × (1 + erf(x × 2^−0.5)). -/
def fnGelu (x : F32) : F32 :=
  match F32.val x with
  | .nan n => qnan n
  | _ => f32Mul (f32Mul x cHalf) (f32Add cOne (fnErf (f32Mul x cRsqrt2)))

/-- The function the func field names (R64); 0 is none. A NaN becomes quiet with its sign (R489). -/
def applyFunc (func : Nat) (x : F32) : F32 :=
  match func with
  | 1 => fnExp x | 2 => fnLog x | 3 => fnRecip x | 4 => fnRsqrt x | 5 => fnTanh x
  | 6 => fnSigmoid x | 7 => fnErf x | 8 => fnRect x | 9 => fnGelu x
  | _ =>
    match F32.val x with
    | .nan n => qnan n
    | _ => x

/-- The multipliers of R61. -/
def rndMul : List W64 := [0xD3A15E6B27C94F85, 0x8B5F0C3D91E76A2B, 0xA64C7F193B2DE5C7, 0xC1E94A6F58B30D1F]

/-- `random_word` of R61. -/
def randomWord (seed : BitVec 128) (step : W64) (st el : Nat) : BitVec 32 :=
  let x0 : W64 := seed.setWidth 64 ^^^ step
  let y0 : W64 := (seed >>> 64).setWidth 64 ^^^ BitVec.ofNat 64 (st * 2 ^ 48) ^^^ BitVec.ofNat 64 (el % 2 ^ 48)
  let r := rndMul.foldl (fun (p : W64 × W64) c =>
    let x := (p.1 ^^^ p.2) * c
    (x ^^^ (x >>> 32), rotl64 p.2 23)) (x0, y0)
  r.1.setWidth 32

/-- The FP32 value in [0, 1) of a random word (R62). -/
def randomF32 (w : BitVec 32) : F32 := f32OfVal (.fin false (w.toNat / 256) (-24))

/-- One level of pairwise additions. -/
def pairLevel : List F32 → List F32
  | a :: b :: l => f32Add a b :: pairLevel l
  | l => l

/-- Repeated pairing of a list whose length is a power of two. -/
def treeLevels : Nat → List F32 → F32
  | 0, l => l.headD 0
  | n + 1, l => treeLevels n (pairLevel l)

/-- The exponent of the next power of two at or above a count. -/
def ceilLog2 (n : Nat) : Nat := if n ≤ 1 then 0 else bitLen (n - 1)

/-- tree(v) of R491: the list padded with +0 to a power of two, pairs added level by level by R40. -/
def treeSum (l : List F32) : F32 :=
  let k := ceilLog2 l.length
  treeLevels k (l ++ List.replicate (2 ^ k - l.length) 0)

end Sys2Proof.Machine
end

