-- ==== Sys2Proof/Machine/MxeMath.lean ====
section
/-! DEFINITION. The matrix engine's arithmetic: paths (R121), chunk values (R124 to R126) and the canonical chunk tree (R127). -/

namespace Sys2Proof.Machine

/-- The paths of R121. -/
inductive MxePath where
  | integer | dual | fp8 | bf16 | int16
  deriving DecidableEq, Repr

/-- The path a pair of activation and weight formats runs on (R121). -/
def mxePath (a w : Fmt) : Option MxePath :=
  match a, w with
  | .int4, .int4 => some .dual
  | .int8, .int8 | .uint8, .int8 | .int4, .int8 => some .integer
  | .int8, .int4 | .uint8, .int4 => some .integer
  | .e4m3, .e4m3 | .e4m3, .e5m2 | .e5m2, .e4m3 | .e5m2, .e5m2 => some .fp8
  | .bf16, .bf16 => some .bf16
  | .int16, .int4 | .int16, .int8 => some .int16
  | .int16, .int16 | .int8, .int16 | .uint8, .int16 | .int4, .int16 => some .int16
  | _, _ => none

/-- Does the path accumulate exact integers? -/
def MxePath.isInt : MxePath → Bool
  | .integer | .dual | .int16 => true
  | _ => false

/-- Bytes of a weight vector of 512 elements (R121). -/
def vecBytes (w : Fmt) : Nat := 64 * w.bits

/-- The activation bound A of R134. -/
def actMag : Fmt → Nat
  | .int4 => 8 | .int8 => 128 | .uint8 => 255 | _ => 32768

/-- The weight bound W of R134. -/
def wgtMag : Fmt → Nat
  | .int4 => 8 | .int8 => 128 | _ => 32768

/-- The bound of R134 for an INT32 output. -/
def int32Fits (k : Nat) (a w : Fmt) (nOut : Nat) : Bool :=
  decide (k * actMag a * wgtMag w + nOut * 32768 * wgtMag w ≤ 2 ^ 31 - 1)

/-- The integer chunk value of R124. -/
def chunkInt (ps : List (Int × Int)) : Int := (ps.map (fun p => p.1 * p.2)).sum

/-- The FP8 chunk value of R125, scaled by 2^e and rounded once. -/
def chunkFp8 (e : Int) (ps : List (Val × Val)) : F32 :=
  let prods := ps.map (fun p => Val.mul p.1 p.2)
  let hasNan := prods.any Val.isNan
  let posInf := prods.any (fun v => v == .inf false)
  let negInf := prods.any (fun v => v == .inf true)
  if hasNan || (posInf && negInf) then qnan false
  else if posInf then f32Inf false
  else if negInf then f32Inf true
  else
    match prods.foldl Val.add .zero with
    | .fin n m k => if m = 0 then 0 else f32OfVal ((Val.fin n m k).scale e)
    | _ => 0

/-- The BF16 chunk value of R126: rounded products summed in the canonical tree over 512 positions. -/
def chunkBf16 (ps : List (F32 × F32)) : F32 :=
  let prods := ps.map (fun p => f32Mul p.1 p.2)
  treeLevels 9 (prods ++ List.replicate (512 - prods.length) 0)

/-- A BF16 code widened exactly to FP32. -/
def f32OfBf16 (c : Nat) : F32 := BitVec.ofNat 32 (c * 65536)

/-- An integer tree node with its padding. -/
def treeNodeInt (lg : Nat) (vs : List Int) : Int := reduceLevels lg (vs ++ List.replicate (2 ^ lg - vs.length) 0)

/-- An FP32 tree node with its padding of +0 (R127). -/
def treeNodeF32 (lg : Nat) (vs : List F32) : F32 := treeLevels lg (vs ++ List.replicate (2 ^ lg - vs.length) 0)

/-- The node conditions of R129 for a command's own chunks. -/
def nodeOk (k base lg ctot : Nat) : Bool :=
  let c := ceilDiv k 512
  decide (base % 2 ^ lg = 0) && decide (c ≤ 2 ^ lg) && decide (base + c ≤ ctot)
    && (decide (c = 2 ^ lg) || decide (base + c = ctot)) && decide (2 ^ lg ≤ 2 ^ ceilLog2 ctot)

/-- Is the MATMUL partial (R129)? -/
def isPartial (base lg ctot : Nat) : Bool := !(decide (base = 0) && decide (ctot ≤ 2 ^ lg))

end Sys2Proof.Machine
end

