-- ==== Sys2Proof/Machine/Quota.lean ====
section
/-! DEFINITION. Quotas, usage and free pages of the tiers (R249, R264, R268), in 4 KiB pages. -/

namespace Sys2Proof.Machine

open Sys2Proof

/-- The allocation unit of a tier, in 4 KiB pages (R249). -/
def unitPages (t : Nat) : Nat := if t = 1 then 16 else if t = 2 then 4 else 1

/-- The charge of `size` pages in a tier. -/
def chargeOf (t size : Nat) : Nat := roundUp size (unitPages t)

/-- Whether an object's copy in tier t is charged to someone: it is held there above its home. -/
def Obj.copyCharged (o : Obj) (t : Nat) : Bool :=
  decide (o.home.val ≠ t) && (if t = 0 then !o.hold0.isEmpty else if t = 1 then !o.hold1.isEmpty else false)

/-- What one object charges to context c in tier t (R264, R268). -/
def Obj.usage (o : Obj) (c : CtxId) (t : Nat) : Nat :=
  if !o.valid then 0
  else
    (if o.home.val = t ∧ t < 3 ∧ o.owner = c then chargeOf t o.size else 0) +
    (if o.copyCharged t ∧ (if t = 0 then o.chg0 else o.chg1) = c then chargeOf t o.size else 0)

/-- The stream slots of the device that hold a lookahead buffer (R222). (DEDUCED, assumption 24) -/
def State.bufferedSlots (s : State) : List (CtxId × Engine × Nat) :=
  ((s.armings.filter (·.buffered)).map (fun a => (a.ctx, a.eng, a.slot))).dedup

/-- R268: what context c uses of tier t: home charges, copy charges and, in T0, 64 pages for each lookahead buffer. -/
def State.usage (s : State) (c : CtxId) (t : Nat) : Nat :=
  (List.map (fun (e : Nat × Obj) => e.2.usage c t) s.objs).sum +
  (if t = 0 then 64 * (s.bufferedSlots.filter (fun k => decide (k.1 = c))).length else 0)

/-- The quota of context c in tier t (MEM_QUOTA). -/
def State.quota (s : State) (c : CtxId) (t : Nat) : Nat := SMap.get 0 s.quotas (4 * c.val + t)

/-- The pages of a tier that everything charged takes. -/
def State.usedPages (s : State) (t : Nat) : Nat := (allCtx.map (fun c => s.usage c t)).sum

/-- The T2 pages of the device in 4 KiB units: 256 GiB for each WST die that works (R3, R450). -/
def State.t2Pages (s : State) : Nat := (16 - popCount 16 s.fac.calBad.toNat) * 2 ^ 26

/-- The capacity of a tier (R249). -/
def State.tierPages (s : State) (t : Nat) : Nat := if t = 0 then 49152 else if t = 1 then 12582912 else s.t2Pages

/-- The free pages of a tier. -/
def State.freePages (s : State) (t : Nat) : Nat := s.tierPages t - s.usedPages t

/-- Whether context c may be charged `n` pages of tier t by its quota (R268). -/
def State.quotaTakes (s : State) (c : CtxId) (t n : Nat) : Bool := decide (s.usage c t + n ≤ s.quota c t)

end Sys2Proof.Machine
end

