-- ==== Sys2Proof/Machine/Stream.lean ====
section
/-! DEFINITION. The Tensor Mover (chapters 6 and 8): slots and armings (R217 to R224), the arbiter (R227 to R230), faults in mid-stream
(R231, R232), and the meanings of its commands but context save and restore. -/

namespace Sys2Proof.Machine

open Sys2Proof

/-! ### Slots (R217 to R220) -/

/-- Whether an arming lies in a slot. -/
def Arming.at (a : Arming) (c : CtxId) (e : Engine) (slot : Nat) : Bool :=
  decide (a.ctx = c) && decide (a.eng = e) && decide (a.slot = slot)

/-- The armings of a slot, oldest first, with their places. -/
def State.slotArms (s : State) (c : CtxId) (e : Engine) (slot : Nat) : List (Nat × Arming) :=
  (s.armings.zipIdx.filter (fun a => a.1.at c e slot)).map (fun p => (p.2, p.1))

/-- The current arming of a slot: the oldest with a transfer still to make or to retire. -/
def State.current (s : State) (c : CtxId) (e : Engine) (slot : Nat) : Option (Nat × Arming) :=
  (s.slotArms c e slot).find? (fun a => !a.2.fetched && !a.2.draining)

/-- The arming of a slot that is fetched: the oldest with a transfer still to make or to retire; a restored draining arming is fetched
before the current one, so that no two walks of a slot mix (R217, R241). -/
def State.fetching (s : State) (c : CtxId) (e : Engine) (slot : Nat) : Option (Nat × Arming) :=
  (s.slotArms c e slot).find? (fun a => !a.2.fetched)

/-- The armings of a slot behind its current one. -/
def State.shadowed (s : State) (c : CtxId) (e : Engine) (slot : Nat) : Bool :=
  let l := (s.slotArms c e slot).dropWhile (fun a => a.2.fetched || a.2.draining)
  decide (1 < l.length)

/-- R217, R218: whether an ARM for a slot is rejected: its shadow holds an arming, or it holds three. (DEDUCED, assumption 24) -/
def State.armBusy (s : State) (c : CtxId) (e : Engine) (slot : Nat) : Bool :=
  s.shadowed c e slot || decide (3 ≤ (s.slotArms c e slot).length)

/-- R171: the code tables of a context that its armings pin: until the last block of the arming has been decoded. -/
def State.pinned (s : State) (c : CtxId) (t : Nat) : Bool :=
  s.armings.any (fun a => decide (a.ctx = c) && a.desc.cmp && Nat.testBit a.desc.tmask t && decide (a.decBlk < a.desc.count))

/-- An operand of a command: `rows` rows of `rb` bytes, `stride` apart, from an address. -/
structure Opnd where
  addr : Nat
  rb : Nat
  stride : Nat
  rows : Nat
  side : Bool := false
  deriving DecidableEq, Repr

/-- An operand of `n` rows. -/
def Opnd.rect (a rb stride n : Nat) : Opnd := { addr := a, rb := rb, stride := stride, rows := n }

/-- An operand of consecutive bytes. -/
def Opnd.line (a n : Nat) : Opnd := Opnd.rect a n n 1

/-- The walk of a direct operand read (R223): rate 16,384 and no deadline. -/
def Opnd.desc (o : Opnd) : Desc :=
  { base := o.addr, ndim := 2, cnt := [o.rb - 1, o.rows - 1], stride := [1, (o.stride : Int)], rate := 16384 }

/-- A slot number of its own for a direct read of context c on engine e: the lowest above 31 that no other has.
(DESIGN CHOICE, assumption 71) -/
def State.directSlot (s : State) (c : CtxId) (e : Engine) : Nat :=
  ((List.range (s.armings.length + 1)).find? (fun k => !(s.armings.any (fun a =>
    decide (a.ctx = c) && decide (a.eng = e) && decide (a.slot = 32 + k))))).getD 0 + 32

/-- The place of the oldest arming of a slot that has no consumer: the one a command may attach to (R219). -/
def State.nextArm (s : State) (c : CtxId) (e : Engine) (slot : Nat) : Option Nat :=
  s.armings.findIdx? (fun a => a.at c e slot && decide (a.consumer = none))

/-- R219: attach one operand of a command to the lowest-numbered slot whose oldest arming without a consumer matches it; one that matches
none becomes a direct read of the command (R223). -/
def State.attachOne (s : State) (x : Exec) (o : Opnd) : State :=
  let ok := fun (a : Arming) => !a.desc.cmp && decide (a.desc.base = o.addr) && decide (a.desc.len = o.rb * o.rows)
  match (List.range 32).findSome? (fun k => (s.nextArm x.ctx x.eng k).filter (fun i => (s.armings[i]?).any ok)) with
  | none =>
    if o.rb * o.rows = 0 then s
    else { s with armings := s.armings ++
      [{ ctx := x.ctx, eng := x.eng, slot := s.directSlot x.ctx x.eng, desc := o.desc, direct := true, bind := x.bind,
         consumer := some (x.eng, x.slot), side := o.side }] }
  | some i => { s with armings := s.armings.modify i (fun a => { a with consumer := some (x.eng, x.slot), side := o.side }) }

/-- Attach the operands of a command in the order it reads them. -/
def State.attachOps (s : State) (x : Exec) : List Opnd → State
  | [] => s
  | o :: l => (s.attachOne x o).attachOps x l

/-- R136, R219: attach the weight stream of a MATMUL: the oldest arming of slot `wslot` without a consumer, if its length is the
command's. -/
def State.attachWeights (s : State) (x : Exec) (wslot len : Nat) : State :=
  match s.nextArm x.ctx .mxe wslot with
  | none => s
  | some i =>
    if (s.armings[i]?).any (fun a => decide (a.desc.len = len)) then
      { s with armings := s.armings.modify i (fun a => { a with consumer := some (.mxe, x.slot) }) }
    else s

/-- The slot number under which a stream's headers, records and check values are asked of a peer. -/
def metaSlot (slot : Nat) : Nat := 2 ^ 19 + slot

/-- What was asked of peers for a slot of streams is dropped on arrival (R220, R231, R236): its answer finds no request. -/
def State.dropReqs (s : State) (c : CtxId) (e : Engine) (slot : Nat) : State :=
  { s with link := { s.link with peerReqs := s.link.peerReqs.filter (fun r =>
      !(decide (r.ctx = c) && decide (r.eng = e) && !r.write && (if r.stream then decide (r.slot = slot) else decide (r.slot = metaSlot slot)))) } }

/-- What was asked of peers for a list of removed armings is dropped; `kept` are those that stay. Only one arming of a slot is fetched
at a time (R217). -/
def State.dropReqsOf (s : State) (kept : List Arming) : List Arming → State
  | [] => s
  | a :: l => (if a.fetched || (a.flight.isEmpty && kept.any (fun b => b.at a.ctx a.eng a.slot && !b.fetched)) then s
      else s.dropReqs a.ctx a.eng a.slot).dropReqsOf kept l

/-- Remove armings: their transfers in flight are dropped on arrival, and a slot's buffer stays while an arming is left in the slot
(R220, R222, R236). -/
def State.removeArms (s : State) (p : Arming → Bool) : State :=
  let kept := s.armings.filter (fun a => !p a)
  let flag := fun (a : Arming) => a.buffered || s.armings.any (fun b => b.buffered && b.at a.ctx a.eng a.slot)
  let t : State := { s with armings := kept.map (fun a => { a with buffered := flag a }) }
  t.dropReqsOf kept (s.armings.filter p)

/-- R220: the armings of a command retire when it completes: its own and those of its fill entries. -/
def State.retireArms (s : State) (c : CtxId) (e : Engine) (slot : Nat) : State :=
  s.removeArms (fun a => decide (a.ctx = c) && a.consumer.any (fun k => decide (k.1 = e ∧ k.2 % 4096 = slot)))

/-- R15: a command whose status is in class 0x2_ has no effect on a stream: what it attached stays in its slot, without a consumer.
A COPY's own walk and a direct read are no armings of a slot and are left to `retireArms`. (DEDUCED, assumption 67) -/
def State.detachArms (s : State) (x : Exec) : State :=
  { s with armings := s.armings.map (fun a =>
      if a.ctx = x.ctx ∧ a.eng ≠ .tmv ∧ a.direct = false ∧ a.consumer = some (x.eng, x.slot) then { a with consumer := none } else a) }

/-! ### Buffers (R222) -/

/-- Whether a whole block of a compressed stream has arrived. -/
def Arming.blockIn (a : Arming) : Bool := decide (24 ≤ a.data.length) && decide (blockLen a.data ≤ a.data.length)

/-- Whether an arming has its slot's lookahead buffer. -/
def Arming.hasBuffer (a : Arming) : Bool := a.buffered && !a.unbuffered && decide (a.desc.tier ≠ 0)

/-- Whether an arming is the weight stream attached to a MATMUL, the primary's or a fill entry's (R136, R142). -/
def Arming.weightOf (a : Arming) (x : Exec) : Bool :=
  decide (a.ctx = x.ctx) && decide (a.consumer = some (.mxe, x.slot)) && decide (a.slot = (x.words : Entry).pos 244 5)

/-- The MATMUL in execution with its fill entries, in the order the array runs them: HEAD entries, the primary, TAIL entries (R142). -/
def State.arrayOrder (s : State) : List Exec :=
  let open? := fun (x : Exec) => decide (x.eng = .mxe) && decide (x.result = none) && decide ((x.words : Entry).opcode = 1)
  match s.running.find? (fun x => open? x && x.fillOf.isNone) with
  | none => []
  | some p =>
    let l := s.running.filter (fun x => open? x && decide (x.ctx = p.ctx) && decide (x.fillOf = some p.slot))
    l.filter (fun x => !(x.words : Entry).bit 6 59) ++ [p] ++ l.filter (fun x => (x.words : Entry).bit 6 59)

/-- Whether the array has taken all of a weight stream: it has arrived and no whole block is left to decode. -/
def Arming.taken (a : Arming) : Bool := a.fetched && !(a.desc.cmp && decide (a.decBlk < a.desc.count) && a.blockIn)

/-- Whether the operands of an entry that the array needs before its first slot have arrived: all but its weights and the side tensor of
its outlier stage (R132, R137). -/
def State.loaded (s : State) (x : Exec) : Bool :=
  s.armings.all (fun a => !(decide (a.ctx = x.ctx) && decide (a.consumer = some (.mxe, x.slot))) || a.weightOf x || a.side || a.fetched)

/-- The MATMUL whose weight vectors the array takes next: the first of its order that has not had its whole stream (R135). -/
def State.atArray (s : State) : Option Exec :=
  s.arrayOrder.find? (fun x => s.armings.any (fun a => a.weightOf x && !a.taken))

/-- Whether the array takes the bytes of an arming as the expanders deliver them: it is the stream of the MATMUL at the array, whose other
operands are loaded. The array takes no vectors of another command (R135). (DESIGN CHOICE, assumption 27) -/
def State.arrayTakes (s : State) (a : Arming) : Bool := s.atArray.any (fun x => a.weightOf x && s.loaded x)

/-- The bytes of an arming that its slot's buffer holds: a consumer takes an uncompressed stream's as they arrive, and the expanders
leave it no part of a block; weights stay until the array takes them (R135, R222). (DESIGN CHOICE, assumption 27) -/
def State.held (s : State) (a : Arming) : Nat :=
  if a.consumer.isSome && !(a.desc.cmp && a.blockIn) && (s.arrayTakes a || !(s.arrayOrder.any a.weightOf)) then 0 else a.data.length

/-- The tiles of a slot that are buffered or in flight. -/
def State.ahead (s : State) (c : CtxId) (e : Engine) (slot : Nat) : Nat :=
  ((s.slotArms c e slot).map (fun a => ceilDiv (s.held a.2) tileBytes + a.2.flight.length)).sum

/-- Install an arming in its slot: tier hints 1 to 3 take the slot's lookahead buffer, charged to T0; without room under the quota it
is unbuffered. Answers whether it is buffered as it should be. -/
def State.install (s : State) (a : Arming) : State × Bool :=
  let had := (s.slotArms a.ctx a.eng a.slot).any (fun b => b.2.buffered)
  if had then ({ s with armings := s.armings ++ [{ a with buffered := true }] }, true)
  else if a.desc.tier = 0 then ({ s with armings := s.armings ++ [a] }, true)
  else if s.quotaTakes a.ctx 0 64 ∧ 64 ≤ s.freePages 0 then ({ s with armings := s.armings ++ [{ a with buffered := true }] }, true)
  else ({ s with armings := s.armings ++ [{ a with unbuffered := true }] }, false)

/-! ### Descriptors read by commands (R213, R235, R237) -/

/-- Read 64 bytes at a descriptor's address: the bytes, or the report of a command that cannot read them. -/
def State.readDesc (s : State) (x : Exec) (a : Nat) : Except Report (List Byte) × State :=
  let r := s.span x.view a 64
  let s1 := s.noteSpan x.view a 64
  if r.2 then (.error { status := .tierFault }, s1)
  else if anyPoison r.1 then (.error { status := .poisoned }, s1)
  else (.ok (r.1.map Prod.fst), s1)

/-- R216: whether every element of a compressed descriptor lies in the data area of its tensor of `nb` blocks. -/
def Desc.cmpInside (d : Desc) (nb : Nat) : Bool :=
  let hi := d.aux + 4096 * nb
  decide (d.aux % 4096 = 0) && (List.range d.count).all (fun e => (d.elemAddr e).any (fun a => decide (d.aux ≤ a) && decide (a < hi)))

/-! ### ARM, DISARM (R235, R236) -/

/-- The encoding checks of ARM. -/
def armIllegal (s : State) (c : CtxId) (e : Entry) : Option (Status × Nat) :=
  let eng := Engine.ofCode (e.pos 180 2)
  if eng.any (fun g => decide (g ≠ .tmv) && s.armBusy c g (e.pos 182 5)) then some (.armBusy, 182)
  else (lowestBad
    [(128, decide (e.pos 128 52 % 64 ≠ 0)), (180, decide (e.pos 180 2 = 3)), (187, decide (e.pos 187 5 ≠ 0)),
     (192, decide (e.word 3 ≠ 0)), (256, decide (e.word 4 ≠ 0)), (320, decide (e.word 5 ≠ 0)), (384, decide (e.word 6 ≠ 0))]).map
    (fun b => (.illegalCommand, b))

/-- Whether an earlier ARM, DISARM or SLOT_TABLE of the same queue has not had its effect: these keep queue order (R30). -/
def State.tmvTurn (s : State) (x : Exec) : Bool :=
  !((s.running.takeWhile (fun y => decide (y ≠ x))).any (fun y => decide (y.ctx = x.ctx) && decide (y.eng = .tmv) &&
    decide (y.result = none) && [1, 2, 4].contains (y.words : Entry).opcode))

/-- ARM as the TMV runs it. -/
def armRun (x : Exec) (s : State) : State :=
  let e : Entry := x.words
  let eng := (Engine.ofCode (e.pos 180 2)).getD .mxe
  let slot := e.pos 182 5
  if !(s.tmvTurn x) then s
  else if s.armBusy x.ctx eng slot then s.report x.ctx .tmv x.slot (rejected .armBusy 182)
  else
    match s.readDesc x (e.pos 128 52) with
    | (.error r, s1) => s1.report x.ctx .tmv x.slot r
    | (.ok bs, s1) =>
      let d := Desc.ofBytes bs
      if !(descLegal bs (s.inExact x.ctx)) || (d.cmp && decide (eng ≠ .mxe)) then
        s1.report x.ctx .tmv x.slot (rejected .illegalCommand 0xFFFF)
      else
        let hd : Except Report Hdr × State := if d.cmp then s1.readHdr x.view d.aux else (.ok {}, s1)
        match hd with
        | (.error r, s2) => s2.report x.ctx .tmv x.slot r
        | (.ok h, s2) =>
          if d.cmp && !(d.cmpInside h.nBlk) then s2.report x.ctx .tmv x.slot (rejected .illegalCommand 0xFFFF)
          else
            let r := s2.install { ctx := x.ctx, eng := eng, slot := slot, desc := d, nBlk := if d.cmp then h.nBlk else 0, bind := x.bind }
            r.1.report x.ctx .tmv x.slot { status := if r.2 then .ok else .quota }

/-- ARM (R217). -/
def execArm (c : CtxId) (slot : Nat) (s : State) : Host.Outcome State Fault Refusal := .next (s.engineRun c .tmv slot 1 armRun)

/-- The encoding checks of DISARM. -/
def disarmIllegal (e : Entry) : Option Nat :=
  lowestBad [(128, decide (e.pos 128 2 = 3)), (136, decide (e.pos 136 56 ≠ 0)), (192, decide (e.word 3 ≠ 0)),
    (256, decide (e.word 4 ≠ 0)), (320, decide (e.word 5 ≠ 0)), (384, decide (e.word 6 ≠ 0))]

/-- DISARM as the TMV runs it: every arming of the slot, or of every slot of the engine, without a consumer goes. -/
def disarmRun (x : Exec) (s : State) : State :=
  let e : Entry := x.words
  let eng := (Engine.ofCode (e.pos 128 2)).getD .mxe
  if !(s.tmvTurn x) then s
  else
    (s.removeArms (fun a => decide (a.ctx = x.ctx) && decide (a.eng = eng) && decide (a.consumer = none) &&
      (e.bit 2 7 || decide (a.slot = e.pos 130 5)))).report x.ctx .tmv x.slot {}

/-- DISARM (R236). -/
def execDisarm (c : CtxId) (slot : Nat) (s : State) : Host.Outcome State Fault Refusal :=
  .next (s.engineRun c .tmv slot 2 disarmRun)

/-! ### COPY (R237) -/

/-- The encoding checks of COPY. -/
def copyIllegal (e : Entry) : Option Nat :=
  lowestBad [(128, decide (e.pos 128 52 % 64 ≠ 0)), (180, decide (e.pos 180 12 ≠ 0)), (192, decide (e.pos 192 52 % 64 ≠ 0)),
    (244, decide (e.pos 244 12 ≠ 0)), (256, decide (e.word 4 ≠ 0)), (320, decide (e.word 5 ≠ 0)), (384, decide (e.word 6 ≠ 0))]

/-- The TMV slot a COPY takes: the lowest of the context's 32 that no COPY holds (R224). -/
def State.copySlot (s : State) (c : CtxId) : Nat :=
  ((List.range 32).find? (fun k => !(s.armings.any (fun a => a.at c .tmv k)))).getD 0

/-- COPY at command start: both descriptors are read and checked; its source walk becomes a stream of the TMV, attached to it. -/
def State.copyStart (s : State) (x : Exec) : State :=
  let e : Entry := x.words
  match s.readDesc x (e.pos 128 52) with
  | (.error r, s1) => s1.report x.ctx .tmv x.slot r
  | (.ok b1, s1) =>
    match s1.readDesc x (e.pos 192 52) with
    | (.error r, s2) => s2.report x.ctx .tmv x.slot r
    | (.ok b2, s2) =>
      let d1 := Desc.ofBytes b1
      let d2 := Desc.ofBytes b2
      let ex := s.inExact x.ctx
      if !(descLegal b1 ex) || !(descLegal b2 ex) || d1.cmp || d2.cmp || decide (d1.len ≠ d2.len) then
        s2.report x.ctx .tmv x.slot (rejected .illegalCommand 0xFFFF)
      else
        { s2 with armings := s2.armings ++
            [{ ctx := x.ctx, eng := .tmv, slot := s2.copySlot x.ctx, desc := d1, dst := some d2, bind := x.bind,
               consumer := some (.tmv, x.slot) }] }

/-- Write a run of elements, last first, that lie one after another from an address. -/
def State.copyRunOut (s : State) (x : Exec) (a : Nat) (run : List (List SB)) : State :=
  (s.writeBytes x.view (.tmv, x.slot) a run.reverse.flatten).1

/-- Write the elements of a destination walk in stream order, up to the first that cannot be written; answers how many bytes were.
Elements at contiguous addresses are written together, so that clean ones overwrite whole words (R387); `run` are those not written yet,
last first, from address `a`, `n` bytes. (DEDUCED, assumption 25) -/
def State.copyElems (s : State) (x : Exec) (d : Desc) (i a n : Nat) (run : List (List SB)) : List (List SB) → State × Nat
  | [] => (s.copyRunOut x a run, n)
  | el :: l =>
    match d.elemAddr i with
    | none => (s.copyRunOut x a run, n)
    | some b =>
      if !(s.canWrite x.view b el.length) then (s.copyRunOut x a run, n)
      else if b = a + n then s.copyElems x d (i + 1) a (n + el.length) (el :: run) l
      else
        let r := (s.copyRunOut x a run).copyElems x d (i + 1) b el.length [el] l
        (r.1, r.2 + n)

/-- The check values of a destination with chk = 1, one for each tile of the bytes written (R237). -/
def checkArray (bytes : List SB) : List Byte :=
  (chunksOf tileBytes (bytes.length / tileBytes + 1) bytes).flatMap (fun t => leBytes 4 (crc32c (t.map Prod.fst)).toNat)

/-- COPY as the TMV runs it. (DEDUCED, assumption 25) -/
def copyRun (x : Exec) (s : State) : State :=
  match s.armings.findIdx? (fun a => decide (a.ctx = x.ctx) && decide (a.consumer = some (.tmv, x.slot))) with
  | none => s
  | some i =>
    match s.armings[i]? with
    | none => s
    | some a =>
      let bytes := padPoison a.desc.len a.data
      let s1 := s.setArming i { a with pos := a.desc.len, data := [] }
      let d := a.dst.getD {}
      let w := s1.copyElems x d 0 ((d.elemAddr 0).getD 0) 0 [] (chunksOf d.size d.count bytes)
      let k := if d.chk then w.1.writeBytes x.view (.tmv, x.slot) d.aux (clean (checkArray (bytes.take w.2))) else (w.1, true)
      let done := bytes.take w.2
      let n := ((chunksOf d.size d.count done).filter anyPoison).length
      let s2 := k.1.image x.ctx .tmv x.slot (done.map Prod.fst) 0xF 0 (anyPoison done)
      s2.report x.ctx .tmv x.slot
        (reportOf (a.sts bytes ++ (if w.2 = a.desc.len ∧ k.2 then [] else [.tierFault])) n a.deadPort)

/-- COPY (R237). -/
def execCopy (c : CtxId) (slot : Nat) (s : State) : Host.Outcome State Fault Refusal := .next (s.engineRun c .tmv slot 3 copyRun)

/-! ### SLOT_TABLE (R238) -/

/-- The encoding checks of SLOT_TABLE. -/
def slotTableIllegal (e : Entry) : Option Nat :=
  lowestBad [(128, decide (0 < e.pos 192 13) && decide (e.pos 128 52 % 64 ≠ 0)), (182, decide (e.pos 182 10 ≠ 0)),
    (192, decide (4096 < e.pos 192 13)), (205, decide (e.pos 205 51 ≠ 0)), (256, decide (e.word 4 ≠ 0)),
    (320, decide (e.word 5 ≠ 0)), (384, decide (e.word 6 ≠ 0))]

/-- SLOT_TABLE as the TMV runs it. -/
def slotTableRun (x : Exec) (s : State) : State :=
  let e : Entry := x.words
  let n := e.pos 192 13
  let eng := (Engine.ofCode (e.pos 180 2)).getD .mxe
  if !(s.tmvTurn x) then s
  else
    let r := s.span x.view (e.pos 128 52) n
    let s1 := if n = 0 then s else s.noteSpan x.view (e.pos 128 52) n
    if n ≠ 0 ∧ r.2 then s1.report x.ctx .tmv x.slot { status := .tierFault }
    else if n ≠ 0 ∧ anyPoison r.1 then s1.report x.ctx .tmv x.slot { status := .poisoned }
    else
      let l := if n = 0 then [] else r.1.map (fun b => b.1.toNat)
      if l.any (fun b => decide (32 ≤ b)) then s1.report x.ctx .tmv x.slot (rejected .illegalCommand 0xFFFF)
      else
        (s1.updCtx x.ctx (fun k => { k with slotTabs := k.slotTabs.set eng.code { ents := l } })).report x.ctx .tmv x.slot {}

/-- SLOT_TABLE (R238). -/
def execSlotTable (c : CtxId) (slot : Nat) (s : State) : Host.Outcome State Fault Refusal :=
  .next (s.engineRun c .tmv slot 4 slotTableRun)

/-! ### COMPRESS (R174) -/

/-- The encoding checks of COMPRESS. -/
def compressIllegal (e : Entry) : Option Nat :=
  lowestBad [(128, decide (e.pos 128 52 % 64 ≠ 0)), (180, decide (e.pos 180 12 ≠ 0)), (192, decide (e.pos 192 52 % 4096 ≠ 0)),
    (247, decide (e.pos 247 9 ≠ 0)), (256, decide (e.pos 256 52 % 64 ≠ 0)), (308, decide (e.pos 308 12 ≠ 0)),
    (336, decide (e.pos 336 48 ≠ 0)), (384, decide (e.word 6 ≠ 0))]

/-- The blocks of a raw tensor, the last padded with zero bytes (R153). -/
def rawBlocks (bytes : List SB) : List (List SB) :=
  let nb := ceilDiv bytes.length 4096
  chunksOf 4096 nb (bytes ++ List.replicate (nb * 4096 - bytes.length) (0, false))

/-- A byte as COMPRESS counts and codes it: a poisoned one as 0x00 (R174). -/
def zeroPoison (l : List SB) : List Byte := l.map (fun b => if b.2 then 0 else b.1)

/-- The writes that store block k: payload, header and scale record (R153). -/
def blockWrites (t : CodeTable) (dst nb tid tag k : Nat) (ex : Int) (blk : List SB) : List (Nat × List SB) :=
  let tg := (tag + k) % 65536
  let bad := anyPoison blk
  let r := encodeBlock t tid tg bad (zeroPoison blk)
  [(dst + 4096 * k, if bad then blk else clean r.2), (hdrArea dst nb + 16 * k, clean (bytesOfHdr r.1)),
   (recArea dst nb + 8 * k, clean (scaleRecord tg ex))]

/-- Perform writes in order, up to the first that cannot be made. -/
def State.writeSeq (s : State) (x : Exec) : List (Nat × List SB) → State × Bool
  | [] => (s, true)
  | (a, d) :: l =>
    if s.canWrite x.view a d.length then (s.writeBytes x.view (x.eng, x.slot) a d).1.writeSeq x l else (s, false)

/-- COMPRESS once its source is read. -/
def State.compressBody (s : State) (x : Exec) (h : Hdr) (r : Rd) : State :=
  let e : Entry := x.words
  let dst := e.pos 192 52
  let ta := e.pos 256 52
  let blks := rawBlocks r.bytes
  let nb := blks.length
  let areas := [(dst - 64, 64), (dst, 4096 * nb), (hdrArea dst nb, roundUp (nb * 16) 64), (recArea dst nb, roundUp (nb * 8) 64), (ta, 128)]
  if dst = 0 ∨ areas.any (fun a => !(s.canWrite x.view a.1 a.2)) then s.report x.ctx .tmv x.slot { status := .tierFault }
  else
    let t := buildLengths (byteCounts (zeroPoison blks.flatten))
    let ws := [(dst - 64, clean h.bytes)] ++
      (blks.zipIdx.flatMap (fun b => blockWrites t dst nb (e.pos 244 3) (e.pos 320 16) b.2 h.e b.1)) ++
      [(ta, clean (imageOfTable t))]
    let w := s.writeSeq x ws
    let raw := (blks.filter anyPoison).length
    w.1.report x.ctx .tmv x.slot (reportOf (r.sts ++ (if w.2 then [] else [.tierFault])) raw r.port)

/-- COMPRESS as the TMV runs it: the source header must carry a format it codes, n_out = 0 and n ≥ 1; a redirect is followed (R53). -/
def compressRun (x : Exec) (s : State) : State :=
  let e : Entry := x.words
  let ok := fun (h : Hdr) => [0, 1, 3, 4, 5, 6].contains h.fmt && decide (h.nOut = 0) && decide (1 ≤ h.n)
  let go := fun (h : Hdr) (a : Nat) (s1 : State) =>
    if !(ok h) then s1.report x.ctx .tmv x.slot (rejected .illegalCommand 0xFFFF)
    else
      let nb := elemBytes ((Fmt.ofCode h.fmt).getD .int8) h.n
      let r := s1.readDirectRows x.view a nb nb 1
      r.2.compressBody x h r.1
  match s.readHdr x.view (e.pos 128 52) with
  | (.error r, s1) => s1.report x.ctx .tmv x.slot r
  | (.ok h, s1) =>
    if h.redirect then
      match s1.readHdr x.view h.wide with
      | (.error r, s2) => s2.report x.ctx .tmv x.slot r
      | (.ok w, s2) => go w h.wide s2
    else go h (e.pos 128 52) s1

/-- COMPRESS (R174). -/
def execCompress (c : CtxId) (slot : Nat) (s : State) : Host.Outcome State Fault Refusal :=
  .next (s.engineRun c .tmv slot 0x10 compressRun)

/-! ### TABLE_LOAD (R172, R176) -/

/-- The encoding checks of TABLE_LOAD. -/
def tableLoadIllegal (e : Entry) : Option Nat :=
  lowestBad [(128, !(e.bit 2 55) && decide (e.pos 128 52 % 64 ≠ 0)), (184, decide (e.pos 184 8 ≠ 0)), (192, decide (e.word 3 ≠ 0)),
    (256, decide (e.word 4 ≠ 0)), (320, decide (e.word 5 ≠ 0)), (384, decide (e.word 6 ≠ 0))]

/-- Set a code-table slot of a context. -/
def State.setTable (s : State) (c : CtxId) (t : Nat) (x : Option CodeTable) : State :=
  s.updCtx c (fun k => { k with tables := k.tables.set t x })

/-- The load itself: read the image, check it (R157), load it; clr empties the slot. -/
def State.loadTable (s : State) (v : View) (e : Entry) : State × Report :=
  let c := v.ctx
  let t := e.pos 180 3
  if e.bit 2 55 then (s.setTable c t none, {})
  else
    let r := s.span v (e.pos 128 52) 128
    let s1 := s.noteSpan v (e.pos 128 52) 128
    if r.2 then (s1, { status := .tierFault })
    else if anyPoison r.1 then (s1, { status := .poisoned })
    else
      let tab := tableOfImage (r.1.map Prod.fst)
      if tableValid tab then (s1.setTable c t (some tab), {}) else (s1, rejected .illegalCommand 0xFFFF)

/-- The binding of the request an entry belongs to. -/
def State.bindOf (s : State) (c : CtxId) (e : Entry) : List (Nat × Nat) :=
  (((s.ctx c).reqs.find? (fun r => decide (r.num = e.reqNum))).map (·.bind)).getD []

/-- Set what the head of the TMV queue of a context holds. -/
def State.setTmvHead (s : State) (c : CtxId) (h : Head) : State := s.setQueue c .tmv { s.queue c .tmv with dec := h }

/-- A TABLE_LOAD at the head of its queue takes its effect if its slot is not pinned, else it waits; `again` says that it has waited. -/
def State.tableLoadStep (s : State) (c : CtxId) (again : Bool) : State :=
  match (s.queue c .tmv).dec with
  | .loading w waiting none =>
    if waiting ≠ again then s
    else if s.pinned c (Entry.pos w 180 3) then s.setTmvHead c (.loading w true none)
    else s.withPeers c .tmv (s.queue c .tmv).head (fun s =>
      let k := (s.queue c .tmv).head
      let r := (s.dropLost c .tmv k).loadTable { ctx := c, bind := s.bindOf c w, noHost := s.lostFor c .tmv k } w
      r.1.setTmvHead c (.loading w waiting (some r.2)))
  | _ => s

/-- TABLE_LOAD (R176). -/
def execTableLoad (c : CtxId) (s : State) : Host.Outcome State Fault Refusal := .next (s.tableLoadStep c false)

/-- TABLE_LOAD_UNPINNED (R172). -/
def execTableLoadUnpinned (c : CtxId) (s : State) : Host.Outcome State Fault Refusal := .next (s.tableLoadStep c true)

/-! ### Transfers (R223, R227 to R233) -/

/-- The transfers in flight for an engine (R223). -/
def State.inFlight (s : State) (e : Engine) : Nat := ((s.armings.filter (fun a => decide (a.eng = e))).map (fun a => a.flight.length)).sum

/-- The context that is in Exact mode or entering it (R336). -/
def State.exactCtx (s : State) : Option CtxId := allCtx.find? (fun c => (s.ctx c).exactReq || (s.ctx c).exactActive)

/-- Whether the arming at place i of the list may be granted a transfer (R222, R227): it is current, has tiles left and room, and an
in-place or unbuffered one has a consumer that waits for it. -/
def State.eligible (s : State) (e : Engine) (i : Nat) : Bool :=
  match s.armings[i]? with
  | none => false
  | some a =>
    decide (a.eng = e) && decide (((s.fetching a.ctx e a.slot).map Prod.fst) = some i) && !a.allIssued && a.dead.isNone &&
    decide (s.ahead a.ctx e a.slot < 4) && (a.consumer.isSome || (a.hasBuffer && decide (a.desc.tier ≠ 0))) &&
    (!a.unbuffered || (a.flight.isEmpty && decide (s.held a = 0))) &&
    (match s.exactCtx with | some c => decide (a.ctx = c) | none => true)

/-- The places of the eligible armings of an engine. -/
def State.eligibles (s : State) (e : Engine) : List Nat := (List.range s.armings.length).filter (s.eligible e)

/-- ACLK to empty: buffered and in-flight bytes of the slot over the declared rate (R227). -/
def State.timeToEmpty (s : State) (a : Arming) : Nat :=
  ((s.slotArms a.ctx a.eng a.slot).map (fun b => s.held b.2 + b.2.flight.length * tileBytes)).sum / a.desc.rate

/-- The arming at a place. -/
def State.armAt (s : State) (i : Nat) : Option Arming := s.armings[i]?

/-- R227: the better of two eligible armings by a key (smaller wins), then slot, then context. (DESIGN CHOICE, assumption 66) -/
def State.better (s : State) (key : Nat → Arming → Nat) (i j : Nat) : Nat :=
  match s.armAt i, s.armAt j with
  | some a, some b =>
    let ka := (key i a, a.slot, a.ctx.val)
    let kb := (key j b, b.slot, b.ctx.val)
    if kb.1 < ka.1 ∨ (kb.1 = ka.1 ∧ (kb.2.1 < ka.2.1 ∨ (kb.2.1 = ka.2.1 ∧ kb.2.2 < ka.2.2))) then j else i
  | _, _ => i

/-- The choice of R227 among eligible armings; `waits i` is the ACLK that the arming at place i has waited. Answers the place and
whether the age cap decided. (DESIGN CHOICE, assumption 66) -/
def State.arbitrate (s : State) (l : List Nat) (waits : List Nat) : Option (Nat × Bool) :=
  let old := l.filter (fun i => decide (4096 ≤ waits.getD i 0))
  match old, l with
  | i :: r, _ => some (r.foldl (s.better (fun k _ => 2 ^ 64 - waits.getD k 0)) i, true)
  | [], i :: r => some (r.foldl (s.better (fun _ a => s.timeToEmpty a)) i, false)
  | [], [] => none

/-- Advance a static slot table's pointer by one, cyclically (R228, R229). -/
def SlotTab.advance (t : SlotTab) : SlotTab := if t.ents.isEmpty then t else { t with ptr := (t.ptr + 1) % t.ents.length }

/-- The static slot table of context c for engine e. -/
def State.slotTab (s : State) (c : CtxId) (e : Engine) : SlotTab := (s.ctx c).slotTabs[e.code]

/-- Replace a static slot table. -/
def State.setSlotTab (s : State) (c : CtxId) (e : Engine) (t : SlotTab) : State :=
  s.updCtx c (fun k => { k with slotTabs := k.slotTabs.set e.code t })

/-- R230: the grant of an Exact-mode context by its table: entries whose slot holds no current arming are passed over; the arbiter
waits at an entry whose arming is not eligible. Answers the place granted and the table after. -/
def State.exactPick (s : State) (c : CtxId) (e : Engine) : Nat → SlotTab → Option Nat × SlotTab
  | 0, t => (none, t)
  | fuel + 1, t =>
    match t.ents[t.ptr]? with
    | none => (none, t)
    | some k =>
      match s.fetching c e k with
      | none => s.exactPick c e fuel t.advance
      | some (i, _) => if s.eligible e i then (some i, t.advance) else (none, t)

/-- R229: compare a grant with the context's table, count a departure, and advance the pointer; a direct read's is not compared. -/
def State.compareTable (s : State) (e : Engine) (a : Arming) (others : Bool) : State :=
  if a.direct then s
  else
  let t := s.slotTab a.ctx e
  let off := match t.ents[t.ptr]? with
    | none => others
    | some k => decide (k ≠ a.slot)
  let s1 := s.setSlotTab a.ctx e t.advance
  if off then (s1.addFld (Reg.ctxTmvArb_diverged.at a.ctx) 1).div a.ctx 0 1 else s1

/-- Runs of peer bytes among the places of a tile: (offset, port, device, context, address, length); none is longer than 32 KiB, so that its
response fits a port's 256 flits (R358). (DESIGN CHOICE, assumption 86) -/
def peerRuns : Nat → List (Option Loc) → List (Nat × PortId × Nat × CtxId × Nat × Nat)
  | _, [] => []
  | i, some (.peer p d c a) :: l =>
    match peerRuns (i + 1) l with
    | (j, p', d', c', a', n) :: r =>
      if j = i + 1 ∧ p' = p ∧ d' = d ∧ c' = c ∧ a' = a + 1 ∧ n < 32768 then (i, p, d, c, a, n + 1) :: r
      else (i, p, d, c, a, 1) :: (j, p', d', c', a', n) :: r
    | [] => [(i, p, d, c, a, 1)]
  | i, _ :: l => peerRuns (i + 1) l

/-- Ask the peers for the bytes of a stream tile (R361, R362). -/
def State.askStream (s : State) (a : Arming) (tile : Nat) : List (Nat × PortId × Nat × CtxId × Nat × Nat) → State
  | [] => s
  | (off, p, d, pc, addr, n) :: l =>
    let tag := (s.port p).nextTag
    let s1 := s.updPort p (fun x => { x with nextTag := (tag + 1) % 65536 })
    let r : PeerReq := { port := p, tag := tag, ctx := a.ctx, eng := a.eng, slot := a.slot, stream := true, dev := d, peerCtx := pc,
                         addr := addr, len := n, write := false, tile := tile, off := off }
    let s2 := { s1 with link := { s1.link with peerReqs := s1.link.peerReqs ++ [r] } }
    (s2.sendData p 1 (dataHeader 1 a.ctx.val pc.val 0 tag n addr) []).askStream a tile l

/-- Note the first sector of a list that a peer has not sent. -/
def State.needFirst (s : State) (v : View) : List (Nat × Nat) → State
  | [] => s
  | (a, n) :: l =>
    let t := s.needPeers v a n
    if t.link.missing.isEmpty then s.needFirst v l else t

/-- What a transfer needs of a peer before its bytes can be asked for: the whole sectors of block headers and scale records that its
tile covers, found one after another (R154, R216), and its check value (R233). -/
def State.needMeta (s : State) (a : Arming) : State :=
  let k := (s.nextTile a).1
  let sectors := (a.tileReads k).filter (fun r => decide (a.metaStart ≤ r.1))
  s.needFirst a.view (sectors ++ (if a.desc.chk then [(a.desc.chkAddr a.issued, 4)] else []))

/-- The payload places of a capture that a peer must still send; headers and records have come before. -/
def Capture.payload (k : Capture) (a : Arming) : List (Option Loc) :=
  (k.good.zip k.addrs).map (fun p => if p.2.any (fun x => decide (a.metaStart ≤ x)) then none else p.1)

/-- The clock domains of the memories that reads reach. -/
def State.readDoms (s : State) (v : View) (reads : List (Nat × Nat)) : List Nat :=
  ((reads.flatMap (fun r => piecesOf r.1 r.2)).flatMap (fun p => (s.readPlace v p.1).elim [] (s.memDoms p.2))).dedup

/-- Issue the next transfer of the arming at place i (R215, R223, R231). (DEDUCED, assumption 24) -/
def State.issueAt (s : State) (i : Nat) : State :=
  match s.armAt i with
  | none => s
  | some a =>
    let k := s.capture a
    let old := s.link.missing
    let s1 := s.noteCapture a k
    let s2 := { s1 with link := { s1.link with missing := old } }
    let f : Flight := { tile := a.issued, data := k.bytes, chk := k.chk, fault := if k.fault then some .tierFault else none,
                        faultAt := k.good.length, first := (k.addrs.head?.join).getD 0,
                        host := k.good.any (fun o => o.any (fun l => match l with | .host _ => true | _ => false)),
                        dst := k.good.any (fun o => o.any (fun l => match l with | .t1 _ => true | _ => false))
                        doms := s.readDoms a.view (a.tileReads (k.addrs.take k.good.length)) }
    let b := a.issue k
    (s2.setArming i { b with flight := b.flight ++ [f] }).askStream a a.issued (peerRuns 0 (k.payload a))

/-- R230: the direct read of context c that its engine issued first and that may be granted. -/
def State.firstDirect (s : State) (c : CtxId) (e : Engine) : Option Nat :=
  (List.range s.armings.length).find? (fun i => s.eligible e i && (s.armAt i).any (fun a => a.direct && decide (a.ctx = c)))

/-- The choice of the arbiter of engine e: the place granted, and what the grant does beside the transfer. -/
def State.choose (s : State) (e : Engine) (waits : List Nat) : Option Nat × (State → State) :=
  match (allCtx.find? (fun c => (s.ctx c).exactActive)) with
  | some c =>
    let t := s.slotTab c e
    let r := s.exactPick c e (t.ents.length + 1) t
    (match r.1 with
      | some i => some i
      | none => s.firstDirect c e,
     fun s => s.setSlotTab c e r.2)
  | none =>
    let l := s.eligibles e
    match s.arbitrate l waits with
    | none => (none, id)
    | some (i, aged) =>
      match s.armAt i with
      | none => (none, id)
      | some a =>
        let others := l.any (fun j => decide (j ≠ i) && (s.armAt j).any (fun b => decide (b.ctx = a.ctx) && !b.direct))
        (some i, fun s =>
          (if aged then (s.addFld Reg.tmvAgecap_count 1).addFld (Reg.ctxTmvArb_agecap.at a.ctx) 1 else s).compareTable e a others)

/-- One grant of the arbiter of engine e, if a transfer place is free; `waits` are the ACLK each arming of the list has waited. A
transfer that needs a peer's headers or check values first asks for them and is not granted yet (R154, R233). -/
def State.grant (s : State) (e : Engine) (waits : List Nat) : State :=
  if 8 ≤ s.inFlight e then s
  else
    let r := s.choose e waits
    match r.1.bind (fun i => (s.armAt i).map (fun a => (i, a))) with
    | none => r.2 s
    | some (i, a) => s.awaitPeers [] a.ctx e (metaSlot a.slot) (fun s =>
        let t := s.needMeta a
        if t.link.missing.isEmpty then (r.2 s).issueAt i else t)

/-- The clock domains of an engine's arbiter and transfer places, and of the tensor fabric (R398). -/
def arbDoms (e : Engine) : List Nat := (89 + e.code.val) :: domRange 94 8

/-- TRANSFER_GRANT (R227). (DESIGN CHOICE, assumption 66) -/
def execTransferGrant (e : Engine) (waits : List Nat) (s : State) : Host.Outcome State Fault Refusal :=
  .next (s.orStall (fun s => (s.touch (arbDoms e)).grant e waits))

/-- Whether a transfer still waits for a peer's answer. -/
def State.awaits (s : State) (a : Arming) (f : Flight) : Bool :=
  s.link.peerReqs.any (fun r => r.stream && decide (r.ctx = a.ctx) && decide (r.eng = a.eng) && decide (r.slot = a.slot) &&
    decide (r.tile = f.tile))

/-- R223: the oldest transfer of a slot arrives: the tile's bytes join what the slot holds. -/
def State.retire (s : State) (c : CtxId) (e : Engine) (slot : Nat) : State :=
  match (s.slotArms c e slot).find? (fun a => !a.2.flight.isEmpty) with
  | none => s
  | some (i, a) =>
    match a.flight with
    | [] => s
    | f :: l =>
      if s.awaits a f then s
      else
        let r := s.arrive a f
        r.2.setArming i { a with flight := l, data := a.data ++ r.1 }

/-- TRANSFER_RETIRE (R223). -/
def execTransferRetire (c : CtxId) (e : Engine) (slot : Nat) (s : State) : Host.Outcome State Fault Refusal :=
  .next (s.retire c e slot)

/-- R231: the consumer of the oldest attached arming of a slot that still has tiles to come has waited tile_dl µs for one: that tile and
every later one are poisoned, and what is in flight is dropped. -/
def State.tileLate (s : State) (c : CtxId) (e : Engine) (slot : Nat) : State :=
  match (s.slotArms c e slot).find? (fun a => a.2.consumer.isSome && !a.2.fetched && a.2.dead.isNone) with
  | none => s
  | some (i, a) =>
    if a.desc.tileDl = 0 then s
    else ((s.setArming i { a with dead := some .tierLate, flight := [] }).dropReqs c e slot).addFld (Reg.ctxTmvStat_late.at c) 1

/-- TILE_DEADLINE_EXPIRY (R231). -/
def execTileDeadlineExpiry (c : CtxId) (e : Engine) (slot : Nat) (s : State) : Host.Outcome State Fault Refusal :=
  .next (s.tileLate c e slot)

/-- Whether tile k of a COPY is written to DST. -/
def State.copyToDst (s : State) (a : Arming) (k : Nat) : Bool :=
  a.dst.any (fun d => (List.range (tileBytes / d.size)).any (fun j =>
    let e := k * tileBytes / d.size + j
    decide (e < d.count) && ((d.elemAddr e).bind (s.writePlace a.view)).any (fun l => match l with | .t1 _ => true | _ => false)))

/-- The oldest transfer of an arming with a DST access still to make, whose read is in flight or whose write its COPY is still to make, that
no refresh has delayed yet. -/
def State.dstTile (s : State) (a : Arming) : Option Nat :=
  (List.range a.issued).find? (fun k => !a.tilesHit.contains k &&
    (a.flight.any (fun f => decide (f.tile = k) && f.dst) || (decide (a.pos < a.desc.len) && s.copyToDst a k)))

/-- R335 code 2: a refresh delays the oldest DST access of a transfer of the arming at place i, counted once for the transfer. -/
def State.refreshOne (s : State) (i : Nat) : State :=
  match s.armAt i with
  | none => s
  | some a =>
    match s.dstTile a with
    | none => s
    | some k => (s.setArming i { a with tilesHit := a.tilesHit ++ [k] }).div a.ctx 2 1

/-- A refresh that delays a DST access of the armings at the places named. -/
def State.refresh (s : State) : List Nat → State
  | [] => s
  | i :: l => (s.refreshOne i).refresh l

/-- DRAM_REFRESH (R28, R335): `hits` names the armings with a transfer that the refresh delays. -/
def execDramRefresh (hits : List Nat) (s : State) : Host.Outcome State Fault Refusal := .next (s.refresh hits.dedup)

end Sys2Proof.Machine
end

