-- ==== Sys2Proof/Machine/Mxe.lean ====
section
/-! DEFINITION. The Matrix Engine (chapter 5): the checks of its commands (R121, R129, R139, R142 to R147), MATMUL with fill lists and
outliers, COMBINE, and operand stalls. -/

namespace Sys2Proof.Machine

open Sys2Proof

/-! ### The body fields of MATMUL (R145) and COMBINE (R147) -/

/-- src_addr -/
def Entry.mmSrc (e : Entry) : Nat := e.pos 128 52
/-- src_fmt -/
def Entry.mmSrcFmt (e : Entry) : Nat := e.pos 180 4
/-- w_fmt -/
def Entry.mmWFmt (e : Entry) : Nat := e.pos 184 4
/-- out_fmt -/
def Entry.mmOut (e : Entry) : Nat := e.pos 188 4
/-- dst_addr -/
def Entry.mmDst (e : Entry) : Nat := e.pos 192 52
/-- wslot -/
def Entry.mmWslot (e : Entry) : Nat := e.pos 244 5
/-- e_w -/
def Entry.mmEw (e : Entry) : Int := signed 6 (e.pos 249 6)
/-- B -/
def Entry.mmB (e : Entry) : Nat := e.pos 256 9 + 1
/-- K -/
def Entry.mmK (e : Entry) : Nat := e.pos 265 16 + 1
/-- N -/
def Entry.mmN (e : Entry) : Nat := e.pos 281 16 + 1
/-- P -/
def Entry.mmP (e : Entry) : Nat := e.pos 297 16 + 1
/-- src_stride -/
def Entry.mmSrcStride (e : Entry) : Nat := e.pos 320 24
/-- dst_stride -/
def Entry.mmDstStride (e : Entry) : Nat := e.pos 344 24
/-- chunk_base -/
def Entry.mmBase (e : Entry) : Nat := e.pos 368 7
/-- ctot -/
def Entry.mmCtot (e : Entry) : Nat := e.pos 375 7 + 1
/-- fill_addr -/
def Entry.mmFill (e : Entry) : Nat := e.pos 384 52
/-- fill_n -/
def Entry.mmFillN (e : Entry) : Nat := e.pos 436 4
/-- node_lg -/
def Entry.mmLg (e : Entry) : Nat := e.pos 440 3
/-- fill_phase -/
def Entry.mmTail (e : Entry) : Bool := decide (e.pos 443 1 = 1)
/-- C, the command's own chunks (R129) -/
def Entry.mmC (e : Entry) : Nat := ceilDiv e.mmK 512
/-- COMBINE: node_stride -/
def Entry.cbStride (e : Entry) : Nat := e.pos 256 32
/-- COMBINE: n_src -/
def Entry.cbN (e : Entry) : Nat := e.pos 288 7 + 1

/-- Bytes of an output element. -/
def outBytes (f : Nat) : Nat := if f = 9 then 8 else 4

/-! ### Encoding checks -/

/-- Whether the command is partial (R129). -/
def Entry.mmPartial (e : Entry) : Bool := isPartial e.mmBase e.mmLg e.mmCtot

/-- Bytes of K elements in the format the command names. -/
def Entry.mmRowBytes (e : Entry) : Nat := elemBytes ((Fmt.ofCode e.mmSrcFmt).getD .int8) e.mmK

/-- The checks of MATMUL's encoding (R10, R121, R129, R139, R142, R145). The pair of formats is checked at start on the formats read
(R131); here each must be one that the MXE accepts. `fill` allows fill_phase 1. (DEDUCED, assumption 17; DEDUCED, assumption 18) -/
def matmulIllegal (fill : Bool) (e : Entry) : Option Nat :=
  lowestBad
    [(128, decide (e.mmSrc % 64 ≠ 0)), (180, decide (6 < e.mmSrcFmt)),
     (184, !([0, 1, 3, 4, 5, 6].contains e.mmWFmt)),
     (188, !([7, 8, 9].contains e.mmOut) || (e.mmPartial && decide (e.mmOut = 8))),
     (192, decide (e.mmDst % 64 ≠ 0)), (255, decide (e.pos 255 1 ≠ 0)),
     (297, decide (e.mmN < e.mmP) || decide (65536 < e.mmB * e.mmP)), (313, decide (e.pos 313 7 ≠ 0)),
     (320, decide (e.mmSrcStride % 64 ≠ 0) || (decide (1 < e.mmB) && decide (e.mmSrcStride < e.mmRowBytes))),
     (344, decide (e.mmDstStride % 64 ≠ 0) || (decide (1 < e.mmB) && decide (e.mmDstStride < e.mmN * outBytes e.mmOut))),
     (368, !(nodeOk e.mmK e.mmBase e.mmLg e.mmCtot)), (382, decide (e.pos 382 2 ≠ 0)),
     (384, decide (0 < e.mmFillN) && decide (e.mmFill % 64 ≠ 0)), (436, decide (8 < e.mmFillN)),
     (443, !fill && e.mmTail), (444, decide (e.pos 444 4 ≠ 0))]

/-- The checks of COMBINE's encoding (R10, R147). -/
def combineIllegal (e : Entry) : Option Nat :=
  lowestBad
    [(128, decide (e.mmSrc % 64 ≠ 0)), (180, decide (e.mmSrcFmt ≠ 7 ∧ e.mmSrcFmt ≠ 9)),
     (184, decide (e.mmWFmt ≠ e.mmSrcFmt)), (188, decide (e.pos 188 4 ≠ 0)), (192, decide (e.mmDst % 64 ≠ 0)),
     (244, decide (e.pos 244 12 ≠ 0)), (256, decide (e.cbStride % 64 ≠ 0)), (288, decide (e.cbN < 2)),
     (295, decide (e.pos 295 25 ≠ 0)), (320, decide (e.word 5 ≠ 0)), (384, decide (e.word 6 ≠ 0))]

/-- The checks of an MXE command at decode (R144). -/
def mxeIllegal (e : Entry) : Option (Status × Nat) :=
  match e.opcode with
  | 1 => (matmulIllegal false e).map (fun b => (.illegalCommand, b))
  | 2 => (combineIllegal e).map (fun b => (.illegalCommand, b))
  | _ => some (.illegalCommand, 0)

/-- The form of a fill entry (R142): the lowest field that breaks it. -/
def fillFormIllegal (e : Entry) : Option Nat :=
  lowestBad
    [(0, decide (e.opcode ≠ 1)), (256, decide (64 < e.mmB)), (265, decide (e.mmC ≠ 1)), (297, decide (e.mmP ≠ e.mmN)),
     (368, decide (e.mmBase ≠ 0)), (375, decide (e.mmCtot ≠ 1)), (436, decide (e.mmFillN ≠ 0)), (440, decide (e.mmLg ≠ 0))]

/-! ### MATMUL at command start (R121, R131, R132, R134, R136, R146) -/

/-- What a MATMUL works on once its headers are read. -/
structure MatIn where
  path : MxePath
  af : Fmt
  wf : Fmt
  zp : Nat
  ex : Int
  addr : Nat
  stride : Nat
  nOut : Nat := 0
  outList : Nat := 0
  outData : Nat := 0
  side : Option Hdr := none
  deriving DecidableEq, Repr

/-- Output formats of a path (R121). -/
def MxePath.outOk (p : MxePath) (f : Nat) : Bool := if p.isInt then decide (f = 8 ∨ f = 9) else decide (f = 7)

/-- The arming of the command's weight slot that is attached to it, with its place (R136, R219). -/
def State.weightArming (s : State) (x : Exec) : Option (Nat × Arming) :=
  let e : Entry := x.words
  (s.armings.zipIdx.find? (fun a => decide (a.1.ctx = x.ctx) && decide (a.1.eng = .mxe) && decide (a.1.slot = e.mmWslot) &&
    decide (a.1.consumer = some (.mxe, x.slot)))).map (fun p => (p.2, p.1))

/-- The decoded bytes a MATMUL's weight stream must hold (R136). -/
def Entry.mmStream (e : Entry) : Nat := e.mmC * e.mmN * vecBytes ((Fmt.ofCode e.mmWFmt).getD .int8)

/-- The bits of an element of a format code. -/
def fmtBits (fmt : Nat) : Nat := ((Fmt.ofCode fmt).map Fmt.bits).getD 8

/-- The activation rows a MATMUL reads: their first address, bytes and distance. The wide copy of a redirected tensor holds the same
elements, so its rows lie farther apart in the proportion of the format read to the format that src_stride is given for
(R53, R131). (DEDUCED, assumption 72) -/
def matRows (e : Entry) (h0 : Hdr) (wide : Option Hdr) : Opnd :=
  match wide with
  | none => Opnd.rect e.mmSrc (elemBytes ((Fmt.ofCode h0.fmt).getD .int8) e.mmK) e.mmSrcStride e.mmB
  | some w => Opnd.rect h0.wide (elemBytes ((Fmt.ofCode w.fmt).getD .int8) e.mmK) (e.mmSrcStride * fmtBits w.fmt / fmtBits e.mmSrcFmt) e.mmB

/-- The checks on the formats read and the side tensor's header (R121, R132, R134, R136, R146). (DEDUCED, assumption 18) -/
def State.matCheck (s : State) (x : Exec) (i : MatIn) (h : Hdr) : Option Report :=
  let e : Entry := x.words
  let ill := fun b => some (rejected .illegalCommand b)
  if h.n ≠ e.mmB * e.mmK then ill 0xFFFF
  else if !(i.path.outOk e.mmOut) then ill 188
  else if i.path ≠ .bf16 ∧ (i.ex + e.mmEw < -32 ∨ 31 < i.ex + e.mmEw) then ill 249
  else if 1 < e.mmB ∧ i.stride < elemBytes i.af e.mmK then ill 320
  else if e.mmOut = 8 ∧ !(int32Fits e.mmK i.af i.wf i.nOut) then ill 188
  else if i.side.isSome ∧ 8 * 524288 < i.nOut * e.mmP * i.wf.bits then ill 0xFFFF
  else match s.weightArming x with
    | none => ill 244
    | some a => if a.2.desc.len = e.mmStream then none else ill 244

/-- Read the headers of a MATMUL and make its start checks. (DEDUCED, assumption 18) -/
def State.matStart (s : State) (x : Exec) : Except Report MatIn × State :=
  let e : Entry := x.words
  match s.readHdr x.view e.mmSrc with
  | (.error r, s1) => (.error r, s1)
  | (.ok h0, s1) =>
    let rd : Except Report (Option Hdr) × State :=
      if h0.redirect then
        match s1.readHdr x.view h0.wide with
        | (.error r, s2) => (.error r, s2)
        | (.ok w, s2) => (.ok (some w), s2)
      else (.ok none, s1)
    match rd with
    | (.error r, s2) => (.error r, s2)
    | (.ok w, s2) =>
      let h := w.getD h0
      let o := matRows e h0 w
      if h0.fmt ≠ e.mmSrcFmt ∧ h.fmt ≠ e.mmSrcFmt then (.error (rejected .illegalCommand 0xFFFF), s2)
      else
        match Fmt.ofCode h.fmt, Fmt.ofCode e.mmWFmt with
        | some af, some wf =>
          match mxePath af wf with
          | none => (.error (rejected .illegalCommand 184), s2)
          | some path =>
            let base : MatIn := { path := path, af := af, wf := wf, zp := if af = .uint8 then h.zp else 0, ex := h.exp af,
                                  addr := o.addr, stride := o.stride, nOut := h.nOut, outList := h.outList, outData := h.outData }
            if h.nOut = 0 then
              match s2.matCheck x base h with
              | some r => (.error r, s2)
              | none => (.ok base, s2)
            else
              match s2.readHdr x.view h.outData with
              | (.error r, s3) => (.error r, s3)
              | (.ok sh, s3) =>
                let i := if sh.fmt = 3 then { base with side := some sh } else base
                match s3.matCheck x i h with
                | some r => (.error r, s3)
                | none => (.ok i, s3)
        | _, _ => (.error (rejected .illegalCommand 184), s2)

/-! ### The product (R124 to R130, R136) -/

/-- The place of the weight vector of output n and local chunk c in the stream (R136). -/
def vecIndex (nOutputs p c n cTot : Nat) : Nat :=
  let p0 := n / p * p
  cTot * p0 + c * (min nOutputs (p0 + p) - p0) + (n - p0)

/-- The elements of that vector below K. -/
def weightVec (e : Entry) (wf : Fmt) (bytes : List SB) (n c : Nat) : List (Nat × Bool) :=
  let vb := vecBytes wf
  let i := vecIndex e.mmN e.mmP c n e.mmC
  (elemsOf wf ((bytes.drop (i * vb)).take vb)).take (min 512 (e.mmK - 512 * c))

/-- A 48-bit or INT32 result: its code, or none when the sum lies outside what the format holds. -/
def accCode (out : Nat) (v : Int) : Option Nat :=
  let w := if out = 8 then 31 else 47
  if - (2 ^ w : Int) ≤ v ∧ v < 2 ^ w then some (unsigned (8 * outBytes out) v) else none

/-- An outlier contribution in units of the main product: shifted left by e_out − e_x (R57, R132); a negative shift gives none, for
which the spec states no sum. (DEDUCED, assumption 21) -/
def outlierShift (eo ex : Int) (v : Int) : Option Int := if ex ≤ eo then some (v * 2 ^ (eo - ex).toNat) else none

/-- The outlier sum of output n of row b over the listed channels in the command's own chunks, in ascending channel index (R132).
(DEDUCED, assumption 21) -/
def outlierSum (e : Entry) (list : List Nat) (side : List Int) (rows b : Nat) (w : Nat → Int) : Int :=
  let l := (list.zipIdx.filter (fun p => decide (512 * e.mmBase ≤ p.1) && decide (p.1 < 512 * e.mmBase + e.mmK)))
  (l.map (fun p => side.getD (p.2 * rows + b) 0 * w (p.1 - 512 * e.mmBase))).sum

/-- A result code for which the spec states no value: a free function of the numbers it comes from. (DESIGN CHOICE, assumption 13) -/
def freeCode (width : Nat) (l : List Int) : Nat := (Config.unstated l).toNat % 2 ^ width

/-- The code of output (b, n) from its row of activations and its weight vectors (R124 to R129); free where the spec states no value.
`out` is the outlier sum with e_out, if there is one. (DESIGN CHOICE, assumption 13) -/
def matOutput (e : Entry) (i : MatIn) (row : List Nat) (ws : List (List (Nat × Bool))) (outl : Option (Int × Int)) : Nat :=
  let chunks := (chunksOf 512 e.mmC row).zip (ws.map (fun l => l.map Prod.fst))
  match i.path with
  | .fp8 =>
    let vs := chunks.map (fun p => chunkFp8 (i.ex + e.mmEw)
      ((p.1.zip p.2).map (fun q => (valOfCode i.af 0 0 q.1, valOfCode i.wf 0 0 q.2))))
    let main := (treeNodeF32 e.mmLg vs).toNat
    outl.elim main (fun o => freeCode 32 [main, i.ex, o.1, o.2])
  | .bf16 =>
    let vs := chunks.map (fun p => chunkBf16 ((p.1.zip p.2).map (fun q => (f32OfBf16 q.1, f32OfBf16 q.2))))
    let main := (treeNodeF32 e.mmLg vs).toNat
    outl.elim main (fun o => freeCode 32 [main, i.ex, o.1, o.2])
  | _ =>
    let vs := chunks.map (fun p => chunkInt
      ((p.1.zip p.2).map (fun q => (intOfCode i.af q.1 - (i.zp : Int), intOfCode i.wf q.2))))
    let main := treeNodeInt e.mmLg vs
    let w := 8 * outBytes e.mmOut
    match outl with
    | none => (accCode e.mmOut main).getD (freeCode w [main])
    | some (eo, o) => ((outlierShift eo i.ex o).bind (fun k => accCode e.mmOut (main + k))).getD (freeCode w [main, i.ex, eo, o])

/-- Write output rows in order. -/
def State.writeRows (s : State) (x : Exec) (f : Fmt) (dst stride b : Nat) : List (List (Nat × Bool)) → State × Bool
  | [] => (s, true)
  | o :: l =>
    let r := s.writeBytes x.view (.mxe, x.slot) (dst + b * stride) (packElems f o)
    let q := r.1.writeRows x f dst stride (b + 1) l
    (q.1, r.2 && q.2)

/-- Store the outputs of an MXE command with their header, count the poisoned ones, record the image, and report (R148, R149).
(DESIGN CHOICE, assumption 26) -/
def State.mxeFinish (s : State) (x : Exec) (f : Fmt) (dst stride : Nat) (rows : List (List (Nat × Bool))) (h : Hdr)
    (sts : List Status) (port : Nat) : State :=
  let w := s.writeRows x f dst stride 0 rows
  let q := w.1.writeHdr x.view (.mxe, x.slot) dst h
  let flat := rows.flatten
  let bad := (flat.filter (·.2)).length
  let s1 := (q.1.addFld (Reg.ctxMxeStat_poisonedOut.at x.ctx) bad).image x.ctx .mxe x.slot
    ((packElems f flat).map Prod.fst) f.code (unsigned 6 h.e) (decide (0 < bad))
  s1.report x.ctx .mxe x.slot
    (reportOf (sts ++ (if 0 < bad then [.poisoned] else []) ++ (if w.2 && q.2 then [] else [.tierFault])) bad port)

/-- MATMUL after its start checks: activations, weights, outlier list and side tensor, outputs. -/
def State.matBody (s : State) (x : Exec) (i : MatIn) : State :=
  let e : Entry := x.words
  let rb := elemBytes i.af e.mmK
  let ra := s.readRows x i.addr rb i.stride e.mmB
  let acts := (chunksOf rb e.mmB ra.1.bytes).map (fun bs => (elemsOf i.af bs).take e.mmK)
  match ra.2.weightArming x with
  | none => ra.2
  | some (k, a) =>
    let rw := ra.2.readWeights k a
    let sh := i.side.getD {}
    let rl : Rd × State := if i.side.isSome then rw.2.readOperand x i.outList (2 * i.nOut) else ({}, rw.2)
    let rs : Rd × State := if i.side.isSome then rl.2.readOperand x i.outData (2 * sh.n) else ({}, rl.2)
    let list := (chunksOf 2 i.nOut rl.1.bytes).map (fun c => leVal (c.map Prod.fst))
    let side := elemsOf .int16 rs.1.bytes
    let sideV := side.map (fun q => intOfCode .int16 q.1)
    let rowBad := fun b => anyPoison rl.1.bytes || (side.zipIdx.any (fun p => p.1.2 && decide (p.2 % sh.ch = b)))
    let rows := acts.zipIdx.map (fun p =>
      let bad := p.1.any (·.2) || rowBad p.2
      (List.range e.mmN).map (fun n =>
        let ws := (List.range e.mmC).map (weightVec e i.wf rw.1.bytes n)
        let outl := if i.side.isSome then
            some (i.side.elim 0 (·.e), outlierSum e list sideV sh.ch p.2
              (fun kk => intOfCode i.wf (((ws.getD (kk / 512) []).getD (kk % 512) (0, false)).1)))
          else none
        (matOutput e i (p.1.map Prod.fst) ws outl, bad || ws.any (fun l => l.any (·.2)))))
    let f := (Fmt.ofCode e.mmOut).getD .acc64
    rs.2.mxeFinish x f e.mmDst e.mmDstStride rows
      { fmt := f.code, e := if i.path.isInt then i.ex + e.mmEw else 0, n := e.mmB * e.mmN, ch := e.mmN }
      (ra.1.sts ++ rw.1.sts ++ rl.1.sts ++ rs.1.sts) (max (max ra.1.port rw.1.port) (max rl.1.port rs.1.port))

/-- One MATMUL, primary or fill entry: its start checks, then its work; an entry of a fill list may have no outliers (R142). -/
def State.matOne (s : State) (x : Exec) : State :=
  match s.matStart x with
  | (.error r, s1) => s1.report x.ctx .mxe x.slot r
  | (.ok i, s1) =>
    if x.fillOf.isSome ∧ 0 < i.nOut then s1.report x.ctx .mxe x.slot (rejected .illegalCommand 0xFFFF)
    else s1.matBody x i

/-! ### Fill lists (R142, R143) -/

/-- The fill entries of a primary that have no result yet, in list order. -/
def State.fillsOf (s : State) (x : Exec) : List Exec :=
  s.running.filter (fun f => decide (f.ctx = x.ctx) && decide (f.eng = .mxe) && decide (f.fillOf = some x.slot) &&
    decide (f.result = none))

/-- Run the entries of one window in list order; an entry that breaks a rule of R142 or a check of this chapter does not run. `used`
is the accumulator space the entries before it take: where the sum passes 65,536 the later entry is refused, and an entry refused for its form
takes none, one refused at its start does. (DESIGN CHOICE, assumption 92) -/
def State.runFills (s : State) : Nat → List Exec → State
  | _, [] => s
  | used, f :: l =>
    let e : Entry := f.words
    let bad := match s.headerIllegal f.ctx .mxe e, fillFormIllegal e, matmulIllegal true e with
      | none, none, none => if 65536 < used + e.mmB * e.mmN then some 256 else none
      | a, b, c => lowestBad ((a.toList ++ b.toList ++ c.toList).map (fun p => (p, true)))
    match bad with
    | some p => (s.report f.ctx .mxe f.slot (rejected .illegalCommand p)).runFills used l
    | none => (s.matOne f).runFills (used + e.mmB * e.mmN) l

/-- Fill entries that do not run because their primary was rejected (R143). -/
def State.abortFills (s : State) : List Exec → State
  | [] => s
  | f :: l => (s.report f.ctx .mxe f.slot { status := .aborted, detail := 5 }).abortFills l

/-- MATMUL with its fill list: HEAD entries, the primary, TAIL entries (R142). The entries of a primary rejected at its start end ABORTED, as
those of one rejected at decode do (R143); those of a primary whose header faults or reads poisoned run. (DESIGN CHOICE, assumption 92) -/
def matmulRun (x : Exec) (s : State) : State :=
  let fills := s.fillsOf x
  match s.matStart x with
  | (.error r, s1) =>
    if r.status.code / 16 = 2 then (s1.report x.ctx .mxe x.slot r).abortFills fills
    else
      let s2 := s1.runFills 0 (fills.filter (fun f => !(f.words : Entry).mmTail))
      (s2.report x.ctx .mxe x.slot r).runFills 0 (fills.filter (fun f => (f.words : Entry).mmTail))
  | (.ok _, _) =>
    let s2 := s.runFills 0 (fills.filter (fun f => !(f.words : Entry).mmTail))
    (s2.matOne x).runFills 0 (fills.filter (fun f => (f.words : Entry).mmTail))

/-- MATMUL (R127). -/
def execMatmul (c : CtxId) (slot : Nat) (s : State) : Host.Outcome State Fault Refusal :=
  .next (s.engineRun c .mxe slot 1 matmulRun)

/-! ### Operand stalls (R137) -/

/-- The end of an operand stall episode of `cycles` ACLK of the command the MXE runs: the context's and the device's counts. -/
def State.stallEpisode (s : State) (cycles : Nat) : State :=
  match s.running.find? (fun x => decide (x.eng = .mxe) && decide (x.fillOf = none) && decide (x.words.headD 0 &&& 0xFF = 1)) with
  | none => s
  | some x =>
    if cycles = 0 then s
    else
      (((s.addFld (Reg.ctxMxeStat_stallEpisodes.at x.ctx) 1).addFld (Reg.ctxMxeStallcyc_cycles.at x.ctx) cycles).addFld
        Reg.mxeStallTotal_cycles cycles).div x.ctx 1 1

/-- OPERAND_STALL_EPISODE (R137). -/
def execOperandStallEpisode (cycles : Nat) (s : State) : Host.Outcome State Fault Refusal := .next (s.stallEpisode cycles)

/-! ### COMBINE (R130, R147) -/

/-- Read the headers of nodes 0 to n − 1. -/
def State.readNodeHdrs (s : State) (x : Exec) (a stride i : Nat) : Nat → Except Report (List Hdr) × State
  | 0 => (.ok [], s)
  | n + 1 =>
    match s.readHdr x.view (a + i * stride) with
    | (.error r, s1) => (.error r, s1)
    | (.ok h, s1) =>
      match s1.readNodeHdrs x a stride (i + 1) n with
      | (.error r, s2) => (.error r, s2)
      | (.ok l, s2) => (.ok (h :: l), s2)

/-- The completed tree of one element over the nodes; free where an integer sum leaves ACC64, for which no value is stated.
(DESIGN CHOICE, assumption 13) -/
def combineElem (fp : Bool) (lg : Nat) (cs : List Nat) : Nat :=
  if fp then (treeNodeF32 lg (cs.map (fun c => (BitVec.ofNat 32 c : F32)))).toNat
  else
    let v := treeNodeInt lg (cs.map (signed 64))
    if - (2 ^ 63 : Int) ≤ v ∧ v < 2 ^ 63 then unsigned 64 v else freeCode 64 (cs.map (signed 64))

/-- COMBINE as the MXE runs it: n, ch and e of every node's header must be node 0's, and the output's header copies them (R147, R148); the
exponent of FP32 nodes is 0, whatever their headers carry (R42). (DEDUCED, assumption 73) -/
def combineRun (x : Exec) (s : State) : State :=
  let e : Entry := x.words
  match s.readNodeHdrs x e.mmSrc e.cbStride 0 e.cbN with
  | (.error r, s1) => s1.report x.ctx .mxe x.slot r
  | (.ok hs, s1) =>
    let h0 := hs.headD {}
    let f := (Fmt.ofCode e.mmSrcFmt).getD .acc64
    if hs.any (fun h => decide (h.fmt ≠ e.mmSrcFmt ∨ h.n ≠ h0.n ∨ h.ch ≠ h0.ch ∨ h.exp f ≠ h0.exp f)) then
      s1.report x.ctx .mxe x.slot (rejected .illegalCommand 0xFFFF)
    else if e.cbStride < 64 + 8 * h0.n then s1.report x.ctx .mxe x.slot (rejected .illegalCommand 256)
    else
      let rb := elemBytes f h0.n
      let r := s1.readRows x e.mmSrc rb e.cbStride e.cbN
      let nodes := (chunksOf rb e.cbN r.1.bytes).map (elemsOf f)
      let l := (List.range h0.n).map (fun k =>
        let es := nodes.map (fun nd => nd.getD k (0, true))
        (combineElem (decide (f = .fp32)) (ceilLog2 e.cbN) (es.map Prod.fst), es.any (·.2)))
      r.2.mxeFinish x f e.mmDst 0 [l] { fmt := f.code, e := h0.exp f, n := h0.n, ch := h0.ch }
        r.1.sts r.1.port

/-- COMBINE (R130). -/
def execCombine (c : CtxId) (slot : Nat) (s : State) : Host.Outcome State Fault Refusal :=
  .next (s.engineRun c .mxe slot 2 combineRun)

end Sys2Proof.Machine
end

