-- ==== Sys2Proof/Machine/Rings.lean ====
section
/-! DEFINITION. The completion ring with its buffer and messages (R195 to R198), and the Tail (R341, R342). -/

namespace Sys2Proof.Machine

open Sys2Proof

/-! ### The completion ring -/

/-- The number of records of a context's ring. -/
def State.cqSize (s : State) (c : CtxId) : Nat := 2 ^ s.fld (Reg.ctxCqCfg_log2Size.at c)

/-- Records between two ring positions (index, lap). -/
def ringUsed (size tail : Nat) (tlap : Bool) (head : Nat) (hlap : Bool) : Nat :=
  (tail + b2n tlap * size + 2 * size - (head + b2n hlap * size) % (2 * size)) % (2 * size)

/-- Records in a context's ring that software has not consumed. -/
def State.cqUsed (s : State) (c : CtxId) : Nat :=
  let x := s.ctx c
  ringUsed (s.cqSize c) x.cqTail x.cqLap (s.fld (Reg.ctxCqHead_head.at c)) (s.flag (Reg.ctxCqHead_lap.at c))

/-- R196: the ring is full. -/
def State.cqFull (s : State) (c : CtxId) : Bool := decide (s.cqSize c ≤ s.cqUsed c)

/-- R197: whether 80 places of the completion buffer are free. -/
def State.headroom (s : State) (c : CtxId) : Bool := decide ((s.ctx c).cbuf.length + 80 ≤ 512)

/-- The 32 bytes of a record (R195). -/
def CplRec.bytes (r : CplRec) (phase : Bool) : List Byte :=
  leBytes 8 r.tag.toNat ++
  leBytes 8 (r.status.code + b2n r.tolerant * 2 ^ 8 + b2n r.rerun * 2 ^ 9 + r.engine.code.val * 2 ^ 10 + r.slot % 4096 * 2 ^ 16 +
    r.layerId % 65536 * 2 ^ 32 + r.detail % 65536 * 2 ^ 48) ++
  leBytes 8 r.time.toNat ++ leBytes 8 (r.firstStatus.code + b2n phase * 2 ^ 63)

/-- The next position of a ring. -/
def ringNext (size tail : Nat) (lap : Bool) : Nat × Bool := if tail + 1 = size then (0, !lap) else (tail + 1, lap)

/-- R198: the message of a context's ring, sent by the function that holds the context; the pending count returns to 0. -/
def State.cqMessage (s : State) (c : CtxId) : State :=
  (s.updCtx c (fun x => { x with irqPending := 0 })).sendMsix (s.owner c) (s.fld (Reg.ctxCqIrq_vector.at c))

/-- R198: a posted record with irq = 1 counts while en = 1; at cnt records the message goes. -/
def State.countIrq (s : State) (c : CtxId) (irq : Bool) : State :=
  if irq && s.flag (Reg.ctxCqIrq_en.at c) then
    let n := (s.ctx c).irqPending + 1
    let s1 := s.updCtx c (fun x => { x with irqPending := n })
    if max 1 (s.fld (Reg.ctxCqIrq_cnt.at c)) ≤ n then s1.cqMessage c else s1
  else s

/-- Write one record at the ring's tail (R195). -/
def State.cqWrite (s : State) (c : CtxId) (r : CplRec) : State :=
  let x := s.ctx c
  let a := (s.reg (ctxBase c + Reg.ctxCqBase)).toNat / 256 * 256 + 32 * x.cqTail
  let n := ringNext (s.cqSize c) x.cqTail x.cqLap
  ((s.hostStore a (clean (r.bytes (!x.cqLap)))).updCtx c (fun x => { x with cqTail := n.1, cqLap := n.2 })).countIrq c r.irq

/-- Move waiting records into the ring while it has room and the link is up (R197, R438). -/
def State.cqFlush (s : State) (c : CtxId) : Nat → State
  | 0 => s
  | fuel + 1 =>
    match (s.ctx c).cbuf with
    | [] => s
    | r :: l =>
      if s.cqFull c then s
      else if !s.hostUp then s.wakeDom epDom
      else ((s.updCtx c (fun x => { x with cbuf := l })).cqWrite c r).cqFlush c fuel

/-- Post a record: behind those that wait, then into the ring as far as it takes them. -/
def State.cqPost (s : State) (c : CtxId) (r : CplRec) : State :=
  let s1 := s.updCtx c (fun x => { x with cbuf := x.cbuf ++ [r] })
  s1.cqFlush c ((s1.ctx c).cbuf.length)

/-! ### The Tail -/

/-- The number of entries of a context's Tail ring. -/
def State.tailSize (s : State) (c : CtxId) : Nat := 2 ^ s.fld (Reg.ctxTailCfg_log2Size.at c)

/-- Whether the Tail ring is full. -/
def State.tailFull (s : State) (c : CtxId) : Bool :=
  let x := s.ctx c
  decide (s.tailSize c ≤ ringUsed (s.tailSize c) x.tailTail x.tailLap (s.fld (Reg.ctxTailHead_head.at c))
    (s.flag (Reg.ctxTailHead_lap.at c)))

/-- The address of the next Tail entry. -/
def State.tailAddr (s : State) (c : CtxId) : Nat :=
  wBits (s.reg (ctxBase c + Reg.ctxTailBase)) 12 40 * 4096 + 32 * (s.ctx c).tailTail

/-- The place that entry goes to: a writable object of the context that is not homed in T2 (R342). -/
def State.tailPlace (s : State) (c : CtxId) : Option Loc :=
  let a := s.tailAddr c
  let v := s.hostView c
  if (s.reach v a).any (fun r => decide (r.2.1.home = 2)) then none else s.writePlace v a

/-- R438: an entry bound for host memory waits while the link is down; a gated endpoint is woken first. -/
def State.tailWaits (s : State) (c : CtxId) : Bool :=
  !s.pcie.linkUp && !(s.gated epDom) && (s.reach (s.hostView c) (s.tailAddr c)).any (fun r =>
    decide (r.2.1.home = 3) && !r.2.1.t3Peer && !r.2.1.cp0 && !r.2.1.cp1)

/-- The bytes of an entry with the phase of its place. -/
def State.tailBytes (s : State) (c : CtxId) (e : List W64) : List Byte :=
  ((e.take 3) ++ [wSet (e.getD 3 0) 63 1 (b2n (!(s.ctx c).tailLap))]).flatMap (fun w => leBytes 8 w.toNat)

/-- The first waiting entry has been written: it leaves the buffer, and the ring's tail advances. -/
def State.tailTaken (s : State) (c : CtxId) : State :=
  let n := ringNext (s.tailSize c) (s.ctx c).tailTail (s.ctx c).tailLap
  s.updCtx c (fun x => { x with tailBuf := x.tailBuf.tail, tailSent := false, tailTail := n.1, tailLap := n.2 })

/-- The first waiting entry's write faulted: it is dropped and takes no place in the ring (R342). -/
def State.tailDropped (s : State) (c : CtxId) : State :=
  let s1 := s.updCtx c (fun x => { x with tailBuf := x.tailBuf.tail, tailSent := false })
  ((s1.addFld (Reg.ctxTailStat_lost.at c) 1).setFld (Reg.ctxTailStat_fault.at c) 1).logEvent 6 3 (some c) (s.tailAddr c) 0

/-- Move waiting entries into the ring, in order. One bound for a peer leaves as a WRITE and stays first until its answer; one that meets a
gated domain stays first until the domain is ready (R25, R401). -/
def State.tailFlush (s : State) (c : CtxId) : Nat → State
  | 0 => s
  | fuel + 1 =>
    match (s.ctx c).tailBuf with
    | [] => s
    | e :: _ =>
      if s.tailFull c || s.tailWaits c || (s.ctx c).tailSent then s
      else
        let put := s.tryOnce (fun s => (s.writeBytes (s.hostView c) (.tmv, 2 ^ 20) (s.tailAddr c) (clean (s.tailBytes c e))).1)
        match s.tailPlace c with
        | none => (s.tailDropped c).tailFlush c fuel
        | some l =>
          if !put.2 then put.1
          else if l.isPeer then put.1.updCtx c (fun x => { x with tailSent := true })
          else (put.1.tailTaken c).tailFlush c fuel

/-- The peer has answered for the entry on its way to it. -/
def State.tailAnswered (s : State) (c : CtxId) (ok : Bool) : State :=
  if (s.ctx c).tailSent then
    let t := if ok then s.tailTaken c else s.tailDropped c
    t.tailFlush c (t.ctx c).tailBuf.length
  else s

/-- Post an entry: with the ring full up to 256 wait on chip, a further one is dropped (R342). -/
def State.tailPost (s : State) (c : CtxId) (e : List W64) : State :=
  if (s.ctx c).tailBuf.length < 256 then
    (s.updCtx c (fun x => { x with tailBuf := x.tailBuf ++ [e] })).tailFlush c ((s.ctx c).tailBuf.length + 1)
  else (s.addFld (Reg.ctxTailStat_lost.at c) 1).setFld (Reg.ctxTailStat_overflow.at c) 1

/-- The Tail entry of a command, but for its phase (R341). -/
def State.tailEntry (s : State) (x : Exec) (r : Report) : List W64 :=
  let e : Entry := x.words
  let fmt := if x.digLen = 0 ∨ x.eng = .tmv then 0xF else x.digFmt
  let w2 := e.layerId + fmt * 2 ^ 16 + x.digE % 64 * 2 ^ 20 + b2n x.digPoison * 2 ^ 26 + b2n r.tolerant * 2 ^ 27 +
    b2n r.rerunWide * 2 ^ 28 + b2n x.fillOf.isSome * 2 ^ 29 +
    (if s.link.role = 1 ∨ s.link.role = 2 then s.link.dev % 256 else 0) * 2 ^ 32 + x.eng.code.val * 2 ^ 40
  [x.step, if x.digLen = 0 then 0 else x.digest, BitVec.ofNat 64 w2, BitVec.ofNat 64 (x.digLen % 2 ^ 48)]

end Sys2Proof.Machine
end

