-- ==== Sys2Proof/Machine/Save.lean ====
section
/-! DEFINITION. Context save and restore (R239 to R242, R345, R346, R465). -/

namespace Sys2Proof.Machine

open Sys2Proof

/-- The target context of a CTX_SAVE or CTX_RESTORE. -/
def Entry.target (e : Entry) : CtxId := Fin.ofNat 16 (e.pos 192 4)

/-- The encoding checks of CTX_SAVE and CTX_RESTORE in a queue of context c (R239, R242). (DEDUCED, assumption 43) -/
def saveIllegal (c : CtxId) (e : Entry) : Option Nat :=
  lowestBad [(0, decide (c ≠ 0)), (128, decide (e.pos 128 52 % 4096 ≠ 0)), (180, decide (e.pos 180 12 ≠ 0)),
    (192, decide (e.pos 192 4 = 0)), (196, decide (e.pos 196 60 ≠ 0)), (256, decide (e.word 4 ≠ 0)),
    (320, decide (e.word 5 ≠ 0)), (384, decide (e.word 6 ≠ 0))]

/-- R239: whether a context is quiescent. -/
def State.quiescent (s : State) (t : CtxId) : Bool :=
  decide (s.fld (Reg.ctxCtrl_qEn.at t) = 0) && decide (s.execCount t = 0) && (s.ctx t).cbuf.isEmpty

/-- The keyseed of a context (R465). -/
def State.keySeed (s : State) (t : CtxId) : List W64 :=
  (List.range 4).map (fun k => s.reg (ctxBase t + Reg.ctxSecKeyseed + 8 * k))

/-- CTX_SAVE or CTX_RESTORE at command start: the target must be quiescent; its seed is sampled (R239, R468). -/
def State.saveStart (s : State) (x : Exec) : State :=
  let t := Entry.target x.words
  if !(s.quiescent t) then s.report x.ctx .tmv x.slot (rejected .illegalCommand 192)
  else s.updExec x.ctx .tmv x.slot (fun y => { y with keySeed := s.keySeed t })

/-- The page registers that a save image holds whole (R68, R69, R100, R151, R177, R240, R244, R273, R345). -/
def savedRegs : List Nat :=
  [Reg.ctxQuantCfg, Reg.ctxQuantStat, Reg.ctxQuantNcount, Reg.ctxRndBase, Reg.ctxCafStat, Reg.ctxMxeStat, Reg.ctxMxeStallcyc,
   Reg.ctxCmpStat, Reg.ctxCmpSaved, Reg.ctxCmpErr, Reg.ctxTmvStat, Reg.ctxTmvArb, Reg.ctxMigRbase, Reg.ctxMigStat, Reg.ctxStep,
   Reg.ctxDivCount, Reg.ctxDivSrc, Reg.ctxDivSrc + 8, Reg.ctxTailHead] ++
  (List.range 8).map (fun k => Reg.ctxSeed + 8 * k)

/-- The first key of the queue memory of context t; it holds 2^20 bytes. -/
def kQueues (t : CtxId) : Nat := kQueue t .mxe 0 0

/-- The install_id of the batch in a slot of a model (MEM_MDL_VER). -/
def State.installOf (s : State) (model slot : Nat) : Nat :=
  let m := SMap.get {} s.models model
  if slot = 0 then m.verA else m.verB

/-- The state of a batch slot. -/
def State.slotState (s : State) (model slot : Nat) : SlotState :=
  let m := SMap.get {} s.models model
  if slot = 0 then m.stA else m.stB

/-- The install_id of every slot an open request is bound to (R346). -/
def State.installs (s : State) (l : List Request) : List (Nat × Nat × Nat) :=
  ((l.flatMap (·.bind)).dedup).map (fun b => (b.1, b.2, s.installOf b.1 b.2))

/-- An arming as an image holds it: its descriptor, slot, place and delivered position, which is 0 while nothing is attached.
(DEDUCED, assumption 43) -/
def Arming.fresh (a : Arming) : Arming :=
  { ctx := a.ctx, eng := a.eng, slot := a.slot, desc := a.desc, nBlk := a.nBlk, bind := a.bind, draining := a.fetched || a.draining }

/-- The words of a context's queue memory that hold bit errors: (word, errors). -/
def State.queueErrs (s : State) (t : CtxId) : List (Nat × Nat) :=
  s.bch.filter (fun e => decide (kQueues t / 8 ≤ e.1) && decide (e.1 < (kQueues t + 2 ^ 20) / 8))

/-- What the read of a context's queue memory counts (R385), each word at its slot's location (R392). -/
def State.noteQueues (s : State) (t : CtxId) : State :=
  (s.queueErrs t).foldl (fun (s : State) e =>
    s.noteWord 3 (some t) e.1 (4 * t.val * 4096 + (e.1 - kQueues t / 8) / 8)) s

/-- What an image of context t holds now (R240). A word with more than 2 bit errors is saved as it is delivered (R385). -/
def State.imageOf (s : State) (t : CtxId) : Saved :=
  let k := kQueues t
  let bad := ((s.queueErrs t).filter (fun e => decide (2 < e.2))).map Prod.fst
  let raw := s.mem.filter (fun e => decide (k ≤ e.1) && decide (e.1 < k + 2 ^ 20) && !(bad.elem (e.1 / 8)))
  let marks := s.poison.filter (fun e => decide (k / 8 ≤ e.1) && decide (e.1 < (k + 2 ^ 20) / 8) && !(bad.elem e.1))
  { body := s.ctx t
    regs := savedRegs.map (fun o => (o, s.reg (ctxBase t + o)))
    qmem := (raw.map (fun e => (e.1 - k, e.2))) ++
      bad.flatMap (fun w => (List.range 8).map (fun j => (8 * w + j - k, (s.peek (8 * w + j)).1)))
    qpoison := (marks.map Prod.fst ++ bad.filter (fun w => (s.peek (8 * w)).2)).map (fun w => w - k / 8)
    arms := (s.armings.filter (fun a => decide (a.ctx = t))).map Arming.fresh
    installs := s.installs (s.ctx t).reqs }

/-- The 12 bytes of the nonce of a save count: the count, then 32 random bits (R465). (DESIGN CHOICE, assumption 8) -/
def sealNonce (count : W64) : List Byte := leBytes 8 count.toNat ++ leBytes 4 (Config.sealRandom count).toNat

/-- The 64-byte plain header of a sealed image for context t (R465): format 1, context, nonce, the ciphertext's length. (DESIGN CHOICE,
assumption 8) -/
def sealHeader (t : CtxId) (count : W64) : List Byte :=
  leBytes 4 1 ++ leBytes 4 t.val ++ sealNonce count ++ leBytes 8 (2 ^ 21 - 80) ++ List.replicate 36 0

/-- Byte i of the image sealed for context t at a save count: header, ciphertext, 16-byte tag (R465). (DESIGN CHOICE, assumption 8) -/
def sealedByte (t : CtxId) (count : W64) (i : Nat) : Byte :=
  if i < 64 then (sealHeader t count).getD i 0 else if i < 2 ^ 21 - 16 then Config.sealByte count (i - 64) else Config.sealTag count (i + 16 - 2 ^ 21)

/-- The bytes of that image (R240, R465). (DESIGN CHOICE, assumption 8) -/
def sealBytes (t : CtxId) (count : W64) : List Byte := (List.range (2 ^ 21)).map (sealedByte t count)

/-- CTX_SAVE as the TMV runs it: it waits for the target's migration requests to end and its Tail buffer to empty (R273, R345).
(DESIGN CHOICE, assumption 8) -/
def saveRun (x : Exec) (s : State) : State :=
  let e : Entry := x.words
  let t := e.target
  if (s.mig ++ s.migWait).any (fun m => decide (m.ctx = t)) || !(s.ctx t).tailBuf.isEmpty then s
  else
    let n := s.sec.saveCount + 1
    let z : Seal := { count := n, tgt := t, seed := x.keySeed, saved := s.imageOf t }
    let s0 := s.noteQueues t
    let s1 := { s0 with sec := { s0.sec with saveCount := n, seals := s0.sec.seals ++ [z] } }
    let w := s1.writeBytes x.view (.tmv, x.slot) (e.pos 128 52) (clean (sealBytes t n))
    w.1.report x.ctx .tmv x.slot { status := if w.2 then .ok else .tierFault }

/-- CTX_SAVE (R240). -/
def execCtxSave (c : CtxId) (slot : Nat) (s : State) : Host.Outcome State Fault Refusal := .next (s.engineRun c .tmv slot 5 saveRun)

/-- The seal that an image passes for context t: the same bytes, sealed for t under the seed in force (R465). (DESIGN CHOICE, assumption 8) -/
def State.sealFor (s : State) (t : CtxId) (img : List Byte) : Option Seal :=
  s.sec.seals.reverse.find? (fun z => decide (z.tgt = t) && decide (z.seed = s.keySeed t) && decide (img = sealBytes t z.count))

/-- R346: whether every recorded slot may still be bound. -/
def State.installsOk (s : State) (l : List (Nat × Nat × Nat)) : Bool :=
  l.all (fun b => decide (s.slotState b.1 b.2.1 ≠ .stale) && decide (s.slotState b.1 b.2.1 ≠ .building) &&
    decide (s.installOf b.1 b.2.1 = b.2.2))

/-- Write a list of page registers of context t. -/
def State.setRegsAt (s : State) (t : CtxId) : List (Nat × W64) → State
  | [] => s
  | (o, v) :: l => (s.setReg (ctxBase t + o) v).setRegsAt t l

/-- Put bytes of the queue memory of a context back. -/
def State.putQueue (s : State) (k : Nat) : List (Nat × Byte) → State
  | [] => s
  | (o, b) :: l => (s.poke (k + o) b).putQueue k l

/-- Put the poison marks of a context's queue memory back. -/
def State.putPoison (s : State) (w : Nat) : List Nat → State
  | [] => s
  | i :: l => (s.setPoison (w + i) true).putPoison w l

/-- Install restored armings in order. -/
def State.installAll (s : State) : List Arming → State
  | [] => s
  | a :: l => (s.install a).1.installAll l

/-- R241: replace the saved state in context t; CTX_MEAS starts again from 0 (R457). What describes host memory, Exact mode and a reset in
progress is t's own. (DEDUCED, assumption 43) -/
def State.restore (s : State) (t : CtxId) (v : Saved) : State :=
  let k := kQueues t
  let old := s.ctx t
  let b := { v.body with
    queues := v.body.queues.map (fun q => { q with dec := .idle })
    cbuf := old.cbuf, cqTail := old.cqTail, cqLap := old.cqLap, irqPending := old.irqPending, resetBusy := old.resetBusy
    exactReq := old.exactReq, exactActive := old.exactActive, exactRefused := old.exactRefused, tailBuf := old.tailBuf, tailSent := old.tailSent }
  let s1 := (s.removeArms (fun a => decide (a.ctx = t))).setCtx t b
  let s0 := { s1 with sec := { s1.sec with ctxMeas := s1.sec.ctxMeas.set t.val 0 } }
  let s2 := ((s0.zeroFrom k (k + 2 ^ 20)).putQueue k v.qmem).putPoison (k / 8) v.qpoison
  ((s2.setRegsAt t v.regs).div t 7 1).installAll v.arms

/-- CTX_RESTORE as the TMV runs it. (DESIGN CHOICE, assumption 8) -/
def restoreRun (x : Exec) (s : State) : State :=
  let e : Entry := x.words
  let t := e.target
  let r := s.span x.view (e.pos 128 52) (2 ^ 21)
  let s1 := s.noteSpan x.view (e.pos 128 52) (2 ^ 21)
  if r.2 then s1.report x.ctx .tmv x.slot { status := .tierFault }
  else if anyPoison r.1 then s1.report x.ctx .tmv x.slot { status := .poisoned }
  else
    match s1.sealFor t (r.1.map Prod.fst) with
    | none => s1.report x.ctx .tmv x.slot (rejected .illegalCommand 0xFFFF)
    | some z =>
      if s1.installsOk z.saved.installs then (s1.restore t z.saved).report x.ctx .tmv x.slot {}
      else s1.report x.ctx .tmv x.slot (rejected .illegalCommand 0xFFFF)

/-- CTX_RESTORE (R241). -/
def execCtxRestore (c : CtxId) (slot : Nat) (s : State) : Host.Outcome State Fault Refusal :=
  .next (s.engineRun c .tmv slot 6 restoreRun)

end Sys2Proof.Machine
end

