-- ==== Sys2Proof/Machine/Vec.lean ====
section
/-! DEFINITION. The Vector Engine (chapter 2): the checks of its commands (R63 to R67), conversions with statistics (R44 to R56), and
the meanings of its nine commands. -/

namespace Sys2Proof.Machine

open Sys2Proof

/-! ### Encoding checks (R63, R64, R66, R67) -/

/-- The body fields of R64: lowest bit position and width. -/
def vecFields : List (Nat × Nat) :=
  [(128, 52), (180, 4), (184, 4), (188, 4), (192, 52), (244, 2), (246, 6), (252, 4), (256, 52), (308, 4), (312, 8), (320, 48),
   (368, 16), (384, 52), (436, 8), (444, 2), (446, 1), (447, 1)]

/-- The fields an opcode uses, by lowest bit position; every other field is reserved for it (R64), a func of an opcode that applies no
function and a carried_e of one without a carried mode among them. (DEDUCED, assumption 97) -/
def vecUsed : Nat → List Nat
  | 1 => [128, 180, 184, 188, 192, 244, 246, 256, 308, 312, 320, 368, 384, 436]
  | 2 => [128, 180, 184, 192, 308, 320, 368]
  | 3 => [128, 180, 184, 192, 312, 320, 368]
  | 4 => [128, 180, 184, 192, 308, 320, 368, 384]
  | 5 => [128, 180, 184, 192, 320, 368]
  | 6 => [128, 180, 184, 192, 246, 320, 368, 384]
  | 7 => [128, 180, 184, 192, 320, 368, 384]
  | 8 => [128, 184, 192, 320, 368, 444, 446]
  | 9 => [128, 180, 184, 192, 244, 246, 312, 320, 368, 384]
  | _ => []

/-- The source formats an opcode accepts (R66). -/
def vecSrcOk (op : Nat) (f : Fmt) : Bool :=
  match op with
  | 1 | 2 | 3 | 9 => true
  | 4 | 5 => decide (f = .fp32 ∨ f = .bf16 ∨ f = .int8 ∨ f = .int16 ∨ f = .int32)
  | 6 => decide (f = .int16)
  | 7 => decide (f = .int32 ∨ f = .acc64)
  | _ => false

/-- Integer and FP8 targets, which carry an exponent (R46). -/
def Fmt.quantised (f : Fmt) : Bool :=
  decide (f = .int4 ∨ f = .int8 ∨ f = .uint8 ∨ f = .int16 ∨ f = .e4m3 ∨ f = .e5m2)

/-- The destination formats an opcode accepts (R66). -/
def vecDstOk (op : Nat) (f : Fmt) (rndFp : Bool) : Bool :=
  match op with
  | 1 => f.quantised || decide (f = .bf16)
  | 2 | 4 | 5 => decide (f = .fp32 ∨ f = .bf16)
  | 3 => f.quantised
  | 6 => decide (f = .int8 ∨ f = .int4)
  | 7 => decide (f = .fp32)
  | 8 => decide (f = if rndFp then .fp32 else .int32)
  | 9 => f.quantised || decide (f = .bf16 ∨ f = .fp32)
  | _ => false

/-! The body fields. -/

/-- src_addr -/
def Entry.vSrc (e : Entry) : Nat := e.pos 128 52
/-- src_fmt -/
def Entry.vSrcFmt (e : Entry) : Nat := e.pos 180 4
/-- dst_fmt -/
def Entry.vDstFmt (e : Entry) : Nat := e.pos 184 4
/-- wide_fmt -/
def Entry.vWideFmt (e : Entry) : Nat := e.pos 188 4
/-- dst_addr -/
def Entry.vDst (e : Entry) : Nat := e.pos 192 52
/-- scale_mode -/
def Entry.vScale (e : Entry) : Nat := e.pos 244 2
/-- carried_e -/
def Entry.vCarried (e : Entry) : Int := signed 6 (e.pos 246 6)
/-- wide_addr -/
def Entry.vWide (e : Entry) : Nat := e.pos 256 52
/-- func -/
def Entry.vFunc (e : Entry) : Nat := e.pos 308 4
/-- zp -/
def Entry.vZp (e : Entry) : Nat := e.pos 312 8
/-- count -/
def Entry.vCount (e : Entry) : Nat := e.pos 320 48
/-- ch -/
def Entry.vCh (e : Entry) : Nat := e.pos 368 16
/-- aux_addr -/
def Entry.vAux (e : Entry) : Nat := e.pos 384 52
/-- aux_n -/
def Entry.vAuxN (e : Entry) : Nat := e.pos 436 8
/-- rnd_fp -/
def Entry.vRndFp (e : Entry) : Bool := decide (e.pos 446 1 = 1)

/-- The checks of R10, R37, R43, R51, R56, R63, R64, R66 and R67 on the encoding: the status and detail of a rejection (R204).
(DEDUCED, assumption 17; DEDUCED, assumption 19) -/
def vecIllegal (e : Entry) : Option (Status × Nat) :=
  let op := e.opcode
  if op < 1 ∨ 9 < op then some (.illegalCommand, 0)
  else
    let rows := decide (op = 4 ∨ op = 5 ∨ op = 6) || (decide (op = 1) && decide (0 < e.vAuxN))
    let unused := (vecFields.filter (fun f => !(vecUsed op).contains f.1)).map (fun f => (f.1, decide (e.pos f.1 f.2 ≠ 0)))
    let dst := Fmt.ofCode e.vDstFmt
    (lowestBad (unused ++
      [(128, decide (op ≠ 8) && decide (e.vSrc % 64 ≠ 0)),
       (144, decide (op = 8) && decide (e.pos 144 36 ≠ 0)),
       (180, decide (op ≠ 8) && !((Fmt.ofCode e.vSrcFmt).any (vecSrcOk op))),
       (184, !(dst.any (fun f => vecDstOk op f e.vRndFp))),
       (188, decide (op = 1) && (!([3, 6, 15].contains e.vWideFmt) || (decide (e.vScale = 1) && decide (e.vWideFmt = 15)))),
       (192, decide (e.vDst % 64 ≠ 0)),
       (244, decide (1 < e.vScale)),
       (256, decide (op = 1) && decide (e.vWideFmt ≠ 15) && decide (e.vWide % 64 ≠ 0)),
       (308, decide (9 < e.vFunc) || (decide (op = 4) && decide (1 < e.vFunc))),
       (312, decide (e.vZp ≠ 0) && decide (dst ≠ some .uint8)),
       (320, decide (e.vCount = 0)),
       (368, rows && (decide (e.vCh = 0) || decide (e.vCount % e.vCh ≠ 0))),
       (384, decide (op = 1 ∨ op = 6 ∨ op = 7 ∨ op = 9) && decide (e.vAux % 64 ≠ 0)),
       (416, decide (op = 4) && decide (e.pos 416 20 ≠ 0)),
       (436, decide (128 < e.vAuxN))])).map (fun b => (.illegalCommand, b))

/-! ### Sources -/

/-- A source tensor as read: header, format, elements with their poison, and the conditions met. -/
structure Src where
  hdr : Hdr := {}
  fmt : Fmt := .int8
  xs : List (Nat × Bool) := []
  sts : List Status := []
  port : Nat := 0
  deriving DecidableEq, Repr

/-- The values of the elements (R41, R42). -/
def Src.vals (r : Src) : List (Val × Bool) :=
  r.xs.map (fun x => (valOfCode r.fmt (if r.fmt = .uint8 then r.hdr.zp else 0) (r.hdr.exp r.fmt) x.1, x.2))

/-- The report of a command that its operands or memory make illegal (R15, R204). -/
def badHeader : Report := rejected .illegalCommand 0xFFFF

/-- Read `n` elements in the format of their header. -/
def State.readElems (s : State) (x : Exec) (a n : Nat) (h : Hdr) (f : Fmt) : Except Report Src × State :=
  let r := s.readOperand x a (elemBytes f n)
  (.ok { hdr := h, fmt := f, xs := (elemsOf f r.1.bytes).take n, sts := r.1.sts, port := r.1.port }, r.2)

/-- R43, R53, R66: the source at `a`: its header must carry the format the command names, if it names one, and an accepted one; with
redirect the wide copy is read. -/
def State.readSrc (s : State) (x : Exec) (a n : Nat) (want : Option Nat) (accept : Fmt → Bool) : Except Report Src × State :=
  match s.readHdr x.view a with
  | (.error r, s1) => (.error r, s1)
  | (.ok h, s1) =>
    if want.any (fun w => decide (w ≠ h.fmt)) then (.error badHeader, s1)
    else if h.redirect then
      match s1.readHdr x.view h.wide with
      | (.error r, s2) => (.error r, s2)
      | (.ok hw, s2) =>
        match Fmt.ofCode hw.fmt with
        | some f => if accept f then s2.readElems x h.wide n hw f else (.error badHeader, s2)
        | none => (.error badHeader, s2)
    else
      match Fmt.ofCode h.fmt with
      | some f => if accept f then s1.readElems x a n h f else (.error badHeader, s1)
      | none => (.error badHeader, s1)

/-! ### Conversion with statistics (R44 to R49) -/

/-- The three counts of R48. -/
structure Counts where
  clip : Nat := 0
  zero : Nat := 0
  nan : Nat := 0
  deriving DecidableEq, Repr

/-- The counts of a list of conversions. -/
def countStats (l : List Stat) : Counts :=
  { clip := (l.filter (fun x => decide (x = .clip ∨ x = .both))).length
    zero := (l.filter (fun x => decide (x = .zero ∨ x = .both))).length
    nan := (l.filter (· = .nan)).length }

/-- Convert a tensor (R44, R45): an outlier element becomes the code of 0; outlier and poisoned elements are not counted (R48, R490).
(DEDUCED, assumption 20) -/
def convTensor (t : Fmt) (z : Nat) (e : Int) (xs : List (Val × Bool)) (isOut : Nat → Bool) : List (Nat × Bool) × Counts :=
  let l := xs.zipIdx.map (fun p =>
    let q := if isOut p.2 then (convert t z e .zero).1 else (convert t z e p.1.1).1
    ((q, p.1.2), if isOut p.2 || p.1.2 then Stat.none else (convert t z e p.1.1).2))
  (l.map (·.1), countStats (l.map (·.2)))

/-- The elements that take part in a first pass (R46, R490). -/
def passVals (xs : List (Val × Bool)) (isOut : Nat → Bool) : List Val :=
  (xs.zipIdx.filter (fun p => !(isOut p.2) && !p.1.2)).map (·.1.1)

/-- R49: whether a count exceeds a threshold over n elements. -/
def exceeds (count thr n : Nat) : Bool := decide (thr * n < count * 65536)

/-- R48, R68: add counts to the context's statistics registers; they saturate. -/
def State.addStats (s : State) (c : CtxId) (k : Counts) : State :=
  ((s.addFld (Reg.ctxQuantStat_clipTotal.at c) k.clip).addFld (Reg.ctxQuantStat_zeroTotal.at c) k.zero).addFld
    (Reg.ctxQuantNcount_nanTotal.at c) k.nan

/-! ### Writing results -/

/-- A tensor a VEC command writes: address, format, elements (none: header only) and header. -/
structure VecOut where
  addr : Nat
  fmt : Fmt
  elems : List (Nat × Bool)
  hdr : Hdr
  deriving DecidableEq, Repr

/-- Write tensors in order, each header after its elements; false if any write faulted. (DESIGN CHOICE, assumption 26) -/
def State.writeOuts (s : State) (x : Exec) : List VecOut → State × Bool
  | [] => (s, true)
  | o :: l =>
    let r := s.writeBytes x.view (x.eng, x.slot) o.addr (packElems o.fmt o.elems)
    let h := r.1.writeHdr x.view (x.eng, x.slot) o.addr o.hdr
    let q := h.1.writeOuts x l
    (q.1, r.2 && h.2 && q.2)

/-- The poisoned elements among outputs. -/
def poisonedIn (l : List VecOut) : Nat := (l.map (fun o => (o.elems.filter (·.2)).length)).sum

/-- Write a command's outputs, record its image (R339, R340: `img` lists the outputs digested) and report it (R14, R204, R490). -/
def State.vecFinish (s : State) (x : Exec) (outs img : List VecOut) (sts : List Status) (port : Nat) (rerun : Bool) : State :=
  let w := s.writeOuts x outs
  let n := poisonedIn outs
  let sts' := sts ++ (if rerun then [.okRerunWide] else []) ++ (if 0 < n then [.poisoned] else []) ++
    (if w.2 then [] else [.tierFault])
  let s1 := match img with
    | [] => w.1
    | o :: _ => w.1.image x.ctx x.eng x.slot ((img.flatMap (fun (v : VecOut) => packElems v.fmt v.elems)).map Prod.fst) o.fmt.code
        (unsigned 6 (o.hdr.exp o.fmt)) (decide (0 < poisonedIn img))
  s1.report x.ctx x.eng x.slot { reportOf sts' n port with rerunWide := rerun }

/-- End a command that wrote nothing. -/
def State.vecFail (s : State) (x : Exec) (r : Report) : State := s.report x.ctx x.eng x.slot r

/-- The header of an output with no statistics. -/
def plainHdr (f : Fmt) (n ch : Nat) : Hdr := { fmt := f.code, n := n, ch := ch }

/-! ### QUANT (R44 to R56) -/

/-- R56: read a list of `n` outlier channels, or give the report of a list that faults or reads poisoned. -/
def State.readOutliers (s : State) (x : Exec) (a n : Nat) : Except Report (List Nat) × State :=
  if n = 0 then (.ok [], s)
  else
    let r := s.readOperand x a (2 * n)
    match r.1.failure with
    | some q => (.error q, r.2)
    | none => (.ok ((chunksOf 2 n r.1.bytes).map (fun c => leVal (c.map (·.1)))), r.2)

/-- R56: whether a QUANT's outlier list is legal: distinct indices below ch. -/
def listLegal (ch : Nat) (l : List Nat) : Bool := decide (l.dedup.length = l.length) && l.all (fun i => decide (i < ch))

/-- The values QUANT converts: the exact source, or the function of the source rounded to FP32 (R66). -/
def quantVals (func : Nat) (xs : List (Val × Bool)) : List (Val × Bool) :=
  if func = 0 then xs else xs.map (fun p => (F32.val (applyFunc func (f32OfVal p.1)), p.2))

/-- The outlier side tensor of R56: element i × R + r is the element of listed channel i in row r. -/
def sideTensor (e : Entry) (ch : Nat) (outl : List Nat) (xs : List (Val × Bool)) : VecOut :=
  let rows := e.vCount / ch
  let xv := outl.flatMap (fun c => (List.range rows).map (fun r => xs.getD (r * ch + c) (.zero, false)))
  let f : Fmt := if e.vWideFmt = 6 then .bf16 else .int16
  let eo := if f = .bf16 then 0 else firstPass f 0 (passVals xv (fun _ => false))
  { addr := e.vAux + 320, fmt := f, elems := (convTensor f 0 eo xv (fun _ => false)).1,
    hdr := { plainHdr f (outl.length * rows) rows with e := eo } }

/-- What QUANT computes from a source: the tensors written in order, those digested, the counts, whether it re-ran (R52). -/
structure QuantRes where
  outs : List VecOut
  img : List VecOut
  counts : Counts
  rerun : Bool
  deriving DecidableEq, Repr

/-- The work of QUANT on its source values with outlier channels `outl` and CTX_QUANT_CFG as sampled (R46 to R56, R70). (DEDUCED, assumption 20) -/
def quantWork (e : Entry) (cfg : W64) (hch : Nat) (outl : List Nat) (xs : List (Val × Bool)) : QuantRes :=
  let n := e.vCount
  let t := (Fmt.ofCode e.vDstFmt).getD .int8
  let ch := if e.vCh = 0 then hch else e.vCh
  let isOut := fun i => !outl.isEmpty && outl.contains (i % e.vCh)
  let carried := decide (e.vScale = 1)
  let pass := passVals xs isOut
  let exq := if t = .bf16 then 0 else if carried then e.vCarried else firstPass t e.vZp pass
  let r := convTensor t e.vZp exq xs isOut
  let n' := ((List.range n).filter (fun i => !isOut i)).length
  let beyond := exceeds r.2.clip (wBits cfg 0 16) n' || (carried && exceeds r.2.zero (wBits cfg 16 16) n')
  let rerun := beyond && decide (e.vWideFmt ≠ 15) && wBit cfg 32
  let side := sideTensor e e.vCh outl xs
  let withOut : Hdr → Hdr := fun h => if outl.isEmpty then h else
    { h with nOut := outl.length, eOut := side.hdr.e, outList := e.vAux, outData := e.vAux + 320 }
  let wf : Fmt := if e.vWideFmt = 6 then .bf16 else .int16
  let we := if wf = .bf16 then 0 else firstPass wf 0 pass
  let w := convTensor wf 0 we xs isOut
  let wide : VecOut := { addr := e.vWide, fmt := wf, elems := w.1,
                         hdr := withOut { plainHdr wf n ch with e := we, clip := w.2.clip, zero := w.2.zero, nan := w.2.nan } }
  let h0 : Hdr := withOut { plainHdr t n ch with e := exq, zp := e.vZp, clip := r.2.clip, zero := r.2.zero, nan := r.2.nan }
  let narrow : VecOut := { addr := e.vDst, fmt := t, elems := r.1,
                           hdr := if rerun then { h0 with redirect := true, wide := e.vWide } else h0 }
  let sides := if outl.isEmpty then [] else [side]
  { outs := sides ++ (if rerun then [wide] else []) ++ [narrow]
    img := (if rerun then wide else narrow) :: sides
    counts := if rerun then ⟨r.2.clip + w.2.clip, r.2.zero + w.2.zero, r.2.nan + w.2.nan⟩ else r.2
    rerun := rerun }

/-- QUANT as the VEC runs it. -/
def quantRun (x : Exec) (s : State) : State :=
  let e : Entry := x.words
  match s.readSrc x e.vSrc e.vCount (some e.vSrcFmt) (vecSrcOk 1) with
  | (.error r, s1) => s1.vecFail x r
  | (.ok src, s1) =>
    match s1.readOutliers x e.vAux e.vAuxN with
    | (.error r, s2) => s2.vecFail x r
    | (.ok outl, s2) =>
      if listLegal e.vCh outl then
        let q := quantWork e x.quantCfg src.hdr.ch outl (quantVals e.vFunc src.vals)
        let s3 := s2.addStats x.ctx q.counts
        let s4 := if q.rerun then s3.addFld (Reg.ctxQuantNcount_rerunCount.at x.ctx) 1 else s3
        s4.vecFinish x q.outs q.img src.sts src.port q.rerun
      else s2.vecFail x badHeader

/-- QUANT (R44 to R56). -/
def execQuant (c : CtxId) (slot : Nat) (s : State) : Host.Outcome State Fault Refusal :=
  .next (s.engineRun c .vec slot 1 quantRun)

/-! ### FUNC, SCALE_FIND (R46, R60, R66) -/

/-- An FP32 result stored in FP32 or BF16 (R59). (DEDUCED, assumption 20) -/
def floatCode (f : Fmt) (y : F32) : Nat := if f = .bf16 then bf16OfVal (F32.val y) else y.toNat

/-- The output of a command whose results are FP32 values. -/
def floatOut (e : Entry) (ch : Nat) (ys : List (F32 × Bool)) : VecOut :=
  let f := (Fmt.ofCode e.vDstFmt).getD .fp32
  { addr := e.vDst, fmt := f, elems := ys.map (fun y => (floatCode f y.1, y.2)), hdr := plainHdr f e.vCount ch }

/-- FUNC as the VEC runs it; its header takes ch from the source's. (DESIGN CHOICE, assumption 68) -/
def funcRun (x : Exec) (s : State) : State :=
  let e : Entry := x.words
  match s.readSrc x e.vSrc e.vCount (some e.vSrcFmt) (vecSrcOk 2) with
  | (.error r, s1) => s1.vecFail x r
  | (.ok src, s1) =>
    let o := floatOut e src.hdr.ch (src.vals.map (fun v => (applyFunc e.vFunc (f32OfVal v.1), v.2)))
    s1.vecFinish x [o] [o] src.sts src.port false

/-- FUNC (R60). -/
def execFunc (c : CtxId) (slot : Nat) (s : State) : Host.Outcome State Fault Refusal :=
  .next (s.engineRun c .vec slot 2 funcRun)

/-- SCALE_FIND as the VEC runs it: a header with the exponent found and the source's ch, and no data. (DESIGN CHOICE, assumption 68) -/
def scaleFindRun (x : Exec) (s : State) : State :=
  let e : Entry := x.words
  match s.readSrc x e.vSrc e.vCount (some e.vSrcFmt) (vecSrcOk 3) with
  | (.error r, s1) => s1.vecFail x r
  | (.ok src, s1) =>
    let t := (Fmt.ofCode e.vDstFmt).getD .int8
    let exq := firstPass t e.vZp (passVals src.vals (fun _ => false))
    let o : VecOut := { addr := e.vDst, fmt := t, elems := [], hdr := { plainHdr t e.vCount src.hdr.ch with e := exq, zp := e.vZp } }
    s1.vecFinish x [o] [] src.sts src.port false

/-- SCALE_FIND (R46). -/
def execScaleFind (c : CtxId) (slot : Nat) (s : State) : Host.Outcome State Fault Refusal :=
  .next (s.engineRun c .vec slot 3 scaleFindRun)

/-! ### NORM, SOFTMAX (R491) -/

/-- NORM, mean and variance. -/
def normMean (eps : F32) (row : List F32) : List F32 :=
  let rn := fnRecip (f32OfInt row.length)
  let mu := f32Mul (treeSum row) rn
  let d := row.map (fun a => f32Sub a mu)
  let v := f32Mul (treeSum (d.map (fun a => f32Mul a a))) rn
  let k := fnRsqrt (f32Add v eps)
  d.map (fun a => f32Mul a k)

/-- NORM, root mean square. -/
def normRms (eps : F32) (row : List F32) : List F32 :=
  let q := f32Mul (treeSum (row.map (fun a => f32Mul a a))) (fnRecip (f32OfInt row.length))
  let k := fnRsqrt (f32Add q eps)
  row.map (fun a => f32Mul a k)

/-- The maximum of a row, −0 below +0; with a NaN in it, the NaN with the sign of the first. -/
def rowMax (row : List F32) : F32 :=
  match row.find? (fun a => (F32.val a).isNan) with
  | some a => qnan ((F32.val a).isNeg)
  | none => row.tail.foldl (fun m a =>
      if Val.lt (F32.val m) (F32.val a) || ((F32.val m).isZero && (F32.val a).isZero && !(F32.val a).isNeg) then a else m)
      (row.headD 0)

/-- SOFTMAX of one row. -/
def softmaxRow (row : List F32) : List F32 :=
  let m := rowMax row
  let es := row.map (fun a => fnExp (f32Sub a m))
  let k := fnRecip (treeSum es)
  es.map (fun a => f32Mul a k)

/-- Work row by row; a row with a poisoned element is poisoned whole (R491). -/
def rowWise (f : List F32 → List F32) (ch : Nat) (xs : List (F32 × Bool)) : List (F32 × Bool) :=
  (chunksOf ch xs.length xs).flatMap (fun row =>
    if row.any (·.2) then row.map (fun a => (a.1, true)) else (f (row.map (·.1))).map (fun a => (a, false)))

/-- NORM and SOFTMAX as the VEC runs them. -/
def rowRun (op : Nat) (f : Entry → List F32 → List F32) (x : Exec) (s : State) : State :=
  let e : Entry := x.words
  match s.readSrc x e.vSrc e.vCount (some e.vSrcFmt) (vecSrcOk op) with
  | (.error r, s1) => s1.vecFail x r
  | (.ok src, s1) =>
    let o := floatOut e e.vCh (rowWise (f e) e.vCh (src.vals.map (fun v => (f32OfVal v.1, v.2))))
    s1.vecFinish x [o] [o] src.sts src.port false

/-- The function of one row that a NORM names. -/
def normOf (e : Entry) : List F32 → List F32 :=
  let eps : F32 := BitVec.ofNat 32 (e.pos 384 32)
  if e.vFunc = 0 then normMean eps else normRms eps

/-- NORM (R491). -/
def execNorm (c : CtxId) (slot : Nat) (s : State) : Host.Outcome State Fault Refusal :=
  .next (s.engineRun c .vec slot 4 (rowRun 4 normOf))

/-- SOFTMAX (R491). -/
def execSoftmax (c : CtxId) (slot : Nat) (s : State) : Host.Outcome State Fault Refusal :=
  .next (s.engineRun c .vec slot 5 (rowRun 5 (fun _ => softmaxRow)))

/-! ### RESCALE (R58) -/

/-- `fold` of R58 before saturation. -/
def foldW (u : Int) (m : Nat) (sc eu et : Int) : Int := scaleInt (u * (m : Int)) (eu + sc - 15 - et)

/-- The folded code of a weight and what it counts as. -/
def foldCode (t : Fmt) (u : Int) (m : Nat) (sc eu et : Int) : Nat × Stat :=
  let w := foldW u m sc eu et
  let q : Int := t.qmax
  if q < w then (unsigned t.bits q, .clip)
  else if w < -q then (unsigned t.bits (-q), .clip)
  else (unsigned t.bits w, if w = 0 ∧ u ≠ 0 then .zero else .none)

/-- RESCALE as the VEC runs it. -/
def rescaleRun (x : Exec) (s : State) : State :=
  let e : Entry := x.words
  match s.readSrc x e.vSrc e.vCount (some e.vSrcFmt) (vecSrcOk 6) with
  | (.error r, s1) => s1.vecFail x r
  | (.ok src, s1) =>
    let nb := 4 * (e.vCount / e.vCh)
    let t := s1.readOperand x e.vAux nb
    let s2 := t.2
    let tab := (chunksOf 4 nb t.1.bytes).map (fun c => leVal (c.map (·.1)))
    match t.1.failure with
    | some r => s2.vecFail x r
    | none =>
      if tab.any (fun v => decide (bitsOf v 22 10 ≠ 0)) then s2.vecFail x badHeader
      else
      let f := (Fmt.ofCode e.vDstFmt).getD .int8
      let l := src.xs.zipIdx.map (fun p =>
        let v := tab.getD (p.2 / e.vCh) 0
        let r := foldCode f (intOfCode .int16 p.1.1) (bitsOf v 0 16) (signed 6 (bitsOf v 16 6)) src.hdr.e e.vCarried
        ((r.1, p.1.2), if p.1.2 then Stat.none else r.2))
      let k := countStats (l.map (·.2))
      let o : VecOut := { addr := e.vDst, fmt := f, elems := l.map (·.1),
                          hdr := { plainHdr f e.vCount e.vCh with e := e.vCarried, clip := k.clip, zero := k.zero, nan := k.nan } }
      (s2.addStats x.ctx k).vecFinish x [o] [o] src.sts src.port false

/-- RESCALE (R58). -/
def execRescale (c : CtxId) (slot : Nat) (s : State) : Host.Outcome State Fault Refusal :=
  .next (s.engineRun c .vec slot 6 rescaleRun)

/-! ### OUTLIER (R57) -/

/-- The outlier channels of a side tensor by position in the list, in ascending channel index (R57). -/
def ascending (list : List Nat) : List (Nat × Nat) := list.zipIdx.insertionSort (fun a b => a.1 ≤ b.1)

/-- R57: the contribution of the outlier channels to output column `col` of channel row `r`: FP32 products summed in ascending channel
index. The spec names no operand for the weights, so `w c` is a free FP32 value for channel c. (DESIGN CHOICE, assumption 69) -/
def outlierContrib (w : Nat → F32) (rows : Nat) (chans : List (Nat × Nat)) (side : List F32) (r : Nat) : F32 :=
  chans.foldl (fun acc c => f32Add acc (f32Mul (side.getD (c.2 * rows + r) 0) (w c.1))) 0

/-- OUTLIER as the VEC runs it: the side tensor at aux_addr holds n / ch listed channels of ch rows, and their list lies 320 bytes below
it (R56); the main result is converted to FP32 and added last (R57). An output is poisoned when its main element is, or when an element
of the side tensor of its row is (R490). Its header takes ch from the main result's. (DEDUCED, assumption 82; DESIGN CHOICE, assumption 68) -/
def outlierRun (x : Exec) (s : State) : State :=
  let e : Entry := x.words
  match s.readSrc x e.vSrc e.vCount (some e.vSrcFmt) (vecSrcOk 7) with
  | (.error r, s1) => s1.vecFail x r
  | (.ok src, s1) =>
    match s1.readHdr x.view e.vAux with
    | (.error r, s2) => s2.vecFail x r
    | (.ok h, s2) =>
      if h.fmt ≠ 6 then s2.vecFail x badHeader
      else
        match s2.readElems x e.vAux h.n h .bf16 with
        | (.error r, s3) => s3.vecFail x r
        | (.ok side, s3) =>
          match (if e.vAux < 320 then (.error { status := .tierFault }, s3)
              else s3.readOutliers x (e.vAux - 320) (h.n / h.ch)) with
          | (.error r, s4) => s4.vecFail x r
          | (.ok list, s4) =>
            let rows := h.ch
            let chans := ascending list
            let perRow := max 1 (e.vCount / rows)
            let vals := side.vals.map (fun v => f32OfVal v.1)
            let ys := src.vals.zipIdx.map (fun p =>
              let r := p.2 / perRow
              let bad := chans.any (fun c => decide (r < rows) && (side.xs.getD (c.2 * rows + r) (0, false)).2)
              let w := fun (c : Nat) => Config.outlierWeight (Entry.layerId e) c x.elBase perRow (p.2 % perRow)
              let sum := if r < rows then outlierContrib w rows chans vals r else 0
              (f32Add sum (f32OfVal p.1.1), p.1.2 || bad))
            let o := floatOut e src.hdr.ch ys
            s4.vecFinish x [o] [o] (src.sts ++ side.sts) (max src.port side.port) false

/-- OUTLIER (R57). -/
def execOutlier (c : CtxId) (slot : Nat) (s : State) : Host.Outcome State Fault Refusal :=
  .next (s.engineRun c .vec slot 7 outlierRun)

/-! ### RANDOM (R61, R62, R64) -/

/-- The code RANDOM writes for element i. -/
def randomCode (e : Entry) (x : Exec) (i : Nat) : Nat :=
  let w := randomWord (x.seed.getD (e.pos 444 2) 0) x.step (e.pos 128 16) (x.elBase + i)
  if e.vRndFp then (randomF32 w).toNat else w.toNat

/-- RANDOM as the VEC runs it. -/
def randomRun (x : Exec) (s : State) : State :=
  let e : Entry := x.words
  let f := (Fmt.ofCode e.vDstFmt).getD .int32
  let o : VecOut := { addr := e.vDst, fmt := f, elems := (List.range e.vCount).map (fun i => (randomCode e x i, false)),
                      hdr := plainHdr f e.vCount e.vCh }
  s.vecFinish x [o] [o] [] 0 false

/-- RANDOM (R61). -/
def execRandom (c : CtxId) (slot : Nat) (s : State) : Host.Outcome State Fault Refusal :=
  .next (s.engineRun c .vec slot 8 randomRun)

/-! ### ADD (R66) -/

/-- The sum of two elements: exact for two integer sources, else in FP32 by R40; with whether a finite FP32 sum overflowed. -/
def addSum (exact : Bool) (a b : Val) : Val × Bool :=
  if exact then (Val.add a b, false)
  else
    let x := f32OfVal a
    let y := f32OfVal b
    let z := F32.val (f32Add x y)
    let fin : Val → Bool := fun v => match v with | .fin _ _ _ => true | _ => false
    (z, fin (F32.val x) && fin (F32.val y) && !(fin z))

/-- ADD as the VEC runs it; its header takes ch from the first source's. (DEDUCED, assumption 19; DESIGN CHOICE, assumption 68) -/
def addRun (x : Exec) (s : State) : State :=
  let e : Entry := x.words
  match s.readSrc x e.vSrc e.vCount (some e.vSrcFmt) (vecSrcOk 9) with
  | (.error r, s1) => s1.vecFail x r
  | (.ok a, s1) =>
    match s1.readSrc x e.vAux e.vCount none (vecSrcOk 9) with
    | (.error r, s2) => s2.vecFail x r
    | (.ok b, s2) =>
      if a.hdr.n ≠ b.hdr.n then s2.vecFail x badHeader
      else
        let exact := a.fmt.isInt && b.fmt.isInt
        let l := (a.vals.zip b.vals).map (fun p => (addSum exact p.1.1 p.2.1, p.1.2 || p.2.2))
        let sums := l.map (fun p => (p.1.1, p.2))
        let ovf := (l.filter (fun p => p.1.2 && !p.2)).length
        let t := (Fmt.ofCode e.vDstFmt).getD .int8
        let no := fun (_ : Nat) => false
        let exq := if t.quantised then (if e.vScale = 1 then e.vCarried else firstPass t e.vZp (passVals sums no)) else 0
        let r := convTensor t e.vZp exq sums no
        let k : Counts := if t.quantised then r.2 else { r.2 with clip := r.2.clip + ovf }
        let o : VecOut := { addr := e.vDst, fmt := t, elems := r.1,
                            hdr := { plainHdr t e.vCount a.hdr.ch with e := exq, zp := e.vZp, clip := k.clip, zero := k.zero, nan := k.nan } }
        (s2.addStats x.ctx k).vecFinish x [o] [o] (a.sts ++ b.sts) (max a.port b.port) false

/-- ADD (R66). -/
def execAdd (c : CtxId) (slot : Nat) (s : State) : Host.Outcome State Fault Refusal :=
  .next (s.engineRun c .vec slot 9 addRun)

end Sys2Proof.Machine
end

