-- ==== Sys2Proof/Machine/Path.lean ====
section
/-! DEFINITION. The command path (chapter 7): requests, decode, hand-over, completion, and the meanings of its events. Its
context registers and COMMAND_COMPLETE are in Context.lean. -/

namespace Sys2Proof.Machine

open Sys2Proof

/-! ### Requests (R192 to R194, R205) -/

/-- The open request of a number. -/
def State.openReq (s : State) (c : CtxId) (num : Nat) : Option Request := (s.ctx c).reqs.find? (fun r => decide (r.num = num))

/-- What a command of a request binds to: its open request's slots, or those of a request opened now. -/
def State.bindNow (s : State) (c : CtxId) (num : Nat) : List (Nat × Nat) :=
  match s.openReq c num with
  | some r => r.bind
  | none => s.bindFor c num

/-- Admit a command of a request; none where the request table is full (R194). -/
def State.admitReq (s : State) (c : CtxId) (num : Nat) : Option State :=
  match s.openReq c num with
  | some _ => some (s.updCtx c (fun x => { x with
      reqs := x.reqs.map (fun r => if r.num = num then { r with live := r.live + 1 } else r) }))
  | none =>
    if 1024 ≤ (s.ctx c).reqs.length then none
    else some (s.updCtx c (fun x => { x with reqs := x.reqs ++ [{ num := num, bind := s.bindFor c num, live := 1 }] }))

/-- `n` admitted commands of a request are no longer counted; `ends` says that the request's req_end command completed. An entry whose
request has ended is freed, and slots that it held may drain (R193, R310). -/
def State.unadmit (s : State) (c : CtxId) (num n : Nat) (ends : Bool) : State :=
  (s.updCtx c (fun x => { x with
    reqs := (x.reqs.map (fun r => if r.num = num then { r with live := r.live - n, ended := r.ended || ends } else r)).filter
      (fun r => !(decide (r.num = num) && r.ended && decide (r.live = 0))) })).drainSlots

/-- Whether a host abort of a request is in force (R205). -/
def State.aborting (s : State) (c : CtxId) (num : Nat) : Bool := (s.openReq c num).any (·.aborting)

/-! ### Tags (R202) -/

/-- The window's entry of a tag. -/
def State.window (s : State) (c : CtxId) (tag : W64) : Option DupEntry := (s.ctx c).dup.find? (fun d => decide (d.tag = tag))

/-- The request number in a tag (R192). -/
def tagReq (tag : W64) : Nat := wBits tag 16 48

/-- The tag of a queue's head if it counts as admitted: that of a head set aside too, for every queue but its own (R184). -/
def Queue.admittedTag (q : Queue) : Option W64 :=
  match q.dec with
  | .held w _ .run => some (Entry.tag w)
  | .held w _ (.reject _) => some (Entry.tag w)
  | .held w _ .abort => some (Entry.tag w)
  | .loading w _ _ => some (Entry.tag w)
  | _ => q.aside

/-- Whether a tag belongs to a command of the context that is admitted and has not completed. -/
def State.tagLive (s : State) (c : CtxId) (tag : W64) : Bool :=
  (s.execsCtx c).any (fun x => decide (Entry.tag x.words = tag)) ||
  (s.ctx c).queues.toList.any (fun q => decide (q.admittedTag = some tag))

/-- A head held on a duplicate tag, once its first command has completed: it is a duplicate, or is decoded afresh (R202). -/
def State.recheckHead (s : State) (c : CtxId) (q : Queue) : Queue :=
  match q.dec with
  | .held w r .dupWait =>
    match s.window c (Entry.tag w) with
    | some d => { q with dec := .held w r (.dup d.status d.tolerant d.rerun) }
    | none => if s.tagLive c (Entry.tag w) then q else { q with dec := .idle }
  | _ => q

/-- Look again at every head of a context that is held on a duplicate tag. -/
def State.recheck (s : State) (c : CtxId) : State :=
  s.updCtx c (fun x => { x with queues := x.queues.map (s.recheckHead c) })

/-! ### Decode (R187, R189, R389) -/

/-- The opcode and body checks of an engine at decode. -/
def State.bodyIllegal (s : State) (c : CtxId) (eng : Engine) (bind : List (Nat × Nat)) (e : Entry) : Option (Status × Nat) :=
  let ill := fun (o : Option Nat) => o.map (fun b => (Status.illegalCommand, b))
  match eng with
  | .mxe => mxeIllegal e
  | .caf => cafIllegal s c bind e
  | .vec => vecIllegal e
  | .tmv =>
    match e.opcode with
    | 1 => armIllegal s c e
    | 2 => ill (disarmIllegal e)
    | 3 => ill (copyIllegal e)
    | 4 => ill (slotTableIllegal e)
    | 5 | 6 => ill (saveIllegal c e)
    | 0x10 => ill (compressIllegal e)
    | 0x11 => ill (tableLoadIllegal e)
    | _ => some (.illegalCommand, 0)

/-- R14, R204: the class 0x2_ status of a command at decode, with the lowest illegal position. (DEDUCED, assumption 17) -/
def State.decodeCheck (s : State) (c : CtxId) (eng : Engine) (bind : List (Nat × Nat)) (e : Entry) : Option Report :=
  match s.headerIllegal c eng e, s.bodyIllegal c eng bind e with
  | none, none => none
  | some h, none => some (rejected .illegalCommand h)
  | none, some (st, b) => some (rejected st b)
  | some h, some (st, b) => if st = .illegalCommand then some (rejected st (min h b)) else some (rejected st b)

/-- The queue slot as TEL_ locations name it (R392). -/
def slotLoc (c : CtxId) (eng : Engine) (slot : Nat) : Nat := (4 * c.val + eng.code.val) * 4096 + slot

/-- Count the reads of the words of a queue slot (R385). -/
def State.noteSlot (s : State) (c : CtxId) (loc : Nat) : List Nat → State
  | [] => s
  | k :: l => (s.noteWord 3 (some c) (k / 8) loc).noteSlot c loc l

/-- The head slot's words, each with its poison mark. -/
def State.slotWords (s : State) (c : CtxId) (eng : Engine) : List (W64 × Bool) :=
  (List.range 8).map (fun i => s.peekWord (kQueue c eng (s.queue c eng).head (8 * i)))

/-- Set what a queue's head slot holds. -/
def State.setHead (s : State) (c : CtxId) (eng : Engine) (h : Head) : State := s.setQueue c eng { s.queue c eng with dec := h }

/-- Hold an entry at the head; a wait that is met releases it at once (R188). -/
def State.hold (s : State) (c : CtxId) (eng : Engine) (w : Entry) (f : Fate) : State :=
  s.setHead c eng (.held w (s.waitMet c w) f)

/-- R389: an entry with poisoned words; `mask` has a bit for each. None: its request must wait for a table entry (R194). -/
def State.decodePoisoned (s : State) (c : CtxId) (eng : Engine) (w : Entry) (mask : Nat) : Option State :=
  let s1 := s.logEvent 7 1 (some c) (slotLoc c eng (s.queue c eng).head) mask
  let tag : W64 := if Nat.testBit mask 1 then 0 else w.tag
  if Nat.testBit mask 7 then
    some (s1.setFld (Reg.ctxCtrl_qEn.at c) (s1.fld (Reg.ctxCtrl_qEn.at c) &&& (15 - 2 ^ eng.code.val)))
  else if Nat.testBit mask 0 then some (s1.setHead c eng (.held w false (.poisonHead tag)))
  else if Nat.testBit mask 1 then some (s1.hold c eng (w.set 1 0) .poisonTag)
  else (s1.admitReq c w.reqNum).map (fun s2 =>
    s2.hold c eng w (if s2.aborting c w.reqNum then .abort else .reject { status := .poisoned }))

/-- The decode of a clean entry (R189, R192, R202, R205). None: its request must wait for a table entry (R194). -/
def State.decodeClean (s : State) (c : CtxId) (eng : Engine) (w : Entry) : Option State :=
  match (if w.tag = 0 then none else s.window c w.tag) with
  | some d => some (s.setHead c eng (.held w false (.dup d.status d.tolerant d.rerun)))
  | none =>
    if w.tag ≠ 0 ∧ s.tagLive c w.tag then some (s.setHead c eng (.held w false .dupWait))
    else (s.admitReq c w.reqNum).map (fun s1 =>
      s1.hold c eng w (if s1.aborting c w.reqNum then .abort
        else ((s.decodeCheck c eng (s.bindNow c w.reqNum) w).map Fate.reject).getD .run))

/-- One decode of the head slot of a queue: nothing unless the queue is enabled, its head undecoded and its entry valid (R184, R191). A
head decoded afresh takes the place of its earlier decode in its request (R184).
(DEDUCED, assumption 30) -/
def State.decodeHead (s : State) (c : CtxId) (eng : Engine) : State :=
  let q := s.queue c eng
  if !(s.qEn c eng) || (s.ctx c).resetBusy || decide (q.dec ≠ .idle) then s
  else
    let ws := s.slotWords c eng
    let w : Entry := ws.map Prod.fst
    let mask := ((ws.zipIdx.map (fun p => if p.1.2 then 2 ^ p.2 else 0)).sum)
    if !(Nat.testBit mask 7) && decide (wBit (w.word 7) 0 ≠ q.phase) then s
    else
      let s1 := s.noteSlot c (slotLoc c eng q.head) ((List.range 8).map (fun i => kQueue c eng q.head (8 * i)))
      let s2 := s1.setQueue c eng { q with aside := none }
      ((if mask = 0 then s2.decodeClean c eng w else s2.decodePoisoned c eng w mask).map (fun t =>
        match q.aside with
        | none => t
        | some tag => t.unadmit c (tagReq tag) 1 false)).getD s

/-- QUEUE_ENTRY_DECODE (R189). -/
def execQueueEntryDecode (c : CtxId) (e : Engine) (s : State) : Host.Outcome State Fault Refusal := .next (s.decodeHead c e)

/-! ### Hand-over (R31, R32, R91, R197, R224, R336, R337) -/

/-- Whether the CFE hands commands to engines: in a P-state, and not from step 2 of an entry sequence on (R405). -/
def State.cfeHands (s : State) : Bool :=
  decide (s.pwr.mode = .run) && (s.pwr.entry.all (fun e => decide (e.step < 2)))

/-- R32, R336: whether Exact mode lets context c be handed commands. (DEDUCED, assumption 65) -/
def State.exactAllows (s : State) (c : CtxId) : Bool :=
  match s.exactCtx with
  | none => true
  | some d => decide (d = c) && (s.ctx c).exactReq && (s.ctx c).exactActive

/-- R91: whether the CAF takes a command: its tile set's slot holds no command, or one that has finished its conversions; a new tile
set needs one of 16 slots. -/
def State.cafTakes (s : State) (bind : List (Nat × Nat)) (e : Entry) : Bool :=
  let l := s.running.filter (fun x => decide (x.eng = .caf))
  let t := s.cafTarget bind e
  let same := l.filter (fun x => decide (s.cafTarget x.bind x.words = t))
  if same.isEmpty then decide ((l.map (fun x => s.cafTarget x.bind x.words)).dedup.length < 16)
  else decide (same.length < 2) && same.all (fun x => x.result.isSome)

/-- R224: whether the TMV takes a command of context c. -/
def State.tmvTakes (s : State) (c : CtxId) (e : Entry) : Bool :=
  let n := fun (ops : List Nat) => ((s.execsOf c .tmv).filter (fun x => ops.contains (Entry.opcode x.words))).length
  match e.opcode with
  | 3 => decide (n [3] < 32)
  | 5 | 6 => decide (n [5, 6] < 1)
  | 0x10 | 0x11 => decide (n [0x10] < 1)
  | _ => decide (n [1, 2, 4] < 4)

/-- Whether an engine has capacity for a command (R29, R91, R224). -/
def State.takes (s : State) (c : CtxId) (eng : Engine) (e : Entry) : Bool :=
  match eng with
  | .mxe | .vec => !(s.running.any (fun x => decide (x.eng = eng)))
  | .caf => s.cafTakes (s.bindNow c e.reqNum) e
  | .tmv => s.tmvTakes c e

/-- The head of context c that engine `eng` may take now. -/
def State.candidate (s : State) (eng : Engine) (c : CtxId) : Option Entry :=
  match (s.queue c eng).dec with
  | .held w true .run =>
    if s.qEn c eng && !(s.ctx c).resetBusy && s.headroom c && s.exactAllows c && s.takes c eng w then some w else none
  | _ => none

/-- The latched share table of an engine (R211). -/
def State.shareSlot (s : State) (eng : Engine) (j : Nat) : CtxId :=
  Fin.ofNat 16 (wBits ((s.shareTab.getD eng.code.val []).getD (j / 16) 0) (4 * (j % 16)) 4)

/-- Latch an engine's share table from its registers, as it passes slot 0. -/
def State.latchShare (s : State) (eng : Engine) : State :=
  { s with shareTab := s.shareTab.set eng.code.val ((List.range 4).map (fun k => s.reg (Reg.devShare + 32 * eng.code.val + 8 * k))) }

/-- R31: the first of the slots from j on whose context has a command that the engine can take. -/
def State.shareFind (s : State) (eng : Engine) : Nat → Nat → State × Option (Nat × CtxId × Entry)
  | 0, _ => (s, none)
  | n + 1, j =>
    let s1 := if j = 0 then s.latchShare eng else s
    let c := s1.shareSlot eng j
    match s1.candidate eng c with
    | some w => (s1, some (j, c, w))
    | none => s1.shareFind eng n ((j + 1) % 64)

/-- The head passes to the next slot; past slot 4,095 the expected phase inverts (R183, R186). -/
def State.advance (s : State) (c : CtxId) (eng : Engine) : State :=
  let q := s.queue c eng
  s.setQueue c eng { head := (q.head + 1) % 4096, phase := if q.head = 4095 then !q.phase else q.phase, dec := .idle }

/-- The execution slot that a CAF command takes: its tile set's, if that has one, else a free one, chosen by the next free word (R91).
(DESIGN CHOICE, assumption 15) -/
def State.cafLane (s : State) (bind : List (Nat × Nat)) (e : Entry) : Nat :=
  let l := s.running.filter (fun x => decide (x.eng = .caf))
  let t := s.cafTarget bind e
  match l.find? (fun x => decide (s.cafTarget x.bind x.words = t)) with
  | some x => x.cafSlot
  | none =>
    let idle := (List.range 16).filter (fun i => !(l.any (fun x => decide (x.cafSlot = i))))
    idle.getD ((Config.freeWord s.freeCtr).toNat % idle.length) 0

/-- The values a command samples at its start (R61, R70, R93, R332). -/
def State.newExec (s : State) (c : CtxId) (eng : Engine) (slot : Nat) (w : Entry) (bind : List (Nat × Nat)) : Exec :=
  { ctx := c, eng := eng, slot := slot, words := w, bind := bind
    step := s.reg (ctxBase c + Reg.ctxStep)
    seed := (List.range 4).map (fun n => BitVec.ofNat 128 ((s.reg (ctxBase c + Reg.ctxSeed + 16 * n)).toNat +
      (s.reg (ctxBase c + Reg.ctxSeed + 16 * n + 8)).toNat * 2 ^ 64))
    elBase := s.fld (Reg.ctxRndBase_elBase.at c)
    quantCfg := s.reg (ctxBase c + Reg.ctxQuantCfg)
    skipEn := s.flag Reg.cafCfg_skipEn
    hostLost := s.lostFor c eng slot }

/-! The operands that may attach to armings, in the order the command reads them (R219). -/

/-- The header of a tensor as it reads now. -/
def State.headerNow (s : State) (v : View) (a : Nat) : Option Hdr :=
  if a < 64 then none
  else
    let r := s.span v (a - 64) 64
    if r.2 || anyPoison r.1 then none else some (Hdr.ofBytes (r.1.map Prod.fst))

/-- Bytes of `n` elements of a format code. -/
def codeBytes (fmt n : Nat) : Nat := elemBytes ((Fmt.ofCode fmt).getD .int8) n

/-- The wide copy's header, where a header redirects (R53); none where it does not read. -/
def State.wideNow (s : State) (v : View) (h : Hdr) : Option (Option Hdr) :=
  if h.redirect then (s.headerNow v h.wide).map some else some none

/-- A source of `n` elements, its wide copy where its header redirects (R53). -/
def State.sourceOps (s : State) (v : View) (a n : Nat) : List Opnd :=
  match (s.headerNow v a).bind (fun h => (s.wideNow v h).map (fun w => (h, w))) with
  | none => []
  | some (h, none) => [Opnd.line a (codeBytes h.fmt n)]
  | some (h, some w) => [Opnd.line h.wide (codeBytes w.fmt n)]

/-- The outlier list and side tensor that a MATMUL with the activation header `h` reads (R132). -/
def State.outlierOps (s : State) (v : View) (h : Hdr) : List Opnd :=
  if h.nOut = 0 then []
  else match s.headerNow v h.outData with
    | some sh => if sh.fmt = 3 then [Opnd.line h.outList (2 * h.nOut), { Opnd.line h.outData (2 * sh.n) with side := true }] else []
    | none => []

/-- The operands of a running command. -/
def State.operandsOf (s : State) (x : Exec) : List Opnd :=
  let e : Entry := x.words
  let v := x.view
  match x.eng, e.opcode with
  | .vec, 1 => s.sourceOps v e.vSrc e.vCount ++ (if e.vAuxN = 0 then [] else [Opnd.line e.vAux (2 * e.vAuxN)])
  | .vec, 6 => s.sourceOps v e.vSrc e.vCount ++ [Opnd.line e.vAux (4 * (e.vCount / e.vCh))]
  | .vec, 7 => s.sourceOps v e.vSrc e.vCount ++
      (match s.headerNow v e.vAux with
        | some h => Opnd.line e.vAux (codeBytes 6 h.n) ::
            (if h.n / h.ch = 0 ∨ e.vAux < 320 then [] else [Opnd.line (e.vAux - 320) (2 * (h.n / h.ch))])
        | none => [])
  | .vec, 8 => []
  | .vec, 9 => s.sourceOps v e.vSrc e.vCount ++ s.sourceOps v e.vAux e.vCount
  | .vec, _ => s.sourceOps v e.vSrc e.vCount
  | .caf, 1 =>
    let t := s.tset e.mvTset ((s.boundSlot x.bind e.mvTset).getD 0)
    match (s.headerNow v e.mvSrc).bind (fun h => (s.wideNow v h).map (fun w => (h, w))) with
    | none => []
    | some (h, w) =>
      match mvInput t e h w with
      | .ok i => [Opnd.rect i.base (elemBytes i.fmt t.k) i.stride e.mvNvec]
      | .error _ => []
  | .mxe, 1 =>
    match (s.headerNow v e.mmSrc).bind (fun h => (s.wideNow v h).map (fun w => (h, w))) with
    | none => []
    | some (h, w) => matRows e h w :: s.outlierOps v (w.getD h)
  | .mxe, 2 => ((s.headerNow v e.mmSrc).map (fun h => Opnd.rect e.mmSrc (codeBytes e.mmSrcFmt h.n) e.cbStride e.cbN)).toList
  | _, _ => []

/-- The headers by which `operandsOf` finds them. -/
def State.headersOf (s : State) (x : Exec) : List Nat :=
  let e : Entry := x.words
  let two := fun a => a :: ((s.headerNow x.view a).toList.filter (·.redirect)).map (·.wide)
  let side := fun a => ((s.headerNow x.view a).bind (fun h => (s.wideNow x.view h).map (fun w => w.getD h))).toList.filterMap
    (fun h => if h.nOut = 0 then none else some h.outData)
  match x.eng, e.opcode with
  | .vec, 8 => []
  | .vec, 9 => two e.vSrc ++ two e.vAux
  | .vec, 7 => two e.vSrc ++ [e.vAux]
  | .vec, _ => two e.vSrc
  | .caf, 1 => two e.mvSrc
  | .mxe, 1 => two e.mmSrc ++ side e.mmSrc
  | .mxe, 2 => [e.mmSrc]
  | _, _ => []

/-- Attach a command's operands, and a MATMUL's weight stream (R136, R219). -/
def State.attachAll (s0 : State) (x : Exec) : State :=
  let s := (s0.headersOf x).foldl (fun s a => s.needPeers x.view (a - 64) 64) s0
  let s1 := s.attachOps x (s.operandsOf x)
  if x.eng = .mxe ∧ Entry.opcode x.words = 1 then s1.attachWeights x (Entry.mmWslot x.words) (Entry.mmStream x.words) else s1

/-! Fill lists (R142, R143). -/

/-- The entries of a MATMUL's fill list, or the report of a primary whose list faults or reads poisoned: that one ends so without running, and
no entry of the list has a record. (DESIGN CHOICE, assumption 92) -/
def State.readFills (s : State) (v : View) (e : Entry) : Except Report (List Entry) × State :=
  let n := if e.opcode = 1 ∧ e.mmFillN ≤ 8 ∧ e.mmFill % 64 = 0 then e.mmFillN else 0
  if n = 0 then (.ok [], s)
  else
    let r := s.span v e.mmFill (64 * n)
    let s1 := s.noteSpan v e.mmFill (64 * n)
    if r.2 then (.error { status := .tierFault }, s1)
    else if anyPoison r.1 then (.error { status := .poisoned }, s1)
    else (.ok ((chunksOf 64 n (r.1.map Prod.fst)).map (fun c => (chunksOf 8 8 c).map (fun w => BitVec.ofNat 64 (leVal w)))), s1)

/-- The lowest header bit by which an entry waits on or signals a system counter (R337). -/
def Entry.sysUse (e : Entry) : Option Nat :=
  lowestBad [(12, e.waitEn && e.waitSys), (13, e.sigSys 0 && decide (e.sigInc 0 ≠ 0)), (14, e.sigSys 1 && decide (e.sigInc 1 ≠ 0))]

/-- An entry without its signals to system counters. (DEDUCED, assumption 65) -/
def Entry.noSys (e : Entry) : Entry :=
  let w := e.word 0
  let w1 := if e.sigSys 0 then wSet w 40 8 0 else w
  e.set 0 (if e.sigSys 1 then wSet w1 48 8 0 else w1)

/-- How a fill entry ends that its start turns away: its request is aborted by the host (R205), or it uses a system counter while Exact
mode is requested (R337); with the entry as it completes. -/
def State.fillFate (s : State) (c : CtxId) (e : Entry) : Option (Entry × Report) :=
  if s.aborting c e.reqNum then some (e, { status := .aborted, detail := 1 })
  else if (s.ctx c).exactReq then e.sysUse.map (fun b => (e.noSys, rejected .illegalCommand b))
  else none

/-- Start the fill entries of a primary in list order: each admits its request and attaches its streams; one whose tag lies in the
duplicate window, or that its start turns away, will not run. -/
def State.startFills (s : State) (c : CtxId) (slot : Nat) (bind : List (Nat × Nat)) (i : Nat) : List Entry → State
  | [] => s
  | e :: l =>
    let fs := 4096 * (i + 1) + slot
    let t := match (if e.tag = 0 then none else s.window c e.tag) with
      | some d =>
        let x := { s.newExec c .mxe fs e bind with fillOf := some slot, dupOf := some d, result := some { status := .duplicate } }
        { s with running := s.running ++ [x] }
      | none =>
        let b := (s.admitReq c e.reqNum).elim bind (fun q => (q.openReq c e.reqNum).elim bind (·.bind))
        let s1 := (s.admitReq c e.reqNum).getD s
        match s1.fillFate c e with
        | some (e', r) => { s1 with running := s1.running ++ [{ s1.newExec c .mxe fs e' b with fillOf := some slot, result := some r }] }
        | none =>
          let x := { s1.newExec c .mxe fs e b with fillOf := some slot }
          { s1 with running := s1.running ++ [x] }.attachAll x
    t.startFills c slot bind (i + 1) l

/-- What an engine does with a command at its start, beside attaching it. -/
def State.startExec (s : State) (x : Exec) : State :=
  let e : Entry := x.words
  match x.eng, e.opcode with
  | .tmv, 3 => s.copyStart x
  | .tmv, 5 | .tmv, 6 => s.saveStart x
  | .mxe, 1 =>
    match s.readFills x.view e with
    | (.error r, s1) => s1.report x.ctx .mxe x.slot r
    | (.ok l, s1) => s1.startFills x.ctx x.slot x.bind 0 l
  | _, _ => s

/-- Hand a command over: in a context with Exact mode requested one that uses a system counter is rejected; a TABLE_LOAD keeps its
queue's head; any other passes it and starts (R172, R186, R337). -/
def State.handTo (s : State) (c : CtxId) (eng : Engine) (w : Entry) : State :=
  if (s.ctx c).exactReq ∧ w.sysUse.isSome then
    s.setHead c eng (.held w.noSys true (.reject (rejected .illegalCommand (w.sysUse.getD 0))))
  else if eng = .tmv ∧ w.opcode = 0x11 then
    s.setQueue c eng { s.queue c eng with dec := .loading w false none, step := s.reg (ctxBase c + Reg.ctxStep) }
  else
    let slot := (s.queue c eng).head
    let b := s.bindNow c w.reqNum
    let x := if eng = .caf then { s.newExec c eng slot w b with cafSlot := s.cafLane b w } else s.newExec c eng slot w b
    let s0 := if eng = .caf then { s with freeCtr := s.freeCtr + 1 } else s
    let s1 := (s0.advance c eng).dropLost c eng slot
    ({ s1 with running := s1.running ++ [x] }.attachAll x).startExec x

/-- One hand-over of an engine, if a command may be taken (R31); a pass through slot 0 that finds none latches the share table all the
same (R211). (DEDUCED, assumption 30) -/
def State.handover (s : State) (eng : Engine) : State :=
  if !s.cfeHands then s
  else
    match s.shareFind eng 64 (s.shareAt.getD eng.code.val 0) with
    | (s1, none) => { s with shareTab := s1.shareTab }
    | (s1, some (j, c, w)) => s.withPeers c eng (s.queue c eng).head (fun s =>
        { s with shareTab := s1.shareTab, shareAt := s.shareAt.set eng.code.val ((j + 1) % 64) }.handTo c eng w)

/-- COMMAND_HANDOVER (R31). -/
def execCommandHandover (e : Engine) (s : State) : Host.Outcome State Fault Refusal := .next (s.handover e)

/-! ### Completion (R190, R195, R199, R202, R342) -/

/-- A tag enters the duplicate window of the last 4,096 (R202). -/
def State.enterWindow (s : State) (c : CtxId) (d : DupEntry) : State :=
  if d.tag = 0 then s else s.updCtx c (fun x => { x with dup := (x.dup ++ [d]).drop ((x.dup ++ [d]).length - 4096) })

/-- How a command ends: its words, report, first status, and what applies to it; `ends` marks a fill entry that was never admitted and
may end its request all the same (R143, R193). -/
structure Ending where
  eng : Engine
  slot : Nat
  words : Entry
  report : Report
  first : Status
  signals : Bool
  window : Bool
  admitted : Bool
  ends : Bool := false
  lost : Bool := false
  deriving DecidableEq, Repr

/-- Whether an ending command's signals reach a system counter. -/
def Ending.usesSys (n : Ending) : Bool := n.signals && n.words.signalsSys

/-- R366: a Moon's command whose system signal found no path in time ends LINK_LOST, the former upstream port its detail.
(DEDUCED, assumption 32) -/
def Ending.settle (n : Ending) (upPort : Nat) : Ending :=
  if n.lost && n.usesSys then
    let r := n.report.join { status := .linkLost, detail := upPort }
    { n with report := r, first := r.status }
  else n

/-- The number of system counters an entry signals. -/
def Entry.sysSignals (e : Entry) : Nat :=
  b2n (e.sigSys 0 && decide (e.sigInc 0 ≠ 0)) + b2n (e.sigSys 1 && decide (e.sigInc 1 ≠ 0))

/-- R366: the system signals of an ending command that are dropped are counted. -/
def State.noteDropped (s : State) (n : Ending) : State :=
  if n.lost && n.usesSys then (s.addFld Reg.lnkSyncStat_dropped n.words.sysSignals).linkEvent 11 else s

/-- The record of an ending command (R195). -/
def State.recordOf (s : State) (n : Ending) : CplRec :=
  { tag := n.words.tag, status := n.report.status, tolerant := n.report.tolerant, rerun := n.report.rerunWide, engine := n.eng,
    slot := n.slot % 4096, layerId := n.words.layerId, detail := min 0xFFFF n.report.detail, time := s.time.ns,
    firstStatus := n.first, irq := n.words.irq }

/-- Record, signals, window and request of an ending command, in that order; a Moon's system signals are placed before the record
(R366). MXE commands are counted, fill entries included (R150). -/
def State.finish (s : State) (c : CtxId) (m : Ending) : State :=
  let n := m.settle s.link.upPort
  let s1 := s.noteDropped n
  let s2 := if n.signals && s.isMoon && !n.lost then s1.signalSys c n.words else s1
  let s3 := s2.cqPost c (s.recordOf n)
  let s4 := if n.signals then s3.signal c n.words (!n.lost && !s.isMoon) else s3
  let d : DupEntry := ⟨n.words.tag, n.report.status, n.report.tolerant, n.report.rerunWide⟩
  let s5 := if n.window then s4.enterWindow c d else s4
  let s6 := if n.report.status = .duplicate then s5.addFld (Reg.ctxReqStat_dupCount.at c) 1 else s5
  let s7 := if n.eng = .mxe then s6.addFld Reg.mxeCmdCount_count 1 else s6
  let s8 := if n.admitted then s7.unadmit c n.words.reqNum 1 n.words.reqEnd
    else if n.ends then s7.unadmit c n.words.reqNum 0 n.words.reqEnd else s7
  s8.recheck c

/-- How an executed command ends with a report. -/
def Exec.ending (x : Exec) (r : Report) : Ending :=
  { eng := x.eng, slot := x.slot, words := x.words, report := r, first := r.status, signals := true,
    window := decide (r.status ≠ .aborted), admitted := true }

/-- Whether an executed command writes a Tail entry: tail = 1, the Tail enabled, and neither rejected nor left undone (R342). -/
def State.tails (s : State) (x : Exec) (r : Report) : Bool :=
  (x.words : Entry).tail && s.flag (Reg.ctxTailCfg_en.at x.ctx) && decide (r.status ≠ .aborted) && decide (r.status ≠ .duplicate) &&
  decide (r.status.code / 16 ≠ 2)

/-- Complete one command that was in execution: its Tail entry, then the rest; `lost` says that its system signals find no path. -/
def State.finishExec (s : State) (lost : Bool) (x : Exec) (r : Report) : State :=
  let s1 := if s.tails x r then s.tailPost x.ctx (s.tailEntry x r) else s
  match x.dupOf with
  | none => s1.finish x.ctx { x.ending r with lost := lost }
  | some d => s1.finish x.ctx
      { x.ending { r with status := .duplicate, tolerant := d.tolerant, rerunWide := d.rerun } with
        first := d.status, signals := false, window := false, admitted := false }

/-- Complete a list of commands. -/
def State.finishExecs (s : State) (lost : Bool) : List Exec → State
  | [] => s
  | x :: l => (s.finishExec lost x (x.result.getD {})).finishExecs lost l

/-- R366: a completion is held, or no longer. -/
def State.setHeld (s : State) (c : CtxId) (eng : Engine) (held : Bool) : State :=
  let l := s.link.heldSig.filter (fun k => decide (k ≠ (c, eng)))
  { s with link := { s.link with heldSig := if held then l ++ [(c, eng)] else l } }

/-- The fill entries of a running primary, in list order. -/
def State.fillExecs (s : State) (x : Exec) : List Exec :=
  s.running.filter (fun f => decide (f.ctx = x.ctx) && decide (f.eng = .mxe) && decide (x.eng = .mxe) && decide (f.fillOf = some x.slot))

/-- Whether a peer write of a command has not been answered. -/
def State.writesOut (s : State) (x : Exec) : Bool :=
  s.link.peerReqs.any (fun r => r.write && !r.stream && decide (r.ctx = x.ctx) && decide (r.eng = x.eng) && decide (r.slot % 4096 = x.slot % 4096))

/-- Complete a running command and its fill entries, and retire its armings, those of a rejected one detached first (R15, R143, R220); one
that signals a system counter is held while there is no upstream path, unless its wait has passed (R366). (DEDUCED, assumption 32) -/
def State.completeExec (s : State) (lost : Bool) (x : Exec) : State :=
  let fills := s.fillExecs x
  match x.result with
  | none => s
  | some _ =>
    if fills.any (fun f => f.result.isNone) || s.writesOut x then s
    else
      let all := x :: fills
      if s.noPath && !lost && all.any (fun y => y.dupOf.isNone && (y.words : Entry).signalsSys) then s.setHeld x.ctx x.eng true
      else
        let s1 := { s.setHeld x.ctx x.eng false with running := s.running.filter (fun y => !(all.contains y)) }
        let s2 := (all.filter Exec.refusedWork).foldl State.detachArms s1
        (s2.finishExecs (s.noPath && lost) all).retireArms x.ctx x.eng x.slot

/-- The fill entries of a primary that never ran, ended ABORTED with a detail and signalled (R143). -/
def State.finishFills (s : State) (c : CtxId) (slot detail : Nat) (lost : Bool) : List Entry → State
  | [] => s
  | e :: l =>
    let r : Report := { status := .aborted, detail := detail }
    (s.finish c { eng := .mxe, slot := slot, words := e, report := r, first := .aborted, signals := true, window := false,
                  admitted := false, ends := true, lost := lost }).finishFills c slot detail lost l

/-- Complete a head that is not handed over; `fillDetail` is that of its fill entries, if it has some. One that signals a system
counter is held as R366 says. (DESIGN CHOICE, assumption 31) -/
def State.finishHead (s : State) (lost : Bool) (c : CtxId) (eng : Engine) (n : Ending) (fillDetail : Option Nat) : State :=
  let slot := (s.queue c eng).head
  let l : Except Report (List Entry) × State := match fillDetail with
    | some _ => if eng = .mxe then s.readFills { ctx := c, bind := s.bindNow c n.words.reqNum, noHost := s.lostFor c eng slot } n.words else (.ok [], s)
    | none => (.ok [], s)
  let es : List Entry := match l.1 with
    | .ok es => es
    | .error _ => []
  if s.noPath && !lost && (n.usesSys || es.any Entry.signalsSys) then s.setHeld c eng true
  else
    let gone := s.noPath && lost
    ((((l.2.dropLost c eng slot).setHeld c eng false).advance c eng).finish c { n with lost := gone }).finishFills c slot (fillDetail.getD 5) gone es

/-- Complete the head of a queue whose earlier commands have completed, where its fate lets it (R190, R202, R389). -/
def State.completeHead (s : State) (lost : Bool) (c : CtxId) (eng : Engine) : State :=
  let q := s.queue c eng
  let base := fun (w : Entry) (r : Report) =>
    ({ eng := eng, slot := q.head, words := w, report := r, first := r.status, signals := true, window := true, admitted := true } : Ending)
  match q.dec with
  | .loading w _ (some r) =>
    let x := { s.newExec c eng q.head w [] with step := q.step }
    let s1 := if s.tails x r ∧ ¬ (s.noPath ∧ ¬ lost ∧ (w : Entry).signalsSys) then s.tailPost c (s.tailEntry x r) else s
    s1.finishHead lost c eng (base w r) none
  | .held w rel f =>
    if !(s.qEn c eng) || !(s.headroom c) then s
    else match f with
      | .reject r =>
        if rel then s.finishHead lost c eng { base w r with window := decide (r.status ≠ .poisoned) }
          (if r.status = .poisoned then none else some 5) else s
      | .poisonTag =>
        if rel then s.finishHead lost c eng { base w { status := .poisoned } with window := false, admitted := false } none else s
      | .abort => if rel then s.finishHead lost c eng { base w { status := .aborted, detail := 1 } with window := false } (some 1) else s
      | .dup st tol rr =>
        s.finishHead lost c eng { base w { status := .duplicate, tolerant := tol, rerunWide := rr } with
          first := st, signals := false, window := false, admitted := false } none
      | .poisonHead tag =>
        s.finishHead lost c eng { base (w.set 1 tag) { status := .poisoned } with signals := false, window := false, admitted := false } none
      | .run | .dupWait => s
  | _ => s

/-- One completion of a queue: its oldest command in execution once that is done, else its head (R30, R190); `lost` as in R366.
(DEDUCED, assumption 30) -/
def State.complete (s : State) (lost : Bool) (c : CtxId) (eng : Engine) : State :=
  match s.running.find? (fun x => decide (x.ctx = c) && decide (x.eng = eng) && decide (x.fillOf = none)) with
  | some x => s.completeExec lost x
  | none => s.completeHead lost c eng

end Sys2Proof.Machine
end

