-- ==== Sys2Proof/Machine/Mem.lean ====
section
/-! DEFINITION. Migration (R259 to R271), the object table's edits (R253 to R257, R464) and the model table's (R305, R327). -/

namespace Sys2Proof.Machine

open Sys2Proof

/-! ### Migration requests (R260) -/

/-- The requests of the device that have not ended, those whose results wait for the link among them. -/
def State.migAll (s : State) : List MigReq := s.mig ++ s.migWait

/-- CTX_MIG_STAT.outstanding. -/
def State.migCount (s : State) (c : CtxId) : Nat := (s.migAll.filter (fun m => decide (m.ctx = c))).length

/-- A request as CTX_MIG_OBJ and a written CTX_MIG_REQ give it (R273). -/
def migOf (c : CtxId) (op : Nat) (obj v : W64) : MigReq :=
  { ctx := c, op := op, tier := wBits v 2 2, id := wBits v 8 8, addr := wBits obj 12 40 * 4096, sigEn := wBit v 16,
    sigIdx := wBits v 17 8, sigInc := wBits v 25 8, dl := wBits v 33 16 }

/-- A request arrives; one whose id is outstanding is dropped (R260). (DEDUCED, assumption 34) -/
def State.migRequest (s : State) (c : CtxId) (op : Nat) (v : W64) : State :=
  let m := migOf c op (s.reg (ctxBase c + Reg.ctxMigObj)) v
  if s.migAll.any (fun q => decide (q.ctx = c) && decide (q.id = m.id)) then
    (s.addFld (Reg.ctxMigStat_rejected.at c) 1).logEvent 5 2 (some c) m.addr m.id
  else { s with mig := s.mig ++ [m] }

/-- PROMOTE (R263). -/
def execPromote (c : CtxId) (v : W64) (s : State) : Host.Outcome State Fault Refusal := .next (s.migRequest c 0 v)

/-- EVICT (R264). -/
def execEvict (c : CtxId) (v : W64) (s : State) : Host.Outcome State Fault Refusal := .next (s.migRequest c 1 v)

/-- WRITEBACK (R259). -/
def execWriteback (c : CtxId) (v : W64) (s : State) : Host.Outcome State Fault Refusal := .next (s.migRequest c 2 v)

/-! ### Copies, references and charges of an object (R253, R263, R264) -/

/-- Whether tier t holds a valid copy above the home. -/
def Obj.cp (o : Obj) (t : Nat) : Bool := if t = 0 then o.cp0 else if t = 1 then o.cp1 else false

/-- Set whether tier t holds a copy. -/
def Obj.setCp (o : Obj) (t : Nat) (b : Bool) : Obj := if t = 0 then { o with cp0 := b } else { o with cp1 := b }

/-- The holders of the copy in tier t, oldest reference first. -/
def Obj.hold (o : Obj) (t : Nat) : List CtxId := if t = 0 then o.hold0 else if t = 1 then o.hold1 else []

/-- Set the holders of the copy in tier t. -/
def Obj.setHold (o : Obj) (t : Nat) (l : List CtxId) : Obj := if t = 0 then { o with hold0 := l } else { o with hold1 := l }

/-- The context charged for the copy in tier t. -/
def Obj.chg (o : Obj) (t : Nat) : CtxId := if t = 0 then o.chg0 else o.chg1

/-- Set the context charged for the copy in tier t. -/
def Obj.setChg (o : Obj) (t : Nat) (c : CtxId) : Obj := if t = 0 then { o with chg0 := c } else { o with chg1 := c }

/-- An object-table entry. -/
def State.obj (s : State) (i : Nat) : Obj := SMap.get {} s.objs i

/-- Replace an object-table entry. -/
def State.setObj (s : State) (i : Nat) (o : Obj) : State := { s with objs := SMap.put {} s.objs i o }

/-- The key of a byte of tier t (0 or 1) of an object. -/
def kTier (t idx off : Nat) : Nat := if t = 0 then kT0 idx off else kT1 idx off

/-- R464: fill freed pages with zero words. -/
def State.zeroTier (s : State) (t idx size : Nat) : State := s.zeroFrom (kTier t idx 0) (kTier t idx (size * 4096))

/-- The pages that an object frees in T0 are clean, in banks whose free pages were lost too (R251). -/
def State.freed0 (s : State) (idx : Nat) : State :=
  let o := s.obj idx
  if o.home = 0 ∨ o.cp0 then
    { s with pwr := { s.pwr with cleanFree := (s.pwr.cleanFree ++ s.pwr.lostBanks.filter (fun b => (s.bankSet idx).contains b)).dedup } }
  else s

/-- Mark words poisoned, with fresh check bits. -/
def State.poisonWords (s : State) : List Nat → State
  | [] => s
  | w :: l => ((s.setPoison w true).freshen w).poisonWords l

/-- The 64-bit words of an object's T0 content that lie in bank b (R249, R250). -/
def State.bankWords (s : State) (idx b : Nat) : List Nat :=
  let o := s.obj idx
  let banks := s.bankSet idx
  if o.home = 0 ∨ o.cp0 then
    ((List.range (o.size * 16)).filter (fun u => decide (banks.getD (u % banks.length) 0 = b))).flatMap
      (fun u => (List.range 32).map (kT0 idx (256 * u) / 8 + ·))
  else []

/-- R251: what a new T0 object finds in the pages of banks that lost their contents: poison; once pages have been freed, and so zeroed,
which pages it gets is open, and a free bit decides for each bank. (DESIGN CHOICE, assumption 87) -/
def State.findPages (s : State) (idx : Nat) : List Nat → State
  | [] => s
  | b :: l =>
    let r := if s.pwr.cleanFree.contains b then s.takeFree else (1, s)
    (if wBit r.1 0 then r.2.poisonWords (r.2.bankWords idx b) else r.2).findPages idx l

/-- Whether an operation moves data (R263, R264). -/
def MigReq.moves (m : MigReq) (o : Obj) : Bool :=
  match m.op with
  | 0 => !((o.hold m.tier).contains m.ctx) && !o.cp m.tier
  | 1 => (o.hold m.tier).contains m.ctx && decide ((o.hold m.tier).erase m.ctx = []) && o.cp m.tier && o.dirty
  | _ => o.cp m.tier && o.dirty

/-- R259: whether a target is allowed for an operation on an object. -/
def MigReq.allowed (m : MigReq) (o : Obj) : Bool :=
  decide (m.tier < 2) && decide (m.op < 3) &&
  (decide (m.op ≠ 0) || (decide (m.tier < o.home.val) && (o.ro || !(o.cp (1 - m.tier)))))

/-! ### Starting an operation (R262, R263, R270, R311) -/

/-- The object an address names for context c by the slots that are ACTIVE now (R311). -/
def State.migObj (s : State) (c : CtxId) (a : Nat) : Option (Nat × Obj) := (s.translate (s.hostView c) a).bind (s.objAt c)

/-- The object of a request. -/
def State.reqObj (s : State) (m : MigReq) : Option Nat := if m.started then m.obj else (s.migObj m.ctx m.addr).map Prod.fst

/-- The operations in progress (MEM_MIG_STAT.in_progress). -/
def State.migBusy (s : State) : Nat := (s.mig.filter (·.started)).length

/-- R270: whether Exact mode holds a request's move. -/
def State.exactHolds (s : State) (m : MigReq) (o : Obj) : Bool := s.exactCtx.isSome && decide (m.tier = 0) && m.moves o

/-- Whether a waiting request may start now; `before` are the requests that arrived earlier. -/
def State.migReady (s : State) (before : List MigReq) (m : MigReq) : Bool :=
  !m.started && (match s.migObj m.ctx m.addr with
    | none => true
    | some (i, o) => !(before.any (fun q => decide (s.reqObj q = some i))) && !(m.allowed o && s.exactHolds m o))

/-- The oldest request that may start. -/
def State.migNext (s : State) : List MigReq → List MigReq → Option MigReq
  | _, [] => none
  | before, m :: l => if s.migReady before m then some m else s.migNext (before ++ [m]) l

/-- Whether an operation in progress reads host memory: a PROMOTE whose source is a T3 home on the host. -/
def MigReq.readsHost (m : MigReq) (o : Obj) : Bool :=
  m.started && m.charged && decide (o.home = 3) && !o.t3Peer && !(decide (m.tier = 0) && o.cp1)

/-- Whether an operation in progress uses host memory: one that reads it, or that writes back to it. -/
def MigReq.usesHost (m : MigReq) (o : Obj) : Bool :=
  m.readsHost o || (m.started && m.writeBack && decide (o.home = 3) && !o.t3Peer)

/-- Whether an operation in progress reads or writes a home on the peer device d. -/
def MigReq.usesPeer (d : Nat) (m : MigReq) (o : Obj) : Bool :=
  m.started && decide (o.home = 3) && o.t3Peer && decide (o.peerDev = d) && (m.writeBack || (m.charged && !(decide (m.tier = 0) && o.cp1)))

/-- R269: operations in progress that a loss of host memory hits will end with TIER_FAULT. -/
def State.failMigs (s : State) (p : MigReq → Obj → Bool) : State :=
  { s with mig := s.mig.map (fun (m : MigReq) =>
      if m.report.isNone && m.obj.any (fun i => p m (s.obj i)) then { m with report := some .tierFault } else m) }

/-- Update a request. -/
def State.updMig (s : State) (c : CtxId) (id : Nat) (f : MigReq → MigReq) : State :=
  { s with mig := s.mig.map (fun (m : MigReq) => if m.ctx = c ∧ m.id = id then f m else m) }

/-- A request starts: an illegal one, and one whose object it may not move, will end with its status; a PROMOTE that makes a copy takes
its charge and reference now, or will end with QUOTA. -/
def State.migBegin (s : State) (m : MigReq) : State :=
  let ends := fun (st : Status) (i : Option Nat) =>
    s.updMig m.ctx m.id (fun q => { q with started := true, obj := i, report := some st })
  if m.report.isSome then s.updMig m.ctx m.id (fun q => { q with started := true })
  else if 2 ≤ m.tier ∨ 3 ≤ m.op then ends .illegalCommand none
  else
    match s.migObj m.ctx m.addr with
    | none => ends .tierFault none
    | some (i, o) =>
      if o.inst then ends .tierFault none
      else if !(m.allowed o) then ends .illegalCommand none
      else
        let s1 := s.setObj i { o with busy := true }
        let wb := m.moves o && decide (m.op ≠ 0)
        if m.op = 0 ∧ m.moves o then
          let n := chargeOf m.tier o.size
          if s.quotaTakes m.ctx m.tier n ∧ n ≤ s.freePages m.tier then
            (s1.setObj i ({ (o.setHold m.tier [m.ctx]).setChg m.tier m.ctx with busy := true })).updMig m.ctx m.id
              (fun q => { q with started := true, obj := some i, charged := true })
          else s1.updMig m.ctx m.id (fun q => { q with started := true, obj := some i, report := some .quota })
        else s1.updMig m.ctx m.id (fun q => { q with started := true, obj := some i, writeBack := wb })

/-- Whether a quiesce is requested in either bank (R256). -/
def State.quiesced (s : State) : Bool := s.bankHost.req || s.bankMgc.req

/-- One start of the migration engine: no quiesce, fewer than 64 operations in progress, and no entry sequence past its step 1 (R254,
R262, R405). -/
def State.migStart (s : State) : State :=
  if s.quiesced || !s.cfeHands || decide (64 ≤ s.migBusy) then s
  else
    match s.migNext [] s.mig with
    | none => s
    | some m => s.orStall (fun s => (s.touch [93]).migBegin m)

/-- MIGRATION_OP_START (R262). -/
def execMigrationOpStart (s : State) : Host.Outcome State Fault Refusal := .next s.migStart

/-! ### Ending an operation (R261, R263 to R265, R269) -/

/-- The queue slot under which peer messages of a request run. -/
def migSlot (id : Nat) : Nat := 2 ^ 21 + id

/-- The result word of an ended request (R261). -/
def MigReq.word (m : MigReq) : W64 :=
  BitVec.ofNat 64 ((m.report.getD .ok).code + m.tier % 4 * 2 ^ 8 + b2n m.moved * 2 ^ 10 + 2 ^ 63)

/-- Write a result word, then apply the signal (R261). -/
def State.migPost (s : State) (m : MigReq) : State :=
  let a := wBits (s.reg (ctxBase m.ctx + Reg.ctxMigRbase)) 11 53 * 2048 + 8 * m.id
  let s1 := s.hostStore a (clean (leBytes 8 m.word.toNat))
  if m.sigEn && decide (m.sigInc ≠ 0) then s1.scnAdd m.ctx m.sigIdx m.sigInc else s1

/-- Post the results that wait, in order. (DEDUCED, assumption 33) -/
def State.migPostAll (s : State) : List MigReq → State
  | [] => s
  | m :: l => (s.migPost m).migPostAll l

/-- A request ends with a status: it leaves the engine, and its result is posted, or waits while the link is down (R438).
(DEDUCED, assumption 33) -/
def State.migFinish (s : State) (m : MigReq) (st : Status) (moved : Bool) : State :=
  let e := { m with report := some st, moved := moved }
  let s1 := { s with
    mig := s.mig.filter (fun q => !(decide (q.ctx = m.ctx) && decide (q.id = m.id)))
    link := { s.link with peerReqs := s.link.peerReqs.filter (fun r =>
      !(decide (r.ctx = m.ctx) && decide (r.eng = Engine.tmv) && decide (r.slot = migSlot m.id) && !r.stream)) } }
  let s2 := match m.obj with
    | some i => s1.setObj i { s1.obj i with busy := false }
    | none => s1
  let s3 := if m.started then s2.addFld Reg.memMigStat_ops 1 else s2
  let s4 := if m.started ∧ (st = .tierFault ∨ st = .tierLate) then s3.addFld Reg.memMigStat_failed 1 else s3
  let s5 := if st = .quota then s4.addFld (Reg.ctxMigStat_refused.at m.ctx) 1 else s4
  if s5.hostUp then s5.migPost e else { s5 with migWait := s5.migWait ++ [e] }.wakeDom epDom

/-- Give up an operation: a PROMOTE frees its partial copy, charge and reference; a write-back keeps copy, dirty bit and reference
(R267, R269). -/
def State.migUndo (s : State) (m : MigReq) : State :=
  match m.obj with
  | none => s
  | some i =>
    let o := s.obj i
    let o1 := if m.charged then o.setHold m.tier ((o.hold m.tier).erase m.ctx) else o
    s.setObj i { o1 with dirty := o1.dirty || m.sent }

/-- The place a PROMOTE to tier t copies a byte from: the fastest valid copy below t. -/
def State.promoteLoc (s : State) (idx : Nat) (o : Obj) (t off : Nat) : Option Loc :=
  if t = 0 ∧ o.cp1 ∧ o.home.val ≠ 1 then some (.t1 (kT1 idx off)) else s.homeLoc idx o off

/-- The number of poisoned 64-bit words among bytes. -/
def poisonedWords (l : List SB) : Nat := ((chunksOf 8 (l.length / 8 + 1) l).filter anyPoison).length

/-- Copy one page of an object from place to place: what the read counts, the bytes, and how many poisoned words (R269). None: a
tier fails. -/
def State.copyPage (s : State) (m : MigReq) (o : Obj) (src : Nat → Option Loc) (q : Nat) (put : State → List SB → State) :
    Option State :=
  let offs := (List.range 4096).map (4096 * q + ·)
  if offs.any (fun x => (src x).isNone) then none
  else
    let bytes := offs.map (fun x => ((src x).map s.peekLoc).getD (0, true))
    let s1 := s.notePlace m.ctx (src (4096 * q)) (decide (q = 0) || pageStart (src (4096 * q))) (o.base * 4096 + 4096 * q) 4096
    some (put (s1.addFld (Reg.ctxMigStat_poison.at m.ctx) (poisonedWords bytes)) bytes)

/-- Fill the copy in tier t page by page. -/
def State.fillCopy (s : State) (m : MigReq) (idx : Nat) (o : Obj) : List Nat → Option State
  | [] => some s
  | q :: l =>
    (s.copyPage m o (s.promoteLoc idx o m.tier) q
      (fun s b => (s.touch (s.memDoms 4096 (if m.tier = 0 then .t0 (kT0 idx (4096 * q)) else .t1 (kT1 idx (4096 * q))))).store
        (kTier m.tier idx (4096 * q)) b)).bind (fun s1 => s1.fillCopy m idx o l)

/-- Write bytes of an object to its home. -/
def State.putHome (s : State) (m : MigReq) (loc : Loc) (b : List SB) : State :=
  match loc with
  | .t0 k | .t1 k => (s.touch (s.memDoms b.length loc)).store k b
  | .host a => s.hostStore a b
  | .peer p d c a => s.peerWrite m.ctx .tmv (migSlot m.id) p d c a b
  | .t2 _ _ => s

/-- Write the dirty copy in tier t back to the home page by page. -/
def State.writeHome (s : State) (m : MigReq) (idx : Nat) (o : Obj) : List Nat → Option State
  | [] => some s
  | q :: l =>
    (s.homeLoc idx o (4096 * q)).bind (fun loc =>
      (s.copyPage m o (fun x => some (if m.tier = 0 then .t0 (kT0 idx x) else .t1 (kT1 idx x))) q
        (fun s b => s.putHome m loc b)).bind (fun s1 => s1.writeHome m idx o l))

/-- Drop context c's reference to the copy in tier t (R264 steps 2 and 3): the oldest remaining holder carries the charge on. -/
def Obj.dropRef (o : Obj) (t : Nat) (c : CtxId) : Obj :=
  let l := (o.hold t).erase c
  let o1 := o.setHold t l
  if o.chg t = c then (match l with | d :: _ => o1.setChg t d | [] => o1) else o1

/-- The end of an EVICT whose copy is clean: the reference goes, and with the last one the copy (R264). -/
def State.evictEnd (s : State) (m : MigReq) (i : Nat) (moved : Bool) : State :=
  let o := s.obj i
  let o1 := o.dropRef m.tier m.ctx
  if (o1.hold m.tier).isEmpty then
    (((if m.tier = 0 then s.freed0 i else s).zeroTier m.tier i o.size).setObj i { o1.setCp m.tier false with dirty := false }).migFinish m .ok moved
  else (s.setObj i o1).migFinish m .ok moved

/-- The end of an operation that writes back: once the home has taken the data, dirty is cleared (R259, R264, R265). Writes to a peer
are sent first and their answers awaited; data written meanwhile is sent again. -/
def State.writeBackEnd (s : State) (m : MigReq) (i : Nat) : State :=
  let o := s.obj i
  if m.sent ∧ s.link.peerReqs.any (fun r => r.write && decide (r.ctx = m.ctx) && decide (r.eng = Engine.tmv) && decide (r.slot = migSlot m.id)) then s
  else if m.sent && !o.dirty then
    (if m.op = 1 then s.evictEnd m i true else s.migFinish m .ok true)
  else
    match s.writeHome m i o (List.range o.size) with
    | none => (s.migUndo m).migFinish m .tierFault false
    | some s1 =>
      let s2 := s1.setObj i { s1.obj i with dirty := false }
      if o.home = 3 ∧ o.t3Peer then s2.updMig m.ctx m.id (fun q => { q with sent := true })
      else if m.op = 1 then s2.evictEnd m i true
      else s2.migFinish m .ok true

/-- The end of an operation in progress on object i (R263, R264). -/
def State.migEndAt (s : State) (m : MigReq) (i : Nat) : State :=
  let o := s.obj i
  match m.op with
  | 0 =>
    if m.charged then
      match s.fillCopy m i o (List.range o.size) with
      | none => (s.migUndo m).migFinish m .tierFault false
      | some s1 => (s1.setObj i ((s1.obj i).setCp m.tier true)).migFinish m .ok true
    else if (o.hold m.tier).contains m.ctx then s.migFinish m .ok false
    else (s.setObj i (o.setHold m.tier (o.hold m.tier ++ [m.ctx]))).migFinish m .ok false
  | 1 =>
    if !((o.hold m.tier).contains m.ctx) then s.migFinish m .ok false
    else if m.sent || (decide ((o.hold m.tier).erase m.ctx = []) && o.dirty) then s.writeBackEnd m i
    else s.evictEnd m i false
  | _ => if m.sent || (o.cp m.tier && o.dirty) then s.writeBackEnd m i else s.migFinish m .ok false

/-- Whether an operation in progress moves data into or out of T0. -/
def MigReq.movesT0 (m : MigReq) (o : Obj) : Bool := decide (m.tier = 0) && (m.charged || decide (m.op ≠ 0) && m.moves o)

/-- One end of an operation in progress; a T0 move pauses while Exact mode holds it (R270). (DEDUCED, assumption 34) -/
def State.migEnd (s : State) (c : CtxId) (id : Nat) : State :=
  match s.mig.find? (fun m => decide (m.ctx = c) && decide (m.id = id) && m.started) with
  | none => s
  | some m =>
    match m.report, m.obj with
    | some st, _ => (s.migUndo m).migFinish m st false
    | none, none => s.migFinish m .tierFault false
    | none, some i =>
      if s.exactCtx.isSome && m.movesT0 (s.obj i) then s
      else s.awaitPeers [93] c .tmv (migSlot id) (fun s => s.migEndAt m i)

/-- MIGRATION_OP_END (R261). -/
def execMigrationOpEnd (c : CtxId) (id : BitVec 8) (s : State) : Host.Outcome State Fault Refusal := .next (s.migEnd c id.toNat)

/-- R267: a request's deadline passes before it ends. -/
def State.migLate (s : State) (c : CtxId) (id : Nat) : State :=
  match s.mig.find? (fun m => decide (m.ctx = c) && decide (m.id = id) && decide (m.dl ≠ 0)) with
  | none => s
  | some m => (s.migUndo m).migFinish m .tierLate false

/-- MIGRATION_DEADLINE (R267). -/
def execMigrationDeadline (c : CtxId) (id : BitVec 8) (s : State) : Host.Outcome State Fault Refusal := .next (s.migLate c id.toNat)

/-- R271: the requests of context c that have not started end ABORTED. -/
def State.migAbortL (s : State) : List MigReq → State
  | [] => s
  | m :: l => (s.migFinish m .aborted false).migAbortL l

/-- R271 for context c. -/
def State.migAbort (s : State) (c : CtxId) : State := s.migAbortL (s.mig.filter (fun m => decide (m.ctx = c) && !m.started))

/-! ### The edit banks (R254, R256) -/

/-- The bank of a requester: the physical function and the management controller have one each. -/
def State.bank? (s : State) : Requester → Option EditBank
  | .fn 0 => some s.bankHost
  | .mgc => some s.bankMgc
  | .fn _ => none

/-- Replace a requester's bank. -/
def State.setBank (s : State) (who : Requester) (b : EditBank) : State :=
  match who with
  | .fn 0 => { s with bankHost := b }
  | .mgc => { s with bankMgc := b }
  | .fn _ => s

/-- Act through a requester's bank; another function has none and changes nothing. -/
def State.withBank (s : State) (who : Requester) (f : EditBank → State) : State := (s.bank? who).elim s f

/-- QUIESCE_REQUEST (R254). -/
def execQuiesceRequest (who : Requester) (s : State) : Host.Outcome State Fault Refusal :=
  .next (s.withBank who (fun b => s.setBank who { b with req := true, done := b.done || decide (s.migBusy = 0) }))

/-- A bank that asks for quiesce is done. (DEDUCED, assumption 34) -/
def EditBank.settle (b : EditBank) : EditBank := if b.req then { b with done := true } else b

/-- QUIESCE_DONE (R256). -/
def execQuiesceDone (s : State) : Host.Outcome State Fault Refusal :=
  .next (if s.migBusy = 0 then { s with bankHost := s.bankHost.settle, bankMgc := s.bankMgc.settle } else s)

/-- QUIESCE_RELEASE (R254). -/
def execQuiesceRelease (who : Requester) (s : State) : Host.Outcome State Fault Refusal :=
  .next (s.withBank who (fun b => s.setBank who { b with req := false, done := false }))

/-! ### The object table (R253, R255, R257) -/

/-- Bits from a list of contexts. -/
def ctxBits (l : List CtxId) : Nat := ((allCtx.filter (fun c => l.contains c)).map (fun c => 2 ^ c.val)).sum

/-- MEM_OBJ_W0 to MEM_OBJ_W3 of an entry (R253); `sent` says that its write-back is on its way to a peer. -/
def Obj.words (o : Obj) (sent : Bool) : List W64 :=
  if !o.valid then [0, 0, 0, 0]
  else
    let resid := b2n (o.cp0 || (decide (o.home = 0) && !o.inst)) + 2 * b2n (o.cp1 || (decide (o.home = 1) && !o.inst)) +
      4 * b2n (decide (o.home = 2) && !o.inst) + 8 * b2n (decide (o.home = 3) && !o.inst)
    [BitVec.ofNat 64 (o.base + o.owner.val * 2 ^ 40 + o.home.val * 2 ^ 44 + b2n o.ro * 2 ^ 46 + b2n o.inst * 2 ^ 47 + 2 ^ 48),
     BitVec.ofNat 64 (o.size + o.share.toNat * 2 ^ 30 + resid * 2 ^ 46 + b2n (o.dirty || sent) * 2 ^ 50 + b2n o.busy * 2 ^ 51),
     BitVec.ofNat 64 (ctxBits o.hold0 + ctxBits o.hold1 * 2 ^ 16 + o.chg0.val * 2 ^ 32 + o.chg1.val * 2 ^ 36 + o.peerDev * 2 ^ 40 +
       o.peerCtx.val * 2 ^ 48 + b2n o.t3Peer * 2 ^ 52),
     o.loc]

/-- The entry that CREATE makes from the words of a bank; fields marked kept are ignored. -/
def Obj.ofWords (w : List W64) : Obj :=
  let w0 := w.getD 0 0
  let w1 := w.getD 1 0
  let w2 := w.getD 2 0
  { valid := true, base := wBits w0 0 40, owner := Fin.ofNat 16 (wBits w0 40 4), home := Fin.ofNat 4 (wBits w0 44 2), ro := wBit w0 46,
    inst := wBit w0 47, size := wBits w1 0 30, share := BitVec.ofNat 16 (wBits w1 30 16), peerDev := wBits w2 40 8,
    peerCtx := Fin.ofNat 16 (wBits w2 48 4), t3Peer := wBit w2 52, loc := w.getD 3 0 }

/-- Whether a share mask needs ro, and ro fits the home (R248, R249, R255 code 5). -/
def Obj.stateBad (o : Obj) : Bool :=
  (decide (o.home = 2) && !o.ro) || (decide (o.home.val < 2) && o.ro) || (decide (o.share ≠ 0) && !o.ro)

/-- R255 code 5 for CREATE. -/
def createBad (w : List W64) : Bool :=
  let o := Obj.ofWords w
  let w3 := w.getD 3 0
  decide (wBits (w.getD 0 0) 49 15 ≠ 0) || decide (wBits (w.getD 1 0) 52 12 ≠ 0) || decide (wBits (w.getD 2 0) 53 11 ≠ 0) ||
  decide (o.size = 0) || decide (2 ^ 40 < o.base + o.size) || o.stateBad ||
  (decide (o.home = 0) && (decide (wBits w3 0 32 = 0) || decide (wBits w3 32 32 ≠ 0))) ||
  ((decide (o.home = 1) || decide (o.home = 2)) && decide (w3 ≠ 0)) ||
  (decide (o.home = 3) && !o.t3Peer && decide (wBits w3 52 12 ≠ 0)) ||
  (decide (o.home = 3) && o.t3Peer && decide (wBits w3 40 24 ≠ 0)) ||
  (decide (o.home ≠ 3) && o.t3Peer) || (!o.t3Peer && (decide (o.peerDev ≠ 0) || decide (o.peerCtx ≠ 0)))

/-- Whether two ranges of pages meet. -/
def rangesMeet (a n b m : Nat) : Bool := decide (a < b + m) && decide (b < a + n)

/-- Whether some context may read both objects. -/
def Obj.seenTogether (o p : Obj) : Bool := allCtx.any (fun c => o.visible c && p.visible c)

/-- R255 code 2: the range meets another object that one of its contexts may read. -/
def State.overlaps (s : State) (i : Nat) (o : Obj) : Bool :=
  List.any s.objs (fun (e : Nat × Obj) => decide (e.1 ≠ i) && rangesMeet o.base o.size e.2.base e.2.size && o.seenTogether e.2)

/-- The outcome code of CREATE, by the order of R255. -/
def State.createCode (s : State) (b : EditBank) : Nat :=
  let o := Obj.ofWords b.w
  let n := chargeOf o.home.val o.size
  if !b.done then 1
  else if (s.obj b.idx).valid then 4
  else if createBad b.w then 5
  else if s.overlaps b.idx o then 2
  else if o.home.val < 3 ∧ !(s.quotaTakes o.owner o.home.val n) then 3
  else if o.home.val < 2 ∧ s.freePages o.home.val < n then 6
  else 0

/-- CREATE through a requester's bank. -/
def State.create (s : State) (who : Requester) : State :=
  s.withBank who (fun b =>
    let k := s.createCode b
    let s1 := s.setBank who { b with code := k }
    if k = 0 then (s1.setObj b.idx (Obj.ofWords b.w)).findPages b.idx s1.pwr.lostBanks else s1)

/-- CREATE (R255). -/
def execCreate (who : Requester) (s : State) : Host.Outcome State Fault Refusal := .next (s.create who)

/-- READ of an object entry through a requester's bank. -/
def State.objRead (s : State) (who : Requester) : State :=
  s.withBank who (fun b => s.setBank who
    { b with w := (s.obj b.idx).words (s.mig.any (fun m => m.sent && decide (m.obj = some b.idx))), code := 0 })

/-- OBJ_READ (R253). -/
def execObjRead (who : Requester) (s : State) : Host.Outcome State Fault Refusal := .next (s.objRead who)

/-- The live flash pages of an object, by rising page number. -/
def State.objPages (s : State) (i : Nat) : List Nat :=
  (List.filter (fun (e : Nat × Nat) => decide (e.1 / 2 ^ 28 = i)) s.pmap).map (fun e => e.2 - 1)

/-- The batch slot that holds an object: the slot of the owner's model in whose backing range it lies. -/
def State.slotOf (s : State) (o : Obj) : Option (Nat × Nat) :=
  List.findSome? (fun (e : Nat × Model) =>
    let inside := fun (k : Nat) => decide (e.2.base k ≤ o.base) && decide (o.base < e.2.base k + e.2.wsize)
    if e.2.valid && decide (e.2.owner = o.owner) then (if inside 0 then some (e.1, 0) else if inside 1 then some (e.1, 1) else none)
    else none) s.models

/-- R284, R310: the flash pages of a deleted object are no longer live, or stay live until its batch slot is STALE. -/
def State.releasePages (s : State) (i : Nat) (o : Obj) : State :=
  let pages := s.objPages i
  let s1 := { s with pmap := SMap.keepKeys (fun k => decide (k / 2 ^ 28 ≠ i)) s.pmap }
  match s.slotOf o with
  | some (m, k) =>
    if (s.model m).st k = .stale ∨ (s.model m).st k = .empty then s1.pagesDead pages
    else if pages.isEmpty then s1 else { s1 with orphans := s1.orphans ++ [⟨m, k, pages⟩] }
  | none => s1.pagesDead pages

/-- R257: an object goes: its copies, its pages and its charges; queued requests that name it will end with TIER_FAULT. -/
def State.deleteObj (s : State) (i : Nat) : State :=
  let o := s.obj i
  let hit := fun (m : MigReq) => !m.started && decide (s.reqObj m = some i)
  let s1 := { s with mig := s.mig.map (fun m => if hit m then { m with report := some .tierFault } else m) }
  let s2 := (((s1.freed0 i).zeroTier 0 i o.size).zeroTier 1 i o.size).releasePages i o
  s2.setObj i {}

/-- DELETE through a requester's bank. -/
def State.delete (s : State) (who : Requester) : State :=
  s.withBank who (fun b =>
    let k := if !b.done then 1 else if !(s.obj b.idx).valid then 4 else 0
    let s1 := s.setBank who { b with code := k }
    if k = 0 then s1.deleteObj b.idx else s1)

/-- DELETE (R257). -/
def execDelete (who : Requester) (s : State) : Host.Outcome State Fault Refusal := .next (s.delete who)

/-- SET_SHARE through a requester's bank: word 1's share (R248, R255). -/
def State.setShare (s : State) (who : Requester) : State :=
  s.withBank who (fun b =>
    let w1 := b.w.getD 1 0
    let o := s.obj b.idx
    let p := { o with share := BitVec.ofNat 16 (wBits w1 30 16) }
    let k := if !b.done then 1 else if !o.valid then 4 else if wBits w1 52 12 ≠ 0 ∨ p.stateBad then 5
      else if s.overlaps b.idx p then 2 else 0
    let s1 := s.setBank who { b with code := k }
    if k = 0 then s1.setObj b.idx p else s1)

/-- SET_SHARE (R255). -/
def execSetShare (who : Requester) (s : State) : Host.Outcome State Fault Refusal := .next (s.setShare who)

/-- R258: an object that becomes writable keeps one copy above its home: the T1 copy under a T0 copy goes, with its references and charge.
(DESIGN CHOICE, assumption 95) -/
def State.oneCopy (s : State) (i : Nat) : State :=
  let o := s.obj i
  if !o.ro && o.cp0 && o.cp1 then (s.zeroTier 1 i o.size).setObj i ((o.setCp 1 false).setHold 1 []) else s

/-- SET_STATE through a requester's bank: word 0's ro and inst (R255, R464). -/
def State.setState (s : State) (who : Requester) : State :=
  s.withBank who (fun b =>
    let w0 := b.w.getD 0 0
    let o := s.obj b.idx
    let p := { o with ro := wBit w0 46, inst := wBit w0 47 }
    let k := if !b.done then 1 else if !o.valid then 4
      else if wBits w0 49 15 ≠ 0 ∨ p.stateBad ∨ (!o.ro && p.ro && s.vfHolds o.owner) then 5 else 0
    let s1 := s.setBank who { b with code := k }
    if k = 0 then (s1.setObj b.idx p).oneCopy b.idx else s1)

/-- SET_STATE (R255). -/
def execSetState (who : Requester) (s : State) : Host.Outcome State Fault Refusal := .next (s.setState who)

/-! ### The model table (R305, R327) -/

/-- MEM_MDL_W0 to MEM_MDL_W3 of an entry. -/
def Model.words (m : Model) : List W64 :=
  [BitVec.ofNat 64 (m.wbase + m.owner.val * 2 ^ 40), BitVec.ofNat 64 (m.wsize + m.share.toNat * 2 ^ 30),
   BitVec.ofNat 64 (m.baseA + m.tsetFirst * 2 ^ 40 + m.tsetN * 2 ^ 49), BitVec.ofNat 64 m.baseB]

/-- The entry that DEFINE makes from the words of a bank: both slots EMPTY (R307). -/
def Model.ofWords (w : List W64) : Model :=
  let w0 := w.getD 0 0
  let w1 := w.getD 1 0
  let w2 := w.getD 2 0
  { valid := true, wbase := wBits w0 0 40, owner := Fin.ofNat 16 (wBits w0 40 4), wsize := wBits w1 0 30,
    share := BitVec.ofNat 16 (wBits w1 30 16), baseA := wBits w2 0 40, baseB := wBits (w.getD 3 0) 0 40,
    tsetFirst := wBits w2 40 9, tsetN := wBits w2 49 10 }

/-- The first pages of a model's three ranges. -/
def Model.ranges (m : Model) : List Nat := [m.wbase, m.baseA, m.baseB]

/-- R255 code 5 for DEFINE: reserved bits, sizes, and the tile sets of the range. -/
def State.defineBad (s : State) (i : Nat) (w : List W64) : Bool :=
  let m := Model.ofWords w
  decide (wBits (w.getD 0 0) 44 20 ≠ 0) || decide (wBits (w.getD 1 0) 46 18 ≠ 0) || decide (wBits (w.getD 2 0) 59 5 ≠ 0) ||
  decide (wBits (w.getD 3 0) 40 24 ≠ 0) || decide (m.wsize = 0) || m.ranges.any (fun b => decide (2 ^ 40 < b + m.wsize)) ||
  decide (512 < m.tsetFirst + m.tsetN) ||
  m.tsets.any (fun t => decide ((s.tset t 0).state ≠ .free) || decide ((s.tset t 1).state ≠ .free) ||
    List.any s.models (fun (e : Nat × Model) => decide (e.1 ≠ i) && e.2.valid && e.2.tsets.contains t))

/-- R255 code 2 for DEFINE: its ranges meet an object of the owner or of a sharing context, another model's ranges, or each other. -/
def State.defineOverlaps (s : State) (i : Nat) (m : Model) : Bool :=
  m.ranges.any (fun b =>
    List.any s.objs (fun (e : Nat × Obj) => rangesMeet b m.wsize e.2.base e.2.size && allCtx.any (fun c => m.reaches c && e.2.visible c)) ||
    List.any s.models (fun (e : Nat × Model) => decide (e.1 ≠ i) && e.2.valid &&
      e.2.ranges.any (fun r => rangesMeet b m.wsize r e.2.wsize))) ||
  rangesMeet m.wbase m.wsize m.baseA m.wsize || rangesMeet m.wbase m.wsize m.baseB m.wsize || rangesMeet m.baseA m.wsize m.baseB m.wsize

/-- The outcome code of DEFINE, by the order of R255. -/
def State.defineCode (s : State) (b : EditBank) : Nat :=
  if !b.done then 1
  else if (s.model b.mdlSel).valid then 4
  else if s.defineBad b.mdlSel b.mdlW then 5
  else if s.defineOverlaps b.mdlSel (Model.ofWords b.mdlW) then 2
  else 0

/-- R305: the physical function alone defines and removes models. -/
def State.withModels (s : State) (who : Requester) (f : EditBank → State) : State := if who = .mgc then s else s.withBank who f

/-- DEFINE through the physical function's bank. -/
def State.define (s : State) (who : Requester) : State :=
  s.withModels who (fun b =>
    let k := s.defineCode b
    let s1 := s.setBank who { b with mdlCode := k }
    if k = 0 then s1.setModel b.mdlSel (Model.ofWords b.mdlW) else s1)

/-- DEFINE (R327). -/
def execDefine (who : Requester) (s : State) : Host.Outcome State Fault Refusal := .next (s.define who)

/-- READ of a model entry through a requester's bank. -/
def State.mdlRead (s : State) (who : Requester) : State :=
  s.withBank who (fun b => s.setBank who
    { b with mdlW := if (s.model b.mdlSel).valid then (s.model b.mdlSel).words else [0, 0, 0, 0], mdlCode := 0 })

/-- MDL_READ (R327). -/
def execMdlRead (who : Requester) (s : State) : Host.Outcome State Fault Refusal := .next (s.mdlRead who)

/-- Whether a slot holds no batch and no objects. -/
def State.slotVacant (s : State) (m : Model) (k : Nat) : Bool :=
  (decide (m.st k = .empty) || decide (m.st k = .stale)) &&
  !(List.any s.objs (fun (e : Nat × Obj) => e.2.visible m.owner && rangesMeet (m.base k) m.wsize e.2.base e.2.size))

/-- UNDEFINE through the physical function's bank. -/
def State.undefine (s : State) (who : Requester) : State :=
  s.withModels who (fun b =>
    let m := s.model b.mdlSel
    let k := if !b.done then 1 else if !m.valid || !(s.slotVacant m 0) || !(s.slotVacant m 1) then 4 else 0
    let s1 := s.setBank who { b with mdlCode := k }
    if k = 0 then s1.setModel b.mdlSel {} else s1)

/-- UNDEFINE (R327). -/
def execUndefine (who : Requester) (s : State) : Host.Outcome State Fault Refusal := .next (s.undefine who)

end Sys2Proof.Machine
end

