-- ==== Sys2Proof/Machine/Wake.lean ====
section
/-! DEFINITION. Wake events: what one records, and what one does to an entry sequence (R406, R408, R409). -/

namespace Sys2Proof.Machine

open Sys2Proof

/-- The code of the present state in PWR_STATUS.state; during an entry the state being left (R419). -/
def Pwr.code (x : Pwr) : Nat :=
  match x.mode with
  | .run => x.pstate
  | .idle => 4
  | .doze => 5
  | .park => 6
  | _ => 7

/-- The wake events recorded, with one that arrives now: events of one cycle count once (R409). -/
def State.wakeCount (s : State) : Nat :=
  if s.pwr.wakeSeen.isSome then s.fld Reg.pwrLastWake_count else satAdd 16 (s.fld Reg.pwrLastWake_count) 1

/-- R409: record a wake event of a source, and of a port for Trelbo sources, in PWR_LAST_WAKE; of events in one cycle, the lowest source is
recorded. (DEDUCED, assumption 50; DESIGN CHOICE, assumption 89) -/
def State.noteWake (s : State) (source port : Nat) : State :=
  if s.pwr.wakeSeen.any (fun k => decide (k ≤ source)) then s
  else
    { s.setReg Reg.pwrLastWake (wordOf
      [(Reg.pwrLastWake_source, source), (Reg.pwrLastWake_port, port), (Reg.pwrLastWake_from, s.pwr.code),
       (Reg.pwrLastWake_duringEntry, b2n s.pwr.entry.isSome), (Reg.pwrLastWake_step, (s.pwr.entry.map (·.step)).getD 0),
       (Reg.pwrLastWake_count, s.wakeCount), (Reg.pwrLastWake_rtcSec, s.fld Reg.pwrRtcNow_sec)]) with
      pwr := { s.pwr with wakeSeen := some source } }

/-- The entry with a wake event noted: in steps 1 to 6 it is abandoned at the next abort point, later the exit begins at its end
(R406). -/
def EntrySeq.meets (e : EntrySeq) (source : Nat) (pstate : Option Nat) : EntrySeq :=
  if 7 ≤ e.step then { e with lateWake := some (e.lateWake.getD source) }
  else { e with abandon := some (match e.abandon with
    | none => (source, pstate)
    | some (a, p) => (a, pstate.or p)) }

/-- R406: a wake event that arrives during an entry sequence; without one nothing happens. `pstate` is the P-state that a host command
names. -/
def State.entryEvent (s : State) (source port : Nat) (pstate : Option Nat) : State :=
  match s.pwr.entry with
  | none => s
  | some e =>
    let s1 := s.noteWake source port
    { s1 with pwr := { s1.pwr with entry := some (e.meets source pstate) } }

end Sys2Proof.Machine
end

