-- ==== Sys2Proof/Machine/Context.lean ====
section
/-! DEFINITION. The registers of a context's page that act on the command path (chapter 7): queue enables, rings, aborts, sync
counters; the context reset (R206, R440) and the function-level reset of a context; Exact mode (R336); and COMMAND_COMPLETE, with which
a function-level reset may wait (R443). -/

namespace Sys2Proof.Machine

open Sys2Proof

/-! ### Context reset (R206, R440) -/

/-- The page registers that keep their values in a context reset; the ring tails lie outside `regs` and keep theirs too (R440). -/
def keptRegs : List Nat :=
  [Reg.ctxCtrl, Reg.ctxCqBase, Reg.ctxCqCfg, Reg.ctxCqHead, Reg.ctxCqIrq, Reg.ctxTailBase, Reg.ctxTailCfg, Reg.ctxTailHead,
   Reg.ctxMigRbase, Reg.ctxAptBase, Reg.ctxAptCfg]

/-- Return the page registers of context c to their reset values, but for some. -/
def State.clearPage (s : State) (c : CtxId) (keep : List Nat) : State :=
  { s with regs := SMap.keepKeys (fun k =>
      !(decide (ctxBase c ≤ k) && decide (k < ctxBase c + 0x10000)) || keep.contains (k - ctxBase c)) s.regs }

/-- The ABORTED record of a command that was in execution (R206, R417). -/
def abortedRec (w : Entry) (eng : Engine) (slot detail : Nat) (time : W64) : CplRec :=
  { tag := w.tag, status := .aborted, tolerant := false, rerun := false, engine := eng, slot := slot % 4096, layerId := w.layerId,
    detail := detail, time := time, firstStatus := .aborted, irq := w.irq }

/-- The commands of context c in execution, a TABLE_LOAD that keeps its queue's head among them: (engine, slot, words). -/
def State.inExecution (s : State) (c : CtxId) : List (Engine × Nat × Entry) :=
  (s.execsCtx c).map (fun x => (x.eng, x.slot, x.words)) ++
  (match (s.queue c .tmv).dec with
    | .loading w _ _ => [(.tmv, (s.queue c .tmv).head, w)]
    | _ => [])

/-- Post a list of records. -/
def State.cqPostAll (s : State) (c : CtxId) : List CplRec → State
  | [] => s
  | r :: l => (s.cqPost c r).cqPostAll c l

/-- R206 step 2: whether a record is one of a context reset's. -/
def CplRec.ofReset (r : CplRec) : Bool := decide (r.status = .aborted) && decide (r.detail = 2)

/-- What a context reset clears of a context at its start (R206, R440). -/
def Ctx.abandon (x : Ctx) : Ctx :=
  { x with
    queues := x.queues.map (fun q => { q with dec := .idle })
    tailBuf := [], tailSent := false, tables := List.replicate 8 none, slotTabs := Vector.replicate 4 {}, crc := List.replicate 4 {}
    exactReq := false, exactActive := false, exactRefused := false, resetBusy := true }

/-- R457, R459, R465, R468: the security state of a context goes. -/
def Sec.dropCtx (x : Sec) (c : CtxId) : Sec :=
  { x with
    ctxMeas := x.ctxMeas.set c.val 0
    seedSet := x.seedSet &&& ~~~ (BitVec.ofNat 16 (2 ^ c.val))
    ctxAtt := x.ctxAtt.set c.val 0
    attQ := x.attQ.filter (fun q => decide (q.src ≠ .ctx c))
    signing := x.signing.filter (fun q => decide (q.1.src ≠ .ctx c)) }

/-! What an abandoned command leaves (R97, R118, R152, R245) -/

/-- The ranges that a command in execution writes as its destination. (DESIGN CHOICE, assumption 77) -/
def State.destOf (s : State) (x : Exec) : List (Nat × Nat) :=
  let e : Entry := x.words
  let hdr := fun (a : Nat) => if a < 64 then [] else [(a - 64, 64)]
  match x.eng, e.opcode with
  | .mxe, 1 => (List.range e.mmB).map (fun b => (e.mmDst + b * e.mmDstStride, e.mmN * outBytes e.mmOut)) ++ hdr e.mmDst
  | .mxe, 2 => ((s.headerNow x.view e.mmSrc).map (fun h => (e.mmDst, codeBytes e.mmSrcFmt h.n))).toList ++ hdr e.mmDst
  | .caf, 1 =>
    let t := s.tset e.mvTset ((s.boundSlot x.bind e.mvTset).getD 0)
    (List.range e.mvNvec).map (fun v => (e.mvDst + v * e.mvDstStride, 8 * t.n)) ++ hdr e.mvDst
  | .caf, 2 => [(e.scReport, 64 + 8 * 65536)]
  | .vec, 3 => hdr e.vDst
  | .vec, op => [(e.vDst, codeBytes e.vDstFmt e.vCount)] ++ hdr e.vDst ++
      (if op = 1 ∧ e.vWideFmt ≠ 15 then (e.vWide, codeBytes e.vWideFmt e.vCount) :: hdr e.vWide else [])
  | .tmv, 3 =>
    match s.armings.find? (fun a => decide (a.ctx = x.ctx) && decide (a.consumer = some (.tmv, x.slot))) with
    | some a => (a.dst.map (fun d => (List.range d.count).filterMap (fun i => (d.elemAddr i).map (fun b => (b, d.size))))).getD []
    | none => []
  | _, _ => []

/-- Leave free bytes with free poison marks in the pieces of this device's and its host's memory that a command may write (R97).
(DESIGN CHOICE, assumption 77) -/
def State.scrambleL (s : State) (v : View) : List (Nat × Nat) → State
  | [] => s
  | (a, n) :: l =>
    match s.writePlace v a with
    | none | some (.peer ..) => s.scrambleL v l
    | some _ =>
      let free := fun i => Config.freeWord (s.freeCtr + i)
      let bytes : List SB := (List.range n).map (fun i => (BitVec.ofNat 8 (free i).toNat, wBit (free i) 8))
      ({ (s.writePiece v (.tmv, 2 ^ 20 + 1) a bytes).1 with freeCtr := s.freeCtr + n, pwr := s.pwr }).scrambleL v l

/-- The destination contents of abandoned commands are undefined: free bytes. (DESIGN CHOICE, assumption 77) -/
def State.scramble (s : State) : List Exec → State
  | [] => s
  | x :: l => (s.scrambleL x.view ((s.destOf x).flatMap (fun r => piecesOf r.1 r.2))).scramble l

/-- Steps 1 and 2 of R206, with what the reset clears in other blocks; the ABORTED records wait for room in the ring. -/
def State.resetStart (s : State) (c : CtxId) : State :=
  let recs := (s.inExecution c).map (fun x => abortedRec x.2.2 x.1 x.2.1 2 s.time.ns)
  let s1 := ((s.scramble (s.execsCtx c)).clearPage c keptRegs).updCtx c Ctx.abandon
  let s2 := (s1.removeArms (fun a => decide (a.ctx = c))).migAbort c
  let s3 := { s2 with
    running := s2.running.filter (fun x => decide (x.ctx ≠ c))
    link := { s2.link with
      heldSig := s2.link.heldSig.filter (fun k => decide (k.1 ≠ c))
      peerReqs := s2.link.peerReqs.filter (fun r => decide (r.ctx ≠ c) || decide (2 ^ 20 < r.slot)) }
    sec := s2.sec.dropCtx c }
  s3.cqPostAll c recs

/-- Steps 3 to 5 of R206; a virtual function that takes the context can now reach it (R428). -/
def State.resetEnd (s : State) (c : CtxId) : State :=
  let k := kQueues c
  let s1 := (s.zeroFrom k (k + 2 ^ 20)).updCtx c (fun x =>
    { x with queues := Vector.replicate 4 {}, sync := [], reqs := [], dup := [], resetBusy := false })
  { s1 with pcie := { s1.pcie with handover := s1.pcie.handover &&& ~~~ (BitVec.ofNat 16 (2 ^ c.val)) } }.drainSlots

/-- A reset in progress goes on once none of its records waits. -/
def State.resetGoOn (s : State) (c : CtxId) : State :=
  if (s.ctx c).resetBusy && !((s.ctx c).cbuf.any (·.ofReset)) then s.resetEnd c else s

/-- R206: a context reset; while one is in progress a second changes nothing (R443). -/
def State.ctxReset (s : State) (c : CtxId) : State := if (s.ctx c).resetBusy then s else (s.resetStart c).resetGoOn c

/-- The records of a reset that do not fit are dropped and counted, and the reset goes on (R206). -/
def State.resetDrop (s : State) (c : CtxId) : State :=
  if !(s.ctx c).resetBusy then s
  else
    let n := ((s.ctx c).cbuf.filter (·.ofReset)).length
    let s1 := s.updCtx c (fun x => { x with cbuf := x.cbuf.filter (fun r => !r.ofReset) })
    ((s1.addFld (Reg.ctxReqStat_dropped.at c) n).cqFlush c ((s1.ctx c).cbuf.length)).resetGoOn c

/-- CONTEXT_RESET (R206). -/
def execContextReset (c : CtxId) (s : State) : Host.Outcome State Fault Refusal := .next (s.ctxReset c)

/-- DEV_CTX_RESET (R442). -/
def execDevCtxReset (c : CtxId) (s : State) : Host.Outcome State Fault Refusal := .next (s.ctxReset c)

/-- ABORTED_RECORD_DROP_TIMEOUT (R206). -/
def execAbortedRecordDropTimeout (c : CtxId) (s : State) : Host.Outcome State Fault Refusal := .next (s.resetDrop c)

/-- R428: the context's reset as it returns to the physical function: its ABORTED records are dropped and counted, whatever room the
ring has. -/
def State.ctxReturn (s : State) (c : CtxId) : State :=
  if (s.ctx c).resetBusy then s.resetDrop c
  else
    let n := (s.inExecution c).length
    let s1 := { s.scramble (s.execsCtx c) with running := s.running.filter (fun x => decide (x.ctx ≠ c)) }
    let s2 := (s1.updCtx c (fun x => { x with queues := x.queues.map (fun q => { q with dec := .idle }) })).resetStart c
    (s2.addFld (Reg.ctxReqStat_dropped.at c) n).resetGoOn c

/-- R440: what a function-level reset clears of a context: as a context reset, then every page register, ring positions among them. -/
def State.ctxFlr (s : State) (c : CtxId) : State :=
  let s1 := (s.ctxReset c).resetDrop c
  (s1.clearPage c []).updCtx c (fun _ => {})

/-- The MSI-X tables, pending bits and power state of a function return to reset. -/
def State.fnReset (s : State) (n : Fin 16) : State :=
  { s with pcie := { s.pcie with
      msix := SMap.keepKeys (fun k => decide (k / 256 ≠ n.val)) s.pcie.msix
      pend := SMap.keepKeys (fun k => decide (k / 128 ≠ n.val)) s.pcie.pend
      held := s.pcie.held ||| BitVec.ofNat 16 (2 ^ n.val)
      d3 := s.pcie.d3 &&& ~~~ (BitVec.ofNat 16 (2 ^ n.val))
      flrWait := s.pcie.flrWait &&& ~~~ (BitVec.ofNat 16 (2 ^ n.val)) } }

/-- Whether a CTX_SAVE or CTX_RESTORE of context c is in execution. -/
def State.saving (s : State) (c : CtxId) : Bool :=
  s.running.any (fun x => decide (x.eng = .tmv) && (decide (Entry.opcode x.words = 5) || decide (Entry.opcode x.words = 6)) &&
    decide (Entry.target x.words = c))

/-- The function-level reset of virtual function n; it waits for a CTX_SAVE or CTX_RESTORE of its context (R443). -/
def State.vfReset (s : State) (n : Fin 16) : State :=
  if s.saving n then { s with pcie := { s.pcie with flrWait := s.pcie.flrWait ||| BitVec.ofNat 16 (2 ^ n.val) } }
  else (if s.vfHolds n then s.ctxFlr n else s).fnReset n

/-- The function-level resets that no longer wait apply. (DEDUCED, assumption 40) -/
def State.flrSettle (s : State) : List CtxId → State
  | [] => s
  | n :: l => (if s.pcie.flrWait.getLsbD n.val && !(s.saving n) then s.vfReset n else s).flrSettle l

/-- COMMAND_COMPLETE (R195): the context's oldest finished command, or its head, completes. -/
def execCommandComplete (c : CtxId) (e : Engine) (s : State) : Host.Outcome State Fault Refusal :=
  .next ((s.awaitPeers [] c e (s.queue c e).head (fun s => s.complete false c e)).flrSettle allCtx)

/-! ### Rings (R196, R198, R342) -/

/-- MSIX_TIMER_EXPIRY: the oldest counted record has waited the configured time (R198). -/
def execMsixTimerExpiry (c : CtxId) (s : State) : Host.Outcome State Fault Refusal :=
  .next (if 0 < (s.ctx c).irqPending ∧ s.flag (Reg.ctxCqIrq_en.at c) ∧ s.fld (Reg.ctxCqIrq_timer.at c) ≠ 0 then s.cqMessage c else s)

/-- A write of CTX_CQ_HEAD: refused and logged where it would place the head beyond the tail; else records move into the freed
places (R196, R210). -/
def State.cqHead (s : State) (c : CtxId) (v : W64) : State :=
  let x := s.ctx c
  let n := s.cqSize c
  let h := wBits v 0 16
  if h < n ∧ ringUsed n x.cqTail x.cqLap h (wBit v 16) ≤ n then
    let s1 := (s.setFld (Reg.ctxCqHead_head.at c) h).setFld (Reg.ctxCqHead_lap.at c) (wBits v 16 1)
    (s1.cqFlush c ((s1.ctx c).cbuf.length)).resetGoOn c
  else s.logEvent 6 1 (some c) v.toNat 0

/-- CQ_HEAD_WRITE (R196). -/
def execCqHeadWrite (c : CtxId) (v : W64) (s : State) : Host.Outcome State Fault Refusal := .next (s.cqHead c v)

/-- A write of CTX_TAIL_HEAD: entries move into the freed places (R342). (DESIGN CHOICE, assumption 64) -/
def State.tailHead (s : State) (c : CtxId) (v : W64) : State :=
  let s1 := (s.setFld (Reg.ctxTailHead_head.at c) (wBits v 0 20)).setFld (Reg.ctxTailHead_lap.at c) (wBits v 20 1)
  s1.tailFlush c ((s1.ctx c).tailBuf.length)

/-- TAIL_HEAD_WRITE (R342). -/
def execTailHeadWrite (c : CtxId) (v : W64) (s : State) : Host.Outcome State Fault Refusal := .next (s.tailHead c v)

/-! ### Queue enables (R184, R417) -/

/-- A held head is set aside: it is decoded afresh later. An admitted one stays a command of its request, which stays open (R184, R193). -/
def State.setAside (s : State) (c : CtxId) (e : Engine) : State :=
  let q := s.queue c e
  match q.dec with
  | .held w _ f =>
    let counted := match f with
      | .run | .reject _ | .abort => true
      | _ => false
    s.setQueue c e { q with dec := .idle, aside := if counted then some (Entry.tag w) else none }
  | _ => s

/-- Set aside the heads of the queues whose enable bit goes. -/
def State.setAsideL (s : State) (c : CtxId) (bits : Nat) : List Engine → State
  | [] => s
  | e :: l => (if Nat.testBit bits e.code then s.setAside c e else s).setAsideL c bits l

/-- The ABORTED record of a recorded command (R417, R441). -/
def TripRec.toCpl (r : TripRec) (time : W64) : CplRec :=
  { tag := r.tag, status := .aborted, tolerant := false, rerun := false, engine := r.eng, slot := r.slot % 4096, layerId := r.layerId,
    detail := r.detail, time := time, firstStatus := .aborted, irq := r.irq }

/-- R417: post the recorded commands of context c; `active` clears with the last of the device. -/
def State.postTrips (s : State) (c : CtxId) : State :=
  let mine := s.pwr.trips.filter (fun r => decide (r.ctx = c))
  let rest := s.pwr.trips.filter (fun r => decide (r.ctx ≠ c))
  if mine.isEmpty then s
  else ({ s with pwr := { s.pwr with trips := rest, tripActive := !rest.isEmpty } }).cqPostAll c (mine.map (fun r => TripRec.toCpl r s.time.ns))

/-- A write of CTX_CTRL.q_en (R184). -/
def State.setQEn (s : State) (c : CtxId) (new : Nat) : State :=
  let old := s.fld (Reg.ctxCtrl_qEn.at c)
  let s1 := ((s.setAsideL c (old &&& (15 - new)) allEng).setFld (Reg.ctxCtrl_qEn.at c) new).recheck c
  if new &&& (15 - old) = 0 then s1 else s1.postTrips c

/-- Whether a write of q_en sets a bit while a CTX_SAVE or CTX_RESTORE of the context is in execution (R245). (DEDUCED, assumption 3) -/
def State.qEnUndefined (s : State) (c : CtxId) (new : Nat) : Bool :=
  decide (new &&& (15 - s.fld (Reg.ctxCtrl_qEn.at c)) ≠ 0) && s.saving c

/-- QUEUE_ENABLE_WRITE (R184). (DEDUCED, assumption 3) -/
def execQueueEnableWrite (c : CtxId) (v : W64) (s : State) : Host.Outcome State Fault Refusal :=
  if s.qEnUndefined c (wBits v 4 4) then .fault .undefinedUnderSave else .next (s.setQEn c (wBits v 4 4))

/-- DEV_CTX_QUEUE_DISABLE (R442). -/
def execDevCtxQueueDisable (c : CtxId) (s : State) : Host.Outcome State Fault Refusal := .next (s.setQEn c 0)

/-! ### Aborts (R205) -/

/-- The held heads of a list of requests turn to ABORTED. -/
def abortHead (nums : List Nat) (q : Queue) : Queue :=
  match q.dec with
  | .held w r .run | .held w r (.reject _) => if nums.contains (Entry.reqNum w) then { q with dec := .held w r .abort } else q
  | _ => q

/-- Abort the open requests among a list of numbers. -/
def State.abortReqs (s : State) (c : CtxId) (nums : List Nat) : State :=
  let live := nums.filter (fun n => (s.openReq c n).isSome)
  s.updCtx c (fun x => { x with
    reqs := x.reqs.map (fun r => if live.contains r.num then { r with aborting := true } else r)
    queues := x.queues.map (abortHead live) })

/-- ABORT_REQUEST (R205). -/
def execAbortRequest (c : CtxId) (req : BitVec 48) (s : State) : Host.Outcome State Fault Refusal := .next (s.abortReqs c [req.toNat])

/-- ABORT_ALL (R205). -/
def execAbortAll (c : CtxId) (s : State) : Host.Outcome State Fault Refusal := .next (s.abortReqs c ((s.ctx c).reqs.map (·.num)))

/-! ### Counters written by the host (R199, R201) -/

/-- SYNC_ADD (R199). -/
def execSyncAdd (c : CtxId) (v : W64) (s : State) : Host.Outcome State Fault Refusal := .next (s.scnAdd c (wBits v 0 8) (wBits v 32 32))

/-- SYNC_COUNTER_WRITE (R199). -/
def execSyncCounterWrite (c : CtxId) (n : Fin 256) (v : W64) (s : State) : Host.Outcome State Fault Refusal :=
  .next (s.setSync c n (v.setWidth 32))

/-- A write of a system counter; a Moon's registers are read-only (R201). -/
def State.sysWrite (s : State) (n : Nat) (v : W64) : State := if s.isMoon then s else s.setSys n (v.setWidth 32)

/-- SYSTEM_COUNTER_WRITE (R201). -/
def execSystemCounterWrite (n : Fin 256) (v : W64) (s : State) : Host.Outcome State Fault Refusal := .next (s.sysWrite n v)

/-! ### Exact mode (R336, R348) -/

/-- The clock domains that Exact mode keeps awake: the four engines' and NST (R336, R398). (DESIGN CHOICE, assumption 52) -/
def exactDoms : List Nat := domRange 0 93

/-- A write of CTX_EXACT.req = 1; it also ends an entry sequence like a wake event (R406). (DEDUCED, assumption 65) -/
def State.exactEnter (s : State) (c : CtxId) : State :=
  if allCtx.any (fun d => decide (d ≠ c) && (s.ctx d).exactReq) then
    s.updCtx c (fun x => { x with exactReq := false, exactRefused := true })
  else ((s.updCtx c (fun x => { x with exactReq := true, exactRefused := false })).wakeDoms exactDoms).entryEvent 6 0 none

/-- EXACT_ENTER (R336). -/
def execExactEnter (c : CtxId) (s : State) : Host.Outcome State Fault Refusal := .next (s.exactEnter c)

/-- EXACT_ACTIVATE: entry steps 2 and 3 (R336). -/
def execExactActivate (c : CtxId) (s : State) : Host.Outcome State Fault Refusal :=
  .next (if (s.ctx c).exactReq && !(allCtx.any (fun d => (s.ctx d).exactActive)) && allCtx.all (fun d => decide (s.execCount d = 0)) then
      s.updCtx c (fun x => { x with exactActive := true })
    else s)

/-- A write of CTX_EXACT.req = 0. -/
def State.exactExit (s : State) (c : CtxId) : State := s.updCtx c (fun x => { x with exactReq := false, exactRefused := false })

/-- EXACT_EXIT (R336). -/
def execExactExit (c : CtxId) (s : State) : Host.Outcome State Fault Refusal := .next (s.exactExit c)

/-- EXACT_DEACTIVATE: exit step 5 (R336). -/
def execExactDeactivate (c : CtxId) (s : State) : Host.Outcome State Fault Refusal :=
  .next (if (s.ctx c).exactActive && !(s.ctx c).exactReq && decide (s.execCount c = 0) then
      s.updCtx c (fun x => { x with exactActive := false })
    else s)

end Sys2Proof.Machine
end

