-- ==== Sys2Proof/Machine/Time.lean ====
section
/-! DEFINITION. Device time (R367 to R370): what one CLK_CTL cycle does, and the commands of the TIME block. -/

namespace Sys2Proof.Machine

open Sys2Proof

/-- TIME_TRIM, signed (R376). -/
def State.trim (s : State) : Int := signed 32 (s.fld Reg.timeTrim_trim)

/-- What one step adds to device time, in 2^−32 ns: a CLK_CTL cycle adds 2 ns, 0xAAAA_AAAB and TIME_TRIM (R367); in PARK a TIME_XO
cycle adds 40 ns and 15 × TIME_TRIM (R397); in OFF and without power nothing. -/
def State.timeRate (s : State) : Int :=
  match s.pwr.mode with
  | .off | .unpowered => 0
  | .park => 40 * 2 ^ 32 + 15 * s.trim
  | _ => 2 * 2 ^ 32 + 0xAAAAAAAB + s.trim

/-- The most one step slews: 200 ppm of the cycle, in 2^−32 ns (R368). (DESIGN CHOICE, assumption 2) -/
def State.slewStep (s : State) : Int :=
  match s.pwr.mode with
  | .off | .unpowered => 0
  | .park => 34359738
  | _ => 2290649

/-- Device time as one number in 2^−32 ns. -/
def TimeSt.fine (t : TimeSt) : Int := (t.ns.toNat : Int) * 2 ^ 32 + t.frac

/-- Device time set from a number in 2^−32 ns, modulo 2^64 ns. -/
def TimeSt.setFine (t : TimeSt) (v : Int) : TimeSt :=
  { t with ns := BitVec.ofInt 64 (v / 2 ^ 32), frac := (v % 2 ^ 32).toNat }

/-- What a Moon in holdover adds in one step to hold its last rate (R369). (DEDUCED, assumption 55) -/
def State.heldRate (s : State) : Int :=
  if !s.time.holdover then 0
  else match s.pwr.mode with
    | .off | .unpowered => 0
    | .park => 15 * s.time.rate
    | _ => s.time.rate

/-- One step of device time (R367, R368): a pending TIME_SET takes effect with fraction 0; otherwise the count advances and slews.
(DESIGN CHOICE, assumption 2) -/
def State.timeTick (s : State) : State :=
  match s.time.pendingSet with
  | some v => { s with time := { s.time with ns := v, frac := 0, pendingSet := none } }
  | none =>
    let d := clampInt (- s.slewStep) s.slewStep s.time.slew
    { s with time := { s.time.setFine (s.time.fine + s.timeRate + s.heldRate + d) with slew := s.time.slew - d } }

/-- R370: a pulse on TIME_PPS_OUT ends after pps_width µs. -/
def State.ppsFall (s : State) : State :=
  if s.time.ppsHigh && decide (s.fld Reg.timeOutCfg_ppsWidth * 1000 ≤ s.time.ns.toNat % 1000000000) then
    { s with time := { s.time with ppsHigh := false } } else s

/-- R412: whether the driver domain of the output pads is on. -/
def State.padsOn (s : State) : Bool := s.up

/-- R412, R484: whether the output pads float: their driver domain is off and no hold is in force. -/
def State.padsFloat (s : State) : Bool := !s.padsOn && !s.pwr.padHold

/-- R370, R412: whether the time outputs may run: a Moon that is not locked holds them low unless `free`, and pads that are held or without
their driver do not. -/
def State.outsRun (s : State) : Bool :=
  s.padsOn && !s.pwr.padHold && (!s.isMoon || s.time.locked || s.flag Reg.timeOutCfg_free)

/-- The level of TIME_PPS_OUT: a disabled output is held low (R370). -/
def State.ppsOut (s : State) : Bool := s.time.ppsHigh && s.flag Reg.timeOutCfg_ppsEn && s.outsRun

/-- The level of TIME_10M_OUT: high in the first 50 ns of each 100 ns of device time (R370). -/
def State.m10Out (s : State) : Bool :=
  s.flag Reg.timeOutCfg_m10En && s.outsRun && decide (s.time.ns.toNat % 100 < 50)

/-- The level at the ball of a pad that drives `level`: none while it floats (R412). -/
def State.pad {α : Type} (s : State) (level : α) : Option α := if s.padsFloat then none else some level

/-- The three kinds of output pads of R412: TIME_PPS_OUT, TIME_10M_OUT and GPIO[15:0], which while held keep the level latched.
(DESIGN CHOICE, assumption 88) -/
def State.pads (s : State) : Option Bool × Option Bool × Option (BitVec 16) :=
  (s.pad s.ppsOut, s.pad s.m10Out, s.pad (if s.pwr.padHold then s.pwr.gpioHeld else s.pwr.gpio))

/-- Set the time at the next cycle; a Moon ignores the write (R368, R376). -/
def State.timeSetTo (s : State) (v : W64) : State :=
  if s.isMoon then s else { s with time := { s.time with pendingSet := some v } }

/-- TIME_SET (R368). -/
def execTimeSet (v : W64) (s : State) : Host.Outcome State Fault Refusal := .next (s.timeSetTo v)

/-- Slew by a signed number of nanoseconds, replacing any slew in progress; a Moon ignores the write (R368, R376). -/
def State.timeAdjBy (s : State) (v : W64) : State :=
  if s.isMoon then s else { s with time := { s.time with slew := signed 32 (wBits v 0 32) * 2 ^ 32 } }

/-- TIME_ADJ (R368). -/
def execTimeAdj (v : W64) (s : State) : Host.Outcome State Fault Refusal := .next (s.timeAdjBy v)

/-- A read of TIME_NOW: latch the fraction and return the integer part (R367). -/
def State.timeNowRead (s : State) : State :=
  { s with time := { s.time with latched := s.time.frac } }.emit (.readVal Reg.timeNow s.time.ns)

/-- TIME_NOW_READ (R367). -/
def execTimeNowRead (s : State) : Host.Outcome State Fault Refusal :=
  .next (s.actingRead 0 Reg.timeNow false .timeNow State.timeNowRead)

/-- R370: in the cycle in which device time reaches a whole second, an enabled TIME_PPS_OUT rises. (DESIGN CHOICE, assumption 63) -/
def State.ppsEdge (s : State) : State :=
  if s.flag Reg.timeOutCfg_ppsEn && s.outsRun && decide (s.time.ns.toNat % 1000000000 < 3) then
    { s with time := { s.time with ppsHigh := true } }.emit .pps
  else s

/-- PPS_EDGE (R370). -/
def execPpsEdge (s : State) : Host.Outcome State Fault Refusal := .next s.ppsEdge

end Sys2Proof.Machine
end

