-- ==== Sys2Proof/Machine/CafPlan.lean ====
section
/-! DEFINITION. The programming plan of a charge-array tile (R102 to R110, R115): the stuck map, encodings, remaps and deviations. -/

namespace Sys2Proof.Machine

open Sys2Proof

/-- What a plan starts from: the weight format and the weight of each row and output column set (0 beyond the programmed sectors). -/
structure PlanIn where
  int4 : Bool
  rows : Nat
  image : List Byte
  deriving DecidableEq, Repr

/-- A tile as the plan leaves it, with its log entries (code, detail) in order, the free spare pairs that it may not choose, and whether
a stuck cell could not be recorded (R104). -/
structure PlanOut where
  tile : Tile
  log : List (Nat × Nat) := []
  closed : List Nat := []
  lost : Bool := false
  deriving DecidableEq, Repr

/-- The outputs of a tile (R81). -/
def PlanIn.outs (p : PlanIn) : Nat := if p.int4 then 256 else 128

/-- The weight of an output in a row of the tile image, in the packing of R37. The codes −128 and −8, which lie outside the range of
R75, are taken as those weights. (DESIGN CHOICE, assumption 78) -/
def PlanIn.weight (p : PlanIn) (row out : Nat) : Int :=
  if p.rows ≤ row then 0
  else if p.int4 then
    signed 4 (((p.image.getD (128 * row + out / 2) 0).toNat / 16 ^ (out % 2)) % 16)
  else signed 8 (p.image.getD (128 * row + out) 0).toNat

/-- Every weight of a tile, in ascending row order and within a row in ascending output order. -/
def PlanIn.all (p : PlanIn) : List (Nat × Nat) := (List.range 1024).flatMap (fun r => (List.range p.outs).map (fun o => (r, o)))

/-- The physical columns of data pair d: its spare pair's once remapped (R106). -/
def Tile.cols (t : Tile) (d : Nat) : Nat × Nat :=
  match t.remap.find? (fun r => decide (r.pair = d)) with
  | some r => (2048 + 2 * r.spare, 2049 + 2 * r.spare)
  | none => (2 * d, 2 * d + 1)

/-- F of R105: the forced slices of one side of a weight. -/
def Tile.forced (t : Tile) (int4 : Bool) (row out : Nat) (neg : Bool) : List (Nat × Bool) :=
  (List.range (nSlices int4)).filterMap (fun k =>
    let c := t.cols (nSlices int4 * out + k)
    (t.stuckAt row (if neg then c.2 else c.1)).map (fun v => (k, v)))

/-- The encoding of a weight around the tile's stuck cells (R105). -/
def Tile.enc (t : Tile) (p : PlanIn) (row out : Nat) : Option Cell2 :=
  encodeW p.int4 (p.weight row out) (t.forced p.int4 row out false) (t.forced p.int4 row out true)

/-- The tile with data pair d remapped to a spare pair. -/
def Tile.withRemap (t : Tile) (d spare : Nat) : Tile := { t with remap := t.remap ++ [⟨spare, true, d⟩] }

/-- The forced slice of one side of a weight whose pair d lies on spare pair j: that of the spare column's own stuck cell (R106). -/
def Tile.spareForced (t : Tile) (int4 : Bool) (row d col : Nat) : List (Nat × Bool) :=
  ((t.stuckAt row col).map (fun v => (d % nSlices int4, v))).toList

/-- R106: whether every weight of data pair d encodes against spare pair j's own stuck cells. -/
def Tile.spareFits (t : Tile) (p : PlanIn) (d j : Nat) : Bool :=
  (List.range 1024).all (fun row =>
    (encodeW p.int4 (p.weight row (d / nSlices p.int4)) (t.spareForced p.int4 row d (2048 + 2 * j))
      (t.spareForced p.int4 row d (2049 + 2 * j))).isSome)

/-- The spare pair R106 chooses for data pair d: the lowest free one that fits; `closed` lists free pairs that are out of use. -/
def Tile.chooseSpare (t : Tile) (p : PlanIn) (closed : List Nat) (d : Nat) : Option Nat :=
  (List.range 32).find? (fun j => !(t.remap.any (fun r => decide (r.spare = j))) && !(closed.contains j) && t.spareFits p d j)

/-- Whether a data pair is already remapped. -/
def Tile.remapped (t : Tile) (d : Nat) : Bool := t.remap.any (fun r => decide (r.pair = d))

/-- Remap data pair d, with its log entry; unchanged where no spare pair fits. -/
def PlanOut.remap (o : PlanOut) (p : PlanIn) (d : Nat) : PlanOut :=
  if o.tile.remapped d then o
  else match o.tile.chooseSpare p o.closed d with
    | none => o
    | some j => { o with tile := o.tile.withRemap d j, log := o.log ++ [(2, d)] }

/-- R106 rule 2: remap the pairs that hold a weight's stuck cells, one at a time, until it encodes. -/
def PlanOut.repair (o : PlanOut) (p : PlanIn) (row out : Nat) : List Nat → PlanOut
  | [] => o
  | k :: l =>
    if (o.tile.enc p row out).isSome then o
    else
      let d := nSlices p.int4 * out + k
      let c := o.tile.cols d
      let bad := (o.tile.stuckAt row c.1).isSome || (o.tile.stuckAt row c.2).isSome
      (if bad then o.remap p d else o).repair p row out l

/-- R106 over a list of weights, in their order. -/
def PlanOut.repairAll (o : PlanOut) (p : PlanIn) : List (Nat × Nat) → PlanOut
  | [] => o
  | (row, out) :: l => (o.repair p row out (List.range (nSlices p.int4))).repairAll p l

/-- R106: a remap encodes every weight of its pair again, which may leave an earlier one unencodable; the weights are gone through
again until a pass remaps nothing. (DEDUCED, assumption 81) -/
def PlanOut.repairLoop (o : PlanOut) (p : PlanIn) : Nat → PlanOut
  | 0 => o
  | fuel + 1 =>
    let q := o.repairAll p p.all
    if q.tile.remap.length = o.tile.remap.length then q else q.repairLoop p fuel

/-- R115: remap the marked pairs in the order of their marks; a mark that cannot be met, that of a pair remapped before among them, is
dropped. (DESIGN CHOICE, assumption 78) -/
def PlanOut.retire (o : PlanOut) (p : PlanIn) : List Nat → PlanOut
  | [] => { o with tile := { o.tile with marks := [] } }
  | d :: l =>
    let q := o.remap p d
    (if q.tile.remap.length = o.tile.remap.length then { q with log := q.log ++ [(5, d)] } else q).retire p l

/-- R102, R104: record a stuck cell: in the field stuck list, or, once that is full, by remapping its column pair. A cell that the stuck map
holds with that value is not recorded again, a free spare pair that holds the cell is not chosen, a pair remapped away needs nothing, and a
spare pair in use cannot be replaced: the tile fails. (DESIGN CHOICE, assumption 78) -/
def PlanOut.record (o : PlanOut) (p : PlanIn) (k : StuckCell) : PlanOut :=
  if o.tile.stuckAt k.row k.col = some k.one then o
  else if o.tile.fieldStuck.length < 256 then
    { o with tile := { o.tile with fieldStuck := o.tile.fieldStuck ++ [k] }, log := o.log ++ [(3, k.col)] }
  else
    match o.tile.pairOf k.col with
    | none => if k.col < 2048 then o else { o with closed := (k.col - 2048) / 2 :: o.closed }
    | some d =>
      let q := o.remap p d
      if o.tile.remapped d || !(q.tile.remapped d) then { q with lost := true } else q

/-- Record a list of stuck cells, in the order given: a remap that a full list asks for does not look ahead to the cells behind it.
(DESIGN CHOICE, assumption 78) -/
def PlanOut.recordAll (o : PlanOut) (p : PlanIn) : List StuckCell → PlanOut
  | [] => o
  | k :: l => (o.record p k).recordAll p l

/-- R102: the plan of a tile, from the stuck cells newly found. -/
def plan (t : Tile) (p : PlanIn) (new : List StuckCell) : PlanOut :=
  let o1 := ({ tile := t : PlanOut }).recordAll p new
  (o1.retire p o1.tile.marks).repairLoop p 33

/-- The weights a planned tile cannot encode: (row, output, wanted, stored) with the nearest encodable value (R109). -/
def Tile.deviations (t : Tile) (p : PlanIn) : List (Nat × Nat × Int × Int) :=
  p.all.filterMap (fun x =>
    if (t.enc p x.1 x.2).isSome then none
    else (nearestEnc p.int4 (p.weight x.1 x.2) (t.forced p.int4 x.1 x.2 false) (t.forced p.int4 x.1 x.2 true)).map
      (fun v => (x.1, x.2, p.weight x.1 x.2, v.1)))

/-- The slices stored for a weight: its encoding, or under the permit that of the nearest encodable value (R105, R109). -/
def Tile.stored (t : Tile) (p : PlanIn) (row out : Nat) : Cell2 :=
  match t.enc p row out with
  | some c => c
  | none => ((nearestEnc p.int4 (p.weight row out) (t.forced p.int4 row out false) (t.forced p.int4 row out true)).map Prod.snd).getD (0, 0)

/-- The weights stored with an encoding other than the ordinary one (R116). -/
def Tile.reencodedCount (t : Tile) (p : PlanIn) : Nat :=
  (p.all.filter (fun x => decide (x.1 < p.rows) && decide (some (t.stored p x.1 x.2) ≠ ordinary p.int4 (p.weight x.1 x.2)))).length

/-- A 16-byte deviation record (R110); a stored value outside the format's codes wraps in its byte. (DESIGN CHOICE, assumption 78) -/
def deviationRec (tile : Nat) (x : Nat × Nat × Int × Int) : List Byte :=
  leBytes 2 tile ++ leBytes 2 x.1 ++ leBytes 1 x.2.1 ++ leBytes 1 (unsigned 8 x.2.2.1) ++ leBytes 1 (unsigned 8 x.2.2.2) ++
  List.replicate 9 0

/-- The value row programming writes to a physical column: the slice bit of the pair in use there, else 0. -/
def Tile.rowBit (t : Tile) (p : PlanIn) (row col : Nat) : Bool :=
  match t.pairOf col with
  | none => false
  | some d =>
    let c := t.stored p row (d / nSlices p.int4)
    Nat.testBit (if col % 2 = 0 then c.1 else c.2) (d % nSlices p.int4)

end Sys2Proof.Machine
end

