-- ==== Sys2Proof/Machine/Fpc.lean ====
section
/-! DEFINITION. The Flash Program Controller (chapter 10): the unlock sequence, launches and their results, page and row programs,
erases with their suspension, relocation. -/

namespace Sys2Proof.Machine

open Sys2Proof

/-! ### The unlock sequence (R291 to R293) -/

/-- Replace the FPC's state. -/
def State.setFpc (s : State) (x : Fpc) : State := { s with fpc := x }

/-- R292: relock; the sixteenth relock with no launch between starts the lockout. -/
def State.fpcRelock (s : State) : State :=
  let n := s.fpc.relocks + 1
  (s.setFpc { s.fpc with lock := 0, relocks := n, lockout := s.fpc.lockout || decide (16 ≤ n) }).addFld Reg.fpcLock_badSeq 1

/-- Whether a requester is the management controller; none: a virtual function, which reaches no FPC register. -/
def sideOf : Sys2Proof.Requester → Option Bool
  | .fn 0 => some false
  | .mgc => some true
  | .fn _ => none

/-- A sequence write of a requester: ignored and counted while the other one holds the claim (R293). -/
def State.seqWrite (s : State) (who : Requester) (f : Bool → State) : State :=
  match sideOf who with
  | none => s
  | some g => if s.fpc.lock ≠ 0 ∧ s.fpc.owner ≠ g then s.addFld Reg.fpcLock_foreign 1 else f g

/-- A write of FPC_KEY (R291, R292). -/
def State.fpcKey (s : State) (who : Requester) (v : W64) : State :=
  if s.fpc.lockout then s
  else s.seqWrite who (fun g =>
    if s.fpc.lock = 0 ∧ wBits v 0 16 = 0xA5C3 then s.setFpc { s.fpc with lock := 1, owner := g }
    else if s.fpc.lock = 1 ∧ wBits v 0 16 = 0x3C5A then s.setFpc { s.fpc with lock := 2 }
    else s.fpcRelock)

/-- FPC_KEY_WRITE (R291). -/
def execFpcKeyWrite (who : Requester) (v : W64) (s : State) : Host.Outcome State Fault Refusal := .next (s.fpcKey who v)

/-- A write of FPC_CMD (R291). -/
def State.fpcCmd (s : State) (who : Requester) (v : W64) : State :=
  s.seqWrite who (fun _ => if s.fpc.lock = 2 then s.setFpc { s.fpc with lock := 3, cmd := v } else s.fpcRelock)

/-- FPC_CMD_WRITE (R291). -/
def execFpcCmdWrite (who : Requester) (v : W64) (s : State) : Host.Outcome State Fault Refusal := .next (s.fpcCmd who v)

/-- A write of FPC_ADDR (R291). -/
def State.fpcAddr (s : State) (who : Requester) (v : W64) : State :=
  s.seqWrite who (fun _ => if s.fpc.lock = 3 then s.setFpc { s.fpc with lock := 4, addr := v } else s.fpcRelock)

/-- FPC_ADDR_WRITE (R291). -/
def execFpcAddrWrite (who : Requester) (v : W64) (s : State) : Host.Outcome State Fault Refusal := .next (s.fpcAddr who v)

/-- FPC_SEQUENCE_TIMEOUT (R292). -/
def execFpcSequenceTimeout (s : State) : Host.Outcome State Fault Refusal := .next (if s.fpc.lock = 0 then s else s.fpcRelock)

/-- FPC_LOCKOUT_EXPIRY (R292). -/
def execFpcLockoutExpiry (s : State) : Host.Outcome State Fault Refusal :=
  .next (if s.fpc.lockout then s.setFpc { s.fpc with lockout := false, relocks := 0 } else s)

/-! ### Results (R294, R297) -/

/-- Post a result to its requester's queue; the physical function may get a message. (DEDUCED, assumption 59) -/
def State.postResult (s : State) (mgc : Bool) (r : FpcResult) : State :=
  if mgc then s.setFpc { s.fpc with resMgc := s.fpc.resMgc ++ [r] }
  else
    let s1 := s.setFpc { s.fpc with resHost := s.fpc.resHost ++ [r] }
    if s1.flag Reg.fpcCfg_irqEn then s1.sendMsix 0 (s1.fld Reg.fpcCfg_vector) else s1

/-- The results of a requester. -/
def Fpc.results (x : Fpc) (mgc : Bool) : List FpcResult := if mgc then x.resMgc else x.resHost

/-- The launches of a requester whose results it has not popped; a launch turned away with QFULL is none (R294). -/
def Fpc.outstanding (x : Fpc) (mgc : Bool) : Nat :=
  (x.ops.filter (fun o => decide (o.mgc = mgc))).length + ((x.results mgc).filter (fun r => decide (r.code ≠ 8))).length

/-- Remove the oldest result of a requester. -/
def State.popResult (s : State) (who : Requester) : State :=
  match sideOf who with
  | some true => s.setFpc { s.fpc with resMgc := s.fpc.resMgc.drop 1 }
  | some false => s.setFpc { s.fpc with resHost := s.fpc.resHost.drop 1 }
  | none => s

/-- FPC_RESULT_POP (R294). -/
def execFpcResultPop (who : Requester) (s : State) : Host.Outcome State Fault Refusal := .next (s.popResult who)

/-! ### Operations: their fields and what they touch -/

/-- Whether an operation takes its data from a staging buffer. -/
def FpcOp.buffered (o : FpcOp) : Bool := [1, 4, 6].contains o.op
/-- The staging buffer. -/
def FpcOp.buf (o : FpcOp) : Nat := wBits o.data 0 3
/-- Whether the buffer stays with the FPC. -/
def FpcOp.keep (o : FpcOp) : Bool := wBit o.data 9
/-- PROG_PAGES: the object. -/
def FpcOp.object (o : FpcOp) : Nat := wBits o.addr 0 18
/-- PROG_PAGES: the first flash page. -/
def FpcOp.firstPage (o : FpcOp) : Nat := wBits o.addr 18 30
/-- PROG_PAGES: the pages. -/
def FpcOp.count (o : FpcOp) : Nat := wBits o.data 3 6 + 1
/-- A physical address of R277 as a page number. -/
def FpcOp.page (o : FpcOp) : Nat := wBits o.addr 0 29
/-- The block of that page, plane and die included. -/
def FpcOp.block (o : FpcOp) : Nat := o.page / 2048
/-- CAF operations: the tile. -/
def FpcOp.tile (o : FpcOp) : Nat := wBits o.addr 0 10

/-- The block of a plane-and-die block number within its plane. -/
def blockIn (b : Nat) : Nat := b % 128

/-- The global plane of a block (R275). -/
def planeOf (b : Nat) : Nat := b / 128

/-- Whether a block holds object pages (R275). -/
def userBlock (b : Nat) : Bool := decide (blockIn b < 64)

/-- The firmware slot whose block this is: 0 A, 1 B (R276). -/
def fwSlot (b : Nat) : Option Nat :=
  if blockIn b = 64 then (if planeOf b < 8 then some 0 else if 1024 ≤ planeOf b ∧ planeOf b < 1032 then some 1 else none) else none

/-- The state of a block: reserve blocks that are in no firmware slot are RESERVED, and one whose erase is launched is ERASING (R276,
R284). -/
def State.blkState (s : State) (b : Nat) : BlkState :=
  if !(userBlock b) && (fwSlot b).isNone then .reserved
  else if s.fpc.ops.any (fun o => decide (o.op = 2) && decide (o.block = b)) then .erasing
  else (s.blk b).state

/-- The sectors a CAF_ERASE names. -/
def FpcOp.sectors (o : FpcOp) : List Nat := setBitsBelow 16 (wBits o.addr 16 16)

/-- The sectors a launched CAF_ERASE has still to erase. -/
def FpcOp.ahead (o : FpcOp) : List Nat := if o.phase = .queued then o.sectors else o.unit :: o.todo

/-- The state of a sector: one that a launched erase will reach is ERASING. -/
def State.secState (s : State) (tile m : Nat) : SecState :=
  if s.fpc.ops.any (fun o => decide (o.op = 5) && decide (o.tile = tile) && o.ahead.contains m) then .erasing else (s.sector tile m).state

/-- Replace a block's entry. -/
def State.setBlk (s : State) (b : Nat) (x : Blk) : State := { s with blks := SMap.put {} s.blks b x }

/-- Update a block's entry. -/
def State.updBlk (s : State) (b : Nat) (f : Blk → Blk) : State := s.setBlk b (f (s.blk b))

/-- The plane of flash page q of an object (R280). -/
def planeOfPage (idx q : Nat) : Nat := (idx % 2048 + q) % 2048

/-- The planes an operation works on. -/
def FpcOp.planes (o : FpcOp) : List Nat :=
  match o.op with
  | 1 => (List.range o.count).map (fun i => planeOfPage o.object (o.firstPage + i))
  | 2 | 3 | 6 => [planeOf o.block]
  | _ => []

/-- Whether two operations work on one plane or one tile (R294). -/
def FpcOp.clash (a b : FpcOp) : Bool :=
  a.planes.any (fun p => b.planes.contains p) ||
  ((decide (a.op = 4) || decide (a.op = 5)) && (decide (b.op = 4) || decide (b.op = 5)) && decide (a.tile = b.tile))

/-- Whether an operation is suspended. -/
def FpcOp.suspended (o : FpcOp) : Bool := [.suspendedRead, .suspendedHost, .suspendedEntry].contains o.phase

/-- The operation that an id names among those a command acts on: the oldest, where an erase has stayed suspended over 256 launches. -/
def State.fpcOp (s : State) (id : Nat) (p : FpcOp → Bool) : Option FpcOp := s.fpc.ops.find? (fun o => decide (o.id = id) && p o)

/-- Replace an operation. -/
def State.setOp (s : State) (o : FpcOp) : State :=
  s.setFpc { s.fpc with ops := s.fpc.ops.map (fun x => if x.seq = o.seq then o else x) }

/-- Whether an operation gives pulses or is about to. -/
def FpcOp.going (o : FpcOp) : Bool := [.running, .resuming, .reporting].contains o.phase

/-- R304: whether another operation runs on an operation's plane or tile. -/
def State.planeRuns (s : State) (o : FpcOp) : Bool :=
  s.fpc.ops.any (fun x => decide (x.seq ≠ o.seq) && x.clash o && decide (x.phase = .running))

/-- An erase resumes: at once, or when the program that runs on its plane ends (R286, R304). -/
def State.resumeOp (s : State) (o : FpcOp) : State :=
  s.setOp { o with phase := if s.planeRuns o then .resuming else .running }

/-- The erases that wait to resume go on where their plane is free. -/
def State.resumeL (s : State) : List FpcOp → State
  | [] => s
  | o :: l => (if o.phase = .resuming then s.resumeOp o else s).resumeL l

/-- The TMV gets a buffer back (R26, R295). -/
def State.releaseBuf (s : State) (b : Nat) : State :=
  let m := ~~~ (BitVec.ofNat 8 (2 ^ b))
  s.setFpc { s.fpc with held := s.fpc.held &&& m, verified := s.fpc.verified &&& m }

/-- An operation ends: its buffer is released unless kept or not its own any more, and its result is posted. -/
def State.finishOp (s : State) (o : FpcOp) (code : Nat) : State :=
  let s1 := s.setFpc { s.fpc with ops := s.fpc.ops.filter (fun x => decide (x.seq ≠ o.seq)) }
  let s2 := if o.buffered && !o.keep && decide (code ≠ 6) then s1.releaseBuf o.buf else s1
  (s2.resumeL s2.fpc.ops).postResult o.mgc { id := o.id, op := o.op, code := code, fail := o.fail, fails := o.fails }

/-! ### Acceptance (R281, R282, R285, R295, R296, R452) -/

/-- Whether the named staging buffer is held and its shard has passed its check (R26, R295). -/
def State.bufReady (s : State) (o : FpcOp) : Bool := s.fpc.held.getLsbD o.buf && s.fpc.verified.getLsbD o.buf

/-- The flash pages of an object. -/
def Obj.flashPages (o : Obj) : Nat := ceilDiv o.size 4

/-- The slot of a tile, with its logical tile set and letter. -/
def State.tileHome (s : State) (tile : Nat) : Option (Nat × Nat × TsetSlot) := (s.tileSlot tile).map (fun e => (e.1 / 2, e.1 % 2, e.2))

/-- R296: whether a tile's slot is READY or RETIRING, or an admitted request is bound to it. -/
def State.tileBound (s : State) (tile : Nat) : Bool :=
  (s.tileHome tile).any (fun h => decide (h.2.2.state = .ready) || decide (h.2.2.state = .retiring) ||
    (s.tsetModel h.1).any (fun m => decide (0 < s.boundCount m.1 h.2.1)))

/-- The sectors that CAF_TILE programs (R295). -/
def State.tileSectors (s : State) (tile : Nat) : Nat :=
  match s.tileHome tile with
  | none => 16
  | some h =>
    let x := h.2.2
    if (tile - x.firstTile) % x.nRb + 1 = x.nRb then ceilDiv x.rowsLast 64 else 16

/-- Whether an operation may write a firmware slot's block (R452): firmware that RECOVERY started was booted from no slot (R449). -/
def State.fwOpen (s : State) (b : Nat) : Bool :=
  match fwSlot b with
  | none => true
  | some k => decide (s.sec.upState = 1) && decide (b2n s.sec.upSlot = k) && !(decide (s.sec.state = 2) && decide (b2n s.sec.slot = k))

/-- Whether an operation carries a reserved bit or field (R295); `cmd` is FPC_CMD as written. -/
def fpcReserved (cmd : W64) (o : FpcOp) : Bool :=
  decide (wBits cmd 10 54 ≠ 0) || (wBit cmd 8 && decide (o.op ≠ 2)) || (wBit cmd 9 && decide (o.op ≠ 4)) ||
  (match o.op with
    | 1 => decide (wBits o.addr 48 16 ≠ 0) || decide (wBits o.data 10 54 ≠ 0)
    | 2 => decide (wBits o.addr 29 35 ≠ 0) || decide (wBits o.addr 0 11 ≠ 0) || decide (o.data ≠ 0xD0)
    | 3 => decide (wBits o.addr 29 35 ≠ 0) || decide (wBits o.addr 0 11 ≠ 0) || decide (o.data ≠ 0)
    | 4 => decide (wBits o.addr 10 54 ≠ 0) || decide (wBits o.data 6 3 ≠ 0) || decide (wBits o.data 10 54 ≠ 0)
    | 5 => decide (wBits o.addr 10 6 ≠ 0) || decide (wBits o.addr 32 32 ≠ 0) || decide (o.data ≠ 0xD0)
    | 6 => decide (wBits o.addr 29 35 ≠ 0) || decide (wBits o.data 10 54 ≠ 0)
    | _ => true)

/-- The result with which a launch is turned away, if it is (R295 to R297). (DEDUCED, assumption 59) -/
def State.fpcCheck (s : State) (cmd : W64) (o : FpcOp) : Option Nat :=
  if fpcReserved cmd o then some 7
  else match o.op with
    | 1 =>
      let x := s.obj o.object
      if x.valid ∧ x.home ≠ 2 then some 7
      else if x.valid ∧ x.flashPages < o.firstPage + o.count then some 7
      else if !(s.bufReady o) then some 6
      else if !x.valid || !x.inst then some 2
      else if o.firstPage ≠ x.nextPage then some 3
      else none
    | 2 =>
      if !(userBlock o.block) && (fwSlot o.block).isNone then some 7
      else if !(s.fwOpen o.block) then some 2
      else if (s.blk o.block).live ≠ 0 then some 5
      else if [.full, .opened, .erased, .undefined, .eraseIncomplete].contains (s.blkState o.block) then none else some 2
    | 3 =>
      if !(userBlock o.block) then some 7
      else if [.full, .opened, .undefined].contains (s.blkState o.block) then none else some 2
    | 4 =>
      if !(s.bufReady o) then some 6
      else if s.tileBound o.tile then some 4
      else if !((s.tileHome o.tile).any (fun h => decide (h.2.2.state = .installing))) then some 2
      else if (List.range (s.tileSectors o.tile)).all (fun m => decide (s.secState o.tile m = .erased)) then none else some 2
    | 5 =>
      if s.tileBound o.tile then some 4
      else if o.sectors.any (fun m => decide (s.secState o.tile m = .bad) || decide (s.secState o.tile m = .erasing)) then some 2
      else none
    | _ =>
      if (fwSlot o.block).isNone then some 7
      else if !(s.bufReady o) then some 6
      else if !(s.fwOpen o.block) then some 2
      else if ¬ (s.blkState o.block = .erased ∨ s.blkState o.block = .opened) then some 2
      else if o.page % 2048 < (s.blk o.block).ptr then some 3
      else none

/-- The first page of an object from page q on that is not programmed. -/
def State.nextUnmapped (s : State) (idx : Nat) : Nat → Nat → Nat
  | 0, q => q
  | fuel + 1, q => if (s.physPage idx q).isSome then s.nextUnmapped idx fuel (q + 1) else q

/-- What an accepted launch does at once: the object's next page moves on, past pages that are programmed already (R281). -/
def State.launchMark (s : State) (o : FpcOp) : State :=
  if o.op = 1 then
    s.setObj o.object { s.obj o.object with nextPage := s.nextUnmapped o.object (List.length s.pmap) (o.firstPage + o.count) }
  else s

/-- A launch (R291, R294): it takes the next id; beyond 16 outstanding it posts QFULL, turned away it posts its result. (DEDUCED, assumption 59) -/
def State.fpcLaunch (s : State) (mgc : Bool) (v : W64) : State :=
  let f := s.fpc
  let o : FpcOp := { id := f.nextId, seq := f.launches, op := wBits f.cmd 0 8, mgc := mgc, addr := f.addr, data := v, permit := wBit f.cmd 9,
                     hold := wBit f.cmd 8, param0 := s.reg Reg.fpcParam0, param1 := s.reg Reg.fpcParam1 }
  let s1 := s.setFpc { f with lock := 0, relocks := 0, nextId := (f.nextId + 1) % 256, launches := f.launches + 1 }
  if 16 ≤ f.outstanding mgc then s1.postResult mgc { id := o.id, op := o.op, code := 8 }
  else
    match s.fpcCheck f.cmd o with
    | none => (s1.setFpc { s1.fpc with ops := s1.fpc.ops ++ [o] }).launchMark o
    | some k =>
      let s2 := if o.buffered ∧ !o.keep ∧ k ≠ 6 then s1.releaseBuf o.buf else s1
      s2.postResult mgc { id := o.id, op := o.op, code := k }

/-- A write of FPC_DATA: in its place it launches, except that an erase needs its confirm value (R291, R292). -/
def State.fpcData (s : State) (who : Requester) (v : W64) : State :=
  s.seqWrite who (fun g =>
    let op := wBits s.fpc.cmd 0 8
    if s.fpc.lock ≠ 4 ∨ ((op = 2 ∨ op = 5) ∧ wBits v 0 16 ≠ 0xD0) then s.fpcRelock else s.fpcLaunch g v)

/-- The launch of one operation: the write of FPC_DATA while that operation's code is latched. -/
def State.launchOf (s : State) (op : Nat) (who : Requester) (v : W64) : State :=
  if s.fpc.lock = 4 ∧ wBits s.fpc.cmd 0 8 = op then s.fpcData who v else s

/-- PROG_PAGES (R281). -/
def execProgPages (who : Requester) (v : W64) (s : State) : Host.Outcome State Fault Refusal := .next (s.launchOf 1 who v)
/-- ERASE_BLOCK (R285). -/
def execEraseBlock (who : Requester) (v : W64) (s : State) : Host.Outcome State Fault Refusal := .next (s.launchOf 2 who v)
/-- RELOCATE (R299). -/
def execRelocate (who : Requester) (v : W64) (s : State) : Host.Outcome State Fault Refusal := .next (s.launchOf 3 who v)
/-- CAF_TILE (R102). -/
def execCafTile (who : Requester) (v : W64) (s : State) : Host.Outcome State Fault Refusal := .next (s.launchOf 4 who v)
/-- CAF_ERASE (R98). -/
def execCafErase (who : Requester) (v : W64) (s : State) : Host.Outcome State Fault Refusal := .next (s.launchOf 5 who v)
/-- FW_PAGE (R452). -/
def execFwPage (who : Requester) (v : W64) (s : State) : Host.Outcome State Fault Refusal := .next (s.launchOf 6 who v)

/-! ### The fill position (R280, R282, R299) -/

/-- The fill block of a plane: its lowest OPEN user block without retire_pending, else its lowest ERASED one; `not` is passed over. -/
def State.fillBlock (s : State) (plane : Nat) (skip : Option Nat) : Option Nat :=
  if s.fac.calBad.getLsbD (plane / 128) then none
  else
    let l := ((List.range 64).map (fun j => plane * 128 + j)).filter (fun b => decide (some b ≠ skip))
    (l.find? (fun b => decide (s.blkState b = .opened) && !(s.blk b).retire)).or
      (l.find? (fun b => decide (s.blkState b = .erased) && !(s.blk b).retire))

/-- The object a physical page is mapped to. -/
def State.ownerOf (s : State) (page : Nat) : Option Nat :=
  (List.find? (fun (e : Nat × Nat) => decide (e.2 = page + 1)) s.pmap).map (fun e => e.1 / 2 ^ 28)

/-- Whether the page at a block's pointer would follow a page of an object that is not INSTALLING (R280). -/
def State.followsLive (s : State) (b : Nat) : Bool :=
  let x := s.blk b
  x.liveEnd || (decide (0 < x.ptr) && (s.ownerOf (b * 2048 + (x.ptr - 1))).any (fun i => !(s.obj i).inst))

/-- The next word-line boundary. -/
def wordLine (p : Nat) : Nat := (p + 3) / 4 * 4

/-- A block's entry as a new record is written for it (R289). -/
def Blk.record (b : Blk) : Blk :=
  { b with was := { state := b.state, n := b.ptr, pe := b.pe, inFlight := b.inFlight, eraseIntent := b.eraseIntent }, cut := false }

/-- A sector as a new record is written for it (R289). -/
def Sector.record (x : Sector) : Sector :=
  { x with was := { state := x.state, n := x.rows, pe := x.pe, inFlight := x.inFlight, eraseIntent := x.eraseIntent }, cut := false }

/-- A program takes page p of a block: its pointer passes it, and its in-flight record is written (R282, R289). -/
def State.takePage (s : State) (b p : Nat) (live : Bool) : State :=
  s.updBlk b (fun x => { x.record with ptr := p + 1, state := (if p + 1 = 2048 then .full else .opened), inFlight := true, liveEnd := live })

/-- Take the fill position of a plane; `moving` says that a RELOCATE of block `skip` does so, which starts at a word line, and `last` is
the page that it has programmed last, which its next one may follow (R299).
Answers the physical page. A position that skipping leaves outside the block makes it FULL, and the search goes on. -/
def State.fillPage (s : State) (plane : Nat) (moving : Bool) (skip last : Option Nat) : Nat → State × Option Nat
  | 0 => (s, none)
  | fuel + 1 =>
    match s.fillBlock plane skip with
    | none => (s, none)
    | some b =>
      let x := s.blk b
      let p := if moving then (if last = some (b * 2048 + x.ptr - 1) then x.ptr else wordLine x.ptr) else if s.followsLive b then wordLine x.ptr else x.ptr
      if p < 2048 then (s.takePage b p moving, some (b * 2048 + p))
      else (s.updBlk b (fun x => { x with ptr := 2048, state := .full })).fillPage plane moving skip last fuel

/-- Write 16 KiB to a physical page with the poison of its words (R387); its codewords decode afresh. -/
def State.programPage (s : State) (page : Nat) (data : List SB) : State :=
  let s1 := s.pokes (kFlash page 0) (data.map (·.1))
  let bad := (List.range 2048).filter (fun w => ((data.drop (8 * w)).take 8).any (·.2))
  { bad.foldl (fun (s : State) w => s.setPoison (kFlash page 0 / 8 + w) true) s1 with
    flashErr := SMap.keepKeys (fun k => decide (k / 4 ≠ page)) s.flashErr }

/-- Map flash page q of an object to a physical page, or unmap it: live counts follow (R280, R284). -/
def State.mapPage (s : State) (idx q : Nat) (page : Option Nat) : State :=
  let s1 := match s.physPage idx q with
    | some old => s.pageDead old
    | none => s
  match page with
  | none => { s1 with pmap := SMap.put 0 s1.pmap (pmapKey idx q) 0 }
  | some p => ({ s1 with pmap := SMap.put 0 s1.pmap (pmapKey idx q) (p + 1) }).updBlk (p / 2048) (fun b => { b with live := b.live + 1 })

/-- A page program has ended: its block's in-flight record is closed. -/
def State.landed (s : State) (page : Nat) : State := s.updBlk (page / 2048) (fun b => { b.record with inFlight := false })

/-- A page program that reached the pulse limit: the page is skipped and its block retires (R283). -/
def State.badPage (s : State) (page : Nat) : State :=
  s.updBlk (page / 2048) (fun b => { b.record with inFlight := false, retire := true, fails := satAdd 8 b.fails 1 })

/-- A 16 KiB unit of an operation's staging buffer, with its poison. -/
def State.stagePage (s : State) (o : FpcOp) (i : Nat) : List SB :=
  (List.range 16384).map (fun j => s.peek (kStage o.buf (16384 * i + j)))

/-- The read of `n` bytes of a staging buffer counts its words; they have no tensor address (R385, R392). (DESIGN CHOICE, assumption 79) -/
def State.noteStage (s : State) (o : FpcOp) (off n : Nat) : State :=
  (List.range (n / 8)).foldl (fun (s : State) w => s.noteWord 2 none (kStage o.buf off / 8 + w) 0) s

/-- Program a page with a unit of the operation's staging buffer. -/
def State.programUnit (s : State) (o : FpcOp) (page i : Nat) : State :=
  (s.noteStage o (16384 * i) 16384).programPage page (s.stagePage o i)

/-! ### PROG_PAGES and FW_PAGE -/

/-- R281: a page that is not programmed after all, for want of room or of its data, stays the object's next one; the programs of later pages
that have not started are out of order. -/
def State.progStuck (s : State) (o : FpcOp) (q code : Nat) : State :=
  let s1 := s.setObj o.object { s.obj o.object with nextPage := o.firstPage + q }
  let later := s.fpc.ops.filter (fun x => decide (x.op = 1) && decide (x.object = o.object) && decide (x.phase = .queued) && decide (x.seq ≠ o.seq))
  later.foldl (fun (s : State) x => s.finishOp x 3) (s1.finishOp o code)

/-- Take the fill position of the plane of page q of a PROG_PAGES, which names the page from then on. (DEDUCED, assumption 59) -/
def State.progPlace (s : State) (o : FpcOp) (q : Nat) : State × Option Nat :=
  let r := s.fillPage (planeOfPage o.object (o.firstPage + q)) false none none 65
  match r.2 with
  | none => r
  | some p => (if (r.1.obj o.object).valid then r.1.mapPage o.object (o.firstPage + q) (some p) else r.1, some p)

/-- Start the programs of pages of a PROG_PAGES, which lie on planes of their own (R280, R294), in ascending order, up to the first whose
plane has no room. -/
def State.progPages (s : State) (o : FpcOp) : List Nat → State × FpcOp
  | [] => (s, o)
  | q :: l =>
    let r := s.progPlace o q
    match r.2 with
    | none => (r.1, { o with stuck := some q })
    | some p => r.1.progPages { o with rest := o.rest ++ [(q, p, 0)] } l

/-- The next of a PROG_PAGES' pages in progress; with none left the operation ends. -/
def State.progNext (s : State) (o : FpcOp) : State :=
  match o.rest, o.stuck with
  | (q, p, n) :: l, _ => s.setOp { o with phase := .running, unit := q, target := p, pulses := n, rest := l }
  | [], some q => s.progStuck o q 9
  | [], none => s.finishOp o 0

/-- A PROG_PAGES starts. -/
def State.progBegin (s : State) (o : FpcOp) : State :=
  let r := s.progPages o (List.range o.count)
  r.1.progNext r.2

/-- A pulse of a PROG_PAGES ended: of the first of its pages in progress. At the limit the page moves to the plane's next fill position
(R283). (DESIGN CHOICE, assumption 93) -/
def State.progPulse (s : State) (o : FpcOp) (good : Bool) : State :=
  if good then ((s.programUnit o o.target o.unit).landed o.target).progNext o
  else if o.pulses + 1 < 16 then s.setOp { o with pulses := o.pulses + 1 }
  else
    let o1 : FpcOp := { o with fail := true, fails := satAdd 16 o.fails 1 }
    let r := (s.badPage o.target).progPlace o o.unit
    match r.2 with
    | some p => r.1.setOp { o1 with target := p, pulses := 0 }
    | none =>
      let s1 := if (r.1.obj o.object).valid then r.1.mapPage o.object (o.firstPage + o.unit) none else r.1
      s1.progNext { o1 with stuck := some (min o.unit (o.stuck.getD o.unit)) }

/-- A pulse of an FW_PAGE ended. -/
def State.fwPulse (s : State) (o : FpcOp) (good : Bool) : State :=
  if good then ((s.programUnit o o.target (wBits o.data 3 6)).landed o.target).finishOp o 0
  else if o.pulses + 1 < 16 then s.setOp { o with pulses := o.pulses + 1 }
  else (s.badPage o.target).finishOp { o with fail := true, fails := 1 } 1

/-! ### RELOCATE (R299) -/

/-- Whether a physical page is live (R284). -/
def State.pageLive (s : State) (p : Nat) : Bool :=
  List.any s.pmap (fun (e : Nat × Nat) => decide (e.2 = p + 1)) || s.orphans.any (fun o => o.pages.contains p)

/-- The live pages of a block in ascending order: those mapped, and those of deleted objects whose slot is not STALE. -/
def State.livePages (s : State) (b : Nat) : List Nat :=
  ((List.range 2048).map (b * 2048 + ·)).filter s.pageLive

/-- Start the move of the next page that is still live, or end. -/
def State.moveNext (s : State) (o : FpcOp) : State :=
  match o.todo.dropWhile (fun p => !(s.pageLive p)) with
  | [] => s.finishOp o 0
  | p :: l =>
    let o := { o with todo := p :: l }
    let last := if o.unit = 0 then none else some o.target
    let r := s.fillPage (planeOf o.block) true (some o.block) last 65
    match r.2 with
    | none => r.1.finishOp o 9
    | some p => r.1.setOp { o with phase := .running, unit := o.unit + 1, target := p, pulses := 0 }

/-- A verified move: the page's data lies in its new place, and whatever named the old one names it. The words of a codeword that could
not be read are written poisoned (R278, R387). (DEDUCED, assumption 59) -/
def State.moveDone (s : State) (src dst : Nat) : State :=
  let data := (List.range 16384).map (fun j => s.peekLoc (.t2 (some src) j))
  let s1 := ((s.pageRead none src).programPage dst data).landed dst
  let s2 := { s1 with
    pmap := List.map (fun (e : Nat × Nat) => (e.1, if e.2 = src + 1 then dst + 1 else e.2)) s1.pmap
    orphans := s1.orphans.map (fun (o : Orphan) => { o with pages := o.pages.map (fun p => if p = src then dst else p) }) }
  (s2.pageDead src).updBlk (dst / 2048) (fun b => { b with live := b.live + 1 })

/-- A pulse of a RELOCATE ended; a page whose object was deleted meanwhile is mapped nowhere, and its copy neither. -/
def State.movePulse (s : State) (o : FpcOp) (good : Bool) : State :=
  if good then
    match o.todo with
    | [] => s.finishOp o 0
    | p :: l => (if s.pageLive p then s.moveDone p o.target else s.landed o.target).moveNext { o with todo := l }
  else if o.pulses + 1 < 16 then s.setOp { o with pulses := o.pulses + 1 }
  else (s.badPage o.target).moveNext { o with fail := true, fails := satAdd 16 o.fails 1 }

/-! ### CAF_TILE (R102 to R110, R295) -/

/-- What the plan of a CAF_TILE starts from. -/
def State.planIn (s : State) (o : FpcOp) : PlanIn :=
  { int4 := (s.tileHome o.tile).any (fun h => h.2.2.int4), rows := 64 * s.tileSectors o.tile,
    image := (List.range 131072).map (fun j => (s.peek (kStage o.buf (131072 * wBits o.data 3 3 + j))).1) }

/-- The rows of the image that hold weights: those beyond rows_last hold weight 0 (R295). -/
def State.planRows (s : State) (o : FpcOp) : PlanIn :=
  let p := s.planIn o
  match s.tileHome o.tile with
  | none => p
  | some h =>
    let x := h.2.2
    if (o.tile - x.firstTile) % x.nRb + 1 = x.nRb then { p with image := p.image.take (128 * x.rowsLast) } else p

/-- Write the log entries of a plan (R117). (DESIGN CHOICE, assumption 23) -/
def State.planLog (s : State) (tile : Nat) : List (Nat × Nat) → State
  | [] => s
  | (code, d) :: l => (s.logEvent 3 code none tile d).planLog tile l

/-- Keep the plan of a tile; false: the programming fails (R104, R109). -/
def State.planTile (s : State) (o : FpcOp) (new : List StuckCell) : State × Bool :=
  let p := s.planRows o
  let r := plan (s.tile o.tile) p new
  ((s.setTile o.tile r.tile).planLog o.tile r.log, !(r.lost || (!(r.tile.deviations p).isEmpty && !o.permit)))

/-- The programming of a tile ends with a result: the health registers show the tile as it is now (R116). (DEDUCED, assumption 81) -/
def State.tileEnd (s : State) (o : FpcOp) (code : Nat) : State :=
  (s.setTile o.tile { s.tile o.tile with shown := none }).finishOp o code

/-- R109, R117: the slot of a tile programmed with deviations is installed in tolerant mode, which is logged as it becomes so. -/
def State.tileTolerant (s : State) (o : FpcOp) (dev : List (Nat × Nat × Int × Int)) : State :=
  match s.tileHome o.tile with
  | some h =>
    if dev.isEmpty || h.2.2.tolerant then s
    else (s.setTset h.1 h.2.1 { h.2.2 with tolerant := true }).logEvent 3 6 none o.tile dev.length
  | none => s

/-- R110: the records of a tile's deviations are written from the address of the operation on, and its programming ends; a write that
faults is not told, one that meets a gated domain waits for it (R401). (DESIGN CHOICE, assumption 78) -/
def State.tileReport (s : State) (o : FpcOp) : State :=
  let recs := ((s.tile o.tile).deviations (s.planRows o)).flatMap (deviationRec o.tile)
  if recs.isEmpty then s.tileEnd o 0
  else
    let r := s.tryOnce (fun s => (s.writeBytes (s.hostView 0) (.tmv, 2 ^ 20 + 1) (wBits o.param1 0 52) (clean recs)).1)
    if r.2 then r.1.tileEnd o 0 else r.1.setOp { o with phase := .reporting }

/-- The reports that met a gated domain are tried again. -/
def State.reportsGoOn (s : State) : List FpcOp → State
  | [] => s
  | o :: l => (if o.phase = .reporting then s.tileReport o else s).reportsGoOn l

/-- Start row `unit` of a CAF_TILE: its sector has an in-flight record. -/
def State.rowNext (s : State) (o : FpcOp) : State :=
  let x := s.sector o.tile (o.unit / 64)
  (s.setSector o.tile (o.unit / 64) { (if x.inFlight then x else x.record) with inFlight := true }).setOp { o with phase := .running, pulses := 0 }

/-- Whether a read delivers a word poisoned (R385, R387). -/
def State.wordBad (s : State) (w : Nat) : Bool :=
  let e := SMap.get 0 s.bch w
  if e ≤ 2 then SMap.get false s.poison w else decide (e = 3) || Config.corruptMark w

/-- Whether a word among those of `n` bytes from key `k` reads poisoned. -/
def State.anyBad (s : State) (k n : Nat) : Bool :=
  (s.poison.map Prod.fst ++ s.bch.map Prod.fst).any (fun w =>
    decide (k / 8 ≤ w) && decide (w < (k + n) / 8) && s.wordBad w)

/-- A CAF_TILE plans its tile with the stuck cells newly found, then programs row 0. An image with a poisoned word has no weight to
program and ends it: a cell holds no poison mark (R387). (DESIGN CHOICE, assumption 100) -/
def State.tileStart (s : State) (o : FpcOp) (new : List StuckCell) : State :=
  let off := 131072 * wBits o.data 3 3
  let r := (s.noteStage o off 131072).planTile o new
  if r.2 && !(s.anyBad (kStage o.buf off) 131072) then r.1.rowNext { o with unit := 0 } else r.1.tileEnd { o with phase := .running } 1

/-- The cells of the sectors to be programmed that an erased read finds at 1 (R102). -/
def State.onesRead (s : State) (o : FpcOp) (ones : List (Nat × Nat)) : List StuckCell :=
  (ones.dedup.filter (fun c => decide (c.1 < 64 * s.tileSectors o.tile) && decide (c.2 < 2112))).map (fun c => ⟨c.1, c.2, true⟩)

/-- A CAF_TILE starts: from here on the health registers show its tile as it was. -/
def State.tileBegin (s : State) (o : FpcOp) (ones : List (Nat × Nat)) : State :=
  let t := s.tile o.tile
  (s.setTile o.tile { t with shown := some ⟨t.fieldStuck, t.remap, t.marks⟩ }).tileStart o (s.onesRead o ones)

/-- Store the row a CAF_TILE has programmed: its slices, its sector's row count, and with the first row its group shift (R80, R98). -/
def State.rowStore (s : State) (o : FpcOp) (p : PlanIn) : State :=
  let t := s.tile o.tile
  let m := o.unit / 64
  let s1 := (List.range p.outs).foldl (fun (s : State) out =>
    { s with cells := SMap.put (0, 0) s.cells (cellKey o.tile o.unit out) (t.stored p o.unit out) }) s
  let x := s1.sector o.tile m
  s1.setSector o.tile m { (if o.unit % 64 = 63 then x.record else x) with
    state := .programmed, rows := o.unit % 64 + 1, shift := if o.unit % 64 = 0 then wBits o.param0 (4 * m) 4 else x.shift,
    inFlight := decide (o.unit % 64 ≠ 63) }

/-- An erased sector: no rows, no shift, every cell 0. -/
def State.eraseSector (s : State) (tile m : Nat) : State :=
  let x := s.sector tile m
  let lo := cellKey tile (64 * m) 0
  let hi := cellKey tile (64 * m + 64) 0
  let s1 := { s with cells := SMap.keepKeys (fun k => !(decide (lo ≤ k) && decide (k < hi))) s.cells }
  let s2 := s1.setSector tile m { state := .erased, pe := min 65535 (x.pe + 1), was := x.record.was }
  if x.pe + 1 = 10001 then s2.logEvent 2 3 none (16 * tile + m) 0 else s2

/-- Erase every sector of the tile that the operation has programmed (R103). -/
def State.eraseSectors (s : State) (tile : Nat) : List Nat → State
  | [] => s
  | m :: l => (s.eraseSector tile m).eraseSectors tile l

/-- The end of a tile: its health counts are those of this program (R116). -/
def State.tileDone (s : State) (o : FpcOp) (p : PlanIn) : State :=
  let t := s.tile o.tile
  let dev := t.deviations p
  let s1 := (s.setTile o.tile { t with reencoded := t.reencodedCount p, deviated := dev.length }).tileTolerant o dev
  let x := s1.sector o.tile (o.unit / 64)
  (s1.setSector o.tile (o.unit / 64) { (if x.inFlight then x.record else x) with inFlight := false }).tileReport o

/-- Cells of the present row that did not reach 1: R103; `ones` are those that read 1 after the erase of a restart. The cells are recorded
first, then the restart is logged with the first one's physical column (R117, R392). A tile that fails leaves no in-flight record.
(DESIGN CHOICE, assumption 23) -/
def State.tileRestart (s : State) (o : FpcOp) (new : List StuckCell) (ones : List (Nat × Nat)) : State :=
  let r := ({ tile := s.tile o.tile : PlanOut }).recordAll (s.planRows o) new
  let s1 := (s.setTile o.tile r.tile).planLog o.tile r.log
  if o.attempt + 1 < 3 ∧ r.lost = false then
    let s2 := (s1.eraseSectors o.tile (List.range (o.unit / 64 + 1))).logEvent 3 4 none o.tile ((new.head?.map (·.col)).getD 0)
    s2.tileStart { o with attempt := o.attempt + 1, fail := true, fails := satAdd 16 o.fails 1 } (s.onesRead o ones)
  else
    let x := s1.sector o.tile (o.unit / 64)
    (s1.setSector o.tile (o.unit / 64) { x.record with inFlight := false }).tileEnd { o with fail := true } 1

/-- A pulse of a row program ended; `unset` are the physical columns that do not read 1. -/
def State.tilePulse (s : State) (o : FpcOp) (unset : List Nat) (ones : List (Nat × Nat)) : State :=
  let p := s.planRows o
  let t := s.tile o.tile
  let bad := unset.dedup.filter (fun c => decide (c < 2112) && t.rowBit p o.unit c && decide (t.stuckAt o.unit c ≠ some false))
  if bad.isEmpty then
    let s1 := s.rowStore o p
    if o.unit + 1 = p.rows then s1.tileDone o p else s1.rowNext { o with unit := o.unit + 1 }
  else if o.pulses + 1 < 16 then s.setOp { o with pulses := o.pulses + 1 }
  else s.tileRestart o (bad.map (fun c => ⟨o.unit, c, false⟩)) ones

/-! ### Starting and pulses (R283, R285, R294) -/

/-- R294: whether an operation's turn has come: every earlier one has started, and those on its plane or tile are done; a program passes a
suspended erase (R286). -/
def State.opTurn (s : State) (o : FpcOp) : Bool :=
  (s.fpc.ops.takeWhile (fun x => decide (x.seq ≠ o.seq))).all (fun x =>
    decide (x.phase ≠ .queued) &&
    (!(x.clash o) || (decide (x.op = 2) && x.suspended && (decide (o.op = 1) || decide (o.op = 3) || decide (o.op = 6)))))

/-- The result with which an operation ends at its start because what it acts on has changed since its launch: its buffer, its block, its tile
(R285, R295, R296). (DEDUCED, assumption 59) -/
def State.startCheck (s : State) (o : FpcOp) : Option Nat :=
  if o.buffered && !(s.bufReady o) then some 6
  else match o.op with
    | 2 => if (s.blk o.block).live ≠ 0 then some 5 else none
    | 3 => if [.full, .opened, .undefined].contains (s.blk o.block).state then none else some 2
    | 4 =>
      if s.tileBound o.tile then some 4
      else if !((s.tileHome o.tile).any (fun h => decide (h.2.2.state = .installing))) then some 2
      else if (List.range (s.tileSectors o.tile)).all (fun m => decide ((s.sector o.tile m).state = .erased)) then none else some 2
    | 5 => if s.tileBound o.tile then some 4 else if o.sectors.any (fun m => decide ((s.sector o.tile m).state = .bad)) then some 2 else none
    | _ => none

/-- R282: FW_PAGE programs its page, unless the block no longer takes it. -/
def State.fwPageBegin (s : State) (o : FpcOp) : State :=
  if ¬ (s.blkState o.block = .erased ∨ s.blkState o.block = .opened) then s.finishOp o 2
  else if o.page % 2048 < (s.blk o.block).ptr then s.finishOp o 3
  else (s.takePage o.block (o.page % 2048) false).setOp { o with phase := .running, target := o.page }

/-- An operation that may start does so. -/
def State.opGo (s : State) (o : FpcOp) (ones : List (Nat × Nat)) : State :=
  match o.op with
  | 1 => s.progBegin o
  | 2 => (s.updBlk o.block (fun b => { b.record with eraseIntent := true })).setOp { o with phase := .running }
  | 3 => s.moveNext { o with todo := s.livePages o.block }
  | 4 => s.tileBegin o ones
  | 5 =>
    match o.sectors with
    | [] => s.finishOp o 0
    | m :: l => (s.setSector o.tile m { (s.sector o.tile m).record with eraseIntent := true }).setOp { o with phase := .running, unit := m, todo := l }
  | _ => s.fwPageBegin o

/-- An operation starts, or ends at its start. -/
def State.opBegin (s : State) (o : FpcOp) (ones : List (Nat × Nat)) : State :=
  match s.startCheck o with
  | none => s.opGo o ones
  | some k => if o.op = 1 then s.progStuck o 0 k else s.finishOp o k

/-- Whether the FPC starts and resumes operations: it is powered, and no entry below IDLE has reached step 3 (R402, R405). -/
def State.fpcStarts (s : State) : Bool :=
  (decide (s.pwr.mode = .run) || decide (s.pwr.mode = .idle) || decide (s.pwr.mode = .doze)) &&
  s.pwr.entry.all (fun e => decide (e.step < 3) || decide (e.target = .idle))

/-- FPC_OPERATION_START (R294); `ones` are the cells (row, physical column) of a tile that read 1 after their erase (R102). -/
def execFpcOperationStart (id : BitVec 8) (ones : List (Nat × Nat)) (s : State) : Host.Outcome State Fault Refusal :=
  .next (match s.fpcOp id.toNat (fun o => decide (o.phase = .queued)) with
    | none => s
    | some o => if s.opTurn o ∧ s.fpcStarts then s.opBegin o ones else s)

/-- Whether an operation is an erase. -/
def FpcOp.erases (o : FpcOp) : Bool := decide (o.op = 2) || decide (o.op = 5)

/-- A program pulse and its verify ended. -/
def State.programPulse (s : State) (id : Nat) (unset : List Nat) (ones : List (Nat × Nat)) : State :=
  match s.fpcOp id (fun o => decide (o.phase = .running) && !o.erases) with
  | none => s
  | some o =>
    match o.op with
    | 1 => s.progPulse o unset.isEmpty
    | 3 => s.movePulse o unset.isEmpty
    | 4 => s.tilePulse o unset ones
    | _ => s.fwPulse o unset.isEmpty

/-- PROGRAM_PULSE_END (R283, R103). -/
def execProgramPulseEnd (id : BitVec 8) (cells : PulseCells) (s : State) : Host.Outcome State Fault Refusal :=
  .next (s.programPulse id.toNat cells.unset cells.ones)

/-- A verified erase of a block (R283, R285, R300, R301). -/
def State.blockErased (s : State) (b : Nat) : State :=
  let x := s.blk b
  let s1 := { s with
    mem := SMap.keepKeys (fun k => !(decide (kFlash (b * 2048) 0 ≤ k) && decide (k < kFlash (b * 2048 + 2048) 0))) s.mem
    poison := SMap.keepKeys (fun w => !(decide (kFlash (b * 2048) 0 / 8 ≤ w) && decide (w < kFlash (b * 2048 + 2048) 0 / 8))) s.poison
    flashErr := SMap.keepKeys (fun k => decide (k / 8192 ≠ b)) s.flashErr }
  let n := min 65535 (x.pe + 1)
  let st : BlkState := if x.retire then .bad else .erased
  let s2 := s1.setBlk b { state := st, retire := x.retire, peOver := x.peOver || decide (1000 < n), pe := n, fails := x.fails, was := x.record.was }
  if 1000 < n ∧ !x.peOver then s2.logEvent 2 3 none (b * 2048) 0 else s2

/-- A pulse of ERASE_BLOCK ended. -/
def State.erasePulse (s : State) (o : FpcOp) (good : Bool) : State :=
  if good then (s.blockErased o.block).finishOp o 0
  else if o.pulses + 1 < 8 then s.setOp { o with pulses := o.pulses + 1 }
  else (s.updBlk o.block (fun b => { b.record with state := .bad, eraseIntent := false })).finishOp { o with fail := true } 1

/-- A pulse of CAF_ERASE ended: the next sector follows. (DESIGN CHOICE, assumption 23) -/
def State.sectorPulse (s : State) (o : FpcOp) (good : Bool) : State :=
  if good then
    let s1 := s.eraseSector o.tile o.unit
    match o.todo with
    | [] => s1.finishOp o 0
    | m :: l => (s1.setSector o.tile m { (s1.sector o.tile m).record with eraseIntent := true }).setOp { o with unit := m, todo := l, pulses := 0 }
  else if o.pulses + 1 < 8 then s.setOp { o with pulses := o.pulses + 1 }
  else (s.setSector o.tile o.unit { (s.sector o.tile o.unit).record with state := .bad, eraseIntent := false }).finishOp { o with fail := true } 1

/-- ERASE_PULSE_END (R285); `good` says that the verify passes. -/
def execErasePulseEnd (id : BitVec 8) (good : Bool) (s : State) : Host.Outcome State Fault Refusal :=
  .next (match s.fpcOp id.toNat (fun o => decide (o.phase = .running) && o.erases) with
    | none => s
    | some o => if o.op = 2 then s.erasePulse o good else s.sectorPulse o good)

/-! ### Suspension (R286, R287) -/

/-- The place a starved erase is logged with: its block's address, its tile for a CAF_ERASE. (DESIGN CHOICE, assumption 79) -/
def FpcOp.starveLoc (o : FpcOp) : Nat := if o.op = 5 then o.tile else o.block * 2048

/-- An erase that is running is suspended; its pulse will be given again; at starve_thr suspensions it starves. -/
def State.suspend (s : State) (o : FpcOp) (ph : OpPhase) : State :=
  let n := o.suspends + 1
  let starve := decide (n = s.fld Reg.fpcCfg_starveThr)
  let s1 := s.setOp { o with phase := ph, suspends := min (2 ^ 32 - 1) n, starved := o.starved || starve }
  if starve then (s1.addFld Reg.fpcStatus_starved 1).logEvent 2 2 none o.starveLoc o.id else s1

/-- An erase in progress of an id. -/
def State.eraseOp (s : State) (id : Nat) : Option FpcOp :=
  s.fpcOp id (fun o => o.erases && decide (o.phase ≠ .queued))

/-- ERASE_SUSPEND: a read or a program of its plane suspends a running erase (R286). -/
def execEraseSuspend (id : BitVec 8) (s : State) : Host.Outcome State Fault Refusal :=
  .next (match s.eraseOp id.toNat with
    | none => s
    | some o =>
      if o.op = 2 ∧ o.phase = .running ∧ !o.hold ∧ s.flag Reg.fpcCfg_rdSuspend then s.suspend o .suspendedRead else s)

/-- Whether an operation runs on an erase's plane, or a program of it is queued (R286). -/
def State.planeWork (s : State) (o : FpcOp) : Bool :=
  s.planeRuns o || (decide (o.op = 2) && s.fpc.ops.any (fun x => x.clash o && decide (x.phase = .queued) && !x.erases))

/-- ERASE_RESUME_GAP: its plane has had no queued work for resume_gap (R286). -/
def execEraseResumeGap (id : BitVec 8) (s : State) : Host.Outcome State Fault Refusal :=
  .next (match s.eraseOp id.toNat with
    | none => s
    | some o =>
      if o.phase = .suspendedRead ∧ s.fpcStarts ∧ !(s.planeWork o) then s.setOp { o with phase := .running } else s)

/-- FPC_ERASE_CTL action 1: an erase with hold is not suspended; one suspended by a read waits for the host from now on. -/
def State.ctlSuspend (s : State) (id : Nat) : State :=
  match s.eraseOp id with
  | none => s
  | some o =>
    if o.hold then s
    else match o.phase with
      | .running | .resuming => s.suspend o .suspendedHost
      | _ => s.setOp { o with phase := .suspendedHost }

/-- FPC_ERASE_CTL action 2. -/
def State.ctlResume (s : State) (id : Nat) : State :=
  match s.eraseOp id with
  | none => s
  | some o => if o.phase = .suspendedHost then s.resumeOp o else s

/-- FPC_ERASE_CTL action 3: from now on the erase is not suspended; one that a read holds suspended goes on. (DEDUCED, assumption 59) -/
def State.ctlHold (s : State) (id : Nat) : State :=
  match s.eraseOp id with
  | none => s
  | some o => if o.phase = .suspendedRead then s.resumeOp { o with hold := true } else s.setOp { o with hold := true }

/-- ERASE_CTL_SUSPEND (R286). -/
def execEraseCtlSuspend (id : BitVec 8) (s : State) : Host.Outcome State Fault Refusal := .next (s.ctlSuspend id.toNat)

/-- ERASE_CTL_RESUME (R286). -/
def execEraseCtlResume (id : BitVec 8) (s : State) : Host.Outcome State Fault Refusal := .next (s.ctlResume id.toNat)

/-- ERASE_CTL_HOLD (R287). -/
def execEraseCtlHold (id : BitVec 8) (s : State) : Host.Outcome State Fault Refusal := .next (s.ctlHold id.toNat)

/-! ### The calibration row (R302) -/

/-- The factory stuck-cell entries of a charge-array die, in tile order: at most 7,933. -/
def State.calStuck (s : State) (d : Nat) : List Nat :=
  ((List.range 256).flatMap (fun i => (s.tile (256 * d + i)).factoryStuck.map (fun k =>
    k.row + k.col * 2 ^ 10 + b2n k.one * 2 ^ 22 + i * 2 ^ 23))).take 7933

/-- The factory bad-block bitmap: block b of plane p of a WST die is bad where a reserve block replaces it (R277, R302). -/
def State.calBadBit (s : State) (d i : Nat) : Bool :=
  (List.range 4).any (fun j => decide (SMap.get 0 s.fac.replaced (4 * (128 * d + i / 68) + j) = i % 68 + 1))

/-- Byte o of a die's factory-calibration row, below its check value (R302). (DESIGN CHOICE, assumption 15) -/
def State.calBody (s : State) (die o : Nat) : Byte :=
  let wst := decide (die < 16)
  let d := die - 16
  let bit := fun (k : Nat) => b2n (s.calBadBit die (8 * (o - 0x400) + k)) * 2 ^ k
  if o = 0 then (if wst then 0 else 1)
  else if o < 0x400 then Config.calByte die o
  else if wst then
    if o < 0x840 then BitVec.ofNat 8 ((List.range 8).map bit).sum
    else if o < 0xA40 then BitVec.ofNat 8 (SMap.get 0 s.fac.replaced (4 * 128 * die + (o - 0x840)) + 255)
    else 0
  else if o < 0x4400 then Config.calByte die o
  else if o < 0x8400 then
    match SMap.get 0 s.fac.remaps (32 * 256 * d + (o - 0x4400) / 2) with
    | 0 => 0
    | p + 1 => (leBytes 2 (p + 2 ^ 15)).getD (o % 2) 0
  else if o < 0x8404 then (leBytes 4 (s.calStuck d).length).getD (o - 0x8400) 0
  else if o < 0xFFF8 then (leBytes 4 ((s.calStuck d).getD ((o - 0x8404) / 4) 0)).getD (o % 4) 0
  else 0

/-- The valid calibration row of a die, with its check value (R302, R379). -/
def State.calRow (s : State) (die : Nat) : List Byte :=
  let body := (List.range 0xFFF8).map (s.calBody die)
  body ++ leBytes 4 (crc32c body).toNat ++ List.replicate 4 0

/-- A word of a die's calibration row: of the copy in use, free where neither is valid. (DESIGN CHOICE, assumption 15) -/
def State.calWord (s : State) (die w : Nat) : W64 :=
  if s.fac.calBad.getLsbD die ∨ 20 ≤ die then BitVec.ofNat 64 (leVal ((List.range 8).map (fun i => Config.calByte die (8 * w + i))))
  else if w = 8191 then BitVec.ofNat 64 (leVal ((s.calRow die).drop 0xFFF8))
  else BitVec.ofNat 64 (leVal ((List.range 8).map (fun i => s.calBody die (8 * w + i))))

/-- A read of FPC_CAL_DATA: the selected word, and the index advances. -/
def State.calRead (s : State) : State :=
  let d := s.fld Reg.fpcCalSel_die
  let w := s.fld Reg.fpcCalSel_word
  (s.setFld Reg.fpcCalSel_word (w + 1)).emit (.readVal Reg.fpcCalData (s.calWord d w))

/-- CAL_DATA_READ (R302). -/
def execCalDataRead (s : State) : Host.Outcome State Fault Refusal :=
  .next (s.actingRead 0 Reg.fpcCalData false .calData State.calRead)

/-! ### What an interruption leaves (R288, R289, R290) -/

/-- A block's entry as the records that pass their check give it: a last one that fails is ignored (R288, R380). -/
def Blk.passed (b : Blk) : Blk :=
  if b.cut then
    { b with state := b.was.state, ptr := b.was.n, pe := b.was.pe, inFlight := b.was.inFlight, eraseIntent := b.was.eraseIntent, cut := false }
  else b

/-- A sector as the records that pass their check give it (R288, R380). -/
def Sector.passed (x : Sector) : Sector :=
  if x.cut then
    { x with state := x.was.state, rows := x.was.n, pe := x.was.pe, inFlight := x.was.inFlight, eraseIntent := x.was.eraseIntent, cut := false }
  else x

/-- A block's entry after the journal is replayed (R289). -/
def Blk.replay (x : Blk) : Blk :=
  let b := x.passed
  if b.eraseIntent then { b with state := .eraseIncomplete, eraseIntent := false }
  else if b.inFlight then { b with state := .undefined, inFlight := false }
  else b

/-- A sector after the journal is replayed (R289). -/
def Sector.replay (y : Sector) : Sector :=
  let x := y.passed
  if x.eraseIntent then { x with state := .eraseIncomplete, eraseIntent := false }
  else if x.inFlight then { x with state := .undefined, inFlight := false }
  else x

/-- Unmap every page of the INSTALLING objects: their installation restarts from flash page 0. -/
def State.unmapInstalling (s : State) : List Nat → State
  | [] => s
  | i :: l =>
    (if (s.obj i).inst then
      (({ s with pmap := SMap.keepKeys (fun k => decide (k / 2 ^ 28 ≠ i)) s.pmap }).pagesDead (s.objPages i)).setObj i
        { s.obj i with nextPage := 0 }
    else s).unmapInstalling l

/-- Whether a WST page program is in progress (R288). -/
def Fpc.pageProgram (x : Fpc) : Bool := x.ops.any (fun o => decide (o.phase = .running) && (decide (o.op = 1) || decide (o.op = 3)))

/-- The pages of programs that had not started are their object's next ones again (R281). -/
def State.unlaunch (s : State) : List FpcOp → State
  | [] => s
  | o :: l =>
    (if o.op = 1 ∧ (s.obj o.object).inst then
      s.setObj o.object { s.obj o.object with nextPage := min (s.obj o.object).nextPage o.firstPage } else s).unlaunch l

/-- The FPC after a reset: the sequencer is locked, operations, results and buffers are gone, the journal gives the states, and an
interrupted page program restarts the installation of the INSTALLING objects (R288). -/
def State.fpcReset (s : State) : State :=
  let s0 := s.unlaunch s.fpc.ops
  let s1 := if s.fpc.pageProgram then s0.unmapInstalling (SMap.keys s0.objs) else s0
  { s1 with
    fpc := {}
    tiles := s1.tiles.map (fun (e : Nat × Tile) => (e.1, { e.2 with shown := none }))
    blks := s1.blks.map (fun e => (e.1, e.2.replay))
    sectors := s1.sectors.map (fun e => (e.1, e.2.replay)) }

end Sys2Proof.Machine
end

