-- ==== Sys2Proof/Machine/InstState.lean ====
section
/-! DEFINITION. The record of an installation (R326), its messages (R355) and how it ends without a switch (R325). -/

namespace Sys2Proof.Machine

open Sys2Proof

/-- Replace the installation's record; with FPC_CFG.irq_en a change of its state sends the message of R294 (R326). -/
def State.setInst (s : State) (x : Inst) : State :=
  let s1 := { s with inst := x }
  if x.state ≠ s.inst.state ∧ s1.flag Reg.fpcCfg_irqEn then s1.sendMsix 0 (s1.fld Reg.fpcCfg_vector) else s1

/-- An INST message of sub 1 to 4 or 6 (R355). -/
def instMsg (sub dev shard model : Nat) : W64 :=
  ctlMsg 11 [(4, sub), (8, dev % 256), (16, shard % 2 ^ 24), (40, model % 64)]

/-- The installer asks for quiesce through the management controller's bank (R254, R314). -/
def State.askQuiet (s : State) : State :=
  { s with bankMgc := { s.bankMgc with req := true }, inst := { s.inst with quiet := s.inst.quiet || !s.bankMgc.req } }

/-- The installer ends the quiesce it has asked for. -/
def State.endQuiet (s : State) : State :=
  if s.inst.quiet then
    { s with bankMgc := { s.bankMgc with req := false, done := false }, inst := { s.inst with quiet := false } }
  else s

/-- An edit of the installer: under quiesce, or it waits for the operations in progress (R24, R254). -/
def State.underQuiet (s : State) (f : State → State) : State := if s.migBusy = 0 then (f s).endQuiet else s.askQuiet

/-- A port with no shard awaited or held: what an installation that is over leaves. -/
def Port.noShards (x : Port) : Port := { x with discard := false, expectShard := 0, shardStore := [], shardWant := none }

/-- No port awaits or holds a shard of an installation that is over. -/
def State.clearShards (s : State) : State := { s with link := { s.link with ports := s.link.ports.map Port.noShards } }

/-- Release the buffers of held shards that no operation uses. -/
def State.releaseHeld (s : State) : List HeldShard → State
  | [] => s
  | h :: l => (if h.ids.isEmpty then s.releaseBuf h.buf else s).releaseHeld l

/-- R325 on this device: the target slot becomes STALE, its objects stay INSTALLING, and the result is shown. -/
def State.instStop (s : State) (st : Status) (dev detail shard : Nat) : State :=
  let i := s.inst
  let m := s.model i.model
  let s1 := if m.valid ∧ (m.st i.slot = .building ∨ m.st i.slot = .standby) ∧ i.devices.contains s.link.dev then
    s.makeStale i.model i.slot else s
  ((s1.endQuiet.clearShards).releaseHeld i.held).setInst { i with
    state := 6, resValid := true, resStatus := st, resDev := dev, resDetail := detail, resShard := shard
    held := i.held.filter (fun h => !h.ids.isEmpty), erase := [], plan := [], opIds := [], oldIds := i.oldIds ++ i.opIds, tries := 0
    quiet := false }

/-- Whether a build is in progress here (BUILDING or WAITING). -/
def Inst.building (i : Inst) : Bool := decide (i.state = 1) || decide (i.state = 2)

/-- The installation ends without a switch on this device: the leader tells every device, a Moon reports to the leader (R324, R325).
(DEDUCED, assumption 58) -/
def State.instFail (s : State) (st : Status) (detail shard : Nat) : State :=
  let s1 := s.instStop st s.link.dev detail shard
  let m := instMsg 4 s.link.dev shard s.inst.model
  if s.isMoon then
    match s.upstream with
    | some p => s1.sendCtl p m
    | none => s1
  else s1.sendCtlAll m s1.downstream

/-- The link over port p to a part of the installation fails (R325): the leader, or a Moon below it, ends its part; the leader is device
0. -/
def State.instLost (s : State) (p : Nat) : State :=
  if s.inst.building then
    let s1 := s.instStop .linkLost 0 p 0
    s1.sendCtlAll (instMsg 4 0 0 s.inst.model) s1.downstream
  else s

end Sys2Proof.Machine
end

