-- ==== Sys2Proof/Machine/Topo.lean ====
section
/-! DEFINITION. The topology of a system (R350, R371 to R374): the Planet's map, numbering, reattachment, and what a port that goes
DOWN ends. -/

namespace Sys2Proof.Machine

open Sys2Proof

/-! ### Messages received -/

/-- The sub-type of a TOPO or INST message (R355). -/
def msgSub (m : W64) : Nat := wBits m 4 4

/-- Return `n` credits of a channel (0 request, 2 installation, 3 control) on a port (R355, R359). -/
def State.credit (s : State) (p : PortId) (ch n : Nat) : State :=
  if n = 0 then s else s.sendCtl p (ctlMsg 5 [(4, ch), (6, n)])

/-- The oldest received control message of a port that meets a test. -/
def State.peekCtl (s : State) (p : PortId) (f : W64 → Bool) : Option W64 := (s.port p).inCtl.find? f

/-- Take a received control message from its port; the space of a TOPO or INST message is credited. -/
def State.dropCtl (s : State) (p : PortId) (m : W64) : State :=
  let s1 := s.updPort p (fun x => { x with inCtl := x.inCtl.erase m, rxCtl := if msgClass m = 5 then x.rxCtl - 1 else x.rxCtl })
  if msgClass m = 5 then s1.credit p 3 1 else s1

/-- Take the oldest received control message of a kind and act on it. (DESIGN CHOICE, assumption 1) -/
def State.onCtl (s : State) (p : PortId) (f : W64 → Bool) (act : W64 → State → State) : State :=
  match s.peekCtl p f with
  | none => s
  | some m => act m (s.dropCtl p m)

/-- Whether a message is of a type. -/
def isType (ty : Nat) (m : W64) : Bool := decide (msgType m = ty)

/-- Whether a message is of a type and sub-type. -/
def isSub (ty sub : Nat) (m : W64) : Bool := decide (msgType m = ty) && decide (msgSub m = sub)

/-- A TOPO message (R355). -/
def topoMsg (sub dev port hops route pmask role : Nat) : W64 :=
  ctlMsg 10 [(4, sub), (8, dev % 256), (16, port % 8), (19, hops % 256), (27, route % 256), (35, pmask % 256), (43, role)]

/-! The fields of a TOPO message. -/
/-- The device a message is about. -/
def tmDev (m : W64) : Nat := wBits m 8 8
/-- Its port. -/
def tmPort (m : W64) : Nat := wBits m 16 3
/-- Its hop count. -/
def tmHops (m : W64) : Nat := wBits m 19 8
/-- The device it is for. -/
def tmRoute (m : W64) : Nat := wBits m 27 8
/-- Its active ports. -/
def tmMask (m : W64) : Nat := wBits m 35 8
/-- The sender's role. -/
def tmRole (m : W64) : Nat := wBits m 43 2

/-! ### Ports and the map -/

/-- Port number n. -/
def portNo (n : Nat) : PortId := Fin.ofNat 8 n

/-- Whether a port is ACTIVE. -/
def State.portUp (s : State) (p : PortId) : Bool := decide ((s.port p).state = .active)

/-- The ACTIVE ports as a mask. -/
def State.activeMask (s : State) : Nat := (allPorts.map (fun p => if s.portUp p then 2 ^ p.val else 0)).sum

/-- A device's entry. -/
def State.topoEnt (s : State) (d : Nat) : TopoEnt := SMap.get {} s.link.topo d

/-- Replace a device's entry. -/
def State.setTopo (s : State) (d : Nat) (e : TopoEnt) : State :=
  { s with link := { s.link with topo := SMap.put {} s.link.topo d e } }

/-- The map's devices that meet a test, by rising number. -/
def State.topoDevs (s : State) (f : TopoEnt → Bool) : List Nat :=
  (List.filter (fun (e : Nat × TopoEnt) => f e.2) s.link.topo).map Prod.fst

/-- The Planet's port that leads toward device d; `fuel` bounds the way up the tree. -/
def State.rootPortL (s : State) : Nat → Nat → Option PortId
  | 0, _ => none
  | fuel + 1, d =>
    let e := s.topoEnt d
    if e.state = 0 then none else if e.parent = 0 then some (portNo e.parentPort) else s.rootPortL fuel e.parent

/-- The Planet's port toward device d. -/
def State.rootPort (s : State) (d : Nat) : Option PortId := s.rootPortL 256 d

/-- A Moon's port toward device d, learned from the messages that it passed on. -/
def State.routePort (s : State) (d : Nat) : Option PortId :=
  if (s.topoEnt d).state = 0 then none else some (portNo (s.topoEnt d).parentPort)

/-- A Moon learns the port toward device d. -/
def State.setRoute (s : State) (d : Nat) (p : PortId) : State := s.setTopo d { state := 1, parentPort := p.val }

/-- Send a control message on a port, if there is one. -/
def State.sendCtl? (s : State) (p : Option PortId) (m : W64) : State := p.elim s (s.sendCtl · m)

/-- Send a control message toward the Planet. -/
def State.sendUp (s : State) (m : W64) : State := s.sendCtl? s.upstream m

/-- A Moon's PORTS message (R371). -/
def State.portsMsg (s : State) (p : PortId) : W64 := topoMsg 6 s.link.dev p.val s.link.hops 0 s.activeMask s.link.role

/-- A numbered Moon reports its ports to the Planet, or once it has a path again (R371, R373). -/
def State.reportPorts (s : State) : State :=
  if s.isMoon ∧ s.link.dev ≠ 0 then
    match s.upstream with
    | some p => s.sendCtl p (s.portsMsg p)
    | none => { s with link := { s.link with portsWait := true } }
  else s

/-- A Moon sends LOST for its port p, or once it has a path again (R373 step 1). (DEDUCED, assumption 55) -/
def State.sendLost (s : State) (p : PortId) : State :=
  if s.upstream.isSome then s.sendUp (topoMsg 3 s.link.dev p.val s.link.hops 0 s.activeMask 2)
  else { s with link := { s.link with lostWait := s.link.lostWait.filter (fun q => decide (q ≠ p)) ++ [p] } }

/-- What a Moon could not tell the Planet without a path goes now (R373). -/
def State.tellWaiting (s : State) : State :=
  let l := s.link.lostWait
  let s1 := { s with link := { s.link with lostWait := [], portsWait := false } }
  let s2 := l.foldl (fun (s : State) q => s.sendLost q) s1
  if s.link.portsWait then s2.reportPorts else s2

/-- Tell the neighbours on a list of ports who this device is. -/
def State.informL (s : State) : List PortId → State
  | [] => s
  | p :: l => (if s.portUp p ∧ s.upstream ≠ some p then s.sendCtl p (s.portsMsg p) else s).informL l

/-! ### Numbering (R371, R372) -/

/-- Send a message across port q of device d: the Planet's own port, or routed to d. -/
def State.across (s : State) (d q : Nat) (m : W64) : State :=
  if d = 0 then s.sendCtl (portNo q) m else s.sendCtl? (s.rootPort d) m

/-- The lowest number that no device holds. -/
def State.freeDev (s : State) : Option Nat := (List.range 255).map (· + 1) |>.find? (fun d => decide ((s.topoEnt d).state = 0))

/-- The Planet numbers the device across port q of device d, or refuses it. (DESIGN CHOICE, assumption 56) -/
def State.assignAt (s : State) (d q : Nat) : State :=
  match s.freeDev with
    | none => (s.across d q (topoMsg 7 0 q 0 d 0 0)).linkEvent 13
    | some n =>
      let h := (s.topoEnt d).hops + 1
      let s1 := s.setTopo n { state := 1, parent := d, parentPort := q, hops := h, added := s.link.formed }
      let s2 := if d = 0 then s1.updPort (portNo q) (fun x => { x with use := .downstream, partner := n }) else s1
      s2.across d q (topoMsg 2 n q h (if d = 0 then n else d) 0 0)

/-- Whether a re-formation is in progress. -/
def State.reforming (s : State) : Bool := !(s.topoDevs (fun e => decide (e.state = 2))).isEmpty

/-- Whether the link at port q of device d leads to a device that has a number: a tree link, or one that a report names. -/
def State.linkKnown (s : State) (d q : Nat) : Bool :=
  List.any s.link.topo (fun (e : Nat × TopoEnt) => decide (e.2.state ≠ 0) &&
    ((decide (e.2.parent = d) && decide (e.2.parentPort = q)) || e.2.nbrs.any (fun b => decide (b.2.1 = d) && decide (b.2.2 = q))))

/-- Whether the device at the near end of a link can still send across it. -/
def State.linkThere (s : State) (d q : Nat) : Bool :=
  if d = 0 then s.portUp (portNo q) else decide ((s.topoEnt d).state = 1)

/-- The link whose neighbour is numbered next: while the system forms the lowest device's lowest port, which is the breadth-first order
of R371; afterwards that of the JOIN that came first (R372). -/
def State.nextJoin (s : State) : Option (Nat × Nat) :=
  match s.link.joinWait with
  | [] => none
  | e :: l =>
    if s.link.formed then some e
    else some (l.foldl (fun (a b : Nat × Nat) => if b.1 < a.1 ∨ (b.1 = a.1 ∧ b.2 < a.2) then b else a) e)

/-- Whether a device that has been numbered has not reported yet. -/
def State.reportDue (s : State) : Bool := !(s.topoDevs (fun e => decide (e.state = 1) && !e.reported)).isEmpty

/-- R371, R372: number the neighbours that wait, one after another: the next once the last has reported its links and no re-formation is
in progress (R377). A link to a device that has a number gives none and stays standby. (DESIGN CHOICE, assumption 56) -/
def State.numberNext (s : State) : Nat → State
  | 0 => s
  | fuel + 1 =>
    if s.reforming || s.reportDue then s
    else match s.nextJoin with
      | none => s
      | some (d, q) =>
        let s1 := { s with link := { s.link with joinWait := s.link.joinWait.erase (d, q) } }
        (if s1.linkKnown d q || !(s1.linkThere d q) then s1 else s1.assignAt d q).numberNext fuel

/-- Number what waits. -/
def State.numberAll (s : State) : State := s.numberNext (s.link.joinWait.length + 1)

/-- Links whose neighbours have no number join those that wait. -/
def State.joinL (s : State) (l : List (Nat × Nat)) : State :=
  { s with link := { s.link with joinWait := s.link.joinWait ++ l.filter (fun e => !s.link.joinWait.contains e) } }

/-- A JOIN at the Planet (R372, R377). (DESIGN CHOICE, assumption 56) -/
def State.join (s : State) (d q : Nat) : State := (s.joinL [(d, q)]).numberAll

/-- R371: the Planet's formed bit is set once every device has reported. -/
def State.formCheck (s : State) : State :=
  if (s.topoDevs (fun e => decide (e.state ≠ 0) && !e.reported)).isEmpty && !s.link.topo.isEmpty && s.link.joinWait.isEmpty then
    { s with link := { s.link with formed := true } }
  else s

/-- A MGMT_REQ to a neighbour (R361, R362). (DESIGN CHOICE, assumption 57) -/
def State.sendMgmt (s : State) (p : PortId) (data : List Byte) : State :=
  let tag := (s.port p).nextTag
  let s1 := s.updPort p (fun x => { x with nextTag := (tag + 1) % 65536 })
  s1.sendData p 5 (dataHeader 5 0 0 0 tag data.length 0) (clean data)

/-- A management request to each of a list of ports. -/
def State.sendMgmtAll (s : State) (data : List Byte) : List PortId → State
  | [] => s
  | p :: l => (s.sendMgmt p data).sendMgmtAll data l

/-- The order to retire a model's active slot as a management request carries it to the Moons (R320). (DESIGN CHOICE, assumption 85) -/
def retireOrder (md : Nat) : List Byte := leBytes 8 (3 + md * 2 ^ 8)

/-- The devices of the system, the Planet included: by the Planet's map, on a Moon as the Planet last told it (R375). -/
def State.nDev (s : State) : Nat :=
  if s.isPlanet then (s.topoDevs (fun e => decide (e.state ≠ 0))).length + 1 else if s.isMoon then s.link.sysDevs else 1

/-- The copies of DEV_SYSCNT_OWN and DEV_SYSCNT_EN as a management request carries them, with the number of devices (R362, R375).
(DESIGN CHOICE, assumption 57) -/
def State.ownCopies (s : State) : List Byte :=
  leBytes 8 1 ++ leBytes 8 (s.reg Reg.devSyscntOwn).toNat ++ leBytes 8 (s.reg Reg.devSyscntEn).toNat ++ leBytes 8 s.nDev

/-- Send every system counter's value on a port. -/
def State.sendVals (s : State) (p : PortId) : List Nat → State
  | [] => s
  | n :: l => (s.sendCtl p (syncValMsg n (SMap.get 0 s.sysCnt n))).sendVals p l

/-- R371 step 4: the Planet initialises a device across its port p. (DESIGN CHOICE, assumption 56) -/
def State.initDevice (s : State) (p : PortId) : State :=
  (((s.sendVals p (List.range 256)).sendMgmt p s.ownCopies)).sendCtl p s.timeMsg

/-- The Planet tells its Moons how many devices the system has. -/
def State.tellCount (s : State) : State := s.sendMgmtAll s.ownCopies s.downstream

/-- A PORTS report at the Planet (R371 step 3). (DESIGN CHOICE, assumption 56) -/
def State.portsReport (s : State) (d mask : Nat) (nbrs : List (Nat × Nat × Nat)) : State :=
  let e := s.topoEnt d
  if e.state = 0 then s
  else
    let s1 := s.setTopo d { e with active := mask, nbrs := nbrs, reported := true }
    let s2 := if e.reported then s1 else
      let t := ((s1.rootPort d).elim s1 (s1.initDevice ·)).tellCount
      if e.added then t.linkEvent 9 else t
    ((s2.joinL ((nbrs.filter (fun b => decide (b.2.1 = 256))).map (fun b => (d, b.1)))).numberAll).formCheck

/-! ### Reattachment (R373) -/

/-- Whether device d lies below the tree link at port q of device u. -/
def State.below (s : State) (u q : Nat) : Nat → Nat → Bool
  | 0, _ => false
  | fuel + 1, d =>
    let e := s.topoEnt d
    if e.state = 0 ∨ d = 0 then false
    else (decide (e.parent = u) && decide (e.parentPort = q)) || s.below u q fuel e.parent

/-- The links of a region's device to devices outside it that are ACTIVE at both ends, by rising port. -/
def State.escapes (s : State) (e : TopoEnt) : List (Nat × Nat × Nat) :=
  e.nbrs.filter (fun b => Nat.testBit e.active b.1 &&
    (if b.2.1 = 0 then s.portUp (portNo b.2.2)
     else decide ((s.topoEnt b.2.1).state = 1) && Nat.testBit (s.topoEnt b.2.1).active b.2.2))

/-- R373 step 2: the next candidate is asked, unless one has been; with no region left the JOINs that wait are taken.
(DESIGN CHOICE, assumption 56) -/
def State.reattachNext (s : State) : State :=
  if !s.reforming then s.numberAll
  else if !(s.topoDevs (fun e => decide (e.state = 2) && e.ask.isSome)).isEmpty then s
  else
    match s.topoDevs (fun e => decide (e.state = 2) && e.cand && !(s.escapes e).isEmpty) with
    | [] => s
    | x :: _ =>
      let e := s.topoEnt x
      let b := (s.escapes e).headD (0, 0, 0)
      let w := b.2.1
      let q := b.2.2
      let s1 := s.setTopo x { e with ask := some (w, q) }
      let s2 := if w = 0 then s1.updPort (portNo q) (fun y => { y with use := .downstream, partner := x }) else s1
      s2.across w q (topoMsg 4 x q ((s.topoEnt w).hops + 1) (if w = 0 then x else w) 0 0)

/-- Mark a list of devices REATTACHING. -/
def State.markRegion (s : State) : List Nat → State
  | [] => s
  | d :: l => (s.setTopo d { s.topoEnt d with state := 2, cand := true, ask := none }).markRegion l

/-- R373 step 1 at the Planet: the tree link at port q of device u is down. -/
def State.regionLost (s : State) (u q : Nat) : State :=
  let region := (s.topoDevs (fun e => decide (e.state = 1))).filter (s.below u q 256)
  let s1 := if region.any (fun d => s.inst.devices.contains d) ∧ s.inst.leader then s.instLost q else s
  (s1.markRegion region).reattachNext

/-- The devices of the region joined to device u by a tree link, with u's port to each; `old` is the map before. -/
def joined (old : SMap TopoEnt) (u : Nat) : List (Nat × Nat) :=
  let e := SMap.get {} old u
  let kids := (List.filter (fun (k : Nat × TopoEnt) => decide (k.2.state = 2) && decide (k.2.parent = u) &&
    Nat.testBit e.active k.2.parentPort) old).map (fun k => (k.1, k.2.parentPort))
  let up := (e.nbrs.filter (fun b => decide (b.2.1 = e.parent) && decide (b.2.2 = e.parentPort) && Nat.testBit e.active b.1)).map
    (fun b => (b.2.1, b.1))
  kids ++ up

/-- Take devices below device u, with their new hop counts. -/
def State.adoptOne (s : State) (u : Nat) : List (Nat × Nat) → State × List Nat
  | [] => (s, [])
  | (v, q) :: l =>
    if (s.topoEnt v).state = 2 then
      let h := (s.topoEnt u).hops + 1
      let s1 := s.setTopo v { s.topoEnt v with state := 1, parent := u, parentPort := q, hops := h, ask := none }
      let r := (s1.across u q (topoMsg 2 v q h u 0 0)).adoptOne u l
      (r.1, v :: r.2)
    else s.adoptOne u l

/-- R373 step 3: the part of the region joined to the devices of the list hangs below them. -/
def State.adopt (s : State) (old : SMap TopoEnt) : Nat → List Nat → State
  | 0, _ => s
  | _, [] => s
  | fuel + 1, u :: l =>
    let r := s.adoptOne u (joined old u)
    r.1.adopt old fuel (l ++ r.2)

/-- An ATTACHED answer at the Planet (R373 step 3). -/
def State.attached (s : State) (x mask : Nat) : State :=
  let e := s.topoEnt x
  match e.ask with
  | some (w, q) =>
    if e.state = 2 then
      let old := SMap.put {} s.link.topo x { e with active := mask }
      let s1 := s.setTopo x { e with state := 1, parent := w, parentPort := q, hops := (s.topoEnt w).hops + 1, active := mask, ask := none }
      (s1.adopt old 256 [x]).reattachNext
    else s
  | none => s

/-- R373 step 4: no answer came; the device is no candidate any more. -/
def State.noAnswer (s : State) (x : Nat) : State :=
  let e := s.topoEnt x
  if e.state = 2 ∧ e.ask.isSome then (s.setTopo x { e with cand := false, ask := none }).reattachNext else s

/-- R373 step 5 at the Planet: the devices still REATTACHING are free. (DESIGN CHOICE, assumption 56) -/
def State.freeRegion (s : State) : State :=
  if s.reforming then
    let s1 := { s with link := { s.link with topo := List.filter (fun (e : Nat × TopoEnt) => decide (e.2.state ≠ 2)) s.link.topo } }
    (((s1.linkEvent 8).linkEvent 10).tellCount).reattachNext
  else s

/-! ### What a lost link ends (R374) -/

/-- Whether a failure ends an arming by TIER_FAULT, which CTX_TMV_STAT.faults counts once for the arming (R244). -/
def endsFaulted (a : Arming) (st : Status) : Bool := a.dead.isNone && decide (st = .tierFault)

/-- A read of a stream tile failed: the bytes from there on are poisoned, and no further tile is issued (R231, R374). -/
def State.failStream (s : State) (r : PeerReq) (st : Status) (port : Nat) : State :=
  match s.armings.findIdx? (fun a => decide (a.ctx = r.ctx) && decide (a.eng = r.eng) && decide (a.slot = r.slot) &&
      a.flight.any (fun f => decide (f.tile = r.tile))) with
  | none => s
  | some i =>
    match s.armAt i with
    | none => s
    | some a =>
      let cut := fun (f : Flight) (k : Nat) =>
        let n := if f.fault.isSome then min k f.faultAt else k
        { f with data := f.data.take n ++ poisonRun (f.data.length - n), fault := some (f.fault.getD st), faultAt := n }
      let fl := a.flight.map (fun f => if f.tile = r.tile then cut f r.off else if r.tile < f.tile then cut f 0 else f)
      (s.setArming i { a with
        flight := fl
        dead := some (match a.dead with | some x => x.worse st | none => st)
        deadPort := if st = .linkLost then port else a.deadPort }).addFld (Reg.ctxTmvStat_faults.at r.ctx) (b2n (endsFaulted a st))

/-- Put the bytes of a peer's answer where the work that waits finds them, with what has been written there since (R265).
(DEDUCED, assumption 54) -/
def State.deposit (s : State) (r : PeerReq) (bytes : List SB) : State :=
  let put := fun (m : SMap SB) (p : Nat × SB) => SMap.insert m (depKey r.dev r.peerCtx p.1) p.2
  { s with deposits := r.newer.foldl put (((bytes.zipIdx).map (fun p => (r.addr + p.2, p.1))).foldl put s.deposits) }

/-- A read of a stream's headers or check values failed: no further tile of it is issued (R231, R374); a check value so lost reads as
poisoned, and its tile is a mismatch (R233). -/
def State.failMeta (s : State) (r : PeerReq) (st : Status) (port : Nat) : State :=
  match s.armings.findIdx? (fun a => decide (a.ctx = r.ctx) && decide (a.eng = r.eng) && decide (metaSlot a.slot = r.slot) && !a.allIssued &&
      a.dead.isNone) with
  | none => s
  | some i =>
    match s.armAt i with
    | none => s
    | some a =>
      if a.desc.chk then s.deposit r (poisonRun r.len)
      else (s.setArming i { a with dead := some st, deadPort := if st = .linkLost then port else a.deadPort }).addFld
        (Reg.ctxTmvStat_faults.at r.ctx) (b2n (endsFaulted a st))

/-- R269: a write-back of an entry sequence that its peer did not take leaves the copy dirty. -/
def State.redirty (s : State) (r : PeerReq) : State :=
  { s with objs := s.objs.map (fun (e : Nat × Obj) =>
      let o := e.2
      let a := o.loc.toNat % 2 ^ 40 * 4096
      if o.valid && decide (o.home = 3) && o.t3Peer && decide (o.peerDev = r.dev) && decide (o.peerCtx = r.peerCtx) && decide (a ≤ r.addr) &&
          decide (r.addr < a + o.size * 4096) && (o.cp0 || o.cp1) then (e.1, { o with dirty := true }) else e) }

/-- An access of a command, migration, Tail entry or the host's aperture to a peer failed (R231, R269, R342, R436). -/
def State.failAccess (s : State) (r : PeerReq) (st : Status) (port : Nat) : State :=
  if r.eng = .tmv ∧ r.slot = migSlot 1024 then s.redirty r
  else if r.eng = .tmv ∧ 2 ^ 21 ≤ r.slot then s.updMig r.ctx (r.slot - 2 ^ 21) (fun m => { m with report := some .tierFault })
  else if r.eng = .tmv ∧ r.slot = 2 ^ 20 then
    s.tailAnswered r.ctx false
  else if r.eng = .tmv ∧ r.slot = aptSlot then
    let s1 := s.addFld (Reg.ctxAptStat_faults.at r.ctx) 1
    if r.write then s1
    else { s1 with
      aptWait := s1.aptWait.drop 1
      link := { s1.link with peerReqs := s1.link.peerReqs.filter (fun q => decide (q.slot ≠ aptSlot) || q.write) } }.emit .completerAbort
  else if 2 ^ 19 ≤ r.slot ∧ r.slot < 2 ^ 20 ∧ r.write = false then s.failMeta r st port
  else
    let s1 := s.updExec r.ctx r.eng r.slot (fun x => { x with early := x.early ++ [(st, port)] })
    if r.write then s1 else s1.deposit r (poisonRun r.len)

/-- A peer request failed with a status. -/
def State.failPeer (s : State) (st : Status) (port : Nat) (r : PeerReq) : State :=
  if r.stream then s.failStream r st port else s.failAccess r st port

/-- The peer requests of a port that went DOWN end, and so do the migrations of objects at home behind it (R269). -/
def State.losePeers (s0 : State) (p : PortId) : State :=
  let s := if (s0.port p).partnerRole = 0 then s0 else s0.failMigs (MigReq.usesPeer (s0.port p).partner)
  let mine := s.link.peerReqs.filter (fun r => decide (r.port = p))
  let s1 := { s with link := { s.link with peerReqs := s.link.peerReqs.filter (fun r => decide (r.port ≠ p)) } }
  mine.foldl (fun s r => s.failPeer .linkLost p.val r) s1

/-! ### Management answers (R462) -/

/-- A MGMT_RESP to the request with a tag: the attestation state it ends with, and the report (R462). -/
def State.sendMgmtResp (s : State) (p : PortId) (tag st : Nat) (report : List Byte) : State :=
  let data := leBytes 8 (2 + st * 2 ^ 8) ++ report
  s.sendData p 6 (dataHeader 6 0 0 0 tag data.length 0) (clean data)

/-- A link on a request's path goes DOWN: what was asked over it ends LINK_LOST, and what came over it is dropped (R462, R468).
(DESIGN CHOICE, assumption 57) -/
def State.mgmtLost (s : State) (p : PortId) : State :=
  let gone := s.link.relays.filter (fun r => decide (r.2.2.1 = p) && decide (r.1 ≠ p))
  let x := s.sec
  let s1 := { s with
    link := { s.link with relays := s.link.relays.filter (fun r => decide (r.1 ≠ p) && decide (r.2.2.1 ≠ p)) }
    sec := { x with
      attState := if x.remote.any (fun r => decide (r.1 = p)) then 6 else x.attState
      remote := x.remote.filter (fun r => decide (r.1 ≠ p))
      attQ := x.attQ.filter (fun q => match q.src with | .remote r _ => decide (r ≠ p) | _ => true)
      signing := x.signing.filter (fun q => match q.1.src with | .remote r _ => decide (r ≠ p) | _ => true) } }
  gone.foldl (fun s r => s.sendMgmtResp r.1 r.2.1 6 []) s1

/-! ### A port goes DOWN (R357) -/

/-- A port with its buffers, queues and credits as training finds them; its partner, counts and latency stay. (DEDUCED, assumption 55) -/
def Port.torn (x : Port) (st : PortState) : Port :=
  { state := st, partner := x.partner, partnerPort := x.partnerPort, partnerRole := x.partnerRole, downCause := x.downCause,
    latPs := x.latPs, rttPs := x.rttPs, txFlits := x.txFlits, rxFlits := x.rxFlits, nextTag := x.nextTag }

/-- What the loss of a link does to the system, by what the link was used for. -/
def State.linkGone (s : State) (p : PortId) (u : PortUse) : State :=
  match u with
  | .upstream =>
    ({ s with link := { s.link with upValid := false }, time := { s.time with holdover := true } }).instLost p.val
  | .downstream =>
    if s.isPlanet then s.regionLost 0 p.val else s.sendLost p
  | .standby => s.reportPorts
  | .none => s.reportPorts

/-- Take a port out of use. -/
def State.tear (s : State) (p : PortId) (st : PortState) : State :=
  let x := s.port p
  (((s.setPort p (x.torn st)).losePeers p).mgmtLost p).linkGone p x.use

/-- R357: a port goes DOWN with a cause. (DEDUCED, assumption 55) -/
def State.portDown (s : State) (p : PortId) (cause : Nat) : State :=
  if (s.port p).state = .off ∨ (s.port p).state = .down then s
  else
    let s1 := (s.updPort p (fun x => { x with downCause := cause })).addFld (Reg.lnkPortErr_downs.port p) 1
    let s2 := s1.tear p .down
    (s2.updPort p (fun x => { x with wait1ms := decide (cause = 7) })).linkEvent p.val

/-! ### Links that become ACTIVE -/

/-- Set what a port's link is used for. -/
def State.setUse (s : State) (p : PortId) (u : PortUse) : State := s.updPort p (fun x => { x with use := u })

/-- What an ACTIVE link to a known partner becomes (R357 cause 6, R371, R372). -/
def State.settlePort (s : State) (p : PortId) : State :=
  let x := s.port p
  if x.state ≠ .active then s
  else if x.foreign then s.portDown p 6
  else if s.isPlanet then
    if x.partnerRole = 1 then s.portDown p 6
    else if x.partner = 0 then s.join 0 p.val
    else if x.use ≠ .none then s
    else if (s.topoEnt x.partner).state = 0 then s.portDown p 6
    else (s.setUse p .standby).reattachNext
  else if s.link.dev = 0 then
    if x.partnerRole = 1 ∨ x.partner ≠ 0 then s.sendCtl p (topoMsg 1 0 p.val 0 0 0 2) else s
  else if x.partnerRole = 2 ∧ x.partner = s.link.dev then s.portDown p 6
  else if x.use = .none ∧ (x.partnerRole = 1 ∨ x.partner ≠ 0) then (s.setUse p .standby).reportPorts
  else s.reportPorts

/-- A Moon takes the link at port p as its upstream link, with a hop count; the former one becomes standby (R371, R373). What it could
not report goes now. -/
def State.takeUpstream (s : State) (p : PortId) (hops : Nat) : State :=
  let s1 := match s.upstream with
    | some q => if q ≠ p ∧ s.portUp q then s.setUse q .standby else s
    | none => s
  let s2 := s1.setUse p .upstream
  { s2 with link := { s2.link with upPort := p.val, upValid := true, hops := hops, refused := false } }.tellWaiting

/-- Every other ACTIVE link of a newly numbered Moon to a numbered device is standby (R371). -/
def State.restStandby (s : State) : List PortId → State
  | [] => s
  | p :: l =>
    let x := s.port p
    (if x.state = .active ∧ x.use = .none ∧ (x.partnerRole = 1 ∨ x.partner ≠ 0) then s.setUse p .standby else s).restStandby l

/-- Credits for shards are granted on the upstream link while staging space is free (R27, R358). (DEDUCED, assumption 58) -/
def State.instCredits (s : State) : State :=
  match s.upstream with
  | none => s
  | some p =>
    let used := (s.port p).rxInst + ((s.port p).inMsgs.filter (fun m => decide (m.kind = 7))).length + popCount 8 s.fpc.held.toNat
    if used < 8 then (s.updPort p (fun x => { x with rxInst := x.rxInst + (8 - used) })).credit p 2 (8 - used) else s

/-- A Moon loses its number: what hangs below it learns that it has none. -/
def State.unnumber (s : State) : State :=
  let s1 := { s with link := { s.link with
    dev := 0, hops := 0, formed := false, upValid := false, topo := [], lostWait := [], portsWait := false } }
  (allPorts.foldl (fun (s : State) p => if (s.port p).state = .active then s.setUse p .none else s) s1).informL allPorts

end Sys2Proof.Machine
end

