-- ==== Sys2Proof/Machine/Link.lean ====
section
/-! DEFINITION. What a Trelbo port receives (R353 to R374): flits, link-layer messages, sync and time messages, topology messages,
peer requests and answers, and the events of training and loss. -/

namespace Sys2Proof.Machine

open Sys2Proof

/-! ### Flits (R356, R359) -/

/-- Read a data-lane message from its bytes (R361). -/
def msgOfBytes (bs : List SB) : DataMsg :=
  let v := leVal ((bs.take 16).map Prod.fst)
  { kind := bitsOf v 0 4, srcCtx := Fin.ofNat 16 (bitsOf v 4 4), dstCtx := Fin.ofNat 16 (bitsOf v 8 4), status := bitsOf v 12 8,
    tag := bitsOf v 20 16, len := bitsOf v 36 16 + 1, addr := bitsOf v 64 52, data := bs.drop 16 }

/-- Whether the receiver granted the credit that a data flit spends (R358, R359); the reserved channel has none. (DEDUCED, assumption 53) -/
def Port.granted (x : Port) (f : DataFlit) : Bool :=
  match f.ch with
  | 0 => decide (x.rxReq < 64)
  | 1 => true
  | 2 => !f.first || decide (0 < x.rxInst)
  | _ => false

/-- The payload of an accepted data flit joins its channel's message; a whole message waits for its command. A request keeps the space of
its last flit until then, the others' is free as they join. (DESIGN CHOICE, assumption 86) -/
def Port.take (x : Port) (f : DataFlit) : Port :=
  let sofar := (if f.first then [] else x.part.getD f.ch []) ++ f.payload
  let y := { x with
    rxReq := if f.ch = 0 ∧ f.last then x.rxReq + 1 else x.rxReq
    rxInst := if f.ch = 2 ∧ f.first then x.rxInst - 1 else x.rxInst
    rxFlits := x.rxFlits + 1
    part := x.part.set f.ch (if f.last then [] else sofar) }
  if f.last then { y with inMsgs := y.inMsgs ++ [msgOfBytes sofar] } else y

/-- Accept a data flit: its poisoned words count, it is acknowledged, or the port goes DOWN where no credit was held. -/
def State.acceptData (s : State) (p : PortId) (seq : Nat) (f : DataFlit) : State :=
  if !((s.port p).granted f) then s.portDown p 4
  else
    let n := ((payloadWords f.payload).filter anyPoison).length
    let s1 := (s.updPort p (fun x => { x.take f with rxSeq := (seq + 1) % 65536 })).addFld Reg.telPoisonIn_link n
    (s1.sendCtl p (ctlMsg 1 [(4, seq)])).credit p 0 (if f.ch = 0 ∧ !f.last then 1 else 0)

/-- A received data flit (R356). (DEDUCED, assumption 53) -/
def State.rxDataFlit (s : State) (p : PortId) (bs : List Byte) : State :=
  let x := s.port p
  let r := decodeDataFlit bs
  let nak := ctlMsg 2 [(4, x.rxSeq)]
  if x.state ≠ .active then s
  else if !r.crcOk then (s.addFld (Reg.lnkPortErr_crcData.port p) 1).sendCtl p nak
  else if r.null then s
  else
    let d := (r.seq + 65536 - x.rxSeq) % 65536
    if d = 0 then s.acceptData p r.seq r.flit
    else if 32768 ≤ d then s.addFld (Reg.lnkPortErr_dup.port p) 1
    else s.sendCtl p nak

/-- DATA_FLIT (R356). -/
def execDataFlit (p : PortId) (bytes : List Byte) (s : State) : Host.Outcome State Fault Refusal := .next (s.rxDataFlit p bytes)

/-- The messages of an accepted control flit join those that wait, SYNC messages by counter (R358); a reserved type is ignored and counted,
and a TOPO or INST message without credit takes the port DOWN. -/
def State.takeCtlMsgs (s : State) (p : PortId) : List W64 → State
  | [] => s
  | m :: l =>
    if 12 ≤ msgType m then (s.addFld (Reg.lnkPortErr_crcCtl.port p) 1).takeCtlMsgs p l
    else if msgClass m = 5 ∧ 64 ≤ (s.port p).rxCtl then s.portDown p 4
    else (s.updPort p (fun x => { x with
      inCtl := queueCtl x.inCtl m, rxCtl := if msgClass m = 5 then x.rxCtl + 1 else x.rxCtl })).takeCtlMsgs p l

/-- Accept a control flit. A flit that holds nothing but CACK is acknowledged with every sixteenth number only, so that
acknowledgements do not answer each other without end. (DEDUCED, assumption 53) -/
def State.acceptCtl (s : State) (p : PortId) (cseq : Nat) (msgs : List W64) : State :=
  let s1 := s.updPort p (fun x => { x with rxCseq := (cseq + 1) % 4096 })
  let s2 := if msgs.all (isType 3) && decide (cseq % 16 ≠ 15) then s1 else s1.sendCtl p (ctlMsg 3 [(4, cseq)])
  s2.takeCtlMsgs p msgs

/-- A received control flit (R356). (DEDUCED, assumption 53) -/
def State.rxCtlFlit (s : State) (p : PortId) (bs : List Byte) : State :=
  let x := s.port p
  let r := decodeCtlFlit bs
  let nak := ctlMsg 4 [(4, x.rxCseq)]
  if x.state ≠ .active ∧ x.state ≠ .measure then s
  else if !r.crcOk then (s.addFld (Reg.lnkPortErr_crcCtl.port p) 1).sendCtl p nak
  else if r.null then s
  else
    let d := (r.seq + 4096 - x.rxCseq) % 4096
    if d = 0 then s.acceptCtl p r.seq r.msgs
    else if 2048 ≤ d then s.addFld (Reg.lnkPortErr_dup.port p) 1
    else s.sendCtl p nak

/-- CONTROL_FLIT (R356). -/
def execControlFlit (p : PortId) (bytes : List Byte) (s : State) : Host.Outcome State Fault Refusal := .next (s.rxCtlFlit p bytes)

/-! ### Link-layer messages (R355, R356, R359) -/

/-- Whether sequence number `e` is later than `ack`, modulo `n`. -/
def laterSeq (n ack e : Nat) : Bool := decide (n / 2 ≤ (ack + n - e) % n)

/-- DACK: the data flits up to a number leave the replay buffer (R356). -/
def State.dack (s : State) (p : PortId) (m : W64) : State :=
  (s.updPort p (fun x => { x with replay := x.replay.filter (fun e => laterSeq 65536 (wBits m 4 16) e.1) })).pump p

/-- DACK (R356). -/
def execDack (p : PortId) (s : State) : Host.Outcome State Fault Refusal :=
  .next (s.onCtl p (isType 1) (fun m s => s.dack p m))

/-- CACK: the control flits up to a number leave the replay buffer (R356). -/
def State.cack (s : State) (p : PortId) (m : W64) : State :=
  (s.updPort p (fun x => { x with
    creplay := x.creplay.filter (fun e => laterSeq 4096 (wBits m 4 12) e.1)
    cown := x.cown.filter (fun e => laterSeq 4096 (wBits m 4 12) e.1) })).pump p

/-- CACK (R356). -/
def execCack (p : PortId) (s : State) : Host.Outcome State Fault Refusal :=
  .next (s.onCtl p (isType 3) (fun m s => s.cack p m))

/-- Send the data flits of a list again. -/
def State.resendData (s : State) (p : PortId) : List (Nat × DataFlit) → State
  | [] => s
  | (q, f) :: l => (s.emit (.flit p (encodeDataFlit q f))).resendData p l

/-- Send the control flits of a list again. -/
def State.resendCtl (s : State) (p : PortId) : List (Nat × List W64) → State
  | [] => s
  | (q, ms) :: l => (s.emit (.flit p (encodeCtlFlit q ms))).resendCtl p l

/-- R335 code 3: a replay counts once for each context with a flit in it. -/
def State.divReplay (s : State) : List CtxId → State
  | [] => s
  | c :: l => (s.div c 3 1).divReplay l

/-- DNAK: every data flit from a number on is sent again; 16 in a row that name one number take the port DOWN (R356, R357). -/
def State.dnak (s : State) (p : PortId) (m : W64) : State :=
  let x := s.port p
  let n := wBits m 4 16
  let run := if 0 < x.nakRun ∧ x.nakSeq = n then x.nakRun + 1 else 1
  let s1 := s.setPort p { x with nakSeq := n, nakRun := run }
  if 16 ≤ run then s1.portDown p 3
  else
    let l := x.replay.filter (fun e => laterSeq 65536 ((n + 65535) % 65536) e.1)
    ((s1.addFld (Reg.lnkPortErr_replays.port p) 1).resendData p l).divReplay (l.filterMap (fun e => e.2.own)).dedup

/-- DNAK (R356). -/
def execDnak (p : PortId) (s : State) : Host.Outcome State Fault Refusal :=
  .next (s.onCtl p (isType 2) (fun m s => s.dnak p m))

/-- CNAK: every control flit from a number on is sent again, and counts for the contexts whose increments it carries (R335). -/
def State.cnak (s : State) (p : PortId) (m : W64) : State :=
  let x := s.port p
  let n := wBits m 4 12
  let run := if 0 < x.cnakRun ∧ x.cnakSeq = n then x.cnakRun + 1 else 1
  let s1 := s.setPort p { x with cnakSeq := n, cnakRun := run }
  if 16 ≤ run then s1.portDown p 3
  else
    let from_ := fun (k : Nat) => laterSeq 4096 ((n + 4095) % 4096) k
    ((s1.addFld (Reg.lnkPortErr_replays.port p) 1).resendCtl p (x.creplay.filter (fun e => from_ e.1))).divReplay
      ((x.cown.filter (fun e => from_ e.1)).map Prod.snd).dedup

/-- CNAK (R356). -/
def execCnak (p : PortId) (s : State) : Host.Outcome State Fault Refusal :=
  .next (s.onCtl p (isType 4) (fun m s => s.cnak p m))

/-- CREDIT: the credits of a channel rise (R359). -/
def State.addCredit (s : State) (p : PortId) (m : W64) : State :=
  let n := wBits m 6 16
  (s.updPort p (fun x => match wBits m 4 2 with
    | 0 => { x with credReq := x.credReq + n }
    | 2 => { x with credInst := x.credInst + n }
    | 3 => { x with credCtl := x.credCtl + n }
    | _ => x)).pump p

/-- CREDIT (R359). -/
def execCredit (p : PortId) (s : State) : Host.Outcome State Fault Refusal :=
  .next (s.onCtl p (isType 5) (fun m s => s.addCredit p m))

/-! ### System counters (R201, R365) -/

/-- A SYNC_INC: the Planet applies it and sends the value down; a Moon passes it on toward the Planet, once it has a path. -/
def State.syncInc (s : State) (p : PortId) : State :=
  if s.noPath then s
  else s.onCtl p (isType 6) (fun m s => s.sysAdd (wBits m 4 8) (wBits m 12 32))

/-- SYNC_INC (R201). -/
def execSyncInc (p : PortId) (s : State) : Host.Outcome State Fault Refusal := .next (s.syncInc p)

/-- A Moon is formed when it holds its number and every counter value (R371). -/
def State.moonFormed (s : State) : State :=
  if s.isMoon ∧ s.link.dev ≠ 0 ∧ s.link.syncGot = BitVec.allOnes 256 then { s with link := { s.link with formed := true } } else s

/-- A SYNC_VAL at a Moon: its copy is replaced, its waiters are released, and the value goes down the tree (R201, R365). -/
def State.syncVal' (s : State) (m : W64) : State :=
  let n := wBits m 4 8
  let v := BitVec.ofNat 32 (wBits m 12 32)
  let s1 := s.setSys n v
  let s2 := { s1 with link := { s1.link with syncGot := s1.link.syncGot ||| BitVec.ofNat 256 (2 ^ n) } }
  (s2.sendCtlAll (syncValMsg n v) s2.downstream).moonFormed

/-- SYNC_VAL (R201). A refused device holds no copy (R372). -/
def execSyncVal (p : PortId) (s : State) : Host.Outcome State Fault Refusal :=
  .next (s.onCtl p (isType 7) (fun m s => if s.isMoon ∧ s.serves ∧ s.upstream = some p then s.syncVal' m else s))

/-! ### Time (R369) -/

/-- The offset of a received TIME message in 2^−32 ns: the sent time, the nearest that has its 32 low bits, plus L, less own time.
(DEDUCED, assumption 55) -/
def State.timeOffset (s : State) (p : PortId) (m : W64) : Int :=
  signed 32 (wBits m 4 32 + 2 ^ 32 - s.time.ns.toNat % 2 ^ 32) * 2 ^ 32 + ((wBits m 36 28 * 16 : Nat) : Int) - (s.time.frac : Int) +
    ((s.port p).latPs * 2 ^ 32 / 1000 : Nat)

/-- R369: act on an offset; the first message of all steps the time (R371). An offset that is slewed shows the rate that this clock lacks,
over the 2^15 cycles between messages. (DEDUCED, assumption 55) -/
def State.timeAct (s : State) (off : Int) : State :=
  let a := off.natAbs
  let ns := 2 ^ 32
  let t := s.time
  let good := if a ≤ ns then min 4 (t.good + 1) else 0
  let u := { t with
    offsetPs := clampInt (-(2 ^ 31)) (2 ^ 31 - 1) (off * 1000 / ns), holdover := false, firstTime := false, good := good
    locked := if 2 * ns < a then false else t.locked || decide (4 ≤ good) }
  if 1000 * ns < a ∨ t.firstTime then
    let s1 := { s with time := { u.setFine (u.fine + off) with slew := 0 } }
    (s1.addFld Reg.timeStatus_steps 1).linkEvent 12
  else { s with time := { u with slew := off, rate := clampInt (-2290649) 2290649 (off / 2 ^ 15) } }

/-- TIME (R369). -/
def execTime (p : PortId) (s : State) : Host.Outcome State Fault Refusal :=
  .next (s.onCtl p (isType 8) (fun m s => if s.isMoon ∧ s.upstream = some p then s.timeAct (s.timeOffset p m) else s))

/-- TIME_SEND_INTERVAL: the Planet and a locked Moon send TIME on their downstream tree links (R369). -/
def execTimeSendInterval (s : State) : Host.Outcome State Fault Refusal :=
  .next (if s.isPlanet ∨ (s.isMoon ∧ s.link.upValid ∧ s.time.locked) then s.sendCtlAll s.timeMsg s.downstream else s)

/-- TIME_HOLDOVER: no TIME message for 1 ms (R369). -/
def execTimeHoldover (s : State) : Host.Outcome State Fault Refusal :=
  .next (if s.isMoon then { s with time := { s.time with locked := false, holdover := true, good := 0 } } else s)

/-! ### Latency (R364) -/

/-- MEASURE_REQUEST: a request is answered with its id and the turnaround that this device took (R364). -/
def execMeasureRequest (p : PortId) (turn : BitVec 30) (s : State) : Host.Outcome State Fault Refusal :=
  .next (s.onCtl p (fun m => isType 9 m && decide (wBits m 4 2 = 0)) (fun m s =>
    s.sendCtl p (ctlMsg 9 [(4, 1), (6, wBits m 6 8), (14, turn.toNat)])))

/-- MEASURE_REPLY: the time of one exchange, `ui` unit intervals by this device's own measure, counts toward L (R364). -/
def execMeasureReply (p : PortId) (ui : Nat) (s : State) : Host.Outcome State Fault Refusal :=
  .next (s.onCtl p (fun m => isType 9 m && decide (wBits m 4 2 = 1)) (fun m s => s.updPort p (fun x =>
    if x.measDone < 16 then
      { x with measDone := x.measDone + 1, measSum := x.measSum + ui, measTurn := x.measTurn + wBits m 14 30 }
    else x)))

/-! ### Topology messages (R371 to R373) -/

/-- A JOIN: at the Planet it is answered; a numbered Moon passes it on, naming its own port for a neighbour's (R372). -/
def State.joinMsg (s : State) (p : PortId) : State :=
  if s.isPlanet then
    s.onCtl p (isSub 10 1) (fun m s => if tmDev m = 0 then s.join 0 p.val else s.join (tmDev m) (tmPort m))
  else if s.link.dev ≠ 0 ∧ s.noPath then s
  else s.onCtl p (isSub 10 1) (fun m s =>
    if s.link.dev = 0 then s else s.sendUp (if tmDev m = 0 then topoMsg 1 s.link.dev p.val 0 0 0 2 else m))

/-- JOIN (R372). -/
def execJoin (p : PortId) (s : State) : Host.Outcome State Fault Refusal := .next (s.joinMsg p)

/-- A Moon's part in an ASSIGN: it takes its number or new hop count, sends the message across one of its ports, or passes it on. -/
def State.assigned (s : State) (p : PortId) (m : W64) : State :=
  let n := tmDev m
  let q := portNo (tmPort m)
  if s.link.dev = 0 then
    let s1 := s.takeUpstream p (tmHops m)
    let s2 := ({ s1 with link := { s1.link with dev := n }, time := { s1.time with firstTime := true } }).restStandby allPorts
    ((s2.reportPorts.informL allPorts).instCredits).moonFormed
  else if n = s.link.dev then (s.takeUpstream p (tmHops m)).instCredits
  else if tmRoute m = s.link.dev then
    if s.portUp q ∧ ((s.port q).partner = 0 ∨ (s.port q).partner = n) then
      ((s.updPort q (fun x => { x with use := .downstream, partner := n })).setRoute n q).sendCtl q
        (topoMsg 2 n (tmPort m) (tmHops m) n 0 0)
    else s
  else
    match s.routePort (tmRoute m) with
    | some r => (s.setRoute n r).sendCtl r m
    | none => s

/-- ASSIGN (R371). -/
def execAssign (p : PortId) (s : State) : Host.Outcome State Fault Refusal :=
  .next (s.onCtl p (isSub 10 2) (fun m s => if s.isMoon then s.assigned p m else s))

/-- A LOST at the Planet (R373); the sender's port is no longer ACTIVE. -/
def State.lostAt (s : State) (m : W64) : State :=
  let e := s.topoEnt (tmDev m)
  (s.setTopo (tmDev m) { e with active := e.active &&& (255 - 2 ^ tmPort m) }).regionLost (tmDev m) (tmPort m)

/-- A message for the Planet: `f` at the Planet, passed on by a numbered Moon, once it has a path. -/
def State.upward (s : State) (p : PortId) (sub : Nat) (f : W64 → State → State) : State :=
  if s.noPath then s
  else s.onCtl p (isSub 10 sub) (fun m s => if s.isPlanet then f m s else (s.setRoute (tmDev m) p).sendUp m)

/-- LOST (R373). -/
def execLost (p : PortId) (s : State) : Host.Outcome State Fault Refusal :=
  .next (if s.noPath then s else s.onCtl p (isSub 10 3) (fun m s => if s.isPlanet then s.lostAt m else s.sendUp m))

/-- A Moon's part in a REATTACH: it takes the link as its upstream link and answers, sends the message across one of its ports, or passes
it on (R373). -/
def State.reattach (s : State) (p : PortId) (m : W64) : State :=
  let x := tmDev m
  let q := portNo (tmPort m)
  if x = s.link.dev then
    ((s.takeUpstream p (tmHops m)).sendCtl p (topoMsg 5 x p.val (tmHops m) 0 s.activeMask 2)).instCredits
  else if tmRoute m = s.link.dev then
    if s.portUp q then
      ((s.updPort q (fun y => { y with use := .downstream, partner := x })).setRoute x q).sendCtl q
        (topoMsg 4 x (tmPort m) (tmHops m) x 0 0)
    else s
  else
    match s.routePort (tmRoute m) with
    | some r => (s.setRoute x r).sendCtl r m
    | none => s

/-- REATTACH (R373). -/
def execReattach (p : PortId) (s : State) : Host.Outcome State Fault Refusal :=
  .next (s.onCtl p (isSub 10 4) (fun m s => if s.isMoon ∧ s.link.dev ≠ 0 then s.reattach p m else s))

/-- ATTACHED (R373). -/
def execAttached (p : PortId) (s : State) : Host.Outcome State Fault Refusal :=
  .next (s.upward p 5 (fun m s => s.attached (tmDev m) (tmMask m)))

/-- A neighbour says who it is, and `foreign` whether it belongs to another system, for which the message has no place (R357); a Moon whose
upstream neighbour has lost its number has lost its own. -/
def State.neighbour (s : State) (p : PortId) (m : W64) (foreign : Bool) : State :=
  let s1 := s.updPort p (fun x => { x with partner := tmDev m, partnerPort := tmPort m, partnerRole := tmRole m, foreign := foreign })
  if s.isMoon ∧ s.upstream = some p ∧ tmRole m = 2 ∧ tmDev m = 0 then s1.unnumber else s1.settlePort p

/-- A PORTS message: from below, a report for the Planet; from a neighbour, who it is. `nbrs` are the reporter's links as the Planet
learns them: own port, neighbour's number (256 for one that has none), neighbour's port. -/
def State.portsMessage (s : State) (p : PortId) (nbrs : List (Nat × Nat × Nat)) (foreign : Bool) : State :=
  let report := decide ((s.port p).use = .downstream) && s.portUp p
  if report && s.noPath then s
  else s.onCtl p (isSub 10 6) (fun m s =>
    if report then
      (if s.isPlanet then s.portsReport (tmDev m) (tmMask m) nbrs
       else if tmDev m = 0 then s.neighbour p m foreign else (s.setRoute (tmDev m) p).sendUp m)
    else s.neighbour p m foreign)

/-- PORTS (R371). (DESIGN CHOICE, assumption 56) -/
def execPorts (p : PortId) (note : PortsNote) (s : State) : Host.Outcome State Fault Refusal :=
  .next (s.portsMessage p note.nbrs note.foreign)

/-- A Moon's part in a REFUSE: an unnumbered one is refused; others send it across a port or pass it on (R372). -/
def State.refuse (s : State) (m : W64) : State :=
  if s.link.dev = 0 then { s with link := { s.link with refused := true } }
  else if tmRoute m = s.link.dev then s.sendCtl (portNo (tmPort m)) (topoMsg 7 0 (tmPort m) 0 0 0 0)
  else s.sendCtl? (s.routePort (tmRoute m)) m

/-- REFUSE (R372). -/
def execRefuse (p : PortId) (s : State) : Host.Outcome State Fault Refusal :=
  .next (s.onCtl p (isSub 10 7) (fun m s => if s.isMoon then s.refuse m else s))

/-- REATTACH_NO_ANSWER: 10 µs have passed since device `dev` was asked (R373). -/
def execReattachNoAnswer (dev : BitVec 8) (s : State) : Host.Outcome State Fault Refusal :=
  .next (if s.isPlanet then s.noAnswer dev.toNat else s)

/-- The held completions of a Moon without a path end (R366). (DEDUCED, assumption 32) -/
def State.endHeld (s : State) : List (CtxId × Engine) → State
  | [] => s
  | (c, e) :: l => (s.complete true c e).endHeld l

/-- REATTACH_WAIT_EXPIRY: the Planet frees what is still REATTACHING (R373); a Moon without a path ends its held completions (R366) and
no longer holds its number. -/
def execReattachWaitExpiry (s : State) : Host.Outcome State Fault Refusal :=
  .next (if s.isPlanet then s.freeRegion
    else if s.noPath then
      let s1 := (s.endHeld s.link.heldSig).flrSettle allCtx
      if s1.link.dev = 0 then s1 else s1.unnumber
    else s)

/-- JOIN_RETRY: a refused device sends JOIN again (R372). -/
def execJoinRetry (s : State) : Host.Outcome State Fault Refusal :=
  .next (if s.isMoon ∧ s.link.refused then
      match allPorts.find? (fun p => s.portUp p && (decide ((s.port p).partnerRole = 1) || decide ((s.port p).partner ≠ 0))) with
      | some p => s.sendCtl p (topoMsg 1 0 p.val 0 0 0 2)
      | none => s
    else s)

/-! ### Peer requests and answers (R361, R362) -/

/-- The response space that an answer gives back (R359). -/
def DataMsg.frees (m : DataMsg) : Nat :=
  match m.kind with
  | 3 => flitsFor m.data.length
  | 4 => 1
  | 6 => mgmtFlits
  | _ => 0

/-- A message as the transit buffer delivers its words (R384, R385). -/
def DataMsg.read (m : DataMsg) : DataMsg := { m with data := throughFabric m.addr m.errs m.data, errs := [] }

/-- Take the oldest received message of a kind and act on it; the space of a request is credited, that of a response is free. -/
def State.onMsg (s : State) (p : PortId) (kind : Nat) (act : DataMsg → State → State) : State :=
  match (s.port p).inMsgs.find? (fun m => decide (m.kind = kind)) with
  | none => s
  | some m =>
    let n := if kindChannel kind = 0 then 1 else 0
    let s1 := s.updPort p (fun x => { x with inMsgs := x.inMsgs.erase m, rxReq := x.rxReq - n, respRes := x.respRes - m.frees })
    let s2 := s1.noteTransit m.dstCtx m.addr m.errs
    act m.read ((if kindChannel kind = 1 then s2.pump p else s2).credit p 0 n)

/-- R362: whether the device serves requests for context c on a port. -/
def State.peerServes (s : State) (p : PortId) (c : CtxId) : Bool :=
  Nat.testBit (s.fld Reg.lnkSysCfg_peerMask) c.val && s.flag (Reg.lnkPortCtl_peerEn.port p) && s.serves

/-- Whether a place belongs to this device or its host: a request is not passed on to a third device (R351). -/
def Loc.near (l : Option Loc) : Bool :=
  match l with
  | none => false
  | some (.peer ..) => false
  | some _ => true

/-- READ: serve it and answer, or answer a fault with every byte poisoned (R362). (DEDUCED, assumption 54) -/
def State.serveRead (s : State) (p : PortId) (m : DataMsg) : State :=
  let v := s.hostView m.dstCtx
  let may := s.peerServes p m.dstCtx && (piecesOf m.addr m.len).all (fun e => Loc.near (s.readPlace v e.1))
  let lost := may && s.lostFor m.dstCtx .tmv (peerSlot p) && s.readsHost v m.addr m.len
  let ok := may && !lost
  let h := dataHeader 3 m.srcCtx.val m.dstCtx.val (b2n (!ok)) m.tag m.len m.addr
  if ok then (s.noteRead v m.addr m.len).sendData p 3 h (delivered (s.readBytes v m.addr m.len))
  else (if lost then s.dropLost m.dstCtx .tmv (peerSlot p) else s).sendData p 3 h (poisonRun m.len)

/-- READ (R362). -/
def execRead (p : PortId) (s : State) : Host.Outcome State Fault Refusal :=
  .next (s.tryOnce (fun s => s.onMsg p 1 (fun m s => s.serveRead p m))).1

/-- WRITE: apply it and answer, or answer a fault (R362). (DEDUCED, assumption 54) -/
def State.serveWrite (s : State) (p : PortId) (m : DataMsg) : State :=
  let v := s.hostView m.dstCtx
  let ok := s.peerServes p m.dstCtx && (piecesOf m.addr m.len).all (fun e => Loc.near (s.writePlace v e.1))
  let s1 := if ok then (s.writeBytes v (.tmv, 2 ^ 20 + 1) m.addr (m.data.take m.len)).1 else s
  s1.sendData p 4 (dataHeader 4 m.srcCtx.val m.dstCtx.val (b2n (!ok)) m.tag m.len m.addr) []

/-- WRITE (R362). -/
def execWrite (p : PortId) (s : State) : Host.Outcome State Fault Refusal :=
  .next (s.tryOnce (fun s => s.onMsg p 2 (fun m s => s.serveWrite p m))).1

/-- Take the request that an answer belongs to. -/
def State.answered (s : State) (p : PortId) (tag : Nat) (write : Bool) : Option (PeerReq × State) :=
  let mine := fun (r : PeerReq) => decide (r.port = p) && decide (r.tag = tag) && decide (r.write = write)
  (s.link.peerReqs.find? mine).map (fun r => (r, { s with link := { s.link with peerReqs := s.link.peerReqs.erase r } }))

/-- The bytes of a stream tile arrive. -/
def State.fillStream (s : State) (r : PeerReq) (bytes : List SB) : State :=
  match s.armings.findIdx? (fun a => decide (a.ctx = r.ctx) && decide (a.eng = r.eng) && decide (a.slot = r.slot) &&
      a.flight.any (fun f => decide (f.tile = r.tile))) with
  | none => s
  | some i =>
    match s.armAt i with
    | none => s
    | some a =>
      let fill := fun (f : Flight) =>
        let d := f.data.take r.off ++ bytes ++ f.data.drop (r.off + r.len)
        { f with data := if f.fault.isSome then d.take f.faultAt ++ f.data.drop f.faultAt else d }
      let fl := a.flight.map (fun f => if f.tile = r.tile then fill f else f)
      s.setArming i { a with flight := fl }

/-- READ_DATA: the bytes go where they were asked for; a fault fails the access (R231, R362). An answer that no request awaits is
discarded (R377). (DEDUCED, assumption 54) -/
def State.readData (s : State) (p : PortId) (m : DataMsg) : State :=
  match s.answered p m.tag false with
  | none => s
  | some (r, s1) =>
    if m.status ≠ 0 then s1.failPeer .tierFault p.val r
    else
      let bytes := padPoison r.len m.data
      if r.stream then s1.fillStream r bytes else s1.deposit r bytes

/-- READ_DATA (R362). -/
def execReadData (p : PortId) (s : State) : Host.Outcome State Fault Refusal := .next (s.onMsg p 3 (fun m s => s.readData p m))

/-- WRITE_ACK: a write is answered; a fault fails it. (DEDUCED, assumption 54) -/
def State.writeAck (s : State) (p : PortId) (m : DataMsg) : State :=
  match s.answered p m.tag true with
  | none => s
  | some (r, s1) =>
    if m.status ≠ 0 then s1.failPeer .tierFault p.val r
    else if r.eng = .tmv ∧ r.slot = 2 ^ 20 then s1.tailAnswered r.ctx true else s1

/-- WRITE_ACK (R362). -/
def execWriteAck (p : PortId) (s : State) : Host.Outcome State Fault Refusal := .next (s.onMsg p 4 (fun m s => s.writeAck p m))

/-! ### Ports (R357, R363, R410) -/

/-- LOSS_OF_SIGNAL (R357 cause 1): of a port that has found its partner's signal. -/
def execLossOfSignal (p : PortId) (s : State) : Host.Outcome State Fault Refusal :=
  .next (if (s.port p).state = .detect then s else s.portDown p 1)

/-- FLIT_SILENCE_TIMEOUT (R357 cause 2): of a port that has found its partner's flits. -/
def execFlitSilenceTimeout (p : PortId) (s : State) : Host.Outcome State Fault Refusal :=
  .next (if (s.port p).state = .measure ∨ (s.port p).state = .active then s.portDown p 2 else s)

/-- PORT_DOWN_REQUEST (R357 cause 5). -/
def execPortDownRequest (p : PortId) (s : State) : Host.Outcome State Fault Refusal := .next (s.portDown p 5)

/-- Send 64 periods of the Comet pattern; an ACTIVE port, or one whose role holds it OFF, sends none (R349, R375, R410). -/
def State.sendComet (s : State) (p : PortId) : State :=
  if s.portUp p || !(s.isPlanet || s.isMoon) then s else s.emit (.comet p)

/-- COMET_SEND (R410). -/
def execCometSend (p : PortId) (s : State) : Host.Outcome State Fault Refusal := .next (s.sendComet p)

/-- PARTNER_SIGNAL_DETECT: a port that waits in DETECT, or is DOWN and need not wait, begins to train (R357, R363). -/
def execPartnerSignalDetect (p : PortId) (s : State) : Host.Outcome State Fault Refusal :=
  let x := s.port p
  .next (if s.flag (Reg.lnkPortCtl_en.port p) && (s.isPlanet || s.isMoon) &&
      (decide (x.state = .detect) || (decide (x.state = .down) && !x.wait1ms)) then
    s.setPort p { x.torn .eq with lanesOk := 63 } else s)

/-- Send the 16 MEASURE requests (R364). (DEDUCED, assumption 55) -/
def State.sendMeasure (s : State) (p : PortId) : List Nat → State
  | [] => s
  | k :: l => (s.sendCtl p (ctlMsg 9 [(6, k)])).sendMeasure p l

/-- A port becomes ACTIVE with its latency measured (R364), and joins the system (R371, R372). (DEDUCED, assumption 55) -/
def State.portActive (s : State) (p : PortId) : State :=
  let x := s.port p
  let s1 := s.setPort p { x with
    state := .active
    latPs := min (2 ^ 20 - 1) ((x.measSum - x.measTurn) * 753 / 640)
    rttPs := min (2 ^ 20 - 1) (x.measSum * 753 / 320) }
  (s1.pump p).settlePort p

/-- TRAINING_STATE_DONE: to the next training state; MEASURE ends once 16 exchanges and the partner's PORTS are in (R363). -/
def execTrainingStateDone (p : PortId) (s : State) : Host.Outcome State Fault Refusal :=
  let x := s.port p
  .next (match x.state with
    | .eq => s.setPort p { x with state := .align }
    | .align =>
      let s1 := s.setPort p { x with state := .measure, partner := 0, partnerPort := 0, partnerRole := 0 }
      (s1.sendCtl p (s1.portsMsg p)).sendMeasure p (List.range 16)
    | .measure => if x.measDone = 16 ∧ x.partnerRole ≠ 0 then s.portActive p else s
    | _ => s)

/-- TRAINING_TIMEOUT (R357 cause 7). -/
def execTrainingTimeout (p : PortId) (s : State) : Host.Outcome State Fault Refusal :=
  .next (if (s.port p).state = .eq ∨ (s.port p).state = .align ∨ (s.port p).state = .measure then s.portDown p 7 else s)

/-- RETRAIN_WAIT_EXPIRY: the 1 ms after cause 7 has passed (R357). -/
def execRetrainWaitExpiry (p : PortId) (s : State) : Host.Outcome State Fault Refusal :=
  .next (s.updPort p (fun x => { x with wait1ms := false }))

end Sys2Proof.Machine
end

