-- ==== Sys2Proof/Machine/Install.lean ====
section
/-! DEFINITION. Installing and switching weights (chapter 11): the manifest, the plan, the installer's work, shards on their way down
the chains, and the switch. -/

namespace Sys2Proof.Machine

open Sys2Proof

/-! ### The manifest (R312) -/

/-- A little-endian word of a byte list. -/
def wordAt (bs : List Byte) (i : Nat) : Nat := leVal ((bs.drop (8 * i)).take 8)

/-- The fields of a manifest header. -/
structure Manifest where
  installId : Nat
  model : Nat
  n : Nat
  report : Nat
  crc : Nat
  deriving DecidableEq, Repr

/-- Read a manifest header. -/
def Manifest.ofBytes (bs : List Byte) : Manifest :=
  { installId := bitsOf (wordAt bs 0) 0 32, model := bitsOf (wordAt bs 0) 32 6, n := bitsOf (wordAt bs 0) 40 24,
    report := bitsOf (wordAt bs 1) 0 52, crc := bitsOf (wordAt bs 2) 0 32 }

/-- Whether a header's reserved bits are 0. -/
def headerClean (bs : List Byte) : Bool :=
  decide (bitsOf (wordAt bs 0) 38 2 = 0) && decide (bitsOf (wordAt bs 1) 52 12 = 0) && decide (bitsOf (wordAt bs 2) 32 32 = 0) &&
  (List.range 5).all (fun i => decide (wordAt bs (3 + i) = 0))

/-- Read a shard descriptor. -/
def ShardDesc.ofBytes (bs : List Byte) : ShardDesc :=
  { index := bitsOf (wordAt bs 0) 0 24, kind := bitsOf (wordAt bs 0) 24 4, bytes := bitsOf (wordAt bs 0) 28 20 + 1,
    crc := bitsOf (wordAt bs 1) 0 32, src := bitsOf (wordAt bs 2) 0 52, target := bitsOf (wordAt bs 3) 0 36,
    dest := BitVec.ofNat 256 (leVal ((bs.drop 32).take 32)) }

/-- The 64 bytes of a shard descriptor. -/
def ShardDesc.toBytes (d : ShardDesc) : List Byte :=
  leBytes 8 (d.index % 2 ^ 24 + d.kind * 2 ^ 24 + (d.bytes - 1) * 2 ^ 28) ++ leBytes 8 d.crc ++ leBytes 8 d.src ++ leBytes 8 d.target ++
  leBytes 32 d.dest.toNat

/-- Whether a descriptor's reserved bits are 0. -/
def descClean (bs : List Byte) : Bool :=
  decide (bitsOf (wordAt bs 0) 48 16 = 0) && decide (bitsOf (wordAt bs 1) 32 32 = 0) && decide (bitsOf (wordAt bs 2) 52 12 = 0) &&
  decide (bitsOf (wordAt bs 3) 36 28 = 0)

/-- The tile images of a kind 2 shard (R316). -/
def ShardDesc.images (d : ShardDesc) : Nat := bitsOf d.target 10 3 + 1

/-- The first tile of a kind 2 shard. -/
def ShardDesc.firstTile (d : ShardDesc) : Nat := bitsOf d.target 0 10

/-- Whether a descriptor's fields are in range for a window of `wsize` pages. -/
def ShardDesc.inRange (d : ShardDesc) (wsize : Nat) : Bool :=
  match d.kind with
  | 0 => decide (d.target = 0)
  | 1 => decide (16384 * d.target + d.bytes ≤ 4096 * wsize)
  | 2 => decide (bitsOf d.target 13 23 = 0) && decide (d.firstTile + d.images ≤ 1024) && decide (d.bytes = 131072 * d.images)
  | _ => false

/-- The descriptors of a manifest, if it breaks no rule of R312. -/
def manifestDescs (hdr body : List Byte) (model wsize : Nat) : Option (List ShardDesc) :=
  let h := Manifest.ofBytes hdr
  let raw := chunksOf 64 h.n body
  let ds := raw.map ShardDesc.ofBytes
  if headerClean hdr && decide (h.model = model) && decide (1 ≤ h.n) && decide ((crc32c body).toNat = h.crc) && raw.all descClean &&
      ds.zipIdx.all (fun p => decide (p.1.index = p.2)) && ds.all (fun d => d.inRange wsize) &&
      (match ds with
        | [] => false
        | d :: _ => decide (d.kind = 0) && ds.all (fun e => decide (e.dest &&& ~~~ d.dest = 0))) then some ds
  else none

/-- The devices that a shard is addressed to. -/
def ShardDesc.devices (d : ShardDesc) : List Nat := (List.range 256).filter (fun i => d.dest.getLsbD i)

/-! ### The plan (R313, R314) -/

/-- Read one plan record. The e_w byte of a type 3 record is taken as a signed byte, also outside the 6 bits that CAF_TSET_DESC0 shows
(R99, R313). (DESIGN CHOICE, assumption 78) -/
def planRec (bs : List Byte) : Option PlanRec :=
  let v := leVal bs
  let b := fun (i n : Nat) => bitsOf v (8 * i) (8 * n)
  match b 0 1 with
  | 1 => some (.device (b 4 4))
  | 2 => some (.object (b 4 5) (b 12 4))
  | 3 => some (.tset (b 4 2) (b 6 2) (b 8 1 + 1) (b 10 2 + 1) (b 12 2 + 1) (b 14 1) (signed 8 (b 15 1)))
  | 4 => some (.shifts (b 4 2) (BitVec.ofNat 64 (b 8 8)))
  | _ => none

/-- The records of a plan shard that apply to a device; none: the shard is malformed. -/
def planRecs (dev : Nat) (bytes : List Byte) : Option (List PlanRec) :=
  let cs := (chunksOf 32 (bytes.length / 32 + 1) bytes).filter (fun c => decide (leVal ((c.drop 1).take 1) = dev))
  if bytes.length % 32 ≠ 0 ∨ cs.any (fun c => decide (leVal ((c.drop 2).take 2) ≠ 0)) then none
  else cs.mapM planRec

/-- The data shards that the type 1 record counts. -/
def planShards : List PlanRec → Nat
  | .device n :: _ => n
  | _ => 0

/-- The objects of a plan: (offset, size) in pages. -/
def planObjects (l : List PlanRec) : List (Nat × Nat) :=
  l.filterMap (fun r => match r with
    | .object o n => some (o, n)
    | _ => none)

/-- Whether no two ranges of a list meet. -/
def disjoint : List (Nat × Nat) → Bool
  | [] => true
  | a :: l => l.all (fun b => !rangesMeet a.1 a.2 b.1 b.2) && disjoint l

/-- Whether a record other than the first is in order (R81, R313). -/
def PlanRec.fits (m : Model) : PlanRec → Bool
  | .device _ => false
  | .object o n => decide (1 ≤ n) && decide (o + n ≤ m.wsize)
  | .tset id first nRb nCb rl wf _ =>
    m.tsets.contains id && decide (nRb ≤ 64) && decide (nCb ≤ 1024) && decide (nRb * nCb ≤ 1024) && decide (first + nRb * nCb ≤ 1024) &&
    decide (rl ≤ 1024) && decide (wf ≤ 1)
  | .shifts t _ => decide (t < 1024)

/-- R313: the rules that a device's records satisfy. -/
def planOk (m : Model) : List PlanRec → Bool
  | .device n :: l => l.all (PlanRec.fits m) && disjoint (planObjects (.device n :: l))
  | _ => false

/-- The group shifts of a tile by its type 4 record; 0 without one. -/
def planShift (l : List PlanRec) (tile : Nat) : W64 :=
  (l.findSome? (fun r => match r with
    | .shifts t s => if t = tile then some s else none
    | _ => none)).getD 0

/-- R83: the shift sum of a tile set: the largest over column blocks of Σ 2^s over the sectors in use. -/
def planHs (l : List PlanRec) (first nRb nCb rl : Nat) : Nat :=
  let tile := fun (cb rb : Nat) =>
    ((List.range (ceilDiv (if rb + 1 = nRb then rl else 1024) 64)).map (fun m => 2 ^ wBits (planShift l (first + cb * nRb + rb)) (4 * m) 4)).sum
  ((List.range nCb).map (fun cb => ((List.range nRb).map (tile cb)).sum)).foldl max 0

/-- Whether a tile lies in a slot that is neither FREE nor INSTALLING. -/
def State.tileTaken (s : State) (tile : Nat) : Bool :=
  List.any s.tsets (fun (e : Nat × TsetSlot) => decide (e.2.state = .ready ∨ e.2.state = .retiring) && e.2.tiles.contains tile)

/-- R314 step 1: delete what remains in the target slot, which was STALE or EMPTY until the START. -/
def State.deleteSlot (s : State) (i k : Nat) : State :=
  let gone := (List.filter (fun (e : Nat × Obj) => e.2.valid && decide (s.slotOf e.2 = some (i, k))) s.objs).map Prod.fst
  let s1 := s.setModel i ((s.model i).setSt k .stale)
  let s2 := gone.foldl (fun (s : State) j => s.deleteObj j) s1
  s2.setModel i ((s2.model i).setSt k .building)

/-- The first number from `n` up that a rising list leaves out. -/
def firstGap (n : Nat) : List Nat → Nat
  | [] => n
  | k :: l => if k = n then firstGap (n + 1) l else n

/-- The lowest free entry of the object table. -/
def State.freeObj (s : State) : Nat := firstGap 0 (SMap.keys s.objs)

/-- R314 step 2: create one object through the management controller's bank; the outcome code. -/
def State.createPlanned (s : State) (m : Model) (k : Nat) (o : Nat × Nat) : State × Nat :=
  let j := s.freeObj
  let w0 := m.base k + o.1 + m.owner.val * 2 ^ 40 + 2 * 2 ^ 44 + 2 ^ 46 + 2 ^ 47
  let b : EditBank := { s.bankMgc with
    done := true, idx := j, w := [BitVec.ofNat 64 w0, BitVec.ofNat 64 (o.2 + m.share.toNat * 2 ^ 30), 0, 0] }
  if 262144 ≤ j then (s, 6)
  else
    let t := ({ s with bankMgc := b }).create .mgc
    ({ t with bankMgc := { t.bankMgc with done := s.bankMgc.done } }, t.bankMgc.code)

/-- Create the objects of a plan; the first code that is not 0 stops. -/
def State.createAll (s : State) (m : Model) (k : Nat) : List (Nat × Nat) → State × Nat
  | [] => (s, 0)
  | o :: l =>
    let r := s.createPlanned m k o
    if r.2 ≠ 0 then r else r.1.createAll m k l

/-- R314 step 3: write the tile-set records into the target slots; false: a tile lies in a slot in use. -/
def State.writeTsets (s : State) (m : Model) (k : Nat) (all : List PlanRec) : List PlanRec → State × Bool
  | [] => (s, true)
  | .tset id first nRb nCb rl wf ew :: l =>
    let x : TsetSlot := { state := .installing, owner := m.owner, int4 := decide (wf = 1), tolerant := false, firstTile := first,
                          nRb := nRb, nCb := nCb, rowsLast := rl, eW := ew, hs := planHs all first nRb nCb rl }
    if x.tiles.any s.tileTaken then (s, false) else (s.setTset id k x).writeTsets m k all l
  | _ :: l => s.writeTsets m k all l

/-- The tiles of a slot's tile sets. -/
def State.slotTiles (s : State) (m : Model) (k : Nat) : List Nat := (s.slotTsets m k).flatMap (fun t => (s.tset t k).tiles)

/-- The sectors of a tile that are not ERASED. -/
def State.dirtySectors (s : State) (tile : Nat) : List Nat := (List.range 16).filter (fun m => decide (s.secState tile m ≠ .erased))

/-- The shift sums of a plan's tile sets, which later type 4 records may change (R83). -/
def State.rehash (s : State) (k : Nat) (all : List PlanRec) : List PlanRec → State
  | [] => s
  | .tset id first nRb nCb rl _ _ :: l =>
    (s.setTset id k { s.tset id k with hs := planHs all first nRb nCb rl }).rehash k all l
  | _ :: l => s.rehash k all l

/-- The tiles of a plan's tile sets. -/
def planTiles (l : List PlanRec) : List Nat :=
  l.flatMap (fun r => match r with
    | .tset _ first nRb nCb _ _ _ => (List.range (nRb * nCb)).map (first + ·)
    | _ => [])

/-- R314 steps 1 to 3 for the records that have come since, and what step 4 will erase. (DEDUCED, assumption 58) -/
def State.applyPlan (s : State) : State :=
  let i := s.inst
  let k := i.slot
  let m := s.model i.model
  let new := i.plan.drop i.applied
  let s1 := if i.planned then s else s.deleteSlot i.model k
  let r := s1.createAll m k (planObjects new)
  if r.2 = 3 ∨ r.2 = 6 then r.1.instFail .quota 2 0
  else if r.2 ≠ 0 then r.1.instFail .illegalCommand 0 0
  else
    let q := r.1.writeTsets m k i.plan new
    if !q.2 then q.1.instFail .illegalCommand 0 0
    else
      let s2 := q.1.rehash k i.plan i.plan
      s2.setInst { s2.inst with
        planned := true, applied := i.plan.length, expected := planShards i.plan
        erase := s2.inst.erase ++ (planTiles new).filter (fun t => !(s2.dirtySectors t).isEmpty) }

/-! ### The installer's operations (R291, R314 to R316) -/

/-- Launch one operation as the management controller, by the whole sequence of R291. -/
def State.mgcLaunch (s : State) (cmd addr data : Nat) : State :=
  ((((s.fpcKey .mgc 0xA5C3).fpcKey .mgc 0x3C5A).fpcCmd .mgc (BitVec.ofNat 64 cmd)).fpcAddr .mgc (BitVec.ofNat 64 addr)).fpcData .mgc
    (BitVec.ofNat 64 data)

/-- Whether the sequencer is free for the installer and its result queue has room. -/
def State.mgcFree (s : State) : Bool := decide (s.fpc.lock = 0) && !s.fpc.lockout && decide (s.fpc.outstanding true < 16)

/-- Note a launch: its id is awaited. -/
def State.noteLaunch (s : State) (id : Nat) (held : List HeldShard) : State :=
  s.setInst { s.inst with opIds := s.inst.opIds ++ [id], held := held }

/-- The object of the target slot that holds a window offset, with the flash page of the offset in it. -/
def State.shardObject (s : State) (d : ShardDesc) : Option (Nat × Obj × Nat) :=
  let m := s.model s.inst.model
  let off := 16384 * d.target
  let a := m.base s.inst.slot * 4096 + off
  (List.find? (fun (e : Nat × Obj) => e.2.valid && decide (e.2.owner = m.owner) && e.2.holds a && decide (e.2.home = 2)) s.objs).map
    (fun e => (e.1, e.2, (a - e.2.base * 4096) / 16384))

/-- Whether a held shard may be launched now: WST pages in ascending order (R315), a tile once its sectors are erased (R314, R316). -/
def State.launchable (s : State) (h : HeldShard) : Bool :=
  match h.desc.kind with
  | 1 => (match s.shardObject h.desc with
    | none => true
    | some (_, o, q) => decide (q ≤ o.nextPage))
  | _ =>
    let tile := h.desc.firstTile + h.launched
    decide (h.launched < h.desc.images) &&
    (List.range (s.tileSectors tile)).all (fun m => decide (s.secState tile m = .erased))

/-- Launch a kind 1 shard: one PROG_PAGES with keep = 0, or the end of an installation whose shard lies in no one object. -/
def State.launchPages (s : State) (h : HeldShard) : State :=
  let n := ceilDiv h.desc.bytes 16384
  match s.shardObject h.desc with
  | none => s.instFail .illegalCommand 0 0
  | some (j, o, q) =>
    if o.base * 4096 + o.size * 4096 < (s.model s.inst.model).base s.inst.slot * 4096 + 16384 * h.desc.target + h.desc.bytes then
      s.instFail .illegalCommand 0 0
    else
      (s.mgcLaunch 1 (j + q * 2 ^ 18) (h.buf + (n - 1) * 8)).noteLaunch s.fpc.nextId (s.inst.held.erase h)

/-- Launch the next tile image of a kind 2 shard: a CAF_TILE that keeps the buffer for the others (R316). -/
def State.launchTile (s : State) (h : HeldShard) : State :=
  let tile := h.desc.firstTile + h.launched
  let h' := { h with launched := h.launched + 1, ids := h.ids ++ [s.fpc.nextId] }
  let s1 := (s.setReg Reg.fpcParam0 (planShift s.inst.plan tile)).setReg Reg.fpcParam1
    (BitVec.ofNat 64 (Manifest.ofBytes s.inst.hdr).report)
  (s1.mgcLaunch (4 + b2n s.inst.permit * 2 ^ 9) tile (h.buf + h.launched * 8 + 2 ^ 9)).noteLaunch s.fpc.nextId
    (s.inst.held.map (fun x => if x = h then h' else x))

/-- Launch the CAF_ERASE of a tile's sectors that are not ERASED (R314 step 4). -/
def State.launchErase (s : State) (tile : Nat) (rest : List Nat) : State :=
  let mask := ((s.dirtySectors tile).map (2 ^ ·)).sum
  let s1 := s.setInst { s.inst with erase := rest }
  if mask = 0 then s1 else (s1.mgcLaunch 5 (tile + mask * 2 ^ 16) 0xD0).noteLaunch s.fpc.nextId s1.inst.held

/-- One launch of the installer: an erase first, then the first held shard that may go. -/
def State.launchOne (s : State) : State :=
  if !s.mgcFree then s
  else match s.inst.erase with
    | t :: l => s.launchErase t l
    | [] =>
      match s.inst.held.find? s.launchable with
      | none => s
      | some h => if h.desc.kind = 1 then s.launchPages h else s.launchTile h

/-- A shard whose tiles are all programmed gives its buffer back. -/
def State.dropHeld (s : State) (id : Nat) : State :=
  let hs := s.inst.held.map (fun h => { h with ids := h.ids.erase id })
  let fin := fun (h : HeldShard) => decide (h.desc.kind = 2) && h.ids.isEmpty &&
    (decide (h.launched = h.desc.images) || decide (s.inst.state = 6))
  ((hs.filter fin).foldl (fun (s : State) h => s.releaseBuf h.buf) s).setInst { s.inst with held := hs.filter (fun h => !fin h) }

/-- Take one result of the installer's operations: DONE, or the end of the installation (R315, R316). -/
def State.instResult (s : State) (r : FpcResult) : State :=
  let s1 := s.setFpc { s.fpc with resMgc := s.fpc.resMgc.erase r }
  if s1.inst.oldIds.contains r.id then (s1.dropHeld r.id).setInst { (s1.dropHeld r.id).inst with oldIds := s1.inst.oldIds.erase r.id }
  else
    let s2 := s1.dropHeld r.id
    let s3 := s2.setInst { s2.inst with opIds := s2.inst.opIds.erase r.id }
    if r.code = 0 then s3 else s3.instFail .tierFault r.code 0

/-- Take the results of the installer's operations that are posted. -/
def State.instResults (s : State) : State :=
  (s.fpc.resMgc.filter (fun r => s.inst.opIds.contains r.id || s.inst.oldIds.contains r.id)).foldl
    (fun (s : State) r => s.instResult r) s

/-! ### Completion and the switch (R317 to R319) -/

/-- The bytes of a 48-byte digest. (PRESUMED, assumption 6) -/
def digestBytes (d : BitVec 384) : List Byte := leBytes 48 d.toNat

/-- R456: extend measurement register k with a digest. -/
def State.extend (s : State) (k : Nat) (d : BitVec 384) : State :=
  { s with sec := { s.sec with meas := s.sec.meas.set k (sha384 (digestBytes (s.sec.meas.getD k 0) ++ digestBytes d)) } }

/-- R318 on one device: the target slot is ACTIVE, the other RETIRING; a NUMBERED switch sets its boundary; register 8 is extended
(R456). -/
def State.switchHere (s : State) (b : Option Boundary) : State :=
  let i := s.inst
  let k := i.slot
  let m := s.model i.model
  let wasActive := decide (m.st (1 - k) = .active)
  let m1 := m.setSt k .active
  let m2 := if wasActive then m1.setSt (1 - k) .retiring else m1
  let u : Unrecorded := { slot := k, wasActive := wasActive, tsets := s.slotTsets m (1 - k), leader := i.leader, hdr := i.hdr, devices := i.devices }
  let s1 := s.setModel i.model { m2 with boundary := b, unrec := some u }
  let s2 := if wasActive then s1.setTsets (1 - k) .retiring (s1.slotTsets m (1 - k)) else s1
  let record := leBytes 4 i.model ++ leBytes 4 k ++ leBytes 4 (Manifest.ofBytes i.hdr).installId ++ i.hdr
  (s2.extend 8 (sha384 record)).drainSlots

/-- The leader's state once acknowledgements are in: ARMED with the last, and SWITCHED at once where no boundary is in force. -/
def State.armed (s : State) : State :=
  if s.inst.state = 3 ∧ s.inst.devices.all (fun d => s.inst.acked.contains d) then
    let s1 := s.setInst { s.inst with state := 4 }
    if !s1.inst.numbered then s1.setInst { s1.inst with state := 5 } else s1
  else s

/-- Send the SWITCH_REC messages of a boundary, then the SWITCH (R355). -/
def State.sendSwitch (s : State) (b : Option Boundary) (ps : List PortId) : State :=
  let recs := match b with
    | some x => (allCtx.filter (fun (c : CtxId) => x.mask.getLsbD c.val)).map (fun (c : CtxId) => ctlMsg 11 [(4, 8), (8, c.val), (12, x.firstNew.getD c.val 0)])
    | none => []
  let s1 := recs.foldl (fun (s : State) m => s.sendCtlAll m ps) s
  s1.sendCtlAll (ctlMsg 11 [(4, 5), (40, s.inst.model), (46, b2n b.isSome)]) ps

/-- The leader switches: it tells every device, applies the switch where it has a part, and waits for the acknowledgements. -/
def State.leaderSwitch (s : State) (b : Option Boundary) : State :=
  let s1 := s.sendSwitch b s.downstream
  let own := s1.inst.devices.contains s1.link.dev
  let s2 := if own then s1.switchHere b else s1
  (s2.setInst { s2.inst with numbered := b.isSome, acked := if own then [s2.link.dev] else [] }).armed

/-- READY once every device has reported; with `auto` outside a system the switch follows (R319, R324). -/
def State.allReported (s : State) : State :=
  let i := s.inst
  if i.building ∧ i.devices.all (fun d => i.reported.contains d) then
    let s1 := s.setInst { i with state := 3, resValid := true, resStatus := .ok, resDev := s.link.dev, resDetail := 0, resShard := 0 }
    if i.auto ∧ !(s.isPlanet || s.isMoon) then s1.leaderSwitch none else s1
  else s

/-- Whether every tile-set slot of the target is programmed. -/
def State.slotProgrammed (s : State) (m : Model) (k : Nat) : Bool :=
  (s.slotTiles m k).all (fun t => (List.range (s.tileSectors t)).all (fun j => decide (s.secState t j = .programmed)))

/-- The objects of a batch slot become LIVE. -/
def State.liveSlot (s : State) (i k : Nat) : State :=
  { s with objs := s.objs.map (fun (e : Nat × Obj) => if s.slotOf e.2 = some (i, k) then (e.1, { e.2 with inst := false }) else e) }

/-- R450: whether a slot of a tile set lies on charge-array dies that have their calibration. -/
def State.calibrated (s : State) (k t : Nat) : Bool := !((s.tset t k).tiles.any (fun i => s.fac.calBad.getLsbD (16 + i / 256)))

/-- R317: this device's part is STANDBY; a tile-set slot on a charge-array die without calibration does not become READY (R450). -/
def State.partStandby (s1 : State) : State :=
  let i := s1.inst
  let m := s1.model i.model
  let s2 := ((s1.liveSlot i.model i.slot).setTsets i.slot .ready ((s1.slotTsets m i.slot).filter (s1.calibrated i.slot))).setModel i.model (m.setSt i.slot .standby)
  if i.leader then (s2.setInst { s2.inst with state := 2, reported := s2.inst.reported ++ [s2.link.dev] }).allReported
  else (s2.setInst { s2.inst with state := 2 }).sendUp (instMsg 3 s2.link.dev 0 i.model)

/-- R317: whether this device's part is complete. -/
def State.partIsComplete (s : State) : Bool :=
  let i := s.inst
  decide (i.state = 1) && i.planned && decide (i.applied = i.plan.length) && decide (i.dataOk = i.expected) && i.opIds.isEmpty &&
  i.held.isEmpty && i.erase.isEmpty &&
    s.slotProgrammed (s.model i.model) i.slot

/-- PART_COMPLETE: a complete part becomes STANDBY under quiesce (R317). -/
def State.partComplete (s : State) : State :=
  let s1 := s.instResults
  if s1.partIsComplete then s1.underQuiet (·.partStandby) else s1

/-- PART_COMPLETE (R317). -/
def execPartComplete (s : State) : Host.Outcome State Fault Refusal := .next s.partComplete.instCredits

/-! ### The host's orders (R314, R318 to R320, R325, R326) -/

/-- A refused order. -/
def State.instRefuse (s : State) (code : Nat) : State := { s with inst := { s.inst with refused := code } }

/-- Read bytes of the leader's context 0; none: they fault or read poisoned. -/
def State.read0 (s : State) (a n : Nat) : Option (List Byte) × State :=
  let v := { s.hostView 0 with noHost := s.lostFor 0 .tmv instSlot }
  let r := s.span v a n
  (if r.2 || anyPoison r.1 then none else some (r.1.map Prod.fst), s.noteRead v a n)

/-- A build begins on this device: its slot is BUILDING, with the install_id of the manifest. (DEDUCED, assumption 58) -/
def State.instBegin (s : State) (cmd : W64) (hdr : List Byte) (leader : Bool) (devices : List Nat) (descs : List ShardDesc) : State :=
  let i := s.inst
  let k := wBits cmd 9 1
  let md := wBits cmd 3 6
  let m := s.model md
  let s1 := if devices.contains s.link.dev then
    s.setModel md ((m.setSt k .building).setVer k (Manifest.ofBytes hdr).installId) else s
  s1.clearShards.setInst {
    state := 1, model := md, slot := k, leader := leader, refused := i.refused, rereq := i.rereq, permit := wBit cmd 10, cut := wBit cmd 12
    auto := wBit cmd 13, timeout := wBits cmd 16 16, hdr := hdr, descs := descs, devices := devices, held := i.held, oldIds := i.oldIds
    quiet := i.quiet, orders := i.orders }

/-- Whether a START may name a slot of a model (R314). -/
def State.slotOpen (s : State) (md k : Nat) : Bool :=
  let m := s.model md
  m.valid && (decide (m.st k = .empty) || decide (m.st k = .stale)) && decide (m.st (1 - k) ≠ .building)

/-- START (R314): the manifest is read and checked before any device writes anything. -/
def State.instStart (s : State) (v : W64) : State :=
  let md := wBits v 3 6
  let k := wBits v 9 1
  if (1 ≤ s.inst.state ∧ s.inst.state ≤ 4) ∨ !(s.slotOpen md k) then s.instRefuse 1
  else
    let a := s.fld Reg.fpcInstAddr_addr
    let h := s.read0 a 64
    let hdr := h.1.getD []
    let n := (Manifest.ofBytes hdr).n
    let b := h.2.read0 (a + 64) (if h.1.isSome then 64 * n else 0)
    match (if h.1.isSome then b.1.bind (fun body => manifestDescs hdr body md (s.model md).wsize) else none) with
    | some ds => b.2.instBegin v hdr true ((ds.headD ⟨0, 0, 0, 0, 0, 0, 0⟩).devices) ds
    | none => (b.2.instBegin v hdr true [] []).instStop .illegalCommand s.link.dev 0 0

/-- SWITCH (R318): only when READY; NUMBERED where the installation has more than one device. (DEDUCED, assumption 58) -/
def State.instSwitch (s : State) (v : W64) : State :=
  let i := s.inst
  if i.state ≠ 3 ∨ wBits v 3 6 ≠ i.model then s.instRefuse 2
  else if wBit v 11 then
    let r := s.read0 (s.fld Reg.fpcInstAddr_addr) 136
    match r.1 with
    | none => r.2.instRefuse 2
    | some bs => r.2.leaderSwitch (some { mask := BitVec.ofNat 16 (wordAt bs 0),
                                          firstNew := (List.range 16).map (fun c => bitsOf (wordAt bs (1 + c)) 0 48), new := i.slot })
  else if 1 < i.devices.length then s.instRefuse 2
  else s.leaderSwitch none

/-- Remove a model's boundary (R319): a retiring slot may drain. -/
def State.closeHere (s : State) (md : Nat) : State := (s.setModel md { s.model md with boundary := none }).drainSlots

/-- CLOSE (R319). -/
def State.instClose (s : State) (v : W64) : State :=
  let md := wBits v 3 6
  if (s.model md).boundary.isNone ∧ ¬ (s.inst.state = 4 ∧ s.inst.model = md) then s.instRefuse 3
  else
    let s1 := (s.closeHere md).sendCtlAll (ctlMsg 11 [(4, 7), (40, md)]) s.downstream
    if s1.inst.model = md ∧ s1.inst.state = 4 then s1.setInst { s1.inst with state := 5 } else s1

/-- RETIRE (R320): the active slot retires, where the other is EMPTY or STALE, and the Moons are told. (DESIGN CHOICE, assumption 85) -/
def State.instRetire (s : State) (v : W64) : State :=
  match s.retireHere (wBits v 3 6) with
  | some t => t.sendMgmtAll (retireOrder (wBits v 3 6)) t.downstream
  | none => s.instRefuse 4

/-- ABORT (R325): an installation that has not switched ends. -/
def State.instAbort (s : State) : State :=
  if 1 ≤ s.inst.state ∧ s.inst.state ≤ 3 ∧ s.inst.leader then s.instFail .aborted 1 0 else s

/-- What an order does. -/
def State.order (s : State) (op : Nat) (v : W64) : State :=
  match op with
  | 1 => s.instStart v
  | 2 => s.instSwitch v
  | 3 => s.instClose v
  | 4 => s.instRetire v
  | 5 => s.instAbort
  | _ => s

/-- Whether an order edits batch pointers, which it does under quiesce (R20, R318). -/
def State.orderEdits (s : State) (op : Nat) : Bool := decide (op = 2 ∧ s.inst.state = 3) || decide (op = 4)

/-- Carry an order out, or say that it stalls: for the quiesce (R24), or for what it reads (R25). -/
def State.tryOrder (s : State) (op : Nat) (v : W64) : State × Bool :=
  if s.orderEdits op && decide (s.migBusy ≠ 0) then (s.askQuiet, false)
  else
    let r := s.tryPeers 0 .tmv instSlot (fun s => (s.order op v).dropLost 0 .tmv instSlot)
    if r.2 && s.orderEdits op then (r.1.endQuiet, true) else r

/-- Carry orders out as they came; from the first that stalls on they wait. -/
def State.runOrders (s : State) : List (Nat × W64) → State
  | [] => { s with inst := { s.inst with orders := [] } }
  | o :: l =>
    let r := s.tryOrder o.1 o.2
    if r.2 then r.1.runOrders l else { r.1 with inst := { r.1.inst with orders := o :: l } }

/-- A write of FPC_INST_CMD with the operation `op`; a Moon ignores it (R326). An order that stalls is tried again as the installer runs.
(DESIGN CHOICE, assumption 85) -/
def State.instCmd (s : State) (op : Nat) (v : W64) : State :=
  if s.isMoon then s else s.runOrders (s.inst.orders ++ [(op, v)])

/-- INSTALLER_PROGRAM_LAUNCH: stalled orders and results are taken, and the pointers of switches are recorded; the plan's records are
applied under quiesce as they come; then one launch (R314 to R316, R318). -/
def State.installerStep (s : State) : State :=
  let s0 := s.recordPtrs
  let s1 := (s0.runOrders s0.inst.orders).instResults
  if s1.inst.state ≠ 1 then s1
  else if s1.inst.applied < s1.inst.plan.length then s1.underQuiet (·.applyPlan)
  else if s1.inst.planned then s1.launchOne
  else s1

/-- INSTALLER_PROGRAM_LAUNCH (R315). -/
def execInstallerProgramLaunch (s : State) : Host.Outcome State Fault Refusal := .next s.installerStep.instCredits

/-- START (R314). -/
def execStart (v : W64) (s : State) : Host.Outcome State Fault Refusal := .next (s.instCmd 1 v)
/-- SWITCH (R318). -/
def execSwitch (v : W64) (s : State) : Host.Outcome State Fault Refusal := .next (s.instCmd 2 v)
/-- CLOSE (R319). -/
def execClose (v : W64) (s : State) : Host.Outcome State Fault Refusal := .next (s.instCmd 3 v)
/-- RETIRE (R320). -/
def execRetire (v : W64) (s : State) : Host.Outcome State Fault Refusal := .next (s.instCmd 4 v)
/-- ABORT (R325). -/
def execAbort (v : W64) (s : State) : Host.Outcome State Fault Refusal := .next (s.instCmd 5 v)

/-- The shards that the lowest unchecked one of device d can be: the first that was not sent yet, or one that was sent. This device has
checked what it fetched, a neighbour what it acknowledged; of another the leader does not know. -/
def State.uncheckedL (s : State) (d : Nat) : List Nat :=
  let mine := fun (l : List ShardDesc) => (l.filter (fun x => x.dest.getLsbD d)).map (·.index)
  let rest := (mine (s.inst.descs.drop s.inst.next)).headD 0
  let sent := mine (s.inst.descs.take s.inst.next)
  if d = s.link.dev then [rest]
  else
    match s.rootPort d with
    | none => [rest]
    | some p =>
      if (s.port p).partner = d then [(sent.filter (fun k => (s.port p).shardStore.any (fun e => decide (e.1 = k)))).headD rest]
      else sent ++ [rest]

/-- The lowest shard that a device has not checked; where the leader cannot know, a free one of those it can be; 0 where it has checked
all. (DESIGN CHOICE, assumption 85) -/
def State.unchecked (s : State) (d : Nat) : Nat × State :=
  let l := s.uncheckedL d
  if l.length ≤ 1 then (l.headD 0, s)
  else
    let r := s.takeFree
    (l.getD (r.1.toNat % l.length) 0, r.2)

/-- INSTALL_TIMEOUT (R325): the lowest device that has not reported. -/
def execInstallTimeout (s : State) : Host.Outcome State Fault Refusal :=
  .next (if s.inst.leader ∧ s.inst.building then
      let d := (s.inst.devices.filter (fun d => !s.inst.reported.contains d)).headD s.link.dev
      let r := s.unchecked d
      (r.2.instStop .weightsUnavailable d 1 r.1).sendCtlAll (instMsg 4 d r.1 s.inst.model) s.downstream
    else s)

/-! ### Shards (R321 to R323) -/

/-- Whether bytes pass a descriptor's check (R323). -/
def ShardDesc.passes (d : ShardDesc) (payload : List SB) : Bool :=
  decide (payload.length = d.bytes) && !anyPoison payload && decide ((crc32c (payload.map Prod.fst)).toNat = d.crc)

/-- Whether a shard as it travels, its descriptor before its payload, passes its check. -/
def shardGood (body : List SB) : Bool :=
  !anyPoison (body.take 64) && (ShardDesc.ofBytes ((body.take 64).map Prod.fst)).passes (body.drop 64)

/-- Send the stored shards of a port again, from a shard on; from the first that is corrupt here too they wait for its next copy
(R323). -/
def State.resendShards (s : State) (p : PortId) : List (Nat × List SB) → State
  | [] => s
  | e :: l =>
    if shardGood e.2 then (s.sendData p 7 (dataHeader 7 0 0 0 0 e.2.length 0) e.2).resendShards p l
    else s.updPort p (fun x => { x with shardWant := some e.1 })

/-- Send a shard on a port: it stays in the port's replay store until it is acknowledged. A new copy of one that is there takes its
place, and goes if it has been asked for. -/
def State.sendShard (s : State) (i : Nat) (body : List SB) (p : PortId) : State :=
  let x := s.port p
  if x.shardStore.any (fun e => decide (e.1 = i)) then
    let s1 := s.updPort p (fun x => { x with shardStore := x.shardStore.map (fun e => if e.1 = i then (i, body) else e), shardWant := none })
    if x.shardWant = some i then s1.resendShards p ((s1.port p).shardStore.filter (fun e => decide (i ≤ e.1))) else s1
  else
    (s.updPort p (fun x => { x with shardStore := x.shardStore ++ [(i, body)] })).sendData p 7
      (dataHeader 7 0 0 0 0 body.length 0) body

/-- Send a shard on each of a list of ports. -/
def State.sendShards (s : State) (i : Nat) (body : List SB) : List PortId → State
  | [] => s
  | p :: l => (s.sendShard i body p).sendShards i body l

/-- The lowest free staging buffer: the installer takes one of the 8, no rule says which (R26, R321). (DESIGN CHOICE, assumption 99) -/
def State.freeBuf (s : State) : Option Nat := (List.range 8).find? (fun b => !s.fpc.held.getLsbD b)

/-- Whether a shard addressed to this device needs a staging buffer. -/
def State.needsBuf (s : State) (d : ShardDesc) : Bool :=
  d.dest.getLsbD s.link.dev && decide (d.kind ≠ 0) && s.inst.building

/-- A plan shard of this device: its records join the plan; one that breaks R313 ends the installation. (DEDUCED, assumption 58) -/
def State.keepPlan (s : State) (payload : List Byte) : State :=
  let i := s.inst
  match planRecs s.link.dev payload with
  | none => s.instFail .illegalCommand 0 0
  | some l =>
    if i.plan ++ l ≠ [] ∧ planOk (s.model i.model) (i.plan ++ l) = false then s.instFail .illegalCommand 0 0
    else s.setInst { i with plan := i.plan ++ l, shardsOk := i.shardsOk + 1 }

/-- Keep a checked shard that is addressed to this device: a plan is read, data goes to a staging buffer for the installer. -/
def State.keepShard (s : State) (d : ShardDesc) (payload : List Byte) : State :=
  if !(d.dest.getLsbD s.link.dev) || !s.inst.building then s
  else if d.kind = 0 then s.keepPlan payload
  else
    match s.freeBuf with
    | none => s
    | some b =>
      let bit := BitVec.ofNat 8 (2 ^ b)
      let s1 := (s.setFpc { s.fpc with held := s.fpc.held ||| bit, verified := s.fpc.verified ||| bit }).store (kStage b 0) (clean payload)
      s1.setInst { s1.inst with
        held := s1.inst.held ++ [{ buf := b, desc := d }], shardsOk := s1.inst.shardsOk + 1, dataOk := s1.inst.dataOk + 1 }

/-- Once the manifest's last shard has come, a device of the installation for which no plan record came has a plan that breaks R313: its
type 1 record is missing. (DEDUCED, assumption 58) -/
def State.planEnds (s : State) (d : ShardDesc) (n : Nat) : State :=
  if s.inst.building ∧ s.inst.devices.contains s.link.dev ∧ d.index + 1 = n ∧ s.inst.plan = [] then s.instFail .illegalCommand 0 0 else s

/-- The chains that hold a destination of a shard (R321). -/
def State.chains (s : State) (d : ShardDesc) : List PortId :=
  s.downstream.filter (fun p => d.devices.any (fun x => decide (s.rootPort x = some p)))

/-- Whether each of a list of ports may take shard i: fewer than 4 are unacknowledged, or it is one of them (R323). -/
def State.storesOpen (s : State) (i : Nat) (ps : List PortId) : Bool :=
  ps.all (fun p => decide ((s.port p).shardStore.length < 4) || (s.port p).shardStore.any (fun e => decide (e.1 = i)))

/-- SHARD_FETCH: the leader fetches the next shard in descriptor order, checks it, keeps and sends it (R321, R323). -/
def State.shardFetch (s : State) : State :=
  let i := s.inst
  if !i.leader || !i.building then s
  else match i.descs[i.next]? with
    | none => s
    | some d =>
      let ps := s.chains d
      if !(s.storesOpen d.index ps) || (s.needsBuf d && s.freeBuf.isNone) then s
      else
        let v := { s.hostView 0 with noHost := s.lostFor 0 .tmv instSlot }
        let r := s.span v d.src d.bytes
        let s1 := (s.noteRead v d.src d.bytes).dropLost 0 .tmv instSlot
        if r.2 || !(d.passes r.1) then
          (if 4 ≤ i.tries then s1.instFail .weightsUnavailable 0 d.index
           else s1.setInst { i with tries := i.tries + 1, rereq := satAdd 16 i.rereq 1 })
        else
          let bytes := r.1.map Prod.fst
          let s2 := s1.setInst { i with next := i.next + 1, tries := 0 }
          ((s2.sendShards d.index (clean (d.toBytes ++ bytes)) ps).keepShard d bytes).planEnds d i.descs.length

/-- SHARD_FETCH (R321). -/
def execShardFetch (s : State) : Host.Outcome State Fault Refusal := .next (s.tryPeers 0 .tmv instSlot (·.shardFetch)).1

/-- A Moon's part begins with shard 0: its slot is built, or the part fails where the slot is not open (R314). -/
def State.moonBegin (s : State) (cmd : W64) (hdr : List Byte) (d : ShardDesc) : State :=
  if d.index = 0 ∧ d.dest.getLsbD s.link.dev ∧ !s.inst.building then
    if s.slotOpen (wBits cmd 3 6) (wBits cmd 9 1) then s.instBegin cmd hdr false d.devices []
    else ({ s with inst := { s.inst with model := wBits cmd 3 6, slot := wBits cmd 9 1, devices := [] } }).instFail .illegalCommand 0 0
  else s

/-- A shard that fails its check: it and what follows are discarded until it comes again; the fifth time it is missing (R323, R325). -/
def State.shardBad (s : State) (p : PortId) (d : ShardDesc) : State :=
  if 4 ≤ s.inst.tries then
    (if s.inst.building then s.instFail .weightsUnavailable 0 d.index
     else (s.clearShards.setInst { s.inst with tries := 0 }).sendUp (instMsg 4 s.link.dev d.index s.inst.model))
  else
    let s1 := s.setInst { s.inst with tries := s.inst.tries + 1, rereq := satAdd 16 s.inst.rereq 1 }
    (s1.updPort p (fun x => { x with discard := true, expectShard := d.index })).sendCtl p (instMsg 2 s.link.dev d.index s.inst.model)

/-- A received shard: checked, acknowledged, passed on, and kept where it is addressed here (R321, R323). Cut-through passes it on
before its check (R322). -/
def State.shardIn (s : State) (p : PortId) (cmd : W64) (hdr : List Byte) (m : DataMsg) : State :=
  let d := ShardDesc.ofBytes ((m.data.take 64).map Prod.fst)
  let x := s.port p
  if !s.serves || (x.discard && decide (d.index ≠ x.expectShard)) then s
  else
    let s1 := if anyPoison (m.data.take 64) then s else s.moonBegin cmd hdr d
    let good := shardGood m.data
    let s2 := if good || wBit cmd 12 then s1.sendShards d.index m.data s.downstream else s1
    if !good then s2.shardBad p (if x.discard then { d with index := x.expectShard } else d)
    else
      let s3 := (s2.updPort p (fun y => { y with discard := false })).sendCtl p (instMsg 1 s.link.dev d.index s1.inst.model)
      ((s3.setInst { s3.inst with tries := 0 }).keepShard d ((m.data.drop 64).map Prod.fst)).planEnds d (Manifest.ofBytes hdr).n

/-- SHARD: it waits while a downstream replay store or the staging buffers are full (R27, R323). `cmd` and `hdr` are the FPC_INST_CMD value and the
manifest header of the installation, which the leader's installer passes to this one's. -/
def State.shardMsg (s : State) (p : PortId) (cmd : W64) (hdr : List Byte) : State :=
  match (s.port p).inMsgs.find? (fun m => decide (m.kind = 7)) with
  | none => s
  | some m =>
    let d := ShardDesc.ofBytes ((m.read.data.take 64).map Prod.fst)
    if !(s.storesOpen d.index s.downstream) || (s.needsBuf d && s.freeBuf.isNone) then s
    else s.onMsg p 7 (fun m s => s.shardIn p cmd hdr m)

/-- SHARD (R323). -/
def execShard (p : PortId) (cmd : W64) (hdr : List Byte) (s : State) : Host.Outcome State Fault Refusal :=
  .next (s.shardMsg p cmd hdr).instCredits

/-! ### INST messages (R318, R319, R323, R324, R355) -/

/-- INST_ACK: the shard leaves the replay store (R323). -/
def execInstAck (p : PortId) (s : State) : Host.Outcome State Fault Refusal :=
  .next (s.onCtl p (isSub 11 1) (fun m s => s.updPort p (fun x => { x with
    shardStore := x.shardStore.filter (fun e => decide (e.1 ≠ wBits m 16 24)) })))

/-- INST_REREQ: the shards from the corrupt one on are sent again (R323). -/
def execInstRereq (p : PortId) (s : State) : Host.Outcome State Fault Refusal :=
  .next (s.onCtl p (isSub 11 2) (fun m s =>
    s.resendShards p ((s.port p).shardStore.filter (fun e => decide (wBits m 16 24 ≤ e.1)))))

/-- An INST message for the Planet: `f` there, passed on by a Moon, once it has a path. -/
def State.instUp (s : State) (p : PortId) (sub : Nat) (f : W64 → State → State) : State :=
  if s.noPath then s else s.onCtl p (isSub 11 sub) (fun m s => if s.isPlanet then f m s else s.sendUp m)

/-- The device and model of an INST message of sub 1 to 4 or 6. -/
def imDev (m : W64) : Nat := wBits m 8 8
/-- The model. -/
def imModel (m : W64) : Nat := wBits m 40 6

/-- INST_DONE (R324). -/
def execInstDone (p : PortId) (s : State) : Host.Outcome State Fault Refusal :=
  .next (s.instUp p 3 (fun m s =>
    if s.inst.leader ∧ s.inst.building ∧ imModel m = s.inst.model ∧ s.inst.devices.contains (imDev m) then
      (s.setInst { s.inst with reported := s.inst.reported ++ [imDev m] }).allReported
    else s))

/-- A FAIL at the leader ends the installation everywhere; `st` and `detail` are the failure as the device's part states it. -/
def State.failReport (s : State) (m : W64) (st : Status) (detail : Nat) : State :=
  if s.inst.leader ∧ 1 ≤ s.inst.state ∧ s.inst.state ≤ 3 ∧ imModel m = s.inst.model then
    (s.instStop st (imDev m) detail (wBits m 16 24)).sendCtlAll (instMsg 4 (imDev m) (wBits m 16 24) s.inst.model) s.downstream
  else s

/-- A FAIL from above tells a Moon that the installation has ended. -/
def State.failOrder (s : State) (m : W64) (st : Status) (detail : Nat) : State :=
  let s1 := s.sendCtlAll m s.downstream
  if 1 ≤ s1.inst.state ∧ s1.inst.state ≤ 3 then s1.instStop st (imDev m) detail (wBits m 16 24) else s1.clearShards

/-- INST_FAIL (R324, R325): `st` is the status code and `detail` the detail of the failure, for which the message has no place. -/
def execInstFail (p : PortId) (st : BitVec 8) (detail : BitVec 16) (s : State) : Host.Outcome State Fault Refusal :=
  .next (if s.isMoon ∧ s.upstream = some p then
      s.onCtl p (isSub 11 4) (fun m s => s.failOrder m (Status.ofCode st.toNat) detail.toNat)
    else s.instUp p 4 (fun m s => s.failReport m (Status.ofCode st.toNat) detail.toNat))

/-- A switch order at a Moon: its STANDBY slot becomes ACTIVE with the boundaries held, and it acknowledges (R318). -/
def State.switchOrder (s : State) (m : W64) : State :=
  let s1 := s.sendCtlAll m s.downstream
  let i := s1.inst
  let b : Option Boundary := if wBit m 46 then
      some { mask := BitVec.ofNat 16 (((allCtx.filter (fun (c : CtxId) => i.recs.any (fun r => decide (r.1 = c.val)))).map (fun (c : CtxId) => 2 ^ c.val)).sum)
             firstNew := (List.range 16).map (fun c => ((i.recs.find? (fun r => decide (r.1 = c))).map Prod.snd).getD 0), new := i.slot }
    else none
  let s2 := s1.setInst { i with recs := [] }
  if i.state = 2 ∧ imModel m = i.model ∧ (s2.model i.model).st i.slot = .standby then
    let s3 := s2.switchHere b
    let s4 := s3.setInst { s3.inst with state := 4 }
    (if b.isNone then s4.setInst { s4.inst with state := 5 } else s4).sendUp (instMsg 6 s4.link.dev 0 i.model)
  else s2

/-- An order of the Planet: a Moon takes it from its upstream link. -/
def State.instDown (s : State) (p : PortId) (sub : Nat) (f : W64 → State → State) : State :=
  s.onCtl p (isSub 11 sub) (fun m s => if s.isMoon ∧ s.upstream = some p then f m s else s)

/-- INST_SWITCH (R318): a switch that this device is to make waits for the quiesce (R24). -/
def execInstSwitch (p : PortId) (s : State) : Host.Outcome State Fault Refusal :=
  .next (if s.isMoon ∧ s.upstream = some p ∧ s.inst.state = 2 ∧ (s.port p).inCtl.any (isSub 11 5) then
      s.underQuiet (·.instDown p 5 (fun m s => s.switchOrder m))
    else s.instDown p 5 (fun m s => s.switchOrder m))

/-- INST_SWITCH_ACK (R318). -/
def execInstSwitchAck (p : PortId) (s : State) : Host.Outcome State Fault Refusal :=
  .next (s.instUp p 6 (fun m s =>
    if s.inst.leader ∧ s.inst.state = 3 ∧ imModel m = s.inst.model then
      (s.setInst { s.inst with acked := s.inst.acked ++ [imDev m] }).armed
    else s))

/-- INST_CLOSE (R319). -/
def execInstClose (p : PortId) (s : State) : Host.Outcome State Fault Refusal :=
  .next (s.instDown p 7 (fun m s =>
    let s1 := (s.sendCtlAll m s.downstream).closeHere (imModel m)
    if s1.inst.model = imModel m ∧ s1.inst.state = 4 then s1.setInst { s1.inst with state := 5 } else s1))

/-- INST_SWITCH_REC (R355): held for the next SWITCH. -/
def execInstSwitchRec (p : PortId) (s : State) : Host.Outcome State Fault Refusal :=
  .next (s.instDown p 8 (fun m s =>
    let s1 := s.sendCtlAll m s.downstream
    s1.setInst { s1.inst with recs := (s1.inst.recs.filter (fun r => decide (r.1 ≠ wBits m 8 4))) ++ [(wBits m 8 4, wBits m 12 48)] }))

end Sys2Proof.Machine
end

