-- ==== Sys2Proof/Machine/Signature.lean ====
section
/-! DEFINITION. The two signature checks of R446: RSASSA-PSS with SHA-384 under a 3072-bit key, and SLH-DSA-SHA2-192s (FIPS 205), functions of
their published standards, whose text the spec does not hold (PRESUMED, assumption 103). -/

namespace Sys2Proof.Machine

open Sys2Proof

/-- The number that bytes spell, the first most significant. -/
def beVal (l : List Byte) : Nat := leVal l.reverse

/-- `n` bytes of a number, the first most significant. -/
def beBytes (n v : Nat) : List Byte := (leBytes n v).reverse

/-! ### SHA-512 and SHA-256 -/

/-- The initial value of SHA-512: the first 64 fraction bits of the square roots of the first eight primes. -/
def sha512Init : List W64 :=
  [0x6A09E667F3BCC908, 0xBB67AE8584CAA73B, 0x3C6EF372FE94F82B, 0xA54FF53A5F1D36F1, 0x510E527FADE682D1,
   0x9B05688C2B3E6C1F, 0x1F83D9ABFB41BD6B, 0x5BE0CD19137E2179]

/-- SHA-512 of a message. (PRESUMED, assumption 103) -/
def sha512 (m : List Byte) : List Byte :=
  let p := shaPad m
  ((chunksOf 128 (p.length / 128) p).foldl shaBlock sha512Init).flatMap (fun w => beBytes 8 w.toNat)

/-- SHA-384 as bytes. -/
def sha384Bytes (m : List Byte) : List Byte := leBytes 48 (sha384 m).toNat

/-- A word of SHA-256. -/
abbrev W32 := BitVec 32

/-- The high half of a word: the constants of SHA-256 are those of SHA-512 to 32 bits. -/
def highHalf (w : W64) : W32 := (w >>> 32).setWidth 32

/-- The word of SHA-256's message schedule that follows the 16 words of a window. (PRESUMED, assumption 103) -/
def sha256Next (w : List W32) : W32 :=
  let x := w.getD 14 0
  let y := w.getD 1 0
  (x.rotateRight 17 ^^^ x.rotateRight 19 ^^^ x >>> 10) + w.getD 9 0 +
    (y.rotateRight 7 ^^^ y.rotateRight 18 ^^^ y >>> 3) + w.getD 0 0

/-- One round of SHA-256. (PRESUMED, assumption 103) -/
def sha256Round (k w : W32) : List W32 → List W32
  | [a, b, c, d, e, f, g, h] =>
    let t := h + (e.rotateRight 6 ^^^ e.rotateRight 11 ^^^ e.rotateRight 25) + ((e &&& f) ^^^ (~~~e &&& g)) + k + w
    let u := (a.rotateRight 2 ^^^ a.rotateRight 13 ^^^ a.rotateRight 22) + ((a &&& b) ^^^ (a &&& c) ^^^ (b &&& c))
    [t + u, a, b, c, d + t, e, f, g]
  | v => v

/-- The rounds of SHA-256 over a window of the message schedule. -/
def sha256Rounds : List W32 → List W32 → List W32 → List W32
  | [], _, v => v
  | k :: ks, w, v => sha256Rounds ks (w.drop 1 ++ [sha256Next w]) (sha256Round k (w.getD 0 0) v)

/-- One block of 64 bytes. -/
def sha256Block (v : List W32) (block : List Byte) : List W32 :=
  List.zipWith (· + ·) v
    (sha256Rounds ((shaK.take 64).map highHalf) ((chunksOf 4 16 block).map (fun b => BitVec.ofNat 32 (beVal b))) v)

/-- SHA-256 of a message. (PRESUMED, assumption 103) -/
def sha256 (m : List Byte) : List Byte :=
  let p := m ++ [0x80] ++ List.replicate ((119 - m.length % 64) % 64) 0 ++ beBytes 8 (8 * m.length)
  ((chunksOf 64 (p.length / 64) p).foldl sha256Block (sha512Init.map highHalf)).flatMap (fun w => beBytes 4 w.toNat)

/-- The mask generation function MGF1: `n` bytes from a seed, under a hash of `hLen` bytes. (PRESUMED, assumption 103) -/
def mgf1 (hash : List Byte → List Byte) (hLen : Nat) (seed : List Byte) (n : Nat) : List Byte :=
  ((List.range (ceilDiv n hLen)).flatMap (fun i => hash (seed ++ beBytes 4 i))).take n

/-! ### RSASSA-PSS -/

/-- b to the power of a 32-bit e, modulo n. -/
def powMod (b e n : Nat) : Nat :=
  (List.range 32).reverse.foldl (fun a i => if Nat.testBit e i then a * a % n * b % n else a * a % n) 1

/-- Whether an encoded message of 384 bytes is the PSS encoding of a message with a SHA-384 hash, with a salt of 48 bytes.
(PRESUMED, assumption 103) -/
def pssOk (em mHash : List Byte) : Bool :=
  let h := (em.drop 335).take 48
  let db := List.zipWith (· ^^^ ·) (em.take 335) (mgf1 sha384Bytes 48 h 335)
  decide ((em.getD 383 0) = 0xBC) && decide ((em.getD 0 0).toNat < 128) && decide ((db.getD 0 0) &&& 0x7F = 0) &&
  ((db.take 286).drop 1).all (fun b => decide (b = 0)) && decide (db.getD 286 0 = 1) &&
  decide (sha384Bytes (List.replicate 8 0 ++ mHash ++ db.drop 287) = h)

/-- R446: whether a signature of 384 bytes is valid under a key: the modulus, big-endian (R445), and the exponent, little-endian (R5). -/
def rsaVerify (key sig msg : List Byte) : Bool :=
  let n := beVal (key.take 384)
  let s := beVal sig
  decide (s < n) && pssOk (beBytes 384 (powMod s (leVal ((key.drop 384).take 4)) n)) (sha384Bytes msg)

/-! ### SLH-DSA-SHA2-192s: n = 24, h = 63, d = 7, h′ = 9, a = 14, k = 17, w = 16, m = 39 -/

/-- An address of FIPS 205: layer, tree, type, and three words: key pair; chain or tree height; hash or tree index. -/
structure Adrs where
  layer : Nat := 0
  tree : Nat := 0
  type : Nat := 0
  pair : Nat := 0
  chain : Nat := 0
  index : Nat := 0
  deriving DecidableEq, Repr

/-- The 22 bytes of a compressed address. (PRESUMED, assumption 103) -/
def Adrs.bytes (x : Adrs) : List Byte :=
  beBytes 1 x.layer ++ beBytes 8 x.tree ++ beBytes 1 x.type ++ beBytes 4 x.pair ++ beBytes 4 x.chain ++ beBytes 4 x.index

/-- The function F: SHA-256 with the seed padded to a block. (PRESUMED, assumption 103) -/
def slhF (seed : List Byte) (x : Adrs) (m : List Byte) : List Byte := (sha256 (seed ++ List.replicate 40 0 ++ x.bytes ++ m)).take 24

/-- The functions H and T: SHA-512 with the seed padded to a block. (PRESUMED, assumption 103) -/
def slhT (seed : List Byte) (x : Adrs) (m : List Byte) : List Byte := (sha512 (seed ++ List.replicate 104 0 ++ x.bytes ++ m)).take 24

/-- The first `n` digits of `b` bits that bytes spell, most significant first. -/
def digitsOf (b n : Nat) (l : List Byte) : List Nat :=
  let v := beVal l / 2 ^ (8 * l.length - n * b)
  (List.range n).map (fun i => v / 2 ^ (b * (n - 1 - i)) % 2 ^ b)

/-- From node `idx` of height j up the tree of an address along an authentication path. (PRESUMED, assumption 103) -/
def slhClimb (seed : List Byte) (x : Adrs) : Nat → Nat → List Byte → List (List Byte) → List Byte
  | _, _, node, [] => node
  | j, idx, node, a :: l =>
    slhClimb seed x (j + 1) (idx / 2)
      (slhT seed { x with chain := j + 1, index := idx / 2 } (if idx % 2 = 0 then node ++ a else a ++ node)) l

/-- The FORS public key from a signature of the message digest `md`. (PRESUMED, assumption 103) -/
def forsPk (seed : List Byte) (x : Adrs) (sig md : List Byte) : List Byte :=
  let ds := digitsOf 14 17 md
  slhT seed { x with type := 4 } ((List.range 17).flatMap (fun i =>
    let p := sig.drop (360 * i)
    let idx := i * 2 ^ 14 + ds.getD i 0
    slhClimb seed x 0 idx (slhF seed { x with chain := 0, index := idx } (p.take 24)) (chunksOf 24 14 ((p.drop 24).take 336))))

/-- The WOTS+ public key from a signature of a message of 24 bytes. (PRESUMED, assumption 103) -/
def wotsPk (seed : List Byte) (x : Adrs) (sig m : List Byte) : List Byte :=
  let ms := digitsOf 4 48 m
  let csum := (ms.map (fun d => 15 - d)).sum
  let ds := ms ++ [csum / 256 % 16, csum / 16 % 16, csum % 16]
  slhT seed { x with type := 1 } ((List.range 51).flatMap (fun i =>
    let d := ds.getD i 0
    (List.range (15 - d)).foldl (fun t j => slhF seed { x with chain := i, index := d + j } t) ((sig.drop (24 * i)).take 24)))

/-- One layer of the hypertree: the root that a signature of a node gives, in a tree and leaf of that layer. (PRESUMED, assumption 103) -/
def xmssPk (seed : List Byte) (layer tree leaf : Nat) (sig node : List Byte) : List Byte :=
  let x : Adrs := { layer := layer, tree := tree, pair := leaf }
  slhClimb seed { x with type := 2, pair := 0 } 0 leaf (wotsPk seed x (sig.take 1224) node) (chunksOf 24 9 ((sig.drop 1224).take 216))

/-- R446: whether a signature of 16,224 bytes is valid under a public key, in pure mode with an empty context string.
(PRESUMED, assumption 103) -/
def slhVerify (key sig msg : List Byte) : Bool :=
  let seed := key.take 24
  let root := (key.drop 24).take 24
  let r := sig.take 24
  let dig := mgf1 sha512 64 (r ++ seed ++ sha512 (r ++ seed ++ root ++ [0, 0] ++ msg)) 39
  let tree := beVal ((dig.drop 30).take 7) % 2 ^ 54
  let leaf := beVal ((dig.drop 37).take 2) % 2 ^ 9
  let node := forsPk seed { tree := tree, type := 3, pair := leaf } ((sig.drop 24).take 6120) (dig.take 30)
  let top := (List.range 7).foldl (fun (z : List Byte × Nat × Nat) j =>
    (xmssPk seed j z.2.1 z.2.2 (sig.drop (6144 + 1440 * j)) z.1, z.2.1 / 2 ^ 9, z.2.1 % 2 ^ 9)) (node, tree, leaf)
  decide (top.1 = root)

end Sys2Proof.Machine
end

