-- ==== Sys2Proof/Machine/Boot.lean ====
section
/-! DEFINITION. The reset levels above a context (R439 to R441), the boot sequence and the firmware images it verifies (R444 to R451), and
the watchdog (R455). -/

namespace Sys2Proof.Machine

open Sys2Proof

/-! ### Firmware images (R444 to R446) -/

/-- Byte o of firmware slot k (0 A, 1 B), as the boot ROM reads it (R444). -/
def State.slotByte (s : State) (k o : Nat) : Byte :=
  (s.peekLoc (.t2 (some (k * 2 ^ 28 + o / 2 ^ 25 * 2 ^ 18 + 64 * 2048 + o % 2 ^ 25 / 16384)) (o % 16384))).1

/-- Byte o of the recovery buffer (R449). -/
def State.recovByte (s : State) (o : Nat) : Byte := (s.peek (kRecov o)).1

/-- Whether that byte of firmware slot k reads poisoned (R278, R387). -/
def State.slotPoison (s : State) (k o : Nat) : Bool :=
  (s.peekLoc (.t2 (some (k * 2 ^ 28 + o / 2 ^ 25 * 2 ^ 18 + 64 * 2048 + o % 2 ^ 25 / 16384)) (o % 16384))).2

/-- Whether that byte of the recovery buffer reads poisoned (R387). -/
def State.recovPoison (s : State) (o : Nat) : Bool := (s.peek (kRecov o)).2

/-- `n` bytes of an image from offset o. -/
def imgBytes (img : Nat → Byte) (o n : Nat) : List Byte := (List.range n).map (fun i => img (o + i))

/-- A little-endian field of an image. -/
def imgNum (img : Nat → Byte) (o n : Nat) : Nat := leVal (imgBytes img o n)

/-- The header offset of a slot (R444). -/
def slotHdr : Nat := 0x0FFF8000

/-- The header offset of a recovery image (R449). -/
def recovHdr : Nat := 0x03FF8000

/-- The signed region of the header at h. -/
def signedRegion (img : Nat → Byte) (h : Nat) : List Byte := imgBytes img h 0x1000

/-- Offset and length of stage k (1 to 3). -/
def stageRange (img : Nat → Byte) (h k : Nat) : Nat × Nat := (imgNum img (h + 64 * k - 48) 8, imgNum img (h + 64 * k - 40) 8)

/-- The digest that the header gives for stage k. -/
def stageDigest (img : Nat → Byte) (h k : Nat) : BitVec 384 := BitVec.ofNat 384 (imgNum img (h + 64 * k - 32) 48)

/-- The SHA-384 of the bytes of stage k. -/
def stageHash (img : Nat → Byte) (h k : Nat) : BitVec 384 :=
  let r := stageRange img h k
  sha384 (imgBytes img r.1 r.2)

/-- The longest stage k (R445). -/
def stageMax (k : Nat) : Nat := if k = 1 then 2 ^ 24 else if k = 2 then 2 ^ 22 else 2 ^ 20

/-- Whether the header's reserved bytes and bits are 0 (R445). (DEDUCED, assumption 45) -/
def hdrReserved0 (img : Nat → Byte) (h : Nat) : Bool :=
  decide (imgNum img (h + 0xC) 1 < 64) && decide (imgNum img (h + 0xD) 1 < 4) && decide (imgNum img (h + 0xE) 1 < 4) &&
  [(0x284, 0xD7C), (0x1180, 0x80), (0x5160, 0x2EA0)].all (fun (r : Nat × Nat) => decide (imgNum img (h + r.1) r.2 = 0))

/-- Whether the header is in order (R446, first check). -/
def fwHdrOk (img : Nat → Byte) (h : Nat) : Bool :=
  decide (imgNum img h 8 = 0x0920F0F05A5A0001) && decide (imgNum img (h + 0xF) 1 = 3) && hdrReserved0 img h &&
  [1, 2, 3].all (fun k =>
    let r := stageRange img h k
    decide (r.1 % 16384 = 0) && decide (r.2 ≤ stageMax k) && decide (r.1 + r.2 ≤ h)) &&
  disjoint ([1, 2, 3].map (stageRange img h))

/-- Whether neither key index is revoked and both keys have the ROM's hashes (R446). -/
def keysOk (x : Sec) (img : Nat → Byte) (h : Nat) : Bool :=
  let r := imgNum img (h + 0xD) 1
  let l := imgNum img (h + 0xE) 1
  !(x.rsaRevoked.getLsbD r) && !(x.slhRevoked.getLsbD l) &&
  decide (sha384 (imgBytes img (h + 0xD0) 388) = Config.romRsaHash r) &&
  decide (sha384 (imgBytes img (h + 0x254) 48) = Config.romSlhHash l)

/-- R446: 1 for an image that verifies, else the code of its first failed check. Stages 2 and 3, which stage 1 checks, fail like
stage 1. (DESIGN CHOICE, assumption 7; DEDUCED, assumption 45) -/
def verifyImage (x : Sec) (img : Nat → Byte) (h : Nat) : Nat :=
  if !(fwHdrOk img h) then 2
  else if imgNum img (h + 0xC) 1 < x.minSvn then 3
  else if !(keysOk x img h) then 4
  else if !(rsaVerify (imgBytes img (h + 0xD0) 388) (imgBytes img (h + 0x1000) 384) (signedRegion img h)) then 5
  else if !(slhVerify (imgBytes img (h + 0x254) 48) (imgBytes img (h + 0x1200) 16224) (signedRegion img h)) then 6
  else if [1, 2, 3].all (fun k => decide (stageHash img h k = stageDigest img h k)) then 1
  else 7

/-- R446 for an image as its store delivers it: with a poisoned word in its header the signatures do not verify, and a stage with one
does not have its digest (R387). (DESIGN CHOICE, assumption 100) -/
def verifyMarked (x : Sec) (img : Nat → Byte) (bad : Nat → Bool) (h : Nat) : Nat :=
  let code := verifyImage x img h
  let any := fun (g : Nat × Nat) => (List.range g.2).any (fun i => bad (g.1 + i))
  if (code = 1 ∨ 5 < code) ∧ any (h, 0x8000) then 5
  else if code = 1 ∧ [1, 2, 3].any (fun k => any (stageRange img h k)) then 7
  else code

/-! ### The boot sequence (R447 to R451) -/

/-- R451: the configuration record. -/
def State.configRecord (s : State) : List Byte :=
  let x := s.sec
  [BitVec.ofNat 8 s.link.role, BitVec.ofNat 8 s.fac.grade.toNat, BitVec.ofNat 8 s.fac.stepping.toNat,
   BitVec.ofNat 8 (s.fld Reg.devStatus_resetCause)] ++
  leBytes 4 (x.minSvn % 64 + x.rsaRevoked.toNat * 2 ^ 8 + x.slhRevoked.toNat * 2 ^ 12 + b2n x.debugLocked * 2 ^ 16) ++ leBytes 8 0

/-- Steps 1 and 2 of R447: the registers are cleared; the ROM, the configuration and the calibration rows in use are measured.
(DESIGN CHOICE, assumption 44) -/
def State.romMeasure (s : State) : State :=
  let s1 := { s with sec := { s.sec with meas := List.replicate 12 0, dieFail := s.fac.calBad } }
  let s2 := (s1.extend 0 Config.romDigest).extend 5 (sha384 s1.configRecord)
  (List.range 20).foldl (fun (s : State) d => if s.fac.calBad.getLsbD d then s else s.extend 6 (sha384 (s.calRow d))) s2

/-- Steps 5 to 8 of R447 for an image that verified. -/
def State.runImage (s : State) (img : Nat → Byte) (h code : Nat) : State :=
  let s1 := (s.extend 1 (sha384 (signedRegion img h))).extend 2 (stageDigest img h 1)
  let s2 := (s1.extend 3 (stageDigest img h 2)).extend 4 (stageDigest img h 3)
  let s3 := { s2 with sec := { s2.sec with
    state := code
    version := BitVec.ofNat 32 (imgNum img (h + 8) 4)
    svn := imgNum img (h + 0xC) 1
    rsaIdx := imgNum img (h + 0xD) 1
    slhIdx := imgNum img (h + 0xE) 1 } }
  s3.setFld Reg.devStatus_ready 1

/-- The version that the header of slot k gives. -/
def State.slotVersion (s : State) (k : Nat) : Nat := imgNum (s.slotByte k) (slotHdr + 8) 4

/-- A slot's watchdog streak. -/
def Sec.streak (x : Sec) (k : Nat) : Nat := if k = 0 then x.streakA else x.streakB

/-- R448: the slots in version order. -/
def State.versionOrder (s : State) : List Nat := if s.slotVersion 0 < s.slotVersion 1 then [1, 0] else [0, 1]

/-- R448, R450: the slots in the order they are tried. -/
def State.bootOrder (s : State) : List Nat :=
  let l := s.versionOrder.filter (fun k =>
    !(decide (s.sec.upState ≠ 0) && decide (b2n s.sec.upSlot = k)) && !(s.fac.calBad.getLsbD (8 * k)))
  l.filter (fun k => decide (s.sec.streak k < 3)) ++ l.filter (fun k => decide (3 ≤ s.sec.streak k))

/-- Record the outcome of a slot's check in SEC_BOOT. (DEDUCED, assumption 45) -/
def State.slotResult (s : State) (k code : Nat) : State :=
  { s with sec := if k = 0 then { s.sec with resA := code } else { s.sec with resB := code } }

/-- Steps 3 to 8: try the slots; with none that verifies the ROM enters RECOVERY (R449). (DESIGN CHOICE, assumption 44) -/
def State.tryL (s : State) : List Nat → State
  | [] => { s with sec := { s.sec with state := 3 } }.setFld Reg.devStatus_ready 1
  | k :: l =>
    let code := verifyMarked s.sec (s.slotByte k) (s.slotPoison k) slotHdr
    let s1 := s.slotResult k code
    if code = 1 then
      { s1 with sec := { s1.sec with slot := decide (k = 1), fallback := decide (s.versionOrder.head? ≠ some k) } }.runImage
        (s.slotByte k) slotHdr 2
    else s1.tryL l

/-- R450: the tile-set slots on a charge-array die without calibration are not READY. (DEDUCED, assumption 46) -/
def TsetSlot.booted (x : TsetSlot) (calBad : BitVec 20) : TsetSlot :=
  if x.state = .ready ∧ x.tiles.any (fun t => calBad.getLsbD (16 + t / 256)) then { x with state := .installing } else x

/-- R107: the valid factory remap entries of the calibration rows that tiles lack: (tile, spare pair, data pair). -/
def State.lostRemaps (s : State) : List (Nat × Nat × Nat) :=
  s.fac.remaps.filterMap (fun (e : Nat × Nat) =>
    let i := e.1 / 32
    if e.2 = 0 ∨ s.fac.calBad.getLsbD (16 + i / 256) ∨ (s.tile i).remap.any (fun r => decide (r.spare = e.1 % 32)) then none
    else some (i, e.1 % 32, e.2 - 1))

/-- Restore factory remap entries, each with its log entry (R107). -/
def State.restoreRemaps (s : State) : List (Nat × Nat × Nat) → State
  | [] => s
  | (i, j, d) :: l =>
    ((s.setTile i { s.tile i with remap := (s.tile i).remap ++ [⟨j, false, d⟩] }).logEvent 3 7 none i d).restoreRemaps l

/-- The pages of firmware slot k that lie at n bytes from offset o. -/
def slotPages (k o n : Nat) : List Nat :=
  (unitsOf 16384 o n).map (fun u => k * 2 ^ 28 + u / 2048 * 2 ^ 18 + 64 * 2048 + u % 2048)

/-- The page reads of a boot count (R301): the headers of the slots, and the stages of those whose stages were checked.
(DESIGN CHOICE, assumption 79) -/
def State.countBoot (s : State) (img : Nat → Nat → Byte) : State :=
  let hdrs := [0, 1].flatMap (fun k => if s.fac.calBad.getLsbD (8 * k) then [] else slotPages k slotHdr 32768)
  let stages := [(0, s.sec.resA), (1, s.sec.resB)].flatMap (fun (r : Nat × Nat) =>
    if r.2 = 1 ∨ r.2 = 7 then [1, 2, 3].flatMap (fun j =>
      let g := stageRange (img r.1) slotHdr j
      slotPages r.1 g.1 g.2) else [])
  (hdrs ++ stages).foldl (fun (s : State) p => s.pageRead none p) s

/-- R447: the boot, taken whole. An update that a reset cut short must start again (R453). (DESIGN CHOICE, assumption 44) -/
def State.boot (s : State) : State :=
  let s1 := s.romMeasure
  let s0 := (s1.tryL s1.bootOrder).countBoot s1.slotByte
  let s2 := s0.restoreRemaps s0.lostRemaps
  { s2 with
    sec := { s2.sec with upState := if s2.sec.upState = 1 then 2 else s2.sec.upState }
    tsets := s2.tsets.map (fun (e : Nat × TsetSlot) => (e.1, e.2.booted s2.fac.calBad)) }

/-! ### Resets (R440, R441) -/

/-- R417, R441: copy the commands in execution into the trip record, at most 64 for each context. (DEDUCED, assumption 46) -/
def State.recordTrips (s : State) (detail : Nat) : List CtxId → State
  | [] => s
  | c :: l =>
    let old := (s.pwr.trips.filter (fun r => decide (r.ctx = c))).length
    let new : List TripRec := (s.inExecution c).map (fun x =>
      { ctx := c, tag := Entry.tag x.2.2, eng := x.1, slot := x.2.1 % 4096, layerId := Entry.layerId x.2.2, irq := Entry.irq x.2.2
        detail := detail })
    let trips := s.pwr.trips ++ new.take (64 - old)
    ({ s with pwr := { s.pwr with trips := trips, tripActive := !trips.isEmpty } }).recordTrips detail l

/-- A switch that is not in the journal is undone (R318); the slots that a reset finds BUILDING or RETIRING are STALE, and no boundary is
in force (R327). -/
def State.bootModels (s : State) : List Nat → State
  | [] => s
  | i :: l =>
    let s0 := s.unswitch i
    let s1 := s0.setModel i { s0.model i with boundary := none }
    let f := fun (s : State) k => if (s.model i).st k = .building ∨ (s.model i).st k = .retiring then s.makeStale i k else s
    (f (f s1 0) 1).bootModels l

/-- A T2 entry as the journal gives it back: residency T2 only and no holders (R252). -/
def Obj.booted (o : Obj) : Obj :=
  { o with cp0 := false, cp1 := false, dirty := false, busy := false, hold0 := [], hold1 := [], chg0 := 0, chg1 := 0 }

/-- The registers with AON fields (R419). -/
def aonRegs : List Nat := [Reg.pwrLastWake, Reg.pwrRtcNow, Reg.pwrRtcAlarm, Reg.pwrTrip]

/-- What the security island keeps: fuses, AON fields, the save counter, and the images sealed under it. -/
def Sec.wiped (x : Sec) : Sec :=
  { streakA := x.streakA, streakB := x.streakB, minSvn := x.minSvn, rsaRevoked := x.rsaRevoked, slhRevoked := x.slhRevoked,
    debugLocked := x.debugLocked, upSlot := x.upSlot, upState := x.upState, upVersion := x.upVersion, expiries := x.expiries,
    saveCount := x.saveCount, seals := x.seals }

/-- What a reset keeps of the power state: the wake state that a host command named (R36), the trip record, the real-time clock and the
pins of the always-on island. -/
def Pwr.wiped (x : Pwr) : Pwr :=
  { wakeState := x.wakeState, rtcAcc := x.rtcAcc, trips := x.trips, tripActive := x.tripActive, padHold := x.padHold, sensors := x.sensors, hot := x.hot, heldWake := x.heldWake,
    thermTripN := x.thermTripN, pwrEnMain := x.pwrEnMain, pcieWakeN := x.pcieWakeN, perst := x.perst, sysCfg := x.sysCfg, gpio := x.gpio
    gpioHeld := x.gpioHeld }

/-- R440, columns from device reset on: everything volatile goes, the non-volatile state is as the journal gives it, and the destinations
of commands in execution in host memory are left undefined (R97).
(DESIGN CHOICE, assumption 47) -/
def State.wiped (s0 : State) : State :=
  let s := (s0.scramble s0.running).fpcReset.bootModels (SMap.keys s0.models)
  { pending := s.pending, freeCtr := s.freeCtr, out := s.out
    regs := SMap.keepKeys (fun k => aonRegs.contains k) s.regs
    mem := SMap.keepKeys (fun k => decide (k / 2 ^ 64 = 3)) s.mem
    hostMem := s.hostMem
    poison := SMap.keepKeys (fun w => decide (w / 2 ^ 61 = 0) || decide (w / 2 ^ 61 = 3)) s.poison
    flashErr := s.flashErr
    objs := (List.filter (fun (e : Nat × Obj) => e.2.valid && decide (e.2.home = 2)) s.objs).map
      (fun (e : Nat × Obj) => (e.1, e.2.booted))
    pmap := s.pmap, orphans := s.orphans, models := s.models, blks := s.blks, sectors := s.sectors, tsets := s.tsets
    tiles := s.tiles, cells := s.cells, fac := s.fac, log := s.log, logNext := s.logNext
    inst := if s0.models.any (fun (e : Nat × Model) => e.2.unrec.isSome) then s.inst else {}
    link := { role := s.link.role, roleFault := s.link.roleFault }
    pcie := { refClk := s.pcie.refClk }
    pwr := s.pwr.wiped, sec := s.sec.wiped }

/-- R349: the straps are sampled; on a Planet and a Moon every port is enabled and waits for its partner. (DESIGN CHOICE, assumption 47) -/
def State.sampleStraps (s : State) (straps : BitVec 2) : State :=
  let r := straps.toNat
  let trained := decide (r = 1) || decide (r = 2)
  let s1 := { s with
    link := { s.link with
      role := r, roleFault := decide (r = 3)
      ports := s.link.ports.map (fun x => { x with state := if trained then PortState.detect else x.state }) }
    time := { s.time with locked := decide (r ≠ 2) }
    pwr := { s.pwr with sysCfg := straps } }
  if trained then allPorts.foldl (fun (s : State) p => s.setFld (Reg.lnkPortCtl_en.port p) 1) s1 else s1

/-- A reset from which the device boots: the cause is shown, the straps are sampled, and the boot runs. (DESIGN CHOICE, assumption 42) -/
def State.restart (s : State) (cause : Nat) (straps : BitVec 2) : State :=
  ((s.wiped.setFld Reg.devStatus_resetCause cause).sampleStraps straps).boot

/-- R325: what the leader's reset leaves of an installation that had not switched: it has ended ABORTED. (DEDUCED, assumption 58) -/
def Inst.resetEnd (i : Inst) (dev : Nat) : Inst :=
  { state := 6, model := i.model, slot := i.slot, leader := true, resValid := true, resStatus := .aborted, resDev := dev, resDetail := 3 }

/-- R441: a device reset. It ends an installation that this device leads and that has not switched (R325). -/
def State.devReset (s : State) (cause : Nat) (straps : BitVec 2) : State :=
  let i := s.inst
  let ends := i.leader && decide (1 ≤ i.state) && decide (i.state ≤ 3)
  let s1 := if ends ∧ i.devices.contains s.link.dev ∧ ((s.model i.model).st i.slot = .building ∨ (s.model i.model).st i.slot = .standby) then
    s.makeStale i.model i.slot else s
  let s2 := (s1.recordTrips 3 allCtx).restart cause straps
  if ends then { s2 with inst := i.resetEnd s.link.dev } else s2

/-- The level of SYSCFG[1:0] for a reset that no strap operand comes with (R480). (DESIGN CHOICE, assumption 47) -/
def State.straps (s : State) : BitVec 2 := s.pwr.sysCfg

/-- R439: the cold boot once the rails are good; THERM_TRIP_N is released. The cause was fixed when the boot was decided.
(DEDUCED, assumption 48) -/
def State.coldBoot (s : State) (straps : BitVec 2) : State :=
  let s1 := { s with pwr := { s.pwr with thermTripN := true } }
  s1.restart (s.fld Reg.devStatus_resetCause) straps

/-! ### The commands -/

/-- R439, R441: a keyed write of DEV_RESET. (DESIGN CHOICE, assumption 47) -/
def State.devResetWrite (s : State) (v : W64) (straps : BitVec 2) : State :=
  if wBits v 0 16 = 0x6B1D then s.devReset 4 straps else s

/-- DEV_RESET (R442); `straps` is the level of SYSCFG[1:0]. -/
def execDevReset (v : W64) (straps : BitVec 2) (s : State) : Host.Outcome State Fault Refusal := .next (s.devResetWrite v straps)

/-- HOT_RESET (R439): a device reset, in the states in which the link runs. -/
def execHotReset (straps : BitVec 2) (s : State) : Host.Outcome State Fault Refusal :=
  .next (if s.up then s.devReset 3 straps else s)

/-- R455: the booted slot's streak and the expiry count rise, an entry is logged, and the device resets. A recovery image was booted
from no slot. (DESIGN CHOICE, assumption 15; DEDUCED, assumption 45) -/
def State.watchdog (s : State) (straps : BitVec 2) : State :=
  let x := s.sec
  let bump := decide (x.state ≠ 4)
  let s1 := { s with sec := { x with
    expiries := satAdd 16 x.expiries 1
    streakA := if bump && !x.slot then min 3 (x.streakA + 1) else x.streakA
    streakB := if bump && x.slot then min 3 (x.streakB + 1) else x.streakB } }
  let w := s1.takeFree
  let d := w.2.takeFree
  (d.2.logEvent (wBits w.1 0 4) (wBits w.1 4 8) none (wBits w.1 12 52) d.1.toNat).devReset 5 straps

/-- WATCHDOG_EXPIRY (R455): while stage 1 runs. -/
def execWatchdogExpiry (straps : BitVec 2) (s : State) : Host.Outcome State Fault Refusal :=
  .next (if s.sec.state = 2 ∨ s.sec.state = 4 then s.watchdog straps else s)

/-- BOOT_OK_TIMER (R448). (DEDUCED, assumption 45) -/
def execBootOkTimer (s : State) : Host.Outcome State Fault Refusal :=
  .next (if s.sec.state = 2 then
      { s with sec := if s.sec.slot then { s.sec with ok := true, streakB := 0 } else { s.sec with ok := true, streakA := 0 } }
    else if s.sec.state = 4 then { s with sec := { s.sec with ok := true } }
    else s)

/-- What the ROM's reads of the recovery buffer count (R385): its header, and its stages where they were checked. (DEDUCED, assumption 45) -/
def State.noteRecovImage (s : State) (code : Nat) : State :=
  let r := (recovHdr, 0x8000) :: (if code = 1 ∨ code = 7 then [1, 2, 3].map (stageRange s.recovByte recovHdr) else [])
  r.foldl (fun (s : State) (g : Nat × Nat) => s.noteRecov g.1 g.2) s

/-- R449: verify the image in the recovery buffer, and boot it. (DEDUCED, assumption 45) -/
def State.recovery (s : State) : State :=
  if s.sec.state ≠ 3 then s
  else
    let code := verifyMarked s.sec s.recovByte s.recovPoison recovHdr
    let s0 := s.noteRecovImage code
    let s1 := { s0 with sec := { s0.sec with recovResult := code } }.extend 7 (sha384 (signedRegion s.recovByte recovHdr))
    if code = 1 then s1.runImage s.recovByte recovHdr 4 else s1

/-- RECOVERY_VERIFY (R449): a write of SEC_RECOV.go. -/
def execRecoveryVerify (s : State) : Host.Outcome State Fault Refusal := .next s.recovery

end Sys2Proof.Machine
end

