-- ==== Sys2Proof/Machine/Check.lean ====
section
/-! DEFINITION. The check-value units of a context (R381 to R383) and the latching of an error-log entry (R390, R391). -/

namespace Sys2Proof.Machine

open Sys2Proof

/-- A check-value unit of context c. -/
def State.crcUnit (s : State) (c : CtxId) (u : Fin 4) : CrcUnit := (s.ctx c).crc.getD u {}

/-- Replace a check-value unit. -/
def State.setCrc (s : State) (c : CtxId) (u : Fin 4) (x : CrcUnit) : State := s.updCtx c (fun k => { k with crc := k.crc.set u x })

/-- The running value after bytes are fed (R381). -/
def CrcUnit.feed (x : CrcUnit) (bs : List Byte) : CrcUnit :=
  { x with run := if x.w64 then crc64Run x.run bs else (crc32Run (x.run.setWidth 32) bs).setWidth 64 }

/-- The running value advanced over n zero bytes (R382). -/
def CrcUnit.advanced (x : CrcUnit) (n : Nat) : CrcUnit :=
  { x with run := if x.w64 then crc64Advance x.run n else (crc32Advance (x.run.setWidth 32) n).setWidth 64 }

/-- A write of one register of the unit: 0 CFG, 1 RUN, 2 FEED, 3 ADV (R383). -/
def CrcUnit.apply (x : CrcUnit) (reg : Nat) (v : W64) : CrcUnit :=
  match reg with
  | 0 => { x with w64 := wBit v 0, lenM1 := wBits v 1 3, run := 0 }
  | 1 => { x with run := if x.w64 then v else BitVec.ofNat 64 (wBits v 0 32) }
  | 2 => x.feed ((leBytes 8 v.toNat).take (x.lenM1 + 1))
  | _ => { x with adv := some (wBits v 0 48) }

/-- A write to a unit: while an ADV is in progress it waits its turn (R383). -/
def CrcUnit.access (x : CrcUnit) (reg : Nat) (v : W64) : CrcUnit :=
  if x.adv.isSome then { x with waiting := x.waiting ++ [(reg, v)] } else x.apply reg v

/-- Apply waiting accesses in arrival order, up to the next ADV. -/
def CrcUnit.drain (x : CrcUnit) : List (Nat × W64) → CrcUnit
  | [] => { x with waiting := [] }
  | (r, v) :: l =>
    let y := x.apply r v
    if y.adv.isSome then { y with waiting := l } else y.drain l

/-- An ADV completes: the running value is advanced, and what waited is applied in order. -/
def CrcUnit.done (x : CrcUnit) : CrcUnit :=
  match x.adv with
  | none => x
  | some n => ({ x with adv := none }.advanced n).drain x.waiting

/-- The unit once its advance and everything that waits behind it are done: what a later access that waits meets (R383). -/
def CrcUnit.settled (x : CrcUnit) : CrcUnit := (List.range (x.waiting.length + 1)).foldl (fun y _ => y.done) x

/-- A write of one register of unit u. -/
def State.crcWrite (s : State) (c : CtxId) (u : Fin 4) (reg : Nat) (v : W64) : State :=
  s.setCrc c u ((s.crcUnit c u).access reg v)

/-- CRC_CONFIG_WRITE (R383). -/
def execCrcConfigWrite (c : CtxId) (u : Fin 4) (v : W64) (s : State) : Host.Outcome State Fault Refusal := .next (s.crcWrite c u 0 v)

/-- CRC_FEED (R383). -/
def execCrcFeed (c : CtxId) (u : Fin 4) (v : W64) (s : State) : Host.Outcome State Fault Refusal := .next (s.crcWrite c u 2 v)

/-- CRC_ADVANCE (R383). -/
def execCrcAdvance (c : CtxId) (u : Fin 4) (v : W64) (s : State) : Host.Outcome State Fault Refusal := .next (s.crcWrite c u 3 v)

/-- CRC_ADVANCE_DONE (R383). -/
def execCrcAdvanceDone (c : CtxId) (u : Fin 4) (s : State) : Host.Outcome State Fault Refusal :=
  .next (s.setCrc c u (s.crcUnit c u).done)

/-- The four words of a log entry (R391); `valid` is bit 63 of word 0 in TEL_LOG_W0. -/
def LogEnt.words (e : LogEnt) : List W64 :=
  [BitVec.ofNat 64 (e.seq.toNat + e.src % 16 * 2 ^ 32 + e.code % 256 * 2 ^ 36 + (e.ctx.elim 0 Fin.val) * 2 ^ 44 +
    b2n e.ctx.isSome * 2 ^ 48 + 2 ^ 63), e.time, BitVec.ofNat 64 e.loc, BitVec.ofNat 64 e.detail]

/-- Set consecutive registers. -/
def State.setRegs (s : State) (off : Nat) : List W64 → State
  | [] => s
  | w :: l => (s.setReg off w).setRegs (off + 8) l

/-- A write of TEL_LOG_SEL latches the entry of a sequence number; one that is not held reads as zero words (R390). -/
def State.logSelect (s : State) (v : W64) : State :=
  let q : BitVec 32 := v.setWidth 32
  let ws := match s.log.find? (fun e => decide (e.seq = q)) with
    | some e => e.words
    | none => [0, 0, 0, 0]
  (s.setReg Reg.telLogSel (BitVec.ofNat 64 (wBits v 0 32))).setRegs Reg.telLogW ws

/-- LOG_SELECT (R390). -/
def execLogSelect (v : W64) (s : State) : Host.Outcome State Fault Refusal := .next (s.logSelect v)

end Sys2Proof.Machine
end

