-- ==== Sys2Proof/Machine/Expand.lean ====
section
/-! DEFINITION. The expanders (chapter 6): one block decoded as it arrives. -/

namespace Sys2Proof.Machine

open Sys2Proof

/-- The oldest arming of an MXE slot that is compressed and has blocks left to decode. -/
def State.decoding (s : State) (c : CtxId) (slot : Nat) : Option (Nat × Arming) :=
  (s.armings.zipIdx.find? (fun a => decide (a.1.ctx = c) && decide (a.1.eng = .mxe) && decide (a.1.slot = slot) && a.1.desc.cmp &&
    decide (a.1.decBlk < a.1.desc.count) && decide (a.1.pos < a.1.desc.len))).map (fun p => (p.2, p.1))

/-- The decoded bytes in the MXE's operand buffer: those that the array has not taken. An uncompressed stream's bytes pass as the array takes
them and wait in its lookahead until then. (DESIGN CHOICE, assumption 27) -/
def State.decodedAhead (s : State) : Nat :=
  ((s.armings.filter (fun a => decide (a.eng = .mxe) && !(s.arrayTakes a))).map (fun a => a.dec.length)).sum

/-- Decode the next block of an MXE stream slot once all its bytes have arrived and the 64 KiB operand buffer has room for it (R135); a
raw block passes through (R167, R168). -/
def State.decodeBlock (s : State) (c : CtxId) (slot : Nat) : State :=
  match s.decoding c slot with
  | none => s
  | some (i, a) =>
    if a.blockIn = false ∨ (s.arrayTakes a = false ∧ 65536 < s.decodedAhead + 4096) then s
    else
      let r := s.decodeNext a
      r.2.setArming i r.1

/-- BLOCK_DECODE (R167). -/
def execBlockDecode (c : CtxId) (slot : Nat) (s : State) : Host.Outcome State Fault Refusal :=
  .next (s.orStall (fun s => (s.touch (domRange 32 8)).decodeBlock c slot))

end Sys2Proof.Machine
end

