-- ==== Sys2Proof/Machine/Power.lean ====
section
/-! DEFINITION. Clocks, power states and waking (chapter 15), rail sequencing and power failure (R474 to R476, R488), the loss of the
PCI Express link (R438), and what one CLK_CTL cycle does. -/

namespace Sys2Proof.Machine

open Sys2Proof

/-! ### The PCI Express link goes (R438) -/

/-- The virtual functions' contexts return to the physical function (R428). -/
def State.returnL (s : State) : List CtxId → State
  | [] => s
  | c :: l => (if s.vfHolds c then s.ctxReturn c else s).returnL l

/-- VF Enable returns to 0 (R428). -/
def State.vfClear (s : State) : State :=
  let s1 := s.returnL allCtx
  { s1 with pcie := { s1.pcie with vfEn := false } }

/-- R438: the endpoint's configuration space, VF Enable among it, and its MSI-X tables return to reset. (DEDUCED, assumption 40) -/
def State.endpointReset (s : State) : State :=
  let s1 := allCtx.foldl (fun (s : State) n => s.fnReset n) s.vfClear
  { s1 with pcie := { s1.pcie with numVfs := 0 } }

/-- R438: the link leaves DL_Active, and migrations that use host memory fail (R269); in step 5 of an entry that counts as the PME_Turn_Off
exchange, which ENTRY_STEP_DONE then sees. Reads that wait have no completion. -/
def State.linkLost (s : State) : State :=
  if !s.pcie.linkUp then s
  else
    let s0 := ({ s with pcie := { s.pcie with linkUp := false, lostReads := [] } }).failMigs (fun m o => m.usesHost o)
    let s1 := s0.endpointReset.addFld Reg.devStatus_linkDowns 1
    { s1 with pcie := { s1.pcie with gen := 0, width := 0 }, aptWait := s1.aptWait.filter HostAcc.posted }

/-- LINK_DOWN (R438). -/
def execLinkDown (s : State) : Host.Outcome State Fault Refusal := .next s.linkLost

/-! ### NST banks and DST without power (R251, R399, R407) -/

/-- Bank b loses its contents: what lies in it reads as poisoned, its free pages too (R251). (DEDUCED, assumption 49) -/
def State.poisonBank (s : State) (b : Nat) : State :=
  let s1 := s.poisonWords ((SMap.keys s.objs).flatMap (fun i => s.bankWords i b))
  { s1 with pwr := { s1.pwr with
      cleanFree := s1.pwr.cleanFree.filter (fun k => decide (k ≠ b))
      lostBanks := if s1.pwr.lostBanks.contains b then s1.pwr.lostBanks else s1.pwr.lostBanks ++ [b] } }

/-- Stream data buffered in T0 is lost with its banks. -/
def Arming.loseBuffer (a : Arming) : Arming :=
  if a.hasBuffer then { a with data := a.data.map (fun b => (b.1, true)), dec := a.dec.map (fun b => (b.1, true)) } else a

/-- Every T1-homed object reads as poisoned until it is written (R407). -/
def State.poisonT1 (s : State) : State :=
  s.poisonWords ((SMap.keys s.objs).flatMap (fun i =>
    if (s.obj i).home = 1 then (List.range ((s.obj i).size * 512)).map (kT1 i 0 / 8 + ·) else []))

/-- Drop the copies in tier t: residency, references and charges go (R251). -/
def State.dropCopies (s : State) (t : Nat) : State :=
  { s with objs := s.objs.map (fun (e : Nat × Obj) =>
      if e.2.home.val ≠ t ∧ e.2.cp t then (e.1, { (e.2.setCp t false).setHold t [] with dirty := false }) else e) }

/-- Whether DST keeps its contents in PARK: both stacks (R404, R407). -/
def State.dstKept (s : State) : Bool := s.flag Reg.pwrRetainMask_dst0 && s.flag Reg.pwrRetainMask_dst1

/-- What DOZE and PARK lose of NST: every T0 copy and stream buffer when a bank is not retained, and the contents of those banks (R222,
R250, R251). (DEDUCED, assumption 49) -/
def State.dropNst (s : State) : State :=
  let lost := setBitsBelow 32 (2 ^ 32 - 1 - s.fld Reg.pwrRetainMask_bank)
  if lost.isEmpty then s
  else
    let s1 := lost.foldl (fun (s : State) b => s.poisonBank b) (s.dropCopies 0)
    { s1 with armings := s1.armings.map Arming.loseBuffer }

/-! ### Write-back at entry (R251, R405 step 4) -/

/-- The queue slot under which step 4's writes to a peer are awaited. -/
def entrySlot : Nat := migSlot 1024

/-- The copy of an object that step 4 writes back: a dirty T0 copy, and a dirty T1 copy of a T3-homed object where DST is lost. -/
def Obj.toWriteBack (o : Obj) (dst : Bool) : Option Nat :=
  if !o.dirty then none
  else if o.cp0 ∧ o.home ≠ 0 then some 0
  else if o.cp1 ∧ o.home = 3 ∧ dst then some 1
  else none

/-- Write back one object; a home that fails keeps its copy dirty (R269). -/
def State.writeBackOne (s : State) (i t : Nat) : State :=
  let o := s.obj i
  let m : MigReq := { ctx := o.owner, op := 2, tier := t, id := 1024, addr := 0, sigEn := false, sigIdx := 0, sigInc := 0, dl := 0 }
  match s.writeHome m i o (List.range o.size) with
  | none => s
  | some s1 => s1.setObj i { s1.obj i with dirty := false }

/-- Write back what an entry to `target` must. -/
def State.writeBackL (s : State) (dst : Bool) : List Nat → State
  | [] => s
  | i :: l =>
    (match (s.obj i).toWriteBack dst with
    | some t => s.writeBackOne i t
    | none => s).writeBackL dst l

/-- Step 4 of R405; where it meets a gated domain it waits for its next turn. (DEDUCED, assumption 49) -/
def State.writeBackAll (s : State) (target : PwrMode) : State :=
  let dst := decide (target = .off) || (decide (target = .park) && !s.dstKept)
  let r := s.tryOnce (fun s => s.writeBackL dst (SMap.keys s.objs))
  { r.1 with pwr := { r.1.pwr with entry := r.1.pwr.entry.map (fun e => { e with written := r.2 }) } }

/-! ### P-states (R396, R413) -/

/-- ACLK of a P-state, in steps of 0.3 GHz. (DEDUCED, assumption 48) -/
def aclkOf (p : Nat) : Nat := 5 - p

/-- Whether an entry, exit or P-state change is in progress (PWR_STATUS.busy). -/
def Pwr.busy (x : Pwr) : Bool := x.entry.isSome || x.exiting || x.ramp.isSome

/-- Update the power state. -/
def State.updPwr (s : State) (f : Pwr → Pwr) : State := { s with pwr := f s.pwr }

/-- R404: a refusal is recorded. -/
def State.pwrRefuse (s : State) (code : Nat) : State := s.updPwr (fun x => { x with refused := code })

/-- The VDD_CORE target of a P-state in mV: its nominal value and the fused offset, at most 850 (R396). -/
def State.vddTarget (s : State) (p : Nat) : Nat := min 850 ([750, 710, 680, 650].getD p 650 + s.fac.vddOffset.val)

/-- Ask the regulator for a P-state's voltage (R396, R413). -/
def State.askVolt (s : State) (p : Nat) (raising : Bool) : State :=
  (s.updPwr (fun x => { x with ramp := some { target := p, raising := raising, waitVolt := true } })).emit (.avsVoltage (s.vddTarget p))

/-- The P-state whose voltage VDD_CORE has in a low state: IDLE keeps that of the state left, DOZE and PARK have P3's (R402). -/
def Pwr.heldState (x : Pwr) : Nat := if x.mode = .idle then x.pstate else 3

/-- The exit from IDLE, DOZE or PARK begins (R402, R408), with every rail on again: toward a wake state that needs a higher voltage it is
asked for first (R396). (DEDUCED, assumption 48) -/
def State.startExit (s : State) (source : Nat) : State :=
  let s1 := s.updPwr (fun x =>
    { x with exiting := true, railsOff := [], pcieWakeN := x.pcieWakeN && !(decide (x.mode = .park) && decide (source ≠ 2)) })
  if s.pwr.wakeState < s.pwr.heldState then s1.askVolt s.pwr.wakeState true else s1

/-- A change to P-state n begins (R396); raising waits for the voltage. -/
def State.pstateStart (s : State) (n : Nat) : State :=
  if n = s.pwr.pstate then s
  else if n < s.pwr.pstate then s.askVolt n true
  else s.updPwr (fun x => { x with ramp := some { target := n, raising := false, waitVolt := false } })

/-- PWR_STATE_CMD naming a P-state (R396, R404, R406, R422): during an entry it acts as a wake event; in IDLE and DOZE the exit leads to
the named state. -/
def State.toPState (s : State) (n : Nat) : State :=
  if s.pwr.entry.isSome then s.entryEvent 6 0 (some n)
  else if s.pwr.busy then s.pwrRefuse 1
  else match s.pwr.mode with
    | .run => s.pstateStart n
    | .idle | .doze => (s.updPwr (fun x => { x with wakeState := n })).startExit 6
    | _ => s

/-- PSTATE_CHANGE (R396). -/
def execPstateChange (n : Fin 4) (s : State) : Host.Outcome State Fault Refusal := .next (s.toPState n)

/-- One step of ACLK; after the last a raise is complete, and a lowering asks for its voltage (R396). -/
def State.aclkStep (s : State) : State :=
  match s.pwr.ramp with
  | some r =>
    if r.waitVolt ∨ s.pwr.exiting ∨ s.pwr.entry.isSome then s
    else
      let a := if r.raising then s.pwr.aclk + 1 else s.pwr.aclk - 1
      let s1 := s.updPwr (fun x => { x with aclk := a })
      if a ≠ aclkOf r.target then s1
      else
        let s2 := s1.updPwr (fun x => { x with pstate := r.target, ramp := none })
        if r.raising then s2 else s2.askVolt r.target false
  | none => s

/-- ACLK_STEP (R396). -/
def execAclkStep (s : State) : Host.Outcome State Fault Refusal := .next s.aclkStep

/-- The regulator confirms the requested voltage (R413). -/
def State.voltConfirm (s : State) : State :=
  match s.pwr.ramp with
  | some r =>
    if !r.waitVolt then s
    else
      let goesOn := r.raising && !s.pwr.exiting && s.pwr.entry.isNone
      s.updPwr (fun x => { x with vddOk := true, ramp := if goesOn then some { r with waitVolt := false } else none })
  | none => s

/-- AVS_VOLTAGE_CONFIRM (R413). -/
def execAvsVoltageConfirm (s : State) : Host.Outcome State Fault Refusal := .next s.voltConfirm

/-- The alert message (R413, R415). -/
def State.pwrAlert (s : State) : State :=
  if s.flag Reg.pwrThermCfg_alertEn then s.sendMsix 0 (s.fld Reg.pwrThermCfg_vector) else s

/-- R413: a voltage request is not confirmed in 100 µs. A raise leaves the P-state, from IDLE too; a lowering stands, an exit from DOZE or
PARK leads to P3, step 7 completes. (DEDUCED, assumption 48) -/
def State.voltTimeout (s : State) : State :=
  match s.pwr.ramp with
  | some r =>
    if !r.waitVolt then s
    else (s.updPwr (fun x =>
      { x with ramp := none, fail := 1, vddOk := false, wakeState := if x.exiting then x.heldState else x.wakeState })).pwrAlert
  | none => s

/-- AVS_TIMEOUT (R413). -/
def execAvsTimeout (s : State) : Host.Outcome State Fault Refusal := .next s.voltTimeout

/-! ### Entry (R404 to R406) -/

/-- R404, R405 step 1: an entry to a low state, or the reason it is refused. -/
def State.enter (s : State) (target : PwrMode) (wake : Nat) : State :=
  if !s.up then s
  else if s.pwr.busy then s.pwrRefuse 1
  else if allCtx.any (fun c => (s.ctx c).exactReq) then s.pwrRefuse 2
  else if target = .park ∧ s.flag Reg.pwrRetainMask_dst0 ≠ s.flag Reg.pwrRetainMask_dst1 then s.pwrRefuse 3
  else s.updPwr (fun x => { x with wakeSeen := none, entry := some { target := target, step := 1, fromMode := x.mode, wake := wake } })

/-- ENTER_IDLE (R405). -/
def execEnterIdle (wake : Fin 4) (s : State) : Host.Outcome State Fault Refusal := .next (s.enter .idle wake)
/-- ENTER_DOZE (R405). -/
def execEnterDoze (wake : Fin 4) (s : State) : Host.Outcome State Fault Refusal := .next (s.enter .doze wake)
/-- ENTER_PARK (R405). -/
def execEnterPark (wake : Fin 4) (s : State) : Host.Outcome State Fault Refusal := .next (s.enter .park wake)
/-- ENTER_OFF (R405). -/
def execEnterOff (wake : Fin 4) (s : State) : Host.Outcome State Fault Refusal := .next (s.enter .off wake)

/-- PWR_STATE_CMD as written (R419). (DEDUCED, assumption 48) -/
def State.stateCmd (s : State) (v : W64) : State :=
  let w := wBits v 4 2
  match wBits v 0 3 with
  | 4 => s.enter .idle w
  | 5 => s.enter .doze w
  | 6 => s.enter .park w
  | 7 => s.enter .off w
  | n => s.toPState n

/-- Whether step k applies to a target (R405). Step 6 is a step of PARK where its stacks are retained. -/
def State.stepApplies (s : State) (target : PwrMode) (k : Nat) : Bool :=
  match k with
  | 3 | 4 => decide (target ≠ .idle)
  | 5 => decide (target = .park) || decide (target = .off)
  | 6 => decide (target = .idle) || decide (target = .doze) || (decide (target = .park) && s.dstKept)
  | 8 => decide (target = .off)
  | _ => true

/-- The step of the entry sequence that follows step k, if any. -/
def State.nextStep (s : State) (target : PwrMode) (k : Nat) : Option Nat :=
  [1, 2, 3, 4, 5, 6, 7, 8].find? (fun j => decide (k < j) && s.stepApplies target j)

/-- Whether step k can finish now: step 2 once no command is in execution and no migration operation is in progress, step 3 once no
page program and no held erase runs, step 4 once the peers have answered, step 5 once the link is gone, step 7 once no voltage request waits.
(DEDUCED, assumption 49) -/
def State.stepReady (s : State) (k : Nat) : Bool :=
  match k with
  | 2 => allCtx.all (fun c => decide (s.execCount c = 0)) && decide (s.migBusy = 0) && s.aptWait.isEmpty
  | 3 => !(s.fpc.ops.any (fun o => o.going && (!o.erases || o.hold)))
  | 4 => s.pwr.entry.any (·.written) && !(s.link.peerReqs.any (fun r => decide (r.slot = entrySlot)))
  | 5 => !s.pcie.linkUp
  | 7 => s.pwr.ramp.isNone
  | _ => true

/-- Running erases are suspended (R304). -/
def State.suspendErases (s : State) : State :=
  s.fpc.ops.foldl (fun (s : State) o =>
    if o.going ∧ o.erases ∧ !o.hold then s.suspend o .suspendedEntry else s) s

/-- Erases that an entry suspended resume (R304, R406). -/
def State.resumeErases (s : State) : State :=
  s.fpc.ops.foldl (fun (s : State) o => if o.phase = .suspendedEntry then s.resumeOp o else s) s

/-- Every port is taken OFF (R405 step 5, R411). -/
def State.portsOff (s : State) : State := 
  allPorts.foldl (fun (s : State) p => if (s.port p).state = .off then s else s.tear p .off) s

/-- Enabled ports train again (R406, R411), those but whose domains are without power. -/
def State.portsTrain (s : State) : State :=
  allPorts.foldl (fun (s : State) p => if s.dom (108 + p.val) = .powerGated then s else s.wakePort (108 + p.val)) s

/-- What an entry does as it comes to step k. (DEDUCED, assumption 49) -/
def State.stepBegin (s : State) (target : PwrMode) (k : Nat) : State :=
  match k with
  | 3 => s.recordPtrs.suspendErases
  | 4 => s.writeBackAll target
  | 5 => s.portsOff
  | 8 => s.updPwr (fun x => { x with pwrEnMain := false })
  | 7 => if target = .doze ∧ s.pwr.pstate < 3 then s.askVolt 3 false else s
  | _ => s

/-- R412: on a Planet and a Moon the pads are held at their levels, the time outputs low. -/
def State.holdPads (s : State) : State :=
  if s.isPlanet || s.isMoon then
    { s with pwr := { s.pwr with padHold := true, gpioHeld := s.pwr.gpio }, time := { s.time with ppsHigh := false } } else s

/-- What the loss of the stream units' power takes: armings and static slot tables, which are no part of the control store (R398, R402). -/
def State.dropStreams (s : State) : State :=
  { s with armings := [], ctxs := s.ctxs.map (fun x => { x with slotTabs := Vector.replicate 4 {} }) }

/-- R475: PARK turns rails off over PMBus, the groups of R474 in reverse order; VDD_SRAM and VDD_DRAM stay. -/
def parkRails : List (List MainRail) := [[.vpp], [.wst, .serdes12], [.core, .caf, .serdes09]]

/-- The rails of PARK go (R472, R475). -/
def State.parkRailsOff (s : State) : State :=
  (parkRails.foldl (fun (s : State) l => s.emit (.railsDown l)) s).updPwr (fun x => { x with railsOff := parkRails.flatten })

/-- Whether a main rail is on (R472, R474). -/
def State.railOn (s : State) (r : MainRail) : Bool :=
  s.pwr.pwrEnMain && (s.up || decide (s.pwr.mode = .park)) && !(s.pwr.railsOff.contains r)

/-- What the FPC's staging buffers hold is lost with their power: they read as memory that nothing has written (R402).
(DESIGN CHOICE, assumption 10) -/
def State.dropStaging (s : State) : State := s.zeroFrom (kStage 0 0) (kStage 8 0)

/-- R411: a Moon that parks leaves its system, and has no number when it wakes (R372). -/
def State.leaveSystem (s : State) : State := if s.isMoon then s.unnumber else s

/-- What step 7 does (R402, R405): DOZE and PARK lose what is not retained; without its rails the FPC is interrupted (R290).
(DEDUCED, assumption 49) -/
def State.stepSeven (s : State) (target : PwrMode) : State :=
  match target with
  | .doze => s.dropNst
  | .park =>
    let s1 := if s.dstKept then s.dropNst else (s.dropNst.dropCopies 1).poisonT1
    (s1.fpcReset).dropStaging.dropStreams.leaveSystem.holdPads.parkRailsOff
  | .off => s.holdPads
  | _ => s

/-- The main rails go: what they kept is lost, and the registers that decide on a wake stay (R402, R408). -/
def State.railsGone (s : State) (mode : PwrMode) : State :=
  let s1 := s.wiped
  { (s1.setReg Reg.pwrWakeEn (s.reg Reg.pwrWakeEn)) with pwr := { s1.pwr with mode := mode, pwrEnMain := false } }

/-- PWR_EN_MAIN is asserted for a cold boot with a cause (R474). -/
def State.startBoot (s : State) (cause : Nat) : State :=
  (s.setFld Reg.devStatus_resetCause cause).updPwr (fun x => { x with mode := .rising, pwrEnMain := true, heldWake := false })

/-- R418: a wake from OFF: after a trip it is held while sensor 63 reads 95 °C or more. -/
def State.wakeOff (s : State) (source : Nat) : State :=
  let s1 := if source ≠ 2 then s.updPwr (fun x => { x with pcieWakeN := false }) else s
  let hot := decide (95 ≤ signed 9 (SMap.get 0 s.pwr.sensors 63))
  if !s.pwr.thermTripN && hot then s1.updPwr (fun x => { x with heldWake := true })
  else (s1.setFld Reg.pwrTrip_deferred 0).startBoot (if s.pwr.thermTripN then 1 else 6)

/-- The target state is reached; a wake event of step 7 or 8 starts the exit at once (R406). -/
def State.entryEnd (s : State) (e : EntrySeq) : State :=
  let s1 := s.updPwr (fun x => { x with entry := none, mode := e.target, wakeState := e.wake, wakeSeen := none })
  if e.target = .off then
    let s2 := s1.railsGone .off
    e.lateWake.elim s2 s2.wakeOff
  else e.lateWake.elim s1 s1.startExit

/-- R406: the entry is abandoned: the steps taken are undone, and the state that was being left, or the P-state that was named, is
taken again. -/
def State.abandon (s : State) (e : EntrySeq) (pstate : Option Nat) : State :=
  let s1 := (s.updPwr (fun x => { x with entry := none, wakeSeen := none })).addFld Reg.pwrStatus_abandoned 1
  let taken := fun (k : Nat) => decide (k ≤ e.step) && s.stepApplies e.target k
  let s2 := if taken 5 then s1.portsTrain else s1
  let s3 := if taken 3 then s2.resumeErases else s2
  pstate.elim s3 s3.toPState

/-- Step k of an entry ends: at its abort point a noted event abandons the entry, else the next step begins, or the target is reached. -/
def State.stepEnd (s : State) (e : EntrySeq) : State :=
  match e.abandon, decide (e.step < 7) with
  | some (_, p), true => s.abandon e p
  | _, _ =>
    let s1 := if e.step = 7 then s.stepSeven e.target else s
    match s1.nextStep e.target e.step with
    | none => s1.entryEnd e
    | some k => (s1.updPwr (fun x => { x with entry := some { e with step := k }, wakeSeen := none })).stepBegin e.target k

/-- ENTRY_STEP_DONE (R405): a step that is not done goes on. -/
def execEntryStepDone (s : State) : Host.Outcome State Fault Refusal :=
  .next (match s.pwr.entry with
    | none => s
    | some e => if s.stepReady e.step then s.stepEnd e else if e.step = 4 ∧ !e.written then s.writeBackAll e.target else s)

/-- The link enters L2 in step 5, and the sequence goes on (R405). (DEDUCED, assumption 50) -/
def State.pmeToAck (s : State) : State :=
  match s.pwr.entry with
  | some e => if e.step = 5 then ({ s with pcie := { s.pcie with linkUp := false, gen := 0, width := 0 } }).stepEnd e else s
  | none => s

/-- PME_TO_ACK (R405). -/
def execPmeToAck (s : State) : Host.Outcome State Fault Refusal := .next s.pmeToAck

/-- R405: no exchange within 10 ms: the entry is abandoned. (DEDUCED, assumption 50) -/
def State.pmeTimeout (s : State) : State :=
  match s.pwr.entry with
  | some e => if e.step = 5 then (s.updPwr (fun x => { x with fail := 2 })).abandon e (e.abandon.bind (·.2)) else s
  | none => s

/-- PME_TURN_OFF_TIMEOUT (R405). -/
def execPmeTurnOffTimeout (s : State) : Host.Outcome State Fault Refusal := .next s.pmeTimeout

/-! ### Waking (R403, R408 to R411) -/

/-- R406, R408, R409, R418: a wake event. In a P-state without an entry, and during an exit or a boot, there is nothing to wake.
(DEDUCED, assumption 50) -/
def State.wakeEvent (s : State) (source port : Nat) : State :=
  if s.pwr.entry.isSome then s.entryEvent source port none
  else if s.pwr.exiting then (if s.pwr.wakeSeen.isSome then s.noteWake source port else s)
  else match s.pwr.mode with
    | .idle | .doze | .park => (s.noteWake source port).startExit source
    | .off =>
      if s.pwr.heldWake then (s.setFld Reg.pwrLastWake_count s.wakeCount).updPwr (fun x => { x with wakeSeen := some (x.wakeSeen.getD source) })
      else (s.noteWake source port).wakeOff source
    | _ => s

/-- The alarm second is reached: `fired` is set, and an enabled alarm wakes the device (R408). A second that is past is not reached again.
(DESIGN CHOICE, assumption 63) -/
def State.rtcAlarm (s : State) : State :=
  let now := s.fld Reg.pwrRtcNow_sec
  let sec := s.fld Reg.pwrRtcAlarm_sec
  if !s.flag Reg.pwrRtcAlarm_en || decide (s.pwr.mode = .unpowered) || decide (sec < now) then s
  else
    let s0 := if now < sec then (s.setFld Reg.pwrRtcNow_sec sec).setFld Reg.pwrRtcNow_sub 0 else s
    let s1 := s0.setFld Reg.pwrRtcAlarm_fired 1
    if s.flag Reg.pwrWakeEn_rtc then s1.wakeEvent 1 0 else s1

/-- RTC_ALARM (R408). -/
def execRtcAlarm (s : State) : Host.Outcome State Fault Refusal := .next s.rtcAlarm

/-- R399, R408: a host memory write wakes the endpoint's domain; in IDLE or DOZE it is a wake event. -/
def State.hostWakes (s : State) : State :=
  let s := s.wakeDom epDom
  if (s.pwr.mode = .idle ∨ s.pwr.mode = .doze) ∧ s.pwr.entry.isNone ∧ s.flag Reg.pwrWakeEn_pcie then s.wakeEvent 2 0 else s

/-- Whether port p is privileged (R410). -/
def State.privileged (s : State) (p : PortId) : Bool := Nat.testBit (s.fld Reg.pwrWakeEn_ports) p.val

/-- Whether port p is privileged and enabled (R405, R408). -/
def State.wakes (s : State) (p : PortId) : Bool := s.privileged p && s.flag (Reg.lnkPortCtl_en.port p)

/-- Whether the ports' detectors are armed: in PARK, or in an entry that has taken the ports OFF (R405 step 5). -/
def State.detectors (s : State) : Bool :=
  decide (s.pwr.mode = .park) || s.pwr.entry.any (fun e => decide (5 ≤ e.step) && (decide (e.target = .park) || decide (e.target = .off)))

/-- COMET_PATTERN_DETECT (R410): on an enabled privileged port whose detector is armed. -/
def execCometPatternDetect (p : PortId) (s : State) : Host.Outcome State Fault Refusal :=
  .next (if s.wakes p && s.detectors then s.wakeEvent 4 p.val else s)

/-- TRELBO_WAKE_ACTIVITY (R408): a data message on an enabled privileged ACTIVE port, or in PARK a lane signal on one that is not
comet-only. -/
def execTrelboWakeActivity (p : PortId) (s : State) : Host.Outcome State Fault Refusal :=
  .next (if !s.wakes p then s
    else if s.detectors then (if Nat.testBit (s.fld Reg.pwrWakeEn_cometOnly) p.val then s else s.wakeEvent 3 p.val)
    else if s.portUp p then s.wakeEvent 3 p.val
    else s)

/-- R403: the exit ends in the wake state: enabled ports train after PARK, suspended erases resume, and the pads of a single device
drive again (R412). From IDLE to a state of lower voltage, this is asked for now (R396). -/
def State.wakeDone (s : State) : State :=
  if !s.pwr.exiting || s.pwr.ramp.isSome then s
  else
    let s1 := s.updPwr (fun x => { x with
      mode := .run, exiting := false, wakeSeen := none, pstate := x.wakeState, aclk := aclkOf x.wakeState })
    let s2 := if s.pwr.heldState < s.pwr.wakeState then s1.askVolt s.pwr.wakeState false else s1
    (if s.pwr.mode = .park then s2.portsTrain else s2).resumeErases

/-- WAKE_COMPLETE (R403). -/
def execWakeComplete (s : State) : Host.Outcome State Fault Refusal := .next s.wakeDone

/-! ### Clock domains (R398 to R401) -/

/-- Whether PWR_DOM_CTL acts on a domain: in a P-state, not on the always-on set, not on one that Exact mode holds (R399). -/
def State.domWritable (s : State) (d : Nat) : Bool :=
  decide (s.pwr.mode = .run) && decide (d ≤ 116) &&
  !(exactDoms.contains d && allCtx.any (fun c => (s.ctx c).exactReq || (s.ctx c).exactActive))

/-- What the loss of its power does to what a domain serves: a port is OFF, the endpoint's link is down. (DESIGN CHOICE, assumption 52) -/
def State.domDark (s : State) (d : Nat) : State :=
  if 108 ≤ d ∧ d < 116 then s.tear (portNo (d - 108)) .off
  else if d = epDom then s.linkLost
  else s

/-- Power-gate a domain: its shut-down begins (R400); one whose power is only coming back loses it at once. (DESIGN CHOICE, assumption 52) -/
def State.domGate (s : State) (d : Nat) : State :=
  if s.domWritable d then
    match s.dom d with
    | .shutting _ | .powerGated => s
    | .waking false => (s.setDom d .powerGated).domDark d
    | _ => s.setDom d (.shutting 1)
  else s

/-- Clock-gate a domain that is on. -/
def State.domClockGate (s : State) (d : Nat) : State :=
  if s.domWritable d ∧ s.dom d = .on then s.setDom d .clockGated else s

/-- Power a domain up, or abandon its shut-down. -/
def State.domUp (s : State) (d : Nat) : State := if s.pwr.mode = .run ∧ d ≤ 116 then s.wakeDom d else s

/-- PWR_DOM_CTL as written (R419). (DESIGN CHOICE, assumption 52) -/
def State.domCmd (s : State) (v : W64) : State :=
  let d := wBits v 0 7
  match wBits v 8 2 with
  | 1 => s.domGate d
  | 2 => s.domUp d
  | 3 => s.domClockGate d
  | _ => s

/-- DOMAIN_POWER_GATE (R400). -/
def execDomainPowerGate (d : BitVec 7) (s : State) : Host.Outcome State Fault Refusal := .next (s.domGate d.toNat)
/-- DOMAIN_POWER_UP (R399). -/
def execDomainPowerUp (d : BitVec 7) (s : State) : Host.Outcome State Fault Refusal := .next (s.domUp d.toNat)
/-- DOMAIN_CLOCK_GATE (R399). -/
def execDomainClockGate (d : BitVec 7) (s : State) : Host.Outcome State Fault Refusal := .next (s.domClockGate d.toNat)

/-- The domains that an operation of the migration engine uses: its own, the fabric, and those of the tiers it moves between. -/
def State.migDoms (s : State) (m : MigReq) : List Nat :=
  93 :: domRange 94 8 ++ m.obj.elim [] (fun i =>
    let o := s.obj i
    (if m.tier = 0 ∨ o.home = 0 then (s.bankSet i).map (48 + ·) else []) ++
    (if m.tier = 1 ∨ o.home = 1 ∨ o.cp1 then [102, 103] else []) ++ (if o.home = 2 then domRange 104 4 else []))

/-- The domains that an operation of the FPC in progress uses: the stacks of its planes, the sequencers of its tile. -/
def FpcOp.doms (o : FpcOp) : List Nat :=
  o.planes.map (fun p => 104 + p / 512) ++ (if o.op = 4 ∨ o.op = 5 then [80 + o.tile / 128] else [])

/-- The domains that a transfer in flight of an arming uses: its engine's places, the fabric, and the memories it reads. -/
def Arming.doms (a : Arming) : List Nat :=
  if a.flight.isEmpty then [] else (89 + a.eng.code.val) :: domRange 94 8 ++ a.flight.flatMap (·.doms)

/-- Whether a port has work in progress: something to send, or a request of the neighbour to serve. -/
def Port.unsent (x : Port) : Bool :=
  !x.txData.isEmpty || !x.txCtl.isEmpty || !x.replay.isEmpty || !x.creplay.isEmpty || !x.inMsgs.isEmpty

/-- Whether work in progress keeps a domain's shut-down in step 1 (R400). -/
def State.domBusy (s : State) (d : Nat) : Bool :=
  allEng.any (fun e => (engineDoms e).contains d && s.running.any (fun x => decide (x.eng = e))) ||
  s.mig.any (fun m => m.started && (s.migDoms m).contains d) ||
  s.armings.any (fun a => a.doms.contains d) ||
  s.fpc.ops.any (fun o => (decide (o.phase = .running) || decide (o.phase = .reporting)) && o.doms.contains d) ||
  (decide (108 ≤ d) && decide (d < 116) && decide ((s.port (portNo (d - 108))).state = .active) &&
    ((s.port (portNo (d - 108))).unsent || s.link.peerReqs.any (fun r => decide (r.port = portNo (d - 108)))))

/-- R400: a domain that shuts down takes its next step; in step 4 its power goes. (DESIGN CHOICE, assumption 52) -/
def State.shutStep (s : State) (d : Nat) : State :=
  match s.dom d with
  | .shutting k =>
    if k = 1 ∧ s.domBusy d then s
    else if k < 3 then s.setDom d (.shutting (k + 1))
    else if k = 3 then (s.setDom d (.shutting 4)).domDark d
    else s.setDom d .powerGated
  | _ => s

/-- What one step adds to the real-time clock, in 1/375,000,000 of its unit: a CLK_CTL cycle, or in PARK and OFF a TIME_XO cycle (R397). -/
def State.rtcRate (s : State) : Nat :=
  match s.pwr.mode with
  | .unpowered => 0
  | .park | .off => 15 * 32768
  | _ => 32768

/-- One step of the real-time clock (R397, R419): PWR_RTC_NOW advances as its crystal does. (DESIGN CHOICE, assumption 2) -/
def State.rtcTick (s : State) : State :=
  let n := s.pwr.rtcAcc + s.rtcRate
  let now := s.fld Reg.pwrRtcNow_sec * 32768 + s.fld Reg.pwrRtcNow_sub + n / 375000000
  let s1 := s.updPwr (fun x => { x with rtcAcc := n % 375000000 })
  if n < 375000000 then s1 else (s1.setFld Reg.pwrRtcNow_sec (now / 32768 % 2 ^ 48)).setFld Reg.pwrRtcNow_sub (now % 32768)

/-! ### Pads (R412) -/

/-- The pads are released: the pending register writes take effect. -/
def State.padRelease (s : State) (v : W64) : State :=
  if wBit v 0 && s.pwr.padHold then
    s.pwr.padPending.foldl (fun (s : State) (w : Nat × W64) => s.setReg w.1 w.2)
      (s.updPwr (fun x => { x with padHold := false, padPending := [] }))
  else s

/-- PAD_HOLD_RELEASE (R412). -/
def execPadHoldRelease (v : W64) (s : State) : Host.Outcome State Fault Refusal := .next (s.padRelease v)

/-! ### Thermal alert and trip (R415 to R418) -/

/-- R416: the trip: recorded, the clocks stop, the main rails go; THERM_TRIP_N stays low. (DEDUCED, assumption 51) -/
def State.trip (s : State) (sensor : Nat) (temp : Int) : State :=
  let s1 := (s.addFld Reg.pwrTrip_count 1).setFld Reg.pwrTrip_sensor sensor
  let s2 := (s1.setFld Reg.pwrTrip_temp temp.toNat).recordTrips 4 allCtx
  let s3 := ((s2.holdPads).railsGone .off).updPwr (fun x => { x with wakeState := 3 })
  s3.updPwr (fun x => { x with thermTripN := false, hot := [] })

/-- R415: a sensor reaches the alert temperature. (DEDUCED, assumption 51) -/
def State.alertHit (s : State) (l : List (Nat × Int)) : Bool :=
  l.any (fun r => decide ((s.fld Reg.pwrThermCfg_alertThr : Int) ≤ r.2) &&
    decide (signed 9 (SMap.get 0 s.pwr.sensors r.1) < (s.fld Reg.pwrThermCfg_alertThr : Int)))

/-- One sample of the sensors (R415, R416); `temps` are their readings in °C, in number order. (DEDUCED, assumption 51) -/
def State.thermal (s : State) (temps : List Int) : State :=
  let l := ((temps.take 64).zipIdx).map (fun (r : Int × Nat) => (r.2, r.1))
  let s1 := s.updPwr (fun x => { x with
    sensors := l.foldl (fun (m : SMap Nat) (r : Nat × Int) => SMap.put 0 m r.1 (unsigned 9 r.2)) x.sensors
    hot := l.foldl (fun (m : SMap Bool) (r : Nat × Int) => SMap.put false m r.1 (decide (115 ≤ r.2))) x.hot })
  let s2 := if s.alertHit l then s1.pwrAlert else s1
  match l.find? (fun r => decide (115 ≤ r.2) && SMap.get false s.pwr.hot r.1) with
  | some r => s2.trip r.1 r.2
  | none => s2

/-- THERMAL_SAMPLE (R416): in every powered state but OFF. -/
def execThermalSample (temps : List Int) (s : State) : Host.Outcome State Fault Refusal :=
  .next (if s.pwr.mode = .off ∨ s.pwr.mode = .unpowered then s else s.thermal temps)

/-- One sample of sensor 63 in OFF (R486): after a trip, below 95 °C a held wake starts the cold boot (R418). -/
def State.offThermal (s : State) (temp : Int) : State :=
  if s.pwr.mode = .off then
    let s1 := s.updPwr (fun x => { x with sensors := SMap.put 0 x.sensors 63 (unsigned 9 temp) })
    if !s.pwr.thermTripN ∧ s.pwr.heldWake ∧ temp < 95 then (s1.setFld Reg.pwrTrip_deferred 1).startBoot 6 else s1
  else s

/-- OFF_THERMAL_SAMPLE (R418). -/
def execOffThermalSample (temp : Int) (s : State) : Host.Outcome State Fault Refusal := .next (s.offThermal temp)

/-! ### Regulators and rails (R414, R474 to R476, R488) -/

/-- What a poll shows of one rail; `none`: it has not acknowledged within 10 ms (R414). (DEDUCED, assumption 51) -/
def State.pollRail (s : State) (i : Nat) (r : Option (Nat × Nat × Nat × Bool)) : State :=
  match r with
  | some (mv, ma, mw, fault) =>
    let rail : Rail := { mv := mv % 2 ^ 16, ma := ma % 2 ^ 20, mw := mw % 2 ^ 24, fault := fault, stale := false }
    s.updPwr (fun x => { x with rails := SMap.put {} x.rails i rail })
  | none =>
    let rail : Rail := SMap.get {} s.pwr.rails i
    s.updPwr (fun x => { x with fail := 3, rails := SMap.put {} x.rails i { rail with stale := true } })

/-- The sum of mw over all rails (TEL_POWER.now_mw). (DEDUCED, assumption 51) -/
def Pwr.mwSum (x : Pwr) : Nat := (x.rails.map (fun (e : Nat × Rail) => e.2.mw)).sum

/-- One poll of the rails, in the order of TEL_RAIL_SEL (R414). -/
def State.railPoll (s : State) (l : List (Option (Nat × Nat × Nat × Bool))) : State :=
  let s1 := ((l.take 10).zipIdx).foldl (fun (s : State) (r : Option (Nat × Nat × Nat × Bool) × Nat) => s.pollRail r.2 r.1) s
  s1.updPwr (fun x => { x with mwHist := ((x.mwSum % 2 ^ 24) :: x.mwHist).take 10 })

/-- RAIL_POLL (R414): by the MGC, while it runs. -/
def execRailPoll (l : List (Option (Nat × Nat × Nat × Bool))) (s : State) : Host.Outcome State Fault Refusal :=
  .next (if s.up ∨ s.pwr.mode = .park then s.railPoll l else s)

/-- R440, R474: the always-on island leaves its power-on reset: AON fields are 0, the TEL_ log and the trip record are empty; a cold boot
follows. -/
def State.aonUp (s : State) : State :=
  let s1 := s.wiped
  { s1 with
    regs := [], log := [], logNext := 0
    sec := { s1.sec with streakA := 0, streakB := 0, upSlot := false, upState := 0, upVersion := 0, expiries := 0 }
    pwr := { mode := .rising, perst := s.pwr.perst } }

/-- VDD_AON_POWER_UP (R474). -/
def execVddAonPowerUp (s : State) : Host.Outcome State Fault Refusal := .next (if s.pwr.mode = .unpowered then s.aonUp else s)

/-- Rails go that no host command took away: the boot that follows leads to P3 (R36, R403). -/
def State.railsLost (s : State) (mode : PwrMode) : State := (s.railsGone mode).updPwr (fun x => { x with wakeState := 3 })

/-- VDD_AON_LOSS (R488): the device is unpowered. -/
def execVddAonLoss (s : State) : Host.Outcome State Fault Refusal := .next (s.railsLost .unpowered)

/-- PWR_GOOD_MAIN_RISE (R474): the rails are good, and the boot runs; `straps` is the level of SYSCFG[1:0]. After OFF the device goes on
to the wake state that the host named (R36). -/
def execPwrGoodMainRise (straps : BitVec 2) (s : State) : Host.Outcome State Fault Refusal :=
  .next (if s.pwr.mode = .rising ∧ s.pwr.pwrEnMain then (s.coldBoot straps).pstateStart s.pwr.wakeState else s)

/-- PWR_GOOD_TIMEOUT (R474). -/
def execPwrGoodTimeout (s : State) : Host.Outcome State Fault Refusal :=
  .next (if s.pwr.mode = .rising ∧ s.pwr.pwrEnMain then s.updPwr (fun x => { x with pwrEnMain := false }) else s)

/-- RAIL_RETRY (R474). -/
def execRailRetry (s : State) : Host.Outcome State Fault Refusal :=
  .next (if s.pwr.mode = .rising then s.updPwr (fun x => { x with pwrEnMain := true }) else s)

/-- Whether the device itself removes rails: PARK's step 7, and PARK until the exit from it begins (R475, R488). -/
def State.removingRails (s : State) : Bool :=
  s.pwr.entry.any (fun e => decide (e.step = 7) && decide (e.target = .park)) || (decide (s.pwr.mode = .park) && !s.pwr.exiting)

/-- PWR_GOOD_MAIN_FALL (R476): a power failure while PWR_EN_MAIN is asserted; commands in execution are lost without a record (R440). -/
def execPwrGoodMainFall (s : State) : Host.Outcome State Fault Refusal :=
  .next (if (s.up || decide (s.pwr.mode = .park)) && s.pwr.pwrEnMain && !s.removingRails then s.railsLost .rising else s)

/-- POWER_FAIL_RESTART (R476). -/
def execPowerFailRestart (s : State) : Host.Outcome State Fault Refusal :=
  .next (if s.pwr.mode = .rising ∧ !s.pwr.pwrEnMain then s.startBoot 1 else s)

/-! ### PERST_N (R439, R441, R408) -/

/-- PERST_N is asserted: a device reset in a P-state, IDLE and DOZE, a wake in PARK; it ends PCIE_WAKE_N (R408). (DEDUCED, assumption 50) -/
def State.perstAssert (s : State) (straps : BitVec 2) : State :=
  let s1 := s.updPwr (fun x => { x with perst := true, pcieWakeN := true })
  if s1.up then s1.devReset 2 straps
  else if s1.pwr.mode = .park then
    let s2 := ({ s1 with pcie := { s1.pcie with linkUp := false } }).endpointReset
    if s2.flag Reg.pwrWakeEn_pcie then s2.wakeEvent 2 0 else s2
  else s1

/-- PERST_N_ASSERT (R439). -/
def execPerstNAssert (straps : BitVec 2) (s : State) : Host.Outcome State Fault Refusal := .next (s.perstAssert straps)

/-- PERST_N is deasserted, with the reference clock stable by the standard; in OFF this is a wake event (R408).
(DESIGN CHOICE, assumption 62) -/
def State.perstDeassert (s : State) : State :=
  let s1 := { s.updPwr (fun x => { x with perst := false }) with pcie := { s.pcie with refClk := true } }
  if s.pwr.perst ∧ s.pwr.mode = .off ∧ s.flag Reg.pwrWakeEn_pcie then s1.wakeEvent 2 0 else s1

/-- PERST_N_DEASSERT (R441). -/
def execPerstNDeassert (s : State) : Host.Outcome State Fault Refusal := .next s.perstDeassert

end Sys2Proof.Machine
end

