-- ==== Sys2Proof/Machine/Security.lean ====
section
/-! DEFINITION. The security island (chapter 17) but for the boot: firmware updates, the security version, measurements, attestation and its
relay over Trelbo links, and the certificates; and the words of SEC_ and DEV_ registers that a report shows. -/

namespace Sys2Proof.Machine

open Sys2Proof

/-! ### Register words (R442, R466) -/

/-- DEV_ID. (DESIGN CHOICE, assumption 15) -/
def State.devIdWord (s : State) : W64 :=
  wordOf [(Reg.devId_vendor, Config.vendorIndex.val + 1), (Reg.devId_device, 0x0920), (Reg.devId_stepping, s.fac.stepping.toNat),
    (Reg.devId_grade, s.fac.grade.toNat)]

/-- SEC_BOOT. -/
def Sec.bootWord (x : Sec) : W64 :=
  wordOf [(Reg.secBoot_state, x.state), (Reg.secBoot_slot, b2n x.slot), (Reg.secBoot_fallback, b2n x.fallback),
    (Reg.secBoot_resA, x.resA), (Reg.secBoot_resB, x.resB), (Reg.secBoot_dieFail, x.dieFail.toNat), (Reg.secBoot_ok, b2n x.ok),
    (Reg.secBoot_streakA, x.streakA), (Reg.secBoot_streakB, x.streakB)]

/-- SEC_FW. -/
def Sec.fwWord (x : Sec) : W64 :=
  wordOf [(Reg.secFw_version, x.version.toNat), (Reg.secFw_svn, x.svn), (Reg.secFw_rsaIdx, x.rsaIdx), (Reg.secFw_slhIdx, x.slhIdx)]

/-- SEC_FUSE. -/
def Sec.fuseWord (x : Sec) : W64 :=
  wordOf [(Reg.secFuse_minSvn, x.minSvn), (Reg.secFuse_rsaRevoked, x.rsaRevoked.toNat), (Reg.secFuse_slhRevoked, x.slhRevoked.toNat),
    (Reg.secFuse_debugLocked, b2n x.debugLocked)]

/-- Update the security island. -/
def State.updSec (s : State) (f : Sec → Sec) : State := { s with sec := f s.sec }

/-! ### Firmware update and security version (R453, R454, R468) -/

/-- SEC_FWUP begin: ignored for the slot the running firmware was booted from, and while the other slot is IN_PROGRESS. (DEDUCED, assumption 60) -/
def State.fwBegin (s : State) (slot : Bool) (version : BitVec 32) : State :=
  let x := s.sec
  if (x.state = 2 ∧ x.slot = slot) ∨ (x.upState = 1 ∧ x.upSlot ≠ slot) then s
  else s.updSec (fun x => { x with upSlot := slot, upState := 1, upVersion := version })

/-- SEC_FWUP finish: of an update IN_PROGRESS. (DEDUCED, assumption 60) -/
def State.fwFinish (s : State) : State := if s.sec.upState = 1 then s.updSec (fun x => { x with upState := 0 }) else s

/-- SEC_FWUP cancel. (DEDUCED, assumption 60) -/
def State.fwCancel (s : State) : State := s.updSec (fun x => { x with upState := 0 })

/-- The fields slot and version of SEC_FWUP are set while no record is in force. (DEDUCED, assumption 60) -/
def State.fwFields (s : State) (v : W64) : State :=
  if s.sec.upState = 0 then s.updSec (fun x => { x with upSlot := wBit v 2, upVersion := BitVec.ofNat 32 (wBits v 32 32) }) else s

/-- SEC_FWUP as written (R466): the op, then the fields. -/
def State.fwup (s : State) (v : W64) : State :=
  match wBits v 0 2 with
  | 1 => s.fwBegin (wBit v 2) (BitVec.ofNat 32 (wBits v 32 32))
  | 2 => s.fwFinish.fwFields v
  | 3 => s.fwCancel.fwFields v
  | _ => s.fwFields v

/-- FWUP_BEGIN (R453). -/
def execFwupBegin (fwSlot : Bool) (version : BitVec 32) (s : State) : Host.Outcome State Fault Refusal := .next (s.fwBegin fwSlot version)
/-- FWUP_FINISH (R453). -/
def execFwupFinish (s : State) : Host.Outcome State Fault Refusal := .next s.fwFinish
/-- FWUP_CANCEL (R453). -/
def execFwupCancel (s : State) : Host.Outcome State Fault Refusal := .next s.fwCancel

/-- R454: a keyed write raises min_svn, no further than the running firmware's svn. -/
def State.svnCommit (s : State) (v : W64) : State :=
  let n := wBits v 16 6
  if wBits v 0 16 = 0x5E3C ∧ s.sec.minSvn < n ∧ n ≤ s.sec.svn then s.updSec (fun x => { x with minSvn := n }) else s

/-- SVN_COMMIT (R454). -/
def execSvnCommit (v : W64) (s : State) : Host.Outcome State Fault Refusal := .next (s.svnCommit v)

/-! ### Measurements (R456, R457) -/

/-- The 48 bytes of six registers from an offset, as a digest: register Dk holds bytes 8k to 8k + 7. -/
def State.digestAt (s : State) (off : Nat) : BitVec 384 :=
  BitVec.ofNat 384 (((List.range 6).map (fun k => (s.reg (off + 8 * k)).toNat * 2 ^ (64 * k))).sum)

/-- A write of SEC_EXT_CTL: registers 9 to 11 only. -/
def State.measExtend (s : State) (k : Nat) : State := if 9 ≤ k ∧ k ≤ 11 then s.extend k (s.digestAt Reg.secExtD) else s

/-- MEASUREMENT_EXTEND (R456). -/
def execMeasurementExtend (k : Fin 16) (s : State) : Host.Outcome State Fault Refusal := .next (s.measExtend k)

/-- CTX_MEAS of a context. -/
def Sec.ctxMeasOf (x : Sec) (c : CtxId) : BitVec 384 := x.ctxMeas.getD c.val 0

/-- A write of CTX_EXT_CTL.go. -/
def State.ctxExtend (s : State) (c : CtxId) : State :=
  let d := s.digestAt (ctxBase c + Reg.ctxExtD)
  s.updSec (fun x => { x with
    ctxMeas := x.ctxMeas.set c.val (sha384 (digestBytes (x.ctxMeasOf c) ++ digestBytes d)) })

/-- CONTEXT_MEASUREMENT_EXTEND (R457). -/
def execContextMeasurementExtend (c : CtxId) (s : State) : Host.Outcome State Fault Refusal := .next (s.ctxExtend c)

/-! ### Attestation requests (R459) -/

/-- Set the state that the source of a request reads; a Moon that signs for a Planet shows none. -/
def Sec.setAtt (x : Sec) (src : AttSrc) (st : Nat) : Sec :=
  match src with
  | .pf => { x with attState := st }
  | .ctx c => { x with ctxAtt := x.ctxAtt.set c.val st }
  | .remote _ _ => x

/-- Queue a request, or refuse it BUSY with 16 waiting. (DEDUCED, assumption 60) -/
def State.attest (s : State) (q : AttReq) : State :=
  if 16 ≤ s.sec.attQ.length then
    match q.src with
    | .remote p tag => s.sendMgmtResp p tag 5 []
    | _ => s.updSec (fun x => x.setAtt q.src 5)
  else s.updSec (fun x => { x with attQ := x.attQ ++ [q] }.setAtt q.src 1)

/-- The four nonce words from an offset. -/
def State.nonceAt (s : State) (off : Nat) : List W64 := (List.range 4).map (fun k => s.reg (off + 8 * k))

/-- A request of the physical function for its own device's report; its nonce is sampled as signing starts (R460). -/
def State.attestPf (s : State) (mctx : CtxId) : State :=
  s.attest { src := .pf, kind := 1, mctx := mctx, nonce := [], addr := s.fld Reg.secAttAddr_addr }

/-- ATTESTATION_REQUEST (R459). -/
def execAttestationRequest (mctx : CtxId) (s : State) : Host.Outcome State Fault Refusal := .next (s.attestPf mctx)

/-- A request of a context. -/
def State.attestCtx (s : State) (c : CtxId) : State :=
  s.attest { src := .ctx c, kind := 2, mctx := c, nonce := [], addr := s.fld (Reg.ctxAttAddr_addr.at c) }

/-- CONTEXT_ATTESTATION_REQUEST (R459). -/
def execContextAttestationRequest (c : CtxId) (s : State) : Host.Outcome State Fault Refusal := .next (s.attestCtx c)

/-- The data of a MGMT_REQ for the report of device d: type 2, the device, the context whose CTX_MEAS is shown, the nonce. -/
def attestData (d : Nat) (mctx : CtxId) (nonce : List W64) : List Byte :=
  leBytes 8 (2 + d * 2 ^ 8 + mctx.val * 2 ^ 16) ++ nonce.flatMap (fun w => leBytes 8 w.toNat)

/-- R462: the Planet asks its neighbour toward device d for d's report. -/
def State.attestRemote (s : State) (d : Nat) (mctx : CtxId) : State :=
  if !s.isPlanet then s
  else
    match s.rootPort d with
    | none => s.updSec (fun x => { x with attState := 6 })
    | some p =>
      if !s.portUp p then s.updSec (fun x => { x with attState := 6 })
      else
        let s1 := s.updSec (fun x => { x with
          attState := 1, remote := x.remote ++ [(p, (s.port p).nextTag, s.fld Reg.secAttAddr_addr)] })
        s1.sendMgmt p (attestData d mctx (s.nonceAt Reg.secAttNonce))

/-- SEC_ATT_CTL with go = 1 (R466): this device's report, or a Moon's. -/
def State.attCtl (s : State) (v : W64) : State :=
  let c : CtxId := Fin.ofNat 16 (wBits v 1 4)
  if !wBit v 0 then s else if wBits v 5 8 = 0 then s.attestPf c else s.attestRemote (wBits v 5 8) c

/-- REMOTE_ATTESTATION_REQUEST (R462); dev = 0 names this device. -/
def execRemoteAttestationRequest (dev : BitVec 8) (mctx : CtxId) (s : State) : Host.Outcome State Fault Refusal :=
  .next (if dev = 0 then s.attestPf mctx else s.attestRemote dev.toNat mctx)

/-! ### Reports (R459, R460) -/

/-- A model record of a report, for a requesting context or for all. -/
def State.modelRecord (s : State) (who : Option CtxId) (i : Nat) : W64 :=
  let m := s.model i
  if !m.valid || !(who.elim true m.reaches) then 0
  else
    match m.activeSlot with
    | none => 0
    | some k =>
      let tol := (s.slotTsets m k).any (fun t => (s.tset t k).tolerant)
      BitVec.ofNat 64 (m.ver k % 2 ^ 32 + (k + 1) * 2 ^ 32 + b2n tol * 2 ^ 34)

/-- The 1,280 bytes of a report's body (R460). -/
def State.reportBody (s : State) (q : AttReq) : List Byte :=
  let who : Option CtxId := match q.src with | .ctx c => some c | _ => none
  let w := fun (x : W64) => leBytes 8 x.toNat
  leBytes 4 1 ++ leBytes 4 (q.kind + (who.map (·.val)).getD 0 * 2 ^ 8) ++ leBytes 8 0 ++
  (q.nonce.take 4).flatMap w ++ w s.fac.serial0 ++ w s.fac.serial1 ++ w s.devIdWord ++ w s.time.ns ++
  w s.sec.bootWord ++ w s.sec.fwWord ++ w s.sec.fuseWord ++ leBytes 8 (s.link.role + s.link.dev * 2 ^ 8) ++ leBytes 16 0 ++
  (s.sec.meas.take 12).flatMap digestBytes ++ digestBytes (s.sec.ctxMeasOf q.mctx) ++
  (List.range 64).flatMap (fun i => w (s.modelRecord who i)) ++ leBytes 16 0

/-- The 37,328 bytes of a signed report (R460). (DESIGN CHOICE, assumption 7) -/
def signedReport (body : List Byte) : List Byte :=
  body ++ (List.range 384).map (Config.rsaSigByte body) ++ (List.range 35664).map (Config.slhSigByte body)

/-- Whether stage 2 runs. -/
def Sec.stage2 (x : Sec) : Bool := decide (x.state = 2) || decide (x.state = 4)

/-- The request with its nonce as it is now: a neighbour's came in its message (R460, R462). -/
def State.nonced (s : State) (q : AttReq) : AttReq :=
  match q.src with
  | .pf => { q with nonce := s.nonceAt Reg.secAttNonce }
  | .ctx c => { q with nonce := s.nonceAt (ctxBase c + Reg.ctxAttNonce) }
  | .remote .. => q

/-- Stage 2 takes the oldest request and samples its values (R460). -/
def State.signStart (s : State) : State :=
  match s.sec.signing, s.sec.attQ with
  | none, q :: l =>
    if s.sec.stage2 then
      let body := s.reportBody (s.nonced q)
      s.updSec (fun x => { x with attQ := l, signing := some (q, body) }.setAtt q.src 2)
    else s
  | _, _ => s

/-- REPORT_SIGN_START (R460). -/
def execReportSignStart (s : State) : Host.Outcome State Fault Refusal := .next s.signStart

/-- R459: whether a report's destination is in order: 37,376 bytes, 64-byte aligned, in one writable object not homed in T2. -/
def State.reportPlace (s : State) (c : CtxId) (a : Nat) : Bool :=
  let v := s.hostView c
  decide (a % 64 = 0) && (s.writePlace v a).isSome &&
  (match s.reach v a, s.reach v (a + 37375) with
    | some r, some q => decide (r.1 = q.1) && decide (r.2.1.home ≠ 2) && decide (q.2.2 = r.2.2 + 37375)
    | _, _ => false)

/-- Write a report in a context's space; false: the write faulted. -/
def State.putReport (s : State) (c : CtxId) (a : Nat) (report : List Byte) : State × Bool :=
  if s.reportPlace c a then s.writeBytes (s.hostView c) (.tmv, 2 ^ 20 + 2) a (clean report) else (s, false)

/-- A report is written, and its request ends DONE or FAULT. -/
def State.deliver (s : State) (src : AttSrc) (c : CtxId) (a : Nat) (report : List Byte) : State :=
  let r := s.putReport c a report
  r.1.updSec (fun x => x.setAtt src (if r.2 then 3 else 4))

/-- Signing ends. -/
def State.signDone (s : State) : State :=
  match s.sec.signing with
  | none => s
  | some (q, body) =>
    let s1 := s.updSec (fun x => { x with signing := none })
    match q.src with
    | .pf => s1.deliver q.src 0 q.addr (signedReport body)
    | .ctx c => s1.deliver q.src c q.addr (signedReport body)
    | .remote p tag => s1.sendMgmtResp p tag 3 (signedReport body)

/-- REPORT_SIGN_DONE (R460); a report whose place meets a gated domain is written at its next turn (R25). -/
def execReportSignDone (s : State) : Host.Outcome State Fault Refusal := .next (s.tryOnce (·.signDone)).1

/-! ### Management messages (R362, R462) -/

/-- A word of a message's data. -/
def DataMsg.word (m : DataMsg) (i : Nat) : W64 := BitVec.ofNat 64 (leVal (((m.data.drop (8 * i)).take 8).map (·.1)))

/-- Copies of DEV_SYSCNT_OWN and DEV_SYSCNT_EN and the number of devices reach a Moon, which passes them down (R201, R362, R375). -/
def State.takeCopies (s : State) (own en : W64) (devs : Nat) : State :=
  let s0 := (s.setReg Reg.devSyscntOwn own).setReg Reg.devSyscntEn en
  let s1 := { s0 with link := { s0.link with sysDevs := devs } }
  s1.sendMgmtAll s1.ownCopies s1.downstream

/-- R462: a request for the report of device d: its own is queued, another's is passed on. (DESIGN CHOICE, assumption 57) -/
def State.attestMsg (s : State) (p : PortId) (tag d : Nat) (mctx : CtxId) (nonce : List W64) : State :=
  if d = s.link.dev then s.attest { src := .remote p tag, kind := 3, mctx := mctx, nonce := nonce, addr := 0 }
  else
    match s.routePort d with
    | none => s.sendMgmtResp p tag 6 []
    | some q =>
      if !s.portUp q then s.sendMgmtResp p tag 6 []
      else
        let s1 := { s with link := { s.link with relays := s.link.relays ++ [(p, tag, q, (s.port q).nextTag)] } }
        s1.sendMgmt q (attestData d mctx nonce)

/-- A MGMT_REQ, on a Moon from its upstream neighbour. (DESIGN CHOICE, assumption 57) -/
def State.mgmtReq (s : State) (p : PortId) (m : DataMsg) : State :=
  if !s.isMoon || decide (s.upstream ≠ some p) then s
  else if wBits (m.word 0) 0 8 = 1 then s.takeCopies (m.word 1) (m.word 2) (wBits (m.word 3) 0 9)
  else if wBits (m.word 0) 0 8 = 2 then
    s.attestMsg p m.tag (wBits (m.word 0) 8 8) (Fin.ofNat 16 (wBits (m.word 0) 16 4)) [m.word 1, m.word 2, m.word 3, m.word 4]
  else if wBits (m.word 0) 0 8 = 3 then
    let md := wBits (m.word 0) 8 6
    ((s.retireHere md).getD s).sendMgmtAll (retireOrder md) s.downstream
  else s

/-- Whether the management request that comes next on a port edits batch pointers: an order to retire a slot. -/
def State.mgmtEdits (s : State) (p : PortId) : Bool :=
  s.isMoon && ((s.port p).inMsgs.find? (fun m => decide (m.kind = 5))).any (fun m => decide (wBits (m.read.word 0) 0 8 = 3))

/-- MGMT_REQ (R362). -/
def execMgmtReq (p : PortId) (s : State) : Host.Outcome State Fault Refusal :=
  .next (if s.mgmtEdits p then s.underQuiet (·.onMsg p 5 (fun m s => s.mgmtReq p m)) else s.onMsg p 5 (fun m s => s.mgmtReq p m))

/-- The Planet's request is answered. (DESIGN CHOICE, assumption 57) -/
def State.remoteDone (s : State) (st addr : Nat) (report : List Byte) : State :=
  if st = 3 then s.deliver .pf 0 addr report else s.updSec (fun x => { x with attState := st })

/-- A MGMT_RESP: the Planet's own, or one to pass back (R462). -/
def State.mgmtResp (s : State) (p : PortId) (m : DataMsg) : State :=
  let st := wBits (m.word 0) 8 8
  let report := (m.data.drop 8).map (·.1)
  match s.sec.remote.find? (fun r => decide (r.1 = p) && decide (r.2.1 = m.tag)),
    s.link.relays.find? (fun r => decide (r.2.2.1 = p) && decide (r.2.2.2 = m.tag)) with
  | some r, _ => (s.updSec (fun x => { x with remote := x.remote.erase r })).remoteDone st r.2.2 report
  | none, some r => ({ s with link := { s.link with relays := s.link.relays.erase r } }).sendMgmtResp r.1 r.2.1 st report
  | none, none => s

/-- MGMT_RESP (R362). -/
def execMgmtResp (p : PortId) (s : State) : Host.Outcome State Fault Refusal :=
  .next (s.tryOnce (fun s => s.onMsg p 6 (fun m s => s.mgmtResp p m))).1

/-! ### Certificates (R458) -/

/-- Word i of a certificate; bytes past its length read 0. (DESIGN CHOICE, assumption 7) -/
def certWord (slh : Bool) (i : Nat) : W64 :=
  BitVec.ofNat 64 (leVal ((List.range 8).map (fun k =>
    if 8 * i + k < (Config.certLen slh).toNat then Config.certByte slh (8 * i + k) else 0)))

/-- A read of SEC_CERT_DATA (no context) or CTX_CERT_DATA: the selected word, and the index advances. -/
def State.certRead (s : State) (c : Option CtxId) : State :=
  let base := (c.map ctxBase).getD 0
  let w : Fld := (if c.isSome then Reg.ctxCertSel_word else Reg.secCertSel_word).plus base
  let k : Fld := (if c.isSome then Reg.ctxCertSel_cert else Reg.secCertSel_cert).plus base
  (s.setFld w (s.fld w + 1)).emit (.readVal ((if c.isSome then Reg.ctxCertData else Reg.secCertData) + base) (certWord (s.flag k) (s.fld w)))

/-- CERT_DATA_READ (R458): by the physical function, or by the function that holds the context. -/
def execCertDataRead (c : Option CtxId) (s : State) : Host.Outcome State Fault Refusal :=
  let fn : Fin 16 := c.elim 0 s.owner
  .next (s.actingRead fn ((c.map ctxBase).getD 0 + (if c.isSome then Reg.ctxCertData else Reg.secCertData)) c.isNone (.certData fn c)
    (fun s => s.certRead c))

end Sys2Proof.Machine
end

