-- ==== Sys2Proof/Machine/View.lean ====
section
/-! DEFINITION. What every register reads (R9): the stored word, with the read-only and structured fields computed from the state, for
the physical function and the management controller. -/

namespace Sys2Proof.Machine

open Sys2Proof

/-- A stored register with some of its fields replaced. -/
def State.show (s : State) (off : Nat) (fs : List (Fld × Nat)) : W64 :=
  fs.foldl (fun (w : W64) (p : Fld × Nat) => wSet w p.1.lo p.1.width p.2) (s.reg off)

/-- Word k of a digest: bytes 8k to 8k + 7. -/
def digestWord (d : BitVec 384) (k : Nat) : W64 := BitVec.ofNat 64 (d.toNat / 2 ^ (64 * k))

/-! ### DEV (R442, R211) -/

/-- DEV_CAP: the tiles and the T2 capacity that dies without calibration leave (R450). -/
def State.capWord (s : State) : W64 :=
  s.show Reg.devCap [(Reg.devCap_tiles, 1024 - 256 * popCount 4 (s.fac.calBad.toNat / 2 ^ 16)),
    (Reg.devCap_wstGib, 256 * (16 - popCount 16 s.fac.calBad.toNat))]

/-- R423: the link is below Gen3 ×2. -/
def Pcie.low (x : Pcie) : Bool := x.linkUp && (decide (x.gen < 3) || decide (x.width < 2))

/-- DEV_STATUS. -/
def State.statusWord (s : State) : W64 :=
  s.show Reg.devStatus [(Reg.devStatus_linkUp, b2n s.pcie.linkUp), (Reg.devStatus_linkLow, b2n s.pcie.low),
    (Reg.devStatus_speed, s.pcie.gen), (Reg.devStatus_width, s.pcie.width)]

/-- The contexts that belong to a virtual function, as a mask. -/
def State.vfMask (s : State) : Nat := ctxBits (allCtx.filter s.vfHolds)

/-- DEV_VF_MAP. -/
def State.vfMapWord (s : State) : W64 :=
  wordOf [(Reg.devVfMap_vfEn, b2n s.pcie.vfEn), (Reg.devVfMap_numVfs, s.pcie.numVfs), (Reg.devVfMap_vfCtx, s.vfMask),
    (Reg.devVfMap_handover, b2n (decide (s.pcie.handover ≠ 0)))]

/-- DEV_CTX_VIEW of the selected context. -/
def State.ctxViewWord (s : State) : W64 :=
  let c : CtxId := Fin.ofNat 16 (s.fld Reg.devCtxSel_ctx)
  let x := s.ctx c
  wordOf [(Reg.devCtxView_qEn, s.fld (Reg.ctxCtrl_qEn.at c)), (Reg.devCtxView_resetBusy, b2n x.resetBusy),
    (Reg.devCtxView_cbuf, x.cbuf.length), (Reg.devCtxView_exec, s.execCount c), (Reg.devCtxView_openReq, x.reqs.length),
    (Reg.devCtxView_exact, b2n x.exactActive)]

/-- The registers of the DEV block. -/
def State.readDev (s : State) (off : Nat) : W64 :=
  if off = Reg.devId then s.devIdWord
  else if off = Reg.devSerial then s.fac.serial0
  else if off = Reg.devSerial + 8 then s.fac.serial1
  else if off = Reg.devCap then s.capWord
  else if off = Reg.devStatus then s.statusWord
  else if off = Reg.devVfMap then s.vfMapWord
  else if off = Reg.devCtxView then s.ctxViewWord
  else if Reg.devSyscnt ≤ off then (SMap.get 0 s.sysCnt ((off - Reg.devSyscnt) / 8)).setWidth 64
  else s.reg off

/-! ### PWR and CLK (R419, R420) -/

/-- Whether a domain has power (R398, R402). -/
def State.domPowered (s : State) (d : Nat) : Bool :=
  match s.pwr.mode with
  | .run | .idle => decide (s.dom d ≠ .powerGated) && decide (s.dom d ≠ .waking false)
  | .doze => decide (108 ≤ d) && decide (s.dom d ≠ .powerGated) && decide (s.dom d ≠ .waking false)
  | _ => decide (122 ≤ d)

/-- The array columns that the MXE command in execution uses, its fill entries included: its contraction positions within a chunk; a
COMBINE forms no product (R119, R123). (DEDUCED, assumption 75) -/
def State.columnsUsed (s : State) : Option Nat :=
  let l := s.running.filter (fun x => decide (x.eng = .mxe))
  if l.isEmpty then none
  else some ((l.map (fun x => if Entry.opcode x.words = 1 then min 512 (Entry.mmK x.words) else 0)).foldl max 0)

/-- R123: whether an array domain of 16 columns is clock-gated because the command in execution does not use it. -/
def State.colGated (s : State) (d : Nat) : Bool := decide (d < 32) && s.columnsUsed.any (fun n => decide (n ≤ 16 * d))

/-- Whether a domain's clock runs: IDLE gates domains 0 to 107, a shut-down stops it in step 2 (R400, R402), and an MXE command stops the
array domains it does not use (R123). -/
def State.domRuns (s : State) (d : Nat) : Bool :=
  s.domPowered d && !(s.colGated d) && !(decide (s.pwr.mode = .idle) && decide (d < 108)) &&
  (match s.dom d with
    | .on => true
    | .shutting k => decide (k < 2)
    | _ => false)

/-- 64 domains from `lo` as a word of bits. -/
def domBits (f : Nat → Bool) (lo : Nat) : W64 := BitVec.ofNat 64 (((List.range 64).map (fun i => if f (lo + i) then 2 ^ i else 0)).sum)

/-- PWR_STATUS. -/
def State.pwrWord (s : State) : W64 :=
  s.show Reg.pwrStatus [(Reg.pwrStatus_state, s.pwr.code), (Reg.pwrStatus_pstate, 5 - s.pwr.aclk), (Reg.pwrStatus_busy, b2n s.pwr.busy),
    (Reg.pwrStatus_step, (s.pwr.entry.map (·.step)).getD 0), (Reg.pwrStatus_refused, s.pwr.refused), (Reg.pwrStatus_fail, s.pwr.fail),
    (Reg.pwrStatus_padHold, b2n s.pwr.padHold), (Reg.pwrStatus_vddOk, b2n s.pwr.vddOk)]

/-- The registers of the PWR block. (DESIGN CHOICE, assumption 62) -/
def State.readPwr (s : State) (off : Nat) : W64 :=
  if off = Reg.pwrStatus then s.pwrWord
  else if off = Reg.pwrTrip then
    s.show off [(Reg.pwrTrip_active, b2n s.pwr.tripActive), (Reg.pwrTrip_recorded, s.pwr.trips.length)]
  else if off = Reg.pwrDomOn then domBits s.domPowered 0
  else if off = Reg.pwrDomOn + 8 then domBits s.domPowered 64
  else s.reg off

/-- CLK_STATUS: the PLL is locked once the boot has come past the ROM and outside PARK; the oscillators are present, and the reference
clock as the pins show it (R483). (DESIGN CHOICE, assumption 62) -/
def State.clkWord (s : State) : W64 :=
  let booted := decide (s.sec.state ≠ 0) && s.up
  wordOf [(Reg.clkStatus_pllLock, b2n booted), (Reg.clkStatus_target, (s.pwr.ramp.map (·.target)).getD s.pwr.pstate),
    (Reg.clkStatus_glide, b2n (s.pwr.ramp.any (fun r => !r.waitVolt && !s.pwr.exiting && s.pwr.entry.isNone))),
    (Reg.clkStatus_xoOk, b2n booted), (Reg.clkStatus_rtcOk, b2n booted), (Reg.clkStatus_refOk, b2n s.pcie.refClk)]

/-- The registers of the CLK block. -/
def State.readClk (s : State) (off : Nat) : W64 :=
  if off = Reg.clkStatus then s.clkWord
  else if off = Reg.clkRun then domBits s.domRuns 0
  else if off = Reg.clkRun + 8 then domBits s.domRuns 64
  else s.reg off

/-! ### Engines (R99, R116, R150, R243) -/

/-- Whether a stream of a command in execution has not arrived whole. -/
def State.waitsFor (s : State) (x : Exec) (p : Arming → Bool) : Bool :=
  s.armings.any (fun a => decide (a.ctx = x.ctx) && decide (a.consumer = some (.mxe, x.slot)) && p a && !a.fetched)

/-- MXE_STATUS.stage, and whether the array waits for vectors, of the command in execution (R137, R142, R150): it is in the fill or the chunk
steps of the MATMUL at the array (R135), stalled where that one's other operands are loaded and its next vectors are not there; past its
own weights, in the outlier stage while its side tensor is on its way. A rejected command never leaves its first fill. The rest of the
work passes in one step of the model, and shows the last drain until the command completes. (DESIGN CHOICE, assumption 62) -/
def State.mxeStage (s : State) (x : Exec) : Nat × Bool :=
  if Entry.opcode x.words = 2 then (7, false)
  else if x.refusedWork then (1, false)
  else if x.result.isSome then (4, false)
  else
    match s.atArray with
    | some f =>
      let open? := s.armings.any (fun a => a.weightOf f && !(a.desc.cmp && a.blockIn) && !a.fetched)
      if f.fillOf = none then (if s.loaded f then (2, open?) else (1, false))
      else (if (f.words : Entry).mmTail then 6 else 5, s.loaded f && open?)
    | none => if !(s.loaded x) || (s.weightArming x).isNone then (1, false) else if s.waitsFor x (·.side) then (3, false) else (4, false)

/-- MXE_STATUS; after its steps a command shows its last pass and chunk. (DESIGN CHOICE, assumption 62) -/
def State.mxeWord (s : State) : W64 :=
  match s.running.find? (fun x => decide (x.eng = .mxe) && x.fillOf.isNone) with
  | none => 0
  | some x =>
    let e : Entry := x.words
    let g := s.mxeStage x
    let last := decide (g.1 = 3) || decide (g.1 = 4) || decide (g.1 = 6)
    wordOf [(Reg.mxeStatus_busy, 1), (Reg.mxeStatus_ctx, x.ctx.val), (Reg.mxeStatus_stage, g.1),
      (Reg.mxeStatus_pass, if last then ceilDiv e.mmN e.mmP - 1 else 0), (Reg.mxeStatus_chunk, if last then e.mmC - 1 else 0),
      (Reg.mxeStatus_stalled, b2n g.2)]

/-- The tile-set slot that CAF_TSET_IDX selects. -/
def State.selTset (s : State) : TsetSlot := s.tset (s.fld Reg.cafTsetIdx_idx) (s.fld Reg.cafTsetIdx_slot)

/-- CAF_TSET_DESC0. -/
def TsetSlot.desc0 (x : TsetSlot) : W64 :=
  wordOf [(Reg.cafTsetDesc0_state, x.state.code), (Reg.cafTsetDesc0_owner, x.owner.val), (Reg.cafTsetDesc0_wfmt, b2n x.int4),
    (Reg.cafTsetDesc0_tolerant, b2n x.tolerant), (Reg.cafTsetDesc0_firstTile, x.firstTile), (Reg.cafTsetDesc0_nRbM1, x.nRb - 1),
    (Reg.cafTsetDesc0_nCbM1, x.nCb - 1), (Reg.cafTsetDesc0_rowsLastM1, x.rowsLast - 1), (Reg.cafTsetDesc0_eW, unsigned 6 x.eW)]

/-- The tile sets with a command in execution, each in an execution slot (R91). -/
def State.cafBusy (s : State) : Nat :=
  ((s.running.filter (fun x => decide (x.eng = .caf))).map (fun x => s.cafTarget x.bind x.words)).dedup.length

/-- CAF_RUN. -/
def State.cafRunWord (s : State) : W64 :=
  let l := ((s.running.filter (fun x => decide (x.eng = .caf))).map (·.cafSlot)).dedup
  wordOf [(Reg.cafRun_busy, (l.map (2 ^ ·)).sum), (Reg.cafRun_nBusy, s.cafBusy)]

/-- The registers of the CAF block. active_slot reads 0 where the tile set's model has no ACTIVE slot or there is no model.
(DESIGN CHOICE, assumption 78) -/
def State.readCaf (s : State) (off : Nat) : W64 :=
  if off = Reg.cafTsetIdx then
    s.show off [(Reg.cafTsetIdx_activeSlot, (((s.tsetModel (s.fld Reg.cafTsetIdx_idx)).bind (fun m => m.2.activeSlot)).getD 0))]
  else if off = Reg.cafTsetDesc0 then s.selTset.desc0
  else if off = Reg.cafTsetDesc1 then BitVec.ofNat 64 s.selTset.hs
  else if off = Reg.cafRun then s.cafRunWord
  else if off = Reg.cafTileHealth then s.tileHealth (s.fld Reg.cafTileIdx_tile)
  else if off = Reg.cafTileStuck then s.tileStuck (s.fld Reg.cafTileIdx_tile)
  else if off = Reg.cafRemapEntry then s.remapEntry (s.fld Reg.cafTileIdx_tile) (s.fld Reg.cafTileIdx_remapIdx)
  else if off = Reg.cafTsetHealth then s.tsetHealth s.selTset
  else if off = Reg.cafTsetDev then s.tsetDev s.selTset
  else if off = Reg.cafHealthSum then s.healthSum
  else s.reg off

/-- The registers of the TMV block. (DESIGN CHOICE, assumption 62) -/
def State.readTmv (s : State) (off : Nat) : W64 :=
  if off = Reg.tmvInflight then
    let e := allCtx.find? (fun c => (s.ctx c).exactActive)
    wordOf [(Reg.tmvInflight_mxe, s.inFlight .mxe), (Reg.tmvInflight_caf, s.inFlight .caf), (Reg.tmvInflight_vec, s.inFlight .vec),
      (Reg.tmvInflight_tmv, s.inFlight .tmv), (Reg.tmvInflight_exactCtx, (e.map (·.val)).getD 0), (Reg.tmvInflight_exact, b2n e.isSome)]
  else if off = Reg.tmvBuf then
    wordOf [(Reg.tmvBuf_buffers, s.bufferedSlots.length), (Reg.tmvBuf_unbuffered, (s.armings.filter (·.unbuffered)).length)]
  else s.reg off

/-! ### MEM (R272, R327) -/

/-- The key in `quotas` of the context and tier that MEM_QUOTA_SEL selects. -/
def State.quotaKey (s : State) : Nat := 4 * s.fld Reg.memQuotaSel_ctx + s.fld Reg.memQuotaSel_tier

/-- MEM_USAGE of the selected context and tier; T3 has no quota. -/
def State.usageWord (s : State) : W64 :=
  let c : CtxId := Fin.ofNat 16 (s.fld Reg.memQuotaSel_ctx)
  let t := s.fld Reg.memQuotaSel_tier
  if t = 3 then 0
  else wordOf [(Reg.memUsage_used, s.usage c t), (Reg.memUsage_over, b2n (decide (s.quota c t < s.usage c t)))]

/-- MEM_MDL_STATE of a bank. -/
def State.mdlStateWord (s : State) (b : EditBank) : W64 :=
  let m := s.model b.mdlSel
  wordOf [(Reg.memMdlState_valid, b2n m.valid), (Reg.memMdlState_code, b.mdlCode),
    (Reg.memMdlState_active, (m.activeSlot.map (· + 1)).getD 0), (Reg.memMdlState_stateA, m.stA.code),
    (Reg.memMdlState_stateB, m.stB.code), (Reg.memMdlState_boundary, b2n m.boundary.isSome),
    (Reg.memMdlState_boundA, s.boundCount b.mdlSel 0), (Reg.memMdlState_boundB, s.boundCount b.mdlSel 1)]

/-- The registers of the MEM block, through a requester's bank. -/
def State.readMem (s : State) (b : EditBank) (off : Nat) : W64 :=
  if off = Reg.memQuiesce then wordOf [(Reg.memQuiesce_req, b2n b.req), (Reg.memQuiesce_done, b2n b.done)]
  else if off = Reg.memObjIdx then BitVec.ofNat 64 b.idx
  else if Reg.memObjW ≤ off ∧ off < Reg.memObjW + 32 then b.w.getD ((off - Reg.memObjW) / 8) 0
  else if off = Reg.memObjStatus then
    wordOf [(Reg.memObjStatus_code, b.code), (Reg.memObjStatus_freeEntries, 2 ^ 18 - (s.objs.filter (fun e => e.2.valid)).length)]
  else if off = Reg.memQuota then BitVec.ofNat 64 (SMap.get 0 s.quotas s.quotaKey)
  else if off = Reg.memUsage then s.usageWord
  else if off = Reg.memTierFree then
    wordOf [(Reg.memTierFree_t0Free, s.freePages 0), (Reg.memTierFree_t1Free, s.freePages 1 / 16)]
  else if off = Reg.memMigStat then
    s.show off [(Reg.memMigStat_inProgress, s.migBusy), (Reg.memMigStat_exactHold, b2n s.exactCtx.isSome)]
  else if off = Reg.memMdlSel then BitVec.ofNat 64 b.mdlSel
  else if Reg.memMdlW ≤ off ∧ off < Reg.memMdlW + 32 then b.mdlW.getD ((off - Reg.memMdlW) / 8) 0
  else if off = Reg.memMdlState then s.mdlStateWord b
  else if off = Reg.memMdlVer then
    wordOf [(Reg.memMdlVer_verA, (s.model b.mdlSel).verA), (Reg.memMdlVer_verB, (s.model b.mdlSel).verB)]
  else s.reg off

/-! ### FPC (R303, R326) -/

/-- FPC_STATUS as a requester sees it. -/
def State.fpcStatusWord (s : State) (mgc : Bool) : W64 :=
  let run := s.fpc.ops.filter (fun o => decide (o.phase ≠ .queued))
  s.show Reg.fpcStatus [(Reg.fpcStatus_outstanding, s.fpc.outstanding mgc), (Reg.fpcStatus_running, run.length),
    (Reg.fpcStatus_nextId, s.fpc.nextId),
    (Reg.fpcStatus_erasing, min 255 (run.filter (fun o => decide (o.op = 2) || decide (o.op = 5))).length)]

/-- FPC_RESULT as a requester sees it: its oldest result. -/
def Fpc.resultWord (x : Fpc) (mgc : Bool) : W64 :=
  match x.results mgc with
  | [] => 0
  | r :: _ => wordOf [(Reg.fpcResult_valid, 1), (Reg.fpcResult_id, r.id), (Reg.fpcResult_op, r.op), (Reg.fpcResult_code, r.code),
      (Reg.fpcResult_fail, b2n r.fail), (Reg.fpcResult_fails, min 65535 r.fails)]

/-- The code of an operation's place in FPC_OP_INFO.state. -/
def OpPhase.code : OpPhase → Nat
  | .queued => 1 | .running => 2 | .suspendedRead => 3 | .suspendedHost => 3 | .suspendedEntry => 3 | .resuming => 2 | .reporting => 2

/-- FPC_OP_INFO of the selected id. (DESIGN CHOICE, assumption 62) -/
def State.opInfoWord (s : State) : W64 :=
  let id := s.fld Reg.fpcOpSel_id
  match s.fpcOp id (fun _ => true) with
  | some o => wordOf [(Reg.fpcOpInfo_state, o.phase.code), (Reg.fpcOpInfo_pulses, o.pulses), (Reg.fpcOpInfo_starved, b2n o.starved),
      (Reg.fpcOpInfo_hold, b2n o.hold), (Reg.fpcOpInfo_suspends, min (2 ^ 32 - 1) o.suspends)]
  | none =>
    if (s.fpc.resHost ++ s.fpc.resMgc).any (fun r => decide (r.id = id)) then wordOf [(Reg.fpcOpInfo_state, 4)] else 0

/-- FPC_BLK_INFO0 of a block. -/
def State.blkWord (s : State) (b : Nat) : W64 :=
  let x := s.blk b
  wordOf [(Reg.fpcBlkInfo0_state, (s.blkState b).code), (Reg.fpcBlkInfo0_retirePending, b2n x.retire),
    (Reg.fpcBlkInfo0_disturbWarn, b2n x.warn), (Reg.fpcBlkInfo0_peOver, b2n x.peOver), (Reg.fpcBlkInfo0_ptr, x.ptr),
    (Reg.fpcBlkInfo0_live, x.live), (Reg.fpcBlkInfo0_pe, min 65535 x.pe), (Reg.fpcBlkInfo0_fails, min 255 x.fails)]

/-- FPC_SEC_INFO of a sector. -/
def State.secWord (s : State) (tile m : Nat) : W64 :=
  let x := s.sector tile m
  wordOf [(Reg.fpcSecInfo_state, (s.secState tile m).code), (Reg.fpcSecInfo_rows, x.rows), (Reg.fpcSecInfo_shift, x.shift),
    (Reg.fpcSecInfo_pe, min 65535 x.pe), (Reg.fpcSecInfo_peOver, b2n (decide (10000 < x.pe)))]

/-- The blocks whose entry differs from that of a block never used, and those an erase is launched on. -/
def State.knownBlks (s : State) : List Nat :=
  ((SMap.keys s.blks) ++ (s.fpc.ops.filter (fun o => decide (o.op = 2))).map FpcOp.block).dedup

/-- The pages of a user block that can take programs. -/
def State.blkFree (s : State) (b : Nat) : Nat :=
  if (s.blkState b = .erased ∨ s.blkState b = .opened) ∧ !(s.blk b).retire then 2048 - (s.blk b).ptr else 0

/-- FPC_WST_STAT. -/
def State.wstWord (s : State) : W64 :=
  let l := s.knownBlks
  let n := fun (l : List Nat) (st : BlkState) => (l.filter (fun b => decide (s.blkState b = st))).length
  let u := l.filter userBlock
  wordOf [(Reg.fpcWstStat_freePages, 2 ^ 28 - (u.map (fun b => 2048 - s.blkFree b)).sum), (Reg.fpcWstStat_bad, n u .bad),
    (Reg.fpcWstStat_undefined, min 255 (n l .undefined)), (Reg.fpcWstStat_incomplete, min 255 (n l .eraseIncomplete))]

/-- FPC_INST_STATUS. -/
def Inst.statusWord (x : Inst) : W64 :=
  wordOf [(Reg.fpcInstStatus_state, x.state), (Reg.fpcInstStatus_model, x.model), (Reg.fpcInstStatus_slot, x.slot),
    (Reg.fpcInstStatus_leader, b2n x.leader), (Reg.fpcInstStatus_refused, x.refused), (Reg.fpcInstStatus_shardsOk, x.shardsOk),
    (Reg.fpcInstStatus_rereq, min 65535 x.rereq)]

/-- FPC_INST_RESULT. -/
def Inst.resultWord (x : Inst) : W64 :=
  wordOf [(Reg.fpcInstResult_valid, b2n x.resValid), (Reg.fpcInstResult_status, x.resStatus.code), (Reg.fpcInstResult_dev, x.resDev),
    (Reg.fpcInstResult_detail, x.resDetail), (Reg.fpcInstResult_shard, x.resShard)]

/-- The registers of the FPC block, as a requester sees them. (DESIGN CHOICE, assumption 15) -/
def State.readFpc (s : State) (mgc : Bool) (off : Nat) : W64 :=
  let f := s.fpc
  if off = Reg.fpcCmd then BitVec.ofNat 64 (wBits f.cmd 0 10)
  else if off = Reg.fpcAddr then f.addr
  else if off = Reg.fpcLock then
    s.show off [(Reg.fpcLock_state, f.lock), (Reg.fpcLock_owner, b2n f.owner), (Reg.fpcLock_lockout, b2n f.lockout)]
  else if off = Reg.fpcStatus then s.fpcStatusWord mgc
  else if off = Reg.fpcResult then f.resultWord mgc
  else if off = Reg.fpcOpInfo then s.opInfoWord
  else if off = Reg.fpcBlkInfo0 then s.blkWord (wBits (s.reg Reg.fpcBlkSel) 11 18)
  else if off = Reg.fpcBlkInfo1 then BitVec.ofNat 64 (s.blk (wBits (s.reg Reg.fpcBlkSel) 11 18)).reads
  else if off = Reg.fpcSecInfo then s.secWord (s.fld Reg.fpcSecSel_tile) (s.fld Reg.fpcSecSel_sector)
  else if off = Reg.fpcWstStat then s.wstWord
  else if off = Reg.fpcDisturb then
    s.show off [(Reg.fpcDisturb_warnBlocks, min 65535 (s.blks.filter (fun e => e.2.warn)).length),
      (Reg.fpcDisturb_overBlocks, min 65535 (s.blks.filter (fun e => e.2.isOver)).length)]
  else if off = Reg.fpcStage then wordOf [(Reg.fpcStage_held, f.held.toNat), (Reg.fpcStage_verified, f.verified.toNat)]
  else if off = Reg.fpcCalData then s.calWord (s.fld Reg.fpcCalSel_die) (s.fld Reg.fpcCalSel_word)
  else if off = Reg.fpcInstStatus then s.inst.statusWord
  else if off = Reg.fpcInstResult then s.inst.resultWord
  else s.reg off

/-! ### LNK (R375) -/

/-- Whether the link at a device's port to a neighbour's port is a tree link of the map. -/
def State.treeLink (s : State) (d q n r : Nat) : Bool :=
  (decide ((s.topoEnt n).state ≠ 0) && decide ((s.topoEnt n).parent = d) && decide ((s.topoEnt n).parentPort = q)) ||
  (decide ((s.topoEnt d).parent = n) && decide ((s.topoEnt d).parentPort = r))

/-- The ports of a Moon that are standby links, as a mask. -/
def State.standbyMask (s : State) (d : Nat) : Nat :=
  let e := s.topoEnt d
  ((List.range 8).map (fun q =>
    if Nat.testBit e.active q && !(e.nbrs.any (fun b => decide (b.1 = q) && s.treeLink d q b.2.1 b.2.2)) then 2 ^ q else 0)).sum

/-- LNK_TOPO of the selected device; the Planet's own entry is device 0, active once a map is recorded (R371).
(DESIGN CHOICE, assumption 56) -/
def State.topoWord (s : State) : W64 :=
  let d := s.fld Reg.lnkTopoSel_dev
  let e := s.topoEnt d
  if !s.isPlanet then 0
  else if d = 0 then
    wordOf [(Reg.lnkTopo_state, b2n (s.link.formed || !s.link.topo.isEmpty)), (Reg.lnkTopo_active, s.activeMask),
      (Reg.lnkTopo_standby, (allPorts.map (fun p => if (s.port p).use = .standby then 2 ^ p.val else 0)).sum)]
  else if e.state = 0 then 0
  else wordOf [(Reg.lnkTopo_state, e.state), (Reg.lnkTopo_parent, e.parent), (Reg.lnkTopo_parentPort, e.parentPort),
    (Reg.lnkTopo_hops, e.hops), (Reg.lnkTopo_standby, s.standbyMask d), (Reg.lnkTopo_active, e.active)]

/-- LNK_SYS. -/
def State.sysWord (s : State) : W64 :=
  let l := s.link
  wordOf [(Reg.lnkSys_role, l.role), (Reg.lnkSys_roleFault, b2n l.roleFault), (Reg.lnkSys_formed, b2n l.formed), (Reg.lnkSys_dev, l.dev),
    (Reg.lnkSys_hops, l.hops), (Reg.lnkSys_upPort, l.upPort), (Reg.lnkSys_upValid, b2n l.upValid), (Reg.lnkSys_nDev, s.nDev)]

/-- The merged SYNC messages that wait to be sent upstream. (DESIGN CHOICE, assumption 62) -/
def State.syncPending (s : State) : Nat :=
  match s.upstream with
  | none => 0
  | some p => ((s.port p).txCtl.filter (fun m => decide (msgType m = 6))).length

/-- LNK_PORTp_STATUS. -/
def Port.statusWord (x : Port) : W64 :=
  wordOf [(Reg.lnkPortStatus_state, x.state.code), (Reg.lnkPortStatus_use, x.use.code), (Reg.lnkPortStatus_partner, x.partner),
    (Reg.lnkPortStatus_partnerPort, x.partnerPort), (Reg.lnkPortStatus_partnerRole, x.partnerRole), (Reg.lnkPortStatus_lanesOk, x.lanesOk),
    (Reg.lnkPortStatus_downCause, x.downCause)]

/-- One port's register at an offset in its 64 bytes. -/
def State.readPort (s : State) (p : PortId) (o off : Nat) : W64 :=
  let x := s.port p
  if o = 0x08 then x.statusWord
  else if o = 0x10 then wordOf [(Reg.lnkPortLat_latPs, min (2 ^ 20 - 1) x.latPs), (Reg.lnkPortLat_rttPs, min (2 ^ 20 - 1) x.rttPs)]
  else if o = 0x20 then wordOf [(Reg.lnkPortFlits_tx, x.txFlits.toNat), (Reg.lnkPortFlits_rx, x.rxFlits.toNat)]
  else s.reg off

/-- The registers of the LNK block. -/
def State.readLnk (s : State) (off : Nat) : W64 :=
  if off = Reg.lnkSys then s.sysWord
  else if off = Reg.lnkTopo then s.topoWord
  else if off = Reg.lnkSyncStat then
    s.show off [(Reg.lnkSyncStat_held, s.link.heldSig.length), (Reg.lnkSyncStat_pending, s.syncPending)]
  else if Reg.lnkPortCtl ≤ off then
    s.readPort (portNo ((off - Reg.lnkPortCtl) / 0x40)) ((off - Reg.lnkPortCtl) % 0x40) off
  else s.reg off

/-! ### SEC, TIME, TEL (R466, R376, R393, R421) -/

/-- The requests ahead of a source's queued one, the one that is being signed among them. (DEDUCED, assumption 60) -/
def Sec.ahead (x : Sec) (src : AttSrc) : Nat :=
  match x.attQ.findIdx? (fun q => decide (q.src = src)) with
  | some i => i + b2n x.signing.isSome
  | none => 0

/-- The registers of the SEC block. While stage 1 runs the watchdog counts, and the time left is free; until then it shows its reset value
(R455, R466). (DESIGN CHOICE, assumption 15) -/
def State.readSec (s : State) (off : Nat) : W64 :=
  let x := s.sec
  if off = Reg.secBoot then x.bootWord
  else if off = Reg.secFw then x.fwWord
  else if off = Reg.secFuse then x.fuseWord
  else if off = Reg.secFwup then
    wordOf [(Reg.secFwup_slot, b2n x.upSlot), (Reg.secFwup_state, x.upState), (Reg.secFwup_version, x.upVersion.toNat)]
  else if off = Reg.secWdog then
    s.show off [(Reg.secWdog_expiries, x.expiries),
      (Reg.secWdog_remainingMs, if x.state = 2 ∨ x.state = 4 then
        (Config.freeWord s.freeCtr).toNat % (s.fld Reg.secWdog_timeoutMs + 1) else s.fld Reg.secWdog_remainingMs)]
  else if Reg.secMeasD ≤ off ∧ off < Reg.secMeasD + 48 then
    digestWord (x.meas.getD (s.fld Reg.secMeasSel_reg) 0) ((off - Reg.secMeasD) / 8)
  else if off = Reg.secAttStat then wordOf [(Reg.secAttStat_state, x.attState), (Reg.secAttStat_ahead, x.ahead .pf)]
  else if off = Reg.secCertSel then s.show off [(Reg.secCertSel_len, (Config.certLen (s.flag Reg.secCertSel_cert)).toNat)]
  else if off = Reg.secCertData then certWord (s.flag Reg.secCertSel_cert) (s.fld Reg.secCertSel_word)
  else if off = Reg.secRecov then wordOf [(Reg.secRecov_result, x.recovResult)]
  else s.reg off

/-- The registers of the TIME block. -/
def State.readTime (s : State) (off : Nat) : W64 :=
  if off = Reg.timeNow then s.time.ns
  else if off = Reg.timeNowFrac then BitVec.ofNat 64 s.time.latched
  else if off = Reg.timeStatus then
    s.show off [(Reg.timeStatus_locked, b2n s.time.locked), (Reg.timeStatus_holdover, b2n s.time.holdover),
      (Reg.timeStatus_offsetPs, unsigned 32 s.time.offsetPs)]
  else s.reg off

/-- TEL_RAIL of the selected rail. -/
def State.railWord (s : State) : W64 :=
  let r : Rail := SMap.get {} s.pwr.rails (s.fld Reg.telRailSel_rail)
  wordOf [(Reg.telRail_mv, r.mv), (Reg.telRail_ma, r.ma), (Reg.telRail_mw, r.mw), (Reg.telRail_stale, b2n r.stale),
    (Reg.telRail_fault, b2n r.fault)]

/-- A sensor's reading, in °C. -/
def State.sensor (s : State) (i : Nat) : Int := signed 9 (SMap.get 0 s.pwr.sensors i)

/-- The lowest sensor that gave the highest reading of the last sample. -/
def State.hottest (s : State) : Nat :=
  (List.range 64).foldl (fun (m : Nat) i => if s.sensor m < s.sensor i then i else m) 0

/-- The registers of the TEL block. -/
def State.readTel (s : State) (off : Nat) : W64 :=
  if off = Reg.telLogStatus then wordOf [(Reg.telLogStatus_nextSeq, s.logNext.toNat), (Reg.telLogStatus_held, s.log.length)]
  else if off = Reg.telRail then s.railWord
  else if off = Reg.telPower then
    wordOf [(Reg.telPower_nowMw, s.pwr.mwSum), (Reg.telPower_avgMw, s.pwr.mwHist.sum / max 1 s.pwr.mwHist.length)]
  else if off = Reg.telTherm then
    wordOf [(Reg.telTherm_temp, SMap.get 0 s.pwr.sensors (s.fld Reg.telThermSel_sensor)),
      (Reg.telTherm_max, SMap.get 0 s.pwr.sensors s.hottest), (Reg.telTherm_maxSensor, s.hottest)]
  else s.reg off

/-! ### Context pages (R434) -/

/-- CTX_STATUS. -/
def State.ctxStatusWord (s : State) (c : CtxId) : W64 :=
  let x := s.ctx c
  let waits := (allEng.map (fun e => match (s.queue c e).dec with
    | .held _ false .run | .held _ false (.reject _) | .held _ false .abort | .held _ false .poisonTag => 2 ^ e.code.val
    | _ => 0)).sum
  wordOf [(Reg.ctxStatus_resetBusy, b2n x.resetBusy), (Reg.ctxStatus_ringFull, b2n (s.cqFull c)),
    (Reg.ctxStatus_cbufHold, b2n (!s.headroom c)), (Reg.ctxStatus_aborting, b2n (x.reqs.any (·.aborting))), (Reg.ctxStatus_qWait, waits),
    (Reg.ctxStatus_openReq, x.reqs.length), (Reg.ctxStatus_cbuf, x.cbuf.length)]

/-- A mask of the code-table slots that meet a test. -/
def tableMask (f : Nat → Bool) : Nat := ((List.range 8).map (fun t => if f t then 2 ^ t else 0)).sum

/-- The table slot on which the context's TMV head waits. -/
def State.loadWaits (s : State) (c : CtxId) (t : Nat) : Bool :=
  match (s.queue c .tmv).dec with
  | .loading w true none => decide (Entry.pos w 180 3 = t)
  | _ => false

/-- CTX_CMP_TABLES. -/
def State.tablesWord (s : State) (c : CtxId) : W64 :=
  wordOf [(Reg.ctxCmpTables_valid, tableMask (fun t => (s.table c t).isSome)), (Reg.ctxCmpTables_pinned, tableMask (s.pinned c)),
    (Reg.ctxCmpTables_loadWait, tableMask (s.loadWaits c))]

/-- CTX_TMV_SLOT of the selected engine and slot. -/
def State.tmvSlotWord (s : State) (c : CtxId) : W64 :=
  let e := (Engine.ofCode (s.fld (Reg.ctxTmvSel_eng.at c))).getD .mxe
  let k := s.fld (Reg.ctxTmvSel_slot.at c)
  let l := s.slotArms c e k
  let first : Option Arming := l.head?.map (·.2)
  wordOf [(Reg.ctxTmvSlot_nArm, l.length), (Reg.ctxTmvSlot_shadow, b2n (s.shadowed c e k)),
    (Reg.ctxTmvSlot_attached, b2n (first.any (·.consumer.isSome))), (Reg.ctxTmvSlot_unbuffered, b2n (first.any (·.unbuffered))),
    (Reg.ctxTmvSlot_ahead, s.ahead c e k), (Reg.ctxTmvSlot_pos, (first.map (·.pos)).getD 0)]

/-- CTX_MIG_USE. -/
def State.migUseWord (s : State) (c : CtxId) : W64 :=
  wordOf [(Reg.ctxMigUse_t0Used, s.usage c 0), (Reg.ctxMigUse_t1Used, s.usage c 1 / 16),
    (Reg.ctxMigUse_t0Over, b2n (decide (s.quota c 0 < s.usage c 0))), (Reg.ctxMigUse_t1Over, b2n (decide (s.quota c 1 < s.usage c 1)))]

/-- CTX_EXACT. -/
def State.exactWord (s : State) (c : CtxId) : W64 :=
  let x := s.ctx c
  wordOf [(Reg.ctxExact_req, b2n x.exactReq), (Reg.ctxExact_active, b2n x.exactActive), (Reg.ctxExact_refused, b2n x.exactRefused),
    (Reg.ctxExact_draining, b2n (x.exactReq != x.exactActive))]

/-- A check-value unit's registers at an offset in its 32 bytes. A read of RUN while an advance is in progress waits its turn behind it and
the accesses before it, and gives the value then; a read of CFG shows `busy` at once (R383). (DEDUCED, assumption 76) -/
def State.readCrc (s : State) (c : CtxId) (u : Fin 4) (o : Nat) : W64 :=
  let x := s.crcUnit c u
  if o = 0 then wordOf [(Reg.ctxCrcCfg_width, b2n x.w64), (Reg.ctxCrcCfg_lenM1, x.lenM1), (Reg.ctxCrcCfg_busy, b2n x.adv.isSome)]
  else if o = 8 then x.settled.run
  else 0

/-- The queue head register of an engine code. -/
def State.qHeadWord (s : State) (c : CtxId) (e : Engine) : W64 :=
  let q := s.queue c e
  wordOf [(Reg.ctxQHead_head, q.head), (Reg.ctxQHead_phase, b2n q.phase)]

/-- The registers of context c's page at an offset in it. -/
def State.readPage (s : State) (c : CtxId) (o : Nat) : W64 :=
  let x := s.ctx c
  let raw := ctxBase c + o
  if o = Reg.ctxStatus then s.ctxStatusWord c
  else if Reg.ctxQHead ≤ o ∧ o < Reg.ctxQHead + 32 then s.qHeadWord c ((Engine.ofCode ((o - Reg.ctxQHead) / 8)).getD .mxe)
  else if o = Reg.ctxCqTail then wordOf [(Reg.ctxCqTail_tail, x.cqTail), (Reg.ctxCqTail_lap, b2n x.cqLap)]
  else if o = Reg.ctxCmpTables then s.tablesWord c
  else if o = Reg.ctxTmvSlot then s.tmvSlotWord c
  else if o = Reg.ctxTmvRun then
    wordOf [(Reg.ctxTmvRun_exec, s.execCount c),
      (Reg.ctxTmvRun_copies, ((s.execsOf c .tmv).filter (fun y => decide (Entry.opcode y.words = 3))).length)]
  else if o = Reg.ctxMigStat then s.show raw [(Reg.ctxMigStat_outstanding, s.migCount c)]
  else if o = Reg.ctxMigUse then s.migUseWord c
  else if o = Reg.ctxExact then s.exactWord c
  else if o = Reg.ctxTailTail then wordOf [(Reg.ctxTailTail_tail, x.tailTail), (Reg.ctxTailTail_lap, b2n x.tailLap)]
  else if o = Reg.ctxTailStat then s.show raw [(Reg.ctxTailStat_buffered, x.tailBuf.length)]
  else if Reg.ctxCrcCfg ≤ o ∧ o < Reg.ctxCrcCfg + 128 then s.readCrc c (Fin.ofNat 4 ((o - Reg.ctxCrcCfg) / 32)) ((o - Reg.ctxCrcCfg) % 32)
  else if Reg.ctxSync ≤ o then (s.syncVal c ((o - Reg.ctxSync) / 8)).setWidth 64
  else if o = Reg.ctxAttStat then
    wordOf [(Reg.ctxAttStat_state, s.sec.ctxAtt.getD c.val 0), (Reg.ctxAttStat_ahead, s.sec.ahead (.ctx c))]
  else if Reg.ctxMeasD ≤ o ∧ o < Reg.ctxMeasD + 48 then digestWord (s.sec.ctxMeasOf c) ((o - Reg.ctxMeasD) / 8)
  else if o = Reg.ctxSecStat then BitVec.ofNat 64 (b2n (s.sec.seedSet.getLsbD c.val))
  else if o = Reg.ctxCertSel then s.show raw [(Reg.ctxCertSel_len, (Config.certLen (s.flag (Reg.ctxCertSel_cert.at c))).toNat)]
  else if o = Reg.ctxCertData then certWord (s.flag (Reg.ctxCertSel_cert.at c)) (s.fld (Reg.ctxCertSel_word.at c))
  else s.reg raw

/-! ### All registers -/

/-- A requester's edit bank; a virtual function reaches none, and reads as an empty one. -/
def State.bankOf (s : State) (who : Requester) : EditBank := (s.bank? who).getD {}

/-- The register at an offset of a device block. -/
def State.readBlock (s : State) (who : Requester) (off : Nat) : W64 :=
  match off / 0x100000 with
  | 0x0 => s.readDev off
  | 0x1 => s.readPwr off
  | 0x2 => s.readClk off
  | 0x3 => if off = Reg.mxeStatus then s.mxeWord else s.reg off
  | 0x4 => s.readCaf off
  | 0x6 => s.readTmv off
  | 0x7 => s.readMem (s.bankOf who) off
  | 0x8 => s.readFpc (decide (who = .mgc)) off
  | 0x9 => s.readLnk off
  | 0xA => s.readSec off
  | 0xB => s.readTime off
  | 0xC => s.readTel off
  | _ => 0

/-- What the register at an offset of BAR0 reads as for a requester (R9, R430): WO fields and reserved offsets read 0. -/
def State.readReg (s : State) (who : Requester) (off : Nat) : W64 :=
  match regRow? off with
  | none => 0
  | some r =>
    let v := if off < 0x1000000 then s.readBlock who off else s.readPage (Fin.ofNat 16 ((off - 0x1000000) / 0x10000)) (off % 0x10000)
    v &&& ~~~ (r.mask .wo)

end Sys2Proof.Machine
end

