-- ==== Sys2Proof/Machine/Host.lean ====
section
/-! DEFINITION. The host side (chapter 16): writes of registers and what each does, queue windows, the tensor aperture, function resets
and the handover of contexts, MSI-X, and the return of the PCI Express link. -/

namespace Sys2Proof.Machine

open Sys2Proof

/-! ### What an access may reach (R181, R428, R431, R441, R449) -/

/-- What a BAR0 offset of a requester names: a register at its offset in the physical function's BAR0, a word of an MSI-X table, or a word
of a pending-bit array. -/
inductive Target where
  | reg (off : Nat)
  | msix (fn : Fin 16) (word : Nat)
  | pba (fn : Fin 16) (word : Nat)
  deriving DecidableEq, Repr

/-- The word of a 2,048-byte MSI-X table at `base`, or of its pending-bit array of 128 bits, 4 KiB above (R430, R434). -/
def tableWord? (fn : Fin 16) (base off : Nat) : Option Target :=
  if base ≤ off ∧ off < base + 2048 then some (.msix fn ((off - base) / 8))
  else if base + 0x1000 ≤ off ∧ off < base + 0x1010 then some (.pba fn ((off - base - 0x1000) / 8))
  else none

/-- R449: in RECOVERY only the DEV_ and SEC_ blocks answer. -/
def State.blockOpen (s : State) (off : Nat) : Bool :=
  !s.inRecovery || decide (off / 0x100000 = 0) || decide (off / 0x100000 = 0xA)

/-- The physical function's view of BAR0 (R430): a page that a virtual function holds is not in it. -/
def State.pfTarget (s : State) (off : Nat) : Option Target :=
  if off < 0x1000000 then
    (if s.inRecovery then none else tableWord? 0 0xF00000 off).or (if (blockRow? off).isSome && s.blockOpen off then some (.reg off) else none)
  else
    let c : CtxId := Fin.ofNat 16 ((off - 0x1000000) / 0x10000)
    if off < 0x1100000 ∧ (pageRow? (off % 0x10000)).isSome ∧ !(s.vfHolds c) ∧ !s.inRecovery then some (.reg off) else none

/-- A virtual function's view: its context's page and its MSI-X table (R434). -/
def State.vfTarget (s : State) (n : Fin 16) (off : Nat) : Option Target :=
  if s.inRecovery || decide (0x10000 ≤ off) then none
  else (tableWord? n 0xE000 off).or (if (pageRow? off).isSome then some (.reg (ctxBase n + off)) else none)

/-- The management controller's register space: its MEM bank, the FPC and the PWR block (R33, R256). (DEDUCED, assumption 37) -/
def mgcTarget (off : Nat) : Option Target :=
  let mem := (decide (Reg.memQuiesce ≤ off) && decide (off ≤ Reg.memObjStatus)) || (decide (Reg.memMdlSel ≤ off) && decide (off ≤ Reg.memMdlState))
  let open_ := (decide (off / 0x100000 = 7) && mem) || (decide (off / 0x100000 = 8) && decide (off < Reg.fpcInstAddr)) ||
    decide (off / 0x100000 = 1)
  if (blockRow? off).isSome && open_ then some (.reg off) else none

/-- What an aligned 8-byte place of a requester's register space names; nothing for a reserved offset. -/
def State.target (s : State) (who : Requester) (off : Nat) : Option Target :=
  match who with
  | .mgc => mgcTarget off
  | .fn n => if n = 0 then s.pfTarget off else s.vfTarget n off

/-- What a read reaches: in a virtual function's page also the copies of DEV_ID and DEV_STATUS (R434, R442). -/
def State.readTarget (s : State) (fn : Fin 16) (off : Nat) : Option Target :=
  if fn ≠ 0 ∧ off = 0xD000 + Reg.devId then some (.reg Reg.devId)
  else if fn ≠ 0 ∧ off = 0xD000 + Reg.devStatus then some (.reg Reg.devStatus)
  else s.target (.fn fn) off

/-- Word i of a function's pending-bit array (R437). -/
def State.pbaWord (s : State) (fn : Fin 16) (i : Nat) : W64 :=
  BitVec.ofNat 64 (((List.range 64).map (fun k =>
    if SMap.get false s.pcie.pend (fn.val * 128 + 64 * i + k) then 2 ^ k else 0)).sum)

/-- The aligned word that a BAR0 read reaches. Before the device is ready only DEV_ID and DEV_STATUS are returned (R441). -/
def State.hostWord (s : State) (fn : Fin 16) (off : Nat) : W64 :=
  match s.readTarget fn off with
  | some (.reg raw) =>
    if s.flag Reg.devStatus_ready || decide (raw = Reg.devId) || decide (raw = Reg.devStatus) then s.readReg (.fn fn) raw else 0
  | some (.msix f i) => if s.flag Reg.devStatus_ready then s.msixWord f i else 0
  | some (.pba f i) => if s.flag Reg.devStatus_ready then s.pbaWord f i else 0
  | none => 0

/-- What a BAR0 read of `size` bytes returns (R431): the word, or its addressed half; 0 for another size or alignment. None where the
function's BARs are not decoded (R426). A read that acts is a command of its own. -/
def State.hostRead (s : State) (fn : Fin 16) (off size : Nat) : Option W64 :=
  if !s.up || s.pcie.d3.getLsbD fn.val || !(decide (fn = 0) || s.vfHolds fn) then none
  else if size = 8 ∧ off % 8 = 0 then some (s.hostWord fn off)
  else if size = 4 ∧ off % 4 = 0 then some (BitVec.ofNat 64 (wBits (s.hostWord fn (off / 8 * 8)) (off % 8 * 8) 32))
  else some 0

/-! ### The effect of a write of a whole register (R9) -/

/-- A register without effects of its own takes the value. -/
def State.plainWrite (s : State) (off : Nat) (v : W64) : State :=
  match regRow? off with
  | some r => s.setReg off (r.merge (s.reg off) v)
  | none => s

/-- The Planet's downstream Moons learn of a change of DEV_SYSCNT_OWN or DEV_SYSCNT_EN (R201). -/
def State.ownWrite (s : State) (off : Nat) (v : W64) : State :=
  if s.isMoon then s
  else
    let s1 := s.plainWrite off v
    if s1.isPlanet then s1.sendMgmtAll s1.ownCopies s1.downstream else s1

/-- DEV_CTX_CTL (R442). -/
def State.ctxCtl (s : State) (v : W64) : State :=
  let c : CtxId := Fin.ofNat 16 (wBits v 0 4)
  match wBits v 4 2 with
  | 1 => s.setQEn c 0
  | 2 => s.ctxReset c
  | _ => s

/-- Writes of the DEV block. (DEDUCED, assumption 37) -/
def State.writeDev (s : State) (off : Nat) (v : W64) : State :=
  if off = Reg.devReset then s.devResetWrite v s.straps
  else if off = Reg.devCtxCtl then s.ctxCtl v
  else if off = Reg.devSyscntOwn ∨ off = Reg.devSyscntEn then s.ownWrite off v
  else if Reg.devSyscnt ≤ off then s.sysWrite ((off - Reg.devSyscnt) / 8) v
  else s.plainWrite off v

/-- Writes of the PWR block. -/
def State.writePwr (s : State) (off : Nat) (v : W64) : State :=
  if off = Reg.pwrStateCmd then s.stateCmd v
  else if off = Reg.pwrDomCtl then s.domCmd v
  else if off = Reg.pwrPadHoldRelease then s.padRelease v
  else s.plainWrite off v

/-- A write of MEM_QUIESCE (R254). -/
def State.quiesceWrite (s : State) (who : Requester) (v : W64) : State :=
  s.withBank who (fun b => s.setBank who
    (if wBit v 0 then { b with req := true, done := b.done || decide (s.migBusy = 0) } else { b with req := false, done := false }))

/-- A write of MEM_OBJ_OP (R272). -/
def State.objOp (s : State) (who : Requester) (v : W64) : State :=
  match wBits v 0 3 with
  | 1 => s.objRead who
  | 2 => s.create who
  | 3 => s.delete who
  | 4 => s.setShare who
  | 5 => s.setState who
  | _ => s

/-- A write of MEM_MDL_OP (R327). -/
def State.mdlOp (s : State) (who : Requester) (v : W64) : State :=
  match wBits v 0 2 with
  | 1 => s.mdlRead who
  | 2 => s.define who
  | 3 => s.undefine who
  | _ => s

/-- A write of MEM_QUOTA: of the selected context and tier; T3 has none (R268, R272). (DEDUCED, assumption 34) -/
def State.quotaWrite (s : State) (v : W64) : State :=
  if s.fld Reg.memQuotaSel_tier = 3 then s else { s with quotas := SMap.put 0 s.quotas s.quotaKey (wBits v 0 32) }

/-- The bits of MEM_MDL_W0 to MEM_MDL_W3 that are not reserved (R327). -/
def mdlWidths : List Nat := [44, 46, 59, 40]

/-- Writes of the MEM block, through the requester's bank. -/
def State.writeMem (s : State) (who : Requester) (off : Nat) (v : W64) : State :=
  if off = Reg.memQuiesce then s.quiesceWrite who v
  else if off = Reg.memObjIdx then s.withBank who (fun b => s.setBank who { b with idx := wBits v 0 18 })
  else if Reg.memObjW ≤ off ∧ off < Reg.memObjW + 32 then
    s.withBank who (fun b => s.setBank who { b with w := b.w.set ((off - Reg.memObjW) / 8) v })
  else if off = Reg.memObjOp then s.objOp who v
  else if off = Reg.memQuota then s.quotaWrite v
  else if off = Reg.memMdlSel then s.withBank who (fun b => s.setBank who { b with mdlSel := wBits v 0 6 })
  else if Reg.memMdlW ≤ off ∧ off < Reg.memMdlW + 32 then
    let i := (off - Reg.memMdlW) / 8
    s.withBank who (fun b => s.setBank who { b with mdlW := b.mdlW.set i (BitVec.ofNat 64 (wBits v 0 (mdlWidths.getD i 0))) })
  else if off = Reg.memMdlOp then s.mdlOp who v
  else s.plainWrite off v

/-- FPC_ERASE_CTL (R286, R287). -/
def State.eraseCtl (s : State) (v : W64) : State :=
  match wBits v 8 2 with
  | 1 => s.ctlSuspend (wBits v 0 8)
  | 2 => s.ctlResume (wBits v 0 8)
  | 3 => s.ctlHold (wBits v 0 8)
  | _ => s

/-- Writes of the FPC block. -/
def State.writeFpc (s : State) (who : Requester) (off : Nat) (v : W64) : State :=
  if off = Reg.fpcKey then s.fpcKey who v
  else if off = Reg.fpcCmd then s.fpcCmd who v
  else if off = Reg.fpcAddr then s.fpcAddr who v
  else if off = Reg.fpcData then s.fpcData who v
  else if off = Reg.fpcResult then (if wBit v 63 then s.popResult who else s)
  else if off = Reg.fpcEraseCtl then s.eraseCtl v
  else if off = Reg.fpcInstCmd then s.instCmd (wBits v 0 3) v
  else s.plainWrite off v

/-- A write of LNK_PORTp_CTL (R363, R375): disabling takes the port OFF, enabling trains it, `down` takes it DOWN with cause 5, `comet`
sends the Comet pattern. -/
def State.portCtl (s : State) (p : PortId) (off : Nat) (v : W64) : State :=
  let s1 := (s.plainWrite off v).wakeDom (108 + p.val)
  let s2 :=
    if !wBit v 0 then (if (s1.port p).state = .off then s1 else s1.tear p .off)
    else if (s1.port p).state = .off ∧ (s1.isPlanet || s1.isMoon) then s1.updPort p (fun x => { x with state := .detect })
    else s1
  let s3 := if wBit v 1 then s2.portDown p 5 else s2
  if wBit v 2 then s3.sendComet p else s3

/-- Writes of the LNK block. -/
def State.writeLnk (s : State) (off : Nat) (v : W64) : State :=
  if Reg.lnkPortCtl ≤ off ∧ (off - Reg.lnkPortCtl) % 0x40 = 0 then s.portCtl (portNo ((off - Reg.lnkPortCtl) / 0x40)) off v
  else s.plainWrite off v

/-- A write of SEC_WDOG: a timeout outside 100 to 60,000 ms is ignored (R466). (DEDUCED, assumption 35) -/
def State.wdogWrite (s : State) (v : W64) : State :=
  let t := wBits v 0 16
  let s1 := s.updSec (fun x => { x with expiries := wBits v 16 16 })
  if 100 ≤ t ∧ t ≤ 60000 then s1.setFld Reg.secWdog_timeoutMs t else s1

/-- Writes of the SEC block. -/
def State.writeSec (s : State) (off : Nat) (v : W64) : State :=
  if off = Reg.secSvnCommit then s.svnCommit v
  else if off = Reg.secFwup then s.fwup v
  else if off = Reg.secWdog then s.wdogWrite v
  else if off = Reg.secExtCtl then s.measExtend (wBits v 0 4)
  else if off = Reg.secAttCtl then s.attCtl v
  else if off = Reg.secRecov then (if wBit v 0 then s.recovery else s)
  else s.plainWrite off v

/-- Writes of the TIME block: a Moon ignores TIME_SET, TIME_ADJ and TIME_TRIM (R376), and while the pads are held a write of
TIME_OUT_CFG takes effect at the release (R412). (DEDUCED, assumption 37) -/
def State.writeTime (s : State) (off : Nat) (v : W64) : State :=
  if off = Reg.timeSet then s.timeSetTo v
  else if off = Reg.timeAdj then s.timeAdjBy v
  else if off = Reg.timeTrim then (if s.isMoon then s else s.plainWrite off v)
  else if off = Reg.timeOutCfg ∧ s.pwr.padHold then
    s.updPwr (fun x => { x with padPending := x.padPending ++ [(off, ((regRow? off).elim 0 (fun r => r.merge (s.reg off) v)))] })
  else s.plainWrite off v

/-- A write of a device-block register. -/
def State.writeBlock (s : State) (who : Requester) (off : Nat) (v : W64) : State :=
  match off / 0x100000 with
  | 0x0 => s.writeDev off v
  | 0x1 => s.writePwr off v
  | 0x4 => if off = Reg.cafPairRetire then s.markPair v else s.plainWrite off v
  | 0x7 => s.writeMem who off v
  | 0x8 => s.writeFpc who off v
  | 0x9 => s.writeLnk off v
  | 0xA => s.writeSec off v
  | 0xB => s.writeTime off v
  | 0xC => if off = Reg.telLogSel then s.logSelect v else s.plainWrite off v
  | _ => s.plainWrite off v

/-! ### Context pages -/

/-- A write of CTX_CTRL: q_en, then the reset (R184, R206). (DEDUCED, assumption 35) -/
def State.ctrlWrite (s : State) (c : CtxId) (v : W64) : State :=
  let s1 := s.setQEn c (wBits v 4 4)
  if wBit v 0 then s1.ctxReset c else s1

/-- A write of CTX_ABORT (R205). -/
def State.abortWrite (s : State) (c : CtxId) (v : W64) : State :=
  if wBit v 48 then s.abortReqs c ((s.ctx c).reqs.map (·.num)) else s.abortReqs c [wBits v 0 48]

/-- A write of CTX_CQ_CFG or CTX_TAIL_CFG: a size outside its range is ignored (R210, R347). (DEDUCED, assumption 35) -/
def State.sizeWrite (s : State) (c : CtxId) (o hi : Nat) (v : W64) : State :=
  let f : Fld := ⟨ctxBase c + o, 0, 5⟩
  let old := s.fld f
  let s1 := s.plainWrite (ctxBase c + o) v
  if 6 ≤ wBits v 0 5 ∧ wBits v 0 5 ≤ hi then s1 else s1.setFld f old

/-- A write of CTX_CQ_IRQ: a count of 0 is taken as 1, and with en = 0 the pending count returns to 0 (R198, R210). -/
def State.irqWrite (s : State) (c : CtxId) (v : W64) : State :=
  let s1 := s.plainWrite (ctxBase c + Reg.ctxCqIrq) v
  let s2 := if wBits v 24 8 = 0 then s1.setFld (Reg.ctxCqIrq_cnt.at c) 1 else s1
  if wBit v 16 then s2 else s2.updCtx c (fun x => { x with irqPending := 0 })

/-- A write of CTX_MIG_REQ (R260): promote, evict or write back; op 3 is none of them, and its request ends ILLEGAL_COMMAND. -/
def State.migWrite (s : State) (c : CtxId) (v : W64) : State := s.migRequest c (wBits v 0 2) v

/-- A write of a keyseed word; it reads as 0 (R465, R467). (DESIGN CHOICE, assumption 64) -/
def State.seedWrite (s : State) (c : CtxId) (off : Nat) (v : W64) : State :=
  (s.setReg off v).updSec (fun x => { x with seedSet := x.seedSet ||| BitVec.ofNat 16 (2 ^ c.val) })

/-- A write of context c's page at an offset in it. (DEDUCED, assumption 3) -/
def State.writePage (s : State) (c : CtxId) (o : Nat) (v : W64) : State :=
  let raw := ctxBase c + o
  if o = Reg.ctxCtrl then s.ctrlWrite c v
  else if o = Reg.ctxAbort then s.abortWrite c v
  else if o = Reg.ctxCqCfg then s.sizeWrite c o 16 v
  else if o = Reg.ctxCqHead then s.cqHead c v
  else if o = Reg.ctxCqIrq then s.irqWrite c v
  else if o = Reg.ctxSyncAdd then s.scnAdd c (wBits v 0 8) (wBits v 32 32)
  else if o = Reg.ctxMigReq then s.migWrite c v
  else if o = Reg.ctxExact then (if wBit v 0 then s.exactEnter c else s.exactExit c)
  else if o = Reg.ctxTailCfg then s.sizeWrite c o 20 v
  else if o = Reg.ctxTailHead then s.tailHead c v
  else if Reg.ctxCrcCfg ≤ o ∧ o < Reg.ctxCrcCfg + 128 then
    s.crcWrite c (Fin.ofNat 4 ((o - Reg.ctxCrcCfg) / 32)) ((o - Reg.ctxCrcCfg) % 32 / 8) v
  else if o = Reg.ctxAptCfg then (if c = 0 then s.plainWrite raw v else s)
  else if o = Reg.ctxAttReq then (if wBit v 0 then s.attestCtx c else s)
  else if o = Reg.ctxExtCtl then (if wBit v 0 then s.ctxExtend c else s)
  else if Reg.ctxSecKeyseed ≤ o ∧ o < Reg.ctxSecKeyseed + 32 then s.seedWrite c raw v
  else if Reg.ctxSync ≤ o then s.setSync c ((o - Reg.ctxSync) / 8) (v.setWidth 32)
  else s.plainWrite raw v

/-- The fault of a page write that the spec calls undefined (R212, R245, R348). -/
def State.pageFault (s : State) (c : CtxId) (o : Nat) (v : W64) : Option Fault :=
  if o = Reg.ctxCtrl then (if s.qEnUndefined c (wBits v 4 4) then some .undefinedUnderSave else none)
  else if o = Reg.ctxCqBase ∨ o = Reg.ctxCqCfg then (if (s.ctx c).cbuf.isEmpty then none else some .undefinedRingMove)
  else if o = Reg.ctxTailBase then (if (s.ctx c).tailBuf.isEmpty then none else some .undefinedRingMove)
  else if o = Reg.ctxTailCfg then
    (if (s.ctx c).tailBuf.isEmpty || decide (wBits v 0 5 = s.fld (Reg.ctxTailCfg_log2Size.at c)) then none else some .undefinedRingMove)
  else none

/-! ### MSI-X (R437) -/

/-- Send a vector's pending message if nothing holds it now. -/
def State.sendPending (s : State) (fn : Fin 16) (v : Nat) : State :=
  if SMap.get false s.pcie.pend (fn.val * 128 + v) then
    ({ s with pcie := { s.pcie with pend := SMap.put false s.pcie.pend (fn.val * 128 + v) false } }).sendMsix fn v
  else s

/-- Every vector of a function. -/
def State.sendAllPending (s : State) (fn : Fin 16) : State := (List.range 128).foldl (fun (s : State) v => s.sendPending fn v) s

/-- Write an MSI-X table word; a vector that this unmasks sends its pending message. -/
def State.msixWrite (s : State) (fn : Fin 16) (i : Nat) (v : W64) : State :=
  let dflt : W64 := if i % 2 = 1 then 0x100000000 else 0
  ({ s with pcie := { s.pcie with msix := SMap.put dflt s.pcie.msix (msixKey fn i) v } }).sendPending fn (i / 2)

/-- MSIX_UNMASK (R437): a vector's mask bit is cleared, or with no vector the Function Mask. -/
def State.unmask (s : State) (fn : Fin 16) (vec : Option (Fin 128)) : State :=
  match vec with
  | some v => s.msixWrite fn (2 * v.val + 1) (wSet (s.msixWord fn (2 * v.val + 1)) 32 1 0)
  | none => ({ s with pcie := { s.pcie with held := s.pcie.held &&& ~~~ (BitVec.ofNat 16 (2 ^ fn.val)) } }).sendAllPending fn

/-- MSIX_UNMASK (R437). (PRESUMED, assumption 41) -/
def execMsixUnmask (fn : Fin 16) (vec : Option (Fin 128)) (s : State) : Host.Outcome State Fault Refusal := .next (s.unmask fn vec)

/-! ### Register writes (R9, R431) -/

/-- One half of a word replaced. (DEDUCED, assumption 36) -/
def halfWord (old v : W64) (high : Bool) : W64 := if high then wSet old 32 32 (wBits v 0 32) else wSet old 0 32 (wBits v 0 32)

/-- The 64-bit value that an access of 8 or 4 bytes writes to a register: a 4-byte one updates the addressed half, where the register
has no WO field and the half has a field that a write sets; the other half's W1C fields stay. -/
def State.regValue (s : State) (who : Requester) (off size : Nat) (v : W64) : Option W64 :=
  if size = 8 ∧ off % 8 = 0 then some v
  else if size = 4 ∧ off % 4 = 0 then
    (regRow? (off / 8 * 8)).bind (fun r =>
      let high := decide (off % 8 = 4)
      let writes := r.mask .rw ||| r.mask .w1c
      if r.has .wo || decide (wBits writes (if high then 32 else 0) 32 = 0) then none
      else some (halfWord (s.readReg who (off / 8 * 8) &&& r.mask .rw) v high))
  else none

/-- The MSI-X table takes 8-byte and 4-byte writes. -/
def State.msixValue (s : State) (fn : Fin 16) (i off size : Nat) (v : W64) : Option W64 :=
  if size = 8 ∧ off % 8 = 0 then some v
  else if size = 4 ∧ off % 4 = 0 then some (halfWord (s.msixWord fn i) v (decide (off % 8 = 4)))
  else none

/-- Whether a page offset belongs to a context. -/
def pageCtx (off : Nat) : Option (CtxId × Nat) :=
  if 0x1000000 ≤ off ∧ off < 0x1100000 then some (Fin.ofNat 16 ((off - 0x1000000) / 0x10000), off % 0x10000) else none

/-- A whole write of a register, at its offset in the physical function's BAR0. -/
def State.regWrite (s : State) (who : Requester) (off : Nat) (v : W64) : Host.Outcome State Fault Refusal :=
  match pageCtx off with
  | some (c, o) =>
    match s.pageFault c o v with
    | some f => .fault f
    | none => .next (s.writePage c o v)
  | none => .next (s.writeBlock who off v)

/-- R388: a poisoned request counts its words, with an entry of source 6, code 2. (DEDUCED, assumption 36) -/
def State.notePoisonIn (s : State) (c : Option CtxId) (words loc bar : Nat) : State :=
  (s.addFld Reg.telPoisonIn_pcie words).logEvent 6 2 c loc bar

/-- The context a function's own accesses concern. -/
def fnCtx (n : Fin 16) : Option CtxId := if n = 0 then none else some n

/-- An access by its requester: the value merged, then the register written; a reserved or misaligned one is ignored.
(DESIGN CHOICE, assumption 4) -/
def State.access (s : State) (who : Requester) (off size : Nat) (v : W64) : Host.Outcome State Fault Refusal :=
  match s.target who (off / 8 * 8) with
  | some (.reg raw) =>
    match s.regValue who (raw + off % 8) size v with
    | some w => s.regWrite who raw w
    | none => .next s
  | some (.msix fn i) =>
    match s.msixValue fn i off size v with
    | some w => .next (s.msixWrite fn i w)
    | none => .next s
  | some (.pba ..) | none => .next s

/-- A host write in IDLE or DOZE is a wake event whatever it did (R408). (DESIGN CHOICE, assumption 4) -/
def wakeAfter (r : Host.Outcome State Fault Refusal) : Host.Outcome State Fault Refusal :=
  match r with
  | .next s => .next s.hostWakes
  | r => r

/-- A function's register write takes effect. -/
def State.regLand (s : State) (n : Fin 16) (off size : Nat) (v : W64) (ep : Bool) : Host.Outcome State Fault Refusal :=
  if s.barsOpen n then
    let s1 := if ep then s.notePoisonIn (fnCtx n) 1 off 0 else s
    wakeAfter (s1.access (.fn n) off size v)
  else .next s

/-- REGISTER_WRITE (R9): `ep` says that a function's request is poisoned (R388). Behind accesses of its function that wait it waits too
(R432). -/
def execRegisterWrite (who : Requester) (off size : Nat) (v : W64) (ep : Bool) (s : State) : Host.Outcome State Fault Refusal :=
  match who with
  | .mgc => s.access .mgc off size v
  | .fn n => if s.barsOpen n && s.hostBehind n then .next (s.putOff (.reg n off size v ep)) else s.regLand n off size v ep

/-! ### Queue windows (R182 to R185, R433) -/

/-- The context and engine of the window at an offset of a function's BAR2, if the function reaches it. -/
def State.window? (s : State) (fn : Fin 16) (off : Nat) : Option (CtxId × Engine) :=
  let w := off / 0x40000
  (Engine.ofCode (w % 4)).bind (fun e =>
    if fn = 0 then
      let c : CtxId := Fin.ofNat 16 (w / 4)
      if w < 64 ∧ !(s.vfHolds c) then some (c, e) else none
    else if w < 4 then some (fn, e) else none)

/-- The phase that slot i of a queue is expected to carry: past the ring's end it is inverted (R183). (DESIGN CHOICE, assumption 61) -/
def Queue.expects (q : Queue) (i : Nat) : Bool := if q.head ≤ i then q.phase else !q.phase

/-- The slots whose word 7 a write of `n` bytes from window offset `o` covers with its phase byte. -/
def slotsClosed (o n : Nat) : List Nat :=
  (List.range (n / 64 + 2)).map (o / 64 + ·) |>.filter (fun i => decide (o ≤ 64 * i + 56) && decide (64 * i + 56 < o + n))

/-- Whether a write made an entry valid: the phase that its slot expects now stands in word 7 (R21, R184). (DESIGN CHOICE, assumption 61) -/
def State.madeValid (s : State) (c : CtxId) (e : Engine) (o n : Nat) : Bool :=
  (slotsClosed o n).any (fun i => decide ((SMap.get (0 : Byte) s.mem (kQueue c e i 56)).getLsbD 0 = (s.queue c e).expects i))

/-- A write into a live queue window: the bytes are stored, poisoned where the request is; an entry that becomes valid in an entry sequence
ends it (R406). (DESIGN CHOICE, assumption 4; DEDUCED, assumption 36; DESIGN CHOICE, assumption 61) -/
def State.queueWrite (s : State) (c : CtxId) (e : Engine) (o : Nat) (data : List Byte) (ep : Bool) : State :=
  let s0 := if ep then
    s.notePoisonIn (some c) (wordsTouched o data.length) ((4 * c.val + e.code.val) * 4096 + o / 64) 2 else s
  let s1 := s0.store (kQueue c e 0 o) (data.map (fun b => (b, ep)))
  let s2 := if s1.madeValid c e o data.length then s1.entryEvent 5 0 none else s1
  s2.hostWakes

/-- One write request through BAR2 takes effect. A request does not cross a 4 KiB boundary. -/
def State.queueLand (s : State) (fn : Fin 16) (off : Nat) (data : List Byte) (ep : Bool) : State :=
  if s.barsOpen fn && !s.inRecovery && decide (off % 4096 + data.length ≤ 4096) then
    match s.window? fn off with
    | some (c, e) => if (s.ctx c).resetBusy then s else s.queueWrite c e (off % 0x40000) data ep
    | none => s
  else s

/-- QUEUE_ENTRY_WRITE (R184): behind accesses of its function that wait it waits too (R432). -/
def execQueueEntryWrite (fn : Fin 16) (off : Nat) (data : List Byte) (ep : Bool) (s : State) : Host.Outcome State Fault Refusal :=
  .next (if s.barsOpen fn && s.hostBehind fn then s.putOff (.queue fn off data ep) else s.queueLand fn off data ep)

/-- What a read of `n` bytes through BAR2 returns (R433): the slots' stored contents with their poison marks; zeros where the window is not
live, and while it answers as a reserved offset (R431, R441, R449). -/
def State.queueRead (s : State) (fn : Fin 16) (off n : Nat) : List SB :=
  match (if s.barsOpen fn && !s.inRecovery then s.window? fn off else none) with
  | some (c, e) => (List.range n).map (fun i => s.peek (kQueue c e 0 (off % 0x40000 + i)))
  | none => List.replicate n (0, false)

/-! ### The tensor aperture (R435, R436) -/

/-- The context a function's BAR4 reaches; the physical function's must be its own. (DEDUCED, assumption 38) -/
def State.aptCtx (s : State) (fn : Fin 16) : CtxId × Bool :=
  if fn = 0 then
    let c : CtxId := Fin.ofNat 16 (s.fld (Reg.ctxAptCfg_ctx.at 0))
    (c, !(s.vfHolds c))
  else (fn, true)

/-- The tensor address of an offset of BAR4. (DEDUCED, assumption 38) -/
def State.aptAddr (s : State) (c : CtxId) (off : Nat) : Nat := s.fld (Reg.ctxAptBase_addr.at c) * 2 ^ 30 + off

/-- Whether an access lies in a function's BAR4 and in one 4 KiB page, as a request of the standard does. -/
def aptInBar (fn : Fin 16) (off n : Nat) : Bool :=
  decide (off + n ≤ (if fn = 0 then 2 ^ 36 else 2 ^ 32)) && decide (0 < n) && decide (off % 4096 + n ≤ 4096)

/-- The bytes of a read completion: poisoned ones are returned as 0xFF (R388). -/
def eplData (l : List SB) : List Byte := l.map (fun b => if b.2 then 0xFF else b.1)

/-- A read at tensor address a of context c is answered, faults, or meets a gated domain or bytes of a peer that have not come.
(DEDUCED, assumption 38) -/
def State.aptReadLand (s : State) (c : CtxId) (ok : Bool) (a n : Nat) : State × Bool :=
  let v := s.hostView c
  if !ok || decide (2 ^ 52 < a + n) || !(s.canRead v a n) then ((s.aptFault c).emit .completerAbort, true)
  else if s.lostFor c .tmv aptSlot && s.readsHost v a n then (((s.dropLost c .tmv aptSlot).aptFault c).emit .completerAbort, true)
  else
    s.tryPeers c .tmv aptSlot (fun s =>
      let l := delivered (s.readBytes v a n)
      (s.noteRead v a n).emit (.apertureData (eplData l) (anyPoison l)))

/-- An access that waited is tried: whether it is done is the second part. A register write that the spec calls undefined when its turn
comes stays, and what comes behind it (R212, R245, R348). (DESIGN CHOICE, assumption 90) -/
def State.hostLand (s : State) (x : HostAcc) : State × Bool :=
  match x with
  | .write w => s.aptLand w
  | .read _ c ok a n => s.aptReadLand c ok a n
  | .queue fn off data ep => (s.queueLand fn off data ep, true)
  | .reg fn off size v ep =>
    match s.regLand fn off size v ep with
    | .next t => (t, true)
    | _ => (s, false)
  | .timeNow => (s.timeNowRead, true)
  | .calData => (s.calRead, true)
  | .certData _ c => (s.certRead c, true)

/-- The accesses that wait go on, in order, up to the first that still waits (R25, R432). -/
def State.hostGoOn (s : State) : Nat → State
  | 0 => s
  | fuel + 1 =>
    match s.aptWait with
    | [] => s
    | x :: l =>
      let r := ({ s with aptWait := l }).hostLand x
      if r.2 then r.1.hostGoOn fuel else { r.1 with aptWait := x :: r.1.aptWait }

/-- The accesses that wait are tried again. -/
def State.hostDrain (s : State) : State := s.hostGoOn s.aptWait.length

/-- APERTURE_READ (R436): a read of n bytes through BAR4, at the address that CTX_APT_BASE gives as it arrives. In RECOVERY offsets below
64 MiB read the recovery buffer (R449); a read that reaches nothing returns zeros (R431, R441). -/
def execApertureRead (fn : Fin 16) (off n : Nat) (s : State) : Host.Outcome State Fault Refusal :=
  .next (if !(aptInBar fn off n) then s
    else if !(s.barsOpen fn) then
      (if s.up && !(s.flag Reg.devStatus_ready) then s.emit (.apertureData (List.replicate n 0) false) else s)
    else if s.inRecovery then
      if off + n ≤ 0x4000000 then
        let l := (List.range n).map (fun i => s.peek (kRecov (off + i)))
        (s.noteRecov off n).emit (.apertureData (eplData l) (anyPoison l))
      else s.emit (.apertureData (List.replicate n 0) false)
    else (s.putOff (.read fn (s.aptCtx fn).1 (s.aptCtx fn).2 (s.aptAddr (s.aptCtx fn).1 off) n)).hostDrain)

/-- A write by a function at tensor address a of context c, behind those that wait: discarded and counted where it faults.
(DEDUCED, assumption 36; DEDUCED, assumption 38) -/
def State.aptWrite (s0 : State) (fn : Fin 16) (c : CtxId) (ok : Bool) (a : Nat) (data : List Byte) (ep : Bool) : State :=
  let s := if ep then s0.notePoisonIn (some c) (wordsTouched a data.length) a 4 else s0
  if !ok || decide (2 ^ 52 < a + data.length) then s.aptFault c
  else (s.putOff (.write { ctx := c, addr := a, data := data.map (fun b => (b, ep)), fn := fn })).hostDrain

/-- APERTURE_WRITE (R436): a write through BAR4. -/
def execApertureWrite (fn : Fin 16) (off : Nat) (data : List Byte) (ep : Bool) (s : State) : Host.Outcome State Fault Refusal :=
  .next (if !(s.barsOpen fn) || !(aptInBar fn off data.length) then s
    else if s.inRecovery then
      let s1 := if ep then s.notePoisonIn none (wordsTouched off data.length) off 4 else s
      if off + data.length ≤ 0x4000000 then s1.store (kRecov off) (data.map (fun b => (b, ep))) else s1
    else (s.aptWrite fn (s.aptCtx fn).1 (s.aptCtx fn).2 (s.aptAddr (s.aptCtx fn).1 off) data ep).hostWakes)

/-! ### Function resets and handover (R428, R439, R440) -/

/-- VF_FLR (R440). -/
def execVfFlr (n : Fin 16) (s : State) : Host.Outcome State Fault Refusal := .next (if n = 0 then s else s.vfReset n)

/-- The function-level reset of the physical function: VF Enable is cleared, and every context and function is reset. (DEDUCED, assumption 40) -/
def State.pfReset (s : State) : State :=
  let s1 := allCtx.foldl (fun (s : State) c => s.ctxFlr c) s.vfClear
  let s2 := allCtx.foldl (fun (s : State) n => s.fnReset n) s1
  { s2 with pcie := { s2.pcie with numVfs := 0 } }

/-- PF_FLR (R439). -/
def execPfFlr (s : State) : Host.Outcome State Fault Refusal := .next s.pfReset

/-- VF Enable changes from 0 to 1 with NumVFs: the contexts that pass are reset first, and their functions reach them once that is done.
(DEDUCED, assumption 40) -/
def State.vfSet (s : State) (num : Nat) : State :=
  if s.pcie.vfEn then s
  else
    let s1 := allCtx.foldl (fun (s : State) c => if 1 ≤ c.val ∧ c.val ≤ num then s.ctxReset c else s) s
    let busy := allCtx.filter (fun c => decide (1 ≤ c.val) && decide (c.val ≤ num) && (s1.ctx c).resetBusy)
    { s1 with pcie := { s1.pcie with vfEn := true, numVfs := num, handover := BitVec.ofNat 16 (ctxBits busy) } }

/-- VF_ENABLE_SET (R428). -/
def execVfEnableSet (num : Fin 16) (s : State) : Host.Outcome State Fault Refusal := .next (s.vfSet num)

/-- VF_ENABLE_CLEAR (R428). -/
def execVfEnableClear (s : State) : Host.Outcome State Fault Refusal := .next s.vfClear

/-! ### The PCI Express link returns; completion timeouts (R388, R438) -/

/-- What waited for the link is written: completion records, Tail entries. -/
def State.flushAll (s : State) : List CtxId → State
  | [] => s
  | c :: l =>
    let s1 := (s.cqFlush c ((s.ctx c).cbuf.length)).resetGoOn c
    (s1.tailFlush c ((s1.ctx c).tailBuf.length)).flushAll l

/-- Host memory can be reached again: results, records, Tail entries and messages that wait go (R399, R437, R438). -/
def State.hostReturns (s : State) : State :=
  let s1 := ({ s with migWait := [] }.migPostAll s.migWait).flushAll allCtx
  allCtx.foldl (fun (s : State) n => s.sendAllPending n) s1

/-- The link returns to DL_Active at a rate (1 to 4: Gen1 to Gen4) and width; a gated endpoint wakes first (R399).
(DESIGN CHOICE, assumption 42) -/
def State.pcieUp (s : State) (gen width : Nat) : State :=
  if s.up && !s.pwr.perst && !s.pcie.linkUp then
    if s.gated epDom then ({ s with pcie := { s.pcie with refClk := true } }).wakeDom epDom
    else ({ s with pcie := { s.pcie with linkUp := true, refClk := true, gen := gen, width := width } }).hostReturns
  else s

/-- PCIE_LINK_UP (R438). -/
def execPcieLinkUp (gen width : Nat) (s : State) : Host.Outcome State Fault Refusal := .next (s.pcieUp gen width)

/-- A stream's read of host memory fails from byte `off` of its oldest tile that reads host memory (R231). (DESIGN CHOICE, assumption 42) -/
def State.hostReadLost (s : State) (c : CtxId) (e : Engine) (slot off : Nat) : State :=
  match s.armings.find? (fun a => a.at c e slot && a.flight.any (fun f => f.host && f.fault.isNone)) with
  | none => s
  | some a =>
    match a.flight.find? (fun f => f.host && f.fault.isNone) with
    | none => s
    | some f =>
      let r : PeerReq := { port := 0, tag := 0, ctx := c, eng := e, slot := slot, stream := true, dev := 0, peerCtx := 0, addr := 0,
                           len := 0, write := false, tile := f.tile, off := off }
      s.failStream r .tierFault 0

/-- A migration operation's read of host memory fails (R269). -/
def State.hostMigLost (s : State) (c : CtxId) (id : Nat) : State :=
  s.failMigs (fun m o => decide (m.ctx = c) && decide (m.id = id) && m.readsHost o)

/-- The first slot number by which PCIE_COMPLETION_TIMEOUT names a command and not a stream. (DESIGN CHOICE, assumption 42) -/
def cmdReads : Nat := 2 ^ 16

/-- A read of host memory fails that is no transfer in flight: those of the command in execution at an engine slot, else the next read of
the requester of that number, such as a command that is handed over, a TABLE_LOAD, the installer, an aperture read or a peer's READ.
(DESIGN CHOICE, assumption 42) -/
def State.hostCmdLost (s : State) (c : CtxId) (e : Engine) (slot : Nat) : State :=
  if s.running.any (fun x => decide (x.ctx = c) && decide (x.eng = e) && decide (x.slot = slot)) then
    s.updExec c e slot (fun y => { y with hostLost := true })
  else { s with pcie := { s.pcie with lostReads := (c, e, slot) :: s.pcie.lostReads } }

/-- PCIE_COMPLETION_TIMEOUT (R388): of a stream slot's read, from byte `off` of its tile, of the requester `slot - cmdReads`, or of
migration request `mig`. -/
def execPcieCompletionTimeout (c : CtxId) (e : Engine) (slot off : Nat) (mig : Option (BitVec 8)) (s : State) :
    Host.Outcome State Fault Refusal :=
  .next (match mig with
    | some id => s.hostMigLost c id.toNat
    | none =>
      if slot < cmdReads then s.hostReadLost c e slot off
      else s.hostCmdLost c e (slot - cmdReads))

/-! ### Configuration space (R425 to R427, R437) -/

/-- A configuration write of a function's power state: D3hot, or back to D0, where messages that were held go (R425, R426). No row of the
command table carries it. (DESIGN CHOICE, assumption 91) -/
def State.setD3 (s : State) (fn : Fin 16) (d3 : Bool) : State :=
  let bit := BitVec.ofNat 16 (2 ^ fn.val)
  let s1 := { s with pcie := { s.pcie with d3 := if d3 then s.pcie.d3 ||| bit else s.pcie.d3 &&& ~~~ bit } }
  if d3 then s1 else s1.sendAllPending fn

/-- A configuration write that sets a function's Function Mask or clears its MSI-X Enable: its messages are held (R437). What ends it is
MSIX_UNMASK. (DESIGN CHOICE, assumption 91) -/
def State.holdMsix (s : State) (fn : Fin 16) : State :=
  { s with pcie := { s.pcie with held := s.pcie.held ||| BitVec.ofNat 16 (2 ^ fn.val) } }

/-- R427: Vendor ID and Device ID of a function's configuration space. -/
def configId (fn : Fin 16) : Nat := (Config.vendorIndex.val + 1) + (if fn = 0 then 0x0920 else 0x0921) * 2 ^ 16

/-- R427: the class code of every function. -/
def classCode : Nat := 0x120000

/-- R427: TotalVFs, InitialVFs, First VF Offset and VF Stride of the SR-IOV capability. -/
def sriovCap : Nat × Nat × Nat × Nat := (15, 15, 1, 1)

/-- R427: the routing ID of a function, from that of the physical function. -/
def routingId (pf : Nat) (fn : Fin 16) : Nat := pf + fn.val

/-- R463: the routing ID that reads and writes of host memory for context c carry. It is seen on the bus only. (DESIGN CHOICE, assumption 102) -/
def State.hostRouting (s : State) (pf : Nat) (c : CtxId) : Nat := routingId pf (s.owner c)

/-! ### Domains that become ready; the clock -/

/-- The Tail entries that met a gated domain are tried again. -/
def State.tailsGoOn (s : State) : List CtxId → State
  | [] => s
  | c :: l => (s.tailFlush c ((s.ctx c).tailBuf.length)).tailsGoOn l

/-- What waited for a domain goes on: what a port has queued, what is bound for host memory, Tail entries, repair reports, host
accesses (R25, R401). -/
def State.domGoesOn (s : State) (d : Nat) : State :=
  let s1 := if 108 ≤ d ∧ d < 116 then s.pump (portNo (d - 108)) else s
  let s2 := if d = epDom ∧ s1.pcie.linkUp then s1.hostReturns else s1
  ((s2.tailsGoOn allCtx).reportsGoOn s2.fpc.ops).hostDrain

/-- A domain that wakes becomes ready: an NST bank whose power was off reads as poisoned, and what waits goes on (R399, R401). -/
def State.domReady (s : State) (d : Nat) : State :=
  match s.dom d with
  | .waking clean =>
    let s1 := s.setDom d .on
    (if !clean && decide (48 ≤ d) && decide (d < 80) then s1.poisonBank (d - 48) else s1).domGoesOn d
  | _ => s

/-- DOMAIN_WAKE_READY (R401). -/
def execDomainWakeReady (d : BitVec 7) (s : State) : Host.Outcome State Fault Refusal := .next (s.domReady d.toNat)

/-- One CLK_CTL cycle: what the block does while no command is waiting (a DESIGN CHOICE, notes/assumptions). (DESIGN CHOICE, assumption 2) -/
def State.tick (s : State) : State :=
  let s1 := (s.timeTick.ppsFall.rtcTick).updPwr (fun x => { x with wakeSeen := none })
  ((SMap.keys s1.pwr.doms).foldl (fun (s : State) d => s.shutStep d) s1).hostDrain.recordPtrs.nullFlits allPorts

end Sys2Proof.Machine
end

