-- ==== Sys2Proof/Machine/Dispatch.lean ====
section
/-! DEFINITION. One arm per command: a direct call of its meaning. -/

namespace Sys2Proof.Machine

def exec (i : Instr) (s : State) : Host.Outcome State Fault Refusal :=
  match i with
  | .queueEntryWrite fn off data ep => Sys2Proof.Machine.execQueueEntryWrite fn off data ep s
  | .registerWrite who off size v ep => Sys2Proof.Machine.execRegisterWrite who off size v ep s
  | .apertureRead fn off n => Sys2Proof.Machine.execApertureRead fn off n s
  | .apertureWrite fn off data ep => Sys2Proof.Machine.execApertureWrite fn off data ep s
  | .linkDown => Sys2Proof.Machine.execLinkDown s
  | .hotReset straps => Sys2Proof.Machine.execHotReset straps s
  | .perstNAssert straps => Sys2Proof.Machine.execPerstNAssert straps s
  | .perstNDeassert => Sys2Proof.Machine.execPerstNDeassert s
  | .devReset v straps => Sys2Proof.Machine.execDevReset v straps s
  | .watchdogExpiry straps => Sys2Proof.Machine.execWatchdogExpiry straps s
  | .bootOkTimer => Sys2Proof.Machine.execBootOkTimer s
  | .vfFlr n => Sys2Proof.Machine.execVfFlr n s
  | .pfFlr => Sys2Proof.Machine.execPfFlr s
  | .vfEnableSet num => Sys2Proof.Machine.execVfEnableSet num s
  | .vfEnableClear => Sys2Proof.Machine.execVfEnableClear s
  | .msixUnmask fn vec => Sys2Proof.Machine.execMsixUnmask fn vec s
  | .queueEntryDecode c e => Sys2Proof.Machine.execQueueEntryDecode c e s
  | .commandHandover e => Sys2Proof.Machine.execCommandHandover e s
  | .commandComplete c e => Sys2Proof.Machine.execCommandComplete c e s
  | .msixTimerExpiry c => Sys2Proof.Machine.execMsixTimerExpiry c s
  | .cqHeadWrite c v => Sys2Proof.Machine.execCqHeadWrite c v s
  | .queueEnableWrite c v => Sys2Proof.Machine.execQueueEnableWrite c v s
  | .contextReset c => Sys2Proof.Machine.execContextReset c s
  | .devCtxQueueDisable c => Sys2Proof.Machine.execDevCtxQueueDisable c s
  | .devCtxReset c => Sys2Proof.Machine.execDevCtxReset c s
  | .abortRequest c req => Sys2Proof.Machine.execAbortRequest c req s
  | .abortAll c => Sys2Proof.Machine.execAbortAll c s
  | .syncAdd c v => Sys2Proof.Machine.execSyncAdd c v s
  | .syncCounterWrite c n v => Sys2Proof.Machine.execSyncCounterWrite c n v s
  | .systemCounterWrite n v => Sys2Proof.Machine.execSystemCounterWrite n v s
  | .quant c slot => Sys2Proof.Machine.execQuant c slot s
  | .func c slot => Sys2Proof.Machine.execFunc c slot s
  | .scaleFind c slot => Sys2Proof.Machine.execScaleFind c slot s
  | .norm c slot => Sys2Proof.Machine.execNorm c slot s
  | .softmax c slot => Sys2Proof.Machine.execSoftmax c slot s
  | .rescale c slot => Sys2Proof.Machine.execRescale c slot s
  | .outlier c slot => Sys2Proof.Machine.execOutlier c slot s
  | .random c slot => Sys2Proof.Machine.execRandom c slot s
  | .add c slot => Sys2Proof.Machine.execAdd c slot s
  | .matvec c slot faults => Sys2Proof.Machine.execMatvec c slot faults s
  | .scrub c slot weak => Sys2Proof.Machine.execScrub c slot weak s
  | .matmul c slot => Sys2Proof.Machine.execMatmul c slot s
  | .operandStallEpisode cycles => Sys2Proof.Machine.execOperandStallEpisode cycles s
  | .combine c slot => Sys2Proof.Machine.execCombine c slot s
  | .blockDecode c slot => Sys2Proof.Machine.execBlockDecode c slot s
  | .arm c slot => Sys2Proof.Machine.execArm c slot s
  | .disarm c slot => Sys2Proof.Machine.execDisarm c slot s
  | .copy c slot => Sys2Proof.Machine.execCopy c slot s
  | .slotTable c slot => Sys2Proof.Machine.execSlotTable c slot s
  | .ctxSave c slot => Sys2Proof.Machine.execCtxSave c slot s
  | .ctxRestore c slot => Sys2Proof.Machine.execCtxRestore c slot s
  | .compress c slot => Sys2Proof.Machine.execCompress c slot s
  | .tableLoad c => Sys2Proof.Machine.execTableLoad c s
  | .tableLoadUnpinned c => Sys2Proof.Machine.execTableLoadUnpinned c s
  | .transferGrant e waits => Sys2Proof.Machine.execTransferGrant e waits s
  | .transferRetire c e slot => Sys2Proof.Machine.execTransferRetire c e slot s
  | .tileDeadlineExpiry c e slot => Sys2Proof.Machine.execTileDeadlineExpiry c e slot s
  | .dramRefresh hits => Sys2Proof.Machine.execDramRefresh hits s
  | .promote c v => Sys2Proof.Machine.execPromote c v s
  | .evict c v => Sys2Proof.Machine.execEvict c v s
  | .writeback c v => Sys2Proof.Machine.execWriteback c v s
  | .migrationOpStart => Sys2Proof.Machine.execMigrationOpStart s
  | .migrationOpEnd c id => Sys2Proof.Machine.execMigrationOpEnd c id s
  | .migrationDeadline c id => Sys2Proof.Machine.execMigrationDeadline c id s
  | .quiesceRequest who => Sys2Proof.Machine.execQuiesceRequest who s
  | .quiesceDone => Sys2Proof.Machine.execQuiesceDone s
  | .quiesceRelease who => Sys2Proof.Machine.execQuiesceRelease who s
  | .objRead who => Sys2Proof.Machine.execObjRead who s
  | .create who => Sys2Proof.Machine.execCreate who s
  | .delete who => Sys2Proof.Machine.execDelete who s
  | .setShare who => Sys2Proof.Machine.execSetShare who s
  | .setState who => Sys2Proof.Machine.execSetState who s
  | .mdlRead who => Sys2Proof.Machine.execMdlRead who s
  | .define who => Sys2Proof.Machine.execDefine who s
  | .undefine who => Sys2Proof.Machine.execUndefine who s
  | .crcConfigWrite c u v => Sys2Proof.Machine.execCrcConfigWrite c u v s
  | .crcFeed c u v => Sys2Proof.Machine.execCrcFeed c u v s
  | .crcAdvance c u v => Sys2Proof.Machine.execCrcAdvance c u v s
  | .crcAdvanceDone c u => Sys2Proof.Machine.execCrcAdvanceDone c u s
  | .exactEnter c => Sys2Proof.Machine.execExactEnter c s
  | .exactActivate c => Sys2Proof.Machine.execExactActivate c s
  | .exactExit c => Sys2Proof.Machine.execExactExit c s
  | .exactDeactivate c => Sys2Proof.Machine.execExactDeactivate c s
  | .tailHeadWrite c v => Sys2Proof.Machine.execTailHeadWrite c v s
  | .fpcKeyWrite who v => Sys2Proof.Machine.execFpcKeyWrite who v s
  | .fpcCmdWrite who v => Sys2Proof.Machine.execFpcCmdWrite who v s
  | .fpcAddrWrite who v => Sys2Proof.Machine.execFpcAddrWrite who v s
  | .fpcSequenceTimeout => Sys2Proof.Machine.execFpcSequenceTimeout s
  | .fpcLockoutExpiry => Sys2Proof.Machine.execFpcLockoutExpiry s
  | .progPages who v => Sys2Proof.Machine.execProgPages who v s
  | .eraseBlock who v => Sys2Proof.Machine.execEraseBlock who v s
  | .relocate who v => Sys2Proof.Machine.execRelocate who v s
  | .cafTile who v => Sys2Proof.Machine.execCafTile who v s
  | .cafErase who v => Sys2Proof.Machine.execCafErase who v s
  | .fwPage who v => Sys2Proof.Machine.execFwPage who v s
  | .fpcOperationStart id ones => Sys2Proof.Machine.execFpcOperationStart id ones s
  | .programPulseEnd id cells => Sys2Proof.Machine.execProgramPulseEnd id cells s
  | .erasePulseEnd id good => Sys2Proof.Machine.execErasePulseEnd id good s
  | .eraseSuspend id => Sys2Proof.Machine.execEraseSuspend id s
  | .eraseResumeGap id => Sys2Proof.Machine.execEraseResumeGap id s
  | .eraseCtlSuspend id => Sys2Proof.Machine.execEraseCtlSuspend id s
  | .eraseCtlResume id => Sys2Proof.Machine.execEraseCtlResume id s
  | .eraseCtlHold id => Sys2Proof.Machine.execEraseCtlHold id s
  | .fpcResultPop who => Sys2Proof.Machine.execFpcResultPop who s
  | .calDataRead => Sys2Proof.Machine.execCalDataRead s
  | .cafPairRetire v => Sys2Proof.Machine.execCafPairRetire v s
  | .start v => Sys2Proof.Machine.execStart v s
  | .switch v => Sys2Proof.Machine.execSwitch v s
  | .close v => Sys2Proof.Machine.execClose v s
  | .retire v => Sys2Proof.Machine.execRetire v s
  | .abort v => Sys2Proof.Machine.execAbort v s
  | .installTimeout => Sys2Proof.Machine.execInstallTimeout s
  | .shardFetch => Sys2Proof.Machine.execShardFetch s
  | .installerProgramLaunch => Sys2Proof.Machine.execInstallerProgramLaunch s
  | .partComplete => Sys2Proof.Machine.execPartComplete s
  | .dataFlit p bytes => Sys2Proof.Machine.execDataFlit p bytes s
  | .controlFlit p bytes => Sys2Proof.Machine.execControlFlit p bytes s
  | .dack p => Sys2Proof.Machine.execDack p s
  | .dnak p => Sys2Proof.Machine.execDnak p s
  | .cack p => Sys2Proof.Machine.execCack p s
  | .cnak p => Sys2Proof.Machine.execCnak p s
  | .credit p => Sys2Proof.Machine.execCredit p s
  | .syncInc p => Sys2Proof.Machine.execSyncInc p s
  | .syncVal p => Sys2Proof.Machine.execSyncVal p s
  | .time p => Sys2Proof.Machine.execTime p s
  | .measureRequest p turn => Sys2Proof.Machine.execMeasureRequest p turn s
  | .measureReply p ui => Sys2Proof.Machine.execMeasureReply p ui s
  | .join p => Sys2Proof.Machine.execJoin p s
  | .assign p => Sys2Proof.Machine.execAssign p s
  | .lost p => Sys2Proof.Machine.execLost p s
  | .reattach p => Sys2Proof.Machine.execReattach p s
  | .attached p => Sys2Proof.Machine.execAttached p s
  | .ports p note => Sys2Proof.Machine.execPorts p note s
  | .refuse p => Sys2Proof.Machine.execRefuse p s
  | .instAck p => Sys2Proof.Machine.execInstAck p s
  | .instRereq p => Sys2Proof.Machine.execInstRereq p s
  | .instDone p => Sys2Proof.Machine.execInstDone p s
  | .instFail p st detail => Sys2Proof.Machine.execInstFail p st detail s
  | .instSwitch p => Sys2Proof.Machine.execInstSwitch p s
  | .instSwitchAck p => Sys2Proof.Machine.execInstSwitchAck p s
  | .instClose p => Sys2Proof.Machine.execInstClose p s
  | .instSwitchRec p => Sys2Proof.Machine.execInstSwitchRec p s
  | .read p => Sys2Proof.Machine.execRead p s
  | .write p => Sys2Proof.Machine.execWrite p s
  | .readData p => Sys2Proof.Machine.execReadData p s
  | .writeAck p => Sys2Proof.Machine.execWriteAck p s
  | .mgmtReq p => Sys2Proof.Machine.execMgmtReq p s
  | .mgmtResp p => Sys2Proof.Machine.execMgmtResp p s
  | .shard p cmd hdr => Sys2Proof.Machine.execShard p cmd hdr s
  | .lossOfSignal p => Sys2Proof.Machine.execLossOfSignal p s
  | .flitSilenceTimeout p => Sys2Proof.Machine.execFlitSilenceTimeout p s
  | .portDownRequest p => Sys2Proof.Machine.execPortDownRequest p s
  | .cometSend p => Sys2Proof.Machine.execCometSend p s
  | .cometPatternDetect p => Sys2Proof.Machine.execCometPatternDetect p s
  | .trelboWakeActivity p => Sys2Proof.Machine.execTrelboWakeActivity p s
  | .partnerSignalDetect p => Sys2Proof.Machine.execPartnerSignalDetect p s
  | .trainingStateDone p => Sys2Proof.Machine.execTrainingStateDone p s
  | .trainingTimeout p => Sys2Proof.Machine.execTrainingTimeout p s
  | .retrainWaitExpiry p => Sys2Proof.Machine.execRetrainWaitExpiry p s
  | .timeSendInterval => Sys2Proof.Machine.execTimeSendInterval s
  | .timeHoldover => Sys2Proof.Machine.execTimeHoldover s
  | .reattachNoAnswer dev => Sys2Proof.Machine.execReattachNoAnswer dev s
  | .reattachWaitExpiry => Sys2Proof.Machine.execReattachWaitExpiry s
  | .joinRetry => Sys2Proof.Machine.execJoinRetry s
  | .timeSet v => Sys2Proof.Machine.execTimeSet v s
  | .timeAdj v => Sys2Proof.Machine.execTimeAdj v s
  | .timeNowRead => Sys2Proof.Machine.execTimeNowRead s
  | .ppsEdge => Sys2Proof.Machine.execPpsEdge s
  | .pstateChange n => Sys2Proof.Machine.execPstateChange n s
  | .aclkStep => Sys2Proof.Machine.execAclkStep s
  | .avsVoltageConfirm => Sys2Proof.Machine.execAvsVoltageConfirm s
  | .avsTimeout => Sys2Proof.Machine.execAvsTimeout s
  | .enterIdle wake => Sys2Proof.Machine.execEnterIdle wake s
  | .enterDoze wake => Sys2Proof.Machine.execEnterDoze wake s
  | .enterPark wake => Sys2Proof.Machine.execEnterPark wake s
  | .enterOff wake => Sys2Proof.Machine.execEnterOff wake s
  | .pmeToAck => Sys2Proof.Machine.execPmeToAck s
  | .pmeTurnOffTimeout => Sys2Proof.Machine.execPmeTurnOffTimeout s
  | .rtcAlarm => Sys2Proof.Machine.execRtcAlarm s
  | .wakeComplete => Sys2Proof.Machine.execWakeComplete s
  | .domainPowerGate d => Sys2Proof.Machine.execDomainPowerGate d s
  | .domainPowerUp d => Sys2Proof.Machine.execDomainPowerUp d s
  | .domainClockGate d => Sys2Proof.Machine.execDomainClockGate d s
  | .domainWakeReady d => Sys2Proof.Machine.execDomainWakeReady d s
  | .padHoldRelease v => Sys2Proof.Machine.execPadHoldRelease v s
  | .thermalSample temps => Sys2Proof.Machine.execThermalSample temps s
  | .offThermalSample temp => Sys2Proof.Machine.execOffThermalSample temp s
  | .railPoll l => Sys2Proof.Machine.execRailPoll l s
  | .vddAonPowerUp => Sys2Proof.Machine.execVddAonPowerUp s
  | .vddAonLoss => Sys2Proof.Machine.execVddAonLoss s
  | .pwrGoodMainRise straps => Sys2Proof.Machine.execPwrGoodMainRise straps s
  | .pwrGoodTimeout => Sys2Proof.Machine.execPwrGoodTimeout s
  | .railRetry => Sys2Proof.Machine.execRailRetry s
  | .pwrGoodMainFall => Sys2Proof.Machine.execPwrGoodMainFall s
  | .powerFailRestart => Sys2Proof.Machine.execPowerFailRestart s
  | .recoveryVerify => Sys2Proof.Machine.execRecoveryVerify s
  | .fwupBegin fwSlot version => Sys2Proof.Machine.execFwupBegin fwSlot version s
  | .fwupFinish => Sys2Proof.Machine.execFwupFinish s
  | .fwupCancel => Sys2Proof.Machine.execFwupCancel s
  | .svnCommit v => Sys2Proof.Machine.execSvnCommit v s
  | .measurementExtend k => Sys2Proof.Machine.execMeasurementExtend k s
  | .contextMeasurementExtend c => Sys2Proof.Machine.execContextMeasurementExtend c s
  | .attestationRequest mctx => Sys2Proof.Machine.execAttestationRequest mctx s
  | .remoteAttestationRequest dev mctx => Sys2Proof.Machine.execRemoteAttestationRequest dev mctx s
  | .contextAttestationRequest c => Sys2Proof.Machine.execContextAttestationRequest c s
  | .reportSignStart => Sys2Proof.Machine.execReportSignStart s
  | .reportSignDone => Sys2Proof.Machine.execReportSignDone s
  | .certDataRead c => Sys2Proof.Machine.execCertDataRead c s
  | .logSelect v => Sys2Proof.Machine.execLogSelect v s
  | .pcieLinkUp gen width => Sys2Proof.Machine.execPcieLinkUp gen width s
  | .pcieCompletionTimeout c e slot off mig => Sys2Proof.Machine.execPcieCompletionTimeout c e slot off mig s
  | .abortedRecordDropTimeout c => Sys2Proof.Machine.execAbortedRecordDropTimeout c s
  | .entryStepDone => Sys2Proof.Machine.execEntryStepDone s

end Sys2Proof.Machine
end

