-- ==== Sys2Proof/WellFormed.lean ====
section
/-! DEFINITION. Which commands are well-formed: the sizes of what a request or a flit carries, and the ranges of slots, addresses and
environment values that a type does not fix. A command that is not well-formed stands for no event of the hardware. -/

namespace Sys2Proof

/-- A write request of PCI Express: at least one byte, and no 4 KiB boundary crossed (R432). -/
def requestOk (off n : Nat) : Bool := decide (0 < n) && decide (off % 4096 + n ≤ 4096)

/-- The size of BAR2 of a function (R429). -/
def bar2Size (fn : Fin 16) : Nat := if fn = 0 then 2 ^ 24 else 2 ^ 20

/-- The size of BAR4 of a function (R429). -/
def bar4Size (fn : Fin 16) : Nat := if fn = 0 then 2 ^ 36 else 2 ^ 32

/-- The size of BAR0 of a requester (R429); the management controller's space has the same layout. -/
def bar0Size : Requester → Nat
  | .fn n => if n = 0 then 2 ^ 26 else 2 ^ 16
  | .mgc => 2 ^ 26

/-- A command slot of an engine: a queue slot (R182). -/
def slotOk (slot : Nat) : Bool := decide (slot < 4096)

/-- A stream slot (R216). -/
def streamSlotOk (slot : Nat) : Bool := decide (slot < 32)

/-- Readings of 64 temperature sensors that a 9-bit signed field can hold (R421). -/
def tempsOk (l : List Int) : Bool := decide (l.length = 64) && l.all (fun t => decide (-256 ≤ t) && decide (t < 256))

/-- The links of a device: own port, neighbour's number (256: none), neighbour's port. -/
def nbrsOk (l : List (Nat × Nat × Nat)) : Bool :=
  l.all (fun b => decide (b.1 < 8) && decide (b.2.1 ≤ 256) && decide (b.2.2 < 8))

/-- A rail reading: mV, mA, mW, fault (R421). -/
def railOk (r : Option (Nat × Nat × Nat × Bool)) : Bool :=
  r.all (fun x => decide (x.1 < 2 ^ 16) && decide (x.2.1 < 2 ^ 20) && decide (x.2.2.1 < 2 ^ 24))

/-- Whether a command is well-formed. (DESIGN CHOICE, assumption 39) -/
def Instr.wellFormed (i : Instr) : Bool :=
  match i with
  | .queueEntryWrite fn off data _ => requestOk off data.length && decide (off + data.length ≤ bar2Size fn)
  | .registerWrite who off size _ _ => decide (0 < size) && decide (off + size ≤ bar0Size who)
  | .apertureRead fn off n => requestOk off n && decide (off + n ≤ bar4Size fn)
  | .apertureWrite fn off data _ => requestOk off data.length && decide (off + data.length ≤ bar4Size fn)
  | .vfFlr n => decide (n ≠ 0)
  | .quant _ k | .func _ k | .scaleFind _ k | .norm _ k | .softmax _ k | .rescale _ k | .outlier _ k | .random _ k | .add _ k
  | .matvec _ k _ | .scrub _ k _ | .matmul _ k | .combine _ k | .arm _ k | .disarm _ k | .copy _ k | .slotTable _ k
  | .ctxSave _ k | .ctxRestore _ k | .compress _ k => slotOk k
  | .blockDecode _ k | .tileDeadlineExpiry _ _ k => streamSlotOk k
  | .transferRetire _ _ k => decide (k < 65536)
  | .pcieCompletionTimeout _ _ k off _ => decide (k < 2 * 65536) && decide (off < 65536)
  | .dataFlit _ bs => decide (bs.length = 256)
  | .controlFlit _ bs => decide (bs.length = 32)
  | .ports _ note => nbrsOk note.nbrs
  | .shard _ _ hdr => decide (hdr.length = 64)
  | .domainPowerGate d | .domainPowerUp d | .domainClockGate d | .domainWakeReady d => decide (d.toNat < 117)
  | .thermalSample l => tempsOk l
  | .offThermalSample t => decide (-256 ≤ t) && decide (t < 256)
  | .railPoll l => decide (l.length = 10) && l.all railOk
  | .pcieLinkUp gen width => decide (1 ≤ gen) && decide (gen ≤ 4) && [1, 2, 4].contains width
  | .linkDown | .hotReset _ | .perstNAssert _ | .perstNDeassert | .devReset _ _ | .watchdogExpiry _ | .bootOkTimer
  | .pfFlr | .vfEnableSet _ | .vfEnableClear | .msixUnmask _ _ | .queueEntryDecode _ _ | .commandHandover _
  | .commandComplete _ _ | .msixTimerExpiry _ | .cqHeadWrite _ _ | .queueEnableWrite _ _ | .contextReset _
  | .devCtxQueueDisable _ | .devCtxReset _ | .abortRequest _ _ | .abortAll _ | .syncAdd _ _ | .syncCounterWrite _ _ _
  | .systemCounterWrite _ _ | .operandStallEpisode _ | .tableLoad _ | .tableLoadUnpinned _ | .transferGrant _ _
  | .dramRefresh _ | .promote _ _ | .evict _ _ | .writeback _ _ | .migrationOpStart | .migrationOpEnd _ _
  | .migrationDeadline _ _ | .quiesceRequest _ | .quiesceDone | .quiesceRelease _ | .objRead _ | .create _
  | .delete _ | .setShare _ | .setState _ | .mdlRead _ | .define _ | .undefine _ | .crcConfigWrite _ _ _
  | .crcFeed _ _ _ | .crcAdvance _ _ _ | .crcAdvanceDone _ _ | .exactEnter _ | .exactActivate _ | .exactExit _
  | .exactDeactivate _ | .tailHeadWrite _ _ | .fpcKeyWrite _ _ | .fpcCmdWrite _ _ | .fpcAddrWrite _ _
  | .fpcSequenceTimeout | .fpcLockoutExpiry | .progPages _ _ | .eraseBlock _ _ | .relocate _ _ | .cafTile _ _
  | .cafErase _ _ | .fwPage _ _ | .fpcOperationStart _ _ | .programPulseEnd _ _ | .erasePulseEnd _ _
  | .eraseSuspend _ | .eraseResumeGap _ | .eraseCtlSuspend _ | .eraseCtlResume _ | .eraseCtlHold _ | .fpcResultPop _
  | .calDataRead | .cafPairRetire _ | .start _ | .switch _ | .close _ | .retire _ | .abort _ | .installTimeout
  | .shardFetch | .installerProgramLaunch | .partComplete | .dack _ | .dnak _ | .cack _ | .cnak _ | .credit _
  | .syncInc _ | .syncVal _ | .time _ | .measureRequest _ _ | .measureReply _ _ | .join _ | .assign _ | .lost _
  | .reattach _ | .attached _ | .refuse _ | .instAck _ | .instRereq _ | .instDone _ | .instFail _ _ _ | .instSwitch _
  | .instSwitchAck _ | .instClose _ | .instSwitchRec _ | .read _ | .write _ | .readData _ | .writeAck _ | .mgmtReq _
  | .mgmtResp _ | .lossOfSignal _ | .flitSilenceTimeout _ | .portDownRequest _ | .cometSend _ | .cometPatternDetect _
  | .trelboWakeActivity _ | .partnerSignalDetect _ | .trainingStateDone _ | .trainingTimeout _ | .retrainWaitExpiry _
  | .timeSendInterval | .timeHoldover | .reattachNoAnswer _ | .reattachWaitExpiry | .joinRetry | .timeSet _
  | .timeAdj _ | .timeNowRead | .ppsEdge | .pstateChange _ | .aclkStep | .avsVoltageConfirm | .avsTimeout
  | .enterIdle _ | .enterDoze _ | .enterPark _ | .enterOff _ | .pmeToAck | .pmeTurnOffTimeout | .rtcAlarm
  | .wakeComplete | .padHoldRelease _ | .vddAonPowerUp | .vddAonLoss | .pwrGoodMainRise _ | .pwrGoodTimeout
  | .railRetry | .pwrGoodMainFall | .powerFailRestart | .recoveryVerify | .fwupBegin _ _ | .fwupFinish | .fwupCancel
  | .svnCommit _ | .measurementExtend _ | .contextMeasurementExtend _ | .attestationRequest _
  | .remoteAttestationRequest _ _ | .contextAttestationRequest _ | .reportSignStart | .reportSignDone
  | .certDataRead _ | .logSelect _ | .abortedRecordDropTimeout _ | .entryStepDone => true

end Sys2Proof
end

