-- ==== Sys2Proof/Safety.lean ====
section
/-! DEFINITION. What the claims are stated in: the invariants of a state, and the words the statements share. -/

namespace Sys2Proof.Machine

open Sys2Proof

/-- The device's memory is in canonical form. -/
def State.memOk (s : State) : Bool := Memory.wf s.mem

/-- R336: at most one context has its Exact request standing, and at most one is active. -/
def State.oneExact (s : State) : Prop :=
  (∀ c d, (s.ctx c).exactReq = true → (s.ctx d).exactReq = true → c = d) ∧
  (∀ c d, (s.ctx c).exactActive = true → (s.ctx d).exactActive = true → c = d)

/-- The invariant of the block. -/
def State.Inv (s : State) : Prop := s.memOk = true ∧ s.oneExact

/-- The device runs in a P-state with the endpoint's domain on, its functions' BARs answer, the boot is past RECOVERY, and no host access
waits. -/
def State.serving (s : State) : Prop :=
  s.pwr.mode = .run ∧ s.flag Reg.devStatus_ready = true ∧ s.inRecovery = false ∧ s.pcie.d3.getLsbD 0 = false ∧ s.dom epDom = .on ∧
  s.aptWait = []

/-- Every port's domain is on. -/
def State.portsOn (s : State) : Prop := ∀ p : PortId, s.dom (108 + p.val) = .on

/-- Nothing waits for a domain to wake: no host access, no Tail entry, no repair report. -/
def State.calm (s : State) : Prop :=
  s.aptWait = [] ∧ (∀ c, (s.ctx c).tailBuf = []) ∧ ∀ o ∈ s.fpc.ops, o.phase ≠ .reporting

/-- `t` is `s` but for what sending messages on ports changes: the ports, what leaves, and the waking of domains that are not on (R401). -/
def State.sent (s t : State) : Prop :=
  t = { s with link := t.link, pwr := t.pwr, out := t.out } ∧ (s.portsOn → t.pwr = s.pwr)

/-- `t` is `s` but for what taking a data message and sending messages changes: words of it that arrive with bit errors are counted and logged
too (R385). -/
def State.received (s t : State) (m : DataMsg) : Prop :=
  t = { s with link := t.link, regs := t.regs, log := t.log, logNext := t.logNext, pcie := t.pcie, pwr := t.pwr, out := t.out } ∧
  (m.errs = [] → s.sent t)

/-- No entry, exit or P-state change is in progress. -/
def State.quiet (s : State) : Prop := s.pwr.entry = none ∧ s.pwr.exiting = false ∧ s.pwr.ramp = none

/-- The work `f` of a command can run at its turn: no domain it needs is gated, and no peer byte it reads is still to come (R362, R401). -/
def State.workReady (s : State) (ds : List Nat) (f : State → State) : Prop :=
  (f (s.touch ds)).pwr.stall = [] ∧ (f (s.touch ds)).link.missing = []

/-- The command of context c in execution on engine e from queue slot `slot` has reported a result. -/
def State.resulted (s : State) (c : CtxId) (e : Engine) (slot : Nat) : Prop :=
  ∃ y ∈ s.running, y.ctx = c ∧ y.eng = e ∧ y.slot = slot ∧ y.result ≠ none

/-- The command `x` of context c is in execution on engine e from queue slot `slot` with an opcode and no result, and every operand that a
stream or a direct read brings it has arrived (R219, R223). -/
def State.canRun (s : State) (c : CtxId) (e : Engine) (slot op : Nat) (x : Exec) : Prop :=
  s.running.find? (fun y => decide (y.ctx = c) && decide (y.eng = e) && decide (y.slot = slot)) = some x ∧
  Entry.opcode x.words = op ∧ x.result = none ∧ s.streamsIn c e (slot % 4096) = true

/-- A write by the context of a view at tensor address a puts its byte at key k of the T0 or T1 content (R258). -/
def State.landsAt (s : State) (v : View) (a k : Nat) : Prop := s.writePlace v a = some (.t0 k) ∨ s.writePlace v a = some (.t1 k)

/-- A key of the T0 or T1 content of an object that context c owns: the only device memory an engine command of c may write (R247). -/
def State.ownKey (s : State) (c : CtxId) (k : Nat) : Prop :=
  ∃ e ∈ s.objs, e.2.owner = c ∧ ∃ off, off < e.2.size * 4096 ∧ (k = kT0 e.1 off ∨ k = kT1 e.1 off)

/-- The frame of an engine command of context c: no context's structures, no model, quota, system counter, cell, tile set, device time or
security state changes, and no byte of the device's memory outside the objects of c. -/
def State.engineFrame (s t : State) (c : CtxId) : Prop :=
  t.pending = s.pending ∧ t.ctxs = s.ctxs ∧ t.models = s.models ∧ t.quotas = s.quotas ∧ t.sysCnt = s.sysCnt ∧ t.cells = s.cells ∧
  t.tsets = s.tsets ∧ t.time = s.time ∧ t.sec = s.sec ∧ ∀ k, ¬ s.ownKey c k → SMap.get 0 t.mem k = SMap.get 0 s.mem k

/-- A control message waits on a port or has been sent there and can be replayed (R356, R360). -/
def State.carries (s : State) (p : PortId) (m : W64) : Prop := m ∈ (s.port p).txCtl ∨ ∃ e ∈ (s.port p).creplay, m ∈ e.2

/-- Every data flit of a message waits on a port or has been sent there and can be replayed (R353, R356). -/
def State.carriesData (s : State) (p : PortId) (kind : Nat) (header : List Byte) (data : List SB) : Prop :=
  ∀ f ∈ flitsOf (kindChannel kind) (msgOwner kind header) (clean header ++ data),
    f ∈ (s.port p).txData ∨ ∃ e ∈ (s.port p).replay, e.2 = f

/-- Nothing waits to be sent on a port. -/
def State.portIdle (s : State) (p : PortId) : Prop := (s.port p).txCtl = [] ∧ (s.port p).txData = []

/-- Every domain is on, nothing is stalled and no peer byte is missing. -/
def State.awake (s : State) : Prop := s.pwr.mode = .run ∧ s.pwr.doms = [] ∧ s.pwr.stall = [] ∧ s.link.missing = []

/-- The page registers whose writes have no effect but the value written (R9, R210, R272, R345). -/
def plainPage : List Nat :=
  [0x68, 0x400, 0x408, 0x410, 0x418, 0x500, 0x508, 0x510, 0x528, 0x530, 0x538, 0x540, 0x550, 0x558, 0x580, 0x590, 0x598, 0x600, 0x608,
   0x610, 0x618, 0x660, 0x680, 0x688, 0x690, 0x698, 0x6A0, 0x6A8, 0x6B0, 0x6B8, 0x800, 0x810, 0x900, 0x908, 0x910, 0x918, 0x920,
   0x970, 0x978, 0x980, 0x988, 0x990, 0x998]

end Sys2Proof.Machine
end

