-- ==== Sys2Proof/Certificates/Slice0/Obligations.lean ====
section
/-! DEFINITION. The statements for the provers: what the commands do, what they leave unchanged, and what every step keeps. -/

open Sys2Proof Sys2Proof.Machine

/-! ### The step, the reset and the invariants -/

/-- A step takes the command at the front of the queue and runs it with the queue's rest. -/
def Obligations.StepRunsFront : Prop :=
  ∀ (c : Instr) (rest : List Instr) (s : State), s.pending = c :: rest → step s = exec c { s with pending := rest }

/-- R367, R397, with the model's choice that an empty queue passes one CLK_CTL cycle (assumption 2): with no set, no slew and no holdover
pending, device time advances by 2 ns, 0xAAAA_AAAB units of 2^−32 ns and TIME_TRIM, modulo 2^64 ns, and the real-time clock by 32768 /
375,000,000 of its 2^−15 s, modulo 2^48 s; the wake events of the cycle before are past (assumption 89). With no domain in a shut-down, no host
access waiting, no port that sends null flits and no batch pointer on its way to the journal, nothing else changes. -/
def Obligations.StepIdle : Prop :=
  ∀ s : State, s.pending = [] → s.pwr.mode = .run → s.time.pendingSet = none → s.time.slew = 0 → s.time.holdover = false →
    s.pwr.doms = [] → s.aptWait = [] → (∀ p, (s.port p).state ≠ .active ∧ (s.port p).state ≠ .measure) →
    (∀ e ∈ s.models, e.2.unrec = none) →
    let rtc := fun (u : State) => (u.fld Reg.pwrRtcNow_sec * 2 ^ 15 + u.fld Reg.pwrRtcNow_sub) * 375000000 + u.pwr.rtcAcc
    ∃ t, step s = .next t ∧
      t = { s with time := t.time, pwr := { s.pwr with rtcAcc := t.pwr.rtcAcc, wakeSeen := none }, regs := t.regs } ∧
      t.time.fine = (s.time.fine + (2 * 2 ^ 32 + 0xAAAAAAAB + s.trim)) % 2 ^ 96 ∧
      rtc t = (rtc s + 32768) % (2 ^ 63 * 375000000) ∧ ∀ off, off ≠ Reg.pwrRtcNow → t.reg off = s.reg off

/-- After reset every register holds the value of its table's Reset column, no memory lists a byte, no command waits or runs, every
queue starts at slot 0 expecting phase 1, no object, model or arming exists, no port and no PCI Express link is up, and the state is P3. That
every byte reads 0 and clean, and that the registers which the boot or VDD_AON loads start at 0, is the model's choice (assumptions 10, 11). -/
def Obligations.ResetValues : Prop :=
  (∀ off, State.reset.reg off = regReset off) ∧ (∀ k, State.reset.peek k = (0, false)) ∧
  State.reset.pending = [] ∧ State.reset.running = [] ∧
  (∀ c e, State.reset.queue c e = { head := 0, phase := true, dec := .idle }) ∧
  (∀ i, (State.reset.obj i).valid = false) ∧ (∀ i, (State.reset.model i).valid = false) ∧ State.reset.armings = [] ∧
  (∀ p, (State.reset.port p).state = .off) ∧ State.reset.pcie.linkUp = false ∧
  State.reset.pwr.mode = .run ∧ State.reset.pwr.pstate = 3 ∧ State.reset.time.ns = 0

/-- The invariant holds at reset. -/
def Obligations.InvReset : Prop := State.reset.Inv

/-- Every step keeps the canonical form of the device's memory. -/
def Obligations.StepKeepsMemory : Prop :=
  ∀ s t : State, s.memOk = true → step s = .next t → t.memOk = true

/-- R336: every step keeps it that at most one context has an Exact request standing and at most one is active. -/
def Obligations.StepKeepsOneExact : Prop :=
  ∀ s t : State, s.oneExact → step s = .next t → t.oneExact

/-! ### Device time (R367, R368, R370) -/

/-- R368: on a Planet or a single device TIME_SET sets the time at the next CLK_CTL cycle with fraction 0, TIME_ADJ starts a slew by the
written signed amount, and neither changes anything else.
R367, R370: a read of TIME_NOW returns the integer nanoseconds and latches the fraction; an enabled and free-running TIME_PPS_OUT rises
in the cycle in which device time reaches a whole second.
R426, R432, R441, R449: the read returns 0 without effect before the device is ready and in RECOVERY, waits behind accesses of its function that
wait (the model's form of it, assumption 90), and in D3hot or without power is not taken. -/
def Obligations.DeviceTimeCommands : Prop :=
  (∀ (v : W64) (s : State), s.isMoon = false →
     (∃ t, exec (.timeSet v) s = .next t ∧ t = { s with time := t.time } ∧ t.time.ns = s.time.ns ∧ t.time.slew = s.time.slew ∧
       t.timeTick.time.ns = v ∧ t.timeTick.time.frac = 0) ∧
     (∃ t, exec (.timeAdj v) s = .next t ∧ t = { s with time := t.time } ∧ t.time.fine = s.time.fine ∧
       t.time.slew = (v.setWidth 32).toInt * 2 ^ 32)) ∧
  (∀ s : State,
     (s.up = true → s.pcie.d3.getLsbD 0 = false →
       (s.flag Reg.devStatus_ready = true → s.inRecovery = false → s.hostBehind 0 = false →
         ∃ t, exec .timeNowRead s = .next t ∧ t = { s with time := t.time, out := t.out } ∧ t.time.fine = s.time.fine ∧
           t.time.latched = s.time.frac ∧ t.out = s.out ++ [.readVal Reg.timeNow s.time.ns]) ∧
       (s.flag Reg.devStatus_ready = true → s.inRecovery = false → s.hostBehind 0 = true →
         exec .timeNowRead s = .next { s with aptWait := s.aptWait ++ [.timeNow] }) ∧
       (s.flag Reg.devStatus_ready = false ∨ s.inRecovery = true →
         exec .timeNowRead s = .next { s with out := s.out ++ [.readVal Reg.timeNow 0] })) ∧
     (s.up = false ∨ s.pcie.d3.getLsbD 0 = true → exec .timeNowRead s = .next s) ∧
     (s.flag Reg.timeOutCfg_ppsEn = true → s.outsRun = true → s.time.ns.toNat % 1000000000 < 3 →
       ∃ t, exec .ppsEdge s = .next t ∧ t = { s with time := t.time, out := t.out } ∧ t.time.fine = s.time.fine ∧
         t.ppsOut = true ∧ t.out = s.out ++ [.pps]))

/-! ### P-states, entries and waking (R396, R403 to R413) -/

/-- R396, R413: naming a faster P-state asks the regulator first, for the state's nominal voltage and the fused offset up to 0.85 V; naming
a slower one starts to step ACLK down; each ACLK step moves it by 0.3 GHz, and the step that reaches the target of a raise completes it; a
confirmed voltage lets the steps go on, and one that is not confirmed ends the change with fail = 1 and leaves P-state and ACLK as they are.
Nothing outside the power state changes, but for the voltage request and the alert message. -/
def Obligations.PStateChange : Prop :=
  (∀ (n : Fin 4) (s : State), s.pwr.mode = .run → s.quiet → n.val < s.pwr.pstate →
    ∃ t, exec (.pstateChange n) s = .next t ∧ t = { s with pwr := t.pwr, out := t.out } ∧
      t.out = s.out ++ [.avsVoltage (min 850 ([750, 710, 680, 650].getD n.val 650 + s.fac.vddOffset.val))] ∧
      t.pwr = { s.pwr with ramp := some { target := n.val, raising := true, waitVolt := true } }) ∧
  (∀ (n : Fin 4) (s : State), s.pwr.mode = .run → s.quiet → s.pwr.pstate < n.val →
    ∃ t, exec (.pstateChange n) s = .next t ∧ t = { s with pwr := t.pwr } ∧
      t.pwr = { s.pwr with ramp := some { target := n.val, raising := false, waitVolt := false } }) ∧
  (∀ (r : Ramp) (s : State), s.pwr.ramp = some r → r.waitVolt = false → s.pwr.exiting = false → s.pwr.entry = none →
    ∃ t, exec .aclkStep s = .next t ∧ t = { s with pwr := t.pwr, out := t.out } ∧
      t.pwr.aclk = (if r.raising then s.pwr.aclk + 1 else s.pwr.aclk - 1) ∧
      t.pwr.pstate = (if t.pwr.aclk = 5 - r.target then r.target else s.pwr.pstate)) ∧
  (∀ (r : Ramp) (s : State), s.pwr.ramp = some r → r.waitVolt = true → r.raising = true → s.pwr.exiting = false → s.pwr.entry = none →
    exec .avsVoltageConfirm s = .next { s with pwr := { s.pwr with vddOk := true, ramp := some { r with waitVolt := false } } }) ∧
  (∀ (r : Ramp) (s : State), s.pwr.ramp = some r → r.waitVolt = true →
    ∃ t, exec .avsTimeout s = .next t ∧ t = { s with pwr := t.pwr, pcie := t.pcie, out := t.out } ∧
      t.pwr.ramp = none ∧ t.pwr.fail = 1 ∧ t.pwr.vddOk = false ∧ t.pwr.pstate = s.pwr.pstate ∧ t.pwr.aclk = s.pwr.aclk)

/-- R404, R405: with nothing in progress and no Exact request, PWR_STATE_CMD naming IDLE, DOZE, PARK (with both DST stacks of one mind) or
OFF begins the entry at step 1, with the state being left and the wake state recorded, and changes nothing else. Each of the four is refused
with code 1 while an entry, exit or change is in progress, with code 2 under an Exact request, and PARK with code 3 where the stacks differ.
R405, R406: the steps of an entry. An entry to IDLE goes through steps 1, 2, 6 and 7 and then is in IDLE with the named wake state; a
noted wake event abandons it at the end of step 1, 2 or 6, in the state it was leaving.
R405 step 5: when the link has entered L2 the sequence goes on, past step 6 where DST is not retained; without the exchange in time the
entry is abandoned with fail = 2 in the state it was leaving. -/
def Obligations.EntrySequence : Prop :=
  (∀ (w : Fin 4) (s : State), s.up = true →
     let refuses := fun (i : Instr) (code : Nat) => exec i s = .next { s with pwr := { s.pwr with refused := code } }
     let mixed := s.flag Reg.pwrRetainMask_dst0 ≠ s.flag Reg.pwrRetainMask_dst1
     let asks := fun (i : Instr) (m : PwrMode) =>
       (s.pwr.busy = true → refuses i 1) ∧
       (∀ c, s.quiet → (s.ctx c).exactReq = true → refuses i 2) ∧
       (s.quiet → (∀ c, (s.ctx c).exactReq = false) →
         (¬(m = .park ∧ mixed) → exec i s = .next { s with
           pwr := { s.pwr with wakeSeen := none, entry := some { target := m, step := 1, fromMode := s.pwr.mode, wake := w.val } } }) ∧
         (m = .park ∧ mixed → refuses i 3))
     asks (.enterIdle w) .idle ∧ asks (.enterDoze w) .doze ∧ asks (.enterPark w) .park ∧ asks (.enterOff w) .off) ∧
  (∀ (e : EntrySeq) (s : State), s.pwr.entry = some e → e.target = .idle → s.stepReady e.step = true →
     (e.abandon = none → e.lateWake = none →
       let goes := fun (k : Nat) =>
         exec .entryStepDone s = .next { s with pwr := { s.pwr with entry := some { e with step := k }, wakeSeen := none } }
       (e.step = 1 → goes 2) ∧ (e.step = 2 → goes 6) ∧ (e.step = 6 → goes 7) ∧
       (e.step = 7 → exec .entryStepDone s =
         .next { s with pwr := { s.pwr with entry := none, mode := .idle, wakeState := e.wake, wakeSeen := none } })) ∧
     (∀ src, e.abandon = some (src, none) → e.step = 1 ∨ e.step = 2 ∨ e.step = 6 →
       ∃ t, exec .entryStepDone s = .next t ∧ t = { s with pwr := t.pwr, regs := t.regs } ∧
         t.pwr = { s.pwr with entry := none, wakeSeen := none } ∧
         t.fld Reg.pwrStatus_abandoned = min 65535 (s.fld Reg.pwrStatus_abandoned + 1))) ∧
  (∀ (e : EntrySeq) (s : State), s.pwr.entry = some e → e.step = 5 → e.abandon = none →
     (e.target = .off ∨ e.target = .park →
       ∃ t, exec .pmeToAck s = .next t ∧ t = { s with pwr := t.pwr, pcie := t.pcie } ∧ t.pcie.linkUp = false ∧
         t.pwr.entry = some { e with step := if e.target = .park ∧ s.dstKept = true then 6 else 7 }) ∧
     (∃ t, exec .pmeTurnOffTimeout s = .next t ∧ t.pwr.entry = none ∧ t.pwr.fail = 2 ∧ t.pwr.mode = s.pwr.mode ∧
       t.ctxs = s.ctxs ∧ t.running = s.running ∧ t.mem = s.mem))

/-- R408 to R410: wake events, the first of its CLK_CTL cycle. The RTC alarm, at its second, sets `fired`, and where it is an enabled wake
source it starts the exit from IDLE with source 1; an alarm second that is past changes nothing (assumption 63). The Comet pattern on a privileged
enabled port wakes from PARK with source 4, activity on a privileged enabled ACTIVE port from IDLE with source 3; each records its source and port
in PWR_LAST_WAKE and adds 1 to its count, and WAKE_COMPLETE ends the exit in the wake state with its ACLK.
R409: a further event of the same cycle changes nothing unless its source is lower; then it is the source recorded, and the count stays (what
one cycle is here is the model's choice, assumption 89). -/
def Obligations.WakeSources : Prop :=
  (∀ s : State, s.flag Reg.pwrRtcAlarm_en = true → s.pwr.mode = .idle → s.pwr.entry = none → s.pwr.exiting = false → s.pwr.wakeSeen = none →
    (s.fld Reg.pwrRtcNow_sec ≤ s.fld Reg.pwrRtcAlarm_sec →
      ∃ t, exec .rtcAlarm s = .next t ∧ t = { s with pwr := t.pwr, regs := t.regs, out := t.out } ∧ t.fld Reg.pwrRtcAlarm_fired = 1 ∧
        t.fld Reg.pwrRtcNow_sec = s.fld Reg.pwrRtcAlarm_sec ∧
        (s.flag Reg.pwrWakeEn_rtc = true → t.pwr.exiting = true ∧ t.fld Reg.pwrLastWake_source = 1)) ∧
    (s.fld Reg.pwrRtcAlarm_sec < s.fld Reg.pwrRtcNow_sec → exec .rtcAlarm s = .next s)) ∧
  (∀ (p : PortId) (s : State), s.wakes p = true → s.pwr.mode = .park → s.pwr.entry = none →
    let woken := fun (t : State) => t = { s with pwr := t.pwr, regs := t.regs, out := t.out } ∧ t.pwr.exiting = true ∧
      t.fld Reg.pwrLastWake_source = 4 ∧ t.fld Reg.pwrLastWake_port = p.val ∧ t.fld Reg.pwrLastWake_from = 6
    (s.pwr.exiting = false → s.pwr.wakeSeen = none →
      ∃ t, exec (.cometPatternDetect p) s = .next t ∧ woken t ∧
        t.fld Reg.pwrLastWake_count = min 65535 (s.fld Reg.pwrLastWake_count + 1)) ∧
    (∀ k, s.pwr.exiting = true → s.pwr.wakeSeen = some k →
      (k ≤ 4 → exec (.cometPatternDetect p) s = .next s) ∧
      (4 < k → ∃ t, exec (.cometPatternDetect p) s = .next t ∧ woken t ∧ t.fld Reg.pwrLastWake_count = s.fld Reg.pwrLastWake_count))) ∧
  (∀ (p : PortId) (s : State), s.wakes p = true → s.portUp p = true → s.pwr.mode = .idle → s.pwr.entry = none →
    s.pwr.exiting = false → s.pwr.wakeSeen = none →
    ∃ t, exec (.trelboWakeActivity p) s = .next t ∧ t = { s with pwr := t.pwr, regs := t.regs, out := t.out } ∧ t.pwr.exiting = true ∧
      t.fld Reg.pwrLastWake_source = 3 ∧ t.fld Reg.pwrLastWake_port = p.val ∧ t.fld Reg.pwrLastWake_from = 4) ∧
  (∀ s : State, s.pwr.exiting = true → s.pwr.ramp = none →
    ∃ t, exec .wakeComplete s = .next t ∧ t.pwr.mode = .run ∧ t.pwr.exiting = false ∧ t.pwr.pstate = s.pwr.wakeState ∧
      t.pwr.aclk = 5 - s.pwr.wakeState ∧ t = { s with pwr := t.pwr, link := t.link, fpc := t.fpc, out := t.out })

/-! ### Clock domains (R399 to R401) and the pads (R412) -/

/-- R399 to R401: PWR_DOM_CTL on a domain it acts on. Power-gating begins its shut-down, clock-gating stops its clock, powering up wakes a
domain that is power-gated or past its shut-down's step 3 (the port of a port's domain with it) or abandons a shut-down before step 4; no other
domain changes. A waking domain that becomes ready is on, and with nothing waiting for it nothing else changes, but that the port of a port's
domain sends what it has queued, and the endpoint what is bound for the host; that a domain in step 4 wakes at once is the model's choice
(assumption 52).
R412: releasing held pads lets them drive again and applies the register write that waited; without held pads, or with bit 0 clear,
nothing changes. -/
def Obligations.DomainsAndPads : Prop :=
  (∀ (d : BitVec 7) (s : State), d.toNat ≤ 116 →
     let others := fun (t : State) => ∀ k, k ≠ d.toNat → t.dom k = s.dom k
     (s.domWritable d.toNat = true → s.dom d.toNat = .on →
       (∃ t, exec (.domainPowerGate d) s = .next t ∧ t = { s with pwr := t.pwr } ∧ t.dom d.toNat = .shutting 1 ∧ others t) ∧
       (∃ t, exec (.domainClockGate d) s = .next t ∧ t = { s with pwr := t.pwr } ∧ t.dom d.toNat = .clockGated ∧ others t)) ∧
     (s.pwr.mode = .run → s.dom d.toNat = .powerGated ∨ (∃ k, 4 ≤ k ∧ s.dom d.toNat = .shutting k) →
       ∃ t, exec (.domainPowerUp d) s = .next t ∧ t = { s with pwr := t.pwr, link := { s.link with ports := t.link.ports } } ∧
         t.dom d.toNat = .waking false ∧ others t ∧ ∀ q : PortId, d.toNat ≠ 108 + q.val → t.port q = s.port q) ∧
     (∀ k, s.pwr.mode = .run → s.dom d.toNat = .shutting k → k < 4 →
       ∃ t, exec (.domainPowerUp d) s = .next t ∧ t = { s with pwr := t.pwr } ∧ t.dom d.toNat = .on ∧ others t) ∧
     (∀ clean, s.dom d.toNat = .waking clean →
       (s.calm → s.pcie.linkUp = false ∨ d.toNat ≠ 116 →
         ∃ t, exec (.domainWakeReady d) s = .next t ∧ t.dom d.toNat = .on ∧ others t ∧
           (clean = true ∨ d.toNat < 48 ∨ 80 ≤ d.toNat →
             (d.toNat < 108 ∨ d.toNat = 116 → t = { s with pwr := t.pwr }) ∧ t = { s with pwr := t.pwr, link := t.link, out := t.out } ∧
             ∀ q : PortId, d.toNat ≠ 108 + q.val → t.port q = s.port q)) ∧
       (s.aptWait = [] → ∃ t, exec (.domainWakeReady d) s = .next t ∧ t.dom d.toNat = .on))) ∧
  (∀ (v w : W64) (off : Nat) (s : State), s.pwr.padHold = true → s.pwr.padPending = [(off, w)] → v.getLsbD 0 = true →
     ∃ t, exec (.padHoldRelease v) s = .next t ∧ t = { s with pwr := t.pwr, regs := t.regs } ∧
       t.pwr = { s.pwr with padHold := false, padPending := [] } ∧ t.reg off = w ∧ ∀ k, k ≠ off → t.reg k = s.reg k) ∧
  (∀ (v : W64) (s : State), s.pwr.padHold = false ∨ v.getLsbD 0 = false → exec (.padHoldRelease v) s = .next s)

/-- R399: "Power-gating an NST bank loses its contents, and the bank reads as poisoned after its next wake": each 64-bit word of an object
that lies in the bank delivers poisoned bytes, where nothing that waited for the bank is written to it as it wakes. -/
def Obligations.GatedBankIsPoisoned : Prop :=
  ∀ (b : Fin 32) (i w : Nat) (s : State), s.dom (48 + b.val) = .waking false → i ∈ SMap.keys s.objs → w ∈ s.bankWords i b.val → s.calm →
    ∃ t, exec (.domainWakeReady (BitVec.ofNat 7 (48 + b.val))) s = .next t ∧ ∀ k, k < 8 → (t.peek (8 * w + k)).2 = true

/-! ### Temperature and rails (R414 to R418, R474 to R476, R488) -/

/-- R415, R416, R418, R486: a sample of 64 sensors is recorded, and with every reading below 115 °C and no crossing of the alert threshold it
changes nothing else; a sensor at 115 °C or more in two consecutive samples trips the device: THERM_TRIP_N low, the state OFF, PWR_EN_MAIN
deasserted. In OFF a sample of sensor 63 is recorded, and below 95 °C it starts the boot of a wake that a trip holds, with reset cause 6.
R414: a poll of the ten rails shows each rail's reading; a rail that does not answer keeps its reading, marked stale, with fail = 3. -/
def Obligations.SensorsAndRails : Prop :=
  ((∀ (temps : List Int) (s : State), s.pwr.mode ≠ .off → s.pwr.mode ≠ .unpowered → temps.length = 64 →
     ((∀ x ∈ temps, x < 115 ∧ x < (s.fld Reg.pwrThermCfg_alertThr : Int)) →
       ∃ t, exec (.thermalSample temps) s = .next t ∧ t = { s with pwr := t.pwr } ∧ t.pwr.mode = s.pwr.mode ∧
         ∀ i x, temps[i]? = some x → SMap.get 0 t.pwr.sensors i = unsigned 9 x) ∧
     (∀ i x, temps[i]? = some x → 115 ≤ x → SMap.get false s.pwr.hot i = true →
       ∃ t, exec (.thermalSample temps) s = .next t ∧ t.pwr.thermTripN = false ∧ t.pwr.mode = .off ∧ t.pwr.pwrEnMain = false)) ∧
   (∀ (temp : Int) (s : State), s.pwr.mode = .off →
     let recorded := { s.pwr with sensors := SMap.put 0 s.pwr.sensors 63 (unsigned 9 temp) }
     (s.pwr.thermTripN = false → s.pwr.heldWake = true → temp < 95 →
       ∃ t, exec (.offThermalSample temp) s = .next t ∧ t = { s with pwr := t.pwr, regs := t.regs } ∧
         t.pwr = { recorded with mode := .rising, pwrEnMain := true, heldWake := false } ∧ t.fld Reg.devStatus_resetCause = 6) ∧
     (s.pwr.thermTripN = true ∨ s.pwr.heldWake = false ∨ 95 ≤ temp → exec (.offThermalSample temp) s = .next { s with pwr := recorded }))) ∧
  (∀ (l : List (Option (Nat × Nat × Nat × Bool))) (s : State), s.up = true → l.length = 10 →
     ∃ t, exec (.railPoll l) s = .next t ∧ t = { s with pwr := t.pwr } ∧ t.pwr.mode = s.pwr.mode ∧
       ∀ (i : Nat) (r : Option (Nat × Nat × Nat × Bool)), l[i]? = some r →
         match r with
         | some (mv, ma, mw, fault) => SMap.get {} t.pwr.rails i =
             { mv := mv % 2 ^ 16, ma := ma % 2 ^ 20, mw := mw % 2 ^ 24, fault := fault, stale := false }
         | none => SMap.get {} t.pwr.rails i = { SMap.get {} s.pwr.rails i with stale := true } ∧ t.pwr.fail = 3)

/-- R474 to R476, R488, R36: the rails. Always-on power-up empties the log and the AON registers and starts a cold boot; PWR_GOOD_MAIN in
time boots the device in P3 with the straps sampled, its cause kept and `ready` set, no log entry lost but to overwriting, and, where a host
command had named a faster wake state, the change to it begun; late, it deasserts PWR_EN_MAIN, which a retry asserts again; its fall in a
powered state, PARK included, is a power failure unless PARK itself has the rails removed, and 100 ms later a cold boot with cause 1 begins; the
loss of VDD_AON leaves the device unpowered. -/
def Obligations.Rails : Prop :=
  ∀ s : State,
    (s.pwr.mode = .unpowered → ∃ t, exec .vddAonPowerUp s = .next t ∧ t.pwr.mode = .rising ∧ t.pwr.pwrEnMain = true ∧ t.log = [] ∧
      t.running = [] ∧ ∀ off, t.reg off = regReset off) ∧
    (∀ straps : BitVec 2, s.pwr.mode = .rising → s.pwr.pwrEnMain = true →
      ∃ t, exec (.pwrGoodMainRise straps) s = .next t ∧ t.pwr.mode = .run ∧ t.pwr.pstate = 3 ∧ t.pwr.thermTripN = true ∧
        t.link.role = straps.toNat ∧ t.fld Reg.devStatus_ready = 1 ∧
        t.fld Reg.devStatus_resetCause = s.fld Reg.devStatus_resetCause ∧ t.running = [] ∧
        (s.log.length ≤ 1024 → ∃ l k, t.log = (s.log ++ l).drop k ∧ k ≤ l.length) ∧
        (s.pwr.wakeState = 3 → t.pwr.ramp = none) ∧
        (s.pwr.wakeState < 3 → t.pwr.ramp = some { target := s.pwr.wakeState, raising := true, waitVolt := true })) ∧
    (s.pwr.mode = .rising → s.pwr.pwrEnMain = true →
      exec .pwrGoodTimeout s = .next { s with pwr := { s.pwr with pwrEnMain := false } }) ∧
    (s.pwr.mode = .rising → exec .railRetry s = .next { s with pwr := { s.pwr with pwrEnMain := true } }) ∧
    (s.up = true ∨ s.pwr.mode = .park → s.pwr.pwrEnMain = true →
      (s.removingRails = false →
        ∃ t, exec .pwrGoodMainFall s = .next t ∧ t.pwr.mode = .rising ∧ t.pwr.pwrEnMain = false ∧ t.running = [] ∧ t.armings = [] ∧
          t.pwr.trips = s.pwr.trips ∧ t.log = s.log) ∧
      (s.removingRails = true → exec .pwrGoodMainFall s = .next s)) ∧
    (s.pwr.mode = .rising → s.pwr.pwrEnMain = false →
      ∃ t, exec .powerFailRestart s = .next t ∧ t = { s with pwr := t.pwr, regs := t.regs } ∧ t.pwr.pwrEnMain = true ∧
        t.fld Reg.devStatus_resetCause = 1) ∧
    (∃ t, exec .vddAonLoss s = .next t ∧ t.pwr.mode = .unpowered ∧ t.pwr.pwrEnMain = false ∧ t.running = [])

/-! ### Resets and the boot (R439 to R449, R455) -/

/-- R439 to R441: each cause of a device reset (PERST_N, a hot reset, DEV_RESET with its key, a watchdog expiry) boots the device in P3
with its cause shown and `ready` set, nothing in execution, no arming, every byte of T0, T1 and queue memory 0 and clean, the flash bytes
kept, every context's queues empty and the clock at 0; a watchdog expiry counts, and adds to the streak of the slot that was booted.
R441, R442: DEV_RESET without its key does nothing. -/
def Obligations.DeviceReset : Prop :=
  (∀ (straps : BitVec 2) (s : State), s.up = true →
     let booted := fun (t : State) (cause : Nat) =>
       t.fld Reg.devStatus_resetCause = cause ∧ t.fld Reg.devStatus_ready = 1 ∧ t.pwr.mode = .run ∧ t.pwr.pstate = 3 ∧
       t.link.role = straps.toNat ∧ t.running = [] ∧ t.armings = [] ∧ t.time.ns = 0 ∧ t.pending = s.pending ∧
       (∀ c e, t.queue c e = { head := 0, phase := true, dec := .idle }) ∧
       (∀ idx off, idx < 2 ^ 18 → off < 2 ^ 42 → t.peek (kT0 idx off) = (0, false) ∧ t.peek (kT1 idx off) = (0, false)) ∧
       (∀ c e slot off, slot < 4096 → off < 64 → t.peek (kQueue c e slot off) = (0, false)) ∧
       (∀ page off, page < 2 ^ 29 → off < 16384 → SMap.get 0 t.mem (kFlash page off) = SMap.get 0 s.mem (kFlash page off))
     (∃ t, exec (.perstNAssert straps) s = .next t ∧ booted t 2) ∧
     (∃ t, exec (.hotReset straps) s = .next t ∧ booted t 3) ∧
     (∀ v : W64, v.setWidth 16 = (0x6B1D : BitVec 16) → ∃ t, exec (.devReset v straps) s = .next t ∧ booted t 4) ∧
     (s.sec.state = 2 → ∃ t, exec (.watchdogExpiry straps) s = .next t ∧ booted t 5 ∧
       t.sec.expiries = min 65535 (s.sec.expiries + 1) ∧
       (s.sec.slot = false → t.sec.streakA = min 3 (s.sec.streakA + 1) ∧ t.sec.streakB = s.sec.streakB) ∧
       (s.sec.slot = true → t.sec.streakB = min 3 (s.sec.streakB + 1) ∧ t.sec.streakA = s.sec.streakA))) ∧
  (∀ (v : W64) (straps : BitVec 2) (s : State), v.setWidth 16 ≠ (0x6B1D : BitVec 16) → exec (.devReset v straps) s = .next s)

/-- R408, R439, R448: PERST_N released in OFF by an enabled wake source starts the cold boot, and elsewhere only releases the pin, with the
reference clock running by the standard (assumption 62); 10 s without a watchdog expiry set SEC_BOOT.ok and clear the booted slot's streak.
R446, R449: in RECOVERY a write of SEC_RECOV.go verifies the buffer and posts the result; an image that passes is booted from the
buffer, and after one that fails the device stays in RECOVERY; its reads of the buffer count as R385 says, and change nothing else. -/
def Obligations.BootEvents : Prop :=
  (∀ s : State,
     let released : State := { s with pwr := { s.pwr with perst := false }, pcie := { s.pcie with refClk := true } }
     (s.pwr.mode ≠ .off → exec .perstNDeassert s = .next released) ∧
     (s.pwr.mode = .off → s.pwr.perst = true → s.flag Reg.pwrWakeEn_pcie = true → s.pwr.thermTripN = true → s.pwr.heldWake = false →
       s.pwr.entry = none → s.pwr.exiting = false → s.pwr.wakeSeen = none →
       ∃ t, exec .perstNDeassert s = .next t ∧ t = { released with pwr := t.pwr, regs := t.regs } ∧ t.pwr.mode = .rising ∧
         t.pwr.pwrEnMain = true ∧ t.fld Reg.devStatus_resetCause = 1 ∧ t.fld Reg.pwrLastWake_source = 2) ∧
     (s.sec.state = 2 → ∃ t, exec .bootOkTimer s = .next t ∧ t = { s with sec := t.sec } ∧ t.sec.ok = true ∧
       (s.sec.slot = false → t.sec.streakA = 0 ∧ t.sec.streakB = s.sec.streakB) ∧
       (s.sec.slot = true → t.sec.streakB = 0 ∧ t.sec.streakA = s.sec.streakA))) ∧
  (∀ s : State, s.sec.state = 3 →
     ∃ t, exec .recoveryVerify s = .next t ∧
       t = { s with sec := t.sec, regs := t.regs, log := t.log, logNext := t.logNext, pcie := t.pcie, pwr := t.pwr, out := t.out } ∧
       (s.bch = [] → t = { s with sec := t.sec, regs := t.regs }) ∧
       t.sec.recovResult = verifyMarked s.sec s.recovByte s.recovPoison recovHdr ∧
       (t.sec.recovResult = 1 → t.sec.state = 4 ∧ t.fld Reg.devStatus_ready = 1 ∧
         t.sec.version = BitVec.ofNat 32 (imgNum s.recovByte (recovHdr + 8) 4)) ∧
       (t.sec.recovResult ≠ 1 → t.sec.state = 3 ∧ (∀ off, off ≠ Reg.telEcc → t.reg off = s.reg off) ∧ (s.bch = [] → t.regs = s.regs)))

/-! ### The PCI Express side (R428, R436 to R440) -/

/-- R438: the loss of the link. With VF Enable clear, the endpoint's MSI-X tables return to reset, DEV_STATUS.link_downs rises, and the rest
of the device keeps running: nothing but the endpoint and that register changes, but that R269 a migration operation in progress that uses host
memory will end with TIER_FAULT, and that reads by the host that wait are gone with their completions.
R197, R438: the return of the link, with the endpoint's domain on. With nothing waiting only the link changes; the completion record that waited
for the link is written at the ring's tail in host memory, and the tail moves on. -/
def Obligations.LinkDownAndUp : Prop :=
  (∀ s : State, s.pcie.linkUp = true → s.pcie.vfEn = false →
     ∃ t, exec .linkDown s = .next t ∧ t = { s with pcie := t.pcie, regs := t.regs, mig := t.mig, aptWait := s.aptWait.filter HostAcc.posted } ∧
       t.pcie.linkUp = false ∧ t.pcie.vfEn = false ∧ t.pcie.numVfs = 0 ∧ t.pcie.held = 0xFFFF ∧
       (∀ (fn : Fin 16) (i : Nat), i < 256 → t.msixWord fn i = State.reset.msixWord fn i) ∧
       t.fld Reg.devStatus_linkDowns = min 65535 (s.fld Reg.devStatus_linkDowns + 1) ∧
       (∀ off, off ≠ Reg.devStatus → t.reg off = s.reg off) ∧
       t.mig = s.mig.map (fun m => if m.report = none ∧ (∃ i, m.obj = some i ∧ m.usesHost (s.obj i) = true)
         then { m with report := some .tierFault } else m)) ∧
  (∀ (gen width : Nat) (s : State), s.up = true → s.pwr.perst = false → s.pcie.linkUp = false → s.gated epDom = false → s.migWait = [] →
     s.pcie.pend = [] → (∀ c, (s.ctx c).tailBuf = [] ∧ (s.ctx c).resetBusy = false) →
     ((∀ c, (s.ctx c).cbuf = []) →
       ∃ t, exec (.pcieLinkUp gen width) s = .next t ∧
         t = { s with pcie := { s.pcie with linkUp := true, refClk := true, gen := gen, width := width } }) ∧
     (∀ (c : CtxId) (r : CplRec), (s.ctx c).cbuf = [r] → (∀ d, d ≠ c → (s.ctx d).cbuf = []) → s.cqFull c = false → r.irq = false →
       ∃ t, exec (.pcieLinkUp gen width) s = .next t ∧ t.pcie.linkUp = true ∧ (t.ctx c).cbuf = [] ∧
         (t.ctx c).cqTail = (ringNext (s.cqSize c) (s.ctx c).cqTail (s.ctx c).cqLap).1 ∧
         (∀ i b, (r.bytes (!(s.ctx c).cqLap))[i]? = some b →
           SMap.find? t.hostMem ((s.reg (ctxBase c + Reg.ctxCqBase)).toNat / 256 * 256 + 32 * (s.ctx c).cqTail + i) = some b) ∧
         (∀ d, d ≠ c → t.ctx d = s.ctx d) ∧ t.regs = s.regs ∧ t.mem = s.mem))

/-- R440: a function-level reset of virtual function n that holds its context: the context and every register of its page are as at reset,
and so is the function's MSI-X table; no other context's page changes.
R428: setting VF Enable resets the contexts that pass, here with none of their commands in execution; clearing it resets the contexts
that return, and drops and counts their ABORTED records. -/
def Obligations.VirtualFunctions : Prop :=
  (∀ (n : Fin 16) (s : State), n ≠ 0 → s.vfHolds n = true → s.saving n = false →
     ∃ t, exec (.vfFlr n) s = .next t ∧ t.ctx n = {} ∧ (∀ o, o < 0x10000 → t.reg (ctxBase n + o) = regReset (ctxBase n + o)) ∧
       (∀ i, i < 256 → t.msixWord n i = State.reset.msixWord n i) ∧
       (∀ a ∈ t.armings, a.ctx ≠ n) ∧ t.pcie.vfEn = s.pcie.vfEn ∧
       (∀ (d : CtxId) (o : Nat), d ≠ n → o < 0x10000 → t.reg (ctxBase d + o) = s.reg (ctxBase d + o))) ∧
  ((∀ (num : Fin 16) (s : State), s.pcie.vfEn = false →
     (∀ c, 1 ≤ c.val → c.val ≤ num.val → (s.ctx c).resetBusy = false ∧ (s.ctx c).cbuf = [] ∧ s.inExecution c = []) →
     ∃ t, exec (.vfEnableSet num) s = .next t ∧ t.pcie.vfEn = true ∧ t.pcie.numVfs = num.val ∧
       (∀ c, t.vfHolds c = (decide (1 ≤ c.val) && decide (c.val ≤ num.val))) ∧
       ∀ c e, 1 ≤ c.val → c.val ≤ num.val → t.queue c e = { head := 0, phase := true, dec := .idle }) ∧
   (∀ s : State, s.pcie.vfEn = true → (∀ c, s.vfHolds c = true → (s.ctx c).resetBusy = false ∧ (s.ctx c).cbuf = []) →
     ∃ t, exec .vfEnableClear s = .next t ∧ t.pcie.vfEn = false ∧ (∀ c, t.vfHolds c = false) ∧
       ∀ c e, s.vfHolds c = true → t.queue c e = { head := 0, phase := true, dec := .idle } ∧
         t.fld (Reg.ctxReqStat_dropped.at c) = min 65535 (s.inExecution c).length))

/-- R440: "A PF FLR leaves every device-block register unchanged": VF Enable is cleared, every context and every function's MSI-X table is
as at reset, and every stored device-block register keeps its value. -/
def Obligations.PfFunctionReset : Prop :=
  ∀ s : State,
    ∃ t, exec .pfFlr s = .next t ∧ t.pcie.vfEn = false ∧ t.pcie.numVfs = 0 ∧ (∀ c, t.ctx c = {}) ∧
      (∀ (fn : Fin 16) (i : Nat), i < 256 → t.msixWord fn i = State.reset.msixWord fn i) ∧
      (∀ off, off < 0x1000000 → t.reg off = s.reg off)

/-- R437: clearing a vector's mask bit sends its pending message, and so does clearing the Function Mask for a vector that is not masked;
nothing but the MSI-X state changes.
R269, R388: a host-memory read that gets no completion: the migration's PROMOTE will end with TIER_FAULT; the stream's tile carries the
fault and no further tile of the arming will be issued; the reads of a command in execution, which the model names by slot numbers from 65,536
on (assumption 42), are lost to it, and where none such is in execution the next read under that number is; nothing else changes. -/
def Obligations.MsixAndTimeouts : Prop :=
  (∀ (fn : Fin 16) (v : Fin 128) (s : State), s.hostUp = true → s.pcie.d3.getLsbD fn.val = false →
     SMap.get false s.pcie.pend (fn.val * 128 + v.val) = true →
     (s.pcie.held.getLsbD fn.val = false →
       ∃ t, exec (.msixUnmask fn (some v)) s = .next t ∧ t = { s with pcie := t.pcie, out := t.out } ∧
         t.out = s.out ++ [.msix fn v.val] ∧ t.vecMasked fn v.val = false ∧ SMap.get false t.pcie.pend (fn.val * 128 + v.val) = false) ∧
     (s.vecMasked fn v.val = false →
       ∃ t, exec (.msixUnmask fn none) s = .next t ∧ t = { s with pcie := t.pcie, out := t.out } ∧ .msix fn v.val ∈ t.out ∧
         t.pcie.held.getLsbD fn.val = false ∧ SMap.get false t.pcie.pend (fn.val * 128 + v.val) = false)) ∧
  ((∀ (c : CtxId) (e : Engine) (slot off i : Nat) (id : BitVec 8) (m : MigReq) (s : State), m ∈ s.mig → m.ctx = c → m.id = id.toNat →
     m.started = true → m.charged = true → m.report = none → m.obj = some i → (s.obj i).home = 3 → (s.obj i).t3Peer = false →
     (m.tier = 0 → (s.obj i).cp1 = false) →
     ∃ t, exec (.pcieCompletionTimeout c e slot off (some id)) s = .next t ∧ t = { s with mig := t.mig } ∧
       { m with report := some .tierFault } ∈ t.mig) ∧
   (∀ (c : CtxId) (e : Engine) (slot off : Nat) (a : Arming) (f : Flight) (s : State), slot < 65536 → s.armings = [a] →
     a.at c e slot = true → a.flight = [f] → f.host = true → f.fault = none →
     ∃ t, exec (.pcieCompletionTimeout c e slot off none) s = .next t ∧ t = { s with armings := t.armings, regs := t.regs } ∧
       ∃ b g, t.armings = [b] ∧ b.flight = [g] ∧ g.tile = f.tile ∧ g.fault = some .tierFault ∧ g.data.take off = f.data.take off ∧
         (∀ x ∈ g.data.drop off, x.2 = true) ∧ b.dead.isSome = true) ∧
   (∀ (c : CtxId) (e : Engine) (slot off : Nat) (s : State),
     (∀ x, s.running = [x] → x.ctx = c → x.eng = e → x.slot = slot →
       exec (.pcieCompletionTimeout c e (65536 + slot) off none) s = .next { s with running := [{ x with hostLost := true }] }) ∧
     ((∀ x ∈ s.running, ¬(x.ctx = c ∧ x.eng = e ∧ x.slot = slot)) →
       exec (.pcieCompletionTimeout c e (65536 + slot) off none) s =
         .next { s with pcie := { s.pcie with lostReads := (c, e, slot) :: s.pcie.lostReads } })))

/-! ### The command path (chapter 7) and Exact mode (R336) -/

/-- R182, R184, R431 to R433: a clean write through BAR2 by the physical function into a queue window it reaches stores its bytes in the
queue memory and changes no other byte; outside the touched words every byte reads as before.
R25, R432: behind accesses of its function that wait, a write through BAR2 and a register write wait too, and take effect
once the domain is ready (the queue that waits is the model's form of it, assumption 90). -/
def Obligations.QueueEntryWrite : Prop :=
  (∀ (c : CtxId) (e : Engine) (o : Nat) (data : List Byte) (s : State), s.serving → s.pwr.entry = none → s.vfHolds c = false →
    (s.ctx c).resetBusy = false → o < 0x40000 → o % 4096 + data.length ≤ 4096 →
    ∃ t, exec (.queueEntryWrite 0 ((4 * c.val + e.code.val) * 0x40000 + o) data false) s = .next t ∧
      t = { s with mem := t.mem, poison := t.poison, bch := t.bch } ∧
      (∀ i b, data[i]? = some b → SMap.get 0 t.mem (kQueue c e 0 o + i) = b) ∧
      (∀ k, (k < kQueue c e 0 o ∨ kQueue c e 0 o + data.length ≤ k) → SMap.get 0 t.mem k = SMap.get 0 s.mem k) ∧
      (∀ k, (k / 8 < kQueue c e 0 o / 8 ∨ (kQueue c e 0 o + data.length - 1) / 8 < k / 8) → t.peek k = s.peek k)) ∧
  (∀ (fn : Fin 16) (off size : Nat) (v : W64) (data : List Byte) (ep : Bool) (s : State), s.barsOpen fn = true → s.hostBehind fn = true →
    exec (.queueEntryWrite fn off data ep) s = .next { s with aptWait := s.aptWait ++ [.queue fn off data ep] } ∧
    exec (.registerWrite (.fn fn) off size v ep) s = .next { s with aptWait := s.aptWait ++ [.reg fn off size v ep] }) ∧
  (∀ (d : BitVec 7) (fn : Fin 16) (off : Nat) (data : List Byte) (ep : Bool) (s : State), d.toNat < 108 → s.dom d.toNat = .waking true →
    s.aptWait = [.queue fn off data ep] → { s with aptWait := [] }.calm →
    exec (.domainWakeReady d) s = .next (({ s with aptWait := [] }.setDom d.toNat .on).queueLand fn off data ep))

/-- R184, R189, R192, R204: the head entry of an enabled queue that is valid and clean, and whose tag is new beside that of its own earlier
decode, is admitted to its request and held; it will run if it passes the checks of the header and its engine, and is rejected with the
status and detail of the failed check if not. No memory, no register and no other context changes; and nothing but the context, unless the
head was set aside before, whose earlier decode then leaves its request. -/
def Obligations.QueueEntryDecode : Prop :=
  ∀ (c : CtxId) (e : Engine) (s : State), s.qEn c e = true → (s.ctx c).resetBusy = false → (s.queue c e).dec = .idle →
    (∀ i, i < 8 → s.wordErr (kQueue c e (s.queue c e).head (8 * i)) = 0 ∧
      (s.peekWord (kQueue c e (s.queue c e).head (8 * i))).2 = false) →
    let w : Entry := (s.slotWords c e).map Prod.fst
    let u := s.setQueue c e { s.queue c e with aside := none }
    wBit (w.word 7) 0 = (s.queue c e).phase → (w.tag = 0 ∨ (s.window c w.tag = none ∧ u.tagLive c w.tag = false)) →
    (s.openReq c w.reqNum = none ∧ (s.ctx c).reqs.length < 1024) ∨
      (∃ r, s.openReq c w.reqNum = some r ∧ r.aborting = false) →
    ∃ t, exec (.queueEntryDecode c e) s = .next t ∧ t.mem = s.mem ∧ t.regs = s.regs ∧ t.running = s.running ∧
      (∀ d, d ≠ c → t.ctx d = s.ctx d) ∧ (t.queue c e).head = (s.queue c e).head ∧
      (u.decodeCheck c e (u.bindNow c w.reqNum) w = none → (t.queue c e).dec = .held w (s.waitMet c w) .run) ∧
      (∀ r, u.decodeCheck c e (u.bindNow c w.reqNum) w = some r → (t.queue c e).dec = .held w (s.waitMet c w) (.reject r)) ∧
      ((s.queue c e).aside = none → t = { s with ctxs := t.ctxs } ∧ (t.openReq c w.reqNum).isSome = true)

/-- R31, R183, R186: a hand-over. The command that the share table picks starts on its engine as a command in execution with the words of
its entry, and its queue's head passes to the next slot, past slot 4,095 with the phase inverted; a TABLE_LOAD keeps its queue's head, and the
value of CTX_STEP at its start with it (R332).
R211: a pass that finds no command latches the share table it passed, and changes nothing else. -/
def Obligations.CommandHandover : Prop :=
  (∀ (e : Engine) (j : Nat) (c : CtxId) (w : Entry) (s1 s : State), s.cfeHands = true →
     s.shareFind e 64 (s.shareAt.getD e.code.val 0) = (s1, some (j, c, w)) → (s.ctx c).exactReq = false →
     let s2 : State := { s with shareTab := s1.shareTab, shareAt := s.shareAt.set e.code.val ((j + 1) % 64) }
     s2.workReady (engineDoms e) (fun s => s.handTo c e w) →
     (¬ (e = .tmv ∧ w.opcode = 0x11) →
       ∃ t, exec (.commandHandover e) s = .next t ∧
         (∃ x ∈ t.running, x.ctx = c ∧ x.eng = e ∧ x.slot = (s.queue c e).head ∧ x.words = w) ∧
         t.queue c e = { head := ((s.queue c e).head + 1) % 4096,
                         phase := if (s.queue c e).head = 4095 then !(s.queue c e).phase else (s.queue c e).phase, dec := .idle }) ∧
     (e = .tmv ∧ w.opcode = 0x11 →
       ∃ t, exec (.commandHandover e) s = .next t ∧
         t.queue c e = { s.queue c e with dec := .loading w false none, step := s.reg (ctxBase c + Reg.ctxStep) } ∧
         t.running = s.running ∧ t.mem = s.mem)) ∧
  (∀ (e : Engine) (s1 s : State), s.cfeHands = true → s.shareFind e 64 (s.shareAt.getD e.code.val 0) = (s1, none) →
     exec (.commandHandover e) s = .next { s with shareTab := s1.shareTab })

/-- R195, R197, R199: the completion of a command that has a result, writes no Tail entry, has no fill entries and signals no system counter,
with room in the ring and host memory within reach: it leaves execution, its record stands at the ring's tail in host memory with the ring's
phase, the tail moves on, and the context counter it signals rises by its increment. -/
def Obligations.CommandComplete : Prop :=
  ∀ (c : CtxId) (e : Engine) (x : Exec) (r : Report) (s : State),
    s.running.find? (fun y => decide (y.ctx = c) && decide (y.eng = e) && decide (y.fillOf = none)) = some x →
    x.result = some r → x.dupOf = none → s.fillExecs x = [] → s.writesOut x = false → s.tails x r = false →
    Entry.signalsSys x.words = false → s.pcie.flrWait = 0 → (s.ctx c).cbuf = [] → s.cqFull c = false → s.hostUp = true →
    s.pwr.stall = [] → s.link.missing = [] →
    let rec_ : CplRec := { tag := Entry.tag x.words, status := r.status, tolerant := r.tolerant, rerun := r.rerunWide, engine := e,
                           slot := x.slot % 4096, layerId := Entry.layerId x.words, detail := min 0xFFFF r.detail, time := s.time.ns,
                           firstStatus := r.status, irq := Entry.irq x.words }
    ∃ t, exec (.commandComplete c e) s = .next t ∧ x ∉ t.running ∧ t.mem = s.mem ∧
      (∀ i b, (rec_.bytes (!(s.ctx c).cqLap))[i]? = some b →
        SMap.find? t.hostMem ((s.reg (ctxBase c + Reg.ctxCqBase)).toNat / 256 * 256 + 32 * (s.ctx c).cqTail + i) = some b) ∧
      ((t.ctx c).cqTail, (t.ctx c).cqLap) = ringNext (s.cqSize c) (s.ctx c).cqTail (s.ctx c).cqLap ∧
      (Entry.sigInc x.words 1 = 0 → t.syncVal c (Entry.sigIdx x.words 0) =
        s.syncVal c (Entry.sigIdx x.words 0) + BitVec.ofNat 32 (Entry.sigInc x.words 0))

/-- R196, R210, R342: the ring heads that software writes. A CTX_CQ_HEAD inside the ring is taken, one beyond the tail changes nothing but
the log; CTX_TAIL_HEAD is taken, one beyond the tail too, which is the model's choice (assumption 64); with nothing buffered no other register
and no memory changes.
R198: a counted record that has waited the configured time sends its ring's message, and the pending count returns to 0. -/
def Obligations.RingHeadsAndTimer : Prop :=
  (∀ (c : CtxId) (v : W64) (s : State),
     (wBits v 0 16 < s.cqSize c → ringUsed (s.cqSize c) (s.ctx c).cqTail (s.ctx c).cqLap (wBits v 0 16) (v.getLsbD 16) ≤ s.cqSize c →
       (s.ctx c).cbuf = [] → (s.ctx c).resetBusy = false →
       ∃ t, exec (.cqHeadWrite c v) s = .next t ∧ t = { s with regs := t.regs } ∧ t.fld (Reg.ctxCqHead_head.at c) = wBits v 0 16 ∧
         t.flag (Reg.ctxCqHead_lap.at c) = v.getLsbD 16 ∧ ∀ off, off ≠ ctxBase c + Reg.ctxCqHead → t.reg off = s.reg off) ∧
     (s.cqSize c < ringUsed (s.cqSize c) (s.ctx c).cqTail (s.ctx c).cqLap (wBits v 0 16) (v.getLsbD 16) →
       ∃ t, exec (.cqHeadWrite c v) s = .next t ∧ t = { s with log := t.log, logNext := t.logNext, pcie := t.pcie, pwr := t.pwr, out := t.out } ∧
         ∃ l, t.log.getLast? = some l ∧ l.src = 6 ∧ l.code = 1 ∧ l.ctx = some c) ∧
     ((s.ctx c).tailBuf = [] →
       ∃ t, exec (.tailHeadWrite c v) s = .next t ∧ t = { s with regs := t.regs } ∧ t.fld (Reg.ctxTailHead_head.at c) = wBits v 0 20 ∧
         t.flag (Reg.ctxTailHead_lap.at c) = v.getLsbD 20 ∧ ∀ off, off ≠ ctxBase c + Reg.ctxTailHead → t.reg off = s.reg off)) ∧
  (∀ (c : CtxId) (s : State), 0 < (s.ctx c).irqPending → s.flag (Reg.ctxCqIrq_en.at c) = true →
     s.fld (Reg.ctxCqIrq_timer.at c) ≠ 0 → s.fld (Reg.ctxCqIrq_vector.at c) < 128 → s.hostUp = true →
     s.vecMasked (s.owner c) (s.fld (Reg.ctxCqIrq_vector.at c)) = false → s.pcie.held.getLsbD (s.owner c).val = false →
     s.pcie.d3.getLsbD (s.owner c).val = false →
     ∃ t, exec (.msixTimerExpiry c) s = .next t ∧ t = { s with ctxs := t.ctxs, out := t.out } ∧ (t.ctx c).irqPending = 0 ∧
       t.out = s.out ++ [.msix (s.owner c) (s.fld (Reg.ctxCqIrq_vector.at c))] ∧ ∀ d, d ≠ c → t.ctx d = s.ctx d)

/-- R184, R245, R442: a write of the queue enables sets aside the held heads of the queues it disables and leaves head and phase; setting a
bit while a CTX_SAVE or CTX_RESTORE of the context runs is undefined, and the model stops there. DEV_CTX_CTL op 1 clears every bit. -/
def Obligations.QueueEnables : Prop :=
  ∀ (c : CtxId) (v : W64) (s : State),
    let keeps := fun (t : State) (new : Nat) =>
      t.fld (Reg.ctxCtrl_qEn.at c) = new ∧ t.mem = s.mem ∧ t.running = s.running ∧
      ∀ e, (t.queue c e).head = (s.queue c e).head ∧ (t.queue c e).phase = (s.queue c e).phase ∧
        (s.qEn c e = true → Nat.testBit new e.code = false → ∀ w r f, (s.queue c e).dec = .held w r f → (t.queue c e).dec = .idle)
    (s.saving c = false → ∃ t, exec (.queueEnableWrite c v) s = .next t ∧ keeps t (wBits v 4 4)) ∧
    (s.saving c = true → wBits v 4 4 &&& (15 - s.fld (Reg.ctxCtrl_qEn.at c)) ≠ 0 →
      exec (.queueEnableWrite c v) s = .fault .undefinedUnderSave) ∧
    (∃ t, exec (.devCtxQueueDisable c) s = .next t ∧ keeps t 0)

/-- R206, R440, R442: a context reset with nothing of the context in execution completes at once: its queues start at slot 0 with phase 1,
its counters, requests and window are empty, its queue memory is 0, and it holds no arming; with commands in execution and the link down
their ABORTED records wait and the reset is in progress, and the time limit then drops them, counts them and completes the reset. -/
def Obligations.ContextReset : Prop :=
  ∀ (c : CtxId) (s : State), (s.ctx c).resetBusy = false →
    let done := fun (t : State) => (t.ctx c).resetBusy = false ∧ (∀ e, t.queue c e = { head := 0, phase := true, dec := .idle }) ∧
      (t.ctx c).sync = [] ∧ (t.ctx c).reqs = [] ∧ (t.ctx c).dup = [] ∧
      ∀ e slot off, slot < 4096 → off < 64 → t.peek (kQueue c e slot off) = (0, false)
    let begun := fun (t : State) => (∀ a ∈ t.armings, a.ctx ≠ c) ∧ (∀ x ∈ t.running, x.ctx ≠ c) ∧ (t.ctx c).exactReq = false
    (s.inExecution c = [] → (s.ctx c).cbuf = [] →
      (∃ t, exec (.contextReset c) s = .next t ∧ done t ∧ begun t) ∧ (∃ t, exec (.devCtxReset c) s = .next t ∧ done t ∧ begun t)) ∧
    (s.inExecution c ≠ [] → (s.ctx c).cbuf = [] → s.pcie.linkUp = false →
      ∃ t u, exec (.contextReset c) s = .next t ∧ begun t ∧ (t.ctx c).resetBusy = true ∧
        (t.ctx c).cbuf = (s.inExecution c).map (fun x => abortedRec x.2.2 x.1 x.2.1 2 s.time.ns) ∧
        exec (.abortedRecordDropTimeout c) t = .next u ∧ done u ∧ (u.ctx c).cbuf = [] ∧
        u.fld (Reg.ctxReqStat_dropped.at c) = min 65535 (s.inExecution c).length)

/-- R205: an abort puts the abort in force for the open requests it names and turns their held legal heads to ABORTED; nothing outside the
context changes, and no other request. -/
def Obligations.Aborts : Prop :=
  ∀ (c : CtxId) (q : BitVec 48) (r : Request) (s : State), s.openReq c q.toNat = some r →
    let aborted := fun (t : State) => t = { s with ctxs := t.ctxs } ∧ (∀ d, d ≠ c → t.ctx d = s.ctx d) ∧
      t.openReq c q.toNat = some { r with aborting := true } ∧
      ∀ e w rel, (s.queue c e).dec = .held w rel .run → Entry.reqNum w = q.toNat → (t.queue c e).dec = .held w rel .abort
    (∃ t, exec (.abortRequest c q) s = .next t ∧ aborted t ∧ ∀ n, n ≠ q.toNat → t.openReq c n = s.openReq c n) ∧
    (∃ t, exec (.abortAll c) s = .next t ∧ aborted t)

/-- R188, R199, R201: a write of CTX_SYNC_ADD adds to its counter modulo 2^32 and a write of CTX_SYNCn sets it. A held head that waits on
the counter is released exactly when (counter value − wait_target) mod 2^32 is less than 2^31, and a command with wait_en = 0 at its decode; no
other counter changes. A write of a system counter sets that counter only, by the same release rule, and on a Planet it goes down every
downstream link; on a Moon the write is ignored. -/
def Obligations.SyncCounters : Prop :=
  ∀ (c : CtxId) (n : Fin 256) (v : W64) (s : State),
    let only := fun (t : State) (m : Nat) (x : BitVec 32) => t = { s with ctxs := t.ctxs } ∧ t.syncVal c m = x ∧
      (∀ d k, (d ≠ c ∨ k ≠ m) → t.syncVal d k = s.syncVal d k) ∧
      ∀ e w f, (s.queue c e).dec = .held w false f → Entry.waitEn w = true → Entry.waitSys w = false → Entry.waitIdx w = m →
        (t.queue c e).dec = .held w (decide ((x - Entry.waitTarget w).toNat < 2 ^ 31)) f
    (∃ t, exec (.syncAdd c v) s = .next t ∧ only t (wBits v 0 8) (s.syncVal c (wBits v 0 8) + BitVec.ofNat 32 (wBits v 32 32))) ∧
    (∃ t, exec (.syncCounterWrite c n v) s = .next t ∧ only t n.val (v.setWidth 32)) ∧
    (s.isMoon = true → exec (.systemCounterWrite n v) s = .next s) ∧
    (s.isMoon = false →
      ∃ t, exec (.systemCounterWrite n v) s = .next t ∧ State.sent { s with sysCnt := t.sysCnt, ctxs := t.ctxs } t ∧
        (s.isPlanet = false → t = { s with sysCnt := t.sysCnt, ctxs := t.ctxs }) ∧
        (s.isPlanet = true → ∀ q ∈ s.downstream, t.carries q (syncValMsg n.val (v.setWidth 32))) ∧
        SMap.get 0 t.sysCnt n.val = v.setWidth 32 ∧ (∀ k, k ≠ n.val → SMap.get 0 t.sysCnt k = SMap.get 0 s.sysCnt k) ∧
        (∀ d k, t.syncVal d k = s.syncVal d k) ∧
        ∀ e w f, (s.queue c e).dec = .held w false f → Entry.waitEn w = true → Entry.waitSys w = true → Entry.waitIdx w = n.val →
          (t.queue c e).dec = .held w (decide ((v.setWidth 32 - Entry.waitTarget w).toNat < 2 ^ 31)) f) ∧
    (∀ w, Entry.waitEn w = false → s.waitMet c w = true)

/-- R336: entry into Exact mode and exit from it. A request while another context's stands is refused; the request stands otherwise; with no
command in execution the context becomes active, and after the request is withdrawn and its commands are done it is inactive. Nothing but the
context's Exact bits and the waking of domains changes. -/
def Obligations.ExactMode : Prop :=
  ∀ (c : CtxId) (s : State),
    let bits := fun (t : State) (req act ref : Bool) => (∀ d, d ≠ c → t.ctx d = s.ctx d) ∧
      t.ctx c = { s.ctx c with exactReq := req, exactActive := act, exactRefused := ref }
    (∀ d, d ≠ c → (s.ctx d).exactReq = true →
      ∃ t, exec (.exactEnter c) s = .next t ∧ t = { s with ctxs := t.ctxs } ∧ bits t false (s.ctx c).exactActive true) ∧
    ((∀ d, d ≠ c → (s.ctx d).exactReq = false) → s.pwr.entry = none →
      ∃ t, exec (.exactEnter c) s = .next t ∧ t = { s with ctxs := t.ctxs, pwr := t.pwr } ∧ bits t true (s.ctx c).exactActive false ∧
        ∀ k, k < 93 → t.dom k ≠ .clockGated ∧ t.dom k ≠ .powerGated) ∧
    ((s.ctx c).exactReq = true → (∀ d, (s.ctx d).exactActive = false ∧ s.execCount d = 0) →
      ∃ t, exec (.exactActivate c) s = .next t ∧ t = { s with ctxs := t.ctxs } ∧ bits t true true (s.ctx c).exactRefused) ∧
    (∃ t, exec (.exactExit c) s = .next t ∧ t = { s with ctxs := t.ctxs } ∧ bits t false (s.ctx c).exactActive false) ∧
    ((s.ctx c).exactActive = true → (s.ctx c).exactReq = false → s.execCount c = 0 →
      ∃ t, exec (.exactDeactivate c) s = .next t ∧ t = { s with ctxs := t.ctxs } ∧ bits t false false (s.ctx c).exactRefused)

/-! ### Registers and the aperture (R9, R212, R431, R435, R436) -/

/-- R9: an 8-byte write by the physical function of a register of a context's page that has no effect of its own. An RW field then reads
as written; a W1C bit reads 0 where a 1 was written and as before elsewhere; an RO field reads as before; a WO field reads 0; no other register
and nothing else changes.
R431, R212: a write to a reserved offset of a context's page is ignored; a write of CTX_CQ_BASE while records of the context wait is
undefined, and the model stops there. -/
def Obligations.RegisterWrite : Prop :=
  (∀ (c : CtxId) (o : Nat) (r : RegRow) (v : W64) (s : State), s.serving → s.vfHolds c = false → o ∈ plainPage → pageRow? o = some r →
     let raw := ctxBase c + o
     ∃ t, exec (.registerWrite (.fn 0) raw 8 v false) s = .next t ∧ t = { s with regs := t.regs } ∧
       (∀ off, off ≠ raw → t.reg off = s.reg off) ∧
       ∀ f ∈ r.fields,
         let old := wBits (s.readReg (.fn 0) raw) f.lo f.width
         let new := wBits (t.readReg (.fn 0) raw) f.lo f.width
         match f.acc with
         | .rw => new = wBits v f.lo f.width
         | .ro => new = old
         | .wo => new = 0
         | .w1c => ∀ i, i < f.width → Nat.testBit new i = (Nat.testBit old i && !(v.getLsbD (f.lo + i)))) ∧
  (∀ (c : CtxId) (o : Nat) (v : W64) (s : State), s.serving → s.vfHolds c = false →
     (o < 0x10000 → o % 8 = 0 → pageRow? o = none → exec (.registerWrite (.fn 0) (ctxBase c + o) 8 v false) s = .next s) ∧
     ((s.ctx c).cbuf ≠ [] →
       exec (.registerWrite (.fn 0) (ctxBase c + Reg.ctxCqBase) 8 v false) s = .fault .undefinedRingMove))

/-- R258, R436: the physical function's aperture on content of T0 or T1, with no write before it waiting. A read returns the bytes that the
memory delivers, where none is poisoned; a write stores its bytes at the tensor address and changes no other byte; an access that faults
counts in CTX_APT_STAT, a read with Completer Abort, and stores nothing.
R25, R401: a write that meets a gated domain stores nothing yet: it waits, and the domain wakes. -/
def Obligations.Aperture : Prop :=
  ∀ (off n : Nat) (data : List Byte) (c : CtxId) (k : Nat) (s : State), s.serving → s.pwr.entry = none → s.aptCtx 0 = (c, true) →
    aptInBar 0 off n = true → data.length = n → s.aptAddr c off + n ≤ 2 ^ 52 →
    let a := s.aptAddr c off
    let w : AptWrite := { ctx := c, addr := a, data := data.map (fun b => (b, false)), fn := 0 }
    (s.canWrite (s.hostView c) a n = true → (s.aptLand w).2 = false →
      ∃ t, exec (.apertureWrite 0 off data false) s = .next t ∧ t = { s with pwr := t.pwr, link := t.link, aptWait := [.write w] } ∧
        ∀ d, s.dom d = .clockGated → d ∈ ((s.writeBytes (s.hostView c) (.tmv, aptSlot) a w.data).1).pwr.stall → t.dom d = .waking true) ∧
    (s.awake →
      (s.readPlace (s.hostView c) a = some (.t0 k) ∨ s.readPlace (s.hostView c) a = some (.t1 k) →
        (∀ i, i < n → (s.peek (k + i)).2 = false) →
        ∃ t, exec (.apertureRead 0 off n) s = .next t ∧ t.mem = s.mem ∧ t.ctxs = s.ctxs ∧
          t.out = s.out ++ [.apertureData ((List.range n).map (fun i => (s.peek (k + i)).1)) false]) ∧
      (s.writePlace (s.hostView c) a = some (.t0 k) ∨ s.writePlace (s.hostView c) a = some (.t1 k) →
        ∃ t, exec (.apertureWrite 0 off data false) s = .next t ∧
          t = { s with mem := t.mem, poison := t.poison, bch := t.bch, objs := t.objs } ∧
          (∀ i b, data[i]? = some b → SMap.get 0 t.mem (k + i) = b) ∧
          ∀ j, (j < k ∨ k + n ≤ j) → SMap.get 0 t.mem j = SMap.get 0 s.mem j) ∧
      (s.canRead (s.hostView c) a n = false →
        ∃ t, exec (.apertureRead 0 off n) s = .next t ∧ t = { s with regs := t.regs, out := t.out } ∧ t.out = s.out ++ [.completerAbort] ∧
          t.fld (Reg.ctxAptStat_faults.at c) = min (2 ^ 32 - 1) (s.fld (Reg.ctxAptStat_faults.at c) + 1)) ∧
      (s.canWrite (s.hostView c) a n = false →
        ∃ t, exec (.apertureWrite 0 off data false) s = .next t ∧ t = { s with regs := t.regs } ∧
          t.fld (Reg.ctxAptStat_faults.at c) = min (2 ^ 32 - 1) (s.fld (Reg.ctxAptStat_faults.at c) + 1)))

/-! ### Engine commands (chapters 2 to 6, 8) -/

/-- R15, R44 to R66, R491: every VEC command in execution whose work can run at its turn reports a result, and changes nothing outside the
engine frame: no byte outside the objects of its context. -/
def Obligations.VecCommandsRun : Prop :=
  ∀ (c : CtxId) (slot : Nat) (x : Exec) (s : State),
    let runs := fun (i : Instr) (op : Nat) (f : Exec → State → State) =>
      s.canRun c .vec slot op x → s.workReady (engineDoms .vec) (f x) →
      ∃ t, exec i s = .next t ∧ t.resulted c .vec slot ∧ s.engineFrame t c
    runs (.quant c slot) 1 quantRun ∧ runs (.func c slot) 2 funcRun ∧ runs (.scaleFind c slot) 3 scaleFindRun ∧
    runs (.norm c slot) 4 (rowRun 4 normOf) ∧ runs (.softmax c slot) 5 (rowRun 5 (fun _ => softmaxRow)) ∧
    runs (.rescale c slot) 6 rescaleRun ∧ runs (.outlier c slot) 7 outlierRun ∧ runs (.random c slot) 8 randomRun ∧
    runs (.add c slot) 9 addRun

/-- R61, R62: RANDOM whose result fits in memory: with every byte of its output and header writable, it reports OK, and the image it digests
is that of the words that the seed, CTX_STEP, stream and element index give. Where output and header lie apart, each in one tensor's T0 or T1
content, the bytes of the packed elements stand at the output and those of the header before it, and no other byte changes. -/
def Obligations.RandomResult : Prop :=
  ∀ (c : CtxId) (slot : Nat) (x : Exec) (s : State), s.canRun c .vec slot 8 x → s.workReady (engineDoms .vec) (randomRun x) →
    x.early = [] → (s.running.filter (fun y => decide (y.ctx = c) && decide (y.eng = .vec) && decide (y.slot = slot))) = [x] →
    let e : Entry := x.words
    let f := (Fmt.ofCode e.vDstFmt).getD .int32
    let elems := (List.range e.vCount).map (fun i => (randomCode e x i, false))
    let o : VecOut := { addr := e.vDst, fmt := f, elems := elems, hdr := plainHdr f e.vCount e.vCh }
    ((s.touch (engineDoms .vec)).writeOuts x [o]).2 = true →
    ∃ t y, exec (.random c slot) s = .next t ∧ y ∈ t.running ∧ y.ctx = c ∧ y.eng = .vec ∧ y.slot = slot ∧ y.result = some {} ∧
      y.digest = crc64 ((packElems f elems).map Prod.fst) ∧ y.digLen = (packElems f elems).length ∧
      ∀ k h, (∀ i, i < (packElems f elems).length → s.landsAt x.view (e.vDst + i) (k + i)) →
        (∀ i, i < 64 → s.landsAt x.view (e.vDst - 64 + i) (h + i)) →
        (h + 64 ≤ k ∨ k + (packElems f elems).length ≤ h) →
        (∀ i b, (packElems f elems)[i]? = some b → SMap.get 0 t.mem (k + i) = b.1) ∧
        (∀ i b, o.hdr.bytes[i]? = some b → SMap.get 0 t.mem (h + i) = b) ∧
        ∀ j, (j < k ∨ k + (packElems f elems).length ≤ j) → (j < h ∨ h + 64 ≤ j) → SMap.get 0 t.mem j = SMap.get 0 s.mem j

/-- R79, R111: MATVEC and SCRUB in execution whose work can run report a result within the engine frame; no cell changes. -/
def Obligations.CafCommandsRun : Prop :=
  ∀ (c : CtxId) (slot : Nat) (l : List (Nat × Nat × Nat)) (x : Exec) (s : State),
    (s.canRun c .caf slot 1 x → s.workReady (engineDoms .caf) (matvecRun l x) →
      ∃ t, exec (.matvec c slot l) s = .next t ∧ t.resulted c .caf slot ∧ s.engineFrame t c) ∧
    (s.canRun c .caf slot 2 x → s.workReady (engineDoms .caf) (scrubRun l x) →
      ∃ t, exec (.scrub c slot l) s = .next t ∧ t.resulted c .caf slot ∧ s.engineFrame t c)

/-- R127, R130, R137, R143: MATMUL, with or without fill entries, and COMBINE in execution whose work can run report a result within the
engine frame; a stall episode of the running MATMUL counts in its context and on the device, and changes nothing but counters. -/
def Obligations.MxeCommandsRun : Prop :=
  (∀ (c : CtxId) (slot : Nat) (x : Exec) (s : State),
    (s.canRun c .mxe slot 1 x → s.workReady (engineDoms .mxe) (matmulRun x) →
      ∃ t, exec (.matmul c slot) s = .next t ∧ t.resulted c .mxe slot ∧ s.engineFrame t c) ∧
    (s.canRun c .mxe slot 2 x → s.workReady (engineDoms .mxe) (combineRun x) →
      ∃ t, exec (.combine c slot) s = .next t ∧ t.resulted c .mxe slot ∧ s.engineFrame t c)) ∧
  (∀ (cycles : Nat) (x : Exec) (s : State), 0 < cycles → s.running = [x] → x.eng = .mxe → x.fillOf = none → Entry.opcode x.words = 1 →
    x.words ≠ [] →
    ∃ t, exec (.operandStallEpisode cycles) s = .next t ∧ t = { s with regs := t.regs } ∧
      t.fld (Reg.ctxMxeStat_stallEpisodes.at x.ctx) = min (2 ^ 32 - 1) (s.fld (Reg.ctxMxeStat_stallEpisodes.at x.ctx) + 1) ∧
      t.fld (Reg.ctxMxeStallcyc_cycles.at x.ctx) = min (2 ^ 48 - 1) (s.fld (Reg.ctxMxeStallcyc_cycles.at x.ctx) + cycles) ∧
      t.fld Reg.mxeStallTotal_cycles = min (2 ^ 48 - 1) (s.fld Reg.mxeStallTotal_cycles + cycles))

/-- R217, R236 to R238, R30: ARM, DISARM, COPY and SLOT_TABLE in execution whose turn has come and whose work can run report a result. ARM
installs at most one arming behind those present; DISARM leaves no arming of the slot it names without a consumer; SLOT_TABLE of length 0 empties
the engine's table; COPY keeps the engine frame.
R174: COMPRESS in execution whose work can run reports a result within the engine frame. R172, R176: a TABLE_LOAD that keeps its queue's
head and whose slot is not pinned loads or clears the table and has its report, at once or after it has waited; a pinned slot makes it wait. -/
def Obligations.TmvCommandsRun : Prop :=
  (∀ (c : CtxId) (slot : Nat) (x : Exec) (s : State),
     let e : Entry := x.words
     (s.canRun c .tmv slot 1 x → s.tmvTurn x = true → s.workReady (engineDoms .tmv) (armRun x) →
       ∃ t, exec (.arm c slot) s = .next t ∧ t.resulted c .tmv slot ∧ s.engineFrame t c ∧
         ∃ l, t.armings = s.armings ++ l ∧ l.length ≤ 1) ∧
     (s.canRun c .tmv slot 2 x → s.tmvTurn x = true → s.workReady (engineDoms .tmv) (disarmRun x) →
       ∃ t, exec (.disarm c slot) s = .next t ∧ t.resulted c .tmv slot ∧ s.engineFrame t c ∧
         ∀ a ∈ t.armings, a.ctx = c → a.eng = (Engine.ofCode (e.pos 128 2)).getD .mxe →
           (e.bit 2 7 = true ∨ a.slot = e.pos 130 5) → a.consumer ≠ none) ∧
     (s.canRun c .tmv slot 3 x → s.armings.any (fun a => decide (a.ctx = c) && decide (a.consumer = some (.tmv, slot))) = true →
       s.workReady (engineDoms .tmv) (copyRun x) →
       ∃ t, exec (.copy c slot) s = .next t ∧ t.resulted c .tmv slot ∧ s.engineFrame t c) ∧
     (s.canRun c .tmv slot 4 x → s.tmvTurn x = true → s.workReady (engineDoms .tmv) (slotTableRun x) →
       ∃ t, exec (.slotTable c slot) s = .next t ∧ t.resulted c .tmv slot ∧ t.mem = s.mem ∧ (∀ d, d ≠ c → t.ctx d = s.ctx d) ∧
         (e.pos 192 13 = 0 → t.slotTab c ((Engine.ofCode (e.pos 180 2)).getD .mxe) = { ents := [] }))) ∧
  ((∀ (c : CtxId) (slot : Nat) (x : Exec) (s : State), s.canRun c .tmv slot 0x10 x → s.workReady (engineDoms .tmv) (compressRun x) →
     ∃ t, exec (.compress c slot) s = .next t ∧ t.resulted c .tmv slot ∧ s.engineFrame t c) ∧
   (∀ (c : CtxId) (w : Entry) (waiting : Bool) (s : State), (s.queue c .tmv).dec = .loading w waiting none → s.awake →
     let i : Instr := if waiting then .tableLoadUnpinned c else .tableLoad c
     (s.pinned c (w.pos 180 3) = true →
       ∃ t, exec i s = .next t ∧ t = { s with ctxs := t.ctxs } ∧ (t.queue c .tmv).dec = .loading w true none) ∧
     (s.pinned c (w.pos 180 3) = false → w.bit 2 55 = true →
       ∃ t, exec i s = .next t ∧ (t.queue c .tmv).dec = .loading w waiting (some {}) ∧ t.table c (w.pos 180 3) = none ∧
         t.mem = s.mem ∧ ∀ d, d ≠ c → t.ctx d = s.ctx d) ∧
     (s.pinned c (w.pos 180 3) = false → s.workReady (engineDoms .tmv) (fun s =>
        (s.loadTable { ctx := c, bind := s.bindOf c w, noHost := s.lostFor c .tmv (s.queue c .tmv).head } w).1) →
       ∃ t r, exec i s = .next t ∧ (t.queue c .tmv).dec = .loading w waiting (some r) ∧ t.mem = s.mem ∧
         ∀ d, d ≠ c → t.ctx d = s.ctx d)))

/-- R239 to R242, R345, R465: CTX_SAVE in execution, with no migration of its target outstanding and its Tail buffer empty, raises the save
counter by 1 and seals the target's state as it stands, and reports; CTX_RESTORE whose image reads clean and passes its seal gives the target
the saved counters, requests and duplicate window, starts its CTX_MEAS again from 0 (R457), and keeps every other context. What the seal protects
is the model's form of it (assumption 8). -/
def Obligations.SaveAndRestore : Prop :=
  ∀ (c : CtxId) (slot : Nat) (x : Exec) (s : State),
    let e : Entry := x.words
    (s.canRun c .tmv slot 5 x → s.migAll.any (fun m => decide (m.ctx = e.target)) = false → (s.ctx e.target).tailBuf = [] →
      s.workReady (engineDoms .tmv) (saveRun x) →
      ∃ t z, exec (.ctxSave c slot) s = .next t ∧ t.resulted c .tmv slot ∧ t.ctxs = s.ctxs ∧ t.sec.saveCount = s.sec.saveCount + 1 ∧
        t.sec.seals = s.sec.seals ++ [z] ∧ z.count = s.sec.saveCount + 1 ∧ z.tgt = e.target ∧ z.seed = x.keySeed ∧
        z.saved = s.imageOf e.target) ∧
    (s.canRun c .tmv slot 6 x → s.workReady (engineDoms .tmv) (restoreRun x) →
      ∃ t, exec (.ctxRestore c slot) s = .next t ∧ t.resulted c .tmv slot ∧ (∀ d, d ≠ e.target → t.ctx d = s.ctx d) ∧
        ∀ z, (s.span x.view (e.pos 128 52) (2 ^ 21)).2 = false →
          anyPoison (s.span x.view (e.pos 128 52) (2 ^ 21)).1 = false →
          s.sealFor e.target ((s.span x.view (e.pos 128 52) (2 ^ 21)).1.map Prod.fst) = some z →
          s.installsOk z.saved.installs = true →
          (t.ctx e.target).sync = z.saved.body.sync ∧ (t.ctx e.target).reqs = z.saved.body.reqs ∧
          (t.ctx e.target).dup = z.saved.body.dup ∧ (t.ctx e.target).exactReq = (s.ctx e.target).exactReq ∧
          t.sec.ctxMeas.getD e.target.val 0 = 0)

/-! ### Streams (R223, R227, R231, R335) -/

/-- R223, R227, R231: outside Exact mode the arbiter grants the arming it picks its next tile, once a peer has sent the headers and check
values it needs; a tile that has arrived joins what its slot holds, its words as R385 delivers them, their bit errors being fields of the state
that the environment sets (assumption 83); an expired deadline of the oldest attached arming with tiles to come poisons it from there on and drops
what is in flight; a refresh that delays a transfer with a DST access counts once for it.
R135, R167: an expander decodes the next block of the oldest compressed arming of its slot once the block's bytes have arrived and the
array takes them or the operand buffer has room: the 4,096 bytes that its header, record and payload give follow those decoded before, poisoned
where the block has a fault (when the array takes them is assumption 27). -/
def Obligations.StreamTransfers : Prop :=
  ((∀ (e : Engine) (waits : List Nat) (i : Nat) (aged : Bool) (a : Arming) (s : State), s.awake → s.inFlight e < 8 →
     (∀ c, (s.ctx c).exactActive = false) → s.arbitrate (s.eligibles e) waits = some (i, aged) → s.armAt i = some a →
     (s.needMeta a).link.missing = [] →
     ∃ t b, exec (.transferGrant e waits) s = .next t ∧ t.armAt i = some b ∧ b.issued = a.issued + 1 ∧
       b.flight.length = a.flight.length + 1 ∧ (∀ j, j ≠ i → t.armAt j = s.armAt j) ∧ t.mem = s.mem ∧ t.running = s.running) ∧
   (∀ (c : CtxId) (e : Engine) (slot i : Nat) (a : Arming) (f : Flight) (l : List Flight) (s : State),
     (s.slotArms c e slot).find? (fun a => !a.2.flight.isEmpty) = some (i, a) → a.flight = f :: l → s.awaits a f = false →
     a.desc.chk = false →
     ∃ t, exec (.transferRetire c e slot) s = .next t ∧
       t = { s with armings := t.armings, regs := t.regs, log := t.log, logNext := t.logNext, pcie := t.pcie, pwr := t.pwr, out := t.out } ∧
       (f.errs = [] → t = { s with armings := t.armings } ∧ throughFabric f.first f.errs f.data = f.data) ∧
       t.armAt i = some { a with flight := l, data := a.data ++ throughFabric f.first f.errs f.data } ∧ ∀ j, j ≠ i → t.armAt j = s.armAt j) ∧
   (∀ (c : CtxId) (e : Engine) (slot i : Nat) (a : Arming) (s : State),
     (s.slotArms c e slot).find? (fun a => a.2.consumer.isSome && !a.2.fetched && a.2.dead.isNone) = some (i, a) → a.desc.tileDl ≠ 0 →
     ∃ t, exec (.tileDeadlineExpiry c e slot) s = .next t ∧
       t = { s with armings := t.armings, regs := t.regs, link := { s.link with peerReqs := t.link.peerReqs } } ∧
       (∀ r ∈ t.link.peerReqs, ¬(r.stream = true ∧ r.write = false ∧ r.ctx = c ∧ r.eng = e ∧ r.slot = slot)) ∧
       t.armAt i = some { a with dead := some .tierLate, flight := [] } ∧
       t.fld (Reg.ctxTmvStat_late.at c) = min 4095 (s.fld (Reg.ctxTmvStat_late.at c) + 1)) ∧
   (∀ (i k : Nat) (a : Arming) (s : State), s.armAt i = some a → s.dstTile a = some k →
     ∃ t, exec (.dramRefresh [i]) s = .next t ∧ t = { s with armings := t.armings, regs := t.regs } ∧
       t.armAt i = some { a with tilesHit := a.tilesHit ++ [k] } ∧ (∀ j, j ≠ i → t.armAt j = s.armAt j) ∧
       (t.reg (ctxBase a.ctx + Reg.ctxDivCount)).toNat = min (2 ^ 64 - 1) ((s.reg (ctxBase a.ctx + Reg.ctxDivCount)).toNat + 1))) ∧
  (∀ (c : CtxId) (slot i : Nat) (a : Arming) (s : State), s.awake → s.decoding c slot = some (i, a) → a.blockIn = true →
     (s.arrayTakes a = true ∨ s.decodedAhead + 4096 ≤ 65536) →
     let k := s.expand a.ctx a.desc.tmask (a.data.take 16) ((a.data.drop 16).take 8) ((a.data.take (blockLen a.data)).drop 24)
     ∃ t b, exec (.blockDecode c slot) s = .next t ∧ t.armAt i = some b ∧ b.decBlk = a.decBlk + 1 ∧
       b.data = a.data.drop (blockLen a.data) ∧ b.dec = a.dec ++ k.bytes ∧ k.bytes.length = 4096 ∧
       (k.status ≠ none → ∀ x ∈ k.bytes, x.2 = true) ∧ (∀ j, j ≠ i → t.armAt j = s.armAt j) ∧
       t.mem = s.mem ∧ t.ctxs = s.ctxs)

/-! ### Migration, objects and models (chapters 9 and 11) -/

/-- R254, R260, R262, R263, R268: a request joins those outstanding as CTX_MIG_OBJ and the written word give it, and one whose id is
outstanding is dropped and counted. The engine starts the oldest request that may start, unless a quiesce stands; a PROMOTE that makes a copy
takes its charge and reference when it starts, or will end with QUOTA.
R261, R264, R267, R464: an operation that ends, and a request whose deadline passes, leaves the engine, and with host memory within reach its
result word stands there; the last holder's EVICT of a clean copy frees the copy, whose bytes read 0 from then on. -/
def Obligations.MigrationOperations : Prop :=
  ((∀ (c : CtxId) (v : W64) (s : State),
     let asks := fun (i : Instr) (op : Nat) =>
       ((∀ q ∈ s.migAll, q.ctx = c → q.id ≠ wBits v 8 8) →
         exec i s = .next { s with mig := s.mig ++ [migOf c op (s.reg (ctxBase c + Reg.ctxMigObj)) v] }) ∧
       ((∃ q ∈ s.migAll, q.ctx = c ∧ q.id = wBits v 8 8) →
         ∃ t, exec i s = .next t ∧
           t = { s with regs := t.regs, log := t.log, logNext := t.logNext, pcie := t.pcie, pwr := t.pwr, out := t.out } ∧
           t.fld (Reg.ctxMigStat_rejected.at c) = min 65535 (s.fld (Reg.ctxMigStat_rejected.at c) + 1))
     asks (.promote c v) 0 ∧ asks (.evict c v) 1 ∧ asks (.writeback c v) 2) ∧
   (∀ (m : MigReq) (s : State), s.awake → s.quiesced = false → s.cfeHands = true → s.migBusy < 64 → s.migNext [] s.mig = some m →
     (∃ t, exec .migrationOpStart s = .next t ∧ t = { s with mig := t.mig, objs := t.objs } ∧
       ∀ q ∈ t.mig, q.ctx = m.ctx → q.id = m.id → q.started = true) ∧
     (∀ i o, s.migObj m.ctx m.addr = some (i, o) → m.report = none → m.op = 0 → o.inst = false → m.allowed o = true → m.moves o = true →
       ∃ t, exec .migrationOpStart s = .next t ∧
         if s.quotaTakes m.ctx m.tier (chargeOf m.tier o.size) = true ∧ chargeOf m.tier o.size ≤ s.freePages m.tier then
           (t.obj i).hold m.tier = [m.ctx] ∧ (t.obj i).chg m.tier = m.ctx ∧ (t.obj i).busy = true ∧
             ∃ q ∈ t.mig, q.ctx = m.ctx ∧ q.id = m.id ∧ q.charged = true ∧ q.report = none
         else (t.obj i).hold m.tier = o.hold m.tier ∧ ∃ q ∈ t.mig, q.ctx = m.ctx ∧ q.id = m.id ∧ q.report = some .quota)) ∧
   (∀ s : State, s.quiesced = true → exec .migrationOpStart s = .next s)) ∧
  (∀ (c : CtxId) (id : BitVec 8) (m : MigReq) (s : State),
     let ended := fun (t : State) (st : Status) =>
       (∀ q ∈ t.mig, ¬(q.ctx = c ∧ q.id = id.toNat)) ∧
       (s.hostUp = true → ∀ i b, (leBytes 8 (MigReq.word { m with report := some st, moved := false }).toNat)[i]? = some b →
         SMap.find? t.hostMem (wBits (s.reg (ctxBase c + Reg.ctxMigRbase)) 11 53 * 2048 + 8 * id.toNat + i) = some b)
     let running := s.mig.find? (fun m => decide (m.ctx = c) && decide (m.id = id.toNat) && m.started) = some m
     (∀ st, running → m.report = some st → ∃ t, exec (.migrationOpEnd c id) s = .next t ∧ ended t st ∧ t.mem = s.mem) ∧
     (s.mig.find? (fun m => decide (m.ctx = c) && decide (m.id = id.toNat) && decide (m.dl ≠ 0)) = some m →
       ∃ t, exec (.migrationDeadline c id) s = .next t ∧ ended t .tierLate ∧ t.mem = s.mem) ∧
     (∀ i, running → m.report = none → m.obj = some i → m.op = 1 → m.tier < 2 → m.sent = false → s.awake → s.exactCtx = none →
       (s.obj i).hold m.tier = [c] → (s.obj i).dirty = false →
       ∃ t, exec (.migrationOpEnd c id) s = .next t ∧ ended t .ok ∧ (t.obj i).cp m.tier = false ∧ (t.obj i).hold m.tier = [] ∧
         ∀ off, off < (s.obj i).size * 4096 → t.peek (kTier m.tier i off) = (0, false)))

/-- R263: a PROMOTE of an object homed in T1 to T0 copies it: once it has ended, every byte of the T0 copy delivers what the home's byte
delivers, poison marks included, the copy is valid, and the home is as before. -/
def Obligations.PromoteCopiesBytes : Prop :=
  ∀ (c : CtxId) (id : BitVec 8) (m : MigReq) (i : Nat) (s : State), s.awake → s.exactCtx = none → s.bch = [] →
    s.mig.find? (fun m => decide (m.ctx = c) && decide (m.id = id.toNat) && m.started) = some m →
    m.report = none → m.obj = some i → m.op = 0 → m.tier = 0 → m.charged = true →
    (s.obj i).home = 1 → (s.obj i).cp1 = false → i < 2 ^ 18 → (s.obj i).size < 2 ^ 30 →
    ∃ t, exec (.migrationOpEnd c id) s = .next t ∧ (t.obj i).cp0 = true ∧ (t.obj i).busy = false ∧ (t.obj i).hold0 = (s.obj i).hold0 ∧
      (∀ q ∈ t.mig, ¬(q.ctx = c ∧ q.id = id.toNat)) ∧
      ∀ off, off < (s.obj i).size * 4096 → t.peek (kT0 i off) = s.peek (kT1 i off) ∧ t.peek (kT1 i off) = s.peek (kT1 i off)

/-- R253 to R257, R464: the edit banks of the physical function and of the management controller. A quiesce request is done at once with no
operation in progress, and else once the last has ended; without it CREATE, DELETE, SET_SHARE and SET_STATE answer 1 and change nothing else.
READ shows an entry, 0 for a free one; CREATE makes the entry that the words give, marking at most what it finds in the pages of banks that
lost their contents (R251), or answers its refusal; DELETE frees the entry and its upper bytes read 0; SET_SHARE and SET_STATE change their
fields and no other. That an object with copies in both T0 and T1 which SET_STATE makes writable loses the T1 copy is the model's choice
(assumption 95). -/
def Obligations.ObjectTable : Prop :=
  ∀ (who : Requester) (b : EditBank) (s : State), s.bank? who = some b →
    let o := s.obj b.idx
    let answers := fun (i : Instr) (k : Nat) => exec i s = .next (s.setBank who { b with code := k })
    let edits := fun (i : Instr) (p : Obj) =>
      ∃ t, exec i s = .next t ∧ t = { s with objs := t.objs, bankHost := t.bankHost, bankMgc := t.bankMgc } ∧
        t.bank? who = some { b with code := 0 } ∧ t.obj b.idx = p ∧ ∀ j, j ≠ b.idx → t.obj j = s.obj j
    (exec (.quiesceRequest who) s = .next (s.setBank who { b with req := true, done := b.done || decide (s.migBusy = 0) })) ∧
    (exec (.quiesceRelease who) s = .next (s.setBank who { b with req := false, done := false })) ∧
    (b.req = true → s.migBusy = 0 →
      ∃ t, exec .quiesceDone s = .next t ∧ t = { s with bankHost := t.bankHost, bankMgc := t.bankMgc } ∧
        t.bank? who = some { b with done := true }) ∧
    (o.valid = false → exec (.objRead who) s = .next (s.setBank who { b with w := [0, 0, 0, 0], code := 0 })) ∧
    (o.valid = true → s.mig = [] → exec (.objRead who) s = .next (s.setBank who { b with w := o.words false, code := 0 })) ∧
    (b.done = false → answers (.create who) 1 ∧ answers (.delete who) 1 ∧ answers (.setShare who) 1 ∧ answers (.setState who) 1) ∧
    (b.done = true → o.valid = true → answers (.create who) 4) ∧
    (s.createCode b = 0 →
      (s.pwr.lostBanks = [] → edits (.create who) (Obj.ofWords b.w)) ∧
      ∃ t, exec (.create who) s = .next t ∧
        t = { s with objs := t.objs, bankHost := t.bankHost, bankMgc := t.bankMgc, poison := t.poison, bch := t.bch, freeCtr := t.freeCtr } ∧
        t.bank? who = some { b with code := 0 } ∧ t.obj b.idx = Obj.ofWords b.w ∧ ∀ j, j ≠ b.idx → t.obj j = s.obj j) ∧
    (b.done = true → o.valid = true →
      ∃ t, exec (.delete who) s = .next t ∧ t.bank? who = some { b with code := 0 } ∧ t.obj b.idx = {} ∧
        (∀ j, j ≠ b.idx → t.obj j = s.obj j) ∧
        (∀ off, off < o.size * 4096 → t.peek (kT0 b.idx off) = (0, false) ∧ t.peek (kT1 b.idx off) = (0, false)) ∧
        ∀ k, (∀ off, off < o.size * 4096 → k ≠ kT0 b.idx off ∧ k ≠ kT1 b.idx off) → SMap.get 0 t.mem k = SMap.get 0 s.mem k) ∧
    (let w1 := b.w.getD 1 0
     let p : Obj := { o with share := BitVec.ofNat 16 (wBits w1 30 16) }
     b.done = true → o.valid = true → wBits w1 52 12 = 0 → p.stateBad = false → s.overlaps b.idx p = false → edits (.setShare who) p) ∧
    (let w0 := b.w.getD 0 0
     let p : Obj := { o with ro := w0.getLsbD 46, inst := w0.getLsbD 47 }
     b.done = true → o.valid = true → wBits w0 49 15 = 0 → p.stateBad = false → (o.ro = true ∨ w0.getLsbD 46 = false ∨ s.vfHolds o.owner = false) →
      ((w0.getLsbD 46 = true ∨ o.cp0 = false ∨ o.cp1 = false) → edits (.setState who) p) ∧
      (w0.getLsbD 46 = false → o.cp0 = true → o.cp1 = true →
        ∃ t, exec (.setState who) s = .next t ∧ t.bank? who = some { b with code := 0 } ∧ t.obj b.idx = { p with cp1 := false, hold1 := [] } ∧
          (∀ j, j ≠ b.idx → t.obj j = s.obj j) ∧
          (∀ off, off < o.size * 4096 → t.peek (kT1 b.idx off) = (0, false)) ∧
          ∀ k, (∀ off, off < o.size * 4096 → k ≠ kT1 b.idx off) → SMap.get 0 t.mem k = SMap.get 0 s.mem k))

/-- R305, R327: the model table. READ shows an entry, 0 for a free one; for the physical function, which alone defines and removes entries,
DEFINE makes the entry that the words give, both slots EMPTY, or answers its refusal, and UNDEFINE frees an entry whose slots are vacant, and
answers 4 while one is not; from the management controller's bank neither changes anything. -/
def Obligations.ModelTable : Prop :=
  (∀ (who : Requester) (b : EditBank) (s : State), s.bank? who = some b →
     let m := s.model b.mdlSel
     exec (.mdlRead who) s = .next (s.setBank who { b with mdlW := if m.valid then m.words else [0, 0, 0, 0], mdlCode := 0 })) ∧
  (∀ (b : EditBank) (s : State), s.bankHost = b →
     let m := s.model b.mdlSel
     let answers := fun (i : Instr) (k : Nat) => exec i s = .next { s with bankHost := { b with mdlCode := k } }
     let edits := fun (i : Instr) (p : Model) =>
       ∃ t, exec i s = .next t ∧ t = { s with models := t.models, bankHost := { b with mdlCode := 0 } } ∧
         t.model b.mdlSel = p ∧ ∀ j, j ≠ b.mdlSel → t.model j = s.model j
     (b.done = false → answers (.define (.fn 0)) 1 ∧ answers (.undefine (.fn 0)) 1) ∧
     (b.done = true → m.valid = true → answers (.define (.fn 0)) 4) ∧
     (s.defineCode b = 0 → edits (.define (.fn 0)) (Model.ofWords b.mdlW) ∧
       (Model.ofWords b.mdlW).stA = .empty ∧ (Model.ofWords b.mdlW).stB = .empty) ∧
     (b.done = true → m.valid = true → s.slotVacant m 0 = true → s.slotVacant m 1 = true → edits (.undefine (.fn 0)) {}) ∧
     (b.done = true → m.valid = true → s.slotVacant m 0 = false ∨ s.slotVacant m 1 = false → answers (.undefine (.fn 0)) 4)) ∧
  (∀ s : State, exec (.define .mgc) s = .next s ∧ exec (.undefine .mgc) s = .next s)

/-! ### Check values (R378 to R383) and the error log (R390) -/

/-- R382: for both functions, CRC(A followed by B) = advance(CRC(A), |B|) XOR CRC(B), and in the same form for running values. -/
def Obligations.CheckValuesCombine : Prop :=
  ∀ (a b : List Byte) (v : BitVec 32) (w : W64),
    crc32c (a ++ b) = crc32Advance (crc32c a) b.length ^^^ crc32c b ∧ crc64 (a ++ b) = crc64Advance (crc64 a) b.length ^^^ crc64 b ∧
    crc32Run v b = crc32Advance v b.length ^^^ crc32c b ∧ crc64Run w b = crc64Advance w b.length ^^^ crc64 b

/-- R383: the check-value units of a context. A configuration clears the running value; a feed takes len_m1 + 1 bytes, lowest first; an
advance starts, what is written meanwhile waits, and its end advances the running value. No other unit and nothing else changes.
R390, R391: a write of TEL_LOG_SEL shows the held entry with that sequence number in TEL_LOG_W0 to TEL_LOG_W3, and zero words for a
number that is not held. -/
def Obligations.CheckValueUnits : Prop :=
  (∀ (c : CtxId) (u : Fin 4) (v : W64) (s : State), (s.ctx c).crc.length = 4 →
     let x := s.crcUnit c u
     let becomes := fun (i : Instr) (y : CrcUnit) =>
       ∃ t, exec i s = .next t ∧ t = { s with ctxs := t.ctxs } ∧ (∀ d, d ≠ c → t.ctx d = s.ctx d) ∧
         t.ctx c = { s.ctx c with crc := (t.ctx c).crc } ∧ t.crcUnit c u = y ∧ ∀ w, w ≠ u → t.crcUnit c w = s.crcUnit c w
     (x.adv = none →
       becomes (.crcConfigWrite c u v) { x with w64 := v.getLsbD 0, lenM1 := wBits v 1 3, run := 0 } ∧
       (x.w64 = true → becomes (.crcFeed c u v) { x with run := crc64Run x.run ((leBytes 8 v.toNat).take (x.lenM1 + 1)) }) ∧
       (x.w64 = false → becomes (.crcFeed c u v)
         { x with run := (crc32Run (x.run.setWidth 32) ((leBytes 8 v.toNat).take (x.lenM1 + 1))).setWidth 64 }) ∧
       becomes (.crcAdvance c u v) { x with adv := some (wBits v 0 48) }) ∧
     (∀ n, x.adv = some n →
       becomes (.crcFeed c u v) { x with waiting := x.waiting ++ [(2, v)] } ∧
       (x.waiting = [] → x.w64 = true → becomes (.crcAdvanceDone c u) { x with adv := none, run := crc64Advance x.run n }) ∧
       (x.waiting = [(2, v)] → x.w64 = true → becomes (.crcAdvanceDone c u)
         { x with adv := none, waiting := [], run := crc64Run (crc64Advance x.run n) ((leBytes 8 v.toNat).take (x.lenM1 + 1)) }))) ∧
  (∀ (v : W64) (s : State),
     ∃ t, exec (.logSelect v) s = .next t ∧ t = { s with regs := t.regs } ∧ t.reg Reg.telLogSel = BitVec.ofNat 64 (wBits v 0 32) ∧
       (∀ e, s.log.find? (fun e => decide (e.seq = v.setWidth 32)) = some e →
         ∀ k w, e.words[k]? = some w → t.reg (Reg.telLogW + 8 * k) = w) ∧
       (s.log.find? (fun e => decide (e.seq = v.setWidth 32)) = none → ∀ k, k < 4 → t.reg (Reg.telLogW + 8 * k) = 0))

/-! ### The Flash Program Controller (chapter 10) and the fabric's repair marks (R115) -/

/-- R291 to R293: the unlock sequence. In its order each write of the requester that holds the claim advances it; a write out of order, a
wrong key and a late step relock it and count, the sixteenth relock with no launch between with a lockout; a write of the other requester is
ignored and counted; in a lockout FPC_KEY is ignored, and its end forgets the relocks. -/
def Obligations.FpcSequence : Prop :=
  ∀ (who : Requester) (g : Bool) (v : W64) (s : State), sideOf who = some g →
    let moves := fun (i : Instr) (x : Fpc) => exec i s = .next { s with fpc := x }
    let relocks := fun (i : Instr) =>
      ∃ t, exec i s = .next t ∧ t = { s with fpc := t.fpc, regs := t.regs } ∧
        t.fpc = { s.fpc with lock := 0, relocks := s.fpc.relocks + 1, lockout := decide (16 ≤ s.fpc.relocks + 1) } ∧
        t.fld Reg.fpcLock_badSeq = min 65535 (s.fld Reg.fpcLock_badSeq + 1)
    let foreign := fun (i : Instr) =>
      ∃ t, exec i s = .next t ∧ t = { s with regs := t.regs } ∧ t.fld Reg.fpcLock_foreign = min 65535 (s.fld Reg.fpcLock_foreign + 1)
    (s.fpc.lockout = false →
      (s.fpc.lock = 0 → wBits v 0 16 = 0xA5C3 → moves (.fpcKeyWrite who v) { s.fpc with lock := 1, owner := g }) ∧
      (s.fpc.lock = 0 → wBits v 0 16 ≠ 0xA5C3 → relocks (.fpcKeyWrite who v)) ∧
      (s.fpc.lock ≠ 0 → s.fpc.owner = g →
        (s.fpc.lock = 1 → wBits v 0 16 = 0x3C5A → moves (.fpcKeyWrite who v) { s.fpc with lock := 2 }) ∧
        (s.fpc.lock ≠ 1 ∨ wBits v 0 16 ≠ 0x3C5A → relocks (.fpcKeyWrite who v)) ∧
        (s.fpc.lock = 2 → moves (.fpcCmdWrite who v) { s.fpc with lock := 3, cmd := v }) ∧
        (s.fpc.lock ≠ 2 → relocks (.fpcCmdWrite who v)) ∧
        (s.fpc.lock = 3 → moves (.fpcAddrWrite who v) { s.fpc with lock := 4, addr := v }) ∧
        (s.fpc.lock ≠ 3 → relocks (.fpcAddrWrite who v)) ∧
        relocks .fpcSequenceTimeout) ∧
      (s.fpc.lock ≠ 0 → s.fpc.owner ≠ g →
        foreign (.fpcKeyWrite who v) ∧ foreign (.fpcCmdWrite who v) ∧ foreign (.fpcAddrWrite who v))) ∧
    (s.fpc.lockout = true →
      exec (.fpcKeyWrite who v) s = .next s ∧ moves .fpcLockoutExpiry { s.fpc with lockout := false, relocks := 0 })

/-- R281, R291, R294 to R297: the launches. The write of FPC_DATA in its place locks the sequence and takes the next id; an operation that is
accepted joins those launched, and PROG_PAGES moves its object's next page on, past pages already programmed; one that is turned away, or that
is the requester's seventeenth, posts its result and changes no object, no block and no byte. A block with live pages is not erased. -/
def Obligations.FpcLaunches : Prop :=
  ∀ (who : Requester) (g : Bool) (v : W64) (s : State), sideOf who = some g → s.fpc.lock = 4 → s.fpc.owner = g →
    let o : FpcOp := { id := s.fpc.nextId, seq := s.fpc.launches, op := wBits s.fpc.cmd 0 8, mgc := g, addr := s.fpc.addr, data := v,
                       permit := s.fpc.cmd.getLsbD 9, hold := s.fpc.cmd.getLsbD 8, param0 := s.reg Reg.fpcParam0, param1 := s.reg Reg.fpcParam1 }
    let turned := fun (i : Instr) (k : Nat) =>
      ∃ t, exec i s = .next t ∧ t.fpc.results g = s.fpc.results g ++ [{ id := o.id, op := o.op, code := k }] ∧ t.fpc.ops = s.fpc.ops ∧
        t.fpc.lock = 0 ∧ t.fpc.nextId = (s.fpc.nextId + 1) % 256 ∧ t.objs = s.objs ∧ t.blks = s.blks ∧ t.mem = s.mem ∧ t.ctxs = s.ctxs
    let launches := fun (i : Instr) (op : Nat) => wBits s.fpc.cmd 0 8 = op → (op = 2 ∨ op = 5 → wBits v 0 16 = 0xD0) →
      (s.fpc.outstanding g < 16 → s.fpcCheck s.fpc.cmd o = none →
        ∃ t, exec i s = .next t ∧ t = { s with fpc := t.fpc, objs := t.objs } ∧
          t.fpc = { s.fpc with lock := 0, relocks := 0, nextId := (s.fpc.nextId + 1) % 256, launches := s.fpc.launches + 1,
                               ops := s.fpc.ops ++ [o] } ∧
          (op = 1 → (t.obj o.object).nextPage = s.nextUnmapped o.object (List.length s.pmap) (o.firstPage + o.count)) ∧
          ∀ j, (op ≠ 1 ∨ j ≠ o.object) → t.obj j = s.obj j) ∧
      (∀ k, s.fpc.outstanding g < 16 → s.fpcCheck s.fpc.cmd o = some k → turned i k) ∧
      (16 ≤ s.fpc.outstanding g → turned i 8)
    launches (.progPages who v) 1 ∧ launches (.eraseBlock who v) 2 ∧ launches (.relocate who v) 3 ∧ launches (.cafTile who v) 4 ∧
    launches (.cafErase who v) 5 ∧ launches (.fwPage who v) 6 ∧
    (wBits s.fpc.cmd 0 8 = 2 → wBits v 0 16 = 0xD0 → s.fpc.outstanding g < 16 → fpcReserved s.fpc.cmd o = false →
      userBlock o.block = true → (s.blk o.block).live ≠ 0 → turned (.eraseBlock who v) 5)

/-- R102, R281 to R284, R294, R299, R452: an operation whose turn has come starts or ends, and one whose buffer, block or tile has changed since
its launch ends with that result (when it is judged again is the model's, assumption 59); the pulse with which its last page verifies stores the
page's bytes and posts DONE, one before it goes on with the next page, one that does not verify within the limit counts; a row of a tile that
verifies is stored, and its sector counts it; a move that verifies leaves the object's page at its new place. That a pulse's end is that of the
first page in progress, and that a poisoned image ends CAF_TILE with FAIL, are the model's choices (assumptions 93 and 100). -/
def Obligations.FpcPrograms : Prop :=
  ∀ (id : BitVec 8) (ones : List (Nat × Nat)) (o : FpcOp) (s : State),
    let gone := fun (t : State) => ∀ x ∈ t.fpc.ops, x.seq ≠ o.seq
    let finished := fun (t : State) => gone t ∧
      t.fpc.results o.mgc = s.fpc.results o.mgc ++ [{ id := o.id, op := o.op, code := 0, fail := o.fail, fails := o.fails }]
    (s.fpcOp id.toNat (fun o => decide (o.phase = .queued)) = some o → s.opTurn o = true → s.fpcStarts = true →
      ∃ t, exec (.fpcOperationStart id ones) s = .next t ∧ t.ctxs = s.ctxs ∧
        (s.startCheck o = none →
          (gone t ∨ ∃ p ∈ t.fpc.ops, p.seq = o.seq ∧ p.phase = .running) ∧
          (o.op = 2 → (t.blk o.block).eraseIntent = true ∧ t.mem = s.mem) ∧
          (o.op = 4 → s.anyBad (kStage o.buf (131072 * wBits o.data 3 3)) 131072 = true → gone t ∧ t.cells = s.cells ∧
            t.fpc.results o.mgc = s.fpc.results o.mgc ++ [{ id := o.id, op := 4, code := 1, fail := o.fail, fails := o.fails }])) ∧
        ∀ k, s.startCheck o = some k →
          gone t ∧ { id := o.id, op := o.op, code := k, fail := o.fail, fails := o.fails } ∈ t.fpc.results o.mgc ∧ t.blks = s.blks ∧
          t.cells = s.cells ∧ t.mem = s.mem ∧
          (o.op = 1 → (t.obj o.object).nextPage = o.firstPage ∧
            ∀ x ∈ t.fpc.ops, x.op = 1 → x.object = o.object → x.phase ≠ .queued)) ∧
    (s.fpcOp id.toNat (fun o => decide (o.phase = .running) && !o.erases) = some o →
      (o.op = 1 →
        ∃ t, exec (.programPulseEnd id ⟨[], ones⟩) s = .next t ∧ (o.rest = [] → o.stuck = none → finished t) ∧
          (∀ q p n l, o.rest = (q, p, n) :: l → ∃ x ∈ t.fpc.ops, x.seq = o.seq ∧ x.phase = .running ∧ x.unit = q ∧ x.target = p ∧ x.rest = l) ∧
          (t.blk (o.target / 2048)).inFlight = false ∧
          (∀ j, j < 16384 → SMap.get 0 t.mem (kFlash o.target j) = (s.peek (kStage o.buf (16384 * o.unit + j))).1) ∧
          ∀ k, (∀ j, j < 16384 → k ≠ kFlash o.target j) → SMap.get 0 t.mem k = SMap.get 0 s.mem k) ∧
      (o.op = 6 →
        ∃ t, exec (.programPulseEnd id ⟨[], ones⟩) s = .next t ∧ finished t ∧
          (∀ j, j < 16384 → SMap.get 0 t.mem (kFlash o.target j) = (s.peek (kStage o.buf (16384 * wBits o.data 3 6 + j))).1) ∧
          ∀ k, (∀ j, j < 16384 → k ≠ kFlash o.target j) → SMap.get 0 t.mem k = SMap.get 0 s.mem k) ∧
      (∀ x l, o.op = 1 ∨ o.op = 3 ∨ o.op = 6 → o.pulses + 1 < 16 →
        exec (.programPulseEnd id ⟨x :: l, ones⟩) s = .next (s.setOp { o with pulses := o.pulses + 1 })) ∧
      (∀ p, o.op = 3 → o.todo = [p] →
        ∃ t, exec (.programPulseEnd id ⟨[], ones⟩) s = .next t ∧ finished t ∧ (s.pageLive p = false → t.pmap = s.pmap) ∧
          (s.pageLive p = true →
            (∀ idx q, s.physPage idx q = some p → t.physPage idx q = some o.target) ∧
            ∀ idx q r, s.physPage idx q = some r → r ≠ p → t.physPage idx q = some r)) ∧
      (o.op = 4 →
        ∃ t, exec (.programPulseEnd id ⟨[], ones⟩) s = .next t ∧ (t.sector o.tile (o.unit / 64)).state = .programmed ∧
          (t.sector o.tile (o.unit / 64)).rows = o.unit % 64 + 1 ∧
          (o.unit + 1 ≠ (s.planRows o).rows ∨ (s.tile o.tile).deviations (s.planRows o) = [] → t.mem = s.mem) ∧
          ∀ out, out < (s.planRows o).outs →
            SMap.get (0, 0) t.cells (cellKey o.tile o.unit out) = (s.tile o.tile).stored (s.planRows o) o.unit out))

/-- R103, R285 to R287, R294, R301, R302, R304: erases. A verified erase pulse empties the block or the sector, counts its erase and posts
DONE; one that does not verify within the limit counts, and at the limit the block is BAD. A read suspends a running erase where that is
enabled, and FPC_ERASE_CTL suspends, resumes and holds one, which goes on while nothing runs on its plane; a gap in its plane's work resumes
it; one that a read holds suspended goes on when it is held (the model's reading, assumption 59). A result is popped from its own queue, a
calibration word is read and the index advances, and a pair is marked for retirement. R426, R432, R441, R449: the read of the calibration word
gives 0 without effect before the device is ready and in RECOVERY, waits behind accesses of its function that wait (assumption 90), and in
D3hot or without power is not taken. -/
def Obligations.FpcErases : Prop :=
  (∀ (id : BitVec 8) (o : FpcOp) (s : State),
    (s.fpcOp id.toNat (fun o => decide (o.phase = .running) && o.erases) = some o → o.op = 2 →
      (∃ t, exec (.erasePulseEnd id true) s = .next t ∧ (∀ x ∈ t.fpc.ops, x.seq ≠ o.seq) ∧
        t.fpc.results o.mgc = s.fpc.results o.mgc ++ [{ id := o.id, op := 2, code := 0, fail := o.fail, fails := o.fails }] ∧
        (t.blk o.block).state = (if (s.blk o.block).retire then .bad else .erased) ∧ (t.blk o.block).ptr = 0 ∧
        (t.blk o.block).pe = min 65535 ((s.blk o.block).pe + 1) ∧ (∀ b, b ≠ o.block → t.blk b = s.blk b) ∧
        ∀ k, (k < kFlash (o.block * 2048) 0 ∨ kFlash (o.block * 2048 + 2048) 0 ≤ k) → SMap.get 0 t.mem k = SMap.get 0 s.mem k) ∧
      (o.pulses + 1 < 8 → exec (.erasePulseEnd id false) s = .next (s.setOp { o with pulses := o.pulses + 1 })) ∧
      (8 ≤ o.pulses + 1 →
        ∃ t, exec (.erasePulseEnd id false) s = .next t ∧ (t.blk o.block).state = .bad ∧ t.mem = s.mem ∧
          t.fpc.results o.mgc = s.fpc.results o.mgc ++ [{ id := o.id, op := 2, code := 1, fail := true, fails := o.fails }])) ∧
    (s.fpcOp id.toNat (fun o => decide (o.phase = .running) && o.erases) = some o → o.op = 5 → o.todo = [] →
      ∃ t, exec (.erasePulseEnd id true) s = .next t ∧ (∀ x ∈ t.fpc.ops, x.seq ≠ o.seq) ∧ (t.sector o.tile o.unit).state = .erased ∧
        (t.sector o.tile o.unit).rows = 0 ∧ (t.sector o.tile o.unit).pe = min 65535 ((s.sector o.tile o.unit).pe + 1) ∧ t.mem = s.mem) ∧
    (s.eraseOp id.toNat = some o →
      (o.phase = .running →
        let waits := fun (i : Instr) (ph : OpPhase) =>
          ∃ t, exec i s = .next t ∧ (∃ p ∈ t.fpc.ops, p.seq = o.seq ∧ p.phase = ph ∧ p.pulses = o.pulses) ∧ t.blks = s.blks ∧ t.mem = s.mem
        (o.op = 2 → o.hold = false → s.flag Reg.fpcCfg_rdSuspend = true → waits (.eraseSuspend id) .suspendedRead) ∧
        (o.hold = false → waits (.eraseCtlSuspend id) .suspendedHost) ∧
        (o.hold = true → exec (.eraseSuspend id) s = .next s ∧ exec (.eraseCtlSuspend id) s = .next s) ∧
        exec (.eraseCtlHold id) s = .next (s.setOp { o with hold := true })) ∧
      (o.phase = .suspendedHost →
        exec (.eraseCtlResume id) s = .next (s.setOp { o with phase := if s.planeRuns o then .resuming else .running }) ∧
        exec (.eraseCtlHold id) s = .next (s.setOp { o with hold := true })) ∧
      (o.phase = .suspendedRead → exec (.eraseCtlHold id) s =
        .next (s.setOp { o with hold := true, phase := if s.planeRuns { o with hold := true } then .resuming else .running })) ∧
      (o.phase = .suspendedRead → s.fpcStarts = true →
        exec (.eraseResumeGap id) s = .next (if s.planeWork o then s else s.setOp { o with phase := .running })))) ∧
  (∀ s : State,
    exec (.fpcResultPop .mgc) s = .next { s with fpc := { s.fpc with resMgc := s.fpc.resMgc.drop 1 } } ∧
    exec (.fpcResultPop (.fn 0)) s = .next { s with fpc := { s.fpc with resHost := s.fpc.resHost.drop 1 } } ∧
    (s.up = true → s.pcie.d3.getLsbD 0 = false →
      (s.flag Reg.devStatus_ready = true → s.inRecovery = false → s.hostBehind 0 = false →
        ∃ t, exec .calDataRead s = .next t ∧ t = { s with regs := t.regs, out := t.out } ∧
          t.out = s.out ++ [.readVal Reg.fpcCalData (s.calWord (s.fld Reg.fpcCalSel_die) (s.fld Reg.fpcCalSel_word))] ∧
          t.fld Reg.fpcCalSel_word = (s.fld Reg.fpcCalSel_word + 1) % 2 ^ Reg.fpcCalSel_word.width) ∧
      (s.flag Reg.devStatus_ready = true → s.inRecovery = false → s.hostBehind 0 = true →
        exec .calDataRead s = .next { s with aptWait := s.aptWait ++ [.calData] }) ∧
      (s.flag Reg.devStatus_ready = false ∨ s.inRecovery = true →
        exec .calDataRead s = .next { s with out := s.out ++ [.readVal Reg.fpcCalData 0] })) ∧
    (s.up = false ∨ s.pcie.d3.getLsbD 0 = true → exec .calDataRead s = .next s) ∧
    (∀ v : W64, ∃ t, exec (.cafPairRetire v) s = .next t ∧ t = { s with tiles := t.tiles } ∧ wBits v 10 10 ∈ (t.tile (wBits v 0 10)).marks ∧
      ∀ j, j ≠ wBits v 0 10 → t.tile j = s.tile j))

/-! ### Installing and switching weights (chapter 11) -/

/-- R24, R314, R318 to R320, R325, R326: the orders of FPC_INST_CMD on the Planet or a single device. START of a slot that may be named, with
a manifest that reads clean and breaks no rule, begins a build as leader; one that is bad ends it ILLEGAL_COMMAND with no model changed; one
while an installation stands, or of a slot that may not be named, is refused with code 1. An IMMEDIATE SWITCH of a READY installation on this
device alone makes its slot ACTIVE; CLOSE removes a boundary; RETIRE drains the active slot; a SWITCH or RETIRE while migrations are in
progress waits and asks for quiesce. ABORT ends an installation that has not switched; a timeout ends a build that is not complete, and names
the lowest device that has not reported. That an unreadable manifest ends the START ILLEGAL_COMMAND, that a model which is not valid is
refused and that an IMMEDIATE switch of a lone device is SWITCHED at once are the model's readings (assumption 58); that an order waits and
asks for quiesce is its choice (assumption 85). -/
def Obligations.InstallOrders : Prop :=
  ∀ (v : W64) (s : State), s.isMoon = false → s.pwr.stall = [] → s.link.missing = [] → s.inst.orders = [] →
    let md := wBits v 3 6
    let k := wBits v 9 1
    let h := s.read0 (s.fld Reg.fpcInstAddr_addr) 64
    let body := h.2.read0 (s.fld Reg.fpcInstAddr_addr + 64) (64 * (Manifest.ofBytes (h.1.getD [])).n)
    let reads := (s.order 1 v).pwr.stall = [] ∧ (s.order 1 v).link.missing = []
    let refuses := fun (i : Instr) (code : Nat) => ∃ t, exec i s = .next t ∧
      t = { s with inst := { s.inst with refused := code, quiet := t.inst.quiet }, bankMgc := t.bankMgc, deposits := t.deposits
                   pcie := { s.pcie with lostReads := t.pcie.lostReads } }
    let waits := fun (i : Instr) (op : Nat) => s.migBusy ≠ 0 → ∃ t, exec i s = .next t ∧ t.inst.orders = [(op, v)] ∧ t.bankMgc.req = true ∧
      t.models = s.models ∧ t.objs = s.objs ∧ t.mem = s.mem
    (∀ hdr bs ds, (s.inst.state = 0 ∨ 5 ≤ s.inst.state) → s.slotOpen md k = true → reads → h.1 = some hdr → body.1 = some bs →
      manifestDescs hdr bs md (s.model md).wsize = some ds →
      ∃ t, exec (.start v) s = .next t ∧ t.inst.state = 1 ∧ t.inst.model = md ∧ t.inst.slot = k ∧ t.inst.leader = true ∧ t.inst.descs = ds ∧
        t.inst.next = 0 ∧ t.mem = s.mem ∧ t.objs = s.objs ∧ t.ctxs = s.ctxs ∧
        ∀ d l, ds = d :: l → d.dest.getLsbD s.link.dev = true → (t.model md).st k = .building) ∧
    ((s.inst.state = 0 ∨ 5 ≤ s.inst.state) → s.slotOpen md k = true → reads →
      h.1 = none ∨ body.1 = none ∨ (∃ hdr bs, h.1 = some hdr ∧ body.1 = some bs ∧ manifestDescs hdr bs md (s.model md).wsize = none) →
      ∃ t, exec (.start v) s = .next t ∧ t.inst.state = 6 ∧ t.inst.resStatus = .illegalCommand ∧ t.models = s.models ∧ t.mem = s.mem ∧
        t.objs = s.objs) ∧
    ((1 ≤ s.inst.state ∧ s.inst.state ≤ 4) ∨ s.slotOpen md k = false → refuses (.start v) 1) ∧
    (s.inst.state = 3 → md = s.inst.model → v.getLsbD 11 = false → s.inst.devices = [s.link.dev] → s.migBusy = 0 →
      ∃ t, exec (.switch v) s = .next t ∧ t.inst.state = 5 ∧ (t.model md).st s.inst.slot = .active ∧ (t.model md).boundary = none ∧ t.mem = s.mem) ∧
    (s.inst.state ≠ 3 → refuses (.switch v) 2) ∧ (s.inst.state = 3 → waits (.switch v) 2) ∧
    ((s.model md).boundary ≠ none → ∃ t, exec (.close v) s = .next t ∧ (t.model md).boundary = none ∧ t.mem = s.mem) ∧
    (∀ j, (s.model md).activeSlot = some j → (s.model md).valid = true → (s.model md).st (1 - j) = .empty ∨ (s.model md).st (1 - j) = .stale →
      s.migBusy = 0 →
      ∃ t, exec (.retire v) s = .next t ∧ t.mem = s.mem ∧ t.inst = { s.inst with quiet := false } ∧
        (t.model md).st j = (if (s.model md).boundary = none ∧ s.boundCount md j = 0 then .stale else .retiring)) ∧
    ((s.model md).activeSlot = none → s.migBusy = 0 → refuses (.retire v) 4) ∧ waits (.retire v) 4 ∧
    (1 ≤ s.inst.state → s.inst.state ≤ 3 → s.inst.leader = true →
      ∃ t, exec (.abort v) s = .next t ∧ t.inst.state = 6 ∧ t.inst.resStatus = .aborted ∧ t.inst.resDetail = 1 ∧ t.mem = s.mem) ∧
    (s.inst.leader = true → s.inst.building = true →
      ∃ t, exec .installTimeout s = .next t ∧ t.inst.state = 6 ∧ t.inst.resStatus = .weightsUnavailable ∧
        t.inst.resDev = (s.inst.devices.filter (fun d => !s.inst.reported.contains d)).headD s.link.dev ∧ t.mem = s.mem)

/-- R315 to R317, R319, R321, R323: the installer's work. The leader takes the next shard once it passes its check, counts a failed one to
fetch it again, and fails at the fifth; a tile's erase, a held shard of flash pages and the next tile image of one launch their operations; a
part whose shards and operations are done becomes STANDBY, under quiesce (R24), which a Moon reports and the leader counts, being READY with
the last device and SWITCHED at once with auto on a lone device.
R26, R321, R323: a data shard that is addressed to a device that builds, and passes its check, is acknowledged and kept in a staging buffer
for the installer; no other byte changes. That it is the lowest free one is the model's choice (assumption 99), and so is the end of an
installation for which no plan came with the manifest's last shard, and what READY asks of a lone device (assumption 58). -/
def Obligations.InstallerWork : Prop :=
  (∀ s : State,
     (∀ d, s.awake → s.inst.leader = true → s.inst.building = true → s.inst.descs[s.inst.next]? = some d → d.dest.getLsbD s.link.dev = false →
       s.storesOpen d.index (s.chains d) = true → s.shardFetch.link.missing = [] →
       let r := s.span { s.hostView 0 with noHost := s.lostFor 0 .tmv instSlot } d.src d.bytes
       let late := s.inst.devices.contains s.link.dev = true ∧ d.index + 1 = s.inst.descs.length ∧ s.inst.plan = []
       (r.2 = false → d.passes r.1 = true →
         ∃ t, exec .shardFetch s = .next t ∧ t.mem = s.mem ∧
           (¬ late → t.inst = { s.inst with next := s.inst.next + 1, tries := 0 }) ∧
           (late → t.inst.state = 6 ∧ t.inst.resStatus = .illegalCommand)) ∧
       (r.2 = true ∨ d.passes r.1 = false →
         ∃ t, exec .shardFetch s = .next t ∧ t.mem = s.mem ∧
           (s.inst.tries < 4 → t.inst = { s.inst with tries := s.inst.tries + 1, rereq := min 65535 (s.inst.rereq + 1) }) ∧
           (4 ≤ s.inst.tries → t.inst.state = 6 ∧ t.inst.resStatus = .weightsUnavailable ∧ t.inst.resShard = d.index))) ∧
     (s.fpc.resMgc = [] → s.inst.orders = [] → s.inst.state = 1 → s.inst.planned = true → s.inst.applied = s.inst.plan.length → s.mgcFree = true →
       let launched := fun (t : State) => t.fpc.nextId = (s.fpc.nextId + 1) % 256 ∧ t.fpc.lock = 0 ∧
         t.inst.opIds = s.inst.opIds ++ [s.fpc.nextId] ∧ t.mem = s.mem
       (∀ tile l, s.inst.erase = tile :: l →
         ∃ t, exec .installerProgramLaunch s = .next t ∧ t.inst.erase = l ∧ (s.dirtySectors tile ≠ [] → launched t)) ∧
       (∀ h, s.inst.erase = [] → s.inst.held.find? s.launchable = some h →
         (∀ j o q, h.desc.kind = 1 → s.shardObject h.desc = some (j, o, q) →
           (s.model s.inst.model).base s.inst.slot * 4096 + 16384 * h.desc.target + h.desc.bytes ≤ o.base * 4096 + o.size * 4096 →
           ∃ t, exec .installerProgramLaunch s = .next t ∧ launched t ∧ t.inst.held = s.inst.held.erase h) ∧
         (h.desc.kind = 2 →
           ∃ t, exec .installerProgramLaunch s = .next t ∧ launched t ∧
             t.inst.held = s.inst.held.map (fun x => if x = h then { h with launched := h.launched + 1, ids := h.ids ++ [s.fpc.nextId] } else x) ∧
             t.reg Reg.fpcParam0 = planShift s.inst.plan (h.desc.firstTile + h.launched)))) ∧
     (s.fpc.resMgc = [] → s.inst.state = 1 → s.inst.planned = true → s.inst.applied = s.inst.plan.length → s.inst.dataOk = s.inst.expected →
       s.inst.opIds = [] → s.inst.held = [] → s.inst.erase = [] → s.slotProgrammed (s.model s.inst.model) s.inst.slot = true →
       let live := fun (t : State) => t.mem = s.mem ∧ ∀ e ∈ t.objs, s.slotOf e.2 = some (s.inst.model, s.inst.slot) → e.2.inst = false
       let all := s.inst.devices.all (fun d => (s.inst.reported ++ [s.link.dev]).contains d)
       (s.migBusy = 0 → s.inst.leader = false →
         ∃ t, exec .partComplete s = .next t ∧ live t ∧ t.inst.state = 2 ∧ (t.model s.inst.model).st s.inst.slot = .standby ∧
           ∀ p, s.upstream = some p → t.carries p (instMsg 3 s.link.dev 0 s.inst.model)) ∧
       (s.migBusy = 0 → s.inst.leader = true →
         (s.inst.auto = false ∨ s.isPlanet = true →
           ∃ t, exec .partComplete s = .next t ∧ live t ∧ t.inst.state = (if all then 3 else 2) ∧ s.link.dev ∈ t.inst.reported ∧
             (t.model s.inst.model).st s.inst.slot = .standby) ∧
         (s.inst.auto = true → s.isPlanet = false → s.isMoon = false → s.inst.devices = [s.link.dev] →
           ∃ t, exec .partComplete s = .next t ∧ live t ∧ t.inst.state = 5 ∧ (t.model s.inst.model).st s.inst.slot = .active)) ∧
       (s.migBusy ≠ 0 →
         ∃ t, exec .partComplete s = .next t ∧ t.bankMgc.req = true ∧ t.models = s.models ∧ t.objs = s.objs ∧ t.inst.state = 1 ∧ t.mem = s.mem))) ∧
  (∀ (p : PortId) (cmd : W64) (hdr : List Byte) (m : DataMsg) (b : Nat) (s : State),
     (s.port p).inMsgs.find? (fun m => decide (m.kind = 7)) = some m →
     let data := m.read.data
     let d := ShardDesc.ofBytes ((data.take 64).map Prod.fst)
     let late := s.inst.devices.contains s.link.dev = true ∧ d.index + 1 = (Manifest.ofBytes hdr).n ∧ s.inst.plan = []
     s.serves = true → (s.port p).discard = false → s.inst.building = true → s.downstream = [] → d.dest.getLsbD s.link.dev = true →
     d.kind ≠ 0 → s.freeBuf = some b → anyPoison (data.take 64) = false → d.passes (data.drop 64) = true →
     ∃ t, exec (.shard p cmd hdr) s = .next t ∧ t.carries p (instMsg 1 s.link.dev d.index s.inst.model) ∧
       (late → t.inst.state = 6 ∧ t.inst.resStatus = .illegalCommand) ∧
       (¬ late → t.fpc.held.getLsbD b = true ∧ t.fpc.verified.getLsbD b = true ∧
         t.inst.shardsOk = s.inst.shardsOk + 1 ∧ t.inst.held = s.inst.held ++ [{ buf := b, desc := d }]) ∧
       (∀ i x, (data.drop 64)[i]? = some x → SMap.get 0 t.mem (kStage b i) = x.1) ∧
       ∀ k, (∀ i, i < d.bytes → k ≠ kStage b i) → SMap.get 0 t.mem k = SMap.get 0 s.mem k)

/-- R318, R319, R323 to R325, R355: the installation messages. An ACK frees the shards of its number and a REREQ keeps them and sends them
again from its number on, as far as they are good; at the leader a DONE is counted, the last making it READY, a FAIL ends the installation
with the device it names, and a switch acknowledgement is counted; a Moon with a STANDBY slot obeys its upstream's SWITCH and acknowledges it,
once no migration is in progress (R24), removes a boundary on CLOSE, and holds a SWITCH_REC. State SWITCHED straight after an IMMEDIATE switch
is the model's reading (assumption 58), and that a SWITCH waits under migrations its choice (assumption 85). -/
def Obligations.InstallMessages : Prop :=
  ∀ (p : PortId) (m : W64) (s : State),
    let msg := fun (sub : Nat) => s.peekCtl p (isSub 11 sub) = some m
    (msg 1 → ∃ t, exec (.instAck p) s = .next t ∧ s.sent t ∧
      (t.port p).shardStore = (s.port p).shardStore.filter (fun e => decide (e.1 ≠ wBits m 16 24))) ∧
    (msg 2 → ∃ t, exec (.instRereq p) s = .next t ∧ s.sent t ∧
      (t.port p).shardStore = (s.port p).shardStore ∧
      ∀ a l, (s.port p).shardStore.filter (fun e => decide (wBits m 16 24 ≤ e.1)) = a ++ l → (∀ e ∈ a, shardGood e.2 = true) →
        (∀ e ∈ a, t.carriesData p 7 (dataHeader 7 0 0 0 0 e.2.length 0) e.2) ∧
        ∀ e l', l = e :: l' → shardGood e.2 = false → (t.port p).shardWant = some e.1) ∧
    (s.isPlanet = true → s.inst.leader = true → imModel m = s.inst.model →
      (msg 3 → s.inst.building = true → imDev m ∈ s.inst.devices →
        ∃ t, exec (.instDone p) s = .next t ∧ imDev m ∈ t.inst.reported ∧ t.mem = s.mem ∧ t.models = s.models ∧
          ((∀ d ∈ s.inst.devices, d ∈ s.inst.reported ∨ d = imDev m) → t.inst.state = 3 ∧ t.inst.resStatus = .ok) ∧
          ((∃ d ∈ s.inst.devices, d ∉ s.inst.reported ∧ d ≠ imDev m) → t.inst.state = s.inst.state)) ∧
      (∀ (st : BitVec 8) (detail : BitVec 16), msg 4 → 1 ≤ s.inst.state → s.inst.state ≤ 3 →
        ∃ t, exec (.instFail p st detail) s = .next t ∧ t.inst.state = 6 ∧ t.inst.resStatus = Status.ofCode st.toNat ∧ t.inst.resDev = imDev m ∧
          t.inst.resDetail = detail.toNat ∧ t.inst.resShard = wBits m 16 24 ∧ t.mem = s.mem) ∧
      (msg 6 → s.inst.state = 3 →
        ∃ t, exec (.instSwitchAck p) s = .next t ∧ imDev m ∈ t.inst.acked ∧ t.mem = s.mem ∧
          ((∀ d ∈ s.inst.devices, d ∈ s.inst.acked ∨ d = imDev m) → t.inst.state = (if s.inst.numbered then 4 else 5)))) ∧
    (s.isMoon = true → s.upstream = some p →
      (msg 5 → s.inst.state = 2 → imModel m = s.inst.model → (s.model s.inst.model).st s.inst.slot = .standby →
        (s.migBusy = 0 → ∃ t, exec (.instSwitch p) s = .next t ∧ (t.model s.inst.model).st s.inst.slot = .active ∧
          t.inst.state = (if m.getLsbD 46 then 4 else 5) ∧ t.mem = s.mem ∧ t.carries p (instMsg 6 s.link.dev 0 s.inst.model)) ∧
        (s.migBusy ≠ 0 → ∃ t, exec (.instSwitch p) s = .next t ∧ t.bankMgc.req = true ∧ t.models = s.models ∧ t.link = s.link ∧ t.mem = s.mem)) ∧
      (msg 7 → ∃ t, exec (.instClose p) s = .next t ∧ (t.model (imModel m)).boundary = none ∧ t.mem = s.mem) ∧
      (msg 8 → ∃ t, exec (.instSwitchRec p) s = .next t ∧ (wBits m 8 4, wBits m 12 48) ∈ t.inst.recs ∧
        t.inst = { s.inst with recs := t.inst.recs } ∧ t.mem = s.mem))

/-! ### Trelbo links (R353 to R374) -/

/-- R353 to R356, R358, R359: flits. A good data flit in sequence, within its credit, is taken and acknowledged; a good control flit in
sequence is taken, its messages waiting in order, SYNC messages by counter, and acknowledged; one that fails its CRC is counted and not
acknowledged, and one before the sequence is counted and dropped. Acknowledgements release the replay buffers, a DNAK or CNAK replays from the
sequence number it names, and credits rise by what a CREDIT grants. That each good data flit has a DACK of its own, and each control flit that
holds more than CACK a CACK, is the model's reading (assumption 53). -/
def Obligations.Flits : Prop :=
  ∀ (p : PortId) (bytes : List Byte) (s : State), s.portUp p = true →
    let x := s.port p
    let d := decodeDataFlit bytes
    let k := decodeCtlFlit bytes
    let only := fun (t : State) => t = { s with link := t.link, regs := t.regs, pwr := t.pwr, out := t.out } ∧ (s.portsOn → t.pwr = s.pwr)
    (d.crcOk = true → d.null = false → d.seq = x.rxSeq → x.granted d.flit = true →
      ∃ t, exec (.dataFlit p bytes) s = .next t ∧ only t ∧ (t.port p).rxSeq = (x.rxSeq + 1) % 65536 ∧
        (t.port p).inMsgs = (x.take d.flit).inMsgs ∧ (t.port p).part = (x.take d.flit).part ∧ t.carries p (ctlMsg 1 [(4, d.seq)])) ∧
    (d.crcOk = false →
      ∃ t, exec (.dataFlit p bytes) s = .next t ∧ only t ∧ (t.port p).rxSeq = x.rxSeq ∧ (t.port p).inMsgs = x.inMsgs ∧
        t.carries p (ctlMsg 2 [(4, x.rxSeq)]) ∧ t.fld (Reg.lnkPortErr_crcData.port p) = min 65535 (s.fld (Reg.lnkPortErr_crcData.port p) + 1)) ∧
    (d.crcOk = true → d.null = false → 32768 ≤ (d.seq + 65536 - x.rxSeq) % 65536 →
      ∃ t, exec (.dataFlit p bytes) s = .next t ∧ t = { s with regs := t.regs } ∧
        t.fld (Reg.lnkPortErr_dup.port p) = min 255 (s.fld (Reg.lnkPortErr_dup.port p) + 1)) ∧
    (k.crcOk = true → k.null = false → k.seq = x.rxCseq → (∀ m ∈ k.msgs, msgType m < 10) → (∃ m ∈ k.msgs, isType 3 m = false) →
      ∃ t, exec (.controlFlit p bytes) s = .next t ∧ only t ∧ (t.port p).rxCseq = (x.rxCseq + 1) % 4096 ∧
        (t.port p).inCtl = k.msgs.foldl queueCtl x.inCtl ∧ t.carries p (ctlMsg 3 [(4, k.seq)])) ∧
    (k.crcOk = false →
      ∃ t, exec (.controlFlit p bytes) s = .next t ∧ only t ∧ (t.port p).rxCseq = x.rxCseq ∧ (t.port p).inCtl = x.inCtl ∧
        t.carries p (ctlMsg 4 [(4, x.rxCseq)]) ∧ t.fld (Reg.lnkPortErr_crcCtl.port p) = min 65535 (s.fld (Reg.lnkPortErr_crcCtl.port p) + 1)) ∧
    (∀ m, s.portIdle p →
      let y := { x with inCtl := x.inCtl.erase m }
      let n := wBits m 6 16
      (s.peekCtl p (isType 1) = some m → ∃ t, exec (.dack p) s = .next t ∧ t = { s with link := t.link } ∧
        t.port p = { y with replay := x.replay.filter (fun e => laterSeq 65536 (wBits m 4 16) e.1) }) ∧
      (s.peekCtl p (isType 3) = some m → ∃ t, exec (.cack p) s = .next t ∧ t = { s with link := t.link } ∧
        t.port p = { y with
          creplay := x.creplay.filter (fun e => laterSeq 4096 (wBits m 4 12) e.1)
          cown := x.cown.filter (fun e => laterSeq 4096 (wBits m 4 12) e.1) }) ∧
      (s.peekCtl p (isType 5) = some m → ∃ t, exec (.credit p) s = .next t ∧ t = { s with link := t.link } ∧
        (wBits m 4 2 = 0 → t.port p = { y with credReq := x.credReq + n }) ∧ (wBits m 4 2 = 1 → t.port p = y) ∧
        (wBits m 4 2 = 2 → t.port p = { y with credInst := x.credInst + n }) ∧
        (wBits m 4 2 = 3 → t.port p = { y with credCtl := x.credCtl + n }))) ∧
    (∀ m, s.peekCtl p (isType 2) = some m → x.nakRun = 0 →
      ∃ t, exec (.dnak p) s = .next t ∧ only t ∧
        t.out = s.out ++ (x.replay.filter (fun e => laterSeq 65536 ((wBits m 4 16 + 65535) % 65536) e.1)).map
          (fun e => .flit p (encodeDataFlit e.1 e.2)) ∧
        t.fld (Reg.lnkPortErr_replays.port p) = min 65535 (s.fld (Reg.lnkPortErr_replays.port p) + 1)) ∧
    (∀ m, s.peekCtl p (isType 4) = some m → x.cnakRun = 0 →
      ∃ t, exec (.cnak p) s = .next t ∧ only t ∧
        t.out = s.out ++ (x.creplay.filter (fun e => laterSeq 4096 ((wBits m 4 12 + 4095) % 4096) e.1)).map
          (fun e => .flit p (encodeCtlFlit e.1 e.2)))

/-- R201, R364, R365, R369: link-layer and system messages. A SYNC_INC at the Planet adds to its counter, a SYNC_VAL at a Moon sets its copy;
a small offset of a TIME message is slewed and one beyond 1,000 ns is a step; TIME goes out on every downstream link of the Planet and of a
Moon that is locked; without TIME a Moon enters holdover; a MEASURE request is answered with the turnaround, and a reply counts toward the
latency. -/
def Obligations.SystemMessages : Prop :=
  ∀ (p : PortId) (m : W64) (s : State),
    let counted := fun (t : State) => t = { s with link := t.link, sysCnt := t.sysCnt, ctxs := t.ctxs, pwr := t.pwr, out := t.out } ∧
      (s.portsOn → t.pwr = s.pwr)
    (s.isPlanet = true → s.peekCtl p (isType 6) = some m →
      ∃ t, exec (.syncInc p) s = .next t ∧ counted t ∧
        SMap.get 0 t.sysCnt (wBits m 4 8) = SMap.get 0 s.sysCnt (wBits m 4 8) + BitVec.ofNat 32 (wBits m 12 32) ∧
        ∀ n, n ≠ wBits m 4 8 → SMap.get 0 t.sysCnt n = SMap.get 0 s.sysCnt n) ∧
    (s.isMoon = true → s.serves = true → s.upstream = some p → s.peekCtl p (isType 7) = some m →
      ∃ t, exec (.syncVal p) s = .next t ∧ counted t ∧
        SMap.get 0 t.sysCnt (wBits m 4 8) = BitVec.ofNat 32 (wBits m 12 32) ∧ t.link.syncGot.getLsbD (wBits m 4 8) = true ∧
        ∀ n, n ≠ wBits m 4 8 → SMap.get 0 t.sysCnt n = SMap.get 0 s.sysCnt n) ∧
    (s.isMoon = true → s.upstream = some p → s.peekCtl p (isType 8) = some m → s.time.firstTime = false →
      let off := s.timeOffset p m
      (off.natAbs ≤ 1000 * 2 ^ 32 →
        ∃ t, exec (.time p) s = .next t ∧ t = { s with link := t.link, time := t.time } ∧ t.time.fine = s.time.fine ∧ t.time.slew = off ∧
          t.time.holdover = false) ∧
      (1000 * 2 ^ 32 < off.natAbs →
        ∃ t, exec (.time p) s = .next t ∧
          t = { s with link := t.link, time := t.time, regs := t.regs, pcie := t.pcie, pwr := t.pwr, out := t.out } ∧
          (s.dom epDom = .on → t.pwr = s.pwr) ∧ t.time.slew = 0 ∧ t.time.locked = false ∧ t.time.fine = (s.time.fine + off) % 2 ^ 96 ∧
          t.fld Reg.timeStatus_steps = min 65535 (s.fld Reg.timeStatus_steps + 1) ∧ (t.reg Reg.lnkEvent).getLsbD 12 = true)) ∧
    (let sends := s.isPlanet = true ∨ (s.isMoon = true ∧ s.link.upValid = true ∧ s.time.locked = true)
     (sends → ∃ t, exec .timeSendInterval s = .next t ∧ s.sent t ∧ ∀ q ∈ s.downstream, t.carries q s.timeMsg) ∧
     (¬ sends → exec .timeSendInterval s = .next s)) ∧
    (s.isMoon = true →
      exec .timeHoldover s = .next { s with time := { s.time with locked := false, holdover := true, good := 0 } }) ∧
    (∀ turn : BitVec 30, s.peekCtl p (fun m => isType 9 m && decide (wBits m 4 2 = 0)) = some m →
      ∃ t, exec (.measureRequest p turn) s = .next t ∧ s.sent t ∧ t.carries p (ctlMsg 9 [(4, 1), (6, wBits m 6 8), (14, turn.toNat)])) ∧
    (∀ ui : Nat, s.peekCtl p (fun m => isType 9 m && decide (wBits m 4 2 = 1)) = some m → (s.port p).measDone < 16 →
      ∃ t, exec (.measureReply p ui) s = .next t ∧ t = { s with link := t.link } ∧
        t.port p = { s.port p with inCtl := (s.port p).inCtl.erase m, measDone := (s.port p).measDone + 1,
                                   measSum := (s.port p).measSum + ui, measTurn := (s.port p).measTurn + wBits m 14 30 })

/-- R350, R371 to R373: the topology. At the Planet a JOIN across one of its own ports, with nothing else waiting to be numbered, gives the
device there the lowest free number, or with none free it is refused; across a link that leads to a numbered device it numbers nothing. A LOST
marks what hangs on the lost link REATTACHING; an ATTACHED answer puts the asked device back under its new link; a PORTS report is recorded; a
device that does not answer is no candidate any more; and at the end of the wait no device is left REATTACHING. A Moon takes its number and
upstream link from an ASSIGN, a new upstream link from a REATTACH, which it answers, is refused by a REFUSE, and then sends JOIN again. A JOIN
that comes during a re-forming, or while a report is due, waits. That list of JOINs, that a link to a numbered device numbers nothing, and the
neighbours that a PORTS command names are the model's choices (assumption 56). -/
def Obligations.Topology : Prop :=
  ∀ (p : PortId) (m : W64) (s : State),
    let msg := fun (sub : Nat) => s.peekCtl p (isSub 10 sub) = some m
    let d := tmDev m
    (s.isPlanet = true →
      (msg 1 → d = 0 → s.link.joinWait = [] → s.reforming = false → s.reportDue = false → s.portUp p = true →
        (s.linkKnown 0 p.val = true → ∃ t, exec (.join p) s = .next t ∧ s.sent t ∧ t.link.topo = s.link.topo ∧
          t.link.joinWait = []) ∧
        (s.linkKnown 0 p.val = false →
          (∀ n, s.freeDev = some n →
            ∃ t, exec (.join p) s = .next t ∧ s.sent t ∧
              t.topoEnt n = { state := 1, parent := 0, parentPort := p.val, hops := (s.topoEnt 0).hops + 1, added := s.link.formed } ∧
              (∀ j, j ≠ n → t.topoEnt j = s.topoEnt j) ∧ (t.port p).use = .downstream ∧ (t.port p).partner = n ∧ t.link.joinWait = [] ∧
              t.carries p (topoMsg 2 n p.val ((s.topoEnt 0).hops + 1) n 0 0)) ∧
          (s.freeDev = none →
            ∃ t, exec (.join p) s = .next t ∧ t.link.topo = s.link.topo ∧ (t.reg Reg.lnkEvent).getLsbD 13 = true ∧
              t.carries p (topoMsg 7 0 p.val 0 0 0 0)))) ∧
      (msg 1 → s.reforming = true ∨ s.reportDue = true →
        ∃ t, exec (.join p) s = .next t ∧ s.sent t ∧ t.link.topo = s.link.topo ∧
          (if d = 0 then (0, p.val) else (d, tmPort m)) ∈ t.link.joinWait) ∧
      (msg 3 →
        ∃ t, exec (.lost p) s = .next t ∧ t.mem = s.mem ∧ ∀ j, j ≠ 0 → (s.topoEnt j).state = 1 → (s.topoEnt j).parent = d →
          (s.topoEnt j).parentPort = tmPort m → (t.topoEnt j).state = 2) ∧
      (∀ w q, msg 5 → (s.topoEnt d).state = 2 → (s.topoEnt d).ask = some (w, q) →
        ∃ t, exec (.attached p) s = .next t ∧ t.mem = s.mem ∧ (t.topoEnt d).state = 1 ∧ (t.topoEnt d).parent = w ∧
          (t.topoEnt d).parentPort = q ∧ (t.topoEnt d).active = tmMask m) ∧
      (∀ nbrs foreign, msg 6 → (s.port p).use = .downstream → s.portUp p = true → (s.topoEnt d).state ≠ 0 →
        ∃ t, exec (.ports p ⟨nbrs, foreign⟩) s = .next t ∧ t.mem = s.mem ∧ (t.topoEnt d).active = tmMask m ∧ (t.topoEnt d).nbrs = nbrs ∧
          (t.topoEnt d).reported = true) ∧
      (∀ dev : BitVec 8, (s.topoEnt dev.toNat).state = 2 → (s.topoEnt dev.toNat).ask.isSome = true →
        ∃ t, exec (.reattachNoAnswer dev) s = .next t ∧ t.mem = s.mem ∧ (t.topoEnt dev.toNat).cand = false) ∧
      (s.reforming = true →
        ∃ t, exec .reattachWaitExpiry s = .next t ∧ t.mem = s.mem ∧ (∀ j, (t.topoEnt j).state ≠ 2) ∧
          (t.reg Reg.lnkEvent).getLsbD 8 = true ∧ (t.reg Reg.lnkEvent).getLsbD 10 = true)) ∧
    (s.isMoon = true →
      (msg 2 → s.link.dev = 0 →
        ∃ t, exec (.assign p) s = .next t ∧ t = { s with link := t.link, time := t.time, pwr := t.pwr, out := t.out } ∧
          (s.portsOn → t.pwr = s.pwr) ∧ t.link.dev = d ∧ t.upstream = some p ∧ t.link.hops = tmHops m ∧ (t.port p).use = .upstream ∧
          t.link.refused = false) ∧
      (msg 4 → s.link.dev ≠ 0 → d = s.link.dev →
        ∃ t, exec (.reattach p) s = .next t ∧ s.sent t ∧ t.link.dev = s.link.dev ∧
          t.upstream = some p ∧ t.link.hops = tmHops m ∧ t.carries p (topoMsg 5 d p.val (tmHops m) 0 s.activeMask 2)) ∧
      (msg 7 → s.link.dev = 0 →
        ∃ t, exec (.refuse p) s = .next t ∧ s.sent t ∧ t.link.refused = true) ∧
      (∀ q, s.link.refused = true →
        allPorts.find? (fun p => s.portUp p && (decide ((s.port p).partnerRole = 1) || decide ((s.port p).partner ≠ 0))) = some q →
        ∃ t, exec .joinRetry s = .next t ∧ s.sent t ∧ t.carries q (topoMsg 1 0 q.val 0 0 0 2)))

/-- R357, R363, R364, R374, R410: the ports. Each cause takes the port DOWN, counted, with its event, and ends what was asked over it; no
other port's state changes, but that a gated one which carries a report of it wakes (R401), and, where no Tail entry is on its way over the
port, no memory. A port that finds its partner's signal trains through EQ, ALIGN, where it sends its PORTS and 16 MEASURE requests, and
MEASURE to ACTIVE with its latency, or DOWN with cause 6 where the partner may not be linked; the Comet pattern goes out on a port that is not
ACTIVE. -/
def Obligations.PortEvents : Prop :=
  ∀ (p : PortId) (s : State),
    let x := s.port p
    let downs := fun (i : Instr) (cause : Nat) =>
      ∃ t, exec i s = .next t ∧ (t.port p).state = .down ∧ (t.port p).downCause = cause ∧
        t.fld (Reg.lnkPortErr_downs.port p) = min 255 (s.fld (Reg.lnkPortErr_downs.port p) + 1) ∧ (t.reg Reg.lnkEvent).getLsbD p.val = true ∧
        (∀ q, q ≠ p → (t.port q).state = (s.port q).state ∨
          (s.dom (108 + q.val) ≠ .on ∧ (s.port q).state = .off ∧ (t.port q).state = .detect)) ∧
        ((∀ r ∈ s.link.peerReqs, r.port = p → ¬(r.eng = .tmv ∧ r.slot = 2 ^ 20)) →
          (∀ r ∈ t.link.peerReqs, r.port ≠ p) ∧ t.mem = s.mem ∧ t.ctxs = s.ctxs)
    let fits := if s.isPlanet = true then x.partnerRole ≠ 1 ∧ (x.partner = 0 ∨ x.use ≠ .none ∨ (s.topoEnt x.partner).state ≠ 0)
      else s.link.dev = 0 ∨ ¬(x.partnerRole = 2 ∧ x.partner = s.link.dev)
    (x.state ≠ .off → x.state ≠ .down → downs (.portDownRequest p) 5 ∧ (x.state ≠ .detect → downs (.lossOfSignal p) 1)) ∧
    (x.state = .measure ∨ x.state = .active → downs (.flitSilenceTimeout p) 2) ∧
    (x.state = .eq ∨ x.state = .align ∨ x.state = .measure → downs (.trainingTimeout p) 7) ∧
    (x.state = .detect ∨ (x.state = .down ∧ x.wait1ms = false) → s.flag (Reg.lnkPortCtl_en.port p) = true → s.isPlanet = true ∨ s.isMoon = true →
      exec (.partnerSignalDetect p) s = .next (s.setPort p { x.torn .eq with lanesOk := 63 })) ∧
    (x.state = .eq → exec (.trainingStateDone p) s = .next (s.setPort p { x with state := .align })) ∧
    (x.state = .align →
      ∃ t, exec (.trainingStateDone p) s = .next t ∧ s.sent t ∧ (t.port p).state = .measure ∧
        t.carries p (s.portsMsg p) ∧ ∀ k, k < 16 → t.carries p (ctlMsg 9 [(6, k)])) ∧
    (x.state = .measure → x.measDone = 16 → x.partnerRole ≠ 0 →
      (x.foreign = false → fits →
        ∃ t, exec (.trainingStateDone p) s = .next t ∧ (t.port p).state = .active ∧
          (t.port p).latPs = min (2 ^ 20 - 1) ((x.measSum - x.measTurn) * 753 / 640) ∧ t.mem = s.mem ∧ t.ctxs = s.ctxs) ∧
      (x.foreign = true ∨ ¬ fits → downs (.trainingStateDone p) 6)) ∧
    exec (.retrainWaitExpiry p) s = .next (s.setPort p { x with wait1ms := false }) ∧
    (x.state ≠ .active → s.isPlanet = true ∨ s.isMoon = true → exec (.cometSend p) s = .next (s.emit (.comet p)))

/-- R320, R359, R361, R362, R385, R388, R462: peer messages. A READ that the device serves is answered with the bytes that an access of the
named context delivers, and one it does not serve, or whose read of host memory fails, with a fault and poisoned bytes; a WRITE of T0 or T1
content stores its bytes and is acknowledged; an answer frees its request and its response space, and its bytes are kept for the work that
waits, with what has been written there since. Words arrive as the transit buffer delivers them (where their errors stand is the model's
choice, assumption 83). The copies of the system-counter ownership are taken, an attestation request for this device is queued, an order to
retire a slot is obeyed, and a Moon's answer is passed back or ends the Planet's request; the layout of these messages and the order to retire
by message are the model's choices (assumptions 57 and 85). -/
def Obligations.PeerMessages : Prop :=
  ∀ (p : PortId) (m : DataMsg) (s : State),
    let msg := fun (kind : Nat) => (s.port p).inMsgs.find? (fun m => decide (m.kind = kind)) = some m
    let v := s.hostView m.dstCtx
    let w := fun (i : Nat) => m.read.word i
    let header := fun (kind status : Nat) => dataHeader kind m.srcCtx.val m.dstCtx.val status m.tag m.len m.addr
    let lost := s.lostFor m.dstCtx .tmv (peerSlot p) && s.readsHost v m.addr m.len
    (msg 1 → s.awake → s.peerServes p m.dstCtx = true → (∀ e ∈ piecesOf m.addr m.len, Loc.near (s.readPlace v e.1) = true) →
      (lost = false → ∃ t, exec (.read p) s = .next t ∧ t.mem = s.mem ∧ t.ctxs = s.ctxs ∧
        t.carriesData p 3 (header 3 0) (delivered (s.readBytes v m.addr m.len))) ∧
      (lost = true → ∃ t, exec (.read p) s = .next t ∧ t.mem = s.mem ∧ t.ctxs = s.ctxs ∧ t.carriesData p 3 (header 3 1) (poisonRun m.len) ∧
        t.lostFor m.dstCtx .tmv (peerSlot p) = false)) ∧
    (msg 1 → s.awake → s.peerServes p m.dstCtx = false →
      ∃ t, exec (.read p) s = .next t ∧ s.received t m ∧ t.carriesData p 3 (header 3 1) (poisonRun m.len)) ∧
    (∀ k, msg 2 → s.awake → s.peerServes p m.dstCtx = true → 0 < m.len → m.data.length = m.len → m.addr % 4096 + m.len ≤ 4096 →
      m.addr + m.len ≤ 2 ^ 52 → s.landsAt v m.addr k →
      ∃ t, exec (.write p) s = .next t ∧ (∀ i b, m.read.data[i]? = some b → SMap.get 0 t.mem (k + i) = b.1) ∧
        (∀ j, (j < k ∨ k + m.len ≤ j) → SMap.get 0 t.mem j = SMap.get 0 s.mem j) ∧ t.ctxs = s.ctxs ∧ t.carriesData p 4 (header 4 0) []) ∧
    (msg 2 → s.awake → s.peerServes p m.dstCtx = false →
      ∃ t, exec (.write p) s = .next t ∧ s.received t m ∧ t.carriesData p 4 (header 4 1) []) ∧
    (∀ r, msg 3 → m.status = 0 → s.link.peerReqs.find? (fun r => decide (r.port = p) && decide (r.tag = m.tag) && decide (r.write = false)) = some r →
      r.stream = false → m.data.length = r.len →
      ∃ t, exec (.readData p) s = .next t ∧ s.received { t with deposits := s.deposits } m ∧
        t.link.peerReqs = s.link.peerReqs.erase r ∧ (s.portIdle p → (t.port p).respRes = (s.port p).respRes - flitsFor m.data.length) ∧
        (∀ i b, m.read.data[i]? = some b → (∀ e ∈ r.newer, e.1 ≠ r.addr + i) →
          SMap.find? t.deposits (depKey r.dev r.peerCtx (r.addr + i)) = some b) ∧
        ∀ l l' a b, r.newer = l ++ (a, b) :: l' → (∀ e ∈ l', e.1 ≠ a) → SMap.find? t.deposits (depKey r.dev r.peerCtx a) = some b) ∧
    (∀ r, msg 4 → m.status = 0 → s.link.peerReqs.find? (fun r => decide (r.port = p) && decide (r.tag = m.tag) && decide (r.write = true)) = some r →
      ∃ t, exec (.writeAck p) s = .next t ∧ (¬(r.eng = .tmv ∧ r.slot = 2 ^ 20) → s.received t m ∧
        t.link.peerReqs = s.link.peerReqs.erase r ∧ (s.portIdle p → (t.port p).respRes = (s.port p).respRes - 1))) ∧
    (msg 5 → s.isMoon = true → s.upstream = some p →
      (wBits (w 0) 0 8 = 1 →
        ∃ t, exec (.mgmtReq p) s = .next t ∧ (m.errs = [] → s.sent { t with regs := s.regs, link := s.link }) ∧
          t = { s with link := t.link, regs := t.regs, log := t.log, logNext := t.logNext, pcie := t.pcie, pwr := t.pwr, out := t.out } ∧
          t.reg Reg.devSyscntOwn = w 1 ∧ t.reg Reg.devSyscntEn = w 2 ∧ t.link.sysDevs = wBits (w 3) 0 9) ∧
      (wBits (w 0) 0 8 = 2 → wBits (w 0) 8 8 = s.link.dev → s.sec.attQ.length < 16 →
        ∃ t, exec (.mgmtReq p) s = .next t ∧ s.received { t with sec := s.sec } m ∧
          t.sec = { s.sec with attQ := s.sec.attQ ++ [{ src := .remote p m.tag, kind := 3, mctx := Fin.ofNat 16 (wBits (w 0) 16 4),
                                                        nonce := [w 1, w 2, w 3, w 4], addr := 0 }] }) ∧
      (wBits (w 0) 0 8 = 3 →
        let md := wBits (w 0) 8 6
        (s.migBusy ≠ 0 → ∃ t, exec (.mgmtReq p) s = .next t ∧ t.bankMgc.req = true ∧ t.models = s.models ∧ t.link = s.link ∧ t.mem = s.mem) ∧
        (∀ j, s.migBusy = 0 → (s.model md).activeSlot = some j → (s.model md).valid = true →
          (s.model md).st (1 - j) = .empty ∨ (s.model md).st (1 - j) = .stale →
          ∃ t, exec (.mgmtReq p) s = .next t ∧ t.mem = s.mem ∧
            (t.model md).st j = (if (s.model md).boundary = none ∧ s.boundCount md j = 0 then .stale else .retiring)))) ∧
    (msg 6 → s.pwr.stall = [] →
      let st := wBits (w 0) 8 8
      let mine := s.sec.remote.find? (fun r => decide (r.1 = p) && decide (r.2.1 = m.tag))
      (∀ r, mine = some r → st ≠ 3 ∨ s.reportPlace 0 r.2.2 = false →
        ∃ t, exec (.mgmtResp p) s = .next t ∧ s.received { t with sec := s.sec } m ∧
          t.sec = { s.sec with attState := if st = 3 then 4 else st, remote := s.sec.remote.erase r }) ∧
      (∀ r, mine = none → s.link.relays.find? (fun r => decide (r.2.2.1 = p) && decide (r.2.2.2 = m.tag)) = some r →
        ∃ t, exec (.mgmtResp p) s = .next t ∧ s.received t m ∧ t.link.relays = s.link.relays.erase r ∧
          let data := leBytes 8 (2 + st * 2 ^ 8) ++ (m.read.data.drop 8).map Prod.fst
          t.carriesData r.1 6 (dataHeader 6 0 0 0 r.2.1 data.length 0) (clean data)))

/-! ### The security island (chapter 17) -/

/-- R453, R454, R456 to R459: the update record, the security version, and the measurements. An update begins for the slot that is not
running, finishes and is cancelled; a keyed SVN_COMMIT within the running firmware's raises min_svn; registers 9 to 11 and each CTX_MEAS are
extended, the others ignore it.
R458 to R460, R462: attestation. A request joins the queue with its kind, nonce and destination, or ends BUSY with 16 waiting; a Planet sends
a Moon's request toward it; stage 2 takes the oldest with the values of that moment; a signed report whose destination is not in order ends
FAULT, one whose destination meets a gated domain waits (R401), and one for a Planet is sent back. A read of a certificate word, of the
physical function or of a context, returns it and advances the index; it gives 0 without effect before the device is ready, a context's in
RECOVERY too, waits behind accesses of its function that wait (assumption 90), and in D3hot or without power is not taken (R426, R432, R441,
R449). The layout of the messages that carry a request and a report is the model's choice (assumption 57); when begin, finish and cancel act,
and that the 16 waiting leave out the report being signed, are its readings (assumption 60). -/
def Obligations.SecurityIsland : Prop :=
  (∀ (k : Fin 16) (c : CtxId) (slot : Bool) (version : BitVec 32) (v : W64) (s : State),
     let secIs := fun (i : Instr) (x : Sec) => exec i s = .next { s with sec := x }
     (¬(s.sec.state = 2 ∧ s.sec.slot = slot) → ¬(s.sec.upState = 1 ∧ s.sec.upSlot ≠ slot) →
       secIs (.fwupBegin slot version) { s.sec with upSlot := slot, upState := 1, upVersion := version }) ∧
     (s.sec.state = 2 → s.sec.slot = slot → exec (.fwupBegin slot version) s = .next s) ∧
     (s.sec.upState = 1 → secIs .fwupFinish { s.sec with upState := 0 }) ∧ secIs .fwupCancel { s.sec with upState := 0 } ∧
     (wBits v 0 16 = 0x5E3C → s.sec.minSvn < wBits v 16 6 → wBits v 16 6 ≤ s.sec.svn → secIs (.svnCommit v) { s.sec with minSvn := wBits v 16 6 }) ∧
     (wBits v 0 16 ≠ 0x5E3C ∨ wBits v 16 6 ≤ s.sec.minSvn ∨ s.sec.svn < wBits v 16 6 → exec (.svnCommit v) s = .next s) ∧
     (9 ≤ k.val → k.val ≤ 11 → secIs (.measurementExtend k) { s.sec with
       meas := s.sec.meas.set k.val (sha384 (digestBytes (s.sec.meas.getD k.val 0) ++ digestBytes (s.digestAt Reg.secExtD))) }) ∧
     (k.val < 9 ∨ 11 < k.val → exec (.measurementExtend k) s = .next s) ∧
     secIs (.contextMeasurementExtend c) { s.sec with
       ctxMeas := s.sec.ctxMeas.set c.val
         (sha384 (digestBytes (s.sec.ctxMeas.getD c.val 0) ++ digestBytes (s.digestAt (ctxBase c + Reg.ctxExtD)))) }) ∧
  (∀ (c : CtxId) (s : State),
     let mine : AttReq := { src := .pf, kind := 1, mctx := c, nonce := [], addr := s.fld Reg.secAttAddr_addr }
     let ofCtx : AttReq := { src := .ctx c, kind := 2, mctx := c, nonce := [], addr := s.fld (Reg.ctxAttAddr_addr.at c) }
     let secIs := fun (i : Instr) (x : Sec) => exec i s = .next { s with sec := x }
     (s.sec.attQ.length < 16 →
       secIs (.attestationRequest c) { s.sec with attQ := s.sec.attQ ++ [mine], attState := 1 } ∧
       secIs (.remoteAttestationRequest 0 c) { s.sec with attQ := s.sec.attQ ++ [mine], attState := 1 } ∧
       secIs (.contextAttestationRequest c) { s.sec with attQ := s.sec.attQ ++ [ofCtx], ctxAtt := s.sec.ctxAtt.set c.val 1 }) ∧
     (16 ≤ s.sec.attQ.length →
       secIs (.attestationRequest c) { s.sec with attState := 5 } ∧
       secIs (.contextAttestationRequest c) { s.sec with ctxAtt := s.sec.ctxAtt.set c.val 5 }) ∧
     (∀ (dev : BitVec 8) (q : PortId), dev ≠ 0 → s.isPlanet = true → s.rootPort dev.toNat = some q → s.portUp q = true →
       ∃ t, exec (.remoteAttestationRequest dev c) s = .next t ∧ s.sent { t with sec := s.sec } ∧
         t.sec = { s.sec with attState := 1, remote := s.sec.remote ++ [(q, (s.port q).nextTag, s.fld Reg.secAttAddr_addr)] } ∧
         let data := attestData dev.toNat c (s.nonceAt Reg.secAttNonce)
         t.carriesData q 5 (dataHeader 5 0 0 0 (s.port q).nextTag data.length 0) (clean data)) ∧
     (∀ q l, s.sec.signing = none → s.sec.attQ = q :: l → s.sec.stage2 = true →
       ∃ t, exec .reportSignStart s = .next t ∧ t = { s with sec := t.sec } ∧ t.sec.signing = some (q, s.reportBody (s.nonced q)) ∧ t.sec.attQ = l ∧
         (q.src = .pf → t.sec.attState = 2)) ∧
     (∀ q body, s.sec.signing = some (q, body) → s.pwr.stall = [] →
       (∀ d l k, (q.src = .pf ∧ d = 0) ∨ q.src = .ctx d → s.reportPlace d q.addr = true → s.writePlace (s.hostView d) q.addr = some l →
         k ∈ s.memDoms 1 l → s.dom k ≠ .on →
         ∃ t, exec .reportSignDone s = .next t ∧ t.sec = s.sec ∧ t.mem = s.mem ∧ t.objs = s.objs ∧ t.ctxs = s.ctxs) ∧
       (q.src = .pf → s.reportPlace 0 q.addr = false →
         ∃ t, exec .reportSignDone s = .next t ∧ t = { s with sec := t.sec } ∧ t.sec.signing = none ∧ t.sec.attState = 4) ∧
       (∀ d, q.src = .ctx d → s.reportPlace d q.addr = false →
         ∃ t, exec .reportSignDone s = .next t ∧ t = { s with sec := t.sec } ∧ t.sec.signing = none ∧ t.sec.ctxAtt = s.sec.ctxAtt.set d.val 4) ∧
       (q.src = .pf → s.awake → s.reportPlace 0 q.addr = true →
         ∃ t, exec .reportSignDone s = .next t ∧ t.sec.signing = none ∧ (t.sec.attState = 3 ∨ t.sec.attState = 4) ∧ t.ctxs = s.ctxs) ∧
       (∀ p tag, q.src = .remote p tag →
         ∃ t, exec .reportSignDone s = .next t ∧ s.sent { t with sec := s.sec } ∧ t.sec = { s.sec with signing := none } ∧
           let data := leBytes 8 (2 + 3 * 2 ^ 8) ++ signedReport body
           t.carriesData p 6 (dataHeader 6 0 0 0 tag data.length 0) (clean data))) ∧
     (let reads := fun (who : Option CtxId) (off : Nat) (cert word : Fld) =>
        let fn : Fin 16 := who.elim 0 s.owner
        let answers := s.flag Reg.devStatus_ready = true ∧ (who = none ∨ s.inRecovery = false)
        (s.up = true → s.pcie.d3.getLsbD fn.val = false →
          (answers → s.hostBehind fn = false →
            ∃ t, exec (.certDataRead who) s = .next t ∧ t = { s with regs := t.regs, out := t.out } ∧
              t.out = s.out ++ [.readVal off (certWord (s.flag cert) (s.fld word))] ∧ t.fld word = (s.fld word + 1) % 2 ^ word.width) ∧
          (answers → s.hostBehind fn = true → exec (.certDataRead who) s = .next { s with aptWait := s.aptWait ++ [.certData fn who] }) ∧
          (¬ answers → exec (.certDataRead who) s = .next { s with out := s.out ++ [.readVal off 0] })) ∧
        (s.up = false ∨ s.pcie.d3.getLsbD fn.val = true → exec (.certDataRead who) s = .next s)
      reads none Reg.secCertData Reg.secCertSel_cert Reg.secCertSel_word ∧
      reads (some c) (ctxBase c + Reg.ctxCertData) (Reg.ctxCertSel_cert.at c) (Reg.ctxCertSel_word.at c)))

/-! ### The charge array's arithmetic (R75, R77, R79, R105) -/

/-- R77, R79: the counts of a row group recombine to the exact sum of products: for inputs that B-bit two's complement holds, the group value
is Σ x · w over the group's rows, and a tile's accumulator is the sum of x · w · 2^s over all its rows, where s is the shift of the sector in
which the row's group begins; nothing is rounded. -/
def Obligations.ChargeSumsExact : Prop :=
  ∀ (int4 : Bool) (b gr : Nat) (shift : Nat → Nat) (rows : List (Int × Cell2)), 0 < b → 0 < gr →
    (∀ r ∈ rows, -(2 ^ (b - 1) : Int) ≤ r.1 ∧ r.1 < 2 ^ (b - 1)) →
    groupValue int4 b rows = (rows.map (fun r => r.1 * cellVal int4 r.2)).sum ∧
    tileAcc int4 b gr shift rows =
      (rows.zipIdx.map (fun r => r.1.1 * cellVal int4 r.1.2 * (2 ^ shift (r.2 / gr * gr / 64) : Nat))).sum

/-- R75, R105: an encoding around stuck cells stores exactly the weight, and equals every forced cell on both sides; a weight with no stuck
cell has one, with one side 0. -/
def Obligations.EncodingStoresWeight : Prop :=
  ∀ (int4 : Bool) (w : Int) (fPos fNeg : List (Nat × Bool)) (c : Cell2), w.natAbs ≤ encL int4 →
    (encodeW int4 w fPos fNeg = some c → cellVal int4 c = w ∧ meets c.1 fPos = true ∧ meets c.2 fNeg = true) ∧
    (∃ e, ordinary int4 w = some e ∧ cellVal int4 e = w ∧ (e.1 = 0 ∨ e.2 = 0))
end

