-- ==== Sys2Proof/Laws/SMap.lean ====
section
/-! SUPPORT. Sparse data: reading what was written, leaving every other key, and keeping the canonical form. -/

namespace Sys2Proof.Machine

variable {α : Type}

@[simp] theorem SMap.find?_nil (i : Nat) : SMap.find? ([] : SMap α) i = none := rfl

@[simp] theorem SMap.get_nil (d : α) (i : Nat) : SMap.get d [] i = d := rfl

@[simp] theorem SMap.find?_insert_self (m : SMap α) (i : Nat) (x : α) : SMap.find? (SMap.insert m i x) i = some x := by
  induction m with
  | nil => simp [SMap.insert, SMap.find?]
  | cons e m ih =>
    obtain ⟨k, v⟩ := e
    simp only [SMap.insert]
    split
    · simp [SMap.find?]
    · split
      · simp [SMap.find?]
      · rename_i h _
        simp [SMap.find?, h, ih]

theorem SMap.find?_insert_other (m : SMap α) {i j : Nat} (x : α) (h : j ≠ i) :
    SMap.find? (SMap.insert m i x) j = SMap.find? m j := by
  induction m with
  | nil => simp [SMap.insert, SMap.find?, h]
  | cons e m ih =>
    obtain ⟨k, v⟩ := e
    simp only [SMap.insert]
    split
    · subst_vars
      simp [SMap.find?, h]
    · split
      · simp [SMap.find?, h]
      · simp [SMap.find?, ih]

@[simp] theorem SMap.find?_erase_self (m : SMap α) (i : Nat) : SMap.find? (SMap.erase m i) i = none := by
  induction m with
  | nil => rfl
  | cons e m ih =>
    obtain ⟨k, v⟩ := e
    simp only [SMap.erase]
    split
    · exact ih
    · rename_i h
      simp [SMap.find?, h, ih]

theorem SMap.find?_erase_other (m : SMap α) {i j : Nat} (h : j ≠ i) : SMap.find? (SMap.erase m i) j = SMap.find? m j := by
  induction m with
  | nil => rfl
  | cons e m ih =>
    obtain ⟨k, v⟩ := e
    simp only [SMap.erase]
    split
    · subst_vars
      simp [SMap.find?, h, ih]
    · simp [SMap.find?, ih]

/-- What was written is read. -/
@[simp] theorem SMap.get_put_self [DecidableEq α] (d : α) (m : SMap α) (i : Nat) (x : α) : SMap.get d (SMap.put d m i x) i = x := by
  unfold SMap.put SMap.get
  split
  · subst_vars; simp
  · simp

/-- A write leaves every other key. -/
theorem SMap.get_put_other [DecidableEq α] (d : α) (m : SMap α) {i j : Nat} (x : α) (h : j ≠ i) :
    SMap.get d (SMap.put d m i x) j = SMap.get d m j := by
  unfold SMap.put SMap.get
  split
  · rw [SMap.find?_erase_other m h]
  · rw [SMap.find?_insert_other m x h]

/-- Reading after a write, in one equation. -/
theorem SMap.get_put [DecidableEq α] (d : α) (m : SMap α) (i j : Nat) (x : α) :
    SMap.get d (SMap.put d m i x) j = if j = i then x else SMap.get d m j := by
  split
  · subst_vars; simp
  · exact SMap.get_put_other d m x ‹_›

/-- Keeping the keys that meet a test. -/
theorem SMap.find?_keepKeys (p : Nat → Bool) (m : SMap α) (i : Nat) :
    SMap.find? (SMap.keepKeys p m) i = if p i then SMap.find? m i else none := by
  induction m with
  | nil => simp [SMap.keepKeys]
  | cons e m ih =>
    obtain ⟨k, v⟩ := e
    simp only [SMap.keepKeys] at ih
    by_cases hk : p k
    · by_cases hi : i = k
      · subst hi; simp [SMap.keepKeys, SMap.find?, hk]
      · simp [SMap.keepKeys, SMap.find?, hk, hi, ih]
    · by_cases hi : i = k
      · subst hi; simp [SMap.keepKeys, hk, ih]
      · simp [SMap.keepKeys, SMap.find?, hk, hi, ih]

theorem SMap.get_keepKeys (d : α) (p : Nat → Bool) (m : SMap α) (i : Nat) :
    SMap.get d (SMap.keepKeys p m) i = if p i then SMap.get d m i else d := by
  unfold SMap.get
  rw [SMap.find?_keepKeys]
  split <;> rfl

/-! ### The canonical form -/

variable [DecidableEq α]

theorem SMap.wfFrom_mono (d : α) {a b : Nat} (h : a ≤ b) : ∀ {m : SMap α}, SMap.wfFrom d b m = true → SMap.wfFrom d a m = true
  | [], _ => rfl
  | (k, v) :: m, hm => by
    simp only [SMap.wfFrom, Bool.and_eq_true, decide_eq_true_eq] at hm ⊢
    exact ⟨⟨le_trans h hm.1.1, hm.1.2⟩, hm.2⟩

theorem SMap.wfFrom_insert (d : α) (i : Nat) (x : α) (hx : x ≠ d) :
    ∀ (b : Nat) (m : SMap α), b ≤ i → SMap.wfFrom d b m = true → SMap.wfFrom d b (SMap.insert m i x) = true
  | b, [], hb, _ => by simp [SMap.insert, SMap.wfFrom, hb, hx]
  | b, (k, v) :: m, hb, hm => by
    simp only [SMap.wfFrom, Bool.and_eq_true, decide_eq_true_eq] at hm
    simp only [SMap.insert]
    split
    · subst_vars; simp [SMap.wfFrom, hb, hx, hm.2]
    · split
      · simp only [SMap.wfFrom, Bool.and_eq_true, decide_eq_true_eq]
        exact ⟨⟨hb, hx⟩, ⟨⟨by omega, hm.1.2⟩, hm.2⟩⟩
      · simp only [SMap.wfFrom, Bool.and_eq_true, decide_eq_true_eq]
        exact ⟨hm.1, SMap.wfFrom_insert d i x hx (k + 1) m (by omega) hm.2⟩

theorem SMap.wfFrom_erase (d : α) (i : Nat) :
    ∀ (b : Nat) (m : SMap α), SMap.wfFrom d b m = true → SMap.wfFrom d b (SMap.erase m i) = true
  | _, [], _ => rfl
  | b, (k, v) :: m, hm => by
    simp only [SMap.wfFrom, Bool.and_eq_true, decide_eq_true_eq] at hm
    simp only [SMap.erase]
    split
    · exact SMap.wfFrom_mono d (by omega) (SMap.wfFrom_erase d i (k + 1) m hm.2)
    · simp only [SMap.wfFrom, Bool.and_eq_true, decide_eq_true_eq]
      exact ⟨hm.1, SMap.wfFrom_erase d i (k + 1) m hm.2⟩

theorem SMap.wfFrom_keepKeys (d : α) (p : Nat → Bool) :
    ∀ (b : Nat) (m : SMap α), SMap.wfFrom d b m = true → SMap.wfFrom d b (SMap.keepKeys p m) = true
  | _, [], _ => rfl
  | b, (k, v) :: m, hm => by
    simp only [SMap.wfFrom, Bool.and_eq_true, decide_eq_true_eq] at hm
    by_cases hk : p k
    · have h := SMap.wfFrom_keepKeys d p (k + 1) m hm.2
      simp only [SMap.keepKeys] at h
      simp only [SMap.keepKeys, List.filter, hk, SMap.wfFrom, Bool.and_eq_true, decide_eq_true_eq]
      exact ⟨hm.1, h⟩
    · have h := SMap.wfFrom_mono d (by omega : b ≤ k + 1) (SMap.wfFrom_keepKeys d p (k + 1) m hm.2)
      simp only [SMap.keepKeys] at h
      simpa [SMap.keepKeys, List.filter, hk] using h

/-- A write keeps the canonical form. -/
theorem SMap.wf_put (d : α) (m : SMap α) (i : Nat) (x : α) (h : SMap.wf d m = true) : SMap.wf d (SMap.put d m i x) = true := by
  unfold SMap.put
  split
  · exact SMap.wfFrom_erase d i 0 m h
  · exact SMap.wfFrom_insert d i x ‹_› 0 m (Nat.zero_le i) h

/-- Keeping some keys keeps the canonical form. -/
theorem SMap.wf_keepKeys (d : α) (m : SMap α) (p : Nat → Bool) (h : SMap.wf d m = true) : SMap.wf d (SMap.keepKeys p m) = true :=
  SMap.wfFrom_keepKeys d p 0 m h

end Sys2Proof.Machine
end

