-- ==== Sys2Proof/Laws/State.lean ====
section
/-! SUPPORT. What each named update of the state leaves as it was, one lemma per field. -/

namespace Sys2Proof.Machine

open Sys2Proof

variable (s : State)

/-! ### `State.setReg` changes `regs` -/

@[simp] theorem State.setReg_pending (off : Nat) (v : W64) : (s.setReg off v).pending = s.pending := rfl
@[simp] theorem State.setReg_freeCtr (off : Nat) (v : W64) : (s.setReg off v).freeCtr = s.freeCtr := rfl
@[simp] theorem State.setReg_ctxs (off : Nat) (v : W64) : (s.setReg off v).ctxs = s.ctxs := rfl
@[simp] theorem State.setReg_shareAt (off : Nat) (v : W64) : (s.setReg off v).shareAt = s.shareAt := rfl
@[simp] theorem State.setReg_shareTab (off : Nat) (v : W64) : (s.setReg off v).shareTab = s.shareTab := rfl
@[simp] theorem State.setReg_running (off : Nat) (v : W64) : (s.setReg off v).running = s.running := rfl
@[simp] theorem State.setReg_sysCnt (off : Nat) (v : W64) : (s.setReg off v).sysCnt = s.sysCnt := rfl
@[simp] theorem State.setReg_mem (off : Nat) (v : W64) : (s.setReg off v).mem = s.mem := rfl
@[simp] theorem State.setReg_hostMem (off : Nat) (v : W64) : (s.setReg off v).hostMem = s.hostMem := rfl
@[simp] theorem State.setReg_deposits (off : Nat) (v : W64) : (s.setReg off v).deposits = s.deposits := rfl
@[simp] theorem State.setReg_poison (off : Nat) (v : W64) : (s.setReg off v).poison = s.poison := rfl
@[simp] theorem State.setReg_bch (off : Nat) (v : W64) : (s.setReg off v).bch = s.bch := rfl
@[simp] theorem State.setReg_flashErr (off : Nat) (v : W64) : (s.setReg off v).flashErr = s.flashErr := rfl
@[simp] theorem State.setReg_objs (off : Nat) (v : W64) : (s.setReg off v).objs = s.objs := rfl
@[simp] theorem State.setReg_pmap (off : Nat) (v : W64) : (s.setReg off v).pmap = s.pmap := rfl
@[simp] theorem State.setReg_orphans (off : Nat) (v : W64) : (s.setReg off v).orphans = s.orphans := rfl
@[simp] theorem State.setReg_quotas (off : Nat) (v : W64) : (s.setReg off v).quotas = s.quotas := rfl
@[simp] theorem State.setReg_mig (off : Nat) (v : W64) : (s.setReg off v).mig = s.mig := rfl
@[simp] theorem State.setReg_migWait (off : Nat) (v : W64) : (s.setReg off v).migWait = s.migWait := rfl
@[simp] theorem State.setReg_bankHost (off : Nat) (v : W64) : (s.setReg off v).bankHost = s.bankHost := rfl
@[simp] theorem State.setReg_bankMgc (off : Nat) (v : W64) : (s.setReg off v).bankMgc = s.bankMgc := rfl
@[simp] theorem State.setReg_models (off : Nat) (v : W64) : (s.setReg off v).models = s.models := rfl
@[simp] theorem State.setReg_blks (off : Nat) (v : W64) : (s.setReg off v).blks = s.blks := rfl
@[simp] theorem State.setReg_fpc (off : Nat) (v : W64) : (s.setReg off v).fpc = s.fpc := rfl
@[simp] theorem State.setReg_sectors (off : Nat) (v : W64) : (s.setReg off v).sectors = s.sectors := rfl
@[simp] theorem State.setReg_inst (off : Nat) (v : W64) : (s.setReg off v).inst = s.inst := rfl
@[simp] theorem State.setReg_armings (off : Nat) (v : W64) : (s.setReg off v).armings = s.armings := rfl
@[simp] theorem State.setReg_tsets (off : Nat) (v : W64) : (s.setReg off v).tsets = s.tsets := rfl
@[simp] theorem State.setReg_tiles (off : Nat) (v : W64) : (s.setReg off v).tiles = s.tiles := rfl
@[simp] theorem State.setReg_cells (off : Nat) (v : W64) : (s.setReg off v).cells = s.cells := rfl
@[simp] theorem State.setReg_link (off : Nat) (v : W64) : (s.setReg off v).link = s.link := rfl
@[simp] theorem State.setReg_time (off : Nat) (v : W64) : (s.setReg off v).time = s.time := rfl
@[simp] theorem State.setReg_pwr (off : Nat) (v : W64) : (s.setReg off v).pwr = s.pwr := rfl
@[simp] theorem State.setReg_pcie (off : Nat) (v : W64) : (s.setReg off v).pcie = s.pcie := rfl
@[simp] theorem State.setReg_aptWait (off : Nat) (v : W64) : (s.setReg off v).aptWait = s.aptWait := rfl
@[simp] theorem State.setReg_sec (off : Nat) (v : W64) : (s.setReg off v).sec = s.sec := rfl
@[simp] theorem State.setReg_fac (off : Nat) (v : W64) : (s.setReg off v).fac = s.fac := rfl
@[simp] theorem State.setReg_log (off : Nat) (v : W64) : (s.setReg off v).log = s.log := rfl
@[simp] theorem State.setReg_logNext (off : Nat) (v : W64) : (s.setReg off v).logNext = s.logNext := rfl
@[simp] theorem State.setReg_out (off : Nat) (v : W64) : (s.setReg off v).out = s.out := rfl

/-! ### `State.setCtx` changes `ctxs` -/

@[simp] theorem State.setCtx_pending (c : CtxId) (x : Ctx) : (s.setCtx c x).pending = s.pending := rfl
@[simp] theorem State.setCtx_freeCtr (c : CtxId) (x : Ctx) : (s.setCtx c x).freeCtr = s.freeCtr := rfl
@[simp] theorem State.setCtx_regs (c : CtxId) (x : Ctx) : (s.setCtx c x).regs = s.regs := rfl
@[simp] theorem State.setCtx_shareAt (c : CtxId) (x : Ctx) : (s.setCtx c x).shareAt = s.shareAt := rfl
@[simp] theorem State.setCtx_shareTab (c : CtxId) (x : Ctx) : (s.setCtx c x).shareTab = s.shareTab := rfl
@[simp] theorem State.setCtx_running (c : CtxId) (x : Ctx) : (s.setCtx c x).running = s.running := rfl
@[simp] theorem State.setCtx_sysCnt (c : CtxId) (x : Ctx) : (s.setCtx c x).sysCnt = s.sysCnt := rfl
@[simp] theorem State.setCtx_mem (c : CtxId) (x : Ctx) : (s.setCtx c x).mem = s.mem := rfl
@[simp] theorem State.setCtx_hostMem (c : CtxId) (x : Ctx) : (s.setCtx c x).hostMem = s.hostMem := rfl
@[simp] theorem State.setCtx_deposits (c : CtxId) (x : Ctx) : (s.setCtx c x).deposits = s.deposits := rfl
@[simp] theorem State.setCtx_poison (c : CtxId) (x : Ctx) : (s.setCtx c x).poison = s.poison := rfl
@[simp] theorem State.setCtx_bch (c : CtxId) (x : Ctx) : (s.setCtx c x).bch = s.bch := rfl
@[simp] theorem State.setCtx_flashErr (c : CtxId) (x : Ctx) : (s.setCtx c x).flashErr = s.flashErr := rfl
@[simp] theorem State.setCtx_objs (c : CtxId) (x : Ctx) : (s.setCtx c x).objs = s.objs := rfl
@[simp] theorem State.setCtx_pmap (c : CtxId) (x : Ctx) : (s.setCtx c x).pmap = s.pmap := rfl
@[simp] theorem State.setCtx_orphans (c : CtxId) (x : Ctx) : (s.setCtx c x).orphans = s.orphans := rfl
@[simp] theorem State.setCtx_quotas (c : CtxId) (x : Ctx) : (s.setCtx c x).quotas = s.quotas := rfl
@[simp] theorem State.setCtx_mig (c : CtxId) (x : Ctx) : (s.setCtx c x).mig = s.mig := rfl
@[simp] theorem State.setCtx_migWait (c : CtxId) (x : Ctx) : (s.setCtx c x).migWait = s.migWait := rfl
@[simp] theorem State.setCtx_bankHost (c : CtxId) (x : Ctx) : (s.setCtx c x).bankHost = s.bankHost := rfl
@[simp] theorem State.setCtx_bankMgc (c : CtxId) (x : Ctx) : (s.setCtx c x).bankMgc = s.bankMgc := rfl
@[simp] theorem State.setCtx_models (c : CtxId) (x : Ctx) : (s.setCtx c x).models = s.models := rfl
@[simp] theorem State.setCtx_blks (c : CtxId) (x : Ctx) : (s.setCtx c x).blks = s.blks := rfl
@[simp] theorem State.setCtx_fpc (c : CtxId) (x : Ctx) : (s.setCtx c x).fpc = s.fpc := rfl
@[simp] theorem State.setCtx_sectors (c : CtxId) (x : Ctx) : (s.setCtx c x).sectors = s.sectors := rfl
@[simp] theorem State.setCtx_inst (c : CtxId) (x : Ctx) : (s.setCtx c x).inst = s.inst := rfl
@[simp] theorem State.setCtx_armings (c : CtxId) (x : Ctx) : (s.setCtx c x).armings = s.armings := rfl
@[simp] theorem State.setCtx_tsets (c : CtxId) (x : Ctx) : (s.setCtx c x).tsets = s.tsets := rfl
@[simp] theorem State.setCtx_tiles (c : CtxId) (x : Ctx) : (s.setCtx c x).tiles = s.tiles := rfl
@[simp] theorem State.setCtx_cells (c : CtxId) (x : Ctx) : (s.setCtx c x).cells = s.cells := rfl
@[simp] theorem State.setCtx_link (c : CtxId) (x : Ctx) : (s.setCtx c x).link = s.link := rfl
@[simp] theorem State.setCtx_time (c : CtxId) (x : Ctx) : (s.setCtx c x).time = s.time := rfl
@[simp] theorem State.setCtx_pwr (c : CtxId) (x : Ctx) : (s.setCtx c x).pwr = s.pwr := rfl
@[simp] theorem State.setCtx_pcie (c : CtxId) (x : Ctx) : (s.setCtx c x).pcie = s.pcie := rfl
@[simp] theorem State.setCtx_aptWait (c : CtxId) (x : Ctx) : (s.setCtx c x).aptWait = s.aptWait := rfl
@[simp] theorem State.setCtx_sec (c : CtxId) (x : Ctx) : (s.setCtx c x).sec = s.sec := rfl
@[simp] theorem State.setCtx_fac (c : CtxId) (x : Ctx) : (s.setCtx c x).fac = s.fac := rfl
@[simp] theorem State.setCtx_log (c : CtxId) (x : Ctx) : (s.setCtx c x).log = s.log := rfl
@[simp] theorem State.setCtx_logNext (c : CtxId) (x : Ctx) : (s.setCtx c x).logNext = s.logNext := rfl
@[simp] theorem State.setCtx_out (c : CtxId) (x : Ctx) : (s.setCtx c x).out = s.out := rfl

/-! ### `State.updCtx` changes `ctxs` -/

@[simp] theorem State.updCtx_pending (c : CtxId) (f : Ctx → Ctx) : (s.updCtx c f).pending = s.pending := rfl
@[simp] theorem State.updCtx_freeCtr (c : CtxId) (f : Ctx → Ctx) : (s.updCtx c f).freeCtr = s.freeCtr := rfl
@[simp] theorem State.updCtx_regs (c : CtxId) (f : Ctx → Ctx) : (s.updCtx c f).regs = s.regs := rfl
@[simp] theorem State.updCtx_shareAt (c : CtxId) (f : Ctx → Ctx) : (s.updCtx c f).shareAt = s.shareAt := rfl
@[simp] theorem State.updCtx_shareTab (c : CtxId) (f : Ctx → Ctx) : (s.updCtx c f).shareTab = s.shareTab := rfl
@[simp] theorem State.updCtx_running (c : CtxId) (f : Ctx → Ctx) : (s.updCtx c f).running = s.running := rfl
@[simp] theorem State.updCtx_sysCnt (c : CtxId) (f : Ctx → Ctx) : (s.updCtx c f).sysCnt = s.sysCnt := rfl
@[simp] theorem State.updCtx_mem (c : CtxId) (f : Ctx → Ctx) : (s.updCtx c f).mem = s.mem := rfl
@[simp] theorem State.updCtx_hostMem (c : CtxId) (f : Ctx → Ctx) : (s.updCtx c f).hostMem = s.hostMem := rfl
@[simp] theorem State.updCtx_deposits (c : CtxId) (f : Ctx → Ctx) : (s.updCtx c f).deposits = s.deposits := rfl
@[simp] theorem State.updCtx_poison (c : CtxId) (f : Ctx → Ctx) : (s.updCtx c f).poison = s.poison := rfl
@[simp] theorem State.updCtx_bch (c : CtxId) (f : Ctx → Ctx) : (s.updCtx c f).bch = s.bch := rfl
@[simp] theorem State.updCtx_flashErr (c : CtxId) (f : Ctx → Ctx) : (s.updCtx c f).flashErr = s.flashErr := rfl
@[simp] theorem State.updCtx_objs (c : CtxId) (f : Ctx → Ctx) : (s.updCtx c f).objs = s.objs := rfl
@[simp] theorem State.updCtx_pmap (c : CtxId) (f : Ctx → Ctx) : (s.updCtx c f).pmap = s.pmap := rfl
@[simp] theorem State.updCtx_orphans (c : CtxId) (f : Ctx → Ctx) : (s.updCtx c f).orphans = s.orphans := rfl
@[simp] theorem State.updCtx_quotas (c : CtxId) (f : Ctx → Ctx) : (s.updCtx c f).quotas = s.quotas := rfl
@[simp] theorem State.updCtx_mig (c : CtxId) (f : Ctx → Ctx) : (s.updCtx c f).mig = s.mig := rfl
@[simp] theorem State.updCtx_migWait (c : CtxId) (f : Ctx → Ctx) : (s.updCtx c f).migWait = s.migWait := rfl
@[simp] theorem State.updCtx_bankHost (c : CtxId) (f : Ctx → Ctx) : (s.updCtx c f).bankHost = s.bankHost := rfl
@[simp] theorem State.updCtx_bankMgc (c : CtxId) (f : Ctx → Ctx) : (s.updCtx c f).bankMgc = s.bankMgc := rfl
@[simp] theorem State.updCtx_models (c : CtxId) (f : Ctx → Ctx) : (s.updCtx c f).models = s.models := rfl
@[simp] theorem State.updCtx_blks (c : CtxId) (f : Ctx → Ctx) : (s.updCtx c f).blks = s.blks := rfl
@[simp] theorem State.updCtx_fpc (c : CtxId) (f : Ctx → Ctx) : (s.updCtx c f).fpc = s.fpc := rfl
@[simp] theorem State.updCtx_sectors (c : CtxId) (f : Ctx → Ctx) : (s.updCtx c f).sectors = s.sectors := rfl
@[simp] theorem State.updCtx_inst (c : CtxId) (f : Ctx → Ctx) : (s.updCtx c f).inst = s.inst := rfl
@[simp] theorem State.updCtx_armings (c : CtxId) (f : Ctx → Ctx) : (s.updCtx c f).armings = s.armings := rfl
@[simp] theorem State.updCtx_tsets (c : CtxId) (f : Ctx → Ctx) : (s.updCtx c f).tsets = s.tsets := rfl
@[simp] theorem State.updCtx_tiles (c : CtxId) (f : Ctx → Ctx) : (s.updCtx c f).tiles = s.tiles := rfl
@[simp] theorem State.updCtx_cells (c : CtxId) (f : Ctx → Ctx) : (s.updCtx c f).cells = s.cells := rfl
@[simp] theorem State.updCtx_link (c : CtxId) (f : Ctx → Ctx) : (s.updCtx c f).link = s.link := rfl
@[simp] theorem State.updCtx_time (c : CtxId) (f : Ctx → Ctx) : (s.updCtx c f).time = s.time := rfl
@[simp] theorem State.updCtx_pwr (c : CtxId) (f : Ctx → Ctx) : (s.updCtx c f).pwr = s.pwr := rfl
@[simp] theorem State.updCtx_pcie (c : CtxId) (f : Ctx → Ctx) : (s.updCtx c f).pcie = s.pcie := rfl
@[simp] theorem State.updCtx_aptWait (c : CtxId) (f : Ctx → Ctx) : (s.updCtx c f).aptWait = s.aptWait := rfl
@[simp] theorem State.updCtx_sec (c : CtxId) (f : Ctx → Ctx) : (s.updCtx c f).sec = s.sec := rfl
@[simp] theorem State.updCtx_fac (c : CtxId) (f : Ctx → Ctx) : (s.updCtx c f).fac = s.fac := rfl
@[simp] theorem State.updCtx_log (c : CtxId) (f : Ctx → Ctx) : (s.updCtx c f).log = s.log := rfl
@[simp] theorem State.updCtx_logNext (c : CtxId) (f : Ctx → Ctx) : (s.updCtx c f).logNext = s.logNext := rfl
@[simp] theorem State.updCtx_out (c : CtxId) (f : Ctx → Ctx) : (s.updCtx c f).out = s.out := rfl

/-! ### `State.setQueue` changes `ctxs` -/

@[simp] theorem State.setQueue_pending (c : CtxId) (e : Engine) (q : Queue) : (s.setQueue c e q).pending = s.pending := rfl
@[simp] theorem State.setQueue_freeCtr (c : CtxId) (e : Engine) (q : Queue) : (s.setQueue c e q).freeCtr = s.freeCtr := rfl
@[simp] theorem State.setQueue_regs (c : CtxId) (e : Engine) (q : Queue) : (s.setQueue c e q).regs = s.regs := rfl
@[simp] theorem State.setQueue_shareAt (c : CtxId) (e : Engine) (q : Queue) : (s.setQueue c e q).shareAt = s.shareAt := rfl
@[simp] theorem State.setQueue_shareTab (c : CtxId) (e : Engine) (q : Queue) : (s.setQueue c e q).shareTab = s.shareTab := rfl
@[simp] theorem State.setQueue_running (c : CtxId) (e : Engine) (q : Queue) : (s.setQueue c e q).running = s.running := rfl
@[simp] theorem State.setQueue_sysCnt (c : CtxId) (e : Engine) (q : Queue) : (s.setQueue c e q).sysCnt = s.sysCnt := rfl
@[simp] theorem State.setQueue_mem (c : CtxId) (e : Engine) (q : Queue) : (s.setQueue c e q).mem = s.mem := rfl
@[simp] theorem State.setQueue_hostMem (c : CtxId) (e : Engine) (q : Queue) : (s.setQueue c e q).hostMem = s.hostMem := rfl
@[simp] theorem State.setQueue_deposits (c : CtxId) (e : Engine) (q : Queue) : (s.setQueue c e q).deposits = s.deposits := rfl
@[simp] theorem State.setQueue_poison (c : CtxId) (e : Engine) (q : Queue) : (s.setQueue c e q).poison = s.poison := rfl
@[simp] theorem State.setQueue_bch (c : CtxId) (e : Engine) (q : Queue) : (s.setQueue c e q).bch = s.bch := rfl
@[simp] theorem State.setQueue_flashErr (c : CtxId) (e : Engine) (q : Queue) : (s.setQueue c e q).flashErr = s.flashErr := rfl
@[simp] theorem State.setQueue_objs (c : CtxId) (e : Engine) (q : Queue) : (s.setQueue c e q).objs = s.objs := rfl
@[simp] theorem State.setQueue_pmap (c : CtxId) (e : Engine) (q : Queue) : (s.setQueue c e q).pmap = s.pmap := rfl
@[simp] theorem State.setQueue_orphans (c : CtxId) (e : Engine) (q : Queue) : (s.setQueue c e q).orphans = s.orphans := rfl
@[simp] theorem State.setQueue_quotas (c : CtxId) (e : Engine) (q : Queue) : (s.setQueue c e q).quotas = s.quotas := rfl
@[simp] theorem State.setQueue_mig (c : CtxId) (e : Engine) (q : Queue) : (s.setQueue c e q).mig = s.mig := rfl
@[simp] theorem State.setQueue_migWait (c : CtxId) (e : Engine) (q : Queue) : (s.setQueue c e q).migWait = s.migWait := rfl
@[simp] theorem State.setQueue_bankHost (c : CtxId) (e : Engine) (q : Queue) : (s.setQueue c e q).bankHost = s.bankHost := rfl
@[simp] theorem State.setQueue_bankMgc (c : CtxId) (e : Engine) (q : Queue) : (s.setQueue c e q).bankMgc = s.bankMgc := rfl
@[simp] theorem State.setQueue_models (c : CtxId) (e : Engine) (q : Queue) : (s.setQueue c e q).models = s.models := rfl
@[simp] theorem State.setQueue_blks (c : CtxId) (e : Engine) (q : Queue) : (s.setQueue c e q).blks = s.blks := rfl
@[simp] theorem State.setQueue_fpc (c : CtxId) (e : Engine) (q : Queue) : (s.setQueue c e q).fpc = s.fpc := rfl
@[simp] theorem State.setQueue_sectors (c : CtxId) (e : Engine) (q : Queue) : (s.setQueue c e q).sectors = s.sectors := rfl
@[simp] theorem State.setQueue_inst (c : CtxId) (e : Engine) (q : Queue) : (s.setQueue c e q).inst = s.inst := rfl
@[simp] theorem State.setQueue_armings (c : CtxId) (e : Engine) (q : Queue) : (s.setQueue c e q).armings = s.armings := rfl
@[simp] theorem State.setQueue_tsets (c : CtxId) (e : Engine) (q : Queue) : (s.setQueue c e q).tsets = s.tsets := rfl
@[simp] theorem State.setQueue_tiles (c : CtxId) (e : Engine) (q : Queue) : (s.setQueue c e q).tiles = s.tiles := rfl
@[simp] theorem State.setQueue_cells (c : CtxId) (e : Engine) (q : Queue) : (s.setQueue c e q).cells = s.cells := rfl
@[simp] theorem State.setQueue_link (c : CtxId) (e : Engine) (q : Queue) : (s.setQueue c e q).link = s.link := rfl
@[simp] theorem State.setQueue_time (c : CtxId) (e : Engine) (q : Queue) : (s.setQueue c e q).time = s.time := rfl
@[simp] theorem State.setQueue_pwr (c : CtxId) (e : Engine) (q : Queue) : (s.setQueue c e q).pwr = s.pwr := rfl
@[simp] theorem State.setQueue_pcie (c : CtxId) (e : Engine) (q : Queue) : (s.setQueue c e q).pcie = s.pcie := rfl
@[simp] theorem State.setQueue_aptWait (c : CtxId) (e : Engine) (q : Queue) : (s.setQueue c e q).aptWait = s.aptWait := rfl
@[simp] theorem State.setQueue_sec (c : CtxId) (e : Engine) (q : Queue) : (s.setQueue c e q).sec = s.sec := rfl
@[simp] theorem State.setQueue_fac (c : CtxId) (e : Engine) (q : Queue) : (s.setQueue c e q).fac = s.fac := rfl
@[simp] theorem State.setQueue_log (c : CtxId) (e : Engine) (q : Queue) : (s.setQueue c e q).log = s.log := rfl
@[simp] theorem State.setQueue_logNext (c : CtxId) (e : Engine) (q : Queue) : (s.setQueue c e q).logNext = s.logNext := rfl
@[simp] theorem State.setQueue_out (c : CtxId) (e : Engine) (q : Queue) : (s.setQueue c e q).out = s.out := rfl

/-! ### `State.emit` changes `out` -/

@[simp] theorem State.emit_pending (o : Out) : (s.emit o).pending = s.pending := rfl
@[simp] theorem State.emit_freeCtr (o : Out) : (s.emit o).freeCtr = s.freeCtr := rfl
@[simp] theorem State.emit_regs (o : Out) : (s.emit o).regs = s.regs := rfl
@[simp] theorem State.emit_ctxs (o : Out) : (s.emit o).ctxs = s.ctxs := rfl
@[simp] theorem State.emit_shareAt (o : Out) : (s.emit o).shareAt = s.shareAt := rfl
@[simp] theorem State.emit_shareTab (o : Out) : (s.emit o).shareTab = s.shareTab := rfl
@[simp] theorem State.emit_running (o : Out) : (s.emit o).running = s.running := rfl
@[simp] theorem State.emit_sysCnt (o : Out) : (s.emit o).sysCnt = s.sysCnt := rfl
@[simp] theorem State.emit_mem (o : Out) : (s.emit o).mem = s.mem := rfl
@[simp] theorem State.emit_hostMem (o : Out) : (s.emit o).hostMem = s.hostMem := rfl
@[simp] theorem State.emit_deposits (o : Out) : (s.emit o).deposits = s.deposits := rfl
@[simp] theorem State.emit_poison (o : Out) : (s.emit o).poison = s.poison := rfl
@[simp] theorem State.emit_bch (o : Out) : (s.emit o).bch = s.bch := rfl
@[simp] theorem State.emit_flashErr (o : Out) : (s.emit o).flashErr = s.flashErr := rfl
@[simp] theorem State.emit_objs (o : Out) : (s.emit o).objs = s.objs := rfl
@[simp] theorem State.emit_pmap (o : Out) : (s.emit o).pmap = s.pmap := rfl
@[simp] theorem State.emit_orphans (o : Out) : (s.emit o).orphans = s.orphans := rfl
@[simp] theorem State.emit_quotas (o : Out) : (s.emit o).quotas = s.quotas := rfl
@[simp] theorem State.emit_mig (o : Out) : (s.emit o).mig = s.mig := rfl
@[simp] theorem State.emit_migWait (o : Out) : (s.emit o).migWait = s.migWait := rfl
@[simp] theorem State.emit_bankHost (o : Out) : (s.emit o).bankHost = s.bankHost := rfl
@[simp] theorem State.emit_bankMgc (o : Out) : (s.emit o).bankMgc = s.bankMgc := rfl
@[simp] theorem State.emit_models (o : Out) : (s.emit o).models = s.models := rfl
@[simp] theorem State.emit_blks (o : Out) : (s.emit o).blks = s.blks := rfl
@[simp] theorem State.emit_fpc (o : Out) : (s.emit o).fpc = s.fpc := rfl
@[simp] theorem State.emit_sectors (o : Out) : (s.emit o).sectors = s.sectors := rfl
@[simp] theorem State.emit_inst (o : Out) : (s.emit o).inst = s.inst := rfl
@[simp] theorem State.emit_armings (o : Out) : (s.emit o).armings = s.armings := rfl
@[simp] theorem State.emit_tsets (o : Out) : (s.emit o).tsets = s.tsets := rfl
@[simp] theorem State.emit_tiles (o : Out) : (s.emit o).tiles = s.tiles := rfl
@[simp] theorem State.emit_cells (o : Out) : (s.emit o).cells = s.cells := rfl
@[simp] theorem State.emit_link (o : Out) : (s.emit o).link = s.link := rfl
@[simp] theorem State.emit_time (o : Out) : (s.emit o).time = s.time := rfl
@[simp] theorem State.emit_pwr (o : Out) : (s.emit o).pwr = s.pwr := rfl
@[simp] theorem State.emit_pcie (o : Out) : (s.emit o).pcie = s.pcie := rfl
@[simp] theorem State.emit_aptWait (o : Out) : (s.emit o).aptWait = s.aptWait := rfl
@[simp] theorem State.emit_sec (o : Out) : (s.emit o).sec = s.sec := rfl
@[simp] theorem State.emit_fac (o : Out) : (s.emit o).fac = s.fac := rfl
@[simp] theorem State.emit_log (o : Out) : (s.emit o).log = s.log := rfl
@[simp] theorem State.emit_logNext (o : Out) : (s.emit o).logNext = s.logNext := rfl

/-! ### `State.poke` changes `mem` -/

@[simp] theorem State.poke_pending (k : Nat) (b : Byte) : (s.poke k b).pending = s.pending := rfl
@[simp] theorem State.poke_freeCtr (k : Nat) (b : Byte) : (s.poke k b).freeCtr = s.freeCtr := rfl
@[simp] theorem State.poke_regs (k : Nat) (b : Byte) : (s.poke k b).regs = s.regs := rfl
@[simp] theorem State.poke_ctxs (k : Nat) (b : Byte) : (s.poke k b).ctxs = s.ctxs := rfl
@[simp] theorem State.poke_shareAt (k : Nat) (b : Byte) : (s.poke k b).shareAt = s.shareAt := rfl
@[simp] theorem State.poke_shareTab (k : Nat) (b : Byte) : (s.poke k b).shareTab = s.shareTab := rfl
@[simp] theorem State.poke_running (k : Nat) (b : Byte) : (s.poke k b).running = s.running := rfl
@[simp] theorem State.poke_sysCnt (k : Nat) (b : Byte) : (s.poke k b).sysCnt = s.sysCnt := rfl
@[simp] theorem State.poke_hostMem (k : Nat) (b : Byte) : (s.poke k b).hostMem = s.hostMem := rfl
@[simp] theorem State.poke_deposits (k : Nat) (b : Byte) : (s.poke k b).deposits = s.deposits := rfl
@[simp] theorem State.poke_poison (k : Nat) (b : Byte) : (s.poke k b).poison = s.poison := rfl
@[simp] theorem State.poke_bch (k : Nat) (b : Byte) : (s.poke k b).bch = s.bch := rfl
@[simp] theorem State.poke_flashErr (k : Nat) (b : Byte) : (s.poke k b).flashErr = s.flashErr := rfl
@[simp] theorem State.poke_objs (k : Nat) (b : Byte) : (s.poke k b).objs = s.objs := rfl
@[simp] theorem State.poke_pmap (k : Nat) (b : Byte) : (s.poke k b).pmap = s.pmap := rfl
@[simp] theorem State.poke_orphans (k : Nat) (b : Byte) : (s.poke k b).orphans = s.orphans := rfl
@[simp] theorem State.poke_quotas (k : Nat) (b : Byte) : (s.poke k b).quotas = s.quotas := rfl
@[simp] theorem State.poke_mig (k : Nat) (b : Byte) : (s.poke k b).mig = s.mig := rfl
@[simp] theorem State.poke_migWait (k : Nat) (b : Byte) : (s.poke k b).migWait = s.migWait := rfl
@[simp] theorem State.poke_bankHost (k : Nat) (b : Byte) : (s.poke k b).bankHost = s.bankHost := rfl
@[simp] theorem State.poke_bankMgc (k : Nat) (b : Byte) : (s.poke k b).bankMgc = s.bankMgc := rfl
@[simp] theorem State.poke_models (k : Nat) (b : Byte) : (s.poke k b).models = s.models := rfl
@[simp] theorem State.poke_blks (k : Nat) (b : Byte) : (s.poke k b).blks = s.blks := rfl
@[simp] theorem State.poke_fpc (k : Nat) (b : Byte) : (s.poke k b).fpc = s.fpc := rfl
@[simp] theorem State.poke_sectors (k : Nat) (b : Byte) : (s.poke k b).sectors = s.sectors := rfl
@[simp] theorem State.poke_inst (k : Nat) (b : Byte) : (s.poke k b).inst = s.inst := rfl
@[simp] theorem State.poke_armings (k : Nat) (b : Byte) : (s.poke k b).armings = s.armings := rfl
@[simp] theorem State.poke_tsets (k : Nat) (b : Byte) : (s.poke k b).tsets = s.tsets := rfl
@[simp] theorem State.poke_tiles (k : Nat) (b : Byte) : (s.poke k b).tiles = s.tiles := rfl
@[simp] theorem State.poke_cells (k : Nat) (b : Byte) : (s.poke k b).cells = s.cells := rfl
@[simp] theorem State.poke_link (k : Nat) (b : Byte) : (s.poke k b).link = s.link := rfl
@[simp] theorem State.poke_time (k : Nat) (b : Byte) : (s.poke k b).time = s.time := rfl
@[simp] theorem State.poke_pwr (k : Nat) (b : Byte) : (s.poke k b).pwr = s.pwr := rfl
@[simp] theorem State.poke_pcie (k : Nat) (b : Byte) : (s.poke k b).pcie = s.pcie := rfl
@[simp] theorem State.poke_aptWait (k : Nat) (b : Byte) : (s.poke k b).aptWait = s.aptWait := rfl
@[simp] theorem State.poke_sec (k : Nat) (b : Byte) : (s.poke k b).sec = s.sec := rfl
@[simp] theorem State.poke_fac (k : Nat) (b : Byte) : (s.poke k b).fac = s.fac := rfl
@[simp] theorem State.poke_log (k : Nat) (b : Byte) : (s.poke k b).log = s.log := rfl
@[simp] theorem State.poke_logNext (k : Nat) (b : Byte) : (s.poke k b).logNext = s.logNext := rfl
@[simp] theorem State.poke_out (k : Nat) (b : Byte) : (s.poke k b).out = s.out := rfl

/-! ### `State.setPoison` changes `poison` -/

@[simp] theorem State.setPoison_pending (w : Nat) (p : Bool) : (s.setPoison w p).pending = s.pending := rfl
@[simp] theorem State.setPoison_freeCtr (w : Nat) (p : Bool) : (s.setPoison w p).freeCtr = s.freeCtr := rfl
@[simp] theorem State.setPoison_regs (w : Nat) (p : Bool) : (s.setPoison w p).regs = s.regs := rfl
@[simp] theorem State.setPoison_ctxs (w : Nat) (p : Bool) : (s.setPoison w p).ctxs = s.ctxs := rfl
@[simp] theorem State.setPoison_shareAt (w : Nat) (p : Bool) : (s.setPoison w p).shareAt = s.shareAt := rfl
@[simp] theorem State.setPoison_shareTab (w : Nat) (p : Bool) : (s.setPoison w p).shareTab = s.shareTab := rfl
@[simp] theorem State.setPoison_running (w : Nat) (p : Bool) : (s.setPoison w p).running = s.running := rfl
@[simp] theorem State.setPoison_sysCnt (w : Nat) (p : Bool) : (s.setPoison w p).sysCnt = s.sysCnt := rfl
@[simp] theorem State.setPoison_mem (w : Nat) (p : Bool) : (s.setPoison w p).mem = s.mem := rfl
@[simp] theorem State.setPoison_hostMem (w : Nat) (p : Bool) : (s.setPoison w p).hostMem = s.hostMem := rfl
@[simp] theorem State.setPoison_deposits (w : Nat) (p : Bool) : (s.setPoison w p).deposits = s.deposits := rfl
@[simp] theorem State.setPoison_bch (w : Nat) (p : Bool) : (s.setPoison w p).bch = s.bch := rfl
@[simp] theorem State.setPoison_flashErr (w : Nat) (p : Bool) : (s.setPoison w p).flashErr = s.flashErr := rfl
@[simp] theorem State.setPoison_objs (w : Nat) (p : Bool) : (s.setPoison w p).objs = s.objs := rfl
@[simp] theorem State.setPoison_pmap (w : Nat) (p : Bool) : (s.setPoison w p).pmap = s.pmap := rfl
@[simp] theorem State.setPoison_orphans (w : Nat) (p : Bool) : (s.setPoison w p).orphans = s.orphans := rfl
@[simp] theorem State.setPoison_quotas (w : Nat) (p : Bool) : (s.setPoison w p).quotas = s.quotas := rfl
@[simp] theorem State.setPoison_mig (w : Nat) (p : Bool) : (s.setPoison w p).mig = s.mig := rfl
@[simp] theorem State.setPoison_migWait (w : Nat) (p : Bool) : (s.setPoison w p).migWait = s.migWait := rfl
@[simp] theorem State.setPoison_bankHost (w : Nat) (p : Bool) : (s.setPoison w p).bankHost = s.bankHost := rfl
@[simp] theorem State.setPoison_bankMgc (w : Nat) (p : Bool) : (s.setPoison w p).bankMgc = s.bankMgc := rfl
@[simp] theorem State.setPoison_models (w : Nat) (p : Bool) : (s.setPoison w p).models = s.models := rfl
@[simp] theorem State.setPoison_blks (w : Nat) (p : Bool) : (s.setPoison w p).blks = s.blks := rfl
@[simp] theorem State.setPoison_fpc (w : Nat) (p : Bool) : (s.setPoison w p).fpc = s.fpc := rfl
@[simp] theorem State.setPoison_sectors (w : Nat) (p : Bool) : (s.setPoison w p).sectors = s.sectors := rfl
@[simp] theorem State.setPoison_inst (w : Nat) (p : Bool) : (s.setPoison w p).inst = s.inst := rfl
@[simp] theorem State.setPoison_armings (w : Nat) (p : Bool) : (s.setPoison w p).armings = s.armings := rfl
@[simp] theorem State.setPoison_tsets (w : Nat) (p : Bool) : (s.setPoison w p).tsets = s.tsets := rfl
@[simp] theorem State.setPoison_tiles (w : Nat) (p : Bool) : (s.setPoison w p).tiles = s.tiles := rfl
@[simp] theorem State.setPoison_cells (w : Nat) (p : Bool) : (s.setPoison w p).cells = s.cells := rfl
@[simp] theorem State.setPoison_link (w : Nat) (p : Bool) : (s.setPoison w p).link = s.link := rfl
@[simp] theorem State.setPoison_time (w : Nat) (p : Bool) : (s.setPoison w p).time = s.time := rfl
@[simp] theorem State.setPoison_pwr (w : Nat) (p : Bool) : (s.setPoison w p).pwr = s.pwr := rfl
@[simp] theorem State.setPoison_pcie (w : Nat) (p : Bool) : (s.setPoison w p).pcie = s.pcie := rfl
@[simp] theorem State.setPoison_aptWait (w : Nat) (p : Bool) : (s.setPoison w p).aptWait = s.aptWait := rfl
@[simp] theorem State.setPoison_sec (w : Nat) (p : Bool) : (s.setPoison w p).sec = s.sec := rfl
@[simp] theorem State.setPoison_fac (w : Nat) (p : Bool) : (s.setPoison w p).fac = s.fac := rfl
@[simp] theorem State.setPoison_log (w : Nat) (p : Bool) : (s.setPoison w p).log = s.log := rfl
@[simp] theorem State.setPoison_logNext (w : Nat) (p : Bool) : (s.setPoison w p).logNext = s.logNext := rfl
@[simp] theorem State.setPoison_out (w : Nat) (p : Bool) : (s.setPoison w p).out = s.out := rfl

/-! ### `State.freshen` changes `bch` -/

@[simp] theorem State.freshen_pending (w : Nat) : (s.freshen w).pending = s.pending := rfl
@[simp] theorem State.freshen_freeCtr (w : Nat) : (s.freshen w).freeCtr = s.freeCtr := rfl
@[simp] theorem State.freshen_regs (w : Nat) : (s.freshen w).regs = s.regs := rfl
@[simp] theorem State.freshen_ctxs (w : Nat) : (s.freshen w).ctxs = s.ctxs := rfl
@[simp] theorem State.freshen_shareAt (w : Nat) : (s.freshen w).shareAt = s.shareAt := rfl
@[simp] theorem State.freshen_shareTab (w : Nat) : (s.freshen w).shareTab = s.shareTab := rfl
@[simp] theorem State.freshen_running (w : Nat) : (s.freshen w).running = s.running := rfl
@[simp] theorem State.freshen_sysCnt (w : Nat) : (s.freshen w).sysCnt = s.sysCnt := rfl
@[simp] theorem State.freshen_mem (w : Nat) : (s.freshen w).mem = s.mem := rfl
@[simp] theorem State.freshen_hostMem (w : Nat) : (s.freshen w).hostMem = s.hostMem := rfl
@[simp] theorem State.freshen_deposits (w : Nat) : (s.freshen w).deposits = s.deposits := rfl
@[simp] theorem State.freshen_poison (w : Nat) : (s.freshen w).poison = s.poison := rfl
@[simp] theorem State.freshen_flashErr (w : Nat) : (s.freshen w).flashErr = s.flashErr := rfl
@[simp] theorem State.freshen_objs (w : Nat) : (s.freshen w).objs = s.objs := rfl
@[simp] theorem State.freshen_pmap (w : Nat) : (s.freshen w).pmap = s.pmap := rfl
@[simp] theorem State.freshen_orphans (w : Nat) : (s.freshen w).orphans = s.orphans := rfl
@[simp] theorem State.freshen_quotas (w : Nat) : (s.freshen w).quotas = s.quotas := rfl
@[simp] theorem State.freshen_mig (w : Nat) : (s.freshen w).mig = s.mig := rfl
@[simp] theorem State.freshen_migWait (w : Nat) : (s.freshen w).migWait = s.migWait := rfl
@[simp] theorem State.freshen_bankHost (w : Nat) : (s.freshen w).bankHost = s.bankHost := rfl
@[simp] theorem State.freshen_bankMgc (w : Nat) : (s.freshen w).bankMgc = s.bankMgc := rfl
@[simp] theorem State.freshen_models (w : Nat) : (s.freshen w).models = s.models := rfl
@[simp] theorem State.freshen_blks (w : Nat) : (s.freshen w).blks = s.blks := rfl
@[simp] theorem State.freshen_fpc (w : Nat) : (s.freshen w).fpc = s.fpc := rfl
@[simp] theorem State.freshen_sectors (w : Nat) : (s.freshen w).sectors = s.sectors := rfl
@[simp] theorem State.freshen_inst (w : Nat) : (s.freshen w).inst = s.inst := rfl
@[simp] theorem State.freshen_armings (w : Nat) : (s.freshen w).armings = s.armings := rfl
@[simp] theorem State.freshen_tsets (w : Nat) : (s.freshen w).tsets = s.tsets := rfl
@[simp] theorem State.freshen_tiles (w : Nat) : (s.freshen w).tiles = s.tiles := rfl
@[simp] theorem State.freshen_cells (w : Nat) : (s.freshen w).cells = s.cells := rfl
@[simp] theorem State.freshen_link (w : Nat) : (s.freshen w).link = s.link := rfl
@[simp] theorem State.freshen_time (w : Nat) : (s.freshen w).time = s.time := rfl
@[simp] theorem State.freshen_pwr (w : Nat) : (s.freshen w).pwr = s.pwr := rfl
@[simp] theorem State.freshen_pcie (w : Nat) : (s.freshen w).pcie = s.pcie := rfl
@[simp] theorem State.freshen_aptWait (w : Nat) : (s.freshen w).aptWait = s.aptWait := rfl
@[simp] theorem State.freshen_sec (w : Nat) : (s.freshen w).sec = s.sec := rfl
@[simp] theorem State.freshen_fac (w : Nat) : (s.freshen w).fac = s.fac := rfl
@[simp] theorem State.freshen_log (w : Nat) : (s.freshen w).log = s.log := rfl
@[simp] theorem State.freshen_logNext (w : Nat) : (s.freshen w).logNext = s.logNext := rfl
@[simp] theorem State.freshen_out (w : Nat) : (s.freshen w).out = s.out := rfl

/-! ### `State.setDom` changes `pwr` -/

@[simp] theorem State.setDom_pending (d : Nat) (x : DomState) : (s.setDom d x).pending = s.pending := rfl
@[simp] theorem State.setDom_freeCtr (d : Nat) (x : DomState) : (s.setDom d x).freeCtr = s.freeCtr := rfl
@[simp] theorem State.setDom_regs (d : Nat) (x : DomState) : (s.setDom d x).regs = s.regs := rfl
@[simp] theorem State.setDom_ctxs (d : Nat) (x : DomState) : (s.setDom d x).ctxs = s.ctxs := rfl
@[simp] theorem State.setDom_shareAt (d : Nat) (x : DomState) : (s.setDom d x).shareAt = s.shareAt := rfl
@[simp] theorem State.setDom_shareTab (d : Nat) (x : DomState) : (s.setDom d x).shareTab = s.shareTab := rfl
@[simp] theorem State.setDom_running (d : Nat) (x : DomState) : (s.setDom d x).running = s.running := rfl
@[simp] theorem State.setDom_sysCnt (d : Nat) (x : DomState) : (s.setDom d x).sysCnt = s.sysCnt := rfl
@[simp] theorem State.setDom_mem (d : Nat) (x : DomState) : (s.setDom d x).mem = s.mem := rfl
@[simp] theorem State.setDom_hostMem (d : Nat) (x : DomState) : (s.setDom d x).hostMem = s.hostMem := rfl
@[simp] theorem State.setDom_deposits (d : Nat) (x : DomState) : (s.setDom d x).deposits = s.deposits := rfl
@[simp] theorem State.setDom_poison (d : Nat) (x : DomState) : (s.setDom d x).poison = s.poison := rfl
@[simp] theorem State.setDom_bch (d : Nat) (x : DomState) : (s.setDom d x).bch = s.bch := rfl
@[simp] theorem State.setDom_flashErr (d : Nat) (x : DomState) : (s.setDom d x).flashErr = s.flashErr := rfl
@[simp] theorem State.setDom_objs (d : Nat) (x : DomState) : (s.setDom d x).objs = s.objs := rfl
@[simp] theorem State.setDom_pmap (d : Nat) (x : DomState) : (s.setDom d x).pmap = s.pmap := rfl
@[simp] theorem State.setDom_orphans (d : Nat) (x : DomState) : (s.setDom d x).orphans = s.orphans := rfl
@[simp] theorem State.setDom_quotas (d : Nat) (x : DomState) : (s.setDom d x).quotas = s.quotas := rfl
@[simp] theorem State.setDom_mig (d : Nat) (x : DomState) : (s.setDom d x).mig = s.mig := rfl
@[simp] theorem State.setDom_migWait (d : Nat) (x : DomState) : (s.setDom d x).migWait = s.migWait := rfl
@[simp] theorem State.setDom_bankHost (d : Nat) (x : DomState) : (s.setDom d x).bankHost = s.bankHost := rfl
@[simp] theorem State.setDom_bankMgc (d : Nat) (x : DomState) : (s.setDom d x).bankMgc = s.bankMgc := rfl
@[simp] theorem State.setDom_models (d : Nat) (x : DomState) : (s.setDom d x).models = s.models := rfl
@[simp] theorem State.setDom_blks (d : Nat) (x : DomState) : (s.setDom d x).blks = s.blks := rfl
@[simp] theorem State.setDom_fpc (d : Nat) (x : DomState) : (s.setDom d x).fpc = s.fpc := rfl
@[simp] theorem State.setDom_sectors (d : Nat) (x : DomState) : (s.setDom d x).sectors = s.sectors := rfl
@[simp] theorem State.setDom_inst (d : Nat) (x : DomState) : (s.setDom d x).inst = s.inst := rfl
@[simp] theorem State.setDom_armings (d : Nat) (x : DomState) : (s.setDom d x).armings = s.armings := rfl
@[simp] theorem State.setDom_tsets (d : Nat) (x : DomState) : (s.setDom d x).tsets = s.tsets := rfl
@[simp] theorem State.setDom_tiles (d : Nat) (x : DomState) : (s.setDom d x).tiles = s.tiles := rfl
@[simp] theorem State.setDom_cells (d : Nat) (x : DomState) : (s.setDom d x).cells = s.cells := rfl
@[simp] theorem State.setDom_link (d : Nat) (x : DomState) : (s.setDom d x).link = s.link := rfl
@[simp] theorem State.setDom_time (d : Nat) (x : DomState) : (s.setDom d x).time = s.time := rfl
@[simp] theorem State.setDom_pcie (d : Nat) (x : DomState) : (s.setDom d x).pcie = s.pcie := rfl
@[simp] theorem State.setDom_aptWait (d : Nat) (x : DomState) : (s.setDom d x).aptWait = s.aptWait := rfl
@[simp] theorem State.setDom_sec (d : Nat) (x : DomState) : (s.setDom d x).sec = s.sec := rfl
@[simp] theorem State.setDom_fac (d : Nat) (x : DomState) : (s.setDom d x).fac = s.fac := rfl
@[simp] theorem State.setDom_log (d : Nat) (x : DomState) : (s.setDom d x).log = s.log := rfl
@[simp] theorem State.setDom_logNext (d : Nat) (x : DomState) : (s.setDom d x).logNext = s.logNext := rfl
@[simp] theorem State.setDom_out (d : Nat) (x : DomState) : (s.setDom d x).out = s.out := rfl

/-! ### `State.updExec` changes `running` -/

@[simp] theorem State.updExec_pending (c : CtxId) (e : Engine) (slot : Nat) (f : Exec → Exec) : (s.updExec c e slot f).pending = s.pending := rfl
@[simp] theorem State.updExec_freeCtr (c : CtxId) (e : Engine) (slot : Nat) (f : Exec → Exec) : (s.updExec c e slot f).freeCtr = s.freeCtr := rfl
@[simp] theorem State.updExec_regs (c : CtxId) (e : Engine) (slot : Nat) (f : Exec → Exec) : (s.updExec c e slot f).regs = s.regs := rfl
@[simp] theorem State.updExec_ctxs (c : CtxId) (e : Engine) (slot : Nat) (f : Exec → Exec) : (s.updExec c e slot f).ctxs = s.ctxs := rfl
@[simp] theorem State.updExec_shareAt (c : CtxId) (e : Engine) (slot : Nat) (f : Exec → Exec) : (s.updExec c e slot f).shareAt = s.shareAt := rfl
@[simp] theorem State.updExec_shareTab (c : CtxId) (e : Engine) (slot : Nat) (f : Exec → Exec) : (s.updExec c e slot f).shareTab = s.shareTab := rfl
@[simp] theorem State.updExec_sysCnt (c : CtxId) (e : Engine) (slot : Nat) (f : Exec → Exec) : (s.updExec c e slot f).sysCnt = s.sysCnt := rfl
@[simp] theorem State.updExec_mem (c : CtxId) (e : Engine) (slot : Nat) (f : Exec → Exec) : (s.updExec c e slot f).mem = s.mem := rfl
@[simp] theorem State.updExec_hostMem (c : CtxId) (e : Engine) (slot : Nat) (f : Exec → Exec) : (s.updExec c e slot f).hostMem = s.hostMem := rfl
@[simp] theorem State.updExec_deposits (c : CtxId) (e : Engine) (slot : Nat) (f : Exec → Exec) : (s.updExec c e slot f).deposits = s.deposits := rfl
@[simp] theorem State.updExec_poison (c : CtxId) (e : Engine) (slot : Nat) (f : Exec → Exec) : (s.updExec c e slot f).poison = s.poison := rfl
@[simp] theorem State.updExec_bch (c : CtxId) (e : Engine) (slot : Nat) (f : Exec → Exec) : (s.updExec c e slot f).bch = s.bch := rfl
@[simp] theorem State.updExec_flashErr (c : CtxId) (e : Engine) (slot : Nat) (f : Exec → Exec) : (s.updExec c e slot f).flashErr = s.flashErr := rfl
@[simp] theorem State.updExec_objs (c : CtxId) (e : Engine) (slot : Nat) (f : Exec → Exec) : (s.updExec c e slot f).objs = s.objs := rfl
@[simp] theorem State.updExec_pmap (c : CtxId) (e : Engine) (slot : Nat) (f : Exec → Exec) : (s.updExec c e slot f).pmap = s.pmap := rfl
@[simp] theorem State.updExec_orphans (c : CtxId) (e : Engine) (slot : Nat) (f : Exec → Exec) : (s.updExec c e slot f).orphans = s.orphans := rfl
@[simp] theorem State.updExec_quotas (c : CtxId) (e : Engine) (slot : Nat) (f : Exec → Exec) : (s.updExec c e slot f).quotas = s.quotas := rfl
@[simp] theorem State.updExec_mig (c : CtxId) (e : Engine) (slot : Nat) (f : Exec → Exec) : (s.updExec c e slot f).mig = s.mig := rfl
@[simp] theorem State.updExec_migWait (c : CtxId) (e : Engine) (slot : Nat) (f : Exec → Exec) : (s.updExec c e slot f).migWait = s.migWait := rfl
@[simp] theorem State.updExec_bankHost (c : CtxId) (e : Engine) (slot : Nat) (f : Exec → Exec) : (s.updExec c e slot f).bankHost = s.bankHost := rfl
@[simp] theorem State.updExec_bankMgc (c : CtxId) (e : Engine) (slot : Nat) (f : Exec → Exec) : (s.updExec c e slot f).bankMgc = s.bankMgc := rfl
@[simp] theorem State.updExec_models (c : CtxId) (e : Engine) (slot : Nat) (f : Exec → Exec) : (s.updExec c e slot f).models = s.models := rfl
@[simp] theorem State.updExec_blks (c : CtxId) (e : Engine) (slot : Nat) (f : Exec → Exec) : (s.updExec c e slot f).blks = s.blks := rfl
@[simp] theorem State.updExec_fpc (c : CtxId) (e : Engine) (slot : Nat) (f : Exec → Exec) : (s.updExec c e slot f).fpc = s.fpc := rfl
@[simp] theorem State.updExec_sectors (c : CtxId) (e : Engine) (slot : Nat) (f : Exec → Exec) : (s.updExec c e slot f).sectors = s.sectors := rfl
@[simp] theorem State.updExec_inst (c : CtxId) (e : Engine) (slot : Nat) (f : Exec → Exec) : (s.updExec c e slot f).inst = s.inst := rfl
@[simp] theorem State.updExec_armings (c : CtxId) (e : Engine) (slot : Nat) (f : Exec → Exec) : (s.updExec c e slot f).armings = s.armings := rfl
@[simp] theorem State.updExec_tsets (c : CtxId) (e : Engine) (slot : Nat) (f : Exec → Exec) : (s.updExec c e slot f).tsets = s.tsets := rfl
@[simp] theorem State.updExec_tiles (c : CtxId) (e : Engine) (slot : Nat) (f : Exec → Exec) : (s.updExec c e slot f).tiles = s.tiles := rfl
@[simp] theorem State.updExec_cells (c : CtxId) (e : Engine) (slot : Nat) (f : Exec → Exec) : (s.updExec c e slot f).cells = s.cells := rfl
@[simp] theorem State.updExec_link (c : CtxId) (e : Engine) (slot : Nat) (f : Exec → Exec) : (s.updExec c e slot f).link = s.link := rfl
@[simp] theorem State.updExec_time (c : CtxId) (e : Engine) (slot : Nat) (f : Exec → Exec) : (s.updExec c e slot f).time = s.time := rfl
@[simp] theorem State.updExec_pwr (c : CtxId) (e : Engine) (slot : Nat) (f : Exec → Exec) : (s.updExec c e slot f).pwr = s.pwr := rfl
@[simp] theorem State.updExec_pcie (c : CtxId) (e : Engine) (slot : Nat) (f : Exec → Exec) : (s.updExec c e slot f).pcie = s.pcie := rfl
@[simp] theorem State.updExec_aptWait (c : CtxId) (e : Engine) (slot : Nat) (f : Exec → Exec) : (s.updExec c e slot f).aptWait = s.aptWait := rfl
@[simp] theorem State.updExec_sec (c : CtxId) (e : Engine) (slot : Nat) (f : Exec → Exec) : (s.updExec c e slot f).sec = s.sec := rfl
@[simp] theorem State.updExec_fac (c : CtxId) (e : Engine) (slot : Nat) (f : Exec → Exec) : (s.updExec c e slot f).fac = s.fac := rfl
@[simp] theorem State.updExec_log (c : CtxId) (e : Engine) (slot : Nat) (f : Exec → Exec) : (s.updExec c e slot f).log = s.log := rfl
@[simp] theorem State.updExec_logNext (c : CtxId) (e : Engine) (slot : Nat) (f : Exec → Exec) : (s.updExec c e slot f).logNext = s.logNext := rfl
@[simp] theorem State.updExec_out (c : CtxId) (e : Engine) (slot : Nat) (f : Exec → Exec) : (s.updExec c e slot f).out = s.out := rfl

/-! ### `State.setObj` changes `objs` -/

@[simp] theorem State.setObj_pending (i : Nat) (o : Obj) : (s.setObj i o).pending = s.pending := rfl
@[simp] theorem State.setObj_freeCtr (i : Nat) (o : Obj) : (s.setObj i o).freeCtr = s.freeCtr := rfl
@[simp] theorem State.setObj_regs (i : Nat) (o : Obj) : (s.setObj i o).regs = s.regs := rfl
@[simp] theorem State.setObj_ctxs (i : Nat) (o : Obj) : (s.setObj i o).ctxs = s.ctxs := rfl
@[simp] theorem State.setObj_shareAt (i : Nat) (o : Obj) : (s.setObj i o).shareAt = s.shareAt := rfl
@[simp] theorem State.setObj_shareTab (i : Nat) (o : Obj) : (s.setObj i o).shareTab = s.shareTab := rfl
@[simp] theorem State.setObj_running (i : Nat) (o : Obj) : (s.setObj i o).running = s.running := rfl
@[simp] theorem State.setObj_sysCnt (i : Nat) (o : Obj) : (s.setObj i o).sysCnt = s.sysCnt := rfl
@[simp] theorem State.setObj_mem (i : Nat) (o : Obj) : (s.setObj i o).mem = s.mem := rfl
@[simp] theorem State.setObj_hostMem (i : Nat) (o : Obj) : (s.setObj i o).hostMem = s.hostMem := rfl
@[simp] theorem State.setObj_deposits (i : Nat) (o : Obj) : (s.setObj i o).deposits = s.deposits := rfl
@[simp] theorem State.setObj_poison (i : Nat) (o : Obj) : (s.setObj i o).poison = s.poison := rfl
@[simp] theorem State.setObj_bch (i : Nat) (o : Obj) : (s.setObj i o).bch = s.bch := rfl
@[simp] theorem State.setObj_flashErr (i : Nat) (o : Obj) : (s.setObj i o).flashErr = s.flashErr := rfl
@[simp] theorem State.setObj_pmap (i : Nat) (o : Obj) : (s.setObj i o).pmap = s.pmap := rfl
@[simp] theorem State.setObj_orphans (i : Nat) (o : Obj) : (s.setObj i o).orphans = s.orphans := rfl
@[simp] theorem State.setObj_quotas (i : Nat) (o : Obj) : (s.setObj i o).quotas = s.quotas := rfl
@[simp] theorem State.setObj_mig (i : Nat) (o : Obj) : (s.setObj i o).mig = s.mig := rfl
@[simp] theorem State.setObj_migWait (i : Nat) (o : Obj) : (s.setObj i o).migWait = s.migWait := rfl
@[simp] theorem State.setObj_bankHost (i : Nat) (o : Obj) : (s.setObj i o).bankHost = s.bankHost := rfl
@[simp] theorem State.setObj_bankMgc (i : Nat) (o : Obj) : (s.setObj i o).bankMgc = s.bankMgc := rfl
@[simp] theorem State.setObj_models (i : Nat) (o : Obj) : (s.setObj i o).models = s.models := rfl
@[simp] theorem State.setObj_blks (i : Nat) (o : Obj) : (s.setObj i o).blks = s.blks := rfl
@[simp] theorem State.setObj_fpc (i : Nat) (o : Obj) : (s.setObj i o).fpc = s.fpc := rfl
@[simp] theorem State.setObj_sectors (i : Nat) (o : Obj) : (s.setObj i o).sectors = s.sectors := rfl
@[simp] theorem State.setObj_inst (i : Nat) (o : Obj) : (s.setObj i o).inst = s.inst := rfl
@[simp] theorem State.setObj_armings (i : Nat) (o : Obj) : (s.setObj i o).armings = s.armings := rfl
@[simp] theorem State.setObj_tsets (i : Nat) (o : Obj) : (s.setObj i o).tsets = s.tsets := rfl
@[simp] theorem State.setObj_tiles (i : Nat) (o : Obj) : (s.setObj i o).tiles = s.tiles := rfl
@[simp] theorem State.setObj_cells (i : Nat) (o : Obj) : (s.setObj i o).cells = s.cells := rfl
@[simp] theorem State.setObj_link (i : Nat) (o : Obj) : (s.setObj i o).link = s.link := rfl
@[simp] theorem State.setObj_time (i : Nat) (o : Obj) : (s.setObj i o).time = s.time := rfl
@[simp] theorem State.setObj_pwr (i : Nat) (o : Obj) : (s.setObj i o).pwr = s.pwr := rfl
@[simp] theorem State.setObj_pcie (i : Nat) (o : Obj) : (s.setObj i o).pcie = s.pcie := rfl
@[simp] theorem State.setObj_aptWait (i : Nat) (o : Obj) : (s.setObj i o).aptWait = s.aptWait := rfl
@[simp] theorem State.setObj_sec (i : Nat) (o : Obj) : (s.setObj i o).sec = s.sec := rfl
@[simp] theorem State.setObj_fac (i : Nat) (o : Obj) : (s.setObj i o).fac = s.fac := rfl
@[simp] theorem State.setObj_log (i : Nat) (o : Obj) : (s.setObj i o).log = s.log := rfl
@[simp] theorem State.setObj_logNext (i : Nat) (o : Obj) : (s.setObj i o).logNext = s.logNext := rfl
@[simp] theorem State.setObj_out (i : Nat) (o : Obj) : (s.setObj i o).out = s.out := rfl

/-! ### `State.setModel` changes `models` -/

@[simp] theorem State.setModel_pending (i : Nat) (m : Model) : (s.setModel i m).pending = s.pending := rfl
@[simp] theorem State.setModel_freeCtr (i : Nat) (m : Model) : (s.setModel i m).freeCtr = s.freeCtr := rfl
@[simp] theorem State.setModel_regs (i : Nat) (m : Model) : (s.setModel i m).regs = s.regs := rfl
@[simp] theorem State.setModel_ctxs (i : Nat) (m : Model) : (s.setModel i m).ctxs = s.ctxs := rfl
@[simp] theorem State.setModel_shareAt (i : Nat) (m : Model) : (s.setModel i m).shareAt = s.shareAt := rfl
@[simp] theorem State.setModel_shareTab (i : Nat) (m : Model) : (s.setModel i m).shareTab = s.shareTab := rfl
@[simp] theorem State.setModel_running (i : Nat) (m : Model) : (s.setModel i m).running = s.running := rfl
@[simp] theorem State.setModel_sysCnt (i : Nat) (m : Model) : (s.setModel i m).sysCnt = s.sysCnt := rfl
@[simp] theorem State.setModel_mem (i : Nat) (m : Model) : (s.setModel i m).mem = s.mem := rfl
@[simp] theorem State.setModel_hostMem (i : Nat) (m : Model) : (s.setModel i m).hostMem = s.hostMem := rfl
@[simp] theorem State.setModel_deposits (i : Nat) (m : Model) : (s.setModel i m).deposits = s.deposits := rfl
@[simp] theorem State.setModel_poison (i : Nat) (m : Model) : (s.setModel i m).poison = s.poison := rfl
@[simp] theorem State.setModel_bch (i : Nat) (m : Model) : (s.setModel i m).bch = s.bch := rfl
@[simp] theorem State.setModel_flashErr (i : Nat) (m : Model) : (s.setModel i m).flashErr = s.flashErr := rfl
@[simp] theorem State.setModel_objs (i : Nat) (m : Model) : (s.setModel i m).objs = s.objs := rfl
@[simp] theorem State.setModel_pmap (i : Nat) (m : Model) : (s.setModel i m).pmap = s.pmap := rfl
@[simp] theorem State.setModel_orphans (i : Nat) (m : Model) : (s.setModel i m).orphans = s.orphans := rfl
@[simp] theorem State.setModel_quotas (i : Nat) (m : Model) : (s.setModel i m).quotas = s.quotas := rfl
@[simp] theorem State.setModel_mig (i : Nat) (m : Model) : (s.setModel i m).mig = s.mig := rfl
@[simp] theorem State.setModel_migWait (i : Nat) (m : Model) : (s.setModel i m).migWait = s.migWait := rfl
@[simp] theorem State.setModel_bankHost (i : Nat) (m : Model) : (s.setModel i m).bankHost = s.bankHost := rfl
@[simp] theorem State.setModel_bankMgc (i : Nat) (m : Model) : (s.setModel i m).bankMgc = s.bankMgc := rfl
@[simp] theorem State.setModel_blks (i : Nat) (m : Model) : (s.setModel i m).blks = s.blks := rfl
@[simp] theorem State.setModel_fpc (i : Nat) (m : Model) : (s.setModel i m).fpc = s.fpc := rfl
@[simp] theorem State.setModel_sectors (i : Nat) (m : Model) : (s.setModel i m).sectors = s.sectors := rfl
@[simp] theorem State.setModel_inst (i : Nat) (m : Model) : (s.setModel i m).inst = s.inst := rfl
@[simp] theorem State.setModel_armings (i : Nat) (m : Model) : (s.setModel i m).armings = s.armings := rfl
@[simp] theorem State.setModel_tsets (i : Nat) (m : Model) : (s.setModel i m).tsets = s.tsets := rfl
@[simp] theorem State.setModel_tiles (i : Nat) (m : Model) : (s.setModel i m).tiles = s.tiles := rfl
@[simp] theorem State.setModel_cells (i : Nat) (m : Model) : (s.setModel i m).cells = s.cells := rfl
@[simp] theorem State.setModel_link (i : Nat) (m : Model) : (s.setModel i m).link = s.link := rfl
@[simp] theorem State.setModel_time (i : Nat) (m : Model) : (s.setModel i m).time = s.time := rfl
@[simp] theorem State.setModel_pwr (i : Nat) (m : Model) : (s.setModel i m).pwr = s.pwr := rfl
@[simp] theorem State.setModel_pcie (i : Nat) (m : Model) : (s.setModel i m).pcie = s.pcie := rfl
@[simp] theorem State.setModel_aptWait (i : Nat) (m : Model) : (s.setModel i m).aptWait = s.aptWait := rfl
@[simp] theorem State.setModel_sec (i : Nat) (m : Model) : (s.setModel i m).sec = s.sec := rfl
@[simp] theorem State.setModel_fac (i : Nat) (m : Model) : (s.setModel i m).fac = s.fac := rfl
@[simp] theorem State.setModel_log (i : Nat) (m : Model) : (s.setModel i m).log = s.log := rfl
@[simp] theorem State.setModel_logNext (i : Nat) (m : Model) : (s.setModel i m).logNext = s.logNext := rfl
@[simp] theorem State.setModel_out (i : Nat) (m : Model) : (s.setModel i m).out = s.out := rfl

/-! ### `State.setTset` changes `tsets` -/

@[simp] theorem State.setTset_pending (t k : Nat) (x : TsetSlot) : (s.setTset t k x).pending = s.pending := rfl
@[simp] theorem State.setTset_freeCtr (t k : Nat) (x : TsetSlot) : (s.setTset t k x).freeCtr = s.freeCtr := rfl
@[simp] theorem State.setTset_regs (t k : Nat) (x : TsetSlot) : (s.setTset t k x).regs = s.regs := rfl
@[simp] theorem State.setTset_ctxs (t k : Nat) (x : TsetSlot) : (s.setTset t k x).ctxs = s.ctxs := rfl
@[simp] theorem State.setTset_shareAt (t k : Nat) (x : TsetSlot) : (s.setTset t k x).shareAt = s.shareAt := rfl
@[simp] theorem State.setTset_shareTab (t k : Nat) (x : TsetSlot) : (s.setTset t k x).shareTab = s.shareTab := rfl
@[simp] theorem State.setTset_running (t k : Nat) (x : TsetSlot) : (s.setTset t k x).running = s.running := rfl
@[simp] theorem State.setTset_sysCnt (t k : Nat) (x : TsetSlot) : (s.setTset t k x).sysCnt = s.sysCnt := rfl
@[simp] theorem State.setTset_mem (t k : Nat) (x : TsetSlot) : (s.setTset t k x).mem = s.mem := rfl
@[simp] theorem State.setTset_hostMem (t k : Nat) (x : TsetSlot) : (s.setTset t k x).hostMem = s.hostMem := rfl
@[simp] theorem State.setTset_deposits (t k : Nat) (x : TsetSlot) : (s.setTset t k x).deposits = s.deposits := rfl
@[simp] theorem State.setTset_poison (t k : Nat) (x : TsetSlot) : (s.setTset t k x).poison = s.poison := rfl
@[simp] theorem State.setTset_bch (t k : Nat) (x : TsetSlot) : (s.setTset t k x).bch = s.bch := rfl
@[simp] theorem State.setTset_flashErr (t k : Nat) (x : TsetSlot) : (s.setTset t k x).flashErr = s.flashErr := rfl
@[simp] theorem State.setTset_objs (t k : Nat) (x : TsetSlot) : (s.setTset t k x).objs = s.objs := rfl
@[simp] theorem State.setTset_pmap (t k : Nat) (x : TsetSlot) : (s.setTset t k x).pmap = s.pmap := rfl
@[simp] theorem State.setTset_orphans (t k : Nat) (x : TsetSlot) : (s.setTset t k x).orphans = s.orphans := rfl
@[simp] theorem State.setTset_quotas (t k : Nat) (x : TsetSlot) : (s.setTset t k x).quotas = s.quotas := rfl
@[simp] theorem State.setTset_mig (t k : Nat) (x : TsetSlot) : (s.setTset t k x).mig = s.mig := rfl
@[simp] theorem State.setTset_migWait (t k : Nat) (x : TsetSlot) : (s.setTset t k x).migWait = s.migWait := rfl
@[simp] theorem State.setTset_bankHost (t k : Nat) (x : TsetSlot) : (s.setTset t k x).bankHost = s.bankHost := rfl
@[simp] theorem State.setTset_bankMgc (t k : Nat) (x : TsetSlot) : (s.setTset t k x).bankMgc = s.bankMgc := rfl
@[simp] theorem State.setTset_models (t k : Nat) (x : TsetSlot) : (s.setTset t k x).models = s.models := rfl
@[simp] theorem State.setTset_blks (t k : Nat) (x : TsetSlot) : (s.setTset t k x).blks = s.blks := rfl
@[simp] theorem State.setTset_fpc (t k : Nat) (x : TsetSlot) : (s.setTset t k x).fpc = s.fpc := rfl
@[simp] theorem State.setTset_sectors (t k : Nat) (x : TsetSlot) : (s.setTset t k x).sectors = s.sectors := rfl
@[simp] theorem State.setTset_inst (t k : Nat) (x : TsetSlot) : (s.setTset t k x).inst = s.inst := rfl
@[simp] theorem State.setTset_armings (t k : Nat) (x : TsetSlot) : (s.setTset t k x).armings = s.armings := rfl
@[simp] theorem State.setTset_tiles (t k : Nat) (x : TsetSlot) : (s.setTset t k x).tiles = s.tiles := rfl
@[simp] theorem State.setTset_cells (t k : Nat) (x : TsetSlot) : (s.setTset t k x).cells = s.cells := rfl
@[simp] theorem State.setTset_link (t k : Nat) (x : TsetSlot) : (s.setTset t k x).link = s.link := rfl
@[simp] theorem State.setTset_time (t k : Nat) (x : TsetSlot) : (s.setTset t k x).time = s.time := rfl
@[simp] theorem State.setTset_pwr (t k : Nat) (x : TsetSlot) : (s.setTset t k x).pwr = s.pwr := rfl
@[simp] theorem State.setTset_pcie (t k : Nat) (x : TsetSlot) : (s.setTset t k x).pcie = s.pcie := rfl
@[simp] theorem State.setTset_aptWait (t k : Nat) (x : TsetSlot) : (s.setTset t k x).aptWait = s.aptWait := rfl
@[simp] theorem State.setTset_sec (t k : Nat) (x : TsetSlot) : (s.setTset t k x).sec = s.sec := rfl
@[simp] theorem State.setTset_fac (t k : Nat) (x : TsetSlot) : (s.setTset t k x).fac = s.fac := rfl
@[simp] theorem State.setTset_log (t k : Nat) (x : TsetSlot) : (s.setTset t k x).log = s.log := rfl
@[simp] theorem State.setTset_logNext (t k : Nat) (x : TsetSlot) : (s.setTset t k x).logNext = s.logNext := rfl
@[simp] theorem State.setTset_out (t k : Nat) (x : TsetSlot) : (s.setTset t k x).out = s.out := rfl

/-! ### `State.setTile` changes `tiles` -/

@[simp] theorem State.setTile_pending (t : Nat) (x : Tile) : (s.setTile t x).pending = s.pending := rfl
@[simp] theorem State.setTile_freeCtr (t : Nat) (x : Tile) : (s.setTile t x).freeCtr = s.freeCtr := rfl
@[simp] theorem State.setTile_regs (t : Nat) (x : Tile) : (s.setTile t x).regs = s.regs := rfl
@[simp] theorem State.setTile_ctxs (t : Nat) (x : Tile) : (s.setTile t x).ctxs = s.ctxs := rfl
@[simp] theorem State.setTile_shareAt (t : Nat) (x : Tile) : (s.setTile t x).shareAt = s.shareAt := rfl
@[simp] theorem State.setTile_shareTab (t : Nat) (x : Tile) : (s.setTile t x).shareTab = s.shareTab := rfl
@[simp] theorem State.setTile_running (t : Nat) (x : Tile) : (s.setTile t x).running = s.running := rfl
@[simp] theorem State.setTile_sysCnt (t : Nat) (x : Tile) : (s.setTile t x).sysCnt = s.sysCnt := rfl
@[simp] theorem State.setTile_mem (t : Nat) (x : Tile) : (s.setTile t x).mem = s.mem := rfl
@[simp] theorem State.setTile_hostMem (t : Nat) (x : Tile) : (s.setTile t x).hostMem = s.hostMem := rfl
@[simp] theorem State.setTile_deposits (t : Nat) (x : Tile) : (s.setTile t x).deposits = s.deposits := rfl
@[simp] theorem State.setTile_poison (t : Nat) (x : Tile) : (s.setTile t x).poison = s.poison := rfl
@[simp] theorem State.setTile_bch (t : Nat) (x : Tile) : (s.setTile t x).bch = s.bch := rfl
@[simp] theorem State.setTile_flashErr (t : Nat) (x : Tile) : (s.setTile t x).flashErr = s.flashErr := rfl
@[simp] theorem State.setTile_objs (t : Nat) (x : Tile) : (s.setTile t x).objs = s.objs := rfl
@[simp] theorem State.setTile_pmap (t : Nat) (x : Tile) : (s.setTile t x).pmap = s.pmap := rfl
@[simp] theorem State.setTile_orphans (t : Nat) (x : Tile) : (s.setTile t x).orphans = s.orphans := rfl
@[simp] theorem State.setTile_quotas (t : Nat) (x : Tile) : (s.setTile t x).quotas = s.quotas := rfl
@[simp] theorem State.setTile_mig (t : Nat) (x : Tile) : (s.setTile t x).mig = s.mig := rfl
@[simp] theorem State.setTile_migWait (t : Nat) (x : Tile) : (s.setTile t x).migWait = s.migWait := rfl
@[simp] theorem State.setTile_bankHost (t : Nat) (x : Tile) : (s.setTile t x).bankHost = s.bankHost := rfl
@[simp] theorem State.setTile_bankMgc (t : Nat) (x : Tile) : (s.setTile t x).bankMgc = s.bankMgc := rfl
@[simp] theorem State.setTile_models (t : Nat) (x : Tile) : (s.setTile t x).models = s.models := rfl
@[simp] theorem State.setTile_blks (t : Nat) (x : Tile) : (s.setTile t x).blks = s.blks := rfl
@[simp] theorem State.setTile_fpc (t : Nat) (x : Tile) : (s.setTile t x).fpc = s.fpc := rfl
@[simp] theorem State.setTile_sectors (t : Nat) (x : Tile) : (s.setTile t x).sectors = s.sectors := rfl
@[simp] theorem State.setTile_inst (t : Nat) (x : Tile) : (s.setTile t x).inst = s.inst := rfl
@[simp] theorem State.setTile_armings (t : Nat) (x : Tile) : (s.setTile t x).armings = s.armings := rfl
@[simp] theorem State.setTile_tsets (t : Nat) (x : Tile) : (s.setTile t x).tsets = s.tsets := rfl
@[simp] theorem State.setTile_cells (t : Nat) (x : Tile) : (s.setTile t x).cells = s.cells := rfl
@[simp] theorem State.setTile_link (t : Nat) (x : Tile) : (s.setTile t x).link = s.link := rfl
@[simp] theorem State.setTile_time (t : Nat) (x : Tile) : (s.setTile t x).time = s.time := rfl
@[simp] theorem State.setTile_pwr (t : Nat) (x : Tile) : (s.setTile t x).pwr = s.pwr := rfl
@[simp] theorem State.setTile_pcie (t : Nat) (x : Tile) : (s.setTile t x).pcie = s.pcie := rfl
@[simp] theorem State.setTile_aptWait (t : Nat) (x : Tile) : (s.setTile t x).aptWait = s.aptWait := rfl
@[simp] theorem State.setTile_sec (t : Nat) (x : Tile) : (s.setTile t x).sec = s.sec := rfl
@[simp] theorem State.setTile_fac (t : Nat) (x : Tile) : (s.setTile t x).fac = s.fac := rfl
@[simp] theorem State.setTile_log (t : Nat) (x : Tile) : (s.setTile t x).log = s.log := rfl
@[simp] theorem State.setTile_logNext (t : Nat) (x : Tile) : (s.setTile t x).logNext = s.logNext := rfl
@[simp] theorem State.setTile_out (t : Nat) (x : Tile) : (s.setTile t x).out = s.out := rfl

/-! ### `State.setSector` changes `sectors` -/

@[simp] theorem State.setSector_pending (t m : Nat) (x : Sector) : (s.setSector t m x).pending = s.pending := rfl
@[simp] theorem State.setSector_freeCtr (t m : Nat) (x : Sector) : (s.setSector t m x).freeCtr = s.freeCtr := rfl
@[simp] theorem State.setSector_regs (t m : Nat) (x : Sector) : (s.setSector t m x).regs = s.regs := rfl
@[simp] theorem State.setSector_ctxs (t m : Nat) (x : Sector) : (s.setSector t m x).ctxs = s.ctxs := rfl
@[simp] theorem State.setSector_shareAt (t m : Nat) (x : Sector) : (s.setSector t m x).shareAt = s.shareAt := rfl
@[simp] theorem State.setSector_shareTab (t m : Nat) (x : Sector) : (s.setSector t m x).shareTab = s.shareTab := rfl
@[simp] theorem State.setSector_running (t m : Nat) (x : Sector) : (s.setSector t m x).running = s.running := rfl
@[simp] theorem State.setSector_sysCnt (t m : Nat) (x : Sector) : (s.setSector t m x).sysCnt = s.sysCnt := rfl
@[simp] theorem State.setSector_mem (t m : Nat) (x : Sector) : (s.setSector t m x).mem = s.mem := rfl
@[simp] theorem State.setSector_hostMem (t m : Nat) (x : Sector) : (s.setSector t m x).hostMem = s.hostMem := rfl
@[simp] theorem State.setSector_deposits (t m : Nat) (x : Sector) : (s.setSector t m x).deposits = s.deposits := rfl
@[simp] theorem State.setSector_poison (t m : Nat) (x : Sector) : (s.setSector t m x).poison = s.poison := rfl
@[simp] theorem State.setSector_bch (t m : Nat) (x : Sector) : (s.setSector t m x).bch = s.bch := rfl
@[simp] theorem State.setSector_flashErr (t m : Nat) (x : Sector) : (s.setSector t m x).flashErr = s.flashErr := rfl
@[simp] theorem State.setSector_objs (t m : Nat) (x : Sector) : (s.setSector t m x).objs = s.objs := rfl
@[simp] theorem State.setSector_pmap (t m : Nat) (x : Sector) : (s.setSector t m x).pmap = s.pmap := rfl
@[simp] theorem State.setSector_orphans (t m : Nat) (x : Sector) : (s.setSector t m x).orphans = s.orphans := rfl
@[simp] theorem State.setSector_quotas (t m : Nat) (x : Sector) : (s.setSector t m x).quotas = s.quotas := rfl
@[simp] theorem State.setSector_mig (t m : Nat) (x : Sector) : (s.setSector t m x).mig = s.mig := rfl
@[simp] theorem State.setSector_migWait (t m : Nat) (x : Sector) : (s.setSector t m x).migWait = s.migWait := rfl
@[simp] theorem State.setSector_bankHost (t m : Nat) (x : Sector) : (s.setSector t m x).bankHost = s.bankHost := rfl
@[simp] theorem State.setSector_bankMgc (t m : Nat) (x : Sector) : (s.setSector t m x).bankMgc = s.bankMgc := rfl
@[simp] theorem State.setSector_models (t m : Nat) (x : Sector) : (s.setSector t m x).models = s.models := rfl
@[simp] theorem State.setSector_blks (t m : Nat) (x : Sector) : (s.setSector t m x).blks = s.blks := rfl
@[simp] theorem State.setSector_fpc (t m : Nat) (x : Sector) : (s.setSector t m x).fpc = s.fpc := rfl
@[simp] theorem State.setSector_inst (t m : Nat) (x : Sector) : (s.setSector t m x).inst = s.inst := rfl
@[simp] theorem State.setSector_armings (t m : Nat) (x : Sector) : (s.setSector t m x).armings = s.armings := rfl
@[simp] theorem State.setSector_tsets (t m : Nat) (x : Sector) : (s.setSector t m x).tsets = s.tsets := rfl
@[simp] theorem State.setSector_tiles (t m : Nat) (x : Sector) : (s.setSector t m x).tiles = s.tiles := rfl
@[simp] theorem State.setSector_cells (t m : Nat) (x : Sector) : (s.setSector t m x).cells = s.cells := rfl
@[simp] theorem State.setSector_link (t m : Nat) (x : Sector) : (s.setSector t m x).link = s.link := rfl
@[simp] theorem State.setSector_time (t m : Nat) (x : Sector) : (s.setSector t m x).time = s.time := rfl
@[simp] theorem State.setSector_pwr (t m : Nat) (x : Sector) : (s.setSector t m x).pwr = s.pwr := rfl
@[simp] theorem State.setSector_pcie (t m : Nat) (x : Sector) : (s.setSector t m x).pcie = s.pcie := rfl
@[simp] theorem State.setSector_aptWait (t m : Nat) (x : Sector) : (s.setSector t m x).aptWait = s.aptWait := rfl
@[simp] theorem State.setSector_sec (t m : Nat) (x : Sector) : (s.setSector t m x).sec = s.sec := rfl
@[simp] theorem State.setSector_fac (t m : Nat) (x : Sector) : (s.setSector t m x).fac = s.fac := rfl
@[simp] theorem State.setSector_log (t m : Nat) (x : Sector) : (s.setSector t m x).log = s.log := rfl
@[simp] theorem State.setSector_logNext (t m : Nat) (x : Sector) : (s.setSector t m x).logNext = s.logNext := rfl
@[simp] theorem State.setSector_out (t m : Nat) (x : Sector) : (s.setSector t m x).out = s.out := rfl

/-! ### `State.setBlk` changes `blks` -/

@[simp] theorem State.setBlk_pending (b : Nat) (x : Blk) : (s.setBlk b x).pending = s.pending := rfl
@[simp] theorem State.setBlk_freeCtr (b : Nat) (x : Blk) : (s.setBlk b x).freeCtr = s.freeCtr := rfl
@[simp] theorem State.setBlk_regs (b : Nat) (x : Blk) : (s.setBlk b x).regs = s.regs := rfl
@[simp] theorem State.setBlk_ctxs (b : Nat) (x : Blk) : (s.setBlk b x).ctxs = s.ctxs := rfl
@[simp] theorem State.setBlk_shareAt (b : Nat) (x : Blk) : (s.setBlk b x).shareAt = s.shareAt := rfl
@[simp] theorem State.setBlk_shareTab (b : Nat) (x : Blk) : (s.setBlk b x).shareTab = s.shareTab := rfl
@[simp] theorem State.setBlk_running (b : Nat) (x : Blk) : (s.setBlk b x).running = s.running := rfl
@[simp] theorem State.setBlk_sysCnt (b : Nat) (x : Blk) : (s.setBlk b x).sysCnt = s.sysCnt := rfl
@[simp] theorem State.setBlk_mem (b : Nat) (x : Blk) : (s.setBlk b x).mem = s.mem := rfl
@[simp] theorem State.setBlk_hostMem (b : Nat) (x : Blk) : (s.setBlk b x).hostMem = s.hostMem := rfl
@[simp] theorem State.setBlk_deposits (b : Nat) (x : Blk) : (s.setBlk b x).deposits = s.deposits := rfl
@[simp] theorem State.setBlk_poison (b : Nat) (x : Blk) : (s.setBlk b x).poison = s.poison := rfl
@[simp] theorem State.setBlk_bch (b : Nat) (x : Blk) : (s.setBlk b x).bch = s.bch := rfl
@[simp] theorem State.setBlk_flashErr (b : Nat) (x : Blk) : (s.setBlk b x).flashErr = s.flashErr := rfl
@[simp] theorem State.setBlk_objs (b : Nat) (x : Blk) : (s.setBlk b x).objs = s.objs := rfl
@[simp] theorem State.setBlk_pmap (b : Nat) (x : Blk) : (s.setBlk b x).pmap = s.pmap := rfl
@[simp] theorem State.setBlk_orphans (b : Nat) (x : Blk) : (s.setBlk b x).orphans = s.orphans := rfl
@[simp] theorem State.setBlk_quotas (b : Nat) (x : Blk) : (s.setBlk b x).quotas = s.quotas := rfl
@[simp] theorem State.setBlk_mig (b : Nat) (x : Blk) : (s.setBlk b x).mig = s.mig := rfl
@[simp] theorem State.setBlk_migWait (b : Nat) (x : Blk) : (s.setBlk b x).migWait = s.migWait := rfl
@[simp] theorem State.setBlk_bankHost (b : Nat) (x : Blk) : (s.setBlk b x).bankHost = s.bankHost := rfl
@[simp] theorem State.setBlk_bankMgc (b : Nat) (x : Blk) : (s.setBlk b x).bankMgc = s.bankMgc := rfl
@[simp] theorem State.setBlk_models (b : Nat) (x : Blk) : (s.setBlk b x).models = s.models := rfl
@[simp] theorem State.setBlk_fpc (b : Nat) (x : Blk) : (s.setBlk b x).fpc = s.fpc := rfl
@[simp] theorem State.setBlk_sectors (b : Nat) (x : Blk) : (s.setBlk b x).sectors = s.sectors := rfl
@[simp] theorem State.setBlk_inst (b : Nat) (x : Blk) : (s.setBlk b x).inst = s.inst := rfl
@[simp] theorem State.setBlk_armings (b : Nat) (x : Blk) : (s.setBlk b x).armings = s.armings := rfl
@[simp] theorem State.setBlk_tsets (b : Nat) (x : Blk) : (s.setBlk b x).tsets = s.tsets := rfl
@[simp] theorem State.setBlk_tiles (b : Nat) (x : Blk) : (s.setBlk b x).tiles = s.tiles := rfl
@[simp] theorem State.setBlk_cells (b : Nat) (x : Blk) : (s.setBlk b x).cells = s.cells := rfl
@[simp] theorem State.setBlk_link (b : Nat) (x : Blk) : (s.setBlk b x).link = s.link := rfl
@[simp] theorem State.setBlk_time (b : Nat) (x : Blk) : (s.setBlk b x).time = s.time := rfl
@[simp] theorem State.setBlk_pwr (b : Nat) (x : Blk) : (s.setBlk b x).pwr = s.pwr := rfl
@[simp] theorem State.setBlk_pcie (b : Nat) (x : Blk) : (s.setBlk b x).pcie = s.pcie := rfl
@[simp] theorem State.setBlk_aptWait (b : Nat) (x : Blk) : (s.setBlk b x).aptWait = s.aptWait := rfl
@[simp] theorem State.setBlk_sec (b : Nat) (x : Blk) : (s.setBlk b x).sec = s.sec := rfl
@[simp] theorem State.setBlk_fac (b : Nat) (x : Blk) : (s.setBlk b x).fac = s.fac := rfl
@[simp] theorem State.setBlk_log (b : Nat) (x : Blk) : (s.setBlk b x).log = s.log := rfl
@[simp] theorem State.setBlk_logNext (b : Nat) (x : Blk) : (s.setBlk b x).logNext = s.logNext := rfl
@[simp] theorem State.setBlk_out (b : Nat) (x : Blk) : (s.setBlk b x).out = s.out := rfl

/-! ### `State.setFpc` changes `fpc` -/

@[simp] theorem State.setFpc_pending (x : Fpc) : (s.setFpc x).pending = s.pending := rfl
@[simp] theorem State.setFpc_freeCtr (x : Fpc) : (s.setFpc x).freeCtr = s.freeCtr := rfl
@[simp] theorem State.setFpc_regs (x : Fpc) : (s.setFpc x).regs = s.regs := rfl
@[simp] theorem State.setFpc_ctxs (x : Fpc) : (s.setFpc x).ctxs = s.ctxs := rfl
@[simp] theorem State.setFpc_shareAt (x : Fpc) : (s.setFpc x).shareAt = s.shareAt := rfl
@[simp] theorem State.setFpc_shareTab (x : Fpc) : (s.setFpc x).shareTab = s.shareTab := rfl
@[simp] theorem State.setFpc_running (x : Fpc) : (s.setFpc x).running = s.running := rfl
@[simp] theorem State.setFpc_sysCnt (x : Fpc) : (s.setFpc x).sysCnt = s.sysCnt := rfl
@[simp] theorem State.setFpc_mem (x : Fpc) : (s.setFpc x).mem = s.mem := rfl
@[simp] theorem State.setFpc_hostMem (x : Fpc) : (s.setFpc x).hostMem = s.hostMem := rfl
@[simp] theorem State.setFpc_deposits (x : Fpc) : (s.setFpc x).deposits = s.deposits := rfl
@[simp] theorem State.setFpc_poison (x : Fpc) : (s.setFpc x).poison = s.poison := rfl
@[simp] theorem State.setFpc_bch (x : Fpc) : (s.setFpc x).bch = s.bch := rfl
@[simp] theorem State.setFpc_flashErr (x : Fpc) : (s.setFpc x).flashErr = s.flashErr := rfl
@[simp] theorem State.setFpc_objs (x : Fpc) : (s.setFpc x).objs = s.objs := rfl
@[simp] theorem State.setFpc_pmap (x : Fpc) : (s.setFpc x).pmap = s.pmap := rfl
@[simp] theorem State.setFpc_orphans (x : Fpc) : (s.setFpc x).orphans = s.orphans := rfl
@[simp] theorem State.setFpc_quotas (x : Fpc) : (s.setFpc x).quotas = s.quotas := rfl
@[simp] theorem State.setFpc_mig (x : Fpc) : (s.setFpc x).mig = s.mig := rfl
@[simp] theorem State.setFpc_migWait (x : Fpc) : (s.setFpc x).migWait = s.migWait := rfl
@[simp] theorem State.setFpc_bankHost (x : Fpc) : (s.setFpc x).bankHost = s.bankHost := rfl
@[simp] theorem State.setFpc_bankMgc (x : Fpc) : (s.setFpc x).bankMgc = s.bankMgc := rfl
@[simp] theorem State.setFpc_models (x : Fpc) : (s.setFpc x).models = s.models := rfl
@[simp] theorem State.setFpc_blks (x : Fpc) : (s.setFpc x).blks = s.blks := rfl
@[simp] theorem State.setFpc_sectors (x : Fpc) : (s.setFpc x).sectors = s.sectors := rfl
@[simp] theorem State.setFpc_inst (x : Fpc) : (s.setFpc x).inst = s.inst := rfl
@[simp] theorem State.setFpc_armings (x : Fpc) : (s.setFpc x).armings = s.armings := rfl
@[simp] theorem State.setFpc_tsets (x : Fpc) : (s.setFpc x).tsets = s.tsets := rfl
@[simp] theorem State.setFpc_tiles (x : Fpc) : (s.setFpc x).tiles = s.tiles := rfl
@[simp] theorem State.setFpc_cells (x : Fpc) : (s.setFpc x).cells = s.cells := rfl
@[simp] theorem State.setFpc_link (x : Fpc) : (s.setFpc x).link = s.link := rfl
@[simp] theorem State.setFpc_time (x : Fpc) : (s.setFpc x).time = s.time := rfl
@[simp] theorem State.setFpc_pwr (x : Fpc) : (s.setFpc x).pwr = s.pwr := rfl
@[simp] theorem State.setFpc_pcie (x : Fpc) : (s.setFpc x).pcie = s.pcie := rfl
@[simp] theorem State.setFpc_aptWait (x : Fpc) : (s.setFpc x).aptWait = s.aptWait := rfl
@[simp] theorem State.setFpc_sec (x : Fpc) : (s.setFpc x).sec = s.sec := rfl
@[simp] theorem State.setFpc_fac (x : Fpc) : (s.setFpc x).fac = s.fac := rfl
@[simp] theorem State.setFpc_log (x : Fpc) : (s.setFpc x).log = s.log := rfl
@[simp] theorem State.setFpc_logNext (x : Fpc) : (s.setFpc x).logNext = s.logNext := rfl
@[simp] theorem State.setFpc_out (x : Fpc) : (s.setFpc x).out = s.out := rfl

/-! ### `State.setPort` changes `link` -/

@[simp] theorem State.setPort_pending (p : PortId) (x : Port) : (s.setPort p x).pending = s.pending := rfl
@[simp] theorem State.setPort_freeCtr (p : PortId) (x : Port) : (s.setPort p x).freeCtr = s.freeCtr := rfl
@[simp] theorem State.setPort_regs (p : PortId) (x : Port) : (s.setPort p x).regs = s.regs := rfl
@[simp] theorem State.setPort_ctxs (p : PortId) (x : Port) : (s.setPort p x).ctxs = s.ctxs := rfl
@[simp] theorem State.setPort_shareAt (p : PortId) (x : Port) : (s.setPort p x).shareAt = s.shareAt := rfl
@[simp] theorem State.setPort_shareTab (p : PortId) (x : Port) : (s.setPort p x).shareTab = s.shareTab := rfl
@[simp] theorem State.setPort_running (p : PortId) (x : Port) : (s.setPort p x).running = s.running := rfl
@[simp] theorem State.setPort_sysCnt (p : PortId) (x : Port) : (s.setPort p x).sysCnt = s.sysCnt := rfl
@[simp] theorem State.setPort_mem (p : PortId) (x : Port) : (s.setPort p x).mem = s.mem := rfl
@[simp] theorem State.setPort_hostMem (p : PortId) (x : Port) : (s.setPort p x).hostMem = s.hostMem := rfl
@[simp] theorem State.setPort_deposits (p : PortId) (x : Port) : (s.setPort p x).deposits = s.deposits := rfl
@[simp] theorem State.setPort_poison (p : PortId) (x : Port) : (s.setPort p x).poison = s.poison := rfl
@[simp] theorem State.setPort_bch (p : PortId) (x : Port) : (s.setPort p x).bch = s.bch := rfl
@[simp] theorem State.setPort_flashErr (p : PortId) (x : Port) : (s.setPort p x).flashErr = s.flashErr := rfl
@[simp] theorem State.setPort_objs (p : PortId) (x : Port) : (s.setPort p x).objs = s.objs := rfl
@[simp] theorem State.setPort_pmap (p : PortId) (x : Port) : (s.setPort p x).pmap = s.pmap := rfl
@[simp] theorem State.setPort_orphans (p : PortId) (x : Port) : (s.setPort p x).orphans = s.orphans := rfl
@[simp] theorem State.setPort_quotas (p : PortId) (x : Port) : (s.setPort p x).quotas = s.quotas := rfl
@[simp] theorem State.setPort_mig (p : PortId) (x : Port) : (s.setPort p x).mig = s.mig := rfl
@[simp] theorem State.setPort_migWait (p : PortId) (x : Port) : (s.setPort p x).migWait = s.migWait := rfl
@[simp] theorem State.setPort_bankHost (p : PortId) (x : Port) : (s.setPort p x).bankHost = s.bankHost := rfl
@[simp] theorem State.setPort_bankMgc (p : PortId) (x : Port) : (s.setPort p x).bankMgc = s.bankMgc := rfl
@[simp] theorem State.setPort_models (p : PortId) (x : Port) : (s.setPort p x).models = s.models := rfl
@[simp] theorem State.setPort_blks (p : PortId) (x : Port) : (s.setPort p x).blks = s.blks := rfl
@[simp] theorem State.setPort_fpc (p : PortId) (x : Port) : (s.setPort p x).fpc = s.fpc := rfl
@[simp] theorem State.setPort_sectors (p : PortId) (x : Port) : (s.setPort p x).sectors = s.sectors := rfl
@[simp] theorem State.setPort_inst (p : PortId) (x : Port) : (s.setPort p x).inst = s.inst := rfl
@[simp] theorem State.setPort_armings (p : PortId) (x : Port) : (s.setPort p x).armings = s.armings := rfl
@[simp] theorem State.setPort_tsets (p : PortId) (x : Port) : (s.setPort p x).tsets = s.tsets := rfl
@[simp] theorem State.setPort_tiles (p : PortId) (x : Port) : (s.setPort p x).tiles = s.tiles := rfl
@[simp] theorem State.setPort_cells (p : PortId) (x : Port) : (s.setPort p x).cells = s.cells := rfl
@[simp] theorem State.setPort_time (p : PortId) (x : Port) : (s.setPort p x).time = s.time := rfl
@[simp] theorem State.setPort_pwr (p : PortId) (x : Port) : (s.setPort p x).pwr = s.pwr := rfl
@[simp] theorem State.setPort_pcie (p : PortId) (x : Port) : (s.setPort p x).pcie = s.pcie := rfl
@[simp] theorem State.setPort_aptWait (p : PortId) (x : Port) : (s.setPort p x).aptWait = s.aptWait := rfl
@[simp] theorem State.setPort_sec (p : PortId) (x : Port) : (s.setPort p x).sec = s.sec := rfl
@[simp] theorem State.setPort_fac (p : PortId) (x : Port) : (s.setPort p x).fac = s.fac := rfl
@[simp] theorem State.setPort_log (p : PortId) (x : Port) : (s.setPort p x).log = s.log := rfl
@[simp] theorem State.setPort_logNext (p : PortId) (x : Port) : (s.setPort p x).logNext = s.logNext := rfl
@[simp] theorem State.setPort_out (p : PortId) (x : Port) : (s.setPort p x).out = s.out := rfl

/-! ### `State.updPort` changes `link` -/

@[simp] theorem State.updPort_pending (p : PortId) (f : Port → Port) : (s.updPort p f).pending = s.pending := rfl
@[simp] theorem State.updPort_freeCtr (p : PortId) (f : Port → Port) : (s.updPort p f).freeCtr = s.freeCtr := rfl
@[simp] theorem State.updPort_regs (p : PortId) (f : Port → Port) : (s.updPort p f).regs = s.regs := rfl
@[simp] theorem State.updPort_ctxs (p : PortId) (f : Port → Port) : (s.updPort p f).ctxs = s.ctxs := rfl
@[simp] theorem State.updPort_shareAt (p : PortId) (f : Port → Port) : (s.updPort p f).shareAt = s.shareAt := rfl
@[simp] theorem State.updPort_shareTab (p : PortId) (f : Port → Port) : (s.updPort p f).shareTab = s.shareTab := rfl
@[simp] theorem State.updPort_running (p : PortId) (f : Port → Port) : (s.updPort p f).running = s.running := rfl
@[simp] theorem State.updPort_sysCnt (p : PortId) (f : Port → Port) : (s.updPort p f).sysCnt = s.sysCnt := rfl
@[simp] theorem State.updPort_mem (p : PortId) (f : Port → Port) : (s.updPort p f).mem = s.mem := rfl
@[simp] theorem State.updPort_hostMem (p : PortId) (f : Port → Port) : (s.updPort p f).hostMem = s.hostMem := rfl
@[simp] theorem State.updPort_deposits (p : PortId) (f : Port → Port) : (s.updPort p f).deposits = s.deposits := rfl
@[simp] theorem State.updPort_poison (p : PortId) (f : Port → Port) : (s.updPort p f).poison = s.poison := rfl
@[simp] theorem State.updPort_bch (p : PortId) (f : Port → Port) : (s.updPort p f).bch = s.bch := rfl
@[simp] theorem State.updPort_flashErr (p : PortId) (f : Port → Port) : (s.updPort p f).flashErr = s.flashErr := rfl
@[simp] theorem State.updPort_objs (p : PortId) (f : Port → Port) : (s.updPort p f).objs = s.objs := rfl
@[simp] theorem State.updPort_pmap (p : PortId) (f : Port → Port) : (s.updPort p f).pmap = s.pmap := rfl
@[simp] theorem State.updPort_orphans (p : PortId) (f : Port → Port) : (s.updPort p f).orphans = s.orphans := rfl
@[simp] theorem State.updPort_quotas (p : PortId) (f : Port → Port) : (s.updPort p f).quotas = s.quotas := rfl
@[simp] theorem State.updPort_mig (p : PortId) (f : Port → Port) : (s.updPort p f).mig = s.mig := rfl
@[simp] theorem State.updPort_migWait (p : PortId) (f : Port → Port) : (s.updPort p f).migWait = s.migWait := rfl
@[simp] theorem State.updPort_bankHost (p : PortId) (f : Port → Port) : (s.updPort p f).bankHost = s.bankHost := rfl
@[simp] theorem State.updPort_bankMgc (p : PortId) (f : Port → Port) : (s.updPort p f).bankMgc = s.bankMgc := rfl
@[simp] theorem State.updPort_models (p : PortId) (f : Port → Port) : (s.updPort p f).models = s.models := rfl
@[simp] theorem State.updPort_blks (p : PortId) (f : Port → Port) : (s.updPort p f).blks = s.blks := rfl
@[simp] theorem State.updPort_fpc (p : PortId) (f : Port → Port) : (s.updPort p f).fpc = s.fpc := rfl
@[simp] theorem State.updPort_sectors (p : PortId) (f : Port → Port) : (s.updPort p f).sectors = s.sectors := rfl
@[simp] theorem State.updPort_inst (p : PortId) (f : Port → Port) : (s.updPort p f).inst = s.inst := rfl
@[simp] theorem State.updPort_armings (p : PortId) (f : Port → Port) : (s.updPort p f).armings = s.armings := rfl
@[simp] theorem State.updPort_tsets (p : PortId) (f : Port → Port) : (s.updPort p f).tsets = s.tsets := rfl
@[simp] theorem State.updPort_tiles (p : PortId) (f : Port → Port) : (s.updPort p f).tiles = s.tiles := rfl
@[simp] theorem State.updPort_cells (p : PortId) (f : Port → Port) : (s.updPort p f).cells = s.cells := rfl
@[simp] theorem State.updPort_time (p : PortId) (f : Port → Port) : (s.updPort p f).time = s.time := rfl
@[simp] theorem State.updPort_pwr (p : PortId) (f : Port → Port) : (s.updPort p f).pwr = s.pwr := rfl
@[simp] theorem State.updPort_pcie (p : PortId) (f : Port → Port) : (s.updPort p f).pcie = s.pcie := rfl
@[simp] theorem State.updPort_aptWait (p : PortId) (f : Port → Port) : (s.updPort p f).aptWait = s.aptWait := rfl
@[simp] theorem State.updPort_sec (p : PortId) (f : Port → Port) : (s.updPort p f).sec = s.sec := rfl
@[simp] theorem State.updPort_fac (p : PortId) (f : Port → Port) : (s.updPort p f).fac = s.fac := rfl
@[simp] theorem State.updPort_log (p : PortId) (f : Port → Port) : (s.updPort p f).log = s.log := rfl
@[simp] theorem State.updPort_logNext (p : PortId) (f : Port → Port) : (s.updPort p f).logNext = s.logNext := rfl
@[simp] theorem State.updPort_out (p : PortId) (f : Port → Port) : (s.updPort p f).out = s.out := rfl

/-! ### `State.setTopo` changes `link` -/

@[simp] theorem State.setTopo_pending (d : Nat) (e : TopoEnt) : (s.setTopo d e).pending = s.pending := rfl
@[simp] theorem State.setTopo_freeCtr (d : Nat) (e : TopoEnt) : (s.setTopo d e).freeCtr = s.freeCtr := rfl
@[simp] theorem State.setTopo_regs (d : Nat) (e : TopoEnt) : (s.setTopo d e).regs = s.regs := rfl
@[simp] theorem State.setTopo_ctxs (d : Nat) (e : TopoEnt) : (s.setTopo d e).ctxs = s.ctxs := rfl
@[simp] theorem State.setTopo_shareAt (d : Nat) (e : TopoEnt) : (s.setTopo d e).shareAt = s.shareAt := rfl
@[simp] theorem State.setTopo_shareTab (d : Nat) (e : TopoEnt) : (s.setTopo d e).shareTab = s.shareTab := rfl
@[simp] theorem State.setTopo_running (d : Nat) (e : TopoEnt) : (s.setTopo d e).running = s.running := rfl
@[simp] theorem State.setTopo_sysCnt (d : Nat) (e : TopoEnt) : (s.setTopo d e).sysCnt = s.sysCnt := rfl
@[simp] theorem State.setTopo_mem (d : Nat) (e : TopoEnt) : (s.setTopo d e).mem = s.mem := rfl
@[simp] theorem State.setTopo_hostMem (d : Nat) (e : TopoEnt) : (s.setTopo d e).hostMem = s.hostMem := rfl
@[simp] theorem State.setTopo_deposits (d : Nat) (e : TopoEnt) : (s.setTopo d e).deposits = s.deposits := rfl
@[simp] theorem State.setTopo_poison (d : Nat) (e : TopoEnt) : (s.setTopo d e).poison = s.poison := rfl
@[simp] theorem State.setTopo_bch (d : Nat) (e : TopoEnt) : (s.setTopo d e).bch = s.bch := rfl
@[simp] theorem State.setTopo_flashErr (d : Nat) (e : TopoEnt) : (s.setTopo d e).flashErr = s.flashErr := rfl
@[simp] theorem State.setTopo_objs (d : Nat) (e : TopoEnt) : (s.setTopo d e).objs = s.objs := rfl
@[simp] theorem State.setTopo_pmap (d : Nat) (e : TopoEnt) : (s.setTopo d e).pmap = s.pmap := rfl
@[simp] theorem State.setTopo_orphans (d : Nat) (e : TopoEnt) : (s.setTopo d e).orphans = s.orphans := rfl
@[simp] theorem State.setTopo_quotas (d : Nat) (e : TopoEnt) : (s.setTopo d e).quotas = s.quotas := rfl
@[simp] theorem State.setTopo_mig (d : Nat) (e : TopoEnt) : (s.setTopo d e).mig = s.mig := rfl
@[simp] theorem State.setTopo_migWait (d : Nat) (e : TopoEnt) : (s.setTopo d e).migWait = s.migWait := rfl
@[simp] theorem State.setTopo_bankHost (d : Nat) (e : TopoEnt) : (s.setTopo d e).bankHost = s.bankHost := rfl
@[simp] theorem State.setTopo_bankMgc (d : Nat) (e : TopoEnt) : (s.setTopo d e).bankMgc = s.bankMgc := rfl
@[simp] theorem State.setTopo_models (d : Nat) (e : TopoEnt) : (s.setTopo d e).models = s.models := rfl
@[simp] theorem State.setTopo_blks (d : Nat) (e : TopoEnt) : (s.setTopo d e).blks = s.blks := rfl
@[simp] theorem State.setTopo_fpc (d : Nat) (e : TopoEnt) : (s.setTopo d e).fpc = s.fpc := rfl
@[simp] theorem State.setTopo_sectors (d : Nat) (e : TopoEnt) : (s.setTopo d e).sectors = s.sectors := rfl
@[simp] theorem State.setTopo_inst (d : Nat) (e : TopoEnt) : (s.setTopo d e).inst = s.inst := rfl
@[simp] theorem State.setTopo_armings (d : Nat) (e : TopoEnt) : (s.setTopo d e).armings = s.armings := rfl
@[simp] theorem State.setTopo_tsets (d : Nat) (e : TopoEnt) : (s.setTopo d e).tsets = s.tsets := rfl
@[simp] theorem State.setTopo_tiles (d : Nat) (e : TopoEnt) : (s.setTopo d e).tiles = s.tiles := rfl
@[simp] theorem State.setTopo_cells (d : Nat) (e : TopoEnt) : (s.setTopo d e).cells = s.cells := rfl
@[simp] theorem State.setTopo_time (d : Nat) (e : TopoEnt) : (s.setTopo d e).time = s.time := rfl
@[simp] theorem State.setTopo_pwr (d : Nat) (e : TopoEnt) : (s.setTopo d e).pwr = s.pwr := rfl
@[simp] theorem State.setTopo_pcie (d : Nat) (e : TopoEnt) : (s.setTopo d e).pcie = s.pcie := rfl
@[simp] theorem State.setTopo_aptWait (d : Nat) (e : TopoEnt) : (s.setTopo d e).aptWait = s.aptWait := rfl
@[simp] theorem State.setTopo_sec (d : Nat) (e : TopoEnt) : (s.setTopo d e).sec = s.sec := rfl
@[simp] theorem State.setTopo_fac (d : Nat) (e : TopoEnt) : (s.setTopo d e).fac = s.fac := rfl
@[simp] theorem State.setTopo_log (d : Nat) (e : TopoEnt) : (s.setTopo d e).log = s.log := rfl
@[simp] theorem State.setTopo_logNext (d : Nat) (e : TopoEnt) : (s.setTopo d e).logNext = s.logNext := rfl
@[simp] theorem State.setTopo_out (d : Nat) (e : TopoEnt) : (s.setTopo d e).out = s.out := rfl

/-! ### `State.updMig` changes `mig` -/

@[simp] theorem State.updMig_pending (c : CtxId) (id : Nat) (f : MigReq → MigReq) : (s.updMig c id f).pending = s.pending := rfl
@[simp] theorem State.updMig_freeCtr (c : CtxId) (id : Nat) (f : MigReq → MigReq) : (s.updMig c id f).freeCtr = s.freeCtr := rfl
@[simp] theorem State.updMig_regs (c : CtxId) (id : Nat) (f : MigReq → MigReq) : (s.updMig c id f).regs = s.regs := rfl
@[simp] theorem State.updMig_ctxs (c : CtxId) (id : Nat) (f : MigReq → MigReq) : (s.updMig c id f).ctxs = s.ctxs := rfl
@[simp] theorem State.updMig_shareAt (c : CtxId) (id : Nat) (f : MigReq → MigReq) : (s.updMig c id f).shareAt = s.shareAt := rfl
@[simp] theorem State.updMig_shareTab (c : CtxId) (id : Nat) (f : MigReq → MigReq) : (s.updMig c id f).shareTab = s.shareTab := rfl
@[simp] theorem State.updMig_running (c : CtxId) (id : Nat) (f : MigReq → MigReq) : (s.updMig c id f).running = s.running := rfl
@[simp] theorem State.updMig_sysCnt (c : CtxId) (id : Nat) (f : MigReq → MigReq) : (s.updMig c id f).sysCnt = s.sysCnt := rfl
@[simp] theorem State.updMig_mem (c : CtxId) (id : Nat) (f : MigReq → MigReq) : (s.updMig c id f).mem = s.mem := rfl
@[simp] theorem State.updMig_hostMem (c : CtxId) (id : Nat) (f : MigReq → MigReq) : (s.updMig c id f).hostMem = s.hostMem := rfl
@[simp] theorem State.updMig_deposits (c : CtxId) (id : Nat) (f : MigReq → MigReq) : (s.updMig c id f).deposits = s.deposits := rfl
@[simp] theorem State.updMig_poison (c : CtxId) (id : Nat) (f : MigReq → MigReq) : (s.updMig c id f).poison = s.poison := rfl
@[simp] theorem State.updMig_bch (c : CtxId) (id : Nat) (f : MigReq → MigReq) : (s.updMig c id f).bch = s.bch := rfl
@[simp] theorem State.updMig_flashErr (c : CtxId) (id : Nat) (f : MigReq → MigReq) : (s.updMig c id f).flashErr = s.flashErr := rfl
@[simp] theorem State.updMig_objs (c : CtxId) (id : Nat) (f : MigReq → MigReq) : (s.updMig c id f).objs = s.objs := rfl
@[simp] theorem State.updMig_pmap (c : CtxId) (id : Nat) (f : MigReq → MigReq) : (s.updMig c id f).pmap = s.pmap := rfl
@[simp] theorem State.updMig_orphans (c : CtxId) (id : Nat) (f : MigReq → MigReq) : (s.updMig c id f).orphans = s.orphans := rfl
@[simp] theorem State.updMig_quotas (c : CtxId) (id : Nat) (f : MigReq → MigReq) : (s.updMig c id f).quotas = s.quotas := rfl
@[simp] theorem State.updMig_migWait (c : CtxId) (id : Nat) (f : MigReq → MigReq) : (s.updMig c id f).migWait = s.migWait := rfl
@[simp] theorem State.updMig_bankHost (c : CtxId) (id : Nat) (f : MigReq → MigReq) : (s.updMig c id f).bankHost = s.bankHost := rfl
@[simp] theorem State.updMig_bankMgc (c : CtxId) (id : Nat) (f : MigReq → MigReq) : (s.updMig c id f).bankMgc = s.bankMgc := rfl
@[simp] theorem State.updMig_models (c : CtxId) (id : Nat) (f : MigReq → MigReq) : (s.updMig c id f).models = s.models := rfl
@[simp] theorem State.updMig_blks (c : CtxId) (id : Nat) (f : MigReq → MigReq) : (s.updMig c id f).blks = s.blks := rfl
@[simp] theorem State.updMig_fpc (c : CtxId) (id : Nat) (f : MigReq → MigReq) : (s.updMig c id f).fpc = s.fpc := rfl
@[simp] theorem State.updMig_sectors (c : CtxId) (id : Nat) (f : MigReq → MigReq) : (s.updMig c id f).sectors = s.sectors := rfl
@[simp] theorem State.updMig_inst (c : CtxId) (id : Nat) (f : MigReq → MigReq) : (s.updMig c id f).inst = s.inst := rfl
@[simp] theorem State.updMig_armings (c : CtxId) (id : Nat) (f : MigReq → MigReq) : (s.updMig c id f).armings = s.armings := rfl
@[simp] theorem State.updMig_tsets (c : CtxId) (id : Nat) (f : MigReq → MigReq) : (s.updMig c id f).tsets = s.tsets := rfl
@[simp] theorem State.updMig_tiles (c : CtxId) (id : Nat) (f : MigReq → MigReq) : (s.updMig c id f).tiles = s.tiles := rfl
@[simp] theorem State.updMig_cells (c : CtxId) (id : Nat) (f : MigReq → MigReq) : (s.updMig c id f).cells = s.cells := rfl
@[simp] theorem State.updMig_link (c : CtxId) (id : Nat) (f : MigReq → MigReq) : (s.updMig c id f).link = s.link := rfl
@[simp] theorem State.updMig_time (c : CtxId) (id : Nat) (f : MigReq → MigReq) : (s.updMig c id f).time = s.time := rfl
@[simp] theorem State.updMig_pwr (c : CtxId) (id : Nat) (f : MigReq → MigReq) : (s.updMig c id f).pwr = s.pwr := rfl
@[simp] theorem State.updMig_pcie (c : CtxId) (id : Nat) (f : MigReq → MigReq) : (s.updMig c id f).pcie = s.pcie := rfl
@[simp] theorem State.updMig_aptWait (c : CtxId) (id : Nat) (f : MigReq → MigReq) : (s.updMig c id f).aptWait = s.aptWait := rfl
@[simp] theorem State.updMig_sec (c : CtxId) (id : Nat) (f : MigReq → MigReq) : (s.updMig c id f).sec = s.sec := rfl
@[simp] theorem State.updMig_fac (c : CtxId) (id : Nat) (f : MigReq → MigReq) : (s.updMig c id f).fac = s.fac := rfl
@[simp] theorem State.updMig_log (c : CtxId) (id : Nat) (f : MigReq → MigReq) : (s.updMig c id f).log = s.log := rfl
@[simp] theorem State.updMig_logNext (c : CtxId) (id : Nat) (f : MigReq → MigReq) : (s.updMig c id f).logNext = s.logNext := rfl
@[simp] theorem State.updMig_out (c : CtxId) (id : Nat) (f : MigReq → MigReq) : (s.updMig c id f).out = s.out := rfl

/-! ### `State.updSec` changes `sec` -/

@[simp] theorem State.updSec_pending (f : Sec → Sec) : (s.updSec f).pending = s.pending := rfl
@[simp] theorem State.updSec_freeCtr (f : Sec → Sec) : (s.updSec f).freeCtr = s.freeCtr := rfl
@[simp] theorem State.updSec_regs (f : Sec → Sec) : (s.updSec f).regs = s.regs := rfl
@[simp] theorem State.updSec_ctxs (f : Sec → Sec) : (s.updSec f).ctxs = s.ctxs := rfl
@[simp] theorem State.updSec_shareAt (f : Sec → Sec) : (s.updSec f).shareAt = s.shareAt := rfl
@[simp] theorem State.updSec_shareTab (f : Sec → Sec) : (s.updSec f).shareTab = s.shareTab := rfl
@[simp] theorem State.updSec_running (f : Sec → Sec) : (s.updSec f).running = s.running := rfl
@[simp] theorem State.updSec_sysCnt (f : Sec → Sec) : (s.updSec f).sysCnt = s.sysCnt := rfl
@[simp] theorem State.updSec_mem (f : Sec → Sec) : (s.updSec f).mem = s.mem := rfl
@[simp] theorem State.updSec_hostMem (f : Sec → Sec) : (s.updSec f).hostMem = s.hostMem := rfl
@[simp] theorem State.updSec_deposits (f : Sec → Sec) : (s.updSec f).deposits = s.deposits := rfl
@[simp] theorem State.updSec_poison (f : Sec → Sec) : (s.updSec f).poison = s.poison := rfl
@[simp] theorem State.updSec_bch (f : Sec → Sec) : (s.updSec f).bch = s.bch := rfl
@[simp] theorem State.updSec_flashErr (f : Sec → Sec) : (s.updSec f).flashErr = s.flashErr := rfl
@[simp] theorem State.updSec_objs (f : Sec → Sec) : (s.updSec f).objs = s.objs := rfl
@[simp] theorem State.updSec_pmap (f : Sec → Sec) : (s.updSec f).pmap = s.pmap := rfl
@[simp] theorem State.updSec_orphans (f : Sec → Sec) : (s.updSec f).orphans = s.orphans := rfl
@[simp] theorem State.updSec_quotas (f : Sec → Sec) : (s.updSec f).quotas = s.quotas := rfl
@[simp] theorem State.updSec_mig (f : Sec → Sec) : (s.updSec f).mig = s.mig := rfl
@[simp] theorem State.updSec_migWait (f : Sec → Sec) : (s.updSec f).migWait = s.migWait := rfl
@[simp] theorem State.updSec_bankHost (f : Sec → Sec) : (s.updSec f).bankHost = s.bankHost := rfl
@[simp] theorem State.updSec_bankMgc (f : Sec → Sec) : (s.updSec f).bankMgc = s.bankMgc := rfl
@[simp] theorem State.updSec_models (f : Sec → Sec) : (s.updSec f).models = s.models := rfl
@[simp] theorem State.updSec_blks (f : Sec → Sec) : (s.updSec f).blks = s.blks := rfl
@[simp] theorem State.updSec_fpc (f : Sec → Sec) : (s.updSec f).fpc = s.fpc := rfl
@[simp] theorem State.updSec_sectors (f : Sec → Sec) : (s.updSec f).sectors = s.sectors := rfl
@[simp] theorem State.updSec_inst (f : Sec → Sec) : (s.updSec f).inst = s.inst := rfl
@[simp] theorem State.updSec_armings (f : Sec → Sec) : (s.updSec f).armings = s.armings := rfl
@[simp] theorem State.updSec_tsets (f : Sec → Sec) : (s.updSec f).tsets = s.tsets := rfl
@[simp] theorem State.updSec_tiles (f : Sec → Sec) : (s.updSec f).tiles = s.tiles := rfl
@[simp] theorem State.updSec_cells (f : Sec → Sec) : (s.updSec f).cells = s.cells := rfl
@[simp] theorem State.updSec_link (f : Sec → Sec) : (s.updSec f).link = s.link := rfl
@[simp] theorem State.updSec_time (f : Sec → Sec) : (s.updSec f).time = s.time := rfl
@[simp] theorem State.updSec_pwr (f : Sec → Sec) : (s.updSec f).pwr = s.pwr := rfl
@[simp] theorem State.updSec_pcie (f : Sec → Sec) : (s.updSec f).pcie = s.pcie := rfl
@[simp] theorem State.updSec_aptWait (f : Sec → Sec) : (s.updSec f).aptWait = s.aptWait := rfl
@[simp] theorem State.updSec_fac (f : Sec → Sec) : (s.updSec f).fac = s.fac := rfl
@[simp] theorem State.updSec_log (f : Sec → Sec) : (s.updSec f).log = s.log := rfl
@[simp] theorem State.updSec_logNext (f : Sec → Sec) : (s.updSec f).logNext = s.logNext := rfl
@[simp] theorem State.updSec_out (f : Sec → Sec) : (s.updSec f).out = s.out := rfl

end Sys2Proof.Machine
end

