-- ==== Sys2Proof/Laws/Memory.lean ====
section
/-! SUPPORT. The device's memory: what each operation leaves at a byte, that every operation keeps the canonical form, and what the operations
on marks leave alone. -/

namespace Sys2Proof.Machine

open Sys2Proof

variable (s : State)

/-! ### One byte -/

@[simp] theorem State.poke_mem (k : Nat) (b : Byte) : (s.poke k b).mem = SMap.put 0 s.mem k b := rfl

theorem State.poke_get (k j : Nat) (b : Byte) : SMap.get 0 (s.poke k b).mem j = if j = k then b else SMap.get 0 s.mem j := by
  simp [SMap.get_put]

/-- Bytes outside a run of pokes stay. -/
theorem State.pokes_get_other : ∀ (bs : List Byte) (s : State) (k j : Nat), (j < k ∨ k + bs.length ≤ j) →
    SMap.get 0 (s.pokes k bs).mem j = SMap.get 0 s.mem j
  | [], _, _, _, _ => rfl
  | b :: bs, s, k, j, h => by
    simp only [List.length_cons] at h
    rw [State.pokes, State.pokes_get_other bs (s.poke k b) (k + 1) j (by omega), State.poke_get, if_neg (by omega)]

/-- A run of pokes puts its bytes in place. -/
theorem State.pokes_get (bs : List Byte) : ∀ (s : State) (k i : Nat) (b : Byte), bs[i]? = some b →
    SMap.get 0 (s.pokes k bs).mem (k + i) = b := by
  induction bs with
  | nil => intro s k i b h; simp at h
  | cons x bs ih =>
    intro s k i b h
    cases i with
    | zero =>
      simp only [List.getElem?_cons_zero, Option.some.injEq] at h
      subst h
      rw [State.pokes, State.pokes_get_other bs (s.poke k x) (k + 1) (k + 0) (by omega), State.poke_get]
      simp
    | succ i =>
      simp only [List.getElem?_cons_succ] at h
      have := ih (s.poke k x) (k + 1) i b h
      rw [State.pokes]
      rwa [show k + (i + 1) = k + 1 + i by omega]

/-! ### Runs of pokes change the bytes only -/

theorem State.pokes_eq : ∀ (bs : List Byte) (s : State) (k : Nat), s.pokes k bs = { s with mem := (s.pokes k bs).mem }
  | [], _, _ => rfl
  | b :: bs, s, k => by
    rw [State.pokes, State.pokes_eq bs (s.poke k b) (k + 1)]
    rfl

/-- Marking a word changes marks and check bits only. -/
theorem State.markWord_eq (w : Nat) (part : List SB) :
    s.markWord w part = { s with poison := (s.markWord w part).poison, bch := (s.markWord w part).bch } := by
  simp only [State.markWord]
  split
  · rfl
  · split
    · rfl
    · split
      · rfl
      · split <;> rfl

@[simp] theorem State.markWord_mem (w : Nat) (part : List SB) : (s.markWord w part).mem = s.mem := by
  rw [State.markWord_eq]

theorem State.markWords_eq : ∀ (fuel : Nat) (s : State) (k : Nat) (data : List SB),
    s.markWords k data fuel = { s with poison := (s.markWords k data fuel).poison, bch := (s.markWords k data fuel).bch }
  | 0, _, _, _ => rfl
  | fuel + 1, s, k, data => by
    unfold State.markWords
    split
    · rfl
    · simp only []
      rw [State.markWords_eq fuel, State.markWord_eq]

@[simp] theorem State.markWords_mem (fuel k : Nat) (data : List SB) : (s.markWords k data fuel).mem = s.mem := by
  rw [State.markWords_eq]

/-- What a store can change: the bytes it names, and the marks and check bits of their words. -/
theorem State.store_eq (k : Nat) (data : List SB) :
    s.store k data =
      { s with mem := (s.pokes k (data.map (·.1))).mem, poison := (s.store k data).poison, bch := (s.store k data).bch } := by
  unfold State.store
  rw [State.markWords_eq, State.pokes_eq]

@[simp] theorem State.store_mem (k : Nat) (data : List SB) : (s.store k data).mem = (s.pokes k (data.map (·.1))).mem := by
  simp [State.store]

/-- A store puts its bytes in place. -/
theorem State.store_get (k i : Nat) (data : List SB) (x : SB) (h : data[i]? = some x) :
    SMap.get 0 (s.store k data).mem (k + i) = x.1 := by
  rw [State.store_mem]
  exact State.pokes_get _ s k i x.1 (by simp [h])

/-- A store leaves every other byte. -/
theorem State.store_get_other (k j : Nat) (data : List SB) (h : j < k ∨ k + data.length ≤ j) :
    SMap.get 0 (s.store k data).mem j = SMap.get 0 s.mem j := by
  rw [State.store_mem]
  exact State.pokes_get_other _ s k j (by simpa using h)

/-- Filling with zeros. -/
theorem State.zeroFrom_get (lo hi j : Nat) :
    SMap.get 0 (s.zeroFrom lo hi).mem j = if lo ≤ j ∧ j < hi then 0 else SMap.get 0 s.mem j := by
  simp only [State.zeroFrom, SMap.get_keepKeys]
  by_cases h : lo ≤ j ∧ j < hi
  · simp [h.1, h.2]
  · rw [if_neg h, if_pos]
    simp only [Bool.not_eq_true', Bool.and_eq_false_imp, decide_eq_true_eq, decide_eq_false_iff_not, not_lt]
    intro h1
    by_contra h2
    exact h ⟨h1, by omega⟩

/-- A zero-filled byte of whole words delivers 0, clean. -/
theorem State.zeroFrom_peek (lo hi j : Nat) (hl : lo % 8 = 0) (hh : hi % 8 = 0) (h : lo ≤ j ∧ j < hi) :
    (s.zeroFrom lo hi).peek j = (0, false) := by
  have hw : lo / 8 ≤ j / 8 ∧ j / 8 < hi / 8 := ⟨by omega, by omega⟩
  have he : (s.zeroFrom lo hi).wordErr j = 0 := by
    simp [State.wordErr, State.zeroFrom, SMap.get_keepKeys, hw.1, hw.2]
  have hp : (s.zeroFrom lo hi).isPoison j = false := by
    simp [State.isPoison, State.zeroFrom, SMap.get_keepKeys, hw.1, hw.2]
  unfold State.peek
  simp only [he, hp, State.zeroFrom_get, h, and_self, if_true]
  rfl

/-! ### The canonical form is kept -/

theorem State.poke_memOk (k : Nat) (b : Byte) (h : s.memOk = true) : (s.poke k b).memOk = true := SMap.wf_put 0 s.mem k b h

theorem State.pokes_memOk : ∀ (bs : List Byte) (s : State) (k : Nat), s.memOk = true → (s.pokes k bs).memOk = true
  | [], _, _, h => h
  | b :: bs, s, k, h => State.pokes_memOk bs (s.poke k b) (k + 1) (State.poke_memOk s k b h)

theorem State.memOk_congr {s t : State} (h : t.mem = s.mem) : t.memOk = s.memOk := by unfold State.memOk; rw [h]

theorem State.store_memOk (k : Nat) (data : List SB) (h : s.memOk = true) : (s.store k data).memOk = true := by
  rw [State.memOk_congr (State.store_mem s k data)]
  exact State.pokes_memOk _ s k h

theorem State.zeroFrom_memOk (lo hi : Nat) (h : s.memOk = true) : (s.zeroFrom lo hi).memOk = true :=
  SMap.wf_keepKeys 0 s.mem (fun k => !(decide (lo ≤ k) && decide (k < hi))) h

theorem State.copyRange_memOk (src dst n : Nat) (h : s.memOk = true) : (s.copyRange src dst n).memOk = true :=
  State.store_memOk s _ _ h

/-- The memory of the reset state is in canonical form. -/
theorem State.reset_memOk : State.reset.memOk = true := rfl

end Sys2Proof.Machine
end

