-- ==== Sys2Proof/Laws/Regs.lean ====
section
/-! SUPPORT. Registers and their fields, contexts, queues, tables and ports: reading after an update, and what updates of other places leave. -/

namespace Sys2Proof.Machine

open Sys2Proof

variable (s : State)

/-! ### Registers -/

@[simp] theorem State.reg_setReg_self (off : Nat) (v : W64) : (s.setReg off v).reg off = v := by
  simp [State.reg, State.setReg]

theorem State.reg_setReg_other {off k : Nat} (v : W64) (h : k ≠ off) : (s.setReg off v).reg k = s.reg k := by
  simp only [State.reg, State.setReg, SMap.get]
  unfold SMap.put
  split
  · rw [SMap.find?_erase_other _ h]
  · rw [SMap.find?_insert_other _ _ h]

theorem State.reg_setReg (off k : Nat) (v : W64) : (s.setReg off v).reg k = if k = off then v else s.reg k := by
  split
  · subst_vars; simp
  · exact State.reg_setReg_other s v ‹_›

/-! ### Bit fields -/

/-- A bit of a word with a field replaced. -/
theorem wSet_getLsbD (w : W64) (lo width x i : Nat) (hi : i < 64) :
    (wSet w lo width x).getLsbD i = if lo ≤ i ∧ i < lo + width then x.testBit (i - lo) else w.getLsbD i := by
  unfold wSet
  simp only [BitVec.getLsbD_or, BitVec.getLsbD_and, BitVec.getLsbD_not, BitVec.getLsbD_ofNat, hi, decide_true, Bool.true_and,
    Nat.testBit_mul_two_pow, Nat.testBit_two_pow_sub_one, Nat.testBit_mod_two_pow]
  by_cases h1 : lo ≤ i
  · by_cases h2 : i < lo + width
    · have : i - lo < width := by omega
      simp [h1, h2, this]
    · have : ¬ i - lo < width := by omega
      simp [h1, h2, this]
  · simp [h1]

/-- A bit of a field. -/
theorem wBits_testBit (w : W64) (lo width i : Nat) : (wBits w lo width).testBit i = (decide (i < width) && w.getLsbD (lo + i)) := by
  simp [wBits, bitsOf, Nat.testBit_mod_two_pow, Nat.testBit_div_two_pow, BitVec.getLsbD, Nat.add_comm]

theorem wBits_lt (w : W64) (lo width : Nat) : wBits w lo width < 2 ^ width := Nat.mod_lt _ (Nat.two_pow_pos _)

/-- A replaced field reads as written, modulo its width. -/
theorem wBits_wSet_self (w : W64) (lo width x : Nat) (h : lo + width ≤ 64) : wBits (wSet w lo width x) lo width = x % 2 ^ width := by
  apply Nat.eq_of_testBit_eq
  intro i
  rw [wBits_testBit, Nat.testBit_mod_two_pow]
  by_cases hi : i < width
  · rw [wSet_getLsbD _ _ _ _ _ (by omega)]
    simp [hi]
  · simp [hi]

/-- A field apart from the replaced one stays. -/
theorem wBits_wSet_other (w : W64) (lo width x lo' width' : Nat) (h : lo + width ≤ lo' ∨ lo' + width' ≤ lo) :
    wBits (wSet w lo width x) lo' width' = wBits w lo' width' := by
  apply Nat.eq_of_testBit_eq
  intro i
  rw [wBits_testBit, wBits_testBit]
  by_cases hi : i < width'
  · by_cases h64 : lo' + i < 64
    · rw [wSet_getLsbD _ _ _ _ _ h64, if_neg (by omega)]
    · rw [BitVec.getLsbD_of_ge _ _ (by omega), BitVec.getLsbD_of_ge _ _ (by omega)]
  · simp [hi]

/-- A stored field reads as written, modulo its width. -/
theorem State.fld_setFld_self (f : Fld) (n : Nat) (h : f.lo + f.width ≤ 64) : (s.setFld f n).fld f = n % 2 ^ f.width := by
  simp [State.fld, State.setFld, wBits_wSet_self _ _ _ _ h]

/-- A field of another register, or apart in the same one, stays. -/
theorem State.fld_setFld_other (f g : Fld) (n : Nat) (h : g.off ≠ f.off ∨ f.lo + f.width ≤ g.lo ∨ g.lo + g.width ≤ f.lo) :
    (s.setFld f n).fld g = s.fld g := by
  unfold State.fld State.setFld
  by_cases ho : g.off = f.off
  · rw [ho, State.reg_setReg_self, wBits_wSet_other _ _ _ _ _ _ (by tauto)]
  · rw [State.reg_setReg_other _ _ ho]

theorem State.reg_setFld_other (f : Fld) (n k : Nat) (h : k ≠ f.off) : (s.setFld f n).reg k = s.reg k := State.reg_setReg_other _ _ h

/-- A counting field rises and saturates. -/
theorem State.fld_addFld_self (f : Fld) (n : Nat) (h : f.lo + f.width ≤ 64) :
    (s.addFld f n).fld f = min (2 ^ f.width - 1) (s.fld f + n) := by
  rw [State.addFld, State.fld_setFld_self _ _ _ h, satAdd]
  apply Nat.mod_eq_of_lt
  have := Nat.two_pow_pos f.width
  omega

theorem State.fld_addFld_other (f g : Fld) (n : Nat) (h : g.off ≠ f.off ∨ f.lo + f.width ≤ g.lo ∨ g.lo + g.width ≤ f.lo) :
    (s.addFld f n).fld g = s.fld g := State.fld_setFld_other _ _ _ _ h

theorem State.reg_addFld_other (f : Fld) (n k : Nat) (h : k ≠ f.off) : (s.addFld f n).reg k = s.reg k := State.reg_setReg_other _ _ h

/-- What writing a field can change. -/
theorem State.setFld_eq (f : Fld) (n : Nat) : s.setFld f n = { s with regs := (s.setFld f n).regs } := rfl

theorem State.addFld_eq (f : Fld) (n : Nat) : s.addFld f n = { s with regs := (s.addFld f n).regs } := rfl

/-! ### Contexts and queues -/

@[simp] theorem State.ctx_setCtx_self (c : CtxId) (x : Ctx) : (s.setCtx c x).ctx c = x := by simp [State.ctx, State.setCtx]

theorem State.ctx_setCtx_other {c d : CtxId} (x : Ctx) (h : d ≠ c) : (s.setCtx c x).ctx d = s.ctx d := by
  have : (c : Nat) ≠ d := fun e => h (Fin.ext e.symm)
  simp [State.ctx, State.setCtx, this]

@[simp] theorem State.ctx_updCtx_self (c : CtxId) (f : Ctx → Ctx) : (s.updCtx c f).ctx c = f (s.ctx c) := State.ctx_setCtx_self _ _ _

theorem State.ctx_updCtx_other {c d : CtxId} (f : Ctx → Ctx) (h : d ≠ c) : (s.updCtx c f).ctx d = s.ctx d := State.ctx_setCtx_other _ _ h

@[simp] theorem State.queue_setQueue_self (c : CtxId) (e : Engine) (q : Queue) : (s.setQueue c e q).queue c e = q := by
  simp [State.queue, State.setQueue]

theorem Engine.code_inj {e f : Engine} (h : (e.code : Nat) = f.code) : e = f := by cases e <;> cases f <;> simp_all [Engine.code]

theorem State.queue_setQueue_other {c d : CtxId} {e f : Engine} (q : Queue) (h : d ≠ c ∨ f ≠ e) :
    (s.setQueue c e q).queue d f = s.queue d f := by
  by_cases hd : d = c
  · subst hd
    have hf : (e.code : Nat) ≠ f.code := fun k => (h.resolve_left (by simp)) (Engine.code_inj k.symm)
    simp [State.queue, State.setQueue, hf]
  · simp [State.queue, State.setQueue, State.ctx_updCtx_other s _ hd]

/-! ### Tables -/

@[simp] theorem State.obj_setObj_self (i : Nat) (o : Obj) : (s.setObj i o).obj i = o := by simp [State.obj, State.setObj]

theorem State.obj_setObj_other {i j : Nat} (o : Obj) (h : j ≠ i) : (s.setObj i o).obj j = s.obj j := SMap.get_put_other _ _ _ h

@[simp] theorem State.model_setModel_self (i : Nat) (m : Model) : (s.setModel i m).model i = m := by simp [State.model, State.setModel]

theorem State.model_setModel_other {i j : Nat} (m : Model) (h : j ≠ i) : (s.setModel i m).model j = s.model j :=
  SMap.get_put_other _ _ _ h

@[simp] theorem State.blk_setBlk_self (b : Nat) (x : Blk) : (s.setBlk b x).blk b = x := by simp [State.blk, State.setBlk]

theorem State.blk_setBlk_other {b j : Nat} (x : Blk) (h : j ≠ b) : (s.setBlk b x).blk j = s.blk j := SMap.get_put_other _ _ _ h

@[simp] theorem State.sector_setSector_self (t m : Nat) (x : Sector) : (s.setSector t m x).sector t m = x := by
  simp [State.sector, State.setSector]

@[simp] theorem State.tset_setTset_self (t k : Nat) (x : TsetSlot) : (s.setTset t k x).tset t k = x := by simp [State.tset, State.setTset]

@[simp] theorem State.tile_setTile_self (t : Nat) (x : Tile) : (s.setTile t x).tile t = x := by simp [State.tile, State.setTile]

theorem State.tile_setTile_other {t j : Nat} (x : Tile) (h : j ≠ t) : (s.setTile t x).tile j = s.tile j := SMap.get_put_other _ _ _ h

@[simp] theorem State.topoEnt_setTopo_self (d : Nat) (e : TopoEnt) : (s.setTopo d e).topoEnt d = e := by
  simp [State.topoEnt, State.setTopo]

theorem State.topoEnt_setTopo_other {d j : Nat} (e : TopoEnt) (h : j ≠ d) : (s.setTopo d e).topoEnt j = s.topoEnt j :=
  SMap.get_put_other _ _ _ h

@[simp] theorem State.dom_setDom_self (d : Nat) (x : DomState) : (s.setDom d x).dom d = x := by simp [State.dom, State.setDom]

theorem State.dom_setDom_other {d j : Nat} (x : DomState) (h : j ≠ d) : (s.setDom d x).dom j = s.dom j := SMap.get_put_other _ _ _ h

/-! ### Ports -/

@[simp] theorem State.port_setPort_self (p : PortId) (x : Port) : (s.setPort p x).port p = x := by simp [State.port, State.setPort]

theorem State.port_setPort_other {p q : PortId} (x : Port) (h : q ≠ p) : (s.setPort p x).port q = s.port q := by
  have : (p : Nat) ≠ q := fun e => h (Fin.ext e.symm)
  simp [State.port, State.setPort, this]

@[simp] theorem State.port_updPort_self (p : PortId) (f : Port → Port) : (s.updPort p f).port p = f (s.port p) :=
  State.port_setPort_self _ _ _

theorem State.port_updPort_other {p q : PortId} (f : Port → Port) (h : q ≠ p) : (s.updPort p f).port q = s.port q :=
  State.port_setPort_other _ _ h

end Sys2Proof.Machine
end

