-- ==== Sys2Proof/Laws/Frame.lean ====
section
/-! SUPPORT. What each shared operation can change, said once as an equation: its result is the state with the named fields replaced. -/

namespace Sys2Proof.Machine

open Sys2Proof

variable (s : State)

/-! ### Domains that wake -/

/-- A port that wakes changes nothing but its own condition. -/
theorem State.wakePort_eq (d : Nat) : s.wakePort d = { s with link := (s.wakePort d).link } := by
  simp only [State.wakePort]
  split <;> rfl

/-- A domain that wakes changes nothing but the domains' conditions and, for a port's domain, the port's. -/
theorem State.wakeDom_eq (d : Nat) : s.wakeDom d = { s with pwr := (s.wakeDom d).pwr, link := (s.wakeDom d).link } := by
  simp only [State.wakeDom]
  split
  · rfl
  · rw [State.wakePort_eq]; rfl
  · split
    · rfl
    · rw [State.wakePort_eq]; rfl
  · rfl

/-- A domain that is on stays so. -/
theorem State.wakeDom_on (d : Nat) (h : s.dom d = .on) : s.wakeDom d = s := by simp [State.wakeDom, h]

/-! ### Messages and the log -/

/-- A message leaves, or is held: then it may wake the endpoint's domain (R399). -/
theorem State.sendMsix_eq (fn : Fin 16) (v : Nat) :
    s.sendMsix fn v =
      { s with
        pcie := (s.sendMsix fn v).pcie, out := (s.sendMsix fn v).out, pwr := (s.sendMsix fn v).pwr, link := (s.sendMsix fn v).link } := by
  unfold State.sendMsix
  split
  · rfl
  · split
    · rfl
    · split
      · rfl
      · rw [State.wakeDom_eq]

/-- With the endpoint's domain on, a message leaves the domains and ports alone. -/
theorem State.sendMsix_on (h : s.dom epDom = .on) (fn : Fin 16) (v : Nat) :
    s.sendMsix fn v = { s with pcie := (s.sendMsix fn v).pcie, out := (s.sendMsix fn v).out } := by
  unfold State.sendMsix
  split
  · rfl
  · split
    · rfl
    · split
      · rfl
      · rw [State.wakeDom_on]
        exact h

theorem State.logEvent_eq (src code : Nat) (c : Option CtxId) (loc detail : Nat) :
    s.logEvent src code c loc detail =
      { s with
        pcie := (s.logEvent src code c loc detail).pcie, log := (s.logEvent src code c loc detail).log
        logNext := (s.logEvent src code c loc detail).logNext, out := (s.logEvent src code c loc detail).out
        pwr := (s.logEvent src code c loc detail).pwr, link := (s.logEvent src code c loc detail).link } := by
  have key : ∀ t : State, ∃ p o w l, t.sendMsix 0 (t.fld Reg.telLogCfg_vector) = { t with pcie := p, out := o, pwr := w, link := l } :=
    fun t => ⟨_, _, _, _, State.sendMsix_eq t _ _⟩
  simp only [State.logEvent]
  generalize s.log ++ _ = l
  generalize l.drop (l.length - 1024) = l'
  obtain ⟨p, o, w, k, h⟩ := key { s with log := l', logNext := s.logNext + 1 }
  rw [h]
  split <;> rfl

/-- With the endpoint's domain on, a log entry leaves the domains and ports alone. -/
theorem State.logEvent_on (h : s.dom epDom = .on) (src code : Nat) (c : Option CtxId) (loc detail : Nat) :
    s.logEvent src code c loc detail =
      { s with
        pcie := (s.logEvent src code c loc detail).pcie, log := (s.logEvent src code c loc detail).log
        logNext := (s.logEvent src code c loc detail).logNext, out := (s.logEvent src code c loc detail).out } := by
  simp only [State.logEvent]
  generalize s.log ++ _ = l
  generalize l.drop (l.length - 1024) = l'
  have k : ({ s with log := l', logNext := s.logNext + 1 } : State).dom epDom = .on := h
  split
  · rw [State.sendMsix_on _ k]
  · rfl

/-! ### Host memory -/

theorem State.hostStore_eq (a : Nat) (data : List SB) :
    s.hostStore a data =
      { s with hostMem := (s.hostStore a data).hostMem, poison := (s.hostStore a data).poison, bch := (s.hostStore a data).bch } := by
  simp only [State.hostStore]
  rw [State.markWords_eq]

@[simp] theorem State.hostStore_mem (a : Nat) (data : List SB) : (s.hostStore a data).mem = s.mem := by
  rw [State.hostStore_eq]

/-! ### Domains -/

theorem State.touch_eq (ds : List Nat) : s.touch ds = { s with pwr := (s.touch ds).pwr } := by
  simp only [State.touch]
  split <;> rfl

/-- An access to domains that are all on notes nothing. -/
theorem State.touch_on (ds : List Nat) (h : ∀ d ∈ ds, s.domOn d = true) : s.touch ds = s := by
  have : ds.filter (fun d => !(s.domOn d)) = [] := by
    rw [List.filter_eq_nil_iff]
    intro d hd
    simp [h d hd]
  simp [State.touch, this]

/-- In a P-state with no domain gated, every domain is on. -/
theorem State.awake_domOn (h : s.awake) (d : Nat) : s.domOn d = true := by
  obtain ⟨hm, hd, -, -⟩ := h
  simp [State.domOn, State.dom, hd, hm]

@[simp] theorem State.awake_touch (h : s.awake) (ds : List Nat) : s.touch ds = s := s.touch_on ds (fun d _ => s.awake_domOn h d)

theorem State.wakeDoms_eq : ∀ (ds : List Nat) (s : State),
    s.wakeDoms ds = { s with pwr := (s.wakeDoms ds).pwr, link := (s.wakeDoms ds).link }
  | [], _ => rfl
  | d :: l, s => by
    rw [State.wakeDoms, State.wakeDoms_eq l (s.wakeDom d), State.wakeDom_eq]

/-- Work that notes no gated domain is done. -/
theorem State.orStall_done (f : State → State) (h : (f s).pwr.stall = []) : s.orStall f = f s := by
  simp [State.orStall, h]

/-- Work that notes a gated domain is put off, and its domains wake. -/
theorem State.orStall_waits (f : State → State) (h : (f s).pwr.stall ≠ []) : s.orStall f = s.wakeDoms (f s).pwr.stall := by
  have : (f s).pwr.stall.isEmpty = false := by simpa using h
  simp [State.orStall, this]

/-- Work that notes no gated domain is done at once. -/
theorem State.tryOnce_done (f : State → State) (h : (f s).pwr.stall = []) (k : s.pwr.stall = []) : s.tryOnce f = (f s, true) := by
  have : { f s with pwr := { (f s).pwr with stall := s.pwr.stall } } = f s := by rw [k, ← h]
  simp [State.tryOnce, State.gatedBy, h, this]

/-- Work that notes a gated domain leaves nothing but the domains awake (R25, R401). -/
theorem State.tryOnce_waits (f : State → State) (h : s.gatedBy (f s) ≠ []) :
    s.tryOnce f = (s.wakeDoms (s.gatedBy (f s)), false) := by
  have : (s.gatedBy (f s)).isEmpty = false := by simpa using h
  simp [State.tryOnce, this]

/-! ### Sync counters -/

theorem State.release_eq : s.release = { s with ctxs := s.release.ctxs } := rfl

theorem State.setSync_eq (c : CtxId) (n : Nat) (v : BitVec 32) : s.setSync c n v = { s with ctxs := (s.setSync c n v).ctxs } := rfl

theorem State.scnAdd_eq (c : CtxId) (n inc : Nat) : s.scnAdd c n inc = { s with ctxs := (s.scnAdd c n inc).ctxs } := rfl

/-! ### Sending on a port -/

theorem State.pumpCtl_eq : ∀ (fuel : Nat) (s : State) (p : PortId),
    s.pumpCtl p fuel = { s with link := (s.pumpCtl p fuel).link, out := (s.pumpCtl p fuel).out }
  | 0, _, _ => rfl
  | fuel + 1, s, p => by
    unfold State.pumpCtl
    simp only []
    split
    · rfl
    · split
      · rfl
      · rw [State.pumpCtl_eq fuel]; rfl

/-- A control message wakes its port's domain and is sent or waits (R399). -/
theorem State.sendCtl_eq (p : PortId) (m : W64) :
    s.sendCtl p m = { s with link := (s.sendCtl p m).link, out := (s.sendCtl p m).out, pwr := (s.sendCtl p m).pwr } := by
  simp only [State.sendCtl]
  rw [State.pumpCtl_eq, State.wakeDom_eq]
  rfl

/-- With its port's domain on, a control message changes the port alone. -/
theorem State.sendCtl_on (p : PortId) (h : s.dom (108 + p.val) = .on) (m : W64) :
    s.sendCtl p m = { s with link := (s.sendCtl p m).link, out := (s.sendCtl p m).out } := by
  simp only [State.sendCtl]
  rw [State.pumpCtl_eq, State.wakeDom_on _ _ h]
  rfl

theorem State.pumpData_eq : ∀ (fuel : Nat) (s : State) (p : PortId),
    s.pumpData p fuel = { s with link := (s.pumpData p fuel).link, out := (s.pumpData p fuel).out }
  | 0, _, _ => rfl
  | fuel + 1, s, p => by
    unfold State.pumpData
    simp only []
    split
    · rfl
    · split
      · rfl
      · rw [State.pumpData_eq fuel]; rfl

/-- A data message wakes its port's domain and is sent or waits (R399). -/
theorem State.sendData_eq (p : PortId) (kind : Nat) (header : List Byte) (data : List SB) :
    s.sendData p kind header data =
      { s with
        link := (s.sendData p kind header data).link, out := (s.sendData p kind header data).out
        pwr := (s.sendData p kind header data).pwr } := by
  simp only [State.sendData]
  rw [State.pumpData_eq, State.wakeDom_eq]
  rfl

/-- With its port's domain on, a data message changes the port alone. -/
theorem State.sendData_on (p : PortId) (h : s.dom (108 + p.val) = .on) (kind : Nat) (header : List Byte) (data : List SB) :
    s.sendData p kind header data =
      { s with link := (s.sendData p kind header data).link, out := (s.sendData p kind header data).out } := by
  simp only [State.sendData]
  rw [State.pumpData_eq, State.wakeDom_on _ _ h]
  rfl

theorem State.sendCtlAll_eq (m : W64) : ∀ (ps : List PortId) (s : State),
    s.sendCtlAll m ps =
      { s with link := (s.sendCtlAll m ps).link, out := (s.sendCtlAll m ps).out, pwr := (s.sendCtlAll m ps).pwr }
  | [], _ => rfl
  | p :: l, s => by
    rw [State.sendCtlAll, State.sendCtlAll_eq m l, State.sendCtl_eq]

theorem State.credit_eq (p : PortId) (ch n : Nat) :
    s.credit p ch n = { s with link := (s.credit p ch n).link, out := (s.credit p ch n).out, pwr := (s.credit p ch n).pwr } := by
  unfold State.credit
  split
  · rfl
  · rw [State.sendCtl_eq]

theorem State.dropCtl_eq (p : PortId) (m : W64) :
    s.dropCtl p m = { s with link := (s.dropCtl p m).link, out := (s.dropCtl p m).out, pwr := (s.dropCtl p m).pwr } := by
  simp only [State.dropCtl]
  split
  · rw [State.credit_eq]; rfl
  · rfl

/-- What a control message's command does when the message is there. -/
theorem State.onCtl_some (p : PortId) (f : W64 → Bool) (act : W64 → State → State) (m : W64) (h : s.peekCtl p f = some m) :
    s.onCtl p f act = act m (s.dropCtl p m) := by simp [State.onCtl, h]

/-- Without the message nothing happens. -/
theorem State.onCtl_none (p : PortId) (f : W64 → Bool) (act : W64 → State → State) (h : s.peekCtl p f = none) :
    s.onCtl p f act = s := by simp [State.onCtl, h]

/-! ### Port events -/

theorem State.linkEvent_eq (bit : Nat) :
    s.linkEvent bit =
      { s with
        regs := (s.linkEvent bit).regs, pcie := (s.linkEvent bit).pcie, out := (s.linkEvent bit).out, pwr := (s.linkEvent bit).pwr
        link := (s.linkEvent bit).link } := by
  simp only [State.linkEvent]
  split
  · rw [State.sendMsix_eq]; rfl
  · rfl

/-! ### The FPC and the installation -/

theorem State.postResult_eq (mgc : Bool) (r : FpcResult) :
    s.postResult mgc r =
      { s with
        fpc := (s.postResult mgc r).fpc, pcie := (s.postResult mgc r).pcie, out := (s.postResult mgc r).out
        pwr := (s.postResult mgc r).pwr, link := (s.postResult mgc r).link } := by
  simp only [State.postResult]
  split
  · rfl
  · split
    · rw [State.sendMsix_eq]; rfl
    · rfl

theorem State.releaseBuf_eq (b : Nat) : s.releaseBuf b = { s with fpc := (s.releaseBuf b).fpc } := rfl

theorem State.resumeL_eq : ∀ (l : List FpcOp) (s : State), s.resumeL l = { s with fpc := (s.resumeL l).fpc }
  | [], _ => rfl
  | o :: l, s => by
    have h : ∀ t : State, (t.resumeL l) = { t with fpc := (t.resumeL l).fpc } := resumeL_eq l
    simp only [State.resumeL]
    split
    · rw [h (s.resumeOp o)]; rfl
    · exact h s

theorem State.finishOp_eq (o : FpcOp) (code : Nat) :
    s.finishOp o code =
      { s with
        fpc := (s.finishOp o code).fpc, pcie := (s.finishOp o code).pcie, out := (s.finishOp o code).out, pwr := (s.finishOp o code).pwr
        link := (s.finishOp o code).link } := by
  simp only [State.finishOp]
  rw [State.postResult_eq, State.resumeL_eq]
  split <;> rfl

theorem State.setInst_eq (x : Inst) :
    s.setInst x =
      { s with
        inst := (s.setInst x).inst, pcie := (s.setInst x).pcie, out := (s.setInst x).out, pwr := (s.setInst x).pwr
        link := (s.setInst x).link } := by
  simp only [State.setInst]
  split
  · rw [State.sendMsix_eq]
  · rfl

@[simp] theorem State.setInst_inst (x : Inst) : (s.setInst x).inst = x := by
  simp only [State.setInst]
  split
  · rw [State.sendMsix_eq]
  · rfl

end Sys2Proof.Machine
end

