-- ==== Sys2Proof/Laws/Access.lean ====
section
/-! SUPPORT. What reading and writing tensor addresses can change beside the bytes: a device whose domains are all on never puts such work
off, and a range whose bytes all have their places is read without a fault. -/

namespace Sys2Proof.Machine

open Sys2Proof

variable (s : State)

/-! ### What a read counts -/

/-- Two states that agree but for registers, the log and its messages, and block conditions. -/
def State.counted (s t : State) : Prop :=
  t = { s with regs := t.regs, pcie := t.pcie, log := t.log, logNext := t.logNext, out := t.out, blks := t.blks }

theorem State.counted_refl : s.counted s := rfl

theorem State.counted_trans {s t u : State} (h : s.counted t) (k : t.counted u) : s.counted u := by
  unfold State.counted at h k ⊢
  rw [k, h]

theorem State.counted_pwr {s t : State} (h : s.counted t) : t.pwr = s.pwr := by rw [h]

theorem State.counted_link {s t : State} (h : s.counted t) : t.link = s.link := by rw [h]

theorem State.counted_mem {s t : State} (h : s.counted t) : t.mem = s.mem := by rw [h]

theorem State.counted_addFld (f : Fld) (n : Nat) : s.counted (s.addFld f n) := rfl

theorem State.counted_setFld (f : Fld) (n : Nat) : s.counted (s.setFld f n) := rfl

/-- What is counted leaves the conditions of the domains. -/
theorem State.counted_dom {s t : State} (h : s.counted t) (d : Nat) : t.dom d = s.dom d := by
  unfold State.dom
  rw [State.counted_pwr h]

theorem State.counted_logEvent (h : s.dom epDom = .on) (src code : Nat) (c : Option CtxId) (loc detail : Nat) :
    s.counted (s.logEvent src code c loc detail) := by
  unfold State.counted
  rw [State.logEvent_on s h]

/-- A count with its log entry. -/
theorem State.counted_addLog (h : s.dom epDom = .on) (f : Fld) (n src code : Nat) (c : Option CtxId) (loc detail : Nat) :
    s.counted ((s.addFld f n).logEvent src code c loc detail) :=
  State.counted_trans (s.counted_addFld _ _) (State.counted_logEvent (s.addFld f n) h _ _ _ _ _)

theorem State.counted_noteErr (h : s.dom epDom = .on) (store : Nat) (c : Option CtxId) (n w loc : Nat) :
    s.counted (s.noteErr store c n w loc) := by
  unfold State.noteErr
  split
  · exact s.counted_addFld _ _
  · split
    · exact s.counted_addLog h _ _ _ _ _ _ _
    · exact s.counted_refl

theorem State.counted_noteWords (store : Nat) (c : Option CtxId) : ∀ (n : Nat) (s : State) (w loc : Nat), s.dom epDom = .on →
    s.counted (s.noteWords store c w loc n)
  | 0, s, _, _, _ => s.counted_refl
  | n + 1, s, w, loc, h => by
    have h1 : s.counted (s.noteWord store c w loc) := s.counted_noteErr h _ _ _ _ _
    exact State.counted_trans h1 (State.counted_noteWords store c n _ _ _ ((State.counted_dom h1 _).trans h))

theorem State.counted_noteDisturb (h : s.dom epDom = .on) (hit : Bool) (code p : Nat) : s.counted (s.noteDisturb hit code p) := by
  unfold State.noteDisturb
  split
  · exact State.counted_trans (s.counted_setFld _ _) (State.counted_logEvent (s.setFld _ _) h _ _ _ _ _)
  · exact s.counted_refl

theorem State.counted_countRead (h : s.dom epDom = .on) (p : Nat) : s.counted (s.countRead p) := by
  have key : ∀ (t : State) (w o : Bool), s.counted t → s.counted ((t.noteDisturb w 4 p).noteDisturb o 5 p) := by
    intro t w o ht
    have h1 := State.counted_trans ht (t.counted_noteDisturb ((State.counted_dom ht _).trans h) w 4 p)
    exact State.counted_trans h1 (State.counted_noteDisturb _ ((State.counted_dom h1 _).trans h) o 5 p)
  exact key _ _ _ rfl

theorem State.counted_failedWords (c : Option CtxId) (p : Nat) : ∀ (l : List Nat) (s : State), s.dom epDom = .on →
    s.counted (s.failedWords c p l)
  | [], s, _ => s.counted_refl
  | i :: l, s, h => by
    have h1 : s.counted (if 8 < s.cwRetries p (4096 * i) then (s.addFld Reg.fpcErr_uncorr 1).logEvent 2 1 c p i else s) := by
      split
      · exact s.counted_addLog h _ _ _ _ _ _ _
      · exact s.counted_refl
    exact State.counted_trans h1 (State.counted_failedWords c p l _ ((State.counted_dom h1 _).trans h))

/-- What one page read counts. -/
theorem State.counted_pageRead (h : s.dom epDom = .on) (c : Option CtxId) (p : Nat) : s.counted (s.pageRead c p) := by
  have h1 := s.counted_countRead h p
  have h2 : (s.countRead p).counted
      (if (s.countRead p).pageRetried p then (s.countRead p).addFld Reg.fpcErr_retries 1 else s.countRead p) := by
    split
    · exact State.counted_addFld _ _ _
    · exact State.counted_refl _
  have h3 := State.counted_trans h1 h2
  exact State.counted_trans h3 (State.counted_failedWords _ _ _ _ ((State.counted_dom h3 _).trans h))

/-- A domain that accepts an access is on. -/
theorem State.domOn_dom {s : State} {d : Nat} (h : s.domOn d = true) : s.dom d = .on := by
  simp only [State.domOn, Bool.and_eq_true, decide_eq_true_eq] at h
  exact h.1

/-- With every domain on, what a read of one piece outside peer memory counts. -/
theorem State.counted_notePlace (h : ∀ d, s.domOn d = true) (c : CtxId) (place : Option Loc) (first : Bool) (a n : Nat)
    (hp : ∀ p d pc b, place ≠ some (.peer p d pc b)) : s.counted (s.notePlace c place first a n) := by
  unfold State.notePlace
  simp only [State.touch_on s _ (fun d _ => h d)]
  split
  · exact State.counted_noteWords _ _ _ _ _ _ (State.domOn_dom (h _))
  · exact State.counted_noteWords _ _ _ _ _ _ (State.domOn_dom (h _))
  · split
    · exact s.counted_pageRead (State.domOn_dom (h _)) _ _
    · exact s.counted_refl
  · exact absurd rfl (hp _ _ _ _)
  · exact s.counted_refl

/-- With every domain on, what a read of a range outside peer memory counts. -/
theorem State.counted_noteReadL (v : View) : ∀ (l : List (Nat × Nat)) (s : State) (first : Bool), (∀ d, s.domOn d = true) →
    (∀ t, s.counted t → ∀ q ∈ l, ∀ p d pc b, t.readPlace v q.1 ≠ some (.peer p d pc b)) → s.counted (s.noteReadL v first l)
  | [], s, _, _, _ => s.counted_refl
  | (a, n) :: l, s, first, h, hp => by
    have h1 : s.counted (s.notePiece v first a n) :=
      s.counted_notePlace h _ _ _ _ _ (hp s s.counted_refl (a, n) (List.mem_cons_self ..))
    refine State.counted_trans h1 (State.counted_noteReadL v l _ false ?_ ?_)
    · intro d
      have := h d
      unfold State.domOn State.dom at this ⊢
      rw [State.counted_pwr h1]
      exact this
    · intro t ht q hq
      exact hp t (State.counted_trans h1 ht) q (List.mem_cons_of_mem _ hq)

theorem State.noteWords_clean (hb : s.bch = []) (store : Nat) (c : Option CtxId) : ∀ (n w loc : Nat), s.noteWords store c w loc n = s
  | 0, _, _ => rfl
  | n + 1, w, loc => by
    have h : s.noteWord store c w loc = s := by simp [State.noteWord, State.noteErr, hb]
    rw [State.noteWords, h, State.noteWords_clean hb store c n]

/-- With every domain on and no bit errors, a read of bytes that T0 serves changes nothing. -/
theorem State.noteReadL_clean (hd : ∀ d, s.domOn d = true) (hb : s.bch = []) (v : View) : ∀ (l : List (Nat × Nat)) (first : Bool),
    (∀ q ∈ l, ∃ k, s.readPlace v q.1 = some (.t0 k)) → s.noteReadL v first l = s
  | [], _, _ => rfl
  | (a, n) :: l, first, h => by
    obtain ⟨k, hk⟩ := h (a, n) (List.mem_cons_self ..)
    have h1 : s.notePiece v first a n = s := by
      unfold State.notePiece State.notePlace
      rw [hk]
      simp only [State.touch_on s _ (fun d _ => hd d)]
      exact s.noteWords_clean hb _ _ _ _ _
    rw [State.noteReadL, h1]
    exact State.noteReadL_clean hd hb v l false (fun q hq => h q (List.mem_cons_of_mem _ hq))

/-! ### What a write changes beside the bytes -/

theorem State.pumpData_missing : ∀ (fuel : Nat) (s : State) (p : PortId), (s.pumpData p fuel).link.missing = s.link.missing
  | 0, _, _ => rfl
  | fuel + 1, s, p => by
    unfold State.pumpData
    simp only []
    split
    · rfl
    · split
      · rfl
      · exact State.pumpData_missing fuel _ p

theorem State.sendData_missing (p : PortId) (h : s.dom (108 + p.val) = .on) (kind : Nat) (header : List Byte) (data : List SB) :
    (s.sendData p kind header data).link.missing = s.link.missing := by
  simp only [State.sendData]
  rw [State.pumpData_missing, State.wakeDom_on _ _ h]
  rfl

/-- What a write to a peer leaves while the port's domain is on. -/
theorem State.peerWrite_keeps (c : CtxId) (e : Engine) (slot : Nat) (p : PortId) (h : s.dom (108 + p.val) = .on) (dev : Nat) (pc : CtxId)
    (a : Nat) (data : List SB) :
    (s.peerWrite c e slot p dev pc a data).pwr = s.pwr ∧ (s.peerWrite c e slot p dev pc a data).link.missing = s.link.missing := by
  unfold State.peerWrite
  generalize hr : ({ port := p, tag := (s.port p).nextTag, ctx := c, eng := e, slot := slot, stream := false, dev := dev, peerCtx := pc,
                     addr := a, len := data.length, write := true } : PeerReq) = r
  have k : ∀ (t : State) (m : List Byte), t.dom (108 + p.val) = .on →
      (t.sendData p 2 m data).pwr = t.pwr ∧ (t.sendData p 2 m data).link.missing = t.link.missing := by
    intro t m ht
    exact ⟨by rw [State.sendData_on t p ht], State.sendData_missing t p ht _ _ _⟩
  exact k _ _ h

/-- What the overlay of a write on what migrations have read leaves. -/
theorem State.overlay_keeps (dev : Nat) (pc : CtxId) (a : Nat) (data : List SB) :
    (s.overlay dev pc a data).pwr = s.pwr ∧ (s.overlay dev pc a data).link.missing = s.link.missing := by
  unfold State.overlay
  exact ⟨rfl, rfl⟩

/-- With every domain on, a write of one piece leaves the domains as they are and misses no peer byte. -/
theorem State.writePiece_keeps (h : ∀ d, s.domOn d = true) (v : View) (who : Engine × Nat) (a : Nat) (data : List SB) :
    (s.writePiece v who a data).1.pwr = s.pwr ∧ (s.writePiece v who a data).1.link.missing = s.link.missing := by
  have hm : ∀ (t : State) (i : Nat), (t.markDirty i).pwr = t.pwr ∧ (t.markDirty i).link = t.link := by
    intro t i
    unfold State.markDirty
    split
    · exact ⟨rfl, rfl⟩
    · split <;> exact ⟨rfl, rfl⟩
  have hs : ∀ k, (s.store k data).pwr = s.pwr ∧ (s.store k data).link = s.link := fun k => by
    rw [State.store_eq]
    exact ⟨rfl, rfl⟩
  unfold State.writePiece
  simp only [State.touch_on s _ (fun d _ => h d)]
  split
  · split
    · exact ⟨(hm _ _).1.trans (hs _).1, congrArg Link.missing ((hm _ _).2.trans (hs _).2)⟩
    · exact ⟨(hm _ _).1.trans (hs _).1, congrArg Link.missing ((hm _ _).2.trans (hs _).2)⟩
    · rw [State.hostStore_eq]
      exact ⟨rfl, rfl⟩
    · rename_i q dev pc b _
      have k1 := s.overlay_keeps dev pc b data
      have k2 := (s.overlay dev pc b data).peerWrite_keeps v.ctx who.1 who.2 q
        (by unfold State.dom; rw [k1.1]; exact State.domOn_dom (h (108 + q.val))) dev pc b data
      exact ⟨k2.1.trans k1.1, k2.2.trans k1.2⟩
    · exact ⟨rfl, rfl⟩
  · exact ⟨rfl, rfl⟩

theorem State.writeL_keeps (v : View) (who : Engine × Nat) : ∀ (l : List (Nat × Nat)) (s : State) (data : List SB),
    (∀ d, s.domOn d = true) →
    (s.writeL v who l data).1.pwr = s.pwr ∧ (s.writeL v who l data).1.link.missing = s.link.missing
  | [], _, _, _ => ⟨rfl, rfl⟩
  | (a, n) :: l, s, data, h => by
    have h1 := s.writePiece_keeps h v who a (data.take n)
    have h2 := State.writeL_keeps v who l (s.writePiece v who a (data.take n)).1 (data.drop n) (fun d => by
      have := h d
      unfold State.domOn State.dom at this ⊢
      rw [h1.1]
      exact this)
    exact ⟨h2.1.trans h1.1, h2.2.trans h1.2⟩

/-! ### Reading a range -/

/-- A range whose bytes all have their places is read without a fault. -/
theorem State.span_placed (v : View) (a n : Nat) (f : Nat → SB)
    (h : ∀ i, i < n → (s.streamPlace v (a + i)).map s.peekLoc = some (f i)) : s.span v a n = ((List.range n).map f, false) := by
  have key : ∀ l : List SB, cutFault (l.map some) = (l, false) := by
    intro l
    induction l with
    | nil => rfl
    | cons b l ih => simp [cutFault, ih]
  unfold State.span
  rw [← key, List.map_map]
  exact congrArg cutFault (List.map_congr_left (fun i hi => h i (List.mem_range.mp hi)))

/-! ### Streams of a rejected command (R15) -/

/-- All that `keepStreams` can change is the armings. -/
theorem State.keepStreams_eq (t : State) (x : Exec) : t.keepStreams s x = { t with armings := (t.keepStreams s x).armings } := by
  unfold State.keepStreams; split <;> rfl

@[simp] theorem State.keepStreams_running (t : State) (x : Exec) : (t.keepStreams s x).running = t.running := by
  rw [State.keepStreams_eq]

@[simp] theorem State.keepStreams_link (t : State) (x : Exec) : (t.keepStreams s x).link = t.link := by
  rw [State.keepStreams_eq]

@[simp] theorem State.keepStreams_pwr (t : State) (x : Exec) : (t.keepStreams s x).pwr = t.pwr := by
  rw [State.keepStreams_eq]

@[simp] theorem State.keepStreams_mem (t : State) (x : Exec) : (t.keepStreams s x).mem = t.mem := by
  rw [State.keepStreams_eq]

@[simp] theorem State.keepStreams_ctxs (t : State) (x : Exec) : (t.keepStreams s x).ctxs = t.ctxs := by
  rw [State.keepStreams_eq]

/-- A command that is not rejected leaves the armings as its work left them; a rejected one leaves those it started with. -/
theorem State.keepStreams_armings (t : State) (x : Exec) :
    (t.keepStreams s x).armings = t.armings ∨ (t.keepStreams s x).armings = s.armings := by
  unfold State.keepStreams; split
  · exact .inr rfl
  · exact .inl rfl

end Sys2Proof.Machine
end

