-- ==== Sys2Proof/Laws/Codec.lean ====
section
/-! SUPPORT. Little-endian bytes, and the flits a port sends: they pass the check of their CRC. -/

namespace Sys2Proof.Machine

open Sys2Proof

theorem leVal_leBytes : ∀ n v, leVal (leBytes n v) = v % 256 ^ n
  | 0, v => by simp [leBytes, leVal, Nat.mod_one]
  | n + 1, v => by
    rw [leBytes, leVal, leVal_leBytes n, BitVec.toNat_ofNat, Nat.pow_succ' (m := 256), Nat.mod_mul (a := 256)]

theorem leBytes_length : ∀ n v, (leBytes n v).length = n
  | 0, _ => rfl
  | n + 1, v => by rw [leBytes, List.length_cons, leBytes_length n]

theorem leVal_crc (bs : List Byte) : leVal (leBytes 4 (crc32c bs).toNat) = (crc32c bs).toNat := by
  rw [leVal_leBytes]
  exact Nat.mod_eq_of_lt (crc32c bs).isLt

/-- R353: a data flit that a device sends passes the check of its CRC. -/
theorem sent_dataFlit_ok (seq : Nat) (f : DataFlit) (h : (dataFlitBody seq f).length = 252) :
    (decodeDataFlit (encodeDataFlit seq f)).crcOk = true := by
  have hl : (encodeDataFlit seq f).length = 256 := by rw [encodeDataFlit, List.length_append, h, leBytes_length]
  have ht : (encodeDataFlit seq f).take 252 = dataFlitBody seq f := List.take_left' h
  have hd : (encodeDataFlit seq f).drop 252 = leBytes 4 (crc32c (dataFlitBody seq f)).toNat := List.drop_left' h
  rw [decodeDataFlit]
  dsimp only
  rw [hl, ht, hd, leVal_crc, decide_eq_true rfl, decide_eq_true rfl, Bool.and_self]

/-- R354: and so does a control flit. -/
theorem sent_ctlFlit_ok (seq : Nat) (ms : List W64) (h : (ctlFlitBody seq ms).length = 28) :
    (decodeCtlFlit (encodeCtlFlit seq ms)).crcOk = true := by
  have hl : (encodeCtlFlit seq ms).length = 32 := by rw [encodeCtlFlit, List.length_append, h, leBytes_length]
  have ht : (encodeCtlFlit seq ms).take 28 = ctlFlitBody seq ms := List.take_left' h
  have hd : (encodeCtlFlit seq ms).drop 28 = leBytes 4 (crc32c (ctlFlitBody seq ms)).toNat := List.drop_left' h
  rw [decodeCtlFlit]
  dsimp only
  rw [hl, ht, hd, leVal_crc, decide_eq_true rfl, decide_eq_true rfl, Bool.and_self]

end Sys2Proof.Machine
end

