-- ==== Sys2Proof/Tests/Slice0.lean ====
section
/-! SUPPORT. Own tests: an ill-formed command for each check of WellFormed, for each obligation with hypotheses a state and operands
that meet them, and small steps with values worked out from the spec. -/

set_option Elab.async false

namespace Sys2Proof.Tests

open Sys2Proof Sys2Proof.Machine

/-! ### Well-formedness -/

theorem test_wf_requests :
    (Instr.queueEntryWrite 0 0 [] false).wellFormed = false ∧
    (Instr.queueEntryWrite 0 4095 [1, 2] false).wellFormed = false ∧
    (Instr.queueEntryWrite 1 (2 ^ 20) [1] false).wellFormed = false ∧
    (Instr.registerWrite .mgc 0 0 0 false).wellFormed = false ∧
    (Instr.registerWrite (.fn 3) 0xFFFC 8 0 false).wellFormed = false ∧
    (Instr.registerWrite (.fn 0) (2 ^ 26) 4 0 false).wellFormed = false ∧
    (Instr.apertureRead 0 0 4097).wellFormed = false ∧ (Instr.apertureRead 2 (2 ^ 32) 1).wellFormed = false ∧
    (Instr.apertureWrite 0 0xFFF [0, 0] false).wellFormed = false ∧ (Instr.apertureWrite 0 (2 ^ 36) [0] false).wellFormed = false ∧
    (Instr.queueEntryWrite 0 4094 [1, 2] false).wellFormed = true ∧ (Instr.registerWrite (.fn 3) 0xFFF8 8 0 false).wellFormed = true := by
  decide

theorem test_wf_slots :
    (Instr.quant 0 4096).wellFormed = false ∧ (Instr.matvec 0 4096 []).wellFormed = false ∧ (Instr.blockDecode 0 32).wellFormed = false ∧
    (Instr.pcieCompletionTimeout 0 .mxe 131072 0 none).wellFormed = false ∧
    (Instr.pcieCompletionTimeout 0 .mxe 131071 0 none).wellFormed = true ∧
    (Instr.pcieCompletionTimeout 0 .mxe 0 65536 none).wellFormed = false ∧ (Instr.vfFlr 0).wellFormed = false ∧
    (Instr.quant 0 4095).wellFormed = true := by decide

theorem test_wf_flits :
    (Instr.dataFlit 0 []).wellFormed = false ∧ (Instr.controlFlit 0 [0]).wellFormed = false ∧ (Instr.shard 0 0 []).wellFormed = false ∧
    (Instr.ports 0 ⟨[(8, 0, 0)], false⟩).wellFormed = false ∧ (Instr.ports 0 ⟨[(0, 257, 0)], false⟩).wellFormed = false ∧
    (Instr.ports 0 ⟨[(0, 0, 8)], true⟩).wellFormed = false ∧ (Instr.ports 0 ⟨[(7, 256, 7)], true⟩).wellFormed = true := by decide

theorem test_wf_environment :
    (Instr.domainPowerGate 117).wellFormed = false ∧ (Instr.thermalSample [20]).wellFormed = false ∧
    (Instr.thermalSample (List.replicate 64 256)).wellFormed = false ∧ (Instr.offThermalSample (-257)).wellFormed = false ∧
    (Instr.railPoll []).wellFormed = false ∧ (Instr.railPoll (List.replicate 10 (some (65536, 0, 0, false)))).wellFormed = false ∧
    (Instr.pcieLinkUp 5 4).wellFormed = false ∧ (Instr.pcieLinkUp 0 4).wellFormed = false ∧ (Instr.pcieLinkUp 4 3).wellFormed = false ∧
    (Instr.pcieLinkUp 4 4).wellFormed = true := by decide

/-! ### States the tests start from -/

/-- A booted device with its PCI Express link up. -/
def base : State :=
  let s := State.reset.setFld Reg.devStatus_ready 1
  { s with pcie := { s.pcie with linkUp := true, held := 0 } }

/-- The same with another power mode. -/
def inMode (m : PwrMode) : State := { base with pwr := { base.pwr with mode := m } }

/-- The same with an entry in progress. -/
def entering (e : EntrySeq) : State := { base with pwr := { base.pwr with entry := some e } }

/-- The same with a P-state change in progress. -/
def ramping (r : Ramp) : State := { base with pwr := { base.pwr with ramp := some r } }

/-- The same with domain d in a condition. -/
def withDom (d : Nat) (x : DomState) : State := { base with pwr := { base.pwr with doms := [(d, x)] } }

/-- The same with a role: 1 Planet, 2 Moon. -/
def asRole (k : Nat) : State := { base with link := { base.link with role := k } }

/-- The next state of a step, if it is one. -/
def nextOf (o : Host.Outcome State Fault Refusal) : Option State :=
  match o with
  | .next t => some t
  | _ => none

/-- The fault a step ends in, if it does. -/
def faultOf (o : Host.Outcome State Fault Refusal) : Option Fault :=
  match o with
  | .fault f => some f
  | _ => none

/-! ### The step and device time -/

theorem witness_StepRunsFront : ({ base with pending := [.timeNowRead, .ppsEdge] } : State).pending = .timeNowRead :: [.ppsEdge] := by decide

theorem witness_StepIdle :
    base.pending = [] ∧ base.pwr.mode = .run ∧ base.time.pendingSet = none ∧ base.time.slew = 0 ∧ base.time.holdover = false ∧
    base.pwr.doms = [] ∧ base.aptWait = [] ∧ (∀ p, (base.port p).state ≠ .active ∧ (base.port p).state ≠ .measure) ∧
    (∀ e ∈ base.models, e.2.unrec = none) := by decide +kernel

theorem witness_StepKeepsMemory : base.memOk = true ∧ (nextOf (step base)).isSome = true := by decide +kernel

theorem witness_StepKeepsOneExact : base.oneExact ∧ (nextOf (step base)).isSome = true := by
  unfold State.oneExact
  decide +kernel

theorem witness_DeviceTimeCommands :
    let s := ({ base with time := { base.time with ns := 2000000002 } }).setFld Reg.timeOutCfg_ppsEn 1
    s.isMoon = false ∧ s.flag Reg.timeOutCfg_ppsEn = true ∧ s.outsRun = true ∧ s.time.ns.toNat % 1000000000 < 3 ∧
    s.up = true ∧ s.pcie.d3.getLsbD 0 = false ∧ s.flag Reg.devStatus_ready = true ∧ s.inRecovery = false ∧ s.hostBehind 0 = false ∧
    ({ s with aptWait := [.timeNow] } : State).hostBehind 0 = true ∧ (s.setFld Reg.devStatus_ready 0).flag Reg.devStatus_ready = false ∧
    (inMode .park).up = false := by decide +kernel

/-- R367: 2 ns, 0xAAAA_AAAB units of 2^−32 ns and TIME_TRIM in each CLK_CTL cycle. -/
theorem test_time_advances :
    (nextOf (step base)).map (fun t => (t.time.ns, t.time.frac)) = some (2, 0xAAAAAAAB) := by decide +kernel

/-- R370: TIME_NOW returns the integer nanoseconds. -/
theorem test_time_now :
    (nextOf (exec .timeNowRead { base with time := { base.time with ns := 77, frac := 5 } })).map (fun t => (t.out, t.time.latched)) =
      some ([.readVal 0xB00000 77], 5) := by decide +kernel

/-! ### Power, domains, pads, rails, resets -/

/-- P3 runs ACLK at two steps of 0.3 GHz: a raise to P0 asks the regulator, and one step of a granted raise to P2 is the last. -/
theorem witness_PStateChange :
    (base.pwr.mode = .run ∧ (0 : Fin 4).val < base.pwr.pstate) ∧ base.quiet ∧
    (let s := { base with pwr := { base.pwr with pstate := 0, aclk := 5 } }
     s.pwr.mode = .run ∧ s.pwr.pstate < (3 : Fin 4).val) ∧
    (let r : Ramp := { target := 2, raising := true, waitVolt := false }
     (ramping r).pwr.ramp = some r ∧ r.waitVolt = false ∧ (ramping r).pwr.exiting = false ∧ (ramping r).pwr.entry = none ∧
     (nextOf (exec .aclkStep (ramping r))).map (fun t => (t.pwr.aclk, t.pwr.pstate)) = some (3, 2)) ∧
    (let r : Ramp := { target := 1, raising := true, waitVolt := true }
     (ramping r).pwr.ramp = some r ∧ r.waitVolt = true ∧ r.raising = true ∧ (ramping r).pwr.exiting = false ∧ (ramping r).pwr.entry = none ∧
     (nextOf (exec .avsTimeout (ramping r))).map (fun t => (t.pwr.fail, t.pwr.ramp)) = some (1, none)) := by
  unfold State.quiet
  decide +kernel

/-- The entry of IDLE at each of its steps, the abandoned one, and the L2 exchange of PARK with and without DST retained. -/
theorem witness_EntrySequence :
    (base.up = true ∧ (∀ c, (base.ctx c).exactReq = false) ∧ base.flag Reg.pwrRetainMask_dst0 = base.flag Reg.pwrRetainMask_dst1) ∧
    (let s := base.setFld Reg.pwrRetainMask_dst0 1
     s.flag Reg.pwrRetainMask_dst0 ≠ s.flag Reg.pwrRetainMask_dst1 ∧ s.up = true) ∧
    (entering { target := .off, step := 1, fromMode := .run, wake := 0 }).pwr.busy = true ∧
    base.quiet ∧
    (let s := base.updCtx 5 (fun x => { x with exactReq := true })
     s.up = true ∧ (s.ctx 5).exactReq = true) ∧
    (∀ k ∈ [1, 2, 6, 7], let e : EntrySeq := { target := .idle, step := k, fromMode := .run, wake := 2 }
     (entering e).pwr.entry = some e ∧ (entering e).up = true ∧ (entering e).stepReady e.step = true ∧ e.abandon = none ∧ e.lateWake = none) ∧
    (∀ k ∈ [1, 2, 6], let e : EntrySeq := { target := .idle, step := k, fromMode := .run, wake := 2, abandon := some (1, none) }
     (entering e).pwr.entry = some e ∧ (entering e).stepReady e.step = true ∧ e.abandon = some (1, none)) ∧
    (∀ m ∈ [PwrMode.off, .park], let e : EntrySeq := { target := m, step := 5, fromMode := .run, wake := 0 }
     (entering e).pwr.entry = some e ∧ e.step = 5 ∧ e.abandon = none ∧
     (nextOf (exec .pmeToAck (entering e))).map (fun t => (t.pcie.linkUp, t.pwr.entry.map (·.step))) = some (false, some 7)) := by
  unfold State.quiet
  decide +kernel

theorem witness_WakeSources :
    (let s := ((inMode .idle).setFld Reg.pwrRtcAlarm_en 1).setFld Reg.pwrWakeEn_rtc 1
     s.flag Reg.pwrRtcAlarm_en = true ∧ s.pwr.mode = .idle ∧ s.pwr.entry = none ∧ s.pwr.exiting = false ∧ s.flag Reg.pwrWakeEn_rtc = true ∧
     s.pwr.wakeSeen = none ∧
     s.fld Reg.pwrRtcNow_sec ≤ s.fld Reg.pwrRtcAlarm_sec ∧
     (let u := s.setFld Reg.pwrRtcNow_sec 1
      u.fld Reg.pwrRtcAlarm_sec < u.fld Reg.pwrRtcNow_sec)) ∧
    (let s := ((inMode .park).setFld Reg.pwrWakeEn_ports 0x80).setFld (Reg.lnkPortCtl_en.port 7) 1
     s.wakes 7 = true ∧ s.pwr.mode = .park ∧ s.pwr.entry = none ∧ s.pwr.exiting = false ∧ s.pwr.wakeSeen = none ∧
     (∀ k ∈ [4, 5], let u := { s with pwr := { s.pwr with exiting := true, wakeSeen := some k } }
      u.wakes 7 = true ∧ u.pwr.exiting = true ∧ u.pwr.wakeSeen = some k)) ∧
    (let s := (((inMode .idle).setFld Reg.pwrWakeEn_ports 1).setFld (Reg.lnkPortCtl_en.port 0) 1).setPort 0 { state := .active }
     s.wakes 0 = true ∧ s.portUp 0 = true ∧ s.pwr.mode = .idle ∧ s.pwr.entry = none ∧ s.pwr.exiting = false ∧ s.pwr.wakeSeen = none) ∧
    (let s := { base with pwr := { base.pwr with exiting := true } }
     s.pwr.exiting = true ∧ s.pwr.ramp = none) := by decide +kernel

theorem witness_DomainsAndPads :
    (base.domWritable 116 = true ∧ base.dom 116 = .on ∧ base.domWritable 0 = true ∧ base.dom 0 = .on) ∧
    ((withDom 10 .powerGated).pwr.mode = .run ∧ (withDom 10 .powerGated).dom 10 = .powerGated) ∧
    ((withDom 10 (.shutting 3)).dom 10 = .shutting 3 ∧ (withDom 10 (.waking true)).dom 10 = .waking true) ∧
    ((withDom 115 (.shutting 4)).dom 115 = .shutting 4 ∧ (withDom 115 (.shutting 4)).pwr.mode = .run) ∧
    (∀ d ∈ [10, 48, 116], ∀ b, (withDom d (.waking b)).dom d = .waking b ∧ (withDom d (.waking b)).calm) ∧
    ({ base with pcie := { base.pcie with linkUp := false } } : State).pcie.linkUp = false ∧
    (let s := { base with pwr := { base.pwr with padHold := true, padPending := [(0xB00030, 3)] } }
     s.pwr.padHold = true ∧ s.pwr.padPending = [(0xB00030, 3)] ∧ (1 : W64).getLsbD 0 = true) ∧
    base.aptWait = [] ∧ base.pwr.padHold = false ∧ (0 : W64).getLsbD 0 = false := by
  unfold State.calm
  decide +kernel

theorem witness_GatedBankIsPoisoned :
    let s := { withDom 48 (.waking false) with objs := [(3, { valid := true, size := 1, share := 1 })] }
    s.dom 48 = .waking false ∧ 3 ∈ SMap.keys s.objs ∧ kT0 3 0 / 8 ∈ s.bankWords 3 0 ∧ s.calm := by
  unfold State.calm
  decide +kernel

/-- A cool sample with no alert, the trip at exactly 115 °C in a second sample, the cool-down below 95 °C. -/
theorem witness_SensorsAndRails :
    (let s := base.setFld Reg.pwrThermCfg_alertThr 105
     s.pwr.mode ≠ .off ∧ s.pwr.mode ≠ .unpowered ∧ (List.replicate 64 (104 : Int)).length = 64 ∧
     ∀ x ∈ List.replicate 64 (104 : Int), x < 115 ∧ x < (s.fld Reg.pwrThermCfg_alertThr : Int)) ∧
    (let s := { base with pwr := { base.pwr with hot := [(0, true)] } }
     (List.replicate 64 (115 : Int))[0]? = some 115 ∧ SMap.get false s.pwr.hot 0 = true ∧
     (nextOf (exec (.thermalSample (List.replicate 64 115)) s)).map (fun t => (t.pwr.thermTripN, t.pwr.mode)) = some (false, .off)) ∧
    (let s := { inMode .off with pwr := { (inMode .off).pwr with thermTripN := false, heldWake := true } }
     s.pwr.mode = .off ∧ s.pwr.thermTripN = false ∧ s.pwr.heldWake = true ∧ (94 : Int) < 95) ∧
    ((inMode .off).pwr.mode = .off ∧ (inMode .off).pwr.thermTripN = true ∧
     (nextOf (exec (.offThermalSample (-1)) (inMode .off))).map (fun t => SMap.get 0 t.pwr.sensors 63) = some 511) ∧
    (base.up = true ∧ ([none, some (1000, 2000, 2000, false)] ++ List.replicate 8 none : List (Option (Nat × Nat × Nat × Bool))).length = 10) := by
  decide +kernel

theorem witness_Rails :
    (inMode .unpowered).pwr.mode = .unpowered ∧
    (∀ k ∈ [0, 3], let s := { inMode .rising with pwr := { (inMode .rising).pwr with wakeState := k } }
     s.pwr.mode = .rising ∧ s.pwr.pwrEnMain = true ∧ s.pwr.wakeState = k ∧ s.log.length ≤ 1024) ∧
    (base.up = true ∧ base.pwr.pwrEnMain = true ∧ base.removingRails = false) ∧
    (let e : EntrySeq := { target := .off, step := 7, fromMode := .run, wake := 0 }
     (entering e).up = true ∧ (entering e).pwr.pwrEnMain = true ∧ (entering e).removingRails = false) ∧
    ((inMode .park).pwr.mode = .park ∧ (inMode .park).pwr.pwrEnMain = true ∧ (inMode .park).removingRails = true ∧
     ({ inMode .park with pwr := { (inMode .park).pwr with exiting := true } } : State).removingRails = false) ∧
    (let s := { inMode .rising with pwr := { (inMode .rising).pwr with pwrEnMain := false } }
     s.pwr.mode = .rising ∧ s.pwr.pwrEnMain = false) := by decide +kernel

theorem witness_DeviceReset :
    base.up = true ∧ (0xFFFFFFFFFFFF6B1D : W64).setWidth 16 = (0x6B1D : BitVec 16) ∧ (0x6B1E : W64).setWidth 16 ≠ (0x6B1D : BitVec 16) ∧
    (∀ b, let s := { base with sec := { base.sec with state := 2, slot := b } }
     s.up = true ∧ s.sec.state = 2 ∧ s.sec.slot = b) := by decide +kernel

/-- A device reset without its key does nothing. -/
theorem test_dev_reset_key : (nextOf (exec (.devReset 0x6B1C 1) base)).map (fun t => decide (t = base)) = some true := by decide +kernel

theorem witness_BootEvents :
    base.pwr.mode ≠ .off ∧
    (let s0 := (inMode .off).setFld Reg.pwrWakeEn_pcie 1
     let s := { s0 with pwr := { s0.pwr with perst := true } }
     s.pwr.mode = .off ∧ s.pwr.perst = true ∧ s.flag Reg.pwrWakeEn_pcie = true ∧ s.pwr.thermTripN = true ∧ s.pwr.heldWake = false ∧
     s.pwr.entry = none ∧ s.pwr.exiting = false ∧ s.pwr.wakeSeen = none) ∧
    (∀ b ∈ [false, true], let s := { base with sec := { base.sec with state := 2, slot := b } }
     s.sec.state = 2 ∧ s.sec.slot = b) ∧
    ({ base with sec := { base.sec with state := 3 } } : State).sec.state = 3 ∧ base.bch = [] := by decide +kernel

/-! ### The PCI Express side -/

theorem witness_LinkDownAndUp :
    (base.pcie.linkUp = true ∧ base.pcie.vfEn = false) ∧
    (State.reset.up = true ∧ State.reset.pwr.perst = false ∧ State.reset.pcie.linkUp = false ∧ State.reset.migWait = [] ∧
     State.reset.gated epDom = false ∧ State.reset.pcie.pend = [] ∧
     (∀ c, (State.reset.ctx c).tailBuf = [] ∧ (State.reset.ctx c).resetBusy = false) ∧ ∀ c, (State.reset.ctx c).cbuf = []) ∧
    (let r : CplRec := { tag := 7, status := .ok, tolerant := false, rerun := false, engine := .vec, slot := 1, layerId := 0, detail := 0, time := 0,
                         firstStatus := .ok, irq := false }
     let s := State.reset.updCtx 15 (fun x => { x with cbuf := [r] })
     (s.ctx 15).cbuf = [r] ∧ (∀ d, d ≠ 15 → (s.ctx d).cbuf = []) ∧ s.cqFull 15 = false ∧ r.irq = false) := by decide +kernel

theorem witness_VirtualFunctions :
    (let s := { base with pcie := { base.pcie with vfEn := true, numVfs := 15 } }
     (15 : Fin 16) ≠ 0 ∧ s.vfHolds 15 = true ∧ s.saving 15 = false ∧
     (∀ c, s.vfHolds c = true → (s.ctx c).resetBusy = false ∧ (s.ctx c).cbuf = [])) ∧
    (base.pcie.vfEn = false ∧ ∀ c : CtxId, (base.ctx c).resetBusy = false ∧ (base.ctx c).cbuf = [] ∧ base.inExecution c = []) := by
  decide +kernel

theorem witness_MsixAndTimeouts :
    (let s := { base with pcie := { base.pcie with pend := [(3 * 128 + 127, true)], held := 0 } }
     s.hostUp = true ∧ s.pcie.d3.getLsbD 3 = false ∧ SMap.get false s.pcie.pend (3 * 128 + 127) = true ∧ s.pcie.held.getLsbD 3 = false) ∧
    (let s := { base with pcie := { base.pcie with pend := [(0, true)], held := 1, msix := [(1, 0)] } }
     s.hostUp = true ∧ s.pcie.d3.getLsbD 0 = false ∧ SMap.get false s.pcie.pend 0 = true ∧ s.vecMasked 0 0 = false) ∧
    (let m : MigReq := { ctx := 2, op := 0, tier := 0, id := 255, addr := 0, sigEn := false, sigIdx := 0, sigInc := 0, dl := 0, started := true,
                         obj := some 4, charged := true }
     let s := { base with mig := [m], objs := [(4, { valid := true, home := 3 })] }
     m ∈ s.mig ∧ m.id = (255 : BitVec 8).toNat ∧ m.started = true ∧ m.charged = true ∧ m.report = none ∧ m.obj = some 4 ∧
     (s.obj 4).home = 3 ∧ (s.obj 4).t3Peer = false ∧ m.tier = 0 ∧ (s.obj 4).cp1 = false) ∧
    (let x : Exec := { ctx := 1, eng := .vec, slot := 4095, words := [] }
     let s := { base with running := [x] }
     s.running = [x] ∧ x.ctx = 1 ∧ x.eng = .vec ∧ x.slot = 4095 ∧ ∀ y ∈ s.running, ¬(y.ctx = 1 ∧ y.eng = .vec ∧ y.slot = 4094)) ∧
    (let f : Flight := { tile := 0, data := [], host := true }
     let a : Arming := { ctx := 1, eng := .mxe, slot := 31, desc := {}, flight := [f] }
     let s := { base with armings := [a] }
     31 < 65536 ∧ s.armings = [a] ∧ a.at 1 .mxe 31 = true ∧ a.flight = [f] ∧ f.host = true ∧ f.fault = none) := by decide +kernel

/-! ### The command path -/

/-- The words of a VEC command of request 1, sequence 0, phase 1: opcode and destination format, destination, count. -/
def vecWords (op fmt dst count : Nat) : Entry :=
  [BitVec.ofNat 64 (0x200 + op), 0x10000, BitVec.ofNat 64 (fmt * 2 ^ 56), BitVec.ofNat 64 dst, 0, BitVec.ofNat 64 count, 0, 1]

/-- A device with one T0 object of one page at page 0x100, owned by context 0. -/
def memBase : State := { base with objs := [(3, { valid := true, base := 0x100, size := 1, share := 1 })] }

/-- Store an entry in a queue slot. -/
def putEntry (s : State) (c : CtxId) (e : Engine) (slot : Nat) (w : Entry) : State :=
  s.pokes (kQueue c e slot 0) (w.flatMap (fun x => leBytes 8 x.toNat))

/-- Every queue of context 0 enabled, and an entry in slot 0 of one. -/
def queued (e : Engine) (w : Entry) : State := (putEntry memBase 0 e 0 w).setFld (Reg.ctxCtrl_qEn.at 0) 15

/-- A command in execution on engine e from slot 5 of context 0. -/
def running (e : Engine) (w : Entry) : Exec := { ctx := 0, eng := e, slot := 5, words := w, skipEn := true }

/-- The device with that command alone in execution. -/
def withRun (e : Engine) (w : Entry) : State := { memBase with running := [running e w] }

/-- The queue of context 0 for engine e with its head in slot 4095, decoded, released and legal. -/
def withHead (e : Engine) (w : Entry) : State :=
  (memBase.setFld (Reg.ctxCtrl_qEn.at 0) 15).setQueue 0 e { head := 4095, phase := true, dec := .held w true .run }

theorem witness_QueueEntryWrite :
    base.serving ∧ base.pwr.entry = none ∧ base.vfHolds 15 = false ∧ (base.ctx 15).resetBusy = false ∧
    0x3FFFF < 0x40000 ∧ 0x3FFFF % 4096 + ([1] : List Byte).length ≤ 4096 ∧
    (let s := { base with aptWait := [.timeNow] }
     s.barsOpen 0 = true ∧ s.hostBehind 0 = true) ∧
    (let s := { withDom 107 (.waking true) with aptWait := [.queue 0 0 [1] false] }
     (107 : BitVec 7).toNat < 108 ∧ s.dom (107 : BitVec 7).toNat = .waking true ∧ ({ s with aptWait := [] } : State).calm) := by
  unfold State.serving State.calm
  decide +kernel

/-- A legal RANDOM of INT32 elements, and one of INT4 elements, which word 2 bit 56 of R61 rejects. -/
theorem witness_QueueEntryDecode :
    ∀ f ∈ [8, 0], let w := vecWords 8 f 0x100040 2
    let s := queued .vec w
    let u := s.setQueue 0 .vec { s.queue 0 .vec with aside := none }
    s.qEn 0 .vec = true ∧ (s.ctx 0).resetBusy = false ∧ (s.queue 0 .vec).dec = .idle ∧
    (∀ i, i < 8 → s.wordErr (kQueue 0 .vec (s.queue 0 .vec).head (8 * i)) = 0 ∧
      (s.peekWord (kQueue 0 .vec (s.queue 0 .vec).head (8 * i))).2 = false) ∧
    (s.slotWords 0 .vec).map Prod.fst = w ∧ wBit (w.word 7) 0 = (s.queue 0 .vec).phase ∧ s.window 0 w.tag = none ∧ u.tagLive 0 w.tag = false ∧
    s.openReq 0 w.reqNum = none ∧ (s.ctx 0).reqs.length < 1024 ∧ (s.queue 0 .vec).aside = none ∧
    u.decodeCheck 0 .vec (u.bindNow 0 w.reqNum) w =
      (if f = 8 then none else some { status := .illegalCommand, detail := 184 }) := by decide +kernel

theorem witness_CommandHandover :
    (let w := vecWords 8 8 0x100040 2
     let s := withHead .vec w
     let r := s.shareFind .vec 64 (s.shareAt.getD Engine.vec.code.val 0)
     s.cfeHands = true ∧ r.2 = some (0, 0, w) ∧ (s.ctx 0).exactReq = false ∧ ¬(Engine.vec = .tmv ∧ w.opcode = 0x11) ∧
     ({ s with shareTab := r.1.shareTab, shareAt := s.shareAt.set 2 1 } : State).workReady (engineDoms .vec) (fun s => s.handTo 0 .vec w) ∧
     (nextOf (exec (.commandHandover .vec) s)).map (fun t => ((t.queue 0 .vec).head, (t.queue 0 .vec).phase)) = some (0, false)) ∧
    (let w : Entry := [0x311, 0x10000, 0, 0, 0, 0, 0, 1]
     let s := withHead .tmv w
     let r := s.shareFind .tmv 64 (s.shareAt.getD Engine.tmv.code.val 0)
     s.cfeHands = true ∧ r.2 = some (0, 0, w) ∧ w.opcode = 0x11 ∧ (s.ctx 0).exactReq = false ∧
     ({ s with shareTab := r.1.shareTab, shareAt := s.shareAt.set 3 1 } : State).workReady (engineDoms .tmv) (fun s => s.handTo 0 .tmv w)) ∧
    (memBase.cfeHands = true ∧ (memBase.shareFind .vec 64 (memBase.shareAt.getD Engine.vec.code.val 0)).2 = none) := by
  unfold State.workReady
  decide +kernel

theorem witness_CommandComplete :
    let x := { running .vec ((vecWords 8 8 0x100040 2).set 0 0x10000000208) with result := some {} }
    let s := { memBase with running := [x] }
    s.running.find? (fun y => decide (y.ctx = 0) && decide (y.eng = .vec) && decide (y.fillOf = none)) = some x ∧
    x.result = some {} ∧ x.dupOf = none ∧ s.fillExecs x = [] ∧ s.writesOut x = false ∧ s.tails x {} = false ∧
    Entry.signalsSys x.words = false ∧ s.pcie.flrWait = 0 ∧ (s.ctx 0).cbuf = [] ∧ s.cqFull 0 = false ∧ s.hostUp = true ∧
    s.pwr.stall = [] ∧ s.link.missing = [] ∧ Entry.sigInc x.words 1 = 0 ∧ Entry.sigInc x.words 0 = 1 ∧
    (nextOf (exec (.commandComplete 0 .vec) s)).map (fun t => (t.syncVal 0 0, t.running.length, (t.ctx 0).cqTail)) = some (1, 0, 1) := by
  decide +kernel

/-- A head that the tail has reached, one beyond it, an empty Tail buffer, and a counted record with a timer. -/
theorem witness_RingHeadsAndTimer :
    (let s := base.updCtx 2 (fun x => { x with cqTail := 5 })
     wBits 5 0 16 < s.cqSize 2 ∧ ringUsed (s.cqSize 2) (s.ctx 2).cqTail (s.ctx 2).cqLap (wBits 5 0 16) ((5 : W64).getLsbD 16) ≤ s.cqSize 2 ∧
     (s.ctx 2).cbuf = [] ∧ (s.ctx 2).resetBusy = false ∧ (s.ctx 2).tailBuf = [] ∧
     s.cqSize 2 < ringUsed (s.cqSize 2) (s.ctx 2).cqTail (s.ctx 2).cqLap (wBits 6 0 16) ((6 : W64).getLsbD 16)) ∧
    (let s0 := (((base.setFld (Reg.ctxCqIrq_en.at 2) 1).setFld (Reg.ctxCqIrq_timer.at 2) 1).setFld (Reg.ctxCqIrq_vector.at 2) 127).updCtx 2
       (fun x => { x with irqPending := 1 })
     let s := { s0 with pcie := { s0.pcie with msix := [(255, 0)] } }
     0 < (s.ctx 2).irqPending ∧ s.flag (Reg.ctxCqIrq_en.at 2) = true ∧ s.fld (Reg.ctxCqIrq_timer.at 2) ≠ 0 ∧
     s.fld (Reg.ctxCqIrq_vector.at 2) < 128 ∧ s.hostUp = true ∧ s.vecMasked (s.owner 2) (s.fld (Reg.ctxCqIrq_vector.at 2)) = false ∧
     s.pcie.held.getLsbD (s.owner 2).val = false ∧ s.pcie.d3.getLsbD (s.owner 2).val = false) := by decide +kernel

theorem witness_QueueEnables :
    (base.saving 3 = false ∧ (let w := vecWords 8 8 0x100040 2; let s := withHead .vec w
      s.qEn 0 .vec = true ∧ Nat.testBit (wBits 0 4 4) Engine.vec.code = false ∧ (s.queue 0 .vec).dec = .held w true .run)) ∧
    (let w : Entry := [0x305, 0, 0, 3, 0, 0, 0, 1]
     let s := withRun .tmv w
     s.saving 3 = true ∧ wBits 0x10 4 4 &&& (15 - s.fld (Reg.ctxCtrl_qEn.at 3)) ≠ 0 ∧
     faultOf (exec (.queueEnableWrite 3 0x10) s) = some .undefinedUnderSave) := by decide +kernel

theorem witness_ContextReset :
    (base.ctx 4).resetBusy = false ∧ base.inExecution 4 = [] ∧ (base.ctx 4).cbuf = [] ∧
    (let s0 := withRun .vec (vecWords 8 8 0x100040 2)
     let s := { s0 with pcie := { s0.pcie with linkUp := false } }
     (s.ctx 0).resetBusy = false ∧ s.inExecution 0 ≠ [] ∧ (s.ctx 0).cbuf = [] ∧ s.pcie.linkUp = false) := by decide +kernel

theorem witness_Aborts :
    let w := vecWords 8 8 0x100040 2
    let s := (withHead .vec w).updCtx 0 (fun x => { x with reqs := [{ num := 1, live := 1 }] })
    s.openReq 0 (1 : BitVec 48).toNat = some { num := 1, live := 1 } ∧ (s.queue 0 .vec).dec = .held w true .run ∧
    Entry.reqNum w = (1 : BitVec 48).toNat := by decide +kernel

/-- A head that waits on counter 7 for 2^31: released by exactly that value, and not by one less. -/
theorem witness_SyncCounters :
    let w : Entry := [0x70A08, 0x10000, 0, 0, 0, 0, 0, BitVec.ofNat 64 (2 ^ 39 + 1)]
    let s := base.setQueue 0 .vec { dec := .held w false .run }
    (s.queue 0 .vec).dec = .held w false .run ∧ Entry.waitEn w = true ∧ Entry.waitSys w = false ∧ Entry.waitIdx w = 7 ∧
    s.isMoon = false ∧ s.isPlanet = false ∧ (asRole 2).isMoon = true ∧ (asRole 1).isPlanet = true ∧ (asRole 1).isMoon = false ∧
    (nextOf (exec (.syncCounterWrite 0 7 0x80000000) s)).map (fun t => (t.queue 0 .vec).dec) = some (.held w true .run) ∧
    (nextOf (exec (.syncCounterWrite 0 7 0x7FFFFFFF) s)).map (fun t => (t.queue 0 .vec).dec) = some (.held w false .run) ∧
    Entry.waitEn (w.set 0 0x70208) = false ∧
    (let w2 : Entry := w.set 0 0x71A08
     let s := base.setQueue 0 .vec { dec := .held w2 false .run }
     (s.queue 0 .vec).dec = .held w2 false .run ∧ Entry.waitEn w2 = true ∧ Entry.waitSys w2 = true ∧ Entry.waitIdx w2 = 7) := by decide +kernel

theorem witness_ExactMode :
    (let s := base.updCtx 15 (fun x => { x with exactReq := true })
     (15 : CtxId) ≠ 0 ∧ (s.ctx 15).exactReq = true ∧ (∀ d, (s.ctx d).exactActive = false ∧ s.execCount d = 0)) ∧
    ((∀ d, d ≠ 0 → (base.ctx d).exactReq = false) ∧ base.pwr.entry = none) ∧
    (let s := base.updCtx 15 (fun x => { x with exactActive := true })
     (s.ctx 15).exactActive = true ∧ (s.ctx 15).exactReq = false ∧ s.execCount 15 = 0) := by decide +kernel

/-- A context register with RW and reserved bits, one with a W1C bit, a reserved offset, and a ring with a waiting record. -/
theorem witness_RegisterWrite :
    base.serving ∧ base.vfHolds 9 = false ∧ (∀ o ∈ plainPage, (pageRow? o).isSome = true) ∧ (0x8 : Nat) < 0x10000 ∧
    pageRow? 0xFFF8 = none ∧
    (let r : CplRec := { tag := 7, status := .ok, tolerant := false, rerun := false, engine := .vec, slot := 1, layerId := 0, detail := 0, time := 0,
                         firstStatus := .ok, irq := false }
     let s := base.updCtx 9 (fun x => { x with cbuf := [r] })
     (s.ctx 9).cbuf ≠ [] ∧ faultOf (exec (.registerWrite (.fn 0) (ctxBase 9 + Reg.ctxCqBase) 8 0 false) s) = some .undefinedRingMove) := by
  unfold State.serving
  decide +kernel

theorem witness_Aperture :
    memBase.serving ∧ memBase.awake ∧ memBase.pwr.entry = none ∧ memBase.aptWait = [] ∧
    (let s := { memBase with pwr := { memBase.pwr with doms := (List.range 32).map (fun b => (48 + b, DomState.clockGated)) } }
     s.canWrite (s.hostView 0) 0x100FFC 4 = true ∧
     (s.aptLand { ctx := 0, addr := 0x100FFC, data := clean [0, 0, 0, 0] }).2 = false) ∧ memBase.aptCtx 0 = (0, true) ∧ aptInBar 0 0x100FFC 4 = true ∧
    memBase.aptAddr 0 0x100FFC + 4 ≤ 2 ^ 52 ∧
    memBase.readPlace (memBase.hostView 0) (memBase.aptAddr 0 0x100FFC) = some (.t0 (kT0 3 0xFFC)) ∧
    memBase.writePlace (memBase.hostView 0) (memBase.aptAddr 0 0x100FFC) = some (.t0 (kT0 3 0xFFC)) ∧
    (∀ i, i < 4 → (memBase.peek (kT0 3 0xFFC + i)).2 = false) ∧
    (let s := { base with objs := [(3, { valid := true, base := 0x100, size := 1, home := 1 })] }
     s.readPlace (s.hostView 0) 0x100000 = some (.t1 (kT1 3 0)) ∧ s.writePlace (s.hostView 0) 0x100000 = some (.t1 (kT1 3 0))) ∧
    aptInBar 0 0x101000 4 = true ∧ memBase.canRead (memBase.hostView 0) 0x101000 4 = false ∧
    memBase.canWrite (memBase.hostView 0) 0x101000 4 = false := by
  unfold State.serving State.awake
  decide +kernel

/-- R258: bytes written through the aperture are read through it. -/
theorem test_aperture :
    ((nextOf (exec (.apertureWrite 0 0x100FFC [1, 2, 3, 4] false) memBase)).bind (fun t => nextOf (exec (.apertureRead 0 0x100FFC 4) t))).map
      (fun t => t.out) = some [.apertureData [1, 2, 3, 4] false] := by decide +kernel

/-! ### Engine commands -/

/-- Every VEC command, with a source or destination that no object holds: it runs, and reports TIER_FAULT. -/
theorem witness_VecCommandsRun :
    (∀ op ∈ [2, 3, 4, 5, 6, 7, 8, 9, 1], (withRun .vec (vecWords op 8 0x200040 2)).running.find?
      (fun y => decide (y.ctx = 0) && decide (y.eng = .vec) && decide (y.slot = 5)) = some (running .vec (vecWords op 8 0x200040 2)) ∧
      Entry.opcode (vecWords op 8 0x200040 2) = op) ∧
    (let q := fun (op : Nat) => vecWords op 8 0x200040 2
     let ready := fun (op : Nat) (f : Exec → State → State) => (withRun .vec (q op)).workReady (engineDoms .vec) (f (running .vec (q op)))
     ready 1 quantRun ∧ ready 2 funcRun ∧ ready 3 scaleFindRun ∧ ready 4 (rowRun 4 normOf) ∧ ready 5 (rowRun 5 (fun _ => softmaxRow)) ∧
     ready 6 rescaleRun ∧ ready 7 outlierRun ∧ ready 8 randomRun ∧ ready 9 addRun) ∧
    (withRun .vec (vecWords 1 8 0 2)).canRun 0 .vec 5 1 (running .vec (vecWords 1 8 0 2)) := by
  unfold State.workReady State.canRun
  decide +kernel

/-- RANDOM of two INT32 elements to the T0 object: it can write them, and it reports OK. -/
theorem witness_RandomResult :
    let w := vecWords 8 8 0x100040 2
    let x := running .vec w
    let s := withRun .vec w
    s.canRun 0 .vec 5 8 x ∧ s.workReady (engineDoms .vec) (randomRun x) ∧ x.early = [] ∧
    (s.running.filter (fun y => decide (y.ctx = 0) && decide (y.eng = .vec) && decide (y.slot = 5))) = [x] ∧
    (let elems := (List.range 2).map (fun i => (randomCode w x i, false))
     let o : VecOut := { addr := 0x100040, fmt := .int32, elems := elems, hdr := plainHdr .int32 2 0 }
     ((s.touch (engineDoms .vec)).writeOuts x [o]).2 = true ∧ (packElems .int32 elems).length = 8) ∧
    (∀ i, i < 8 → s.landsAt x.view (0x100040 + i) (kT0 3 0x40 + i)) ∧ (∀ i, i < 64 → s.landsAt x.view (0x100040 - 64 + i) (kT0 3 0 + i)) ∧
    kT0 3 0 + 64 ≤ kT0 3 0x40 ∧
    (nextOf (exec (.random 0 5) s)).map (fun t => t.running.map (fun y => y.result)) = some [some {}] := by
  unfold State.workReady State.canRun State.landsAt
  decide +kernel

theorem witness_CafCommandsRun :
    (let w : Entry := [0x101, 0x10000, 0, 0, 0, 0, 0, 1]
     (withRun .caf w).canRun 0 .caf 5 1 (running .caf w) ∧ (withRun .caf w).workReady (engineDoms .caf) (matvecRun [] (running .caf w))) ∧
    (let w : Entry := [0x102, 0x10000, 0, 0, 0, 0, 0, 1]
     (withRun .caf w).canRun 0 .caf 5 2 (running .caf w) ∧ (withRun .caf w).workReady (engineDoms .caf) (scrubRun [] (running .caf w))) := by
  unfold State.workReady State.canRun
  decide +kernel

/-- A MATMUL with a weight arming attached, whose source no object holds; a COMBINE; a stall episode of one cycle. -/
theorem witness_MxeCommandsRun :
    (let w : Entry := [1, 0x10000, 0x200000, 0, 0, 0, 0, 1]
     let a : Arming := { ctx := 0, eng := .mxe, slot := 0, desc := {}, issued := 1, consumer := some (.mxe, 5) }
     let s := { withRun .mxe w with armings := [a] }
     let x := running .mxe w
     s.canRun 0 .mxe 5 1 x ∧ s.workReady (engineDoms .mxe) (matmulRun x) ∧
     s.running = [x] ∧ x.eng = .mxe ∧ x.fillOf = none ∧ Entry.opcode x.words = 1 ∧ x.words ≠ [] ∧
     (nextOf (exec (.operandStallEpisode 1) s)).map (fun t => (t.fld (Reg.ctxMxeStat_stallEpisodes.at 0), t.fld Reg.mxeStallTotal_cycles)) =
       some (1, 1)) ∧
    (let w : Entry := [2, 0x10000, 0x200000, 0, 0, 0, 0, 1]
     (withRun .mxe w).canRun 0 .mxe 5 2 (running .mxe w) ∧ (withRun .mxe w).workReady (engineDoms .mxe) (combineRun (running .mxe w))) := by
  unfold State.workReady State.canRun
  decide +kernel

/-- ARM of a descriptor no object holds, DISARM of all slots, COPY with its arming, an empty SLOT_TABLE, COMPRESS; a TABLE_LOAD whose
table is pinned, one that clears its table, and one whose image no object holds. -/
theorem witness_TmvCommandsRun :
    (let e := fun (op : Nat) => ([BitVec.ofNat 64 (0x300 + op), 0x10000, 0x200000, 0, 0, 0, 0, 1] : Entry)
     let s := fun (op : Nat) => withRun .tmv (e op)
     let x := fun (op : Nat) => running .tmv (e op)
     let can := fun (op : Nat) => (s op).canRun 0 .tmv 5 op (x op)
     let ready := fun (op : Nat) (f : Exec → State → State) => (s op).workReady (engineDoms .tmv) (f (x op))
     (∀ op ∈ [1, 2, 4], (s op).tmvTurn (x op) = true) ∧ can 1 ∧ can 2 ∧ can 4 ∧ can 0x10 ∧
     ready 1 armRun ∧ ready 2 disarmRun ∧ ready 4 slotTableRun ∧ ready 0x10 compressRun ∧ Entry.pos (e 4) 192 13 = 0 ∧
     (let a : Arming := { ctx := 0, eng := .tmv, slot := 5, desc := {}, issued := 1, consumer := some (.tmv, 5), dst := some {} }
      let c := { s 3 with armings := [a] }
      c.canRun 0 .tmv 5 3 (x 3) ∧ c.armings.any (fun a => decide (a.ctx = 0) && decide (a.consumer = some (.tmv, 5))) = true ∧
      c.workReady (engineDoms .tmv) (copyRun (x 3)))) ∧
    (let w : Entry := [0x311, 0x10000, 0x200000, 0, 0, 0, 0, 1]
     let s := memBase.setQueue 0 .tmv { dec := .loading w false none }
     let d : Desc := { cmp := true, tmask := 1, cnt := [1], esize := 7, ndim := 1 }
     let p := { memBase.setQueue 0 .tmv { dec := .loading w true none } with armings := [{ ctx := 0, eng := .mxe, slot := 0, desc := d }] }
     (s.queue 0 .tmv).dec = .loading w false none ∧ s.awake ∧ s.pinned 0 (w.pos 180 3) = false ∧
     s.workReady (engineDoms .tmv)
       (fun s => (s.loadTable { ctx := 0, bind := s.bindOf 0 w, noHost := s.lostFor 0 .tmv (s.queue 0 .tmv).head } w).1) ∧
     (p.queue 0 .tmv).dec = .loading w true none ∧ p.awake ∧ p.pinned 0 (w.pos 180 3) = true ∧
     Entry.bit (w.set 2 0x80000000000000) 2 55 = true) := by
  unfold State.workReady State.canRun State.awake
  decide +kernel

/-! ### Streams -/

/-- One T1 object of two pages under a stream of 32 bytes. -/
def streamBase (a : Arming) : State :=
  { base with objs := [(3, { valid := true, base := 0x100, size := 2, share := 1, home := 1 })], armings := [a] }

/-- An arming of that stream with a consumer. -/
def arming : Arming :=
  { ctx := 0, eng := .mxe, slot := 31, desc := { base := 0x100000, esize := 4, ndim := 1, tier := 1, cnt := [1], stride := [16], tileDl := 1 }
    consumer := some (.mxe, 5) }

set_option maxRecDepth 20000 in
theorem witness_StreamTransfers :
    (let s := streamBase arming
     s.awake ∧ s.inFlight .mxe < 8 ∧ (∀ c, (s.ctx c).exactActive = false) ∧ s.arbitrate (s.eligibles .mxe) [] = some (0, false) ∧
     s.armAt 0 = some arming ∧ (s.needMeta arming).link.missing = [] ∧
     (nextOf (exec (.transferGrant .mxe []) s)).map (fun t => t.armings.map (fun b => (b.issued, b.flight.length))) = some [(1, 1)]) ∧
    (let f : Flight := { tile := 0, data := [(1, false)], dst := true }
     let a := { arming with flight := [f] }
     let s := streamBase a
     (s.slotArms 0 .mxe 31).find? (fun a => !a.2.flight.isEmpty) = some (0, a) ∧ a.flight = f :: [] ∧ s.awaits a f = false ∧ a.desc.chk = false ∧
     f.dst = true ∧ s.dstTile { a with issued := 1 } = some 0 ∧ s.armAt 0 = some a) ∧
    (let f : Flight := { tile := 0, data := [(1, false)], dst := true }
     let a := { arming with issued := 1, flight := [f] }
     let s := streamBase a
     s.armAt 0 = some a ∧ s.dstTile a = some 0 ∧ (nextOf (exec (.dramRefresh [0]) s)).map (fun t => t.armings.map (·.tilesHit)) = some [[0]]) ∧
    (let s := streamBase arming
     (s.slotArms 0 .mxe 31).find? (fun a => a.2.consumer.isSome && !a.2.fetched && a.2.dead.isNone) = some (0, arming) ∧
     arming.desc.tileDl ≠ 0) ∧
    (let a := { arming with desc := { arming.desc with cmp := true }, data := List.replicate 24 (0, false) }
     let s := streamBase a
     s.awake ∧ s.decoding 0 31 = some (0, a) ∧ a.blockIn = true ∧ a.consumer.isSome = true ∧
     (let b := { a with consumer := none, dec := [(0, false)] }
      (streamBase b).decoding 0 31 = some (0, b) ∧ b.blockIn = true ∧ (streamBase b).decodedAhead + 4096 ≤ 65536)) := by
  unfold State.awake
  decide +kernel

/-! ### Migration, objects and models -/

/-- A request of context 0 for the object at page 0x100. -/
def migReq (op tier : Nat) : MigReq :=
  { ctx := 0, op := op, tier := tier, id := 255, addr := 0x100000, sigEn := false, sigIdx := 0, sigInc := 0, dl := 1 }

/-- One object at page 0x100 under one request, with quotas of T0 and T1. -/
def migState (o : Obj) (m : MigReq) : State :=
  { base with objs := [(3, { o with valid := true, base := 0x100, size := 1 })], mig := [m], quotas := [(0, 100), (1, 100)] }

theorem witness_MigrationOperations :
    ((∀ q ∈ base.migAll, q.ctx = 0 → q.id ≠ wBits 0xFF00 8 8) ∧
     (∃ q ∈ (migState {} (migReq 0 0)).migAll, q.ctx = 0 ∧ q.id = wBits 0xFF00 8 8)) ∧
    (let m := migReq 0 0
     let s := migState { home := 1 } m
     s.awake ∧ s.quiesced = false ∧ s.cfeHands = true ∧ s.migBusy < 64 ∧ s.migNext [] s.mig = some m ∧
     (s.migObj m.ctx m.addr).map Prod.fst = some 3 ∧ m.report = none ∧ m.op = 0 ∧ (s.obj 3).inst = false ∧ m.allowed (s.obj 3) = true ∧
     m.moves (s.obj 3) = true ∧
     (nextOf (exec .migrationOpStart s)).map (fun t => ((t.obj 3).hold0, t.mig.map (·.started))) = some ([0], [true])) ∧
    (let s := { migState { home := 1 } (migReq 0 0) with bankHost := { req := true } }
     s.quiesced = true) ∧
    (let m := { migReq 0 0 with started := true, report := some .quota }
     let s := migState {} m
     s.mig.find? (fun m => decide (m.ctx = 0) && decide (m.id = (255 : BitVec 8).toNat) && m.started) = some m ∧ m.report = some .quota ∧
     s.mig.find? (fun m => decide (m.ctx = 0) && decide (m.id = (255 : BitVec 8).toNat) && decide (m.dl ≠ 0)) = some m ∧ s.hostUp = true) ∧
    (let m := { migReq 1 0 with started := true, obj := some 3 }
     let s := migState { home := 1, cp0 := true, hold0 := [0] } m
     s.mig.find? (fun m => decide (m.ctx = 0) && decide (m.id = (255 : BitVec 8).toNat) && m.started) = some m ∧ m.report = none ∧
     m.obj = some 3 ∧ m.op = 1 ∧ m.tier < 2 ∧ m.sent = false ∧ s.awake ∧ s.exactCtx = none ∧ (s.obj 3).hold m.tier = [0] ∧
     (s.obj 3).dirty = false) := by
  unfold State.awake
  decide +kernel

theorem witness_PromoteCopiesBytes :
    let m := { migReq 0 0 with started := true, obj := some 3, charged := true }
    let s := migState { home := 1, hold0 := [0], busy := true } m
    s.awake ∧ s.exactCtx = none ∧ s.bch = [] ∧
    s.mig.find? (fun m => decide (m.ctx = 0) && decide (m.id = (255 : BitVec 8).toNat) && m.started) = some m ∧ m.report = none ∧
    m.obj = some 3 ∧ m.op = 0 ∧ m.tier = 0 ∧ m.charged = true ∧ (s.obj 3).home = 1 ∧ (s.obj 3).cp1 = false ∧ 3 < 2 ^ 18 ∧ (s.obj 3).size < 2 ^ 30 := by
  unfold State.awake
  decide +kernel

/-- The edit bank of the physical function in each condition the statement names. -/
theorem witness_ObjectTable :
    (∀ who ∈ [Requester.fn 0, .mgc], (base.bank? who).isSome = true) ∧
    (base.migBusy = 0 ∧ ({ base with bankHost := { req := true } } : State).bank? (.fn 0) = some { req := true }) ∧
    ((base.obj 0).valid = false ∧ base.bankHost.done = false) ∧
    (let b : EditBank := { done := true, idx := 3 }
     let s := { memBase with bankHost := b }
     s.bank? (.fn 0) = some b ∧ (s.obj b.idx).valid = true ∧ s.mig = [] ∧ b.done = true) ∧
    (let b : EditBank := { done := true, idx := 7, w := [0x100000000400, 1, 0, 0] }
     let s := { memBase with bankHost := b, quotas := [(0, 100), (1, 100), (2, 100)] }
     s.bank? (.fn 0) = some b ∧ s.createCode b = 0 ∧ s.pwr.lostBanks = []) ∧
    (let b : EditBank := { done := true, idx := 3, w := [0x0000600000000100, 0x0000000080000001, 0, 0] }
     let s := { base with bankMgc := b, objs := [(3, { valid := true, base := 0x100, size := 1, home := 2, ro := true })] }
     let o := s.obj 3
     let p1 : Obj := { o with share := BitVec.ofNat 16 (wBits (b.w.getD 1 0) 30 16) }
     let p0 : Obj := { o with ro := (b.w.getD 0 0).getLsbD 46, inst := (b.w.getD 0 0).getLsbD 47 }
     s.bank? .mgc = some b ∧ o.valid = true ∧ wBits (b.w.getD 1 0) 52 12 = 0 ∧ p1.share = 2 ∧ p1.stateBad = false ∧ s.overlaps 3 p1 = false ∧
     wBits (b.w.getD 0 0) 49 15 = 0 ∧ p0.stateBad = false ∧ o.ro = true ∧ o.cp0 = false) ∧
    (let b : EditBank := { done := true, idx := 3 }
     let s := { base with bankMgc := b,
                          objs := [(3, { valid := true, base := 0x100, size := 1, home := 3, ro := true, cp0 := true, cp1 := true })] }
     let o := s.obj 3
     s.bank? .mgc = some b ∧ o.valid = true ∧ (b.w.getD 0 0).getLsbD 46 = false ∧ o.cp0 = true ∧ o.cp1 = true ∧
     ({ o with ro := false, inst := false } : Obj).stateBad = false) := by decide +kernel

theorem witness_ModelTable :
    (base.bankHost.done = false ∧ base.bank? (.fn 0) = some base.bankHost) ∧
    (let b : EditBank := { done := true, mdlSel := 63, mdlW := [0x1000, 4, 0x2000, 0x3000] }
     let s := { base with bankHost := b }
     s.bank? (.fn 0) = some b ∧ s.defineCode b = 0) ∧
    (let b : EditBank := { done := true, mdlSel := 63 }
     let m : Model := { valid := true, wbase := 0x1000, wsize := 4, baseA := 0x2000, baseB := 0x3000 }
     let s := { base with bankHost := b, models := [(63, m)] }
     s.bank? (.fn 0) = some b ∧ (s.model b.mdlSel).valid = true ∧ s.slotVacant (s.model b.mdlSel) 0 = true ∧
     s.slotVacant (s.model b.mdlSel) 1 = true ∧
     ({ s with models := [(63, { m with stA := .active })] } : State).slotVacant { m with stA := .active } 0 = false) := by decide +kernel

theorem witness_CheckValueUnits :
    (base.ctx 1).crc.length = 4 ∧ (base.crcUnit 1 3).adv = none ∧ (base.crcUnit 1 3).w64 = false ∧
    (let s := base.updCtx 1 (fun x => { x with crc := x.crc.set 3 { w64 := true, adv := some 8, waiting := [(2, 9)] } })
     (s.ctx 1).crc.length = 4 ∧ (s.crcUnit 1 3).adv = some 8 ∧ (s.crcUnit 1 3).waiting = [(2, 9)] ∧ (s.crcUnit 1 3).w64 = true) := by decide +kernel

/-- R378: the check values of the nine bytes "123456789" are those of the two named functions. -/
theorem test_crc_check_values :
    crc32c ((List.range 9).map (fun i => BitVec.ofNat 8 (0x31 + i))) = 0xE3069283 ∧
    crc64 ((List.range 9).map (fun i => BitVec.ofNat 8 (0x31 + i))) = 0x6C40DF5F0B497347 := by decide +kernel

/-! ### The flash program controller and the installation -/

/-- The sequencer with a state. -/
def fpcState (x : Fpc) : State := { base with fpc := x }

/-- Both keys, and the lockout at the sixteenth relock. -/
theorem witness_FpcSequence :
    sideOf .mgc = some true ∧ sideOf (.fn 0) = some false ∧
    (base.fpc.lockout = false ∧ base.fpc.lock = 0 ∧ wBits 0xA5C3 0 16 = 0xA5C3 ∧ wBits 0xA5C4 0 16 ≠ 0xA5C3) ∧
    (∀ k ∈ [1, 2, 3], let s := fpcState { lock := k, owner := true }
     s.fpc.lockout = false ∧ s.fpc.lock ≠ 0 ∧ s.fpc.owner = true ∧ s.fpc.lock = k) ∧ wBits 0x3C5A 0 16 = 0x3C5A ∧
    (fpcState { lock := 2 }).fpc.owner ≠ true ∧ (fpcState { lockout := true }).fpc.lockout = true ∧
    (nextOf (exec (.fpcKeyWrite .mgc 0) (fpcState { relocks := 15 }))).map (fun t => (t.fpc.lockout, t.fld Reg.fpcLock_badSeq)) =
      some (true, 1) := by decide +kernel

/-- PROG_PAGES of one page of a flash-homed object in installation is accepted; an ERASE_BLOCK of a block with a live page, an operation
of a reserved field, and a seventeenth operation are not. -/
theorem witness_FpcLaunches :
    (let s := { fpcState { lock := 4, owner := true, cmd := 1, addr := 3, held := 1, verified := 1 } with
                  objs := [(3, { valid := true, base := 0x100, size := 8, home := 2, ro := true, inst := true })] }
     let o : FpcOp := { id := 0, op := 1, mgc := true, addr := 3, data := 0 }
     sideOf .mgc = some true ∧ s.fpc.lock = 4 ∧ s.fpc.owner = true ∧ wBits s.fpc.cmd 0 8 = 1 ∧ s.fpc.outstanding true < 16 ∧
     s.fpcCheck s.fpc.cmd o = none ∧ s.fpcCheck s.fpc.cmd { o with data := 0x400 } = some 7) ∧
    (let o : FpcOp := { id := 0, op := 1, mgc := true, addr := 0, data := 0 }
     let s := fpcState { lock := 4, owner := true, cmd := 1, ops := List.replicate 16 o }
     16 ≤ s.fpc.outstanding true) ∧
    (let o : FpcOp := { id := 0, op := 2, mgc := true, addr := 2048, data := 0xD0 }
     let s := { fpcState { lock := 4, owner := true, cmd := 2, addr := 2048 } with blks := [(1, { live := 1 })] }
     wBits s.fpc.cmd 0 8 = 2 ∧ wBits (0xD0 : W64) 0 16 = 0xD0 ∧ fpcReserved s.fpc.cmd o = false ∧ userBlock o.block = true ∧
     (s.blk o.block).live ≠ 0 ∧
     (nextOf (exec (.eraseBlock .mgc 0xD0) s)).map (fun t => t.fpc.resMgc.map (·.code)) = some [5]) := by decide +kernel

/-- A running or queued operation of each kind. -/
theorem witness_FpcPrograms :
    let op := fun (k : Nat) => ({ id := 7, op := k, mgc := false, addr := 3, data := 0, phase := .running, todo := [9], target := 4096 } : FpcOp)
    (∀ k ∈ [1, 3, 4, 6], (fpcState { ops := [op k] }).fpcOp (7 : BitVec 8).toNat
      (fun o => decide (o.phase = .running) && !o.erases) = some (op k)) ∧
    (op 1).rest = [] ∧ (op 1).stuck = none ∧ ({ op 1 with rest := [(1, 4097, 0)] } : FpcOp).rest = (1, 4097, 0) :: [] ∧
    (op 1).pulses + 1 < 16 ∧ (op 3).todo = [9] ∧
    (∀ b, ({ base with pmap := if b then [(pmapKey 2 0, 10)] else [] } : State).pageLive 9 = b) ∧
    (∀ k ∈ [1, 2, 4], let o : FpcOp := { op k with phase := .queued }
     let s := fpcState { ops := [o], held := if k = 1 then 0 else 1, verified := 1 }
     s.fpcOp (7 : BitVec 8).toNat (fun o => decide (o.phase = .queued)) = some o ∧ s.opTurn o = true ∧ s.fpcStarts = true ∧
     s.startCheck o = (if k = 1 then some 6 else if k = 2 then none else some 2)) ∧
    (let o : FpcOp := { op 4 with addr := 0, phase := .queued }
     let s := { fpcState { ops := [o], held := 1, verified := 1 } with
                  tsets := [(0, { state := .installing, nRb := 1, nCb := 1, rowsLast := 1024 })], poison := [(kStage 0 0 / 8, true)] }
     s.startCheck o = none ∧ s.anyBad (kStage o.buf (131072 * wBits o.data 3 3)) 131072 = true) ∧
    (let s := fpcState { ops := [{ op 3 with todo := [] }] }
     (nextOf (exec (.programPulseEnd 7 ⟨[], []⟩) s)).map (fun t => t.fpc.resHost.map (fun r => (r.id, r.op, r.code))) = some [(7, 3, 0)]) := by
  decide +kernel

theorem witness_FpcErases :
    let op := fun (k : Nat) (ph : OpPhase) (n : Nat) (h : Bool) =>
      ({ id := 7, op := k, mgc := true, addr := 2048, data := 0xD0, phase := ph, pulses := n, hold := h } : FpcOp)
    let s := fun (o : FpcOp) => (fpcState { ops := [o] }).setFld Reg.fpcCfg_rdSuspend 1
    let runs := fun (o : FpcOp) => decide (o.phase = .running) && o.erases
    (∀ n ∈ [0, 6, 7], (s (op 2 .running n false)).fpcOp (7 : BitVec 8).toNat runs = some (op 2 .running n false)) ∧
    (op 2 .running 6 false).pulses + 1 < 8 ∧ 8 ≤ (op 2 .running 7 false).pulses + 1 ∧
    ((s (op 5 .running 0 false)).fpcOp (7 : BitVec 8).toNat runs = some (op 5 .running 0 false) ∧ (op 5 .running 0 false).todo = []) ∧
    (∀ h ∈ [false, true], (s (op 2 .running 0 h)).eraseOp (7 : BitVec 8).toNat = some (op 2 .running 0 h)) ∧
    (s (op 2 .running 0 false)).flag Reg.fpcCfg_rdSuspend = true ∧
    (∀ ph ∈ [OpPhase.suspendedHost, .suspendedRead], (s (op 2 ph 0 false)).eraseOp (7 : BitVec 8).toNat = some (op 2 ph 0 false) ∧
      (s (op 2 ph 0 false)).fpcStarts = true) ∧
    (nextOf (exec (.erasePulseEnd 7 false) (s (op 2 .running 7 false)))).map (fun t => ((t.blk 1).state, t.fpc.resMgc.map (·.code))) =
      some (.bad, [1]) ∧
    base.up = true ∧ base.pcie.d3.getLsbD 0 = false ∧ base.flag Reg.devStatus_ready = true ∧ base.inRecovery = false ∧
    base.hostBehind 0 = false ∧ ({ base with aptWait := [.timeNow] } : State).hostBehind 0 = true ∧
    ({ base with sec := { base.sec with state := 3 } } : State).inRecovery = true ∧ (inMode .off).up = false := by decide +kernel

/-- A model whose two slots are empty. -/
def model63 : Model := { valid := true, wbase := 0x1000, wsize := 8, baseA := 0x2000, baseB := 0x3000 }

/-- The plan descriptor of a manifest of one shard for device 0: 64 bytes at 0x100000. -/
def planDesc : List Byte :=
  leBytes 8 (63 * 2 ^ 28) ++ leBytes 8 (crc32c (List.replicate 64 0)).toNat ++ leBytes 8 0x100000 ++ leBytes 8 0 ++ leBytes 32 1

/-- Its manifest header, for model 63. -/
def planHdr : List Byte := leBytes 8 (5 + 63 * 2 ^ 32 + 2 ^ 40) ++ leBytes 8 0x100000 ++ leBytes 8 (crc32c planDesc).toNat ++ leBytes 40 0

/-- A device with that manifest at 0x100080, under FPC_INST_ADDR. -/
def manifestState : State :=
  ({ memBase with models := [(63, model63)] }.pokes (kT0 3 0x80) (planHdr ++ planDesc)).setFld Reg.fpcInstAddr_addr 0x100080

/-- An order naming model 63, slot A. -/
def order63 : W64 := BitVec.ofNat 64 (63 * 2 ^ 3)

set_option maxRecDepth 20000 in
theorem witness_InstallOrders :
    (let s := manifestState
     let h := s.read0 (s.fld Reg.fpcInstAddr_addr) 64
     s.isMoon = false ∧ s.pwr.stall = [] ∧ s.link.missing = [] ∧ s.inst.orders = [] ∧ s.inst.state = 0 ∧ wBits order63 3 6 = 63 ∧
     s.slotOpen 63 0 = true ∧ (s.order 1 order63).pwr.stall = [] ∧ (s.order 1 order63).link.missing = [] ∧ h.1 = some planHdr ∧
     (h.2.read0 (s.fld Reg.fpcInstAddr_addr + 64) (64 * (Manifest.ofBytes planHdr).n)).1 = some planDesc ∧
     manifestDescs planHdr planDesc 63 (s.model 63).wsize = some [ShardDesc.ofBytes planDesc] ∧
     (ShardDesc.ofBytes planDesc).dest.getLsbD s.link.dev = true) ∧
    (let s := { base with models := [(63, model63)] }
     s.slotOpen 63 0 = true ∧ (s.order 1 order63).pwr.stall = [] ∧ (s.order 1 order63).link.missing = [] ∧
     (s.read0 (s.fld Reg.fpcInstAddr_addr) 64).1 = none ∧ base.slotOpen 63 0 = false) ∧
    (let s := { base with mig := [{ migReq 0 0 with started := true }], inst := { base.inst with state := 3 } }
     s.migBusy ≠ 0 ∧ s.inst.state = 3) ∧
    (∀ k ∈ [1, 4], let s := { base with inst := { base.inst with state := k, leader := true } }
     1 ≤ s.inst.state ∧ s.inst.state ≤ 4 ∧ s.inst.state ≠ 3 ∧ s.inst.leader = true) ∧
    (let s := { base with models := [(63, { model63 with stA := .standby })], inst := { base.inst with state := 3, model := 63, devices := [0] } }
     s.inst.state = 3 ∧ wBits order63 3 6 = s.inst.model ∧ order63.getLsbD 11 = false ∧ s.inst.devices = [s.link.dev] ∧
     s.migBusy = 0) ∧
    (let s := { base with models := [(63, { model63 with stA := .active, boundary := some ⟨1, [0], 1⟩ })] }
     (s.model 63).boundary ≠ none ∧ (s.model 63).activeSlot = some 0 ∧ (s.model 63).valid = true ∧ (s.model 63).st (1 - 0) = .empty) ∧
    (base.model 63).activeSlot = none ∧ ({ base with inst := { base.inst with state := 1, leader := true } } : State).inst.building = true := by
  decide +kernel

theorem witness_InstallerWork :
    (let d : ShardDesc := { index := 0, kind := 0, bytes := 64, crc := (crc32c (List.replicate 64 0)).toNat, src := 0x100000, target := 0, dest := 2 }
     let s := { memBase with inst := { state := 1, leader := true, model := 63, descs := [d] } }
     s.awake ∧ s.inst.leader = true ∧ s.inst.building = true ∧ s.inst.descs[s.inst.next]? = some d ∧ d.dest.getLsbD s.link.dev = false ∧
     s.storesOpen d.index (s.chains d) = true ∧ s.shardFetch.link.missing = [] ∧
     (let v : View := { s.hostView 0 with noHost := s.lostFor 0 .tmv instSlot }
      (s.span v d.src d.bytes).2 = false ∧ d.passes (s.span v d.src d.bytes).1 = true ∧
      ({ d with crc := d.crc + 1 } : ShardDesc).passes (s.span v d.src d.bytes).1 = false) ∧ s.inst.tries < 4 ∧
     4 ≤ ({ s.inst with tries := 4 } : Inst).tries ∧ s.inst.devices.contains s.link.dev = false ∧
     ({ s.inst with devices := [0] } : Inst).devices.contains s.link.dev = true ∧ d.index + 1 = s.inst.descs.length ∧ s.inst.plan = []) ∧
    (let d : ShardDesc := { index := 1, kind := 1, bytes := 16384, crc := 0, src := 0, target := 0, dest := 1 }
     let h : HeldShard := { buf := 0, desc := d }
     let o : Obj := { valid := true, base := 0x2000, size := 8, home := 2, ro := true, inst := true }
     let s := { base with models := [(63, model63)], objs := [(4, o)], inst := { state := 1, model := 63, planned := true, expected := 1, held := [h] } }
     s.fpc.resMgc = [] ∧ s.inst.orders = [] ∧ s.inst.state = 1 ∧ s.inst.planned = true ∧ s.inst.applied = s.inst.plan.length ∧
     s.inst.erase = [] ∧ s.mgcFree = true ∧
     s.inst.held.find? s.launchable = some h ∧ h.desc.kind = 1 ∧ s.shardObject h.desc = some (4, o, 0) ∧
     (s.model s.inst.model).base s.inst.slot * 4096 + 16384 * h.desc.target + h.desc.bytes ≤ o.base * 4096 + o.size * 4096) ∧
    (let d : ShardDesc := { index := 1, kind := 2, bytes := 131072, crc := 0, src := 0, target := 1023, dest := 1 }
     let h : HeldShard := { buf := 0, desc := d }
     let s := { base with inst := { state := 1, model := 63, planned := true, expected := 1, held := [h] },
                          tsets := [(0, { state := .installing, firstTile := 1023, nRb := 1, nCb := 1, rowsLast := 64 })] }
     let u := { s with inst := { s.inst with erase := [1023] }, sectors := [(16 * 1023, { state := .programmed })] }
     s.fpc.resMgc = [] ∧ s.inst.orders = [] ∧ s.inst.applied = s.inst.plan.length ∧ s.mgcFree = true ∧ s.inst.erase = [] ∧
     s.inst.held.find? s.launchable = some h ∧ h.desc.kind = 2 ∧ u.inst.erase = 1023 :: [] ∧ u.dirtySectors 1023 ≠ [] ∧ u.mgcFree = true) := by
  unfold State.awake
  decide +kernel

/-- The part complete at a leader with an automatic switch and on a Moon, and a shard message with a place. -/
theorem witness_InstallerWork_end :
    (let s := { base with models := [(63, { model63 with stA := .building })],
                          inst := { state := 1, model := 63, planned := true, leader := true, auto := true, devices := [0] } }
     s.inst.leader = true ∧ s.inst.auto = true ∧ s.isPlanet = false ∧ s.isMoon = false ∧ s.inst.devices = [s.link.dev] ∧ s.migBusy = 0 ∧
     s.slotProgrammed (s.model s.inst.model) s.inst.slot = true ∧ (asRole 1).isPlanet = true ∧
     (nextOf (exec .partComplete s)).map (fun t => (t.inst.state, (t.model 63).stA)) = some (5, .active)) ∧
    (let s := { asRole 2 with models := [(63, { model63 with stA := .building })], inst := { state := 1, model := 63, planned := true } }
     s.fpc.resMgc = [] ∧ s.inst.state = 1 ∧ s.inst.planned = true ∧ s.inst.applied = s.inst.plan.length ∧ s.inst.dataOk = s.inst.expected ∧ s.inst.opIds = [] ∧ s.inst.held = [] ∧
     s.inst.erase = [] ∧ s.slotProgrammed (s.model s.inst.model) s.inst.slot = true ∧ s.migBusy = 0 ∧ s.inst.leader = false ∧
     ({ s with mig := [{ migReq 0 0 with started := true }] } : State).migBusy ≠ 0) ∧
    (let desc := leBytes 8 (1 + 1 * 2 ^ 24 + 3 * 2 ^ 28) ++ leBytes 8 (crc32c [1, 2, 3, 4]).toNat ++ leBytes 16 0 ++ leBytes 32 1
     let m : DataMsg := { kind := 7, srcCtx := 0, dstCtx := 0, status := 0, tag := 0, len := 68, addr := 0, data := clean (desc ++ [1, 2, 3, 4]) }
     let s := { base with inst := { state := 1, model := 63, planned := true, expected := 1 } }.setPort 2 { state := .active, inMsgs := [m] }
     (s.port 2).inMsgs.find? (fun m => decide (m.kind = 7)) = some m ∧ s.serves = true ∧ (s.port 2).discard = false ∧ s.inst.building = true ∧
     s.downstream = [] ∧ (ShardDesc.ofBytes desc).dest.getLsbD s.link.dev = true ∧ (ShardDesc.ofBytes desc).kind ≠ 0 ∧ s.freeBuf = some 0 ∧
     m.read.data = m.data ∧ (ShardDesc.ofBytes ((m.read.data.take 64).map Prod.fst)) = ShardDesc.ofBytes desc ∧
     anyPoison (m.data.take 64) = false ∧ (ShardDesc.ofBytes desc).passes (m.data.drop 64) = true ∧
     s.inst.devices.contains s.link.dev = false ∧ ({ s.inst with devices := [0] } : Inst).devices.contains s.link.dev = true ∧
     (ShardDesc.ofBytes desc).index + 1 = (Manifest.ofBytes (leBytes 8 (2 * 2 ^ 40))).n ∧ s.inst.plan = []) := by
  decide +kernel

/-! ### Links, topology and the security island -/

/-- A device whose port 3 is ACTIVE and holds control messages. -/
def portWith (k : Nat) (ctl : List W64) : State := (asRole k).setPort 3 { state := .active, use := if k = 2 then .upstream else .downstream, inCtl := ctl }

/-- A Moon with number 9 whose upstream port is 3. -/
def moon (ctl : List W64) : State :=
  let s := portWith 2 ctl
  { s with link := { s.link with dev := 9, upValid := true, upPort := 3 } }

theorem witness_InstallMessages :
    (∀ sub ∈ [1, 2], (portWith 0 [instMsg sub 9 1 63]).peekCtl 3 (isSub 11 sub) = some (instMsg sub 9 1 63)) ∧
    (let good : List SB := clean (leBytes 8 1 ++ leBytes 8 (crc32c [7]).toNat ++ leBytes 16 0 ++ leBytes 32 2 ++ [7])
     let l : List (Nat × List SB) := [(0, []), (1, good), (2, [])]
     l.filter (fun e => decide (wBits (instMsg 2 9 1 63) 16 24 ≤ e.1)) = [(1, good)] ++ [(2, [])] ∧ shardGood good = true ∧ shardGood [] = false) ∧
    (∀ sub ∈ [3, 4, 6], let s := { portWith 1 [instMsg sub 9 1 63] with inst := { state := if sub = 6 then 3 else 1, leader := true, model := 63, devices := [9] } }
     s.isPlanet = true ∧ s.inst.leader = true ∧ imModel (instMsg sub 9 1 63) = s.inst.model ∧
     s.peekCtl 3 (isSub 11 sub) = some (instMsg sub 9 1 63) ∧ imDev (instMsg sub 9 1 63) ∈ s.inst.devices ∧ 1 ≤ s.inst.state ∧ s.inst.state ≤ 3 ∧
     (sub ≠ 6 → s.inst.building = true) ∧ (∀ d ∈ s.inst.devices, d ∈ s.inst.reported ∨ d = 9)) ∧
    (let s := { portWith 1 [instMsg 3 9 1 63] with inst := { state := 1, leader := true, model := 63, devices := [9, 4] } }
     ∃ d ∈ s.inst.devices, d ∉ s.inst.reported ∧ d ≠ imDev (instMsg 3 9 1 63)) ∧
    (∀ sub ∈ [5, 7, 8], let s := { moon [instMsg sub 9 1 63] with models := [(63, { model63 with stA := .standby })], inst := { state := 2, model := 63 } }
     s.isMoon = true ∧ s.upstream = some 3 ∧ s.peekCtl 3 (isSub 11 sub) = some (instMsg sub 9 1 63) ∧ s.inst.state = 2 ∧
     imModel (instMsg sub 9 1 63) = s.inst.model ∧ (s.model s.inst.model).st s.inst.slot = .standby ∧ s.migBusy = 0 ∧
     ({ s with mig := [{ migReq 0 0 with started := true }] } : State).migBusy ≠ 0) := by decide +kernel

/-- A SYNC_INC, a SYNC_VAL, a TIME whose offset is exactly 1,000 ns and one of 1,001 ns, and both kinds of MEASURE. -/
theorem witness_SystemMessages :
    (let s := portWith 1 [ctlMsg 6 [(4, 255), (12, 1)]]
     s.isPlanet = true ∧ s.peekCtl 3 (isType 6) = some (ctlMsg 6 [(4, 255), (12, 1)])) ∧
    (let s := moon [ctlMsg 7 [(4, 255), (12, 1)]]
     s.isMoon = true ∧ s.serves = true ∧ s.upstream = some 3 ∧ s.peekCtl 3 (isType 7) = some (ctlMsg 7 [(4, 255), (12, 1)])) ∧
    (∀ n ∈ ([1000, 1001] : List Nat), let m := ctlMsg 8 [(4, n)]
     let s := { moon [m] with time := { base.time with firstTime := false } }
     s.upstream = some 3 ∧ s.peekCtl 3 (isType 8) = some m ∧ s.time.firstTime = false ∧ s.timeOffset 3 m = ((n * 2 ^ 32 : Nat) : Int)) ∧
    (∀ k ∈ [0, 1], let m := ctlMsg 9 [(4, k), (6, 15)]
     let s := portWith 0 [m]
     s.peekCtl 3 (fun m => isType 9 m && decide (wBits m 4 2 = k)) = some m ∧ (s.port 3).measDone < 16) ∧
    (let s := { moon [] with time := { base.time with locked := true } }
     s.isMoon = true ∧ s.link.upValid = true ∧ s.time.locked = true ∧ base.isPlanet = false ∧ base.isMoon = false) := by decide +kernel

/-- A Planet with devices 0 and 9, the second in a state. -/
def planet (ctl : List W64) (e : TopoEnt) : State :=
  let s := portWith 1 ctl
  { s with link := { s.link with topo := [(0, { state := 1, reported := true }), (9, e)] } }

theorem witness_Topology :
    (let s := planet [topoMsg 1 0 3 0 0 0 2] { state := 1, parent := 0, parentPort := 0, reported := true }
     let full := { s with link := { s.link with topo := (List.range 255).map (fun i => (i + 1, { state := 1, parent := 1, reported := true })) } }
     s.isPlanet = true ∧ s.peekCtl 3 (isSub 10 1) = some (topoMsg 1 0 3 0 0 0 2) ∧ tmDev (topoMsg 1 0 3 0 0 0 2) = 0 ∧ s.reforming = false ∧
     s.link.joinWait = [] ∧ s.reportDue = false ∧ s.portUp 3 = true ∧ s.linkKnown 0 3 = false ∧ s.linkKnown 0 0 = true ∧ s.freeDev = some 1 ∧
     full.freeDev = none ∧ full.reportDue = false ∧ full.linkKnown 0 3 = false ∧
     (let s0 := planet [] { state := 1, parent := 0, parentPort := 3, reported := true }
      s0.linkKnown 0 3 = true ∧ s0.reportDue = false ∧ s0.reforming = false ∧ s0.portUp 3 = true) ∧
     (planet [topoMsg 1 0 3 0 0 0 2] { state := 1 }).reportDue = true ∧ (planet [topoMsg 1 9 3 0 0 0 2] { state := 2 }).reforming = true) ∧
    (∀ sub ∈ [3, 5, 6], let m := topoMsg sub 9 3 0 0 0xFF 2
     let e : TopoEnt := if sub = 5 then { state := 2, ask := some (0, 3) } else { state := 1, parent := 9, parentPort := 3 }
     let s := planet [m] e
     s.peekCtl 3 (isSub 10 sub) = some m ∧ (s.topoEnt (tmDev m)).state ≠ 0 ∧ (s.port 3).use = .downstream ∧ s.portUp 3 = true ∧
     (sub = 5 → (s.topoEnt 9).state = 2 ∧ (s.topoEnt 9).ask = some (0, 3))) ∧
    (let s := planet [] { state := 2, ask := some (0, 3) }
     (s.topoEnt (9 : BitVec 8).toNat).state = 2 ∧ (s.topoEnt (9 : BitVec 8).toNat).ask.isSome = true ∧ s.reforming = true) ∧
    (∀ sub ∈ [2, 7], let s := portWith 2 [topoMsg sub 9 3 1 9 0 0]
     s.isMoon = true ∧ s.link.dev = 0 ∧ s.peekCtl 3 (isSub 10 sub) = some (topoMsg sub 9 3 1 9 0 0)) ∧
    (let m := topoMsg 4 9 3 1 9 0 0
     (moon [m]).link.dev ≠ 0 ∧ tmDev m = (moon [m]).link.dev ∧ (moon [m]).peekCtl 3 (isSub 10 4) = some m) ∧
    (let s0 := (asRole 2).setPort 3 { state := .active, partnerRole := 1 }
     let s := { s0 with link := { s0.link with refused := true } }
     s.link.refused = true ∧
     allPorts.find? (fun p => s.portUp p && (decide ((s.port p).partnerRole = 1) || decide ((s.port p).partner ≠ 0))) = some 3) := by
  decide +kernel

theorem witness_PortEvents :
    (∀ st ∈ [PortState.detect, .eq, .align, .measure, .active],
      let x : Port := { state := st, measDone := 16, partnerRole := 2 }
      let s := ((asRole 2).setPort 7 x).setFld (Reg.lnkPortCtl_en.port 7) 1
      (s.port 7).state = st ∧ (s.port 7).state ≠ .off ∧ (s.port 7).state ≠ .down ∧ s.flag (Reg.lnkPortCtl_en.port 7) = true ∧ s.isMoon = true ∧
      s.isPlanet = false ∧ s.link.dev = 0 ∧ (s.port 7).measDone = 16 ∧ (s.port 7).partnerRole ≠ 0 ∧ (s.port 7).foreign = false ∧
      s.link.peerReqs = []) ∧
    (let s := (asRole 1).setPort 7 { state := .measure, measDone := 16, partnerRole := 1 }
     s.isPlanet = true ∧ (s.port 7).partnerRole = 1) ∧
    (let s := (asRole 1).setPort 7 { state := .down, wait1ms := false }
     (s.port 7).state = .down ∧ (s.port 7).wait1ms = false) := by decide +kernel

/-- A device that serves peer accesses to context 0 through port 3. -/
def peerBase (m : DataMsg) : State :=
  ((memBase.setFld Reg.lnkSysCfg_peerMask 1).setFld (Reg.lnkPortCtl_peerEn.port 3) 1).setPort 3 { state := .active, inMsgs := [m] }

theorem witness_PeerMessages :
    (let m := fun (k : Nat) => ({ kind := k, srcCtx := 2, dstCtx := 0, status := 0, tag := 65535, len := 4, addr := 0x100FFC, data := clean [1, 2, 3, 4] } : DataMsg)
     (∀ k ∈ [1, 2], (∀ n ∈ [0, 1], let s := (peerBase (m k)).setFld Reg.lnkSysCfg_peerMask n
       (s.port 3).inMsgs.find? (fun m => decide (m.kind = k)) = some (m k) ∧ s.awake ∧ s.peerServes 3 (m k).dstCtx = decide (n = 1)) ∧
       0 < (m k).len ∧ (m k).data.length = (m k).len ∧ (m k).addr % 4096 + (m k).len ≤ 4096 ∧ (m k).addr + (m k).len ≤ 2 ^ 52) ∧
     (∀ e ∈ piecesOf (m 1).addr (m 1).len, Loc.near ((peerBase (m 1)).readPlace ((peerBase (m 1)).hostView 0) e.1) = true) ∧
     (peerBase (m 2)).landsAt ((peerBase (m 2)).hostView 0) (m 2).addr (kT0 3 0xFFC) ∧ (m 2).read.data = (m 2).data ∧
     (({ m 3 with errs := [(0, 3)] } : DataMsg).read.data ≠ [])) := by
  unfold State.awake State.landsAt
  decide +kernel

/-- A READ the host's loss fails and one it leaves, and an answer to a request of this device. -/
theorem witness_PeerMessages_answers :
    (let m := fun (k : Nat) => ({ kind := k, srcCtx := 2, dstCtx := 0, status := 0, tag := 65535, len := 4, addr := 0x100FFC, data := clean [1, 2, 3, 4] } : DataMsg)
     (let s := peerBase (m 1)
      let u := { s with objs := [(3, { valid := true, base := 0x100, size := 1, share := 1, home := 3 })],
                        pcie := { s.pcie with lostReads := [(0, .tmv, peerSlot 3)] } }
      (s.lostFor 0 .tmv (peerSlot 3) && s.readsHost (s.hostView 0) (m 1).addr (m 1).len) = false ∧
      (u.lostFor 0 .tmv (peerSlot 3) && u.readsHost (u.hostView 0) (m 1).addr (m 1).len) = true ∧ u.awake ∧ u.peerServes 3 0 = true ∧
      ∀ e ∈ piecesOf (m 1).addr (m 1).len, Loc.near (u.readPlace (u.hostView 0) e.1) = true) ∧
     (∀ w ∈ [false, true], let k := if w then 4 else 3
      let r : PeerReq := { port := 3, tag := 65535, ctx := 0, eng := .vec, slot := 0, stream := false, dev := 9, peerCtx := 0, addr := 0, len := 4, write := w }
      let s0 := peerBase (m k)
      let s := { s0 with link := { s0.link with peerReqs := [r] } }
      (s.port 3).inMsgs.find? (fun m => decide (m.kind = k)) = some (m k) ∧ (m k).status = 0 ∧ (m k).data.length = r.len ∧ r.stream = false ∧
      (∀ e ∈ r.newer, e.1 ≠ r.addr + 3) ∧ ({ r with newer := [(1, (0, false))] } : PeerReq).newer = [] ++ (1, (0, false)) :: [] ∧
      s.link.peerReqs.find? (fun r => decide (r.port = 3) && decide (r.tag = (m k).tag) && decide (r.write = w)) = some r ∧ s.portIdle 3)) := by
  unfold State.awake State.portIdle
  decide +kernel

theorem witness_PeerMessages_mgmt :
    (let m := fun (k n : Nat) => ({ kind := k, srcCtx := 0, dstCtx := 0, status := 0, tag := 1, len := 40, addr := 0, data := clean (leBytes 40 n) } : DataMsg)
     let s := fun (k n : Nat) => (moon []).setPort 3 { state := .active, use := .upstream, inMsgs := [m k n] }
     (∀ n ∈ [1, 2 + 9 * 2 ^ 8, 3 + 63 * 2 ^ 8], ((s 5 n).port 3).inMsgs.find? (fun m => decide (m.kind = 5)) = some (m 5 n) ∧ (s 5 n).isMoon = true ∧
       (s 5 n).upstream = some 3 ∧ (wBits ((m 5 n).word 0) 0 8 = 1 ∨ (wBits ((m 5 n).word 0) 0 8 = 2 ∧ wBits ((m 5 n).word 0) 8 8 = (s 5 n).link.dev) ∨
         (wBits ((m 5 n).word 0) 0 8 = 3 ∧ wBits ((m 5 n).word 0) 8 6 = 63)) ∧
       (s 5 n).sec.attQ.length < 16 ∧ (s 5 n).migBusy = 0 ∧ (s 5 n).pwr.stall = []) ∧
     (let t := { s 5 0 with models := [(63, { model63 with stA := .active })], mig := [{ migReq 0 0 with started := true }] }
      (t.model 63).activeSlot = some 0 ∧ (t.model 63).valid = true ∧ (t.model 63).st (1 - 0) = .empty ∧ t.migBusy ≠ 0) ∧
     (let p := { s 6 0x402 with sec := { base.sec with remote := [(3, 1, 0)] } }
      (p.port 3).inMsgs.find? (fun m => decide (m.kind = 6)) = some (m 6 0x402) ∧
      p.sec.remote.find? (fun r => decide (r.1 = 3) && decide (r.2.1 = (m 6 0x402).tag)) = some (3, 1, 0) ∧ wBits ((m 6 0x402).word 0) 8 8 ≠ 3 ∧
      wBits ((m 6 0x302).word 0) 8 8 = 3 ∧ p.reportPlace 0 0 = false) ∧
     (let q0 := s 6 0x302
      let q := { q0 with link := { q0.link with relays := [(0, 7, 3, 1)] } }
      q.sec.remote.find? (fun r => decide (r.1 = 3) && decide (r.2.1 = (m 6 0x302).tag)) = none ∧
      q.link.relays.find? (fun r => decide (r.2.2.1 = 3) && decide (r.2.2.2 = (m 6 0x302).tag)) = some (0, 7, 3, 1))) := by
  decide +kernel

/-- The update record, the security version, the attestation queue with room and full, a Planet's request for device 9. -/
theorem witness_SecurityIsland :
    (let sec : Sec := { state := 2, slot := true, upState := 1, upSlot := false, svn := 63, minSvn := 62 }
     let s := { base with sec := sec }
     ¬(s.sec.state = 2 ∧ s.sec.slot = false) ∧ ¬(s.sec.upState = 1 ∧ s.sec.upSlot ≠ false) ∧ s.sec.state = 2 ∧ s.sec.slot = true ∧ s.sec.upState = 1 ∧
     (let v : W64 := BitVec.ofNat 64 (0x5E3C + 63 * 2 ^ 16)
      wBits v 0 16 = 0x5E3C ∧ s.sec.minSvn < wBits v 16 6 ∧ wBits v 16 6 ≤ s.sec.svn ∧ wBits (0x5E3C : W64) 16 6 ≤ s.sec.minSvn)) ∧
    (9 ≤ (11 : Fin 16).val ∧ (11 : Fin 16).val ≤ 11 ∧ (8 : Fin 16).val < 9 ∧ 11 < (12 : Fin 16).val) ∧
    (let q : AttReq := { src := .pf, kind := 1, mctx := 3, nonce := [0, 0, 0, 0], addr := 0x100000 }
     base.sec.attQ.length < 16 ∧ 16 ≤ ({ base with sec := { base.sec with attQ := List.replicate 16 q } } : State).sec.attQ.length ∧
     (let s := { base with sec := { base.sec with state := 2, attQ := [q] } }
      s.sec.signing = none ∧ s.sec.attQ = q :: [] ∧ s.sec.stage2 = true) ∧
     (let s := { base with sec := { base.sec with signing := some (q, []) } }
      s.sec.signing = some (q, []) ∧ q.src = .pf ∧ s.pwr.stall = [] ∧ s.reportPlace 0 q.addr = false ∧ s.reportPlace 15 q.addr = false) ∧
     (let s := { base with objs := [(3, { valid := true, base := 0x100, size := 10, share := 1 })], sec := { base.sec with signing := some (q, []) } }
      s.awake ∧ s.reportPlace 0 q.addr = true)) ∧
    (let s := planet [] { state := 1, parent := 0, parentPort := 3 }
     (9 : BitVec 8) ≠ 0 ∧ s.isPlanet = true ∧ s.rootPort (9 : BitVec 8).toNat = some 3 ∧ s.portUp 3 = true) ∧
    (base.up = true ∧ base.pcie.d3.getLsbD (base.owner 3).val = false ∧ base.flag Reg.devStatus_ready = true ∧ base.inRecovery = false ∧
     base.hostBehind (base.owner 3) = false ∧ ({ base with aptWait := [.timeNow] } : State).hostBehind (base.owner 3) = true ∧
     (base.setFld Reg.devStatus_ready 0).flag Reg.devStatus_ready = false ∧ (inMode .off).up = false) := by
  unfold State.awake
  decide +kernel

/-- A report whose place lies in a gated bank waits: the request of the physical function stands, and the bank wakes. -/
theorem witness_SecurityIsland_gated :
    let q : AttReq := { src := .pf, kind := 1, mctx := 3, nonce := [0, 0, 0, 0], addr := 0x100000 }
    let s := { withDom 102 .clockGated with
      objs := [(3, { valid := true, base := 0x100, size := 10, share := 1, home := 1 })], sec := { base.sec with signing := some (q, []) } }
    s.pwr.stall = [] ∧ s.reportPlace 0 q.addr = true ∧ s.writePlace (s.hostView 0) q.addr = some (.t1 (kT1 3 0)) ∧
    102 ∈ s.memDoms 1 (.t1 (kT1 3 0)) ∧ s.dom 102 ≠ .on := by decide +kernel

/-! ### The charge array's arithmetic -/

theorem witness_ChargeSumsExact :
    0 < 8 ∧ 0 < 64 ∧ ∀ r ∈ [((-128 : Int), ((1, 0) : Cell2)), (127, (0, 1))], -(2 ^ (8 - 1) : Int) ≤ r.1 ∧ r.1 < 2 ^ (8 - 1) := by decide

/-- R105: weight −3 of INT4 with a stuck cell that forces slice 0 of its positive side to 1. -/
theorem witness_EncodingStoresWeight :
    (-3 : Int).natAbs ≤ encL true ∧ (191 : Int).natAbs ≤ encL false ∧ (encodeW true (-3) [(0, true)] []).isSome = true ∧
    (encodeW true (-3) [(0, true)] []).map (cellVal true) = some (-3) := by decide +kernel

/-! ### Flits -/

/-- The first data flit of a request. -/
def flit1 : DataFlit := { ch := 0, first := true, last := false, payload := clean [1, 2, 3] }

/-- A good data flit with the last sequence number, and one that fails its CRC. -/
theorem witness_Flits_data :
    (decodeDataFlit (encodeDataFlit 65535 flit1)).crcOk = true ∧ (decodeDataFlit []).crcOk = false ∧
    (decodeDataFlit (encodeDataFlit 65535 flit1)).null = false ∧ (decodeDataFlit (encodeDataFlit 65535 flit1)).seq = 65535 ∧
    (let s := base.setPort 3 { state := .active, rxSeq := 65535 }
     s.portUp 3 = true ∧ (s.port 3).rxSeq = 65535 ∧ (s.port 3).granted flit1 = true) ∧ 32768 ≤ (65535 + 65536 - 0) % 65536 :=
  ⟨sent_dataFlit_ok _ _ (by decide +kernel), by decide +kernel⟩

/-- A good control flit with the last sequence number and one that fails its CRC; acknowledgements, requests to replay, credits. -/
theorem witness_Flits_control :
    (decodeCtlFlit (encodeCtlFlit 4095 [ctlMsg 5 [(6, 1)]])).crcOk = true ∧
    (let k := decodeCtlFlit (encodeCtlFlit 4095 [ctlMsg 5 [(6, 1)]])
     let s := base.setPort 3 { state := .active, rxCseq := 4095 }
     k.null = false ∧ k.seq = (s.port 3).rxCseq ∧ k.msgs.all (fun m => decide (msgType m < 10)) = true ∧
     k.msgs.any (fun m => !isType 3 m) = true ∧
     (decodeCtlFlit []).crcOk = false) ∧
    (∀ ty ∈ [1, 2, 3, 4, 5], let s := portWith 0 [ctlMsg ty [(6, 1)]]
     s.portUp 3 = true ∧ s.peekCtl 3 (isType ty) = some (ctlMsg ty [(6, 1)]) ∧ wBits (ctlMsg ty [(6, 1)]) 4 2 = 0 ∧ (s.port 3).nakRun = 0 ∧
     (s.port 3).cnakRun = 0 ∧ (s.port 3).txCtl = [] ∧ (s.port 3).txData = []) :=
  ⟨sent_ctlFlit_ok _ _ (by decide +kernel), by decide +kernel⟩

/-! ### Saving and restoring a context -/

/-- A T0 object of 2 MiB at page 0x100, owned by context 0. -/
def imgBase : State := { base with objs := [(3, { valid := true, base := 0x100, size := 512, share := 1 })] }

/-- CTX_SAVE (5) or CTX_RESTORE (6) of context 1 with its image at that object. -/
def imgWords (op : Nat) : Entry := [BitVec.ofNat 64 (0x300 + op), 0x10000, 0x100000, 1, 0, 0, 0, 1]

/-- The seal of context 1 as it was at reset, at save count 1. -/
def seal1 : Seal := { count := 1, tgt := 1, seed := base.keySeed 1, saved := base.imageOf 1 }

/-- CTX_RESTORE in execution on a device that made that seal. -/
def sealBase : State :=
  { imgBase with running := [running .tmv (imgWords 6)], sec := { imgBase.sec with saveCount := 1, seals := [seal1] } }

/-- CTX_SAVE in execution on the same device. -/
def saveBase : State := { imgBase with running := [running .tmv (imgWords 5)] }

/-- The same with the image at the object. -/
def sealedAt1 : State := sealBase.pokes (kT0 3 0) (sealBytes 1 1)

theorem sealBase_domOn (s : State) (h : s.pwr = sealBase.pwr) (d : Nat) : s.domOn d = true := by
  have : sealBase.domOn d = true := State.awake_domOn _ (by unfold State.awake; decide +kernel) d
  unfold State.domOn State.dom at this ⊢
  rw [h]
  exact this

theorem sealedAt1_eq : sealedAt1 = { sealBase with mem := sealedAt1.mem } := by
  conv => lhs; rw [sealedAt1, State.pokes_eq]
  rfl

/-- Every byte of the object is served from T0. -/
theorem img_read (s : State) (ho : s.objs = sealBase.objs) (hm : s.models = []) (v : View) (hv : v.ctx = 0) (i : Nat)
    (hi : i < 2 ^ 21) : s.readPlace v (0x100000 + i) = some (.t0 (kT0 3 i)) := by
  have h1 : s.objAt v.ctx (0x100000 + i) = some (3, { valid := true, base := 0x100, size := 512, share := 1 }) := by
    rw [hv, State.objAt, ho]
    refine List.find?_cons_of_pos ?_
    simp only [Obj.holds, Bool.and_eq_true, decide_eq_true_eq]
    exact ⟨by decide, by omega, by omega⟩
  have h2 : s.translate v (0x100000 + i) = some (0x100000 + i) := by
    rw [State.translate, hm]
    rfl
  rw [State.readPlace, State.reach, if_neg (by omega), h2]
  simp only [Option.bind_some, h1]
  have h3 : 0x100000 + i - 0x100 * 4096 = i := by omega
  simp [State.readLoc, State.homeLoc, h3]

theorem img_span : sealedAt1.span (running .tmv (imgWords 6)).view 0x100000 (2 ^ 21) = ((sealBytes 1 1).map (fun b => (b, false)), false) := by
  have h : (sealBytes 1 1).map (fun b => (b, false)) = (List.range (2 ^ 21)).map (fun i => (sealedByte 1 1 i, false)) := by
    rw [sealBytes, List.map_map]
    rfl
  rw [h]
  refine State.span_placed _ _ _ _ _ (fun i hi => ?_)
  have hp := img_read sealedAt1 (by rw [sealedAt1_eq]) (by rw [sealedAt1_eq]; rfl) (running .tmv (imgWords 6)).view rfl i hi
  have hx : sealedAt1.inExact 0 = false := by rw [sealedAt1_eq]; decide +kernel
  have hg : SMap.get 0 sealedAt1.mem (kT0 3 0 + i) = sealedByte 1 1 i :=
    State.pokes_get (sealBytes 1 1) sealBase (kT0 3 0) i _ (by rw [sealBytes, List.getElem?_map, List.getElem?_range hi]; rfl)
  have hk : kT0 3 i = kT0 3 0 + i := rfl
  have hw : sealedAt1.wordErr (kT0 3 i) = 0 := by rw [State.wordErr, sealedAt1_eq]; rfl
  have hq : sealedAt1.isPoison (kT0 3 i) = false := by rw [State.isPoison, sealedAt1_eq]; rfl
  have hf : sealedAt1.streamPlace (running .tmv (imgWords 6)).view (0x100000 + i) = some (.t0 (kT0 3 i)) := by
    rw [State.streamPlace, hp, Option.filter_some]
    have : (running .tmv (imgWords 6)).view.ctx = 0 := rfl
    simp [this, hx, Loc.isHost]
  rw [hf, Option.map_some, State.peekLoc, State.peek, hw, hq, hk, hg]
  rfl

theorem report_pwr (s : State) (c : CtxId) (e : Engine) (slot : Nat) (r : Report) : (s.report c e slot r).pwr = s.pwr := rfl

theorem report_link (s : State) (c : CtxId) (e : Engine) (slot : Nat) (r : Report) : (s.report c e slot r).link = s.link := rfl

theorem restore_keeps (s : State) (t : CtxId) (v : Saved) (hm : v.qmem = []) (hp : v.qpoison = []) (ha : v.arms = []) :
    (s.restore t v).pwr = s.pwr ∧ (s.restore t v).link.missing = s.link.missing := by
  have hr : ∀ (l : List (Nat × W64)) (s : State), (s.setRegsAt t l).pwr = s.pwr ∧ (s.setRegsAt t l).link = s.link := by
    intro l
    induction l with
    | nil => exact fun _ => ⟨rfl, rfl⟩
    | cons p l ih => exact fun s => ih _
  have hd : ∀ s : State, (s.div t 7 1).pwr = s.pwr ∧ (s.div t 7 1).link = s.link := fun s => by
    unfold State.div
    split
    · exact ⟨rfl, rfl⟩
    · rw [State.addFld_eq, State.addFld_eq]
      exact ⟨rfl, rfl⟩
  have hz : ∀ (lo hi : Nat) (s : State), (s.zeroFrom lo hi).pwr = s.pwr ∧ (s.zeroFrom lo hi).link = s.link := fun _ _ _ => ⟨rfl, rfl⟩
  have hx : ∀ (s : State) (f : Arming → Bool) (b : Ctx), ((s.removeArms f).setCtx t b).pwr = s.pwr ∧
      ((s.removeArms f).setCtx t b).link.missing = s.link.missing := fun s f b => by
    have hd : ∀ (kept l : List Arming) (s : State), (s.dropReqsOf kept l).pwr = s.pwr ∧
        (s.dropReqsOf kept l).link.missing = s.link.missing := by
      intro kept l
      induction l with
      | nil => exact fun _ => ⟨rfl, rfl⟩
      | cons a l ih =>
        intro s
        unfold State.dropReqsOf
        split
        · exact ih s
        · exact ih _
    exact hd _ _ _
  simp only [State.restore, hm, hp, ha, State.putQueue, State.putPoison, State.installAll]
  rw [(hd _).1, (hd _).2, (hr _ _).1, (hr _ _).2, (hz _ _ _).1, (hz _ _ _).2, (hx _ _ _).1, (hx _ _ _).2]
  exact ⟨rfl, rfl⟩

theorem witness_SaveAndRestore_image :
    (sealedAt1.span (running .tmv (imgWords 6)).view (Entry.pos (running .tmv (imgWords 6)).words 128 52) (2 ^ 21)).2 = false ∧
    anyPoison (sealedAt1.span (running .tmv (imgWords 6)).view (Entry.pos (running .tmv (imgWords 6)).words 128 52) (2 ^ 21)).1 = false ∧
    sealedAt1.sealFor (Entry.target (running .tmv (imgWords 6)).words)
      ((sealedAt1.span (running .tmv (imgWords 6)).view (Entry.pos (running .tmv (imgWords 6)).words 128 52) (2 ^ 21)).1.map Prod.fst) = some seal1 ∧
    sealedAt1.installsOk seal1.saved.installs = true := by
  have hw : Entry.pos (running .tmv (imgWords 6)).words 128 52 = 0x100000 := by decide +kernel
  have ht : Entry.target (running .tmv (imgWords 6)).words = 1 := by decide +kernel
  rw [hw, ht, img_span]
  refine ⟨rfl, by simp [anyPoison], ?_, ?_⟩
  · have hs : sealedAt1.sec.seals = [seal1] := by rw [sealedAt1_eq]; rfl
    have hk : sealedAt1.keySeed 1 = base.keySeed 1 := by rw [sealedAt1_eq]; decide +kernel
    have hb : ((sealBytes 1 1).map (fun b => (b, false))).map Prod.fst = sealBytes 1 1 := by
      rw [List.map_map]; exact List.map_id _
    rw [State.sealFor, hs, hk, hb]
    refine List.find?_cons_of_pos ?_
    simp [seal1]
  · have : seal1.saved.installs = [] := by decide +kernel
    rw [this]
    rfl

theorem pieces_in : ∀ (fuel a n : Nat) (q : Nat × Nat), q ∈ pieces fuel a n → ∃ i, i < n ∧ q.1 = a + i
  | 0, _, _, _, h => by cases h
  | fuel + 1, a, n, q, h => by
    unfold pieces at h
    split at h
    · cases h
    · simp only [List.mem_cons] at h
      rcases h with rfl | h
      · exact ⟨0, by omega, rfl⟩
      · obtain ⟨i, hi, he⟩ := pieces_in fuel _ _ q h
        exact ⟨min n (4096 - a % 4096) + i, by omega, by omega⟩

theorem restoreRun_sealed (x : Exec) (s : State) (t : CtxId) (z : Seal) {a : Nat} (ha : Entry.pos x.words 128 52 = a)
    (ht : Entry.target x.words = t) (h0 : s.noteSpan x.view a (2 ^ 21) = s) (h1 : (s.span x.view a (2 ^ 21)).2 = false)
    (h2 : anyPoison (s.span x.view a (2 ^ 21)).1 = false) (h3 : s.sealFor t ((s.span x.view a (2 ^ 21)).1.map Prod.fst) = some z)
    (h4 : s.installsOk z.saved.installs = true) : restoreRun x s = (s.restore t z.saved).report x.ctx .tmv x.slot {} := by
  generalize hn : 2 ^ 21 = n at h0 h1 h2 h3
  unfold restoreRun
  simp only [ha, ht, hn, h0, h1, h2, h3, h4, Bool.false_eq_true, if_false, if_true]

theorem witness_SaveAndRestore :
    (let s := saveBase
     let x := running .tmv (imgWords 5)
     s.canRun 0 .tmv 5 5 x ∧ s.migAll.any (fun m => decide (m.ctx = Entry.target x.words)) = false ∧
     (s.ctx (Entry.target x.words)).tailBuf = [] ∧ s.workReady (engineDoms .tmv) (saveRun x)) ∧
    sealedAt1.canRun 0 .tmv 5 6 (running .tmv (imgWords 6)) ∧
    sealedAt1.workReady (engineDoms .tmv) (restoreRun (running .tmv (imgWords 6))) := by
  refine ⟨⟨?_, by decide +kernel, by decide +kernel, ?_⟩, ?_, ?_⟩
  · unfold State.canRun; decide +kernel
  · have hd : ∀ (t : State), t.pwr = sealBase.pwr → ∀ d, t.domOn d = true := sealBase_domOn
    show (State.workReady saveBase (engineDoms .tmv) (saveRun (running .tmv (imgWords 5))))
    unfold State.workReady
    rw [State.touch_on saveBase _ (fun d _ => hd _ rfl d)]
    unfold saveRun
    simp only []
    split
    · exact ⟨by decide +kernel, by decide +kernel⟩
    · have hn : saveBase.noteQueues (Entry.target (running .tmv (imgWords 5)).words) = saveBase := rfl
      rw [report_pwr, report_link, hn]
      unfold State.writeBytes
      have hs : ∀ z, State.domOn { saveBase with sec := z } = sealBase.domOn := fun _ => rfl
      rw [(State.writeL_keeps _ _ _ _ _ (fun d => by rw [hs]; exact hd _ rfl d)).1,
        (State.writeL_keeps _ _ _ _ _ (fun d => by rw [hs]; exact hd _ rfl d)).2]
      exact ⟨by decide +kernel, by decide +kernel⟩
  · rw [sealedAt1_eq]; unfold State.canRun; decide +kernel
  · have hd := sealBase_domOn sealedAt1 (by rw [sealedAt1_eq])
    have hp : ∀ q ∈ piecesOf 0x100000 (2 ^ 21), ∃ k, sealedAt1.readPlace (running .tmv (imgWords 6)).view q.1 = some (.t0 k) := by
      intro q hq
      obtain ⟨i, hi, h⟩ := pieces_in _ _ _ q hq
      exact ⟨_, by rw [h]; exact img_read sealedAt1 (by rw [sealedAt1_eq]) (by rw [sealedAt1_eq]; rfl) _ rfl i hi⟩
    have hx : sealedAt1.inExact 0 = false := by rw [sealedAt1_eq]; decide +kernel
    have hc : sealedAt1.noteSpan (running .tmv (imgWords 6)).view 0x100000 (2 ^ 21) = sealedAt1 := by
      have hf : (piecesOf 0x100000 (2 ^ 21)).find? (fun p => (sealedAt1.streamPlace (running .tmv (imgWords 6)).view p.1).isNone) = none := by
        refine List.find?_eq_none.mpr (fun q hq => ?_)
        obtain ⟨k, hk⟩ := hp q hq
        rw [State.streamPlace, hk, Option.filter_some]
        have : (running .tmv (imgWords 6)).view.ctx = 0 := rfl
        simp [this, hx, Loc.isHost]
      rw [State.noteSpan]
      simp only [hf, Option.any_none, Bool.false_eq_true, if_false]
      exact State.noteReadL_clean _ hd (by rw [sealedAt1_eq]; rfl) _ _ _
        (fun q hq => hp q ((List.takeWhile_prefix _).subset hq))
    have hw : Entry.pos (running .tmv (imgWords 6)).words 128 52 = 0x100000 := by decide +kernel
    have ht : Entry.target (running .tmv (imgWords 6)).words = 1 := by decide +kernel
    have hf : sealedAt1.pwr.stall = [] ∧ sealedAt1.link.missing = [] := by rw [sealedAt1_eq]; exact ⟨by decide +kernel, by decide +kernel⟩
    obtain ⟨h1, h2, h3, h4⟩ := witness_SaveAndRestore_image
    rw [hw] at h1 h2 h3
    rw [ht] at h3
    have hq := restore_keeps sealedAt1 1 seal1.saved (by decide +kernel) (by decide +kernel) (by decide +kernel)
    unfold State.workReady
    rw [State.touch_on _ _ (fun d _ => hd d), restoreRun_sealed _ _ _ _ hw ht hc h1 h2 h3 h4, report_pwr, report_link, hq.1, hq.2]
    exact hf

/-- R15: a MATMUL that ends with a class 0x2_ status leaves the arming it attached in its slot, without a consumer; one that ends OK
retires it (R220). -/
theorem test_rejectedKeepsItsStream :
    (let w : Entry := [1, 0x10000, 0x200000, 0, 0, 0, 0, 1]
     let a : Arming := { ctx := 0, eng := .mxe, slot := 0, desc := {}, consumer := some (.mxe, 5) }
     let s := fun (st : Status) => { memBase with running := [{ running .mxe w with result := some { status := st } }], armings := [a] }
     (nextOf (exec (.commandComplete 0 .mxe) (s .illegalCommand))).map (·.armings) = some [{ a with consumer := none }] ∧
     (nextOf (exec (.commandComplete 0 .mxe) (s .ok))).map (·.armings) = some []) := by
  decide +kernel

/-- A descrambler that starts with other lane bits than the scrambler had gives the data back from the 59th bit on (R352). -/
theorem test_scrambler_synchronises :
    let data := (List.range 128).map (fun i => decide (i % 3 = 0))
    (laneRun descrambleBit 5 (laneRun scrambleBit 0x155 data)).drop 58 = data.drop 58 ∧
    laneRun scrambleBit 0x155 data ≠ data := by
  decide +kernel

end Sys2Proof.Tests
end

section
/-! PROOFS. The charge array's sums are exact (R77, R79). One rule for each stage of the array: a bit-step's counts, the recombination
of the bit-steps of one row group, and the group loop of a tile. -/

namespace Sys2Proof.Machine

/-! ### Two's-complement inputs (R77) -/

/-- The integers that `b`-bit two's complement holds. -/
def FitsBits (b : Nat) (x : Int) : Prop := -(2 ^ (b - 1) : Int) ≤ x ∧ x < 2 ^ (b - 1)

/-- The place value of bit j of a `b`-bit two's-complement input: the top bit counts negatively (R77). -/
def bitWt (b j : Nat) : Int := (if j + 1 = b then -1 else 1) * (2 ^ j : Nat)

theorem bitWt_top (n : Nat) : bitWt (n + 1) n = -(2 ^ n : Nat) := by simp [bitWt]

theorem bitWt_below {n j : Nat} (h : j < n) : bitWt (n + 1) j = (2 ^ j : Nat) := by
  simp [bitWt, h.ne]

theorem b2n_and (c d : Bool) : b2n (c && d) = b2n c * b2n d := by cases c <;> cases d <;> rfl

/-- A residue modulo the next power of two takes in one more bit. -/
theorem mod_two_pow_succ_eq (v n : Nat) : v % 2 ^ (n + 1) = v % 2 ^ n + 2 ^ n * b2n (v.testBit n) := by
  rw [Nat.mod_pow_succ, ← Nat.toNat_testBit]
  cases v.testBit n <;> rfl

/-- The low bits of a number, each at its place, add up to its residue. -/
theorem sum_testBit (v : Nat) : ∀ n : Nat, ((List.range n).map (fun j => 2 ^ j * b2n (v.testBit j))).sum = v % 2 ^ n
  | 0 => by simp [Nat.mod_one]
  | n + 1 => by
    rw [List.range_succ, List.map_append, List.sum_append, sum_testBit v n, mod_two_pow_succ_eq]
    simp

/-- R77's sum over the bits of a field is the field's signed value. -/
theorem sum_bitWt_testBit (v : Nat) {b : Nat} (hb : 0 < b) :
    ((List.range b).map (fun j => bitWt b j * b2n (v.testBit j))).sum = signed b v := by
  obtain ⟨n, rfl⟩ := Nat.exists_eq_add_one.mpr hb
  have below : ((List.range n).map (fun j => bitWt (n + 1) j * b2n (v.testBit j))).sum = ((v % 2 ^ n : Nat) : Int) := by
    rw [← sum_testBit v n, Nat.cast_list_sum, List.map_map]
    refine congrArg List.sum (List.map_congr_left fun j hj => ?_)
    simp [bitWt_below (List.mem_range.mp hj)]
  have hlt : v % 2 ^ n < 2 ^ n := Nat.mod_lt _ (by positivity)
  rw [List.range_succ, List.map_append, List.sum_append, below]
  simp only [List.map_cons, List.map_nil, List.sum_cons, List.sum_nil, bitWt_top, signed, Nat.add_sub_cancel, mod_two_pow_succ_eq]
  cases v.testBit n with
  | false => simp [b2n, hlt]
  | true => simp [b2n, pow_succ]; ring

theorem unsigned_cast (b : Nat) (x : Int) : (unsigned b x : Int) = x % (2 ^ b : Nat) :=
  Int.toNat_of_nonneg (Int.emod_nonneg _ (by positivity))

/-- A field of two's complement reads back as the integer it was made from. -/
theorem signed_unsigned {b : Nat} {x : Int} (hb : 0 < b) (hx : FitsBits b x) : signed b (unsigned b x) = x := by
  obtain ⟨n, rfl⟩ := Nat.exists_eq_add_one.mpr hb
  obtain ⟨hlo, hhi⟩ : -(2 ^ n : Nat) ≤ x ∧ x < (2 ^ n : Nat) := by simpa [FitsBits] using hx
  have hpow : 2 ^ (n + 1) = 2 * 2 ^ n := pow_succ' 2 n
  have hcast := unsigned_cast (n + 1) x
  rw [signed, Nat.add_sub_cancel, hpow]
  rw [hpow] at hcast
  rcases lt_or_ge x 0 with hneg | hpos
  · rw [← Int.add_emod_right, Int.emod_eq_of_lt (by omega) (by omega)] at hcast
    rw [Nat.mod_eq_of_lt (by omega), if_neg (by omega)]
    omega
  · rw [Int.emod_eq_of_lt hpos (by omega)] at hcast
    rw [Nat.mod_eq_of_lt (by omega), if_pos (by omega)]
    exact hcast

/-- R77: the bits that the bit-steps drive stand for the input. -/
theorem sum_bitWt_inBit {b : Nat} {x : Int} (hb : 0 < b) (hx : FitsBits b x) :
    ((List.range b).map (fun j => bitWt b j * b2n (inBit b x j))).sum = x :=
  (sum_bitWt_testBit _ hb).trans (signed_unsigned hb hx)

/-! ### One bit-step of a row group -/

/-- What one bit-step adds up over the slices: the counts of the two columns of each slice, at the slice's weight. -/
def stepSum (int4 : Bool) (b j : Nat) (rows : List (Int × Cell2)) : Int :=
  ((sliceWt int4).zipIdx.map (fun p =>
    (p.1 : Int) * ((colCount b j Prod.fst p.2 rows : Int) - (colCount b j Prod.snd p.2 rows : Int)))).sum

theorem groupValue_eq_sum_stepSum (int4 : Bool) (b : Nat) (rows : List (Int × Cell2)) :
    groupValue int4 b rows = ((List.range b).map (fun j => bitWt b j * stepSum int4 b j rows)).sum := rfl

@[simp] theorem colCount_nil (b j : Nat) (sel : Cell2 → Nat) (k : Nat) : colCount b j sel k [] = 0 := rfl

theorem colCount_cons (b j : Nat) (sel : Cell2 → Nat) (k : Nat) (r : Int × Cell2) (rows : List (Int × Cell2)) :
    colCount b j sel k (r :: rows) = b2n (inBit b r.1 j) * b2n ((sel r.2).testBit k) + colCount b j sel k rows := by
  unfold colCount
  rw [← b2n_and, List.filter_cons]
  split
  case isTrue h => rw [h, List.length_cons, Nat.add_comm]; rfl
  case isFalse h => simp [h, b2n]

@[simp] theorem stepSum_nil (int4 : Bool) (b j : Nat) : stepSum int4 b j [] = 0 := by simp [stepSum]

theorem sideVal_cast (int4 : Bool) (bits : Nat) :
    (sideVal int4 bits : Int) = ((sliceWt int4).zipIdx.map (fun p => (p.1 : Int) * b2n (bits.testBit p.2))).sum := by
  rw [sideVal, Nat.cast_list_sum, List.map_map]
  exact congrArg List.sum (List.map_congr_left fun p _ => Nat.cast_mul p.1 _)

/-- The weight of a cell, slice by slice (R75). -/
theorem cellVal_eq_sum (int4 : Bool) (c : Cell2) :
    cellVal int4 c =
      ((sliceWt int4).zipIdx.map (fun p => (p.1 : Int) * ((b2n (c.1.testBit p.2) : Int) - (b2n (c.2.testBit p.2) : Int)))).sum := by
  rw [cellVal, sub_eq_iff_eq_add, sideVal_cast, sideVal_cast, ← List.sum_map_add]
  simp only [mul_sub, sub_add_cancel]

theorem stepSum_cons (int4 : Bool) (b j : Nat) (r : Int × Cell2) (rows : List (Int × Cell2)) :
    stepSum int4 b j (r :: rows) = b2n (inBit b r.1 j) * cellVal int4 r.2 + stepSum int4 b j rows := by
  rw [cellVal_eq_sum, ← List.sum_map_mul_left, stepSum, stepSum, ← List.sum_map_add]
  refine congrArg List.sum (List.map_congr_left fun p _ => ?_)
  rw [colCount_cons, colCount_cons]
  push_cast
  ring

/-! ### One row group (R79) -/

@[simp] theorem groupValue_nil (int4 : Bool) (b : Nat) : groupValue int4 b [] = 0 := by
  simp [groupValue_eq_sum_stepSum]

theorem groupValue_cons (int4 : Bool) {b : Nat} (hb : 0 < b) (r : Int × Cell2) (rows : List (Int × Cell2)) (hr : FitsBits b r.1) :
    groupValue int4 b (r :: rows) = r.1 * cellVal int4 r.2 + groupValue int4 b rows := by
  have input : ((List.range b).map (fun j => bitWt b j * b2n (inBit b r.1 j) * cellVal int4 r.2)).sum = r.1 * cellVal int4 r.2 := by
    rw [List.sum_map_mul_right, sum_bitWt_inBit hb hr]
  simp only [groupValue_eq_sum_stepSum, stepSum_cons, mul_add, List.sum_map_add, ← mul_assoc, input]

theorem groupValue_eq_sum (int4 : Bool) {b : Nat} (hb : 0 < b) (rows : List (Int × Cell2)) (hr : ∀ r ∈ rows, FitsBits b r.1) :
    groupValue int4 b rows = (rows.map (fun r => r.1 * cellVal int4 r.2)).sum := by
  induction rows with
  | nil => simp
  | cons r rows ih =>
    obtain ⟨hr, hrs⟩ := List.forall_mem_cons.mp hr
    rw [groupValue_cons int4 hb r rows hr, ih hrs, List.map_cons, List.sum_cons]

/-! ### The group loop of a tile (R79) -/

/-- What the row with number `p.2` of a tile adds to the accumulator: x · w · 2^s, with the shift of the sector in which its group of `gr`
rows begins. -/
def rowTerm (int4 : Bool) (gr : Nat) (shift : Nat → Nat) (p : (Int × Cell2) × Nat) : Int :=
  p.1.1 * cellVal int4 p.1.2 * (2 ^ shift (p.2 / gr * gr / 64) : Nat)

/-- The rows of one group share its shift. -/
theorem sum_rowTerm_group (int4 : Bool) {gr : Nat} (shift : Nat → Nat) (g : Nat) (rows : List (Int × Cell2)) (hlen : rows.length ≤ gr) :
    ((rows.zipIdx (g * gr)).map (rowTerm int4 gr shift)).sum =
      (rows.map (fun r => r.1 * cellVal int4 r.2)).sum * (2 ^ shift (g * gr / 64) : Nat) := by
  have hterm : ∀ p ∈ rows.zipIdx (g * gr),
      rowTerm int4 gr shift p = p.1.1 * cellVal int4 p.1.2 * (2 ^ shift (g * gr / 64) : Nat) := by
    intro p hp
    have hrange := List.mem_zipIdx hp
    have hg : p.2 / gr = g := Nat.div_eq_of_lt_le (by omega) (by rw [Nat.succ_mul]; omega)
    rw [rowTerm, hg]
  rw [List.map_congr_left hterm, ← List.sum_map_mul_right]
  conv_rhs => rw [← List.zipIdx_map_fst (g * gr) rows, List.map_map]
  rfl

theorem tileAccFrom_cons (int4 : Bool) (b gr : Nat) (shift : Nat → Nat) (fuel g : Nat) (r : Int × Cell2) (l : List (Int × Cell2)) :
    tileAccFrom int4 b gr shift (fuel + 1) g (r :: l) =
      groupValue int4 b ((r :: l).take gr) * (2 ^ shift (g * gr / 64) : Nat)
        + tileAccFrom int4 b gr shift fuel (g + 1) ((r :: l).drop gr) := rfl

/-- Cutting a group off the front leaves every row its number. -/
theorem zipIdx_take_append_drop {α : Type} (gr i : Nat) (rows : List α) :
    (rows.take gr).zipIdx i ++ (rows.drop gr).zipIdx (i + gr) = rows.zipIdx i := by
  rcases le_total gr rows.length with h | h
  · conv_rhs => rw [← List.take_append_drop gr rows, List.zipIdx_append, List.length_take_of_le h]
  · simp [List.take_of_length_le h, List.drop_of_length_le h]

theorem tileAccFrom_eq_sum (int4 : Bool) {b gr : Nat} (shift : Nat → Nat) (hb : 0 < b) (hgr : 0 < gr) :
    ∀ (fuel g : Nat) (rows : List (Int × Cell2)), rows.length ≤ fuel → (∀ r ∈ rows, FitsBits b r.1) →
      tileAccFrom int4 b gr shift fuel g rows = ((rows.zipIdx (g * gr)).map (rowTerm int4 gr shift)).sum := by
  intro fuel
  induction fuel with
  | zero =>
    intro g rows hlen _
    rw [List.eq_nil_of_length_eq_zero (Nat.le_zero.mp hlen)]
    rfl
  | succ fuel ih =>
    intro g rows hlen hr
    cases rows with
    | nil => rfl
    | cons r l =>
      have hrest : ((r :: l).drop gr).length ≤ fuel := by
        rw [List.length_drop]
        omega
      rw [tileAccFrom_cons, groupValue_eq_sum int4 hb _ (fun p hp => hr p (List.mem_of_mem_take hp)),
        ih (g + 1) _ hrest (fun p hp => hr p (List.mem_of_mem_drop hp)),
        ← sum_rowTerm_group int4 shift g _ (List.length_take_le gr _), ← List.sum_append, ← List.map_append, Nat.succ_mul,
        zipIdx_take_append_drop]

/-- Settles O59: a group's counts recombine row by row, and the group loop adds up the groups. -/
theorem chargeSumsExact : Obligations.ChargeSumsExact := by
  unfold Obligations.ChargeSumsExact
  intro int4 b gr shift rows hb hgr hrows
  refine ⟨groupValue_eq_sum int4 hb rows hrows, ?_⟩
  have h := tileAccFrom_eq_sum int4 shift hb hgr rows.length 0 rows le_rfl hrows
  rwa [Nat.zero_mul] at h

end Sys2Proof.Machine
end

section
/-! PROOFS. Sync counters (R188, R199, R201). One rule for each stage of a counter write: the release of the held heads, the counter that is
stored, and the SYNC_VAL that a Planet sends on every downstream link. -/

namespace Sys2Proof.Machine

open Sys2Proof

/-! ### The release of held heads (R188) -/

@[simp] theorem State.ctx_release (s : State) (c : CtxId) :
    s.release.ctx c = { s.ctx c with queues := (s.ctx c).queues.map (s.releaseHead c) } := by
  simp [State.release, State.ctx]

@[simp] theorem State.syncVal_release (s : State) (c : CtxId) (n : Nat) : s.release.syncVal c n = s.syncVal c n := by
  simp [State.syncVal]

@[simp] theorem State.queue_release (s : State) (c : CtxId) (e : Engine) : s.release.queue c e = s.releaseHead c (s.queue c e) := by
  simp [State.queue]

/-- A head that waits is released exactly when its wait is met. -/
theorem State.releaseHead_dec_of_held {s : State} {c : CtxId} {q : Queue} {w : Entry} {f : Fate} (h : q.dec = .held w false f) :
    (s.releaseHead c q).dec = .held w (s.waitMet c w) f := by
  cases hw : s.waitMet c w <;> simp [State.releaseHead, h, hw]

theorem State.waitMet_of_not_waitEn (s : State) (c : CtxId) {w : Entry} (h : Entry.waitEn w = false) : s.waitMet c w = true := by
  simp [State.waitMet, h]

theorem State.waitMet_ctxCounter (s : State) (c : CtxId) {w : Entry} (he : Entry.waitEn w = true) (hs : Entry.waitSys w = false) :
    s.waitMet c w = waitReleased (s.syncVal c (Entry.waitIdx w)) (Entry.waitTarget w) := by
  simp [State.waitMet, he, hs]

theorem State.waitMet_sysCounter (s : State) (c : CtxId) {w : Entry} (he : Entry.waitEn w = true) (hs : Entry.waitSys w = true) :
    s.waitMet c w = waitReleased (SMap.get 0 s.sysCnt (Entry.waitIdx w)) (Entry.waitTarget w) := by
  simp [State.waitMet, he, hs]

/-! ### A context counter is set (R199) -/

@[simp] theorem State.syncVal_setSync_self (s : State) (c : CtxId) (n : Nat) (v : BitVec 32) : (s.setSync c n v).syncVal c n = v := by
  rw [State.setSync, State.syncVal_release, State.syncVal, State.ctx_updCtx_self, SMap.get_put_self]

theorem State.syncVal_setSync_other (s : State) {c d : CtxId} {n k : Nat} (v : BitVec 32) (h : d ≠ c ∨ k ≠ n) :
    (s.setSync c n v).syncVal d k = s.syncVal d k := by
  rw [State.setSync, State.syncVal_release]
  by_cases hd : d = c
  · subst hd
    rw [State.syncVal, State.ctx_updCtx_self]
    exact SMap.get_put_other _ _ _ (h.resolve_left (not_not_intro rfl))
  · rw [State.syncVal, State.ctx_updCtx_other s _ hd, State.syncVal]

/-- R188 for a head that waits on the counter that is set. -/
theorem State.queue_setSync_dec (s : State) {c : CtxId} {e : Engine} {w : Entry} {f : Fate} {n : Nat} (v : BitVec 32)
    (h : (s.queue c e).dec = .held w false f) (he : Entry.waitEn w = true) (hs : Entry.waitSys w = false) (hn : Entry.waitIdx w = n) :
    ((s.setSync c n v).queue c e).dec = .held w (waitReleased v (Entry.waitTarget w)) f := by
  rw [State.setSync, State.queue_release, State.releaseHead_dec_of_held (w := w) (f := f) (by simpa [State.queue] using h),
    State.waitMet_ctxCounter _ c he hs, hn, State.syncVal, State.ctx_updCtx_self, SMap.get_put_self]

/-! ### A control message sent on a port stays there (R356, R360) -/

theorem mem_queueCtl_self (q : List W64) {m : W64} (h6 : msgType m ≠ 6) : m ∈ queueCtl q m := by
  simp only [queueCtl, h6, false_and, if_false]
  split
  case isTrue h =>
    obtain ⟨x, hx, hsame⟩ := List.any_eq_true.mp h.2
    exact List.mem_map.mpr ⟨x, hx, if_pos hsame⟩
  case isFalse => exact List.mem_append_right _ (List.mem_singleton_self m)

/-- The message that is picked leaves the queue; every other one stays. -/
theorem Port.mem_of_pickCtl {x : Port} {m y : W64} {q : List W64} (h : x.pickCtl = some (y, q)) (hm : m ∈ x.txCtl) : m = y ∨ m ∈ q := by
  obtain ⟨z, -, hz⟩ := Option.map_eq_some_iff.mp h
  obtain ⟨rfl, rfl⟩ := Prod.mk.inj hz
  by_cases hmz : m = z
  · exact .inl hmz
  · exact .inr ((List.mem_erase_of_ne hmz).mpr hm)

/-- Filling a flit loses no message. -/
theorem Port.mem_fillCtl {m : W64} : ∀ (n : Nat) {x : Port}, m ∈ x.txCtl → m ∈ (x.fillCtl n).1 ∨ m ∈ (x.fillCtl n).2.txCtl
  | 0, _, hm => .inr hm
  | n + 1, x, hm => by
    unfold Port.fillCtl
    split
    case h_1 => exact .inr hm
    case h_2 y q hpick =>
      rcases Port.mem_of_pickCtl hpick hm with rfl | hq
      · exact .inl List.mem_cons_self
      · exact (Port.mem_fillCtl n hq).imp_left (List.mem_cons_of_mem _)

@[simp] theorem Port.creplay_fillCtl : ∀ (n : Nat) (x : Port), (x.fillCtl n).2.creplay = x.creplay
  | 0, _ => rfl
  | n + 1, x => by
    unfold Port.fillCtl
    split
    case h_1 => rfl
    case h_2 => exact Port.creplay_fillCtl n _

@[simp] theorem State.port_emit (s : State) (o : Out) (p : PortId) : (s.emit o).port p = s.port p := rfl

/-- A message that no flit rewrites is still carried once a flit has left. -/
theorem State.carries_sentCtl {s : State} {p : PortId} {m : W64} (h8 : msgType m ≠ 8) (h : s.carries p m) (o : Out) :
    ((s.setPort p (((s.port p).fillCtl 3).2.sentCtl (((s.port p).fillCtl 3).1.map s.atSend))).emit o).carries p m := by
  simp only [State.carries, State.port_emit, State.port_setPort_self, Port.sentCtl, Port.creplay_fillCtl]
  rcases h with hq | ⟨e, he, hm⟩
  · rcases Port.mem_fillCtl 3 hq with hsent | hleft
    · exact .inr ⟨_, List.mem_append_right _ (List.mem_singleton_self _), List.mem_map.mpr ⟨m, hsent, if_neg h8⟩⟩
    · exact .inl hleft
  · exact .inr ⟨e, List.mem_append_left _ he, hm⟩

theorem State.carries_pumpCtl {p : PortId} {m : W64} (h8 : msgType m ≠ 8) :
    ∀ (fuel : Nat) {s : State}, s.carries p m → (s.pumpCtl p fuel).carries p m
  | 0, _, h => h
  | fuel + 1, s, h => by
    simp only [State.pumpCtl]
    split
    · exact h
    · split
      · exact h
      · exact State.carries_pumpCtl h8 fuel (State.carries_sentCtl h8 h _)

theorem State.carries_sendCtl_self (s : State) (p : PortId) {m : W64} (h6 : msgType m ≠ 6) (h8 : msgType m ≠ 8) :
    (s.sendCtl p m).carries p m := by
  refine State.carries_pumpCtl h8 _ (.inl ?_)
  rw [State.port_updPort_self]
  exact mem_queueCtl_self _ h6

/-! ### The other ports of a send -/

theorem State.port_wakePort_other (s : State) {p q : PortId} (h : q ≠ p) : (s.wakePort (108 + p.val)).port q = s.port q := by
  have hp : Fin.ofNat 8 (108 + p.val - 108) = p := by simp
  simp only [State.wakePort, hp]
  split
  · exact State.port_setPort_other s _ h
  · rfl

theorem State.port_wakeDom_other (s : State) {p q : PortId} (h : q ≠ p) : (s.wakeDom (108 + p.val)).port q = s.port q := by
  unfold State.wakeDom
  split
  · rfl
  · exact State.port_wakePort_other _ h
  · split
    · rfl
    · exact State.port_wakePort_other _ h
  · rfl

theorem State.port_pumpCtl_other {p q : PortId} (h : q ≠ p) : ∀ (fuel : Nat) (s : State), (s.pumpCtl p fuel).port q = s.port q
  | 0, _ => rfl
  | fuel + 1, s => by
    simp only [State.pumpCtl]
    split
    · rfl
    · split
      · rfl
      · rw [State.port_pumpCtl_other h fuel, State.port_emit, State.port_setPort_other s _ h]

theorem State.port_sendCtl_other (s : State) {p q : PortId} (m : W64) (h : q ≠ p) : (s.sendCtl p m).port q = s.port q := by
  rw [State.sendCtl, State.port_pumpCtl_other h, State.port_updPort_other _ _ h, State.port_wakeDom_other s h]

/-! ### A message sent on several ports -/

theorem State.port_sendCtlAll_other {q : PortId} (m : W64) :
    ∀ (ps : List PortId) (s : State), q ∉ ps → (s.sendCtlAll m ps).port q = s.port q
  | [], _, _ => rfl
  | p :: l, s, h => by
    obtain ⟨hp, hl⟩ := not_or.mp (mt List.mem_cons.mpr h)
    rw [State.sendCtlAll, State.port_sendCtlAll_other m l _ hl, State.port_sendCtl_other s m hp]

theorem State.carries_sendCtlAll {q : PortId} {m : W64} (h6 : msgType m ≠ 6) (h8 : msgType m ≠ 8) (ps : List PortId) (s : State)
    (h : q ∈ ps) : (s.sendCtlAll m ps).carries q m := by
  induction ps generalizing s with
  | nil => cases h
  | cons p l ih =>
    rw [State.sendCtlAll]
    by_cases hl : q ∈ l
    · exact ih _ hl
    · obtain rfl := (List.mem_cons.mp h).resolve_right hl
      rw [State.carries, State.port_sendCtlAll_other m l _ hl]
      exact State.carries_sendCtl_self s q h6 h8

/-- With every port's domain on, a message wakes none. -/
theorem State.pwr_sendCtlAll_of_portsOn (m : W64) : ∀ (ps : List PortId) (s : State), s.portsOn → (s.sendCtlAll m ps).pwr = s.pwr
  | [], _, _ => rfl
  | p :: l, s, h => by
    have hpwr : (s.sendCtl p m).pwr = s.pwr := by rw [State.sendCtl_on s p (h p)]
    have hon : (s.sendCtl p m).portsOn := fun q => by rw [State.dom, hpwr]; exact h q
    rw [State.sendCtlAll, State.pwr_sendCtlAll_of_portsOn m l _ hon, hpwr]

theorem State.sent_sendCtlAll (s : State) (m : W64) (ps : List PortId) : s.sent (s.sendCtlAll m ps) :=
  ⟨by conv_lhs => rw [State.sendCtlAll_eq m ps s], State.pwr_sendCtlAll_of_portsOn m ps s⟩

theorem msgType_syncValMsg (n : Nat) (v : BitVec 32) : msgType (syncValMsg n v) = 7 := by
  simp only [msgType, syncValMsg, ctlMsg, wBits, bitsOf, BitVec.toNat_ofNat, List.map_cons, List.map_nil, List.sum_cons, List.sum_nil]
  omega

/-! ### A system counter is set (R201) -/

/-- The counter is stored and the heads that wait on it are released; what a Planet then sends comes after it. -/
def State.storeSys (s : State) (n : Nat) (v : BitVec 32) : State := ({ s with sysCnt := SMap.put 0 s.sysCnt n v }).release

theorem State.setSys_of_not_planet {s : State} (h : s.isPlanet = false) (n : Nat) (v : BitVec 32) : s.setSys n v = s.storeSys n v :=
  if_neg (by simpa [State.isPlanet] using h)

theorem State.setSys_of_planet {s : State} (h : s.isPlanet = true) (n : Nat) (v : BitVec 32) :
    s.setSys n v = (s.storeSys n v).sendCtlAll (syncValMsg n v) s.downstream := if_pos h

/-- Beyond storing the counter, setting it only sends. -/
theorem State.sent_setSys (s : State) (n : Nat) (v : BitVec 32) : (s.storeSys n v).sent (s.setSys n v) := by
  cases h : s.isPlanet with
  | false =>
    rw [State.setSys_of_not_planet h]
    exact ⟨rfl, fun _ => rfl⟩
  | true =>
    rw [State.setSys_of_planet h]
    exact State.sent_sendCtlAll _ _ _

theorem State.sysCnt_setSys (s : State) (n : Nat) (v : BitVec 32) : (s.setSys n v).sysCnt = SMap.put 0 s.sysCnt n v := by
  rw [(State.sent_setSys s n v).1]
  rfl

theorem State.ctxs_setSys (s : State) (n : Nat) (v : BitVec 32) : (s.setSys n v).ctxs = (s.storeSys n v).ctxs := by
  rw [(State.sent_setSys s n v).1]

@[simp] theorem State.syncVal_setSys (s : State) (n : Nat) (v : BitVec 32) (d : CtxId) (k : Nat) :
    (s.setSys n v).syncVal d k = s.syncVal d k := by
  rw [State.syncVal, State.ctx, State.ctxs_setSys]
  exact State.syncVal_release _ d k

theorem State.queue_setSys (s : State) (n : Nat) (v : BitVec 32) (c : CtxId) (e : Engine) :
    (s.setSys n v).queue c e = (s.storeSys n v).queue c e := by
  rw [State.queue, State.ctx, State.ctxs_setSys, State.queue, State.ctx]

/-- R188 for a head that waits on the system counter that is set. -/
theorem State.queue_setSys_dec (s : State) {c : CtxId} {e : Engine} {w : Entry} {f : Fate} {n : Nat} (v : BitVec 32)
    (h : (s.queue c e).dec = .held w false f) (he : Entry.waitEn w = true) (hs : Entry.waitSys w = true) (hn : Entry.waitIdx w = n) :
    ((s.setSys n v).queue c e).dec = .held w (waitReleased v (Entry.waitTarget w)) f := by
  rw [State.queue_setSys, State.storeSys, State.queue_release, State.releaseHead_dec_of_held (w := w) (f := f) (by exact h),
    State.waitMet_sysCounter _ c he hs, hn, SMap.get_put_self]

theorem State.carries_setSys {s : State} (h : s.isPlanet = true) (n : Nat) (v : BitVec 32) {q : PortId} (hq : q ∈ s.downstream) :
    (s.setSys n v).carries q (syncValMsg n v) := by
  rw [State.setSys_of_planet h]
  exact State.carries_sendCtlAll (by simp [msgType_syncValMsg]) (by simp [msgType_syncValMsg]) _ _ hq

/-! ### The commands -/

theorem exec_syncAdd (c : CtxId) (v : W64) (s : State) :
    exec (.syncAdd c v) s = .next (s.setSync c (wBits v 0 8) (s.syncVal c (wBits v 0 8) + BitVec.ofNat 32 (wBits v 32 32))) := rfl

theorem exec_syncCounterWrite (c : CtxId) (n : Fin 256) (v : W64) (s : State) :
    exec (.syncCounterWrite c n v) s = .next (s.setSync c n (v.setWidth 32)) := rfl

theorem exec_systemCounterWrite (n : Fin 256) (v : W64) (s : State) : exec (.systemCounterWrite n v) s = .next (s.sysWrite n v) := rfl

theorem State.sysWrite_of_moon {s : State} (h : s.isMoon = true) (n : Nat) (v : W64) : s.sysWrite n v = s := if_pos h

theorem State.sysWrite_of_not_moon {s : State} (h : s.isMoon = false) (n : Nat) (v : W64) :
    s.sysWrite n v = s.setSys n (v.setWidth 32) := by
  simp [State.sysWrite, h]

/-- Settles O29: a write stores its counter and re-evaluates every held head's wait on it; a Planet's SYNC_VAL then waits on each downstream
port or is kept there for a replay. -/
theorem syncCounters : Obligations.SyncCounters := by
  unfold Obligations.SyncCounters
  intro c n v s only
  have honly : ∀ (m : Nat) (x : BitVec 32), only (s.setSync c m x) m x := fun m x =>
    ⟨State.setSync_eq s c m x, State.syncVal_setSync_self s c m x, fun _ _ h => State.syncVal_setSync_other s x h,
      fun _ _ _ hdec hen hsys hidx => State.queue_setSync_dec s x hdec hen hsys hidx⟩
  refine ⟨⟨_, exec_syncAdd c v s, honly _ _⟩, ⟨_, exec_syncCounterWrite c n v s, honly _ _⟩, fun hmoon => ?_, fun hmoon => ?_,
    fun w => State.waitMet_of_not_waitEn s c⟩
  · rw [exec_systemCounterWrite, State.sysWrite_of_moon hmoon]
  · have hstored : { s with sysCnt := (s.setSys n (v.setWidth 32)).sysCnt, ctxs := (s.setSys n (v.setWidth 32)).ctxs } =
        s.storeSys n (v.setWidth 32) := by
      rw [State.sysCnt_setSys, State.ctxs_setSys]
      rfl
    refine ⟨s.setSys n (v.setWidth 32), by rw [exec_systemCounterWrite, State.sysWrite_of_not_moon hmoon], ?_, fun hplanet => ?_,
      fun hplanet q hq => State.carries_setSys hplanet _ _ hq, ?_, fun k hk => ?_, State.syncVal_setSys s _ _,
      fun e w f hdec hen hsys hidx => State.queue_setSys_dec s _ hdec hen hsys hidx⟩
    · rw [hstored]
      exact State.sent_setSys s _ _
    · rw [hstored, State.setSys_of_not_planet hplanet]
    · rw [State.sysCnt_setSys, SMap.get_put_self]
    · rw [State.sysCnt_setSys, SMap.get_put_other _ _ _ hk]

end Sys2Proof.Machine
end

section
/-! PROOFS. Check values combine (R381, R382). A byte step of either register is linear over XOR, so the bytes that follow A see the sum of two
registers: the one that holds A and takes zero bytes, and the one that takes the following bytes alone. -/

namespace Sys2Proof.Machine

/-- The map on registers keeps XOR. -/
def XorLinear {n : Nat} (f : BitVec n → BitVec n) : Prop := ∀ x y, f (x ^^^ y) = f x ^^^ f y

/-! ### The registers' steps are linear -/

/-- A shift followed by the polynomial when bit `i` is set: the shape of both registers' bit step. -/
theorem XorLinear.reduce {n : Nat} {shift : BitVec n → BitVec n} (h : XorLinear shift) (i : Nat) (poly : BitVec n) :
    XorLinear fun r => if r.getLsbD i then shift r ^^^ poly else shift r := by
  intro x y
  have hcancel : shift x ^^^ poly ^^^ (shift y ^^^ poly) = shift x ^^^ shift y := by
    rw [BitVec.xor_assoc, BitVec.xor_comm (shift y), ← BitVec.xor_assoc poly, BitVec.xor_self, BitVec.zero_xor]
  cases hx : x.getLsbD i <;> cases hy : y.getLsbD i
  case false.false => simp [hx, hy, h x y]
  case false.true => simp [hx, hy, h x y, BitVec.xor_assoc]
  case true.false => simp [hx, hy, h x y, BitVec.xor_assoc, BitVec.xor_comm poly]
  case true.true => simp [hx, hy, h x y, hcancel]

theorem crc32Step_xorLinear : XorLinear crc32Step :=
  XorLinear.reduce (shift := (· >>> 1)) (fun x y => BitVec.ushiftRight_xor_distrib x y 1) 0 _

theorem crc64Step_xorLinear : XorLinear crc64Step :=
  XorLinear.reduce (shift := (· <<< 1)) (fun x y => BitVec.shiftLeft_xor_distrib x y 1) 63 _

theorem XorLinear.step8 {n : Nat} {f : BitVec n → BitVec n} (h : XorLinear f) : XorLinear (step8 f) := by
  intro x y
  simp only [Machine.step8, h _ _]

/-! ### Feeding bytes -/

/-- The idea of R382: bytes fed into a sum of two registers give the sum of the first one advanced over as many zero bytes and the second
one fed alone. -/
theorem XorLinear.foldl_feed {n : Nat} {step : BitVec n → BitVec n} (h : XorLinear step) {feed : BitVec n → Byte → BitVec n}
    {place : Byte → BitVec n} (hfeed : ∀ r b, feed r b = step (r ^^^ place b)) (x y : BitVec n) (bs : List Byte) :
    bs.foldl feed (x ^^^ y) = Nat.repeat step bs.length x ^^^ bs.foldl feed y := by
  induction bs using List.reverseRecOn with
  | nil => rfl
  | append_singleton bs b ih =>
    calc (bs ++ [b]).foldl feed (x ^^^ y)
      _ = step (bs.foldl feed (x ^^^ y) ^^^ place b) := by rw [List.foldl_concat, hfeed]
      _ = step (Nat.repeat step bs.length x ^^^ (bs.foldl feed y ^^^ place b)) := by rw [ih, BitVec.xor_assoc]
      _ = step (Nat.repeat step bs.length x) ^^^ step (bs.foldl feed y ^^^ place b) := h _ _
      _ = Nat.repeat step (bs ++ [b]).length x ^^^ (bs ++ [b]).foldl feed y := by
        rw [List.foldl_concat, hfeed, List.length_append, List.length_singleton, Nat.repeat]

/-- R382 for a running value of CRC-32C: the initial value stays with the bytes fed, and so does the final XOR. -/
theorem crc32Run_eq_advance (v : BitVec 32) (bs : List Byte) : crc32Run v bs = crc32Advance v bs.length ^^^ crc32c bs := by
  have hsum := crc32Step_xorLinear.step8.foldl_feed (feed := crc32Feed) (fun _ _ => rfl) v 0xFFFFFFFF#32 bs
  simp only [crc32Run, crc32c, crc32Advance, BitVec.ofNat_eq_ofNat, BitVec.zero_xor, hsum, BitVec.xor_assoc]

/-- R382 for a running value of CRC-64. -/
theorem crc64Run_eq_advance (v : W64) (bs : List Byte) : crc64Run v bs = crc64Advance v bs.length ^^^ crc64 bs := by
  have hsum := crc64Step_xorLinear.step8.foldl_feed (feed := crc64Feed) (fun _ _ => rfl) v 0#64 bs
  rwa [BitVec.xor_zero] at hsum

/-! ### Running values continue (R381) -/

theorem crc32c_append (a b : List Byte) : crc32c (a ++ b) = crc32Run (crc32c a) b := by
  simp only [crc32c, crc32Run, List.foldl_append, BitVec.xor_assoc, BitVec.xor_self, BitVec.xor_zero]

theorem crc64_append (a b : List Byte) : crc64 (a ++ b) = crc64Run (crc64 a) b := List.foldl_append

/-- Settles O44: the check value of A followed by B is the running value of A continued with B, and a running value splits by linearity. -/
theorem checkValuesCombine : Obligations.CheckValuesCombine := by
  unfold Obligations.CheckValuesCombine
  intro a b v w
  refine ⟨?_, ?_, crc32Run_eq_advance v b, crc64Run_eq_advance w b⟩
  · rw [crc32c_append, crc32Run_eq_advance]
  · rw [crc64_append, crc64Run_eq_advance]

end Sys2Proof.Machine
end

section
/-! PROOFS. The frame of an operation, with the two invariants of the block: which parts of the state it can change, that the memory stays in
canonical form, and that R336 stays true. One lemma for each operation of the model, in the order of the model's files; each follows from the
lemmas of the operations it calls. -/

namespace Sys2Proof.Machine

open Sys2Proof

/-- The parts of the state. -/
inductive StatePart where
  | pending | freeCtr | regs | ctxs | shareAt | shareTab | running | sysCnt | mem | hostMem | deposits | poison | bch | flashErr
  | objs | pmap | orphans | quotas | mig | migWait | bankHost | bankMgc | models | blks | fpc | sectors | inst | armings | tsets
  | tiles | cells | link | time | pwr | pcie | aptWait | sec | fac | log | logNext | out

/-- Both states hold the same in a part. -/
def StatePart.same (s t : State) : StatePart → Prop
  | .pending => t.pending = s.pending
  | .freeCtr => t.freeCtr = s.freeCtr
  | .regs => t.regs = s.regs
  | .ctxs => t.ctxs = s.ctxs
  | .shareAt => t.shareAt = s.shareAt
  | .shareTab => t.shareTab = s.shareTab
  | .running => t.running = s.running
  | .sysCnt => t.sysCnt = s.sysCnt
  | .mem => t.mem = s.mem
  | .hostMem => t.hostMem = s.hostMem
  | .deposits => t.deposits = s.deposits
  | .poison => t.poison = s.poison
  | .bch => t.bch = s.bch
  | .flashErr => t.flashErr = s.flashErr
  | .objs => t.objs = s.objs
  | .pmap => t.pmap = s.pmap
  | .orphans => t.orphans = s.orphans
  | .quotas => t.quotas = s.quotas
  | .mig => t.mig = s.mig
  | .migWait => t.migWait = s.migWait
  | .bankHost => t.bankHost = s.bankHost
  | .bankMgc => t.bankMgc = s.bankMgc
  | .models => t.models = s.models
  | .blks => t.blks = s.blks
  | .fpc => t.fpc = s.fpc
  | .sectors => t.sectors = s.sectors
  | .inst => t.inst = s.inst
  | .armings => t.armings = s.armings
  | .tsets => t.tsets = s.tsets
  | .tiles => t.tiles = s.tiles
  | .cells => t.cells = s.cells
  | .link => t.link = s.link
  | .time => t.time = s.time
  | .pwr => t.pwr = s.pwr
  | .pcie => t.pcie = s.pcie
  | .aptWait => t.aptWait = s.aptWait
  | .sec => t.sec = s.sec
  | .fac => t.fac = s.fac
  | .log => t.log = s.log
  | .logNext => t.logNext = s.logNext
  | .out => t.out = s.out

/-- `t` is `s` but for the parts in `l`, and what every step keeps (the canonical form of the memory, R336) holds in `t` if it holds in `s`. -/
structure State.frame (l : List StatePart) (s t : State) : Prop where
  same : ∀ p, p ∉ l → p.same s t
  memOk : s.memOk = true → t.memOk = true
  oneExact : s.oneExact → t.oneExact

namespace State.frame

variable {l k : List StatePart} {s t u : State}

theorem refl (l : List StatePart) (s : State) : s.frame l s := ⟨fun p _ => by cases p <;> rfl, id, id⟩

theorem trans (h : s.frame l t) (g : t.frame l u) : s.frame l u where
  same p hp := by
    have hs := h.same p hp
    have ht := g.same p hp
    cases p <;> exact Eq.trans ht hs
  memOk hs := g.memOk (h.memOk hs)
  oneExact hs := g.oneExact (h.oneExact hs)

theorem mono (h : s.frame k t) (hk : k ⊆ l) : s.frame l t :=
  ⟨fun p hp => h.same p (fun hpk => hp (hk hpk)), h.memOk, h.oneExact⟩

/-- An operation that stays in its own frame `k` leads on inside every frame that has `k`. -/
theorem lift (h : s.frame l t) (hk : k ⊆ l) (g : ∀ {s : State}, s.frame k t → s.frame k u) : s.frame l u :=
  h.trans ((g (refl k t)).mono hk)

/-- The invariants depend on the memory and the contexts alone. -/
theorem of_parts (h : ∀ p, p ∉ l → p.same s t) (hm : t.mem = s.mem ∨ (s.memOk = true → t.memOk = true))
    (hc : t.ctxs = s.ctxs ∨ (s.oneExact → t.oneExact)) : s.frame l t where
  same := h
  memOk := hm.elim (fun e hs => by rwa [State.memOk_congr e]) id
  oneExact := hc.elim (fun e hs => by simpa only [State.oneExact, State.ctx, e] using hs) id

/-! ### What a frame says of each part -/

theorem pending_eq (h : s.frame l t) (hp : .pending ∉ l := by simp) : t.pending = s.pending := h.same .pending hp

theorem freeCtr_eq (h : s.frame l t) (hp : .freeCtr ∉ l := by simp) : t.freeCtr = s.freeCtr := h.same .freeCtr hp

theorem regs_eq (h : s.frame l t) (hp : .regs ∉ l := by simp) : t.regs = s.regs := h.same .regs hp

theorem ctxs_eq (h : s.frame l t) (hp : .ctxs ∉ l := by simp) : t.ctxs = s.ctxs := h.same .ctxs hp

theorem shareAt_eq (h : s.frame l t) (hp : .shareAt ∉ l := by simp) : t.shareAt = s.shareAt := h.same .shareAt hp

theorem shareTab_eq (h : s.frame l t) (hp : .shareTab ∉ l := by simp) : t.shareTab = s.shareTab := h.same .shareTab hp

theorem running_eq (h : s.frame l t) (hp : .running ∉ l := by simp) : t.running = s.running := h.same .running hp

theorem sysCnt_eq (h : s.frame l t) (hp : .sysCnt ∉ l := by simp) : t.sysCnt = s.sysCnt := h.same .sysCnt hp

theorem mem_eq (h : s.frame l t) (hp : .mem ∉ l := by simp) : t.mem = s.mem := h.same .mem hp

theorem hostMem_eq (h : s.frame l t) (hp : .hostMem ∉ l := by simp) : t.hostMem = s.hostMem := h.same .hostMem hp

theorem deposits_eq (h : s.frame l t) (hp : .deposits ∉ l := by simp) : t.deposits = s.deposits := h.same .deposits hp

theorem poison_eq (h : s.frame l t) (hp : .poison ∉ l := by simp) : t.poison = s.poison := h.same .poison hp

theorem bch_eq (h : s.frame l t) (hp : .bch ∉ l := by simp) : t.bch = s.bch := h.same .bch hp

theorem flashErr_eq (h : s.frame l t) (hp : .flashErr ∉ l := by simp) : t.flashErr = s.flashErr := h.same .flashErr hp

theorem objs_eq (h : s.frame l t) (hp : .objs ∉ l := by simp) : t.objs = s.objs := h.same .objs hp

theorem pmap_eq (h : s.frame l t) (hp : .pmap ∉ l := by simp) : t.pmap = s.pmap := h.same .pmap hp

theorem orphans_eq (h : s.frame l t) (hp : .orphans ∉ l := by simp) : t.orphans = s.orphans := h.same .orphans hp

theorem quotas_eq (h : s.frame l t) (hp : .quotas ∉ l := by simp) : t.quotas = s.quotas := h.same .quotas hp

theorem mig_eq (h : s.frame l t) (hp : .mig ∉ l := by simp) : t.mig = s.mig := h.same .mig hp

theorem migWait_eq (h : s.frame l t) (hp : .migWait ∉ l := by simp) : t.migWait = s.migWait := h.same .migWait hp

theorem bankHost_eq (h : s.frame l t) (hp : .bankHost ∉ l := by simp) : t.bankHost = s.bankHost := h.same .bankHost hp

theorem bankMgc_eq (h : s.frame l t) (hp : .bankMgc ∉ l := by simp) : t.bankMgc = s.bankMgc := h.same .bankMgc hp

theorem models_eq (h : s.frame l t) (hp : .models ∉ l := by simp) : t.models = s.models := h.same .models hp

theorem blks_eq (h : s.frame l t) (hp : .blks ∉ l := by simp) : t.blks = s.blks := h.same .blks hp

theorem fpc_eq (h : s.frame l t) (hp : .fpc ∉ l := by simp) : t.fpc = s.fpc := h.same .fpc hp

theorem sectors_eq (h : s.frame l t) (hp : .sectors ∉ l := by simp) : t.sectors = s.sectors := h.same .sectors hp

theorem inst_eq (h : s.frame l t) (hp : .inst ∉ l := by simp) : t.inst = s.inst := h.same .inst hp

theorem armings_eq (h : s.frame l t) (hp : .armings ∉ l := by simp) : t.armings = s.armings := h.same .armings hp

theorem tsets_eq (h : s.frame l t) (hp : .tsets ∉ l := by simp) : t.tsets = s.tsets := h.same .tsets hp

theorem tiles_eq (h : s.frame l t) (hp : .tiles ∉ l := by simp) : t.tiles = s.tiles := h.same .tiles hp

theorem cells_eq (h : s.frame l t) (hp : .cells ∉ l := by simp) : t.cells = s.cells := h.same .cells hp

theorem link_eq (h : s.frame l t) (hp : .link ∉ l := by simp) : t.link = s.link := h.same .link hp

theorem time_eq (h : s.frame l t) (hp : .time ∉ l := by simp) : t.time = s.time := h.same .time hp

theorem pwr_eq (h : s.frame l t) (hp : .pwr ∉ l := by simp) : t.pwr = s.pwr := h.same .pwr hp

theorem pcie_eq (h : s.frame l t) (hp : .pcie ∉ l := by simp) : t.pcie = s.pcie := h.same .pcie hp

theorem aptWait_eq (h : s.frame l t) (hp : .aptWait ∉ l := by simp) : t.aptWait = s.aptWait := h.same .aptWait hp

theorem sec_eq (h : s.frame l t) (hp : .sec ∉ l := by simp) : t.sec = s.sec := h.same .sec hp

theorem fac_eq (h : s.frame l t) (hp : .fac ∉ l := by simp) : t.fac = s.fac := h.same .fac hp

theorem log_eq (h : s.frame l t) (hp : .log ∉ l := by simp) : t.log = s.log := h.same .log hp

theorem logNext_eq (h : s.frame l t) (hp : .logNext ∉ l := by simp) : t.logNext = s.logNext := h.same .logNext hp

theorem out_eq (h : s.frame l t) (hp : .out ∉ l := by simp) : t.out = s.out := h.same .out hp

/-! ### Record updates, contexts, choices and folds -/

/-- A record update changes the parts it names. -/
theorem update (h : s.frame l t)
    {freeCtr} (h_freeCtr : freeCtr = t.freeCtr ∨ .freeCtr ∈ l := by simp) {regs} (h_regs : regs = t.regs ∨ .regs ∈ l := by simp)
    {ctxs} (h_ctxs : ctxs = t.ctxs ∨ .ctxs ∈ l ∧ (t.oneExact → State.oneExact { t with ctxs := ctxs }) := by simp)
    {shareAt} (h_shareAt : shareAt = t.shareAt ∨ .shareAt ∈ l := by simp)
    {shareTab} (h_shareTab : shareTab = t.shareTab ∨ .shareTab ∈ l := by simp)
    {running} (h_running : running = t.running ∨ .running ∈ l := by simp)
    {sysCnt} (h_sysCnt : sysCnt = t.sysCnt ∨ .sysCnt ∈ l := by simp)
    {mem} (h_mem : mem = t.mem ∨ .mem ∈ l ∧ (Memory.wf t.mem = true → Memory.wf mem = true) := by simp)
    {hostMem} (h_hostMem : hostMem = t.hostMem ∨ .hostMem ∈ l := by simp)
    {deposits} (h_deposits : deposits = t.deposits ∨ .deposits ∈ l := by simp)
    {poison} (h_poison : poison = t.poison ∨ .poison ∈ l := by simp) {bch} (h_bch : bch = t.bch ∨ .bch ∈ l := by simp)
    {flashErr} (h_flashErr : flashErr = t.flashErr ∨ .flashErr ∈ l := by simp)
    {objs} (h_objs : objs = t.objs ∨ .objs ∈ l := by simp) {pmap} (h_pmap : pmap = t.pmap ∨ .pmap ∈ l := by simp)
    {orphans} (h_orphans : orphans = t.orphans ∨ .orphans ∈ l := by simp)
    {quotas} (h_quotas : quotas = t.quotas ∨ .quotas ∈ l := by simp) {mig} (h_mig : mig = t.mig ∨ .mig ∈ l := by simp)
    {migWait} (h_migWait : migWait = t.migWait ∨ .migWait ∈ l := by simp)
    {bankHost} (h_bankHost : bankHost = t.bankHost ∨ .bankHost ∈ l := by simp)
    {bankMgc} (h_bankMgc : bankMgc = t.bankMgc ∨ .bankMgc ∈ l := by simp)
    {models} (h_models : models = t.models ∨ .models ∈ l := by simp) {blks} (h_blks : blks = t.blks ∨ .blks ∈ l := by simp)
    {fpc} (h_fpc : fpc = t.fpc ∨ .fpc ∈ l := by simp) {sectors} (h_sectors : sectors = t.sectors ∨ .sectors ∈ l := by simp)
    {inst} (h_inst : inst = t.inst ∨ .inst ∈ l := by simp) {armings} (h_armings : armings = t.armings ∨ .armings ∈ l := by simp)
    {tsets} (h_tsets : tsets = t.tsets ∨ .tsets ∈ l := by simp) {tiles} (h_tiles : tiles = t.tiles ∨ .tiles ∈ l := by simp)
    {cells} (h_cells : cells = t.cells ∨ .cells ∈ l := by simp) {link} (h_link : link = t.link ∨ .link ∈ l := by simp)
    {time} (h_time : time = t.time ∨ .time ∈ l := by simp) {pwr} (h_pwr : pwr = t.pwr ∨ .pwr ∈ l := by simp)
    {pcie} (h_pcie : pcie = t.pcie ∨ .pcie ∈ l := by simp) {aptWait} (h_aptWait : aptWait = t.aptWait ∨ .aptWait ∈ l := by simp)
    {sec} (h_sec : sec = t.sec ∨ .sec ∈ l := by simp) {fac} (h_fac : fac = t.fac ∨ .fac ∈ l := by simp)
    {log} (h_log : log = t.log ∨ .log ∈ l := by simp) {logNext} (h_logNext : logNext = t.logNext ∨ .logNext ∈ l := by simp)
    {out} (h_out : out = t.out ∨ .out ∈ l := by simp) :
    s.frame l (State.mk t.pending freeCtr regs ctxs shareAt shareTab running sysCnt mem hostMem deposits poison bch flashErr objs pmap orphans quotas mig
      migWait bankHost bankMgc models blks fpc sectors inst armings tsets tiles cells link time pwr pcie aptWait sec fac log logNext out) := by
  refine h.trans ⟨fun p hp => ?_, fun hs => ?_, fun hs => ?_⟩
  · cases p
    case pending => rfl
    case mem => exact h_mem.resolve_right fun hm => hp hm.1
    case ctxs => exact h_ctxs.resolve_right fun hm => hp hm.1
    all_goals exact Or.resolve_right (by assumption) hp
  · rcases h_mem with rfl | ⟨-, hm⟩
    · exact hs
    · exact hm hs
  · rcases h_ctxs with rfl | ⟨-, hc⟩
    · exact hs
    · exact hc hs

theorem elim {α : Type} {o : Option α} {f : α → State} (hn : s.frame l t) (hf : ∀ a, s.frame l (f a)) : s.frame l (o.elim t f) := by
  cases o with
  | none => exact hn
  | some a => exact hf a

theorem getD {o : Option State} (h : s.frame l t) (ho : ∀ u, o = some u → s.frame l u) : s.frame l (o.getD t) := by
  cases o with
  | none => exact h
  | some u => exact ho u rfl

/-- The state that a pair holds. -/
theorem cast {α : Type} {p : α × State} {a : α} (h : s.frame l p.2) (hp : p = (a, u)) : s.frame l u := by
  rw [hp] at h
  exact h

theorem mem_allCtx (c : CtxId) : c ∈ allCtx := by simp [allCtx]

/-- A context may be replaced where an Exact bit that it sets is one that no other context has. -/
theorem replaceCtx (h : s.frame l t) {c : CtxId} {x : Ctx} (hl : .ctxs ∈ l)
    (hreq : x.exactReq = true → (t.ctx c).exactReq = true ∨ ∀ d, d ≠ c → (t.ctx d).exactReq = false)
    (hact : x.exactActive = true → (t.ctx c).exactActive = true ∨ ∀ d, d ≠ c → (t.ctx d).exactActive = false) : s.frame l (t.setCtx c x) := by
  refine h.trans (of_parts (fun p hp => ?_) (.inl rfl) (.inr fun ho => ?_))
  · cases p
    case ctxs => exact absurd hl hp
    all_goals rfl
  · have one : ∀ (b : Ctx → Bool), (∀ d e, b (t.ctx d) = true → b (t.ctx e) = true → d = e) →
        (b x = true → b (t.ctx c) = true ∨ ∀ d, d ≠ c → b (t.ctx d) = false) →
        ∀ d e, b ((t.setCtx c x).ctx d) = true → b ((t.setCtx c x).ctx e) = true → d = e := by
      intro b hone hb
      have other : ∀ d, d ≠ c → b x = true → b (t.ctx d) = true → d = c := fun d hd hx hbd =>
        (hb hx).elim (fun hbc => hone d c hbd hbc) fun hno => absurd hbd (by simp [hno d hd])
      intro d e hd he
      by_cases hdc : d = c <;> by_cases hec : e = c
      · exact hdc.trans hec.symm
      · subst hdc
        rw [State.ctx_setCtx_self] at hd
        rw [State.ctx_setCtx_other t x hec] at he
        exact (other e hec hd he).symm
      · subst hec
        rw [State.ctx_setCtx_self] at he
        rw [State.ctx_setCtx_other t x hdc] at hd
        exact other d hdc he hd
      · rw [State.ctx_setCtx_other t x hdc] at hd
        rw [State.ctx_setCtx_other t x hec] at he
        exact hone d e hd he
    exact ⟨one (·.exactReq) ho.1 hreq, one (·.exactActive) ho.2 hact⟩

/-- A context may be replaced by one with no more Exact bits. -/
theorem setCtx (h : s.frame l t) {c : CtxId} {x : Ctx} (hl : .ctxs ∈ l := by simp)
    (hreq : x.exactReq = true → (t.ctx c).exactReq = true := by simp)
    (hact : x.exactActive = true → (t.ctx c).exactActive = true := by simp) : s.frame l (t.setCtx c x) :=
  h.replaceCtx hl (fun hx => .inl (hreq hx)) fun hx => .inl (hact hx)

theorem updCtx (h : s.frame l t) {c : CtxId} {f : Ctx → Ctx} (hl : .ctxs ∈ l := by simp)
    (hreq : (f (t.ctx c)).exactReq = true → (t.ctx c).exactReq = true := by simp)
    (hact : (f (t.ctx c)).exactActive = true → (t.ctx c).exactActive = true := by simp) : s.frame l (t.updCtx c f) :=
  h.setCtx hl hreq hact

theorem either {p : Prop} {_ : Decidable p} {a b : State} (ha : s.frame l a) (hb : s.frame l b) : s.frame l (if p then a else b) := by
  split
  · exact ha
  · exact hb

theorem setPwr (h : s.frame l t) {p : Pwr} (hl : .pwr ∈ l := by simp) : s.frame l { t with pwr := p } := h.update (h_pwr := .inr hl)

theorem setSec (h : s.frame l t) {p : Sec} (hl : .sec ∈ l := by simp) : s.frame l { t with sec := p } := h.update (h_sec := .inr hl)

/-- Every part. -/
def every : List StatePart := [.pending, .freeCtr, .regs, .ctxs, .shareAt, .shareTab, .running, .sysCnt, .mem, .hostMem, .deposits, .poison, .bch] ++
  [.flashErr, .objs, .pmap, .orphans, .quotas, .mig, .migWait, .bankHost, .bankMgc, .models, .blks, .fpc, .sectors, .inst, .armings, .tsets] ++
  [.tiles, .cells, .link, .time, .pwr, .pcie, .aptWait, .sec, .fac, .log, .logNext, .out]

theorem subset_every (k : List StatePart) : k ⊆ every := fun p _ => by cases p <;> simp [every]

/-- What the loss of the main rails can change: all but the command queue, the flash errors, the cells, what the factory sets and the log. -/
def ofRails : List StatePart := every.filter fun
  | .pending | .flashErr | .cells | .fac | .log | .logNext => false
  | _ => true

/-- What a device reset can change: what the loss of the rails can, and the log. -/
def ofReset : List StatePart := .log :: .logNext :: ofRails

@[simp] theorem mem_ofRails (p : StatePart) :
    p ∈ ofRails ↔ p ≠ .pending ∧ p ≠ .flashErr ∧ p ≠ .cells ∧ p ≠ .fac ∧ p ≠ .log ∧ p ≠ .logNext := by
  cases p <;> simp [ofRails, every]

@[simp] theorem mem_ofReset (p : StatePart) : p ∈ ofReset ↔ p ≠ .pending ∧ p ≠ .flashErr ∧ p ≠ .cells ∧ p ≠ .fac := by
  cases p <;> simp [ofReset]

@[simp] theorem ofRails_subset_ofReset : ofRails ⊆ ofReset := fun _ h => by simp [ofReset, h]

/-- The parts of a callee lie in those of its caller. -/
theorem within {m : List StatePart} (hl : k ⊆ l) (hm : m ⊆ k := by simp) : m ⊆ l := fun _ h => hl (hm h)

/-- Fixes the frame in which a further state is reached. -/
theorem toward (_ : s.frame l t) (u : State) (g : s.frame l u) : s.frame l u := g

/-- A named intermediate state. -/
theorem seq {f : State → State} (h : s.frame l t) (g : ∀ {u : State}, s.frame l u → s.frame l (f u)) :
    s.frame l (let u := t; f u) := g h

theorem foldl {α : Type} {f : State → α → State} (h : s.frame l t) (hf : ∀ {u : State} {x : α}, s.frame l u → s.frame l (f u x)) {xs : List α} :
    s.frame l (xs.foldl f t) := by
  induction xs generalizing t with
  | nil => exact h
  | cons x xs ih => exact ih (hf h)

end State.frame

/-- Every next state of an outcome lies in a frame. -/
def State.frames (l : List StatePart) (s : State) (o : Host.Outcome State Fault Refusal) : Prop := ∀ t, o = .next t → s.frame l t

theorem State.frame.next {l : List StatePart} {s t : State} (h : s.frame l t) : s.frames l (.next t) := fun _ ht =>
  Host.Outcome.next.inj ht ▸ h

theorem State.frames.get {l : List StatePart} {s t : State} {o : Host.Outcome State Fault Refusal} (h : s.frames l o) (ho : o = .next t) :
    s.frame l t := h t ho

theorem State.frame.liftOutcome {l k : List StatePart} {s t : State} {o : Host.Outcome State Fault Refusal} (h : s.frame l t) (hk : k ⊆ l)
    (g : ∀ {s : State}, s.frame k t → s.frames k o) : s.frames l o := fun u hu => h.trans ((g (.refl k t) u hu).mono hk)

theorem State.frames.fault {l : List StatePart} {s : State} (r : Fault) : s.frames l (.fault r) := fun _ ht => nomatch ht
end Sys2Proof.Machine
end

section
/-! PROOFS. The frame of each operation of the model, operation by operation, in the order of its files. -/

namespace Sys2Proof.Machine

open Sys2Proof

-- Each proof that runs beside the others reserves its whole stack, and so many of them would pass the memory limit: one after another.
set_option Elab.async false

namespace State.frame

variable {l : List StatePart} {s t : State}

/-! ### Registers -/

theorem setReg (h : s.frame l t) {off : Nat} {v : W64} (hl : [.regs] ⊆ l := by simp) : s.frame l (t.setReg off v) := by
  refine h.lift hl fun h => ?_
  unfold State.setReg
  exact h.update

theorem setFld (h : s.frame l t) {f : Fld} {n : Nat} (hl : [.regs] ⊆ l := by simp) : s.frame l (t.setFld f n) := by
  refine h.lift hl fun h => ?_
  unfold State.setFld
  exact h.setReg

theorem addFld (h : s.frame l t) {f : Fld} {n : Nat} (hl : [.regs] ⊆ l := by simp) : s.frame l (t.addFld f n) := by
  refine h.lift hl fun h => ?_
  unfold State.addFld
  exact h.setFld

/-! ### Contexts -/

theorem setQueue (h : s.frame l t) {c : CtxId} {e : Engine} {q : Queue} (hl : [.ctxs] ⊆ l := by simp) : s.frame l (t.setQueue c e q) := by
  refine h.lift hl fun h => ?_
  unfold State.setQueue
  exact h.updCtx

theorem takeFree (h : s.frame l t) (hl : [.freeCtr] ⊆ l := by simp) : s.frame l (t.takeFree).2 := by
  refine h.lift hl fun h => ?_
  unfold State.takeFree
  exact h.update

/-! ### Power -/

theorem putOff (h : s.frame l t) {a : HostAcc} (hl : [.aptWait] ⊆ l := by simp) : s.frame l (t.putOff a) := by
  refine h.lift hl fun h => ?_
  unfold State.putOff
  exact h.update

theorem setDom (h : s.frame l t) {d : Nat} {x : DomState} (hl : [.pwr] ⊆ l := by simp) : s.frame l (t.setDom d x) := by
  refine h.lift hl fun h => ?_
  unfold State.setDom
  exact h.update

theorem wakePort (h : s.frame l t) {d : Nat} (hl : [.link] ⊆ l := by simp) : s.frame l (t.wakePort d) := by
  refine h.lift hl fun h => ?_
  unfold State.wakePort
  extract_lets +onlyGivenNames p
  split
  · exact h.update
  · exact h

theorem wakeDom (h : s.frame l t) {d : Nat} (hl : [.link, .pwr] ⊆ l := by simp) : s.frame l (t.wakeDom d) := by
  refine h.lift hl fun h => ?_
  unfold State.wakeDom
  split
  · exact h.setDom
  · exact h.setDom.wakePort
  · split
    · exact h.setDom
    · exact h.setDom.wakePort
  · exact h

/-! ### Outward effects -/

theorem emit (h : s.frame l t) {o : Out} (hl : [.out] ⊆ l := by simp) : s.frame l (t.emit o) := by
  refine h.lift hl fun h => ?_
  unfold State.emit
  exact h.update

theorem actingRead (h : s.frame l t) {fn : Fin 16} {off : Nat} {recov : Bool} {acc : HostAcc} {f : State → State}
    (hf : ∀ {s t : State}, s.frame l t → s.frame l (f t)) (hl : [.aptWait, .out] ⊆ l := by simp) :
    s.frame l (t.actingRead fn off recov acc f) := by
  unfold State.actingRead
  split
  · exact h
  · split
    · exact h.emit (within hl)
    · split
      · exact h.putOff (within hl)
      · exact hf h

theorem sendMsix (h : s.frame l t) {fn : Fin 16} {v : Nat} (hl : [.link, .pwr, .pcie, .out] ⊆ l := by simp) : s.frame l (t.sendMsix fn v) :=
    by
  refine h.lift hl fun h => ?_
  unfold State.sendMsix
  split
  · exact h
  · split
    · exact h.update
    · split
      · exact h.emit
      · exact h.update.wakeDom

/-! ### The error log (R390 to R393) -/

theorem logEvent (h : s.frame l t) {src code : Nat} {c : Option CtxId} {loc detail : Nat} (hl : [.link, .pwr, .pcie, .log, .logNext, .out] ⊆
    l := by simp) : s.frame l (t.logEvent src code c loc detail) := by
  refine h.lift hl fun h => ?_
  unfold State.logEvent
  extract_lets +onlyGivenNames e l' s1
  split
  · exact h.update.sendMsix
  · exact h.update

/-! ### Byte memory  Every memory of the device lies in its own range of 2^64 keys -/

theorem poke (h : s.frame l t) {j : Nat} {b : Byte} (hl : [.mem] ⊆ l := by simp) : s.frame l (t.poke j b) := by
  refine h.lift hl fun h => ?_
  exact h.update (h_mem := .inr ⟨by simp, SMap.wf_put 0 _ _ _⟩)

theorem pokes (h : s.frame l t) {j : Nat} {r2 : List Byte} (hl : [.mem] ⊆ l := by simp) : s.frame l (t.pokes j r2) := by
  refine h.lift hl ?_
  clear h hl
  intro s h
  induction r2 generalizing t j with
  | nil => exact h
  | cons y ys ih =>
    unfold State.pokes
    exact (ih h.poke)

theorem setPoison (h : s.frame l t) {w : Nat} {p : Bool} (hl : [.poison] ⊆ l := by simp) : s.frame l (t.setPoison w p) := by
  refine h.lift hl fun h => ?_
  unfold State.setPoison
  exact h.update

theorem freshen (h : s.frame l t) {w : Nat} (hl : [.bch] ⊆ l := by simp) : s.frame l (t.freshen w) := by
  refine h.lift hl fun h => ?_
  unfold State.freshen
  exact h.update

theorem markWord (h : s.frame l t) {w : Nat} {part : List SB} (hl : [.poison, .bch] ⊆ l := by simp) : s.frame l (t.markWord w part) := by
  refine h.lift hl fun h => ?_
  unfold State.markWord
  extract_lets +onlyGivenNames err
  split
  · exact h.setPoison.freshen
  · split
    · exact h.setPoison.freshen
    · split
      · exact h.setPoison.freshen
      · split
        · exact h.freshen
        · exact h

theorem markWords (h : s.frame l t) {j : Nat} {data : List SB} {r3 : Nat} (hl : [.poison, .bch] ⊆ l := by simp) : s.frame l (t.markWords j
    data r3) := by
  refine h.lift hl ?_
  clear h hl
  intro s h
  induction r3 generalizing t j data with
  | zero => exact h
  | succ n ih =>
    unfold State.markWords
    split
    · exact h
    · extract_lets +onlyGivenNames n
      exact (ih h.markWord)

theorem store (h : s.frame l t) {j : Nat} {data : List SB} (hl : [.mem, .poison, .bch] ⊆ l := by simp) : s.frame l (t.store j data) := by
  refine h.lift hl fun h => ?_
  unfold State.store
  exact h.pokes.markWords

theorem zeroFrom (h : s.frame l t) {lo hi : Nat} (hl : [.mem, .poison, .bch] ⊆ l := by simp) : s.frame l (t.zeroFrom lo hi) := by
  refine h.lift hl fun h => ?_
  exact h.update (h_mem := .inr ⟨by simp, SMap.wf_keepKeys 0 _ _⟩)

/-! ### Counting reads of BCH words (R385) -/

theorem noteErr (h : s.frame l t) {store : Nat} {c : Option CtxId} {n w loc : Nat} (hl : [.regs, .link, .pwr, .pcie, .log, .logNext, .out] ⊆
    l := by simp) : s.frame l (t.noteErr store c n w loc) := by
  refine h.lift hl fun h => ?_
  unfold State.noteErr
  split
  · exact h.addFld
  · split
    · exact h.addFld.logEvent
    · exact h

theorem noteWord (h : s.frame l t) {store : Nat} {c : Option CtxId} {w loc : Nat} (hl : [.regs, .link, .pwr, .pcie, .log, .logNext, .out] ⊆
    l := by simp) : s.frame l (t.noteWord store c w loc) := by
  refine h.lift hl fun h => ?_
  unfold State.noteWord
  exact h.noteErr

theorem noteWords (h : s.frame l t) {store : Nat} {c : Option CtxId} {w loc r5 : Nat} (hl : [.regs, .link, .pwr, .pcie, .log, .logNext,
    .out] ⊆ l := by simp) : s.frame l (t.noteWords store c w loc r5) := by
  refine h.lift hl ?_
  clear h hl
  intro s h
  induction r5 generalizing t store c w loc with
  | zero => exact h
  | succ n ih =>
    unfold State.noteWords
    exact (ih h.noteWord)

theorem noteRecov (h : s.frame l t) {off n : Nat} (hl : [.regs, .link, .pwr, .pcie, .log, .logNext, .out] ⊆ l := by simp) : s.frame l
    (t.noteRecov off n) := by
  refine h.lift hl fun h => ?_
  unfold State.noteRecov
  exact h.noteWords

theorem noteTransit (h : s.frame l t) {c : CtxId} {a : Nat} {errs : SMap Nat} (hl : [.regs, .link, .pwr, .pcie, .log, .logNext, .out] ⊆ l :=
    by simp) : s.frame l (t.noteTransit c a errs) := by
  refine h.lift hl fun h => ?_
  unfold State.noteTransit
  exact h.foldl (fun h1 => h1.noteErr)

/-! ### Domains that wake on demand (R399 to R401) -/

theorem wakeDoms (h : s.frame l t) {r1 : List Nat} (hl : [.link, .pwr] ⊆ l := by simp) : s.frame l (t.wakeDoms r1) := by
  refine h.lift hl ?_
  clear h hl
  intro s h
  induction r1 generalizing t with
  | nil => exact h
  | cons y ys ih =>
    unfold State.wakeDoms
    exact (ih h.wakeDom)

theorem touch (h : s.frame l t) {ds : List Nat} (hl : [.pwr] ⊆ l := by simp) : s.frame l (t.touch ds) := by
  refine h.lift hl fun h => ?_
  unfold State.touch
  extract_lets +onlyGivenNames l'
  split
  · exact h
  · exact h.update

theorem orStall (h : s.frame l t) {f : State → State} (hf : ∀ {s t : State}, s.frame l t → s.frame l (f t))
    (hl : [.link, .pwr] ⊆ l := by simp) : s.frame l (t.orStall f) := by
  unfold State.orStall
  extract_lets u
  split
  · exact hf h
  · exact h.wakeDoms hl

theorem tryOnce (h : s.frame l t) {f : State → State} (hf : ∀ {s t : State}, s.frame l t → s.frame l (f t))
    (hl : [.link, .pwr] ⊆ l := by simp) : s.frame l (t.tryOnce f).1 := by
  have hp : StatePart.pwr ∈ l := hl (by simp)
  unfold State.tryOnce
  extract_lets u
  have hu : s.frame l u := hf h
  clear_value u
  split
  · exact hu.update (h_pwr := .inr hp)
  · exact h.wakeDoms hl

/-! ### Running commands -/

theorem updExec (h : s.frame l t) {c : CtxId} {e : Engine} {slot : Nat} {f : Exec → Exec} (hl : [.running] ⊆ l := by simp) : s.frame l
    (t.updExec c e slot f) := by
  refine h.lift hl fun h => ?_
  unfold State.updExec
  exact h.update

/-! ### The sending side of a Trelbo port (R353 to R360): flit layouts, the control-slot priorities, data-channel -/

theorem setPort (h : s.frame l t) {p : PortId} {x : Port} (hl : [.link] ⊆ l := by simp) : s.frame l (t.setPort p x) := by
  refine h.lift hl fun h => ?_
  unfold State.setPort
  exact h.update

theorem updPort (h : s.frame l t) {p : PortId} {f : Port → Port} (hl : [.link] ⊆ l := by simp) : s.frame l (t.updPort p f) := by
  refine h.lift hl fun h => ?_
  unfold State.updPort
  exact h.setPort

/-! ### Control messages (R355) -/

theorem pumpCtl (h : s.frame l t) {p : PortId} {r2 : Nat} (hl : [.link, .out] ⊆ l := by simp) : s.frame l (t.pumpCtl p r2) := by
  refine h.lift hl ?_
  clear h hl
  intro s h
  induction r2 generalizing t p with
  | zero => exact h
  | succ n ih =>
    unfold State.pumpCtl
    extract_lets +onlyGivenNames x
    split
    · exact h
    · extract_lets +onlyGivenNames r msgs
      split
      · exact h
      · exact (ih h.setPort.emit)

theorem sendCtl (h : s.frame l t) {p : PortId} {m : W64} (hl : [.link, .pwr, .out] ⊆ l := by simp) : s.frame l (t.sendCtl p m) := by
  refine h.lift hl fun h => ?_
  unfold State.sendCtl
  extract_lets +onlyGivenNames s1
  exact h.wakeDom.updPort.pumpCtl

/-! ### Data messages (R358, R361) -/

theorem pumpData (h : s.frame l t) {p : PortId} {r2 : Nat} (hl : [.link, .out] ⊆ l := by simp) : s.frame l (t.pumpData p r2) := by
  refine h.lift hl ?_
  clear h hl
  intro s h
  induction r2 generalizing t p with
  | zero => exact h
  | succ n ih =>
    unfold State.pumpData
    extract_lets +onlyGivenNames x
    split
    · exact h
    · split
      · exact h
      · extract_lets +onlyGivenNames y
        exact (ih h.setPort.emit)

theorem sendData (h : s.frame l t) {p : PortId} {kind : Nat} {header : List Byte} {data : List SB} (hl : [.link, .pwr, .out] ⊆ l := by simp)
    : s.frame l (t.sendData p kind header data) := by
  refine h.lift hl fun h => ?_
  unfold State.sendData
  extract_lets +onlyGivenNames s1
  exact h.wakeDom.updPort.pumpData

theorem nullFlits (h : s.frame l t) {r1 : List PortId} (hl : [.out] ⊆ l := by simp) : s.frame l (t.nullFlits r1) := by
  refine h.lift hl ?_
  clear h hl
  intro s h
  induction r1 generalizing t with
  | nil => exact h
  | cons y ys ih =>
    unfold State.nullFlits
    extract_lets +onlyGivenNames x s1
    exact (ih (either (either h (either h.emit h)).emit (either h (either h.emit h))))

theorem pump (h : s.frame l t) {p : PortId} (hl : [.link, .out] ⊆ l := by simp) : s.frame l (t.pump p) := by
  refine h.lift hl fun h => ?_
  unfold State.pump
  extract_lets +onlyGivenNames s1
  exact h.pumpCtl.pumpData

theorem linkEvent (h : s.frame l t) {bit : Nat} (hl : [.regs, .link, .pwr, .pcie, .out] ⊆ l := by simp) : s.frame l (t.linkEvent bit) := by
  refine h.lift hl fun h => ?_
  unfold State.linkEvent
  extract_lets +onlyGivenNames s1
  split
  · exact h.setReg.sendMsix
  · exact h.setReg

/-! ### Tensor memory: which object and which copy an address reaches (R246 to R251, R306, R311), and what a read or -/

theorem dropLost (h : s.frame l t) {c : CtxId} {e : Engine} {slot : Nat} (hl : [.pcie] ⊆ l := by simp) : s.frame l (t.dropLost c e slot) :=
    by
  refine h.lift hl fun h => ?_
  unfold State.dropLost
  exact h.update

/-! ### Reading -/

theorem noteDisturb (h : s.frame l t) {hit : Bool} {code p : Nat} (hl : [.regs, .link, .pwr, .pcie, .log, .logNext, .out] ⊆ l := by simp) :
    s.frame l (t.noteDisturb hit code p) := by
  refine h.lift hl fun h => ?_
  unfold State.noteDisturb
  split
  · exact h.setFld.logEvent
  · exact h

theorem countRead (h : s.frame l t) {p : Nat} (hl : [.regs, .blks, .link, .pwr, .pcie, .log, .logNext, .out] ⊆ l := by simp) : s.frame l
    (t.countRead p) := by
  refine h.lift hl fun h => ?_
  unfold State.countRead
  extract_lets +onlyGivenNames b n warn isOver s1
  exact h.update.noteDisturb.noteDisturb

theorem failedWords (h : s.frame l t) {c : Option CtxId} {p : Nat} {r3 : List Nat} (hl : [.regs, .link, .pwr, .pcie, .log, .logNext, .out] ⊆
    l := by simp) : s.frame l (t.failedWords c p r3) := by
  refine h.lift hl ?_
  clear h hl
  intro s h
  induction r3 generalizing t c p with
  | nil => exact h
  | cons y ys ih =>
    unfold State.failedWords
    exact (ih (either h.addFld.logEvent h))

theorem pageRead (h : s.frame l t) {c : Option CtxId} {p : Nat} (hl : [.regs, .blks, .link, .pwr, .pcie, .log, .logNext, .out] ⊆ l := by
    simp) : s.frame l (t.pageRead c p) := by
  refine h.lift hl fun h => ?_
  unfold State.pageRead
  extract_lets +onlyGivenNames s1 s2
  exact (either h.countRead.addFld h.countRead).failedWords

theorem notePlace (h : s.frame l t) {c : CtxId} {place : Option Loc} {page : Bool} {a n : Nat} (hl : [.regs, .blks, .link, .pwr, .pcie,
    .log, .logNext, .out] ⊆ l := by simp) : s.frame l (t.notePlace c place page a n) := by
  refine h.lift hl fun h => ?_
  unfold State.notePlace
  extract_lets +onlyGivenNames s'
  have h1 : frame _ _ s' := h.touch
  split
  · exact h1.noteWords
  · exact h1.noteWords
  · split
    · exact h1.pageRead
    · exact h1
  · split
    · exact h1
    · exact h1.update
  · exact h1

theorem notePiece (h : s.frame l t) {v : View} {first : Bool} {a n : Nat} (hl : [.regs, .blks, .link, .pwr, .pcie, .log, .logNext, .out] ⊆ l
    := by simp) : s.frame l (t.notePiece v first a n) := by
  refine h.lift hl fun h => ?_
  unfold State.notePiece
  exact h.notePlace

theorem noteReadL (h : s.frame l t) {v : View} {first : Bool} {r3 : List (Nat × Nat)} (hl : [.regs, .blks, .link, .pwr, .pcie, .log,
    .logNext, .out] ⊆ l := by simp) : s.frame l (t.noteReadL v first r3) := by
  refine h.lift hl ?_
  clear h hl
  intro s h
  induction r3 generalizing t v first with
  | nil => exact h
  | cons y ys ih =>
    unfold State.noteReadL
    exact (ih h.notePiece)

theorem noteRead (h : s.frame l t) {v : View} {a n : Nat} (hl : [.regs, .blks, .link, .pwr, .pcie, .log, .logNext, .out] ⊆ l := by simp) :
    s.frame l (t.noteRead v a n) := by
  refine h.lift hl fun h => ?_
  unfold State.noteRead
  exact h.noteReadL

theorem notePlainL (h : s.frame l t) {v : View} {r2 : List (Nat × Nat)} (hl : [.regs, .blks, .link, .pwr, .pcie, .log, .logNext, .out] ⊆ l
    := by simp) : s.frame l (t.notePlainL v r2) := by
  refine h.lift hl ?_
  clear h hl
  intro s h
  induction r2 generalizing t v with
  | nil => exact h
  | cons y ys ih =>
    unfold State.notePlainL
    exact (ih h.notePlace)

theorem pageReads (h : s.frame l t) {c : CtxId} {r2 : List Nat} (hl : [.regs, .blks, .link, .pwr, .pcie, .log, .logNext, .out] ⊆ l := by
    simp) : s.frame l (t.pageReads c r2) := by
  refine h.lift hl ?_
  clear h hl
  intro s h
  induction r2 generalizing t c with
  | nil => exact h
  | cons y ys ih =>
    unfold State.pageReads
    exact (ih h.pageRead)

/-! ### Writing -/

theorem markDirty (h : s.frame l t) {idx : Nat} (hl : [.objs] ⊆ l := by simp) : s.frame l (t.markDirty idx) := by
  refine h.lift hl fun h => ?_
  unfold State.markDirty
  split
  · exact h
  · split
    · exact h.update
    · exact h

theorem hostStore (h : s.frame l t) {a : Nat} {data : List SB} (hl : [.hostMem, .poison, .bch] ⊆ l := by simp) : s.frame l (t.hostStore a
    data) := by
  refine h.lift hl fun h => ?_
  unfold State.hostStore
  extract_lets +onlyGivenNames s1
  exact h.update.markWords

theorem peerWrite (h : s.frame l t) {c : CtxId} {e : Engine} {slot : Nat} {p : PortId} {dev : Nat} {pc : CtxId} {a : Nat} {data : List SB}
    (hl : [.link, .pwr, .out] ⊆ l := by simp) : s.frame l (t.peerWrite c e slot p dev pc a data) := by
  refine h.lift hl fun h => ?_
  unfold State.peerWrite
  extract_lets +onlyGivenNames tag s1
  have h1 : frame _ _ s1 := h.updPort
  extract_lets +onlyGivenNames r _ s2
  exact h1.update.sendData

theorem overlay (h : s.frame l t) {dev : Nat} {pc : CtxId} {a : Nat} {data : List SB} (hl : [.deposits, .link] ⊆ l := by simp) : s.frame l
    (t.overlay dev pc a data) := by
  refine h.lift hl fun h => ?_
  unfold State.overlay
  extract_lets +onlyGivenNames hits part k
  exact h.update

theorem writePiece (h : s.frame l t) {v : View} {who : Engine × Nat} {a : Nat} {data : List SB} (hl : [.mem, .hostMem, .deposits, .poison,
    .bch, .objs, .link, .pwr, .out] ⊆ l := by simp) : s.frame l (t.writePiece v who a data).1 := by
  refine h.lift hl fun h => ?_
  unfold State.writePiece
  split
  · extract_lets +onlyGivenNames s1
    split
    · exact h.touch.store.markDirty
    · exact h.touch.store.markDirty
    · exact h.hostStore
    · exact h.overlay.peerWrite
    · exact h
  · exact h

theorem writeL (h : s.frame l t) {v : View} {who : Engine × Nat} {ps : List (Nat × Nat)} {data : List SB} (hl : [.mem, .hostMem, .deposits,
    .poison, .bch, .objs, .link, .pwr, .out] ⊆ l := by simp) : s.frame l (t.writeL v who ps data).1 := by
  refine h.lift hl ?_
  clear h hl
  intro s h
  induction ps generalizing t data with
  | nil => exact h
  | cons p ps ih =>
    unfold State.writeL
    extract_lets r
    exact ih h.writePiece

theorem writeBytes (h : s.frame l t) {v : View} {who : Engine × Nat} {a : Nat} {data : List SB} (hl : [.mem, .hostMem, .deposits, .poison,
    .bch, .objs, .link, .pwr, .out] ⊆ l := by simp) : s.frame l (t.writeBytes v who a data).1 := by
  refine h.lift hl fun h => ?_
  unfold State.writeBytes
  exact h.writeL

/-! ### Peer reads that a command needs -/

theorem askPeers (h : s.frame l t) {c : CtxId} {e : Engine} {slot : Nat} {r4 : List (Nat × CtxId × Nat × Nat)} (hl : [.link, .pwr, .out] ⊆ l
    := by simp) : s.frame l (t.askPeers c e slot r4) := by
  refine h.lift hl ?_
  clear h hl
  intro s h
  induction r4 generalizing t c e slot with
  | nil => exact h
  | cons y ys ih =>
    unfold State.askPeers
    extract_lets +onlyGivenNames s'
    have h1 := h.toward s' (by unfold s'; split; exacts [h, h.updPort.update.sendData])
    exact (ih h1)

theorem awaitPeers (h : s.frame l t) {ds : List Nat} {c : CtxId} {e : Engine} {slot : Nat} {f : State → State}
    (hf : ∀ {s t : State}, s.frame l t → s.frame l (f t)) (hl : [.deposits, .link, .pwr, .out] ⊆ l := by simp) :
    s.frame l (t.awaitPeers ds c e slot f) := by
  have hd : StatePart.deposits ∈ l := hl (by simp)
  unfold State.awaitPeers
  refine h.orStall (fun {s t} h => ?_) (within hl)
  extract_lets u
  have hu : s.frame l u := hf (h.touch (within hl))
  clear_value u
  exact either (hu.update (h_deposits := .inr hd)) (either h (h.askPeers (within hl)))

theorem tryPeers (h : s.frame l t) {c : CtxId} {e : Engine} {slot : Nat} {f : State → State}
    (hf : ∀ {s t : State}, s.frame l t → s.frame l (f t)) (hl : [.deposits, .link, .pwr, .out] ⊆ l := by simp) :
    s.frame l (t.tryPeers c e slot f).1 := by
  have hd : StatePart.deposits ∈ l := hl (by simp)
  have hr : s.frame l (t.tryOnce f).1 := h.tryOnce hf (within hl)
  unfold State.tryPeers
  dsimp only
  generalize t.tryOnce f = r at hr ⊢
  obtain ⟨u, done⟩ := r
  split
  · exact hr
  · split
    · exact update (t := u) hr (h_deposits := .inr hd)
    · split
      · exact h
      · exact h.askPeers (within hl)

theorem withPeers (h : s.frame l t) {c : CtxId} {e : Engine} {slot : Nat} {f : State → State}
    (hf : ∀ {s t : State}, s.frame l t → s.frame l (f t)) (hl : [.deposits, .link, .pwr, .out] ⊆ l := by simp) :
    s.frame l (t.withPeers c e slot f) := h.awaitPeers hf hl

/-! ### Writes through the tensor aperture (R25, R436) -/

theorem aptFault (h : s.frame l t) {c : CtxId} (hl : [.regs] ⊆ l := by simp) : s.frame l (t.aptFault c) := by
  refine h.lift hl fun h => ?_
  unfold State.aptFault
  exact h.addFld

theorem aptLand (h : s.frame l t) {w : AptWrite} (hl : [.regs, .mem, .hostMem, .deposits, .poison, .bch, .objs, .link, .pwr, .out] ⊆ l := by
    simp) : s.frame l (t.aptLand w).1 := by
  refine h.lift hl fun h => ?_
  unfold State.aptLand
  exact h.tryOnce (fun h1 => (either h1.writeBytes h1.aptFault))

/-! ### Statuses, divergence counts and what a running command reports: the device's flag computations (R13, R14, -/

theorem div (h : s.frame l t) {c : CtxId} {code n : Nat} (hl : [.regs] ⊆ l := by simp) : s.frame l (t.div c code n) := by
  refine h.lift hl fun h => ?_
  unfold State.div
  extract_lets +onlyGivenNames src
  split
  · exact h
  · exact h.addFld.addFld

theorem report (h : s.frame l t) {c : CtxId} {e : Engine} {slot : Nat} {r : Report} (hl : [.running] ⊆ l := by simp) : s.frame l (t.report c
    e slot r) := by
  refine h.lift hl fun h => ?_
  unfold State.report
  exact h.updExec

theorem image (h : s.frame l t) {c : CtxId} {e : Engine} {slot : Nat} {img : List Byte} {fmt exp : Nat} {poisoned : Bool} (hl : [.running] ⊆
    l := by simp) : s.frame l (t.image c e slot img fmt exp poisoned) := by
  refine h.lift hl fun h => ?_
  unfold State.image
  exact h.updExec

/-! ### Sync counters (R188, R199 to R201) -/

theorem release (h : s.frame l t) (hl : [.ctxs] ⊆ l := by simp) : s.frame l t.release := by
  refine h.lift hl fun h => ?_
  unfold State.release
  exact h.update (h_ctxs := .inr ⟨by simp, fun ho => by simpa [State.oneExact, State.ctx] using ho⟩)

theorem setSync (h : s.frame l t) {c : CtxId} {n : Nat} {v : BitVec 32} (hl : [.ctxs] ⊆ l := by simp) : s.frame l (t.setSync c n v) := by
  refine h.lift hl fun h => ?_
  unfold State.setSync
  exact h.updCtx.release

theorem scnAdd (h : s.frame l t) {c : CtxId} {n inc : Nat} (hl : [.ctxs] ⊆ l := by simp) : s.frame l (t.scnAdd c n inc) := by
  refine h.lift hl fun h => ?_
  unfold State.scnAdd
  exact h.setSync

theorem sendCtlAll (h : s.frame l t) {m : W64} {r2 : List PortId} (hl : [.link, .pwr, .out] ⊆ l := by simp) : s.frame l (t.sendCtlAll m r2)
    := by
  refine h.lift hl ?_
  clear h hl
  intro s h
  induction r2 generalizing t m with
  | nil => exact h
  | cons y ys ih =>
    unfold State.sendCtlAll
    exact (ih h.sendCtl)

theorem setSys (h : s.frame l t) {n : Nat} {v : BitVec 32} (hl : [.ctxs, .sysCnt, .link, .pwr, .out] ⊆ l := by simp) : s.frame l (t.setSys n
    v) := by
  refine h.lift hl fun h => ?_
  unfold State.setSys
  extract_lets +onlyGivenNames s1
  split
  · exact h.update.release.sendCtlAll
  · exact h.update.release

theorem sysAdd (h : s.frame l t) {n inc : Nat} (hl : [.ctxs, .sysCnt, .link, .pwr, .out] ⊆ l := by simp) : s.frame l (t.sysAdd n inc) := by
  refine h.lift hl fun h => ?_
  unfold State.sysAdd
  split
  · split
    · exact h.sendCtl
    · exact h
  · exact h.setSys

theorem sysSignal (h : s.frame l t) {c : CtxId} {n inc : Nat} (hl : [.ctxs, .sysCnt, .link, .pwr, .out] ⊆ l := by simp) : s.frame l
    (t.sysSignal c n inc) := by
  refine h.lift hl fun h => ?_
  unfold State.sysSignal
  split
  · exact h.updPort.sysAdd
  · exact h.sysAdd

theorem signalOne (h : s.frame l t) {c : CtxId} {e : Entry} {sys : Bool} {j : Nat} (hl : [.ctxs, .sysCnt, .link, .pwr, .out] ⊆ l := by simp)
    : s.frame l (t.signalOne c e sys j) := by
  refine h.lift hl fun h => ?_
  unfold State.signalOne
  split
  · exact h
  · split
    · split
      · exact h.sysSignal
      · exact h
    · exact h.scnAdd

theorem signalSys (h : s.frame l t) {c : CtxId} {e : Entry} (hl : [.ctxs, .sysCnt, .link, .pwr, .out] ⊆ l := by simp) : s.frame l
    (t.signalSys c e) := by
  refine h.lift hl fun h => ?_
  unfold State.signalSys
  exact either (signalOne (either h.signalOne h)) (either h.signalOne h)

theorem signal (h : s.frame l t) {c : CtxId} {e : Entry} {sys : Bool} (hl : [.regs, .ctxs, .sysCnt, .link, .pwr, .out] ⊆ l := by simp) :
    s.frame l (t.signal c e sys) := by
  refine h.lift hl fun h => ?_
  unfold State.signal
  extract_lets +onlyGivenNames s1
  split
  · exact h.signalOne.signalOne.setReg
  · exact h.signalOne.signalOne

/-! ### Direct reads -/

theorem noteSpan (h : s.frame l t) {v : View} {a n : Nat} (hl : [.regs, .blks, .link, .pwr, .pcie, .log, .logNext, .out] ⊆ l := by simp) :
    s.frame l (t.noteSpan v a n) := by
  refine h.lift hl fun h => ?_
  unfold State.noteSpan
  extract_lets +onlyGivenNames l' s1
  split
  · exact h.noteReadL.addFld
  · exact h.noteReadL

theorem needPeers (h : s.frame l t) {v : View} {a n : Nat} (hl : [.link] ⊆ l := by simp) : s.frame l (t.needPeers v a n) := by
  refine h.lift hl fun h => ?_
  unfold State.needPeers
  exact h.update

theorem readDirectRows (h : s.frame l t) {v : View} {a rb stride rows : Nat} (hl : [.regs, .blks, .link, .pwr, .pcie, .log, .logNext, .out]
    ⊆ l := by simp) : s.frame l (t.readDirectRows v a rb stride rows).2 := by
  refine h.lift hl fun h => ?_
  unfold State.readDirectRows
  extract_lets +onlyGivenNames ps r g s0 s1 s2
  have h3 : frame _ _ s2 := (either h.notePlainL.pageReads.div.addFld h.notePlainL.pageReads.div)
  exact h3

theorem readHdr (h : s.frame l t) {v : View} {a : Nat} (hl : [.regs, .blks, .link, .pwr, .pcie, .log, .logNext, .out] ⊆ l := by simp) :
    s.frame l (t.readHdr v a).2 := by
  refine h.lift hl fun h => ?_
  unfold State.readHdr
  split
  · exact h
  · extract_lets +onlyGivenNames r s1
    split
    · exact h.noteSpan
    · split
      · exact h.noteSpan
      · exact h.noteSpan

theorem writeHdr (h : s.frame l t) {v : View} {who : Engine × Nat} {a : Nat} {hh : Hdr} (hl : [.mem, .hostMem, .deposits, .poison, .bch,
    .objs, .link, .pwr, .out] ⊆ l := by simp) : s.frame l (t.writeHdr v who a hh).1 := by
  refine h.lift hl fun h => ?_
  unfold State.writeHdr
  split
  · exact h
  · exact h.writeBytes

/-! ### Stream tiles (R215) -/

theorem noteCapture (h : s.frame l t) {a : Arming} {j : Capture} (hl : [.regs, .blks, .link, .pwr, .pcie, .log, .logNext, .out] ⊆ l := by
    simp) : s.frame l (t.noteCapture a j) := by
  refine h.lift hl fun h => ?_
  unfold State.noteCapture
  extract_lets +onlyGivenNames g reads pages s1 s2
  have h2 : frame _ _ s2 := (either h.notePlainL.pageReads.noteSpan h.notePlainL.pageReads)
  extract_lets +onlyGivenNames s3 s4
  split
  · exact (either h2.addFld.div h2).div.addFld
  · exact (either h2.addFld.div h2).div

theorem arrive (h : s.frame l t) {a : Arming} {f : Flight} (hl : [.regs, .link, .pwr, .pcie, .log, .logNext, .out] ⊆ l := by simp) : s.frame
    l (t.arrive a f).2 := by
  refine h.lift hl fun h => ?_
  unfold State.arrive
  extract_lets +onlyGivenNames d s'
  split
  · exact h.noteTransit
  · exact h.noteTransit.addFld.logEvent

theorem setArming (h : s.frame l t) {i : Nat} {a : Arming} (hl : [.armings] ⊆ l := by simp) : s.frame l (t.setArming i a) := by
  refine h.lift hl fun h => ?_
  unfold State.setArming
  exact h.update

theorem readRows (h : s.frame l t) {x : Exec} {addr rb stride rows : Nat} (hl : [.regs, .blks, .armings, .link, .pwr, .pcie, .log, .logNext,
    .out] ⊆ l := by simp) : s.frame l (t.readRows x addr rb stride rows).2 := by
  refine h.lift hl fun h => ?_
  unfold State.readRows
  split
  · exact h.readDirectRows
  · split
    · exact h.readDirectRows
    · extract_lets +onlyGivenNames bytes
      exact h.setArming

theorem readOperand (h : s.frame l t) {x : Exec} {addr n : Nat} (hl : [.regs, .blks, .armings, .link, .pwr, .pcie, .log, .logNext, .out] ⊆ l
    := by simp) : s.frame l (t.readOperand x addr n).2 := by
  refine h.lift hl fun h => ?_
  unfold State.readOperand
  exact h.readRows

/-! ### Compressed blocks (R164 to R170) -/

theorem logFaults (h : s.frame l t) {c : CtxId} {addr exp : Nat} {r4 : List (Nat × Nat)} (hl : [.link, .pwr, .pcie, .log, .logNext, .out] ⊆
    l := by simp) : s.frame l (t.logFaults c addr exp r4) := by
  refine h.lift hl ?_
  clear h hl
  intro s h
  induction r4 generalizing t c addr exp with
  | nil => exact h
  | cons y ys ih =>
    unfold State.logFaults
    exact (ih h.logEvent)

theorem countBlock (h : s.frame l t) {c : CtxId} {b : BlockRd} (hl : [.regs] ⊆ l := by simp) : s.frame l (t.countBlock c b) := by
  refine h.lift hl fun h => ?_
  unfold State.countBlock
  split
  · exact h.addFld
  · exact h.addFld.addFld

theorem noteBlock (h : s.frame l t) {c : CtxId} {addr j : Nat} {b : BlockRd} (hl : [.regs, .link, .pwr, .pcie, .log, .logNext, .out] ⊆ l :=
    by simp) : s.frame l (t.noteBlock c addr j b) := by
  refine h.lift hl fun h => ?_
  unfold State.noteBlock
  extract_lets +onlyGivenNames s0
  split
  · exact h.countBlock
  · extract_lets +onlyGivenNames kind f s1 s2
    have h3 : frame _ _ s2 := (either h.countBlock.setReg.addFld h.countBlock.setReg)
    extract_lets +onlyGivenNames s3 s4
    have h5 : frame _ _ s4 := (either (either h3.addFld h3).addFld (either h3.addFld h3))
    extract_lets +onlyGivenNames s5
    split
    · exact h5.logFaults.logEvent
    · exact h5.logFaults

theorem decodeNext (h : s.frame l t) {a : Arming} (hl : [.regs, .link, .pwr, .pcie, .log, .logNext, .out] ⊆ l := by simp) : s.frame l
    (t.decodeNext a).2 := by
  refine h.lift hl fun h => ?_
  unfold State.decodeNext
  extract_lets +onlyGivenNames k n
  split
  · exact h
  · extract_lets +onlyGivenNames b st
    exact h.noteBlock

theorem decodeRest (h : s.frame l t) {a : Arming} {r2 : Nat} (hl : [.regs, .link, .pwr, .pcie, .log, .logNext, .out] ⊆ l := by simp) :
    s.frame l (t.decodeRest a r2).2 := by
  refine h.lift hl ?_
  clear h hl
  intro s h
  induction r2 generalizing t a with
  | zero => exact h
  | succ n ih =>
    unfold State.decodeRest
    split
    · exact h
    · extract_lets +onlyGivenNames r
      exact (ih h.decodeNext)

theorem readWeights (h : s.frame l t) {i : Nat} {a : Arming} (hl : [.regs, .armings, .link, .pwr, .pcie, .log, .logNext, .out] ⊆ l := by
    simp) : s.frame l (t.readWeights i a).2 := by
  refine h.lift hl fun h => ?_
  unfold State.readWeights
  split
  · extract_lets +onlyGivenNames q bytes
    exact h.decodeRest.setArming
  · extract_lets +onlyGivenNames bytes
    exact h.setArming

/-! ### Running the work of a command -/

theorem keepStreams (h : s.frame l t) {u : State} {x : Exec} (hl : [.armings] ⊆ l := by simp) : s.frame l (t.keepStreams u x) := by
  refine h.lift hl fun h => ?_
  unfold State.keepStreams
  split
  · exact h.update
  · exact h

theorem workOf (h : s.frame l t) {x : Exec} {f : Exec → State → State} (hf : ∀ {x : Exec} {s t : State}, s.frame l t → s.frame l (f x t))
    (hl : [.armings] ⊆ l := by simp) : s.frame l (t.workOf x f) := by
  unfold State.workOf
  extract_lets u
  split
  · exact (hf h).keepStreams hl
  · exact h

theorem engineRun (h : s.frame l t) {c : CtxId} {e : Engine} {slot op : Nat} {f : Exec → State → State}
    (hf : ∀ {x : Exec} {s t : State}, s.frame l t → s.frame l (f x t))
    (hl : [.armings, .deposits, .link, .pwr, .out] ⊆ l := by simp) : s.frame l (t.engineRun c e slot op f) := by
  unfold State.engineRun
  split
  · exact h
  · split
    · exact h.withPeers (fun h => h.workOf hf (within hl)) (within hl)
    · exact h

/-! ### Tile sets (R81, R86) -/

theorem setTset (h : s.frame l t) {t2 j : Nat} {x : TsetSlot} (hl : [.tsets] ⊆ l := by simp) : s.frame l (t.setTset t2 j x) := by
  refine h.lift hl fun h => ?_
  unfold State.setTset
  exact h.update

theorem setTile (h : s.frame l t) {t2 : Nat} {x : Tile} (hl : [.tiles] ⊆ l := by simp) : s.frame l (t.setTile t2 x) := by
  refine h.lift hl fun h => ?_
  unfold State.setTile
  exact h.update

theorem setSector (h : s.frame l t) {tile m : Nat} {x : Sector} (hl : [.sectors] ⊆ l := by simp) : s.frame l (t.setSector tile m x) := by
  refine h.lift hl fun h => ?_
  unfold State.setSector
  exact h.update

/-! ### MATVEC (R77 to R96) -/

theorem convFault (h : s.frame l t) {c : CtxId} {tile col : Nat} (hl : [.regs, .link, .pwr, .pcie, .log, .logNext, .out] ⊆ l := by simp) :
    s.frame l (t.convFault c tile col) := by
  refine h.lift hl fun h => ?_
  unfold State.convFault
  exact h.addFld.setFld.setFld.logEvent

theorem convFaults (h : s.frame l t) {c : CtxId} {r2 : List (Nat × Nat × Nat)} (hl : [.regs, .link, .pwr, .pcie, .log, .logNext, .out] ⊆ l
    := by simp) : s.frame l (t.convFaults c r2) := by
  refine h.lift hl ?_
  clear h hl
  intro s h
  induction r2 generalizing t c with
  | nil => exact h
  | cons y ys ih =>
    unfold State.convFaults
    exact (ih h.convFault)

theorem mvWrite (h : s.frame l t) {x : Exec} {dst stride v : Nat} {r5 : List (List (Nat × Bool))} (hl : [.mem, .hostMem, .deposits, .poison,
    .bch, .objs, .link, .pwr, .out] ⊆ l := by simp) : s.frame l (t.mvWrite x dst stride v r5).1 := by
  refine h.lift hl ?_
  clear h hl
  intro s h
  induction r5 generalizing t x dst stride v with
  | nil => exact h
  | cons y ys ih =>
    unfold State.mvWrite
    extract_lets +onlyGivenNames r q
    exact (ih h.writeBytes)

theorem mvBody (h : s.frame l t) {x : Exec} {t2 : TsetSlot} {i : MvIn} {faults : List (Nat × Nat × Nat)} (hl : [.freeCtr, .regs, .running,
    .mem, .hostMem, .deposits, .poison, .bch, .objs, .blks, .armings, .link, .pwr, .pcie, .log, .logNext, .out] ⊆ l := by simp) : s.frame l
    (t.mvBody x t2 i faults) := by
  refine h.lift hl fun h => ?_
  unfold State.mvBody
  extract_lets +onlyGivenNames e nv r vecs ints sk removed s1
  have h1 : frame _ _ s1 := h.readRows.addFld.addFld.div
  extract_lets +onlyGivenNames good s2
  have h2 : frame _ _ s2 := h1.convFaults
  extract_lets +onlyGivenNames ctr outs s3 w ex h' flat bad s4
  have h4 : frame _ _ s4 := (either h2 h2.update).mvWrite.writeHdr.image
  exact h4.report

theorem matvecRun (h : s.frame l t) {faults : List (Nat × Nat × Nat)} {x : Exec} (hl : [.freeCtr, .regs, .running, .mem, .hostMem,
    .deposits, .poison, .bch, .objs, .blks, .armings, .link, .pwr, .pcie, .log, .logNext, .out] ⊆ l := by simp) : s.frame l (matvecRun faults
    x t) := by
  refine h.lift hl fun h => ?_
  unfold Machine.matvecRun
  extract_lets +onlyGivenNames e tset
  split
  next heq => exact (h.readHdr.cast heq).report
  next s1 heq =>
    have h1 : frame _ _ s1 := h.readHdr.cast heq
    dsimp only
    split
    · split
      next heq => exact (h1.readHdr.cast heq).report
      next s2 heq =>
        have h2 : frame _ _ s2 := h1.readHdr.cast heq
        split
        · exact h2.report
        · exact h2.mvBody
    · split
      · exact h1.report
      · exact h1.mvBody

theorem execMatvec (h : s.frame l t) {c : CtxId} {slot : Nat} {faults : List (Nat × Nat × Nat)} (hl : [.freeCtr, .regs, .running, .mem,
    .hostMem, .deposits, .poison, .bch, .objs, .blks, .armings, .link, .pwr, .pcie, .log, .logNext, .out] ⊆ l := by simp) : s.frames l
    (execMatvec c slot faults t) := by
  refine h.liftOutcome hl fun h => ?_
  unfold Machine.execMatvec
  exact (h.engineRun (fun h1 => h1.matvecRun)).next

/-! ### SCRUB (R111, R112) -/

theorem scrubRun (h : s.frame l t) {weak : List (Nat × Nat × Nat)} {x : Exec} (hl : [.running, .mem, .hostMem, .deposits, .poison, .bch,
    .objs, .link, .pwr, .out] ⊆ l := by simp) : s.frame l (scrubRun weak x t) := by
  refine h.lift hl fun h => ?_
  unfold Machine.scrubRun
  extract_lets +onlyGivenNames e t' w
  exact h.writeBytes.report

theorem execScrub (h : s.frame l t) {c : CtxId} {slot : Nat} {weak : List (Nat × Nat × Nat)} (hl : [.running, .mem, .hostMem, .deposits,
    .poison, .bch, .objs, .armings, .link, .pwr, .out] ⊆ l := by simp) : s.frames l (execScrub c slot weak t) := by
  refine h.liftOutcome hl fun h => ?_
  unfold Machine.execScrub
  exact (h.engineRun (fun h1 => h1.scrubRun)).next

/-! ### CAF_PAIR_RETIRE (R115) and the health registers (R116) -/

theorem markPair (h : s.frame l t) {v : W64} (hl : [.tiles] ⊆ l := by simp) : s.frame l (t.markPair v) := by
  refine h.lift hl fun h => ?_
  unfold State.markPair
  extract_lets +onlyGivenNames t' d
  split
  · exact h
  · exact h.setTile

theorem execCafPairRetire (h : s.frame l t) {v : W64} (hl : [.tiles] ⊆ l := by simp) : s.frames l (execCafPairRetire v t) := by
  refine h.liftOutcome hl fun h => ?_
  unfold Machine.execCafPairRetire
  exact h.markPair.next

/-! ### Models and their batch slots (R305 to R310): what a request binds to, and when a retiring slot becomes STALE -/

theorem setModel (h : s.frame l t) {i : Nat} {m : Model} (hl : [.models] ⊆ l := by simp) : s.frame l (t.setModel i m) := by
  refine h.lift hl fun h => ?_
  unfold State.setModel
  exact h.update

theorem pageDead (h : s.frame l t) {p : Nat} (hl : [.blks] ⊆ l := by simp) : s.frame l (t.pageDead p) := by
  refine h.lift hl fun h => ?_
  unfold State.pageDead
  exact h.update

theorem pagesDead (h : s.frame l t) {r1 : List Nat} (hl : [.blks] ⊆ l := by simp) : s.frame l (t.pagesDead r1) := by
  refine h.lift hl ?_
  clear h hl
  intro s h
  induction r1 generalizing t with
  | nil => exact h
  | cons y ys ih =>
    unfold State.pagesDead
    exact (ih h.pageDead)

theorem setTsets (h : s.frame l t) {j : Nat} {st : TsetState} {r3 : List Nat} (hl : [.tsets] ⊆ l := by simp) : s.frame l (t.setTsets j st
    r3) := by
  refine h.lift hl ?_
  clear h hl
  intro s h
  induction r3 generalizing t j st with
  | nil => exact h
  | cons y ys ih =>
    unfold State.setTsets
    exact (ih h.setTset)

theorem makeStale (h : s.frame l t) {i j : Nat} (hl : [.orphans, .models, .blks, .tsets] ⊆ l := by simp) : s.frame l (t.makeStale i j) := by
  refine h.lift hl fun h => ?_
  unfold State.makeStale
  extract_lets +onlyGivenNames m dead s1
  have h1 : frame _ _ s1 := h.setModel.setTsets
  exact h1.update.pagesDead

theorem drainSlot (h : s.frame l t) {i j : Nat} (hl : [.orphans, .models, .blks, .tsets] ⊆ l := by simp) : s.frame l (t.drainSlot i j) := by
  refine h.lift hl fun h => ?_
  unfold State.drainSlot
  extract_lets +onlyGivenNames m
  split
  · exact h.makeStale
  · exact h

theorem drainModels (h : s.frame l t) {r1 : List Nat} (hl : [.orphans, .models, .blks, .tsets] ⊆ l := by simp) : s.frame l (t.drainModels
    r1) := by
  refine h.lift hl ?_
  clear h hl
  intro s h
  induction r1 generalizing t with
  | nil => exact h
  | cons y ys ih =>
    unfold State.drainModels
    exact (ih h.drainSlot.drainSlot)

theorem drainSlots (h : s.frame l t) (hl : [.orphans, .models, .blks, .tsets] ⊆ l := by simp) : s.frame l t.drainSlots := by
  refine h.lift hl fun h => ?_
  unfold State.drainSlots
  exact h.drainModels

theorem recordPtrs (h : s.frame l t) (hl : [.models] ⊆ l := by simp) : s.frame l t.recordPtrs := by
  refine h.lift hl fun h => ?_
  unfold State.recordPtrs
  exact h.update

theorem unswitch (h : s.frame l t) {i : Nat} (hl : [.models, .inst, .tsets] ⊆ l := by simp) : s.frame l (t.unswitch i) := by
  refine h.lift hl fun h => ?_
  unfold State.unswitch
  extract_lets +onlyGivenNames m
  split
  · exact h
  · extract_lets +onlyGivenNames m1 _ s0
    have h1 : frame _ _ s0 := h.setModel
    extract_lets +onlyGivenNames s1
    split
    · exact h1.update.setTsets
    · exact h1.update

theorem retireHere (h : s.frame l t) {md : Nat} {u : State} (hu : t.retireHere md = some u)
    (hl : [.orphans, .models, .blks, .tsets] ⊆ l := by simp) : s.frame l u := by
  refine h.lift hl fun h => ?_
  unfold State.retireHere at hu
  extract_lets m at hu
  obtain ⟨k, -, hk⟩ := Option.bind_eq_some_iff.mp hu
  split at hk
  · cases hk
    exact h.setModel.setTsets.drainSlots
  · cases hk

/-! ### Slots (R217 to R220) -/

theorem attachOne (h : s.frame l t) {x : Exec} {o : Opnd} (hl : [.armings] ⊆ l := by simp) : s.frame l (t.attachOne x o) := by
  refine h.lift hl fun h => ?_
  unfold State.attachOne
  extract_lets +onlyGivenNames ok
  split
  · split
    · exact h
    · exact h.update
  · exact h.update

theorem attachOps (h : s.frame l t) {x : Exec} {r2 : List Opnd} (hl : [.armings] ⊆ l := by simp) : s.frame l (t.attachOps x r2) := by
  refine h.lift hl ?_
  clear h hl
  intro s h
  induction r2 generalizing t x with
  | nil => exact h
  | cons y ys ih =>
    unfold State.attachOps
    exact (ih h.attachOne)

theorem attachWeights (h : s.frame l t) {x : Exec} {wslot len : Nat} (hl : [.armings] ⊆ l := by simp) : s.frame l (t.attachWeights x wslot
    len) := by
  refine h.lift hl fun h => ?_
  unfold State.attachWeights
  split
  · exact h
  · split
    · exact h.update
    · exact h

theorem dropReqs (h : s.frame l t) {c : CtxId} {e : Engine} {slot : Nat} (hl : [.link] ⊆ l := by simp) : s.frame l (t.dropReqs c e slot) :=
    by
  refine h.lift hl fun h => ?_
  unfold State.dropReqs
  exact h.update

theorem dropReqsOf (h : s.frame l t) {kept r2 : List Arming} (hl : [.link] ⊆ l := by simp) : s.frame l (t.dropReqsOf kept r2) := by
  refine h.lift hl ?_
  clear h hl
  intro s h
  induction r2 generalizing t kept with
  | nil => exact h
  | cons y ys ih =>
    unfold State.dropReqsOf
    exact (ih (either h h.dropReqs))

theorem removeArms (h : s.frame l t) {p : Arming → Bool} (hl : [.armings, .link] ⊆ l := by simp) : s.frame l (t.removeArms p) := by
  refine h.lift hl fun h => ?_
  unfold State.removeArms
  extract_lets +onlyGivenNames kept flag t'
  exact h.update.dropReqsOf

theorem retireArms (h : s.frame l t) {c : CtxId} {e : Engine} {slot : Nat} (hl : [.armings, .link] ⊆ l := by simp) : s.frame l (t.retireArms
    c e slot) := by
  refine h.lift hl fun h => ?_
  unfold State.retireArms
  exact h.removeArms

theorem detachArms (h : s.frame l t) {x : Exec} (hl : [.armings] ⊆ l := by simp) : s.frame l (t.detachArms x) := by
  refine h.lift hl fun h => ?_
  unfold State.detachArms
  exact h.update

/-! ### Buffers (R222) -/

theorem install (h : s.frame l t) {a : Arming} (hl : [.armings] ⊆ l := by simp) : s.frame l (t.install a).1 := by
  refine h.lift hl fun h => ?_
  unfold State.install
  extract_lets +onlyGivenNames had
  split
  · exact h.update
  · split
    · exact h.update
    · split
      · exact h.update
      · exact h.update

/-! ### Descriptors read by commands (R213, R235, R237) -/

theorem readDesc (h : s.frame l t) {x : Exec} {a : Nat} (hl : [.regs, .blks, .link, .pwr, .pcie, .log, .logNext, .out] ⊆ l := by simp) :
    s.frame l (t.readDesc x a).2 := by
  refine h.lift hl fun h => ?_
  unfold State.readDesc
  extract_lets +onlyGivenNames r s1
  split
  · exact h.noteSpan
  · split
    · exact h.noteSpan
    · exact h.noteSpan

/-! ### ARM, DISARM (R235, R236) -/

theorem armRun (h : s.frame l t) {x : Exec} (hl : [.regs, .running, .blks, .armings, .link, .pwr, .pcie, .log, .logNext, .out] ⊆ l := by
    simp) : s.frame l (armRun x t) := by
  refine h.lift hl fun h => ?_
  unfold Machine.armRun
  extract_lets +onlyGivenNames e eng slot
  refine either h <| either h.report ?_
  split
  next heq => exact (h.readDesc.cast heq).report
  next s1 heq =>
    have h1 : frame _ _ s1 := h.readDesc.cast heq
    extract_lets +onlyGivenNames d
    refine either h1.report ?_
    extract_lets +onlyGivenNames hd
    have hhd := h.toward hd.2 <| by
      simp only [hd]
      split
      · exact h1.readHdr
      · exact h1
    clear_value hd
    split
    next => exact report hhd
    next => exact either (report hhd) (install hhd).report

theorem execArm (h : s.frame l t) {c : CtxId} {slot : Nat} (hl : [.regs, .running, .deposits, .blks, .armings, .link, .pwr, .pcie, .log,
    .logNext, .out] ⊆ l := by simp) : s.frames l (execArm c slot t) := by
  refine h.liftOutcome hl fun h => ?_
  unfold Machine.execArm
  exact (h.engineRun (fun h1 => h1.armRun)).next

theorem disarmRun (h : s.frame l t) {x : Exec} (hl : [.running, .armings, .link] ⊆ l := by simp) : s.frame l (disarmRun x t) := by
  refine h.lift hl fun h => ?_
  unfold Machine.disarmRun
  extract_lets +onlyGivenNames e eng
  split
  · exact h
  · exact h.removeArms.report

theorem execDisarm (h : s.frame l t) {c : CtxId} {slot : Nat} (hl : [.running, .deposits, .armings, .link, .pwr, .out] ⊆ l := by simp) :
    s.frames l (execDisarm c slot t) := by
  refine h.liftOutcome hl fun h => ?_
  unfold Machine.execDisarm
  exact (h.engineRun (fun h1 => h1.disarmRun)).next

/-! ### COPY (R237) -/

theorem copyStart (h : s.frame l t) {x : Exec} (hl : [.regs, .running, .blks, .armings, .link, .pwr, .pcie, .log, .logNext, .out] ⊆ l := by
    simp) : s.frame l (t.copyStart x) := by
  refine h.lift hl fun h => ?_
  unfold State.copyStart
  extract_lets +onlyGivenNames e
  split
  next heq => exact (h.readDesc.cast heq).report
  next s1 heq =>
    have h1 : frame _ _ s1 := h.readDesc.cast heq
    split
    next heq => exact (h1.readDesc.cast heq).report
    next s2 heq =>
      have h2 : frame _ _ s2 := h1.readDesc.cast heq
      exact either h2.report h2.update

theorem copyRunOut (h : s.frame l t) {x : Exec} {a : Nat} {run : List (List SB)} (hl : [.mem, .hostMem, .deposits, .poison, .bch, .objs,
    .link, .pwr, .out] ⊆ l := by simp) : s.frame l (t.copyRunOut x a run) := by
  refine h.lift hl fun h => ?_
  unfold State.copyRunOut
  exact h.writeBytes

theorem copyElems (h : s.frame l t) {x : Exec} {d : Desc} {i a n : Nat} {run r7 : List (List SB)} (hl : [.mem, .hostMem, .deposits, .poison,
    .bch, .objs, .link, .pwr, .out] ⊆ l := by simp) : s.frame l (t.copyElems x d i a n run r7).1 := by
  refine h.lift hl ?_
  clear h hl
  intro s h
  induction r7 generalizing t x d i a n run with
  | nil =>
    unfold State.copyElems
    exact h.copyRunOut
  | cons y ys ih =>
    unfold State.copyElems
    split
    · exact h.copyRunOut
    · split
      · exact h.copyRunOut
      · split
        · exact (ih h)
        · extract_lets +onlyGivenNames r
          exact (ih h.copyRunOut)

theorem copyRun (h : s.frame l t) {x : Exec} (hl : [.running, .mem, .hostMem, .deposits, .poison, .bch, .objs, .armings, .link, .pwr, .out]
    ⊆ l := by simp) : s.frame l (copyRun x t) := by
  refine h.lift hl fun h => ?_
  unfold Machine.copyRun
  split
  · exact h
  · split
    · exact h
    · extract_lets +onlyGivenNames bytes s1 d w k
      have h1 : frame _ _ s1 := h.setArming
      have hw : frame _ _ w.1 := h1.copyElems
      have hk := h.toward k.1 <| by
        simp only [k]
        split
        · exact hw.writeBytes
        · exact hw
      exact hk.image.report

theorem execCopy (h : s.frame l t) {c : CtxId} {slot : Nat} (hl : [.running, .mem, .hostMem, .deposits, .poison, .bch, .objs, .armings,
    .link, .pwr, .out] ⊆ l := by simp) : s.frames l (execCopy c slot t) := by
  refine h.liftOutcome hl fun h => ?_
  unfold Machine.execCopy
  exact (h.engineRun (fun h1 => h1.copyRun)).next

/-! ### SLOT_TABLE (R238) -/

theorem slotTableRun (h : s.frame l t) {x : Exec} (hl : [.regs, .ctxs, .running, .blks, .link, .pwr, .pcie, .log, .logNext, .out] ⊆ l := by
    simp) : s.frame l (slotTableRun x t) := by
  refine h.lift hl fun h => ?_
  unfold Machine.slotTableRun
  extract_lets +onlyGivenNames e n eng
  split
  · exact h
  · extract_lets +onlyGivenNames r s1
    split
    · exact (either h h.noteSpan).report
    · split
      · exact (either h h.noteSpan).report
      · extract_lets +onlyGivenNames l'
        split
        · exact (either h h.noteSpan).report
        · exact (either h h.noteSpan).updCtx.report

theorem execSlotTable (h : s.frame l t) {c : CtxId} {slot : Nat} (hl : [.regs, .ctxs, .running, .deposits, .blks, .armings, .link, .pwr,
    .pcie, .log, .logNext, .out] ⊆ l := by simp) : s.frames l (execSlotTable c slot t) := by
  refine h.liftOutcome hl fun h => ?_
  unfold Machine.execSlotTable
  exact (h.engineRun (fun h1 => h1.slotTableRun)).next

/-! ### COMPRESS (R174) -/

theorem writeSeq (h : s.frame l t) {x : Exec} {r2 : List (Nat × List SB)} (hl : [.mem, .hostMem, .deposits, .poison, .bch, .objs, .link,
    .pwr, .out] ⊆ l := by simp) : s.frame l (t.writeSeq x r2).1 := by
  refine h.lift hl ?_
  clear h hl
  intro s h
  induction r2 generalizing t x with
  | nil => exact h
  | cons y ys ih =>
    unfold State.writeSeq
    split
    · exact (ih h.writeBytes)
    · exact h

theorem compressBody (h : s.frame l t) {x : Exec} {hh : Hdr} {r : Rd} (hl : [.running, .mem, .hostMem, .deposits, .poison, .bch, .objs,
    .link, .pwr, .out] ⊆ l := by simp) : s.frame l (t.compressBody x hh r) := by
  refine h.lift hl fun h => ?_
  unfold State.compressBody
  extract_lets +onlyGivenNames e dst ta blks nb areas
  split
  · exact h.report
  · extract_lets +onlyGivenNames t' ws w raw
    exact h.writeSeq.report

theorem compressRun (h : s.frame l t) {x : Exec} (hl : [.regs, .running, .mem, .hostMem, .deposits, .poison, .bch, .objs, .blks, .link,
    .pwr, .pcie, .log, .logNext, .out] ⊆ l := by simp) : s.frame l (compressRun x t) := by
  refine h.lift hl fun h => ?_
  unfold Machine.compressRun
  extract_lets +onlyGivenNames e ok
  split
  next heq => exact (h.readHdr.cast heq).report
  next s1 heq =>
    have h1 : frame _ _ s1 := h.readHdr.cast heq
    dsimp only
    split
    · split
      next heq => exact (h1.readHdr.cast heq).report
      next heq => exact either (h1.readHdr.cast heq).report (h1.readHdr.cast heq).readDirectRows.compressBody
    · exact either h1.report h1.readDirectRows.compressBody

theorem execCompress (h : s.frame l t) {c : CtxId} {slot : Nat} (hl : [.regs, .running, .mem, .hostMem, .deposits, .poison, .bch, .objs,
    .blks, .armings, .link, .pwr, .pcie, .log, .logNext, .out] ⊆ l := by simp) : s.frames l (execCompress c slot t) := by
  refine h.liftOutcome hl fun h => ?_
  unfold Machine.execCompress
  exact (h.engineRun (fun h1 => h1.compressRun)).next

/-! ### TABLE_LOAD (R172, R176) -/

theorem setTable (h : s.frame l t) {c : CtxId} {t2 : Nat} {x : Option CodeTable} (hl : [.ctxs] ⊆ l := by simp) : s.frame l (t.setTable c t2
    x) := by
  refine h.lift hl fun h => ?_
  unfold State.setTable
  exact h.updCtx

theorem loadTable (h : s.frame l t) {v : View} {e : Entry} (hl : [.regs, .ctxs, .blks, .link, .pwr, .pcie, .log, .logNext, .out] ⊆ l := by
    simp) : s.frame l (t.loadTable v e).1 := by
  refine h.lift hl fun h => ?_
  unfold State.loadTable
  extract_lets +onlyGivenNames c t'
  split
  · exact h.setTable
  · extract_lets +onlyGivenNames r s1
    split
    · exact h.noteSpan
    · split
      · exact h.noteSpan
      · extract_lets +onlyGivenNames tab
        split
        · exact h.noteSpan.setTable
        · exact h.noteSpan

theorem setTmvHead (h : s.frame l t) {c : CtxId} {hh : Head} (hl : [.ctxs] ⊆ l := by simp) : s.frame l (t.setTmvHead c hh) := by
  refine h.lift hl fun h => ?_
  unfold State.setTmvHead
  exact h.setQueue

theorem tableLoadStep (h : s.frame l t) {c : CtxId} {again : Bool} (hl : [.regs, .ctxs, .deposits, .blks, .link, .pwr, .pcie, .log,
    .logNext, .out] ⊆ l := by simp) : s.frame l (t.tableLoadStep c again) := by
  refine h.lift hl fun h => ?_
  unfold State.tableLoadStep
  split
  · split
    · exact h
    · split
      · exact h.setTmvHead
      · exact h.withPeers (fun h1 => h1.dropLost.loadTable.setTmvHead)
  · exact h

theorem execTableLoad (h : s.frame l t) {c : CtxId} (hl : [.regs, .ctxs, .deposits, .blks, .link, .pwr, .pcie, .log, .logNext, .out] ⊆ l :=
    by simp) : s.frames l (execTableLoad c t) := by
  refine h.liftOutcome hl fun h => ?_
  unfold Machine.execTableLoad
  exact h.tableLoadStep.next

theorem execTableLoadUnpinned (h : s.frame l t) {c : CtxId} (hl : [.regs, .ctxs, .deposits, .blks, .link, .pwr, .pcie, .log, .logNext, .out]
    ⊆ l := by simp) : s.frames l (execTableLoadUnpinned c t) := by
  refine h.liftOutcome hl fun h => ?_
  unfold Machine.execTableLoadUnpinned
  exact h.tableLoadStep.next

/-! ### Transfers (R223, R227 to R233) -/

theorem setSlotTab (h : s.frame l t) {c : CtxId} {e : Engine} {t2 : SlotTab} (hl : [.ctxs] ⊆ l := by simp) : s.frame l (t.setSlotTab c e t2)
    := by
  refine h.lift hl fun h => ?_
  unfold State.setSlotTab
  exact h.updCtx

theorem compareTable (h : s.frame l t) {e : Engine} {a : Arming} {others : Bool} (hl : [.regs, .ctxs] ⊆ l := by simp) : s.frame l
    (t.compareTable e a others) := by
  refine h.lift hl fun h => ?_
  unfold State.compareTable
  split
  · exact h
  · extract_lets +onlyGivenNames t' off s1
    split
    · exact h.setSlotTab.addFld.div
    · exact h.setSlotTab

theorem askStream (h : s.frame l t) {a : Arming} {tile : Nat} {r3 : List (Nat × PortId × Nat × CtxId × Nat × Nat)} (hl : [.link, .pwr, .out]
    ⊆ l := by simp) : s.frame l (t.askStream a tile r3) := by
  refine h.lift hl ?_
  clear h hl
  intro s h
  induction r3 generalizing t a tile with
  | nil => exact h
  | cons y ys ih =>
    unfold State.askStream
    extract_lets +onlyGivenNames tag s1
    have h1 : frame _ _ s1 := h.updPort
    extract_lets +onlyGivenNames r _ s2
    exact (ih h1.update.sendData)

theorem needFirst (h : s.frame l t) {v : View} {r2 : List (Nat × Nat)} (hl : [.link] ⊆ l := by simp) : s.frame l (t.needFirst v r2) := by
  refine h.lift hl ?_
  clear h hl
  intro s h
  induction r2 generalizing t v with
  | nil => exact h
  | cons y ys ih =>
    unfold State.needFirst
    extract_lets +onlyGivenNames t'
    split
    · exact (ih h)
    · exact h.needPeers

theorem needMeta (h : s.frame l t) {a : Arming} (hl : [.link] ⊆ l := by simp) : s.frame l (t.needMeta a) := by
  refine h.lift hl fun h => ?_
  unfold State.needMeta
  extract_lets +onlyGivenNames k sectors
  exact h.needFirst

theorem issueAt (h : s.frame l t) {i : Nat} (hl : [.regs, .blks, .armings, .link, .pwr, .pcie, .log, .logNext, .out] ⊆ l := by simp) :
    s.frame l (t.issueAt i) := by
  refine h.lift hl fun h => ?_
  unfold State.issueAt
  split
  · exact h
  · extract_lets +onlyGivenNames k old s1
    have h1 : frame _ _ s1 := h.noteCapture
    extract_lets +onlyGivenNames _ s2 f b
    exact h1.update.setArming.askStream

theorem choose (h : s.frame l t) {e : Engine} {waits : List Nat} {u : State} (hl : [.regs, .ctxs] ⊆ l := by simp) :
    s.frame l ((u.choose e waits).2 t) := by
  refine h.lift hl fun h => ?_
  unfold State.choose
  split
  · exact h.setSlotTab
  · extract_lets xs
    split
    · exact h
    · split
      · exact h
      · exact compareTable (either h.addFld.addFld h)

theorem grant (h : s.frame l t) {e : Engine} {waits : List Nat} (hl : [.regs, .ctxs, .deposits, .blks, .armings, .link, .pwr, .pcie, .log,
    .logNext, .out] ⊆ l := by simp) : s.frame l (t.grant e waits) := by
  refine h.lift hl fun h => ?_
  unfold State.grant
  refine either h ?_
  extract_lets +onlyGivenNames r
  split
  · exact h.choose
  · exact h.awaitPeers fun h => either h.choose.issueAt h.needMeta

theorem execTransferGrant (h : s.frame l t) {e : Engine} {waits : List Nat} (hl : [.regs, .ctxs, .deposits, .blks, .armings, .link, .pwr,
    .pcie, .log, .logNext, .out] ⊆ l := by simp) : s.frames l (execTransferGrant e waits t) := by
  refine h.liftOutcome hl fun h => ?_
  unfold Machine.execTransferGrant
  exact (h.orStall (fun h1 => h1.touch.grant)).next

theorem retire (h : s.frame l t) {c : CtxId} {e : Engine} {slot : Nat} (hl : [.regs, .armings, .link, .pwr, .pcie, .log, .logNext, .out] ⊆ l
    := by simp) : s.frame l (t.retire c e slot) := by
  refine h.lift hl fun h => ?_
  unfold State.retire
  split
  · exact h
  · split
    · exact h
    · split
      · exact h
      · extract_lets +onlyGivenNames r
        exact h.arrive.setArming

theorem execTransferRetire (h : s.frame l t) {c : CtxId} {e : Engine} {slot : Nat} (hl : [.regs, .armings, .link, .pwr, .pcie, .log,
    .logNext, .out] ⊆ l := by simp) : s.frames l (execTransferRetire c e slot t) := by
  refine h.liftOutcome hl fun h => ?_
  unfold Machine.execTransferRetire
  exact h.retire.next

theorem tileLate (h : s.frame l t) {c : CtxId} {e : Engine} {slot : Nat} (hl : [.regs, .armings, .link] ⊆ l := by simp) : s.frame l
    (t.tileLate c e slot) := by
  refine h.lift hl fun h => ?_
  unfold State.tileLate
  split
  · exact h
  · split
    · exact h
    · exact h.setArming.dropReqs.addFld

theorem execTileDeadlineExpiry (h : s.frame l t) {c : CtxId} {e : Engine} {slot : Nat} (hl : [.regs, .armings, .link] ⊆ l := by simp) :
    s.frames l (execTileDeadlineExpiry c e slot t) := by
  refine h.liftOutcome hl fun h => ?_
  unfold Machine.execTileDeadlineExpiry
  exact h.tileLate.next

theorem refreshOne (h : s.frame l t) {i : Nat} (hl : [.regs, .armings] ⊆ l := by simp) : s.frame l (t.refreshOne i) := by
  refine h.lift hl fun h => ?_
  unfold State.refreshOne
  split
  · exact h
  · split
    · exact h
    · exact h.setArming.div

theorem refresh (h : s.frame l t) {r1 : List Nat} (hl : [.regs, .armings] ⊆ l := by simp) : s.frame l (t.refresh r1) := by
  refine h.lift hl ?_
  clear h hl
  intro s h
  induction r1 generalizing t with
  | nil => exact h
  | cons y ys ih =>
    unfold State.refresh
    exact (ih h.refreshOne)

theorem execDramRefresh (h : s.frame l t) {hits : List Nat} (hl : [.regs, .armings] ⊆ l := by simp) : s.frames l (execDramRefresh hits t) :=
    by
  refine h.liftOutcome hl fun h => ?_
  unfold Machine.execDramRefresh
  exact h.refresh.next

/-! ### MATMUL at command start (R121, R131, R132, R134, R136, R146) -/

theorem matStart (h : s.frame l t) {x : Exec} (hl : [.regs, .blks, .link, .pwr, .pcie, .log, .logNext, .out] ⊆ l := by simp) : s.frame l
    (t.matStart x).2 := by
  refine h.lift hl fun h => ?_
  unfold State.matStart
  extract_lets +onlyGivenNames e
  split
  next heq => exact h.readHdr.cast heq
  next h0 s1 heq =>
    have h1 : frame _ _ s1 := h.readHdr.cast heq
    extract_lets +onlyGivenNames rd
    have hrd := h.toward rd.2 <| by
      simp only [rd]
      split
      · split
        next heq => exact h1.readHdr.cast heq
        next heq => exact h1.readHdr.cast heq
      · exact h1
    clear_value rd
    split
    next => exact hrd
    next s2 =>
      have h2 : frame _ _ s2 := hrd
      extract_lets +onlyGivenNames hd o
      split
      · exact h2
      · split
        · split
          · exact h2
          · extract_lets +onlyGivenNames base
            split
            · split
              · exact h2
              · exact h2
            · split
              next heq => exact h2.readHdr.cast heq
              next s3 heq =>
                have h3 : frame _ _ s3 := h2.readHdr.cast heq
                extract_lets +onlyGivenNames i
                split
                · exact h3
                · exact h3
        · exact h2

/-! ### The product (R124 to R130, R136) -/

theorem writeRows (h : s.frame l t) {x : Exec} {f : Fmt} {dst stride b : Nat} {r6 : List (List (Nat × Bool))} (hl : [.mem, .hostMem,
    .deposits, .poison, .bch, .objs, .link, .pwr, .out] ⊆ l := by simp) : s.frame l (t.writeRows x f dst stride b r6).1 := by
  refine h.lift hl ?_
  clear h hl
  intro s h
  induction r6 generalizing t x f dst stride b with
  | nil => exact h
  | cons y ys ih =>
    unfold State.writeRows
    extract_lets +onlyGivenNames r q
    exact (ih h.writeBytes)

theorem mxeFinish (h : s.frame l t) {x : Exec} {f : Fmt} {dst stride : Nat} {rows : List (List (Nat × Bool))} {hh : Hdr} {sts : List Status}
    {port : Nat} (hl : [.regs, .running, .mem, .hostMem, .deposits, .poison, .bch, .objs, .link, .pwr, .out] ⊆ l := by simp) : s.frame l
    (t.mxeFinish x f dst stride rows hh sts port) := by
  refine h.lift hl fun h => ?_
  unfold State.mxeFinish
  extract_lets +onlyGivenNames w q flat bad s1
  exact h.writeRows.writeHdr.addFld.image.report

theorem matBody (h : s.frame l t) {x : Exec} {i : MatIn} (hl : [.regs, .running, .mem, .hostMem, .deposits, .poison, .bch, .objs, .blks,
    .armings, .link, .pwr, .pcie, .log, .logNext, .out] ⊆ l := by simp) : s.frame l (t.matBody x i) := by
  refine h.lift hl fun h => ?_
  unfold State.matBody
  extract_lets +onlyGivenNames e rb ra acts
  have h1 : frame _ _ ra.2 := h.readRows
  split
  · exact h1
  · extract_lets +onlyGivenNames rw sh rl rs
    have h2 : frame _ _ rw.2 := h1.readWeights
    have h3 := h.toward rl.2 <| by
      simp only [rl]
      split
      · exact h2.readOperand
      · exact h2
    have h4 := h.toward rs.2 <| by
      simp only [rs]
      split
      · exact h3.readOperand
      · exact h3
    exact h4.mxeFinish

theorem matOne (h : s.frame l t) {x : Exec} (hl : [.regs, .running, .mem, .hostMem, .deposits, .poison, .bch, .objs, .blks, .armings, .link,
    .pwr, .pcie, .log, .logNext, .out] ⊆ l := by simp) : s.frame l (t.matOne x) := by
  refine h.lift hl fun h => ?_
  unfold State.matOne
  split
  next heq => exact (h.matStart.cast heq).report
  next heq => exact either (h.matStart.cast heq).report (h.matStart.cast heq).matBody

/-! ### Fill lists (R142, R143) -/

theorem runFills (h : s.frame l t) {used : Nat} {xs : List Exec} (hl : [.regs, .running, .mem, .hostMem, .deposits, .poison, .bch, .objs,
    .blks, .armings, .link, .pwr, .pcie, .log, .logNext, .out] ⊆ l := by simp) : s.frame l (t.runFills used xs) := by
  refine h.lift hl ?_
  clear h hl
  intro s h
  induction xs generalizing t used with
  | nil => exact h
  | cons f xs ih =>
    unfold State.runFills
    extract_lets e bad
    clear_value bad
    cases bad with
    | none => exact ih h.matOne
    | some p => exact ih h.report

theorem abortFills (h : s.frame l t) {r1 : List Exec} (hl : [.running] ⊆ l := by simp) : s.frame l (t.abortFills r1) := by
  refine h.lift hl ?_
  clear h hl
  intro s h
  induction r1 generalizing t with
  | nil => exact h
  | cons y ys ih =>
    unfold State.abortFills
    exact (ih h.report)

theorem matmulRun (h : s.frame l t) {x : Exec} (hl : [.regs, .running, .mem, .hostMem, .deposits, .poison, .bch, .objs, .blks, .armings,
    .link, .pwr, .pcie, .log, .logNext, .out] ⊆ l := by simp) : s.frame l (matmulRun x t) := by
  refine h.lift hl fun h => ?_
  unfold Machine.matmulRun
  extract_lets +onlyGivenNames fills
  split
  next s1 heq =>
    have h1 : frame _ _ s1 := h.matStart.cast heq
    exact either h1.report.abortFills h1.runFills.report.runFills
  next => exact h.runFills.matOne.runFills

theorem execMatmul (h : s.frame l t) {c : CtxId} {slot : Nat} (hl : [.regs, .running, .mem, .hostMem, .deposits, .poison, .bch, .objs,
    .blks, .armings, .link, .pwr, .pcie, .log, .logNext, .out] ⊆ l := by simp) : s.frames l (execMatmul c slot t) := by
  refine h.liftOutcome hl fun h => ?_
  unfold Machine.execMatmul
  exact (h.engineRun (fun h1 => h1.matmulRun)).next

/-! ### Operand stalls (R137) -/

theorem stallEpisode (h : s.frame l t) {cycles : Nat} (hl : [.regs] ⊆ l := by simp) : s.frame l (t.stallEpisode cycles) := by
  refine h.lift hl fun h => ?_
  unfold State.stallEpisode
  split
  · exact h
  · split
    · exact h
    · exact h.addFld.addFld.addFld.div

theorem execOperandStallEpisode (h : s.frame l t) {cycles : Nat} (hl : [.regs] ⊆ l := by simp) : s.frames l (execOperandStallEpisode cycles
    t) := by
  refine h.liftOutcome hl fun h => ?_
  unfold Machine.execOperandStallEpisode
  exact h.stallEpisode.next

/-! ### COMBINE (R130, R147) -/

theorem readNodeHdrs (h : s.frame l t) {x : Exec} {a stride i n : Nat} (hl : [.regs, .blks, .link, .pwr, .pcie, .log, .logNext, .out] ⊆ l :=
    by simp) : s.frame l (t.readNodeHdrs x a stride i n).2 := by
  refine h.lift hl ?_
  clear h hl
  intro s h
  induction n generalizing t i with
  | zero => exact h
  | succ n ih =>
    unfold State.readNodeHdrs
    split
    next heq => exact h.readHdr.cast heq
    next s1 heq =>
      have h1 : frame _ _ s1 := h.readHdr.cast heq
      split
      next heq => exact (ih h1).cast heq
      next heq => exact (ih h1).cast heq

theorem combineRun (h : s.frame l t) {x : Exec} (hl : [.regs, .running, .mem, .hostMem, .deposits, .poison, .bch, .objs, .blks, .armings,
    .link, .pwr, .pcie, .log, .logNext, .out] ⊆ l := by simp) : s.frame l (combineRun x t) := by
  refine h.lift hl fun h => ?_
  unfold Machine.combineRun
  extract_lets +onlyGivenNames e
  split
  next heq => exact (h.readNodeHdrs.cast heq).report
  next s1 heq =>
    have h1 : frame _ _ s1 := h.readNodeHdrs.cast heq
    exact either h1.report <| either h1.report h1.readRows.mxeFinish

theorem execCombine (h : s.frame l t) {c : CtxId} {slot : Nat} (hl : [.regs, .running, .mem, .hostMem, .deposits, .poison, .bch, .objs,
    .blks, .armings, .link, .pwr, .pcie, .log, .logNext, .out] ⊆ l := by simp) : s.frames l (execCombine c slot t) := by
  refine h.liftOutcome hl fun h => ?_
  unfold Machine.execCombine
  exact (h.engineRun (fun h1 => h1.combineRun)).next

/-! ### The completion ring -/

theorem cqMessage (h : s.frame l t) {c : CtxId} (hl : [.ctxs, .link, .pwr, .pcie, .out] ⊆ l := by simp) : s.frame l (t.cqMessage c) := by
  refine h.lift hl fun h => ?_
  unfold State.cqMessage
  exact h.updCtx.sendMsix

theorem countIrq (h : s.frame l t) {c : CtxId} {irq : Bool} (hl : [.ctxs, .link, .pwr, .pcie, .out] ⊆ l := by simp) : s.frame l (t.countIrq
    c irq) := by
  refine h.lift hl fun h => ?_
  unfold State.countIrq
  split
  · extract_lets +onlyGivenNames n s1
    split
    · exact h.updCtx.cqMessage
    · exact h.updCtx
  · exact h

theorem cqWrite (h : s.frame l t) {c : CtxId} {r : CplRec} (hl : [.ctxs, .hostMem, .poison, .bch, .link, .pwr, .pcie, .out] ⊆ l := by simp)
    : s.frame l (t.cqWrite c r) := by
  refine h.lift hl fun h => ?_
  unfold State.cqWrite
  extract_lets +onlyGivenNames x a n
  exact h.hostStore.updCtx.countIrq

theorem cqFlush (h : s.frame l t) {c : CtxId} {r2 : Nat} (hl : [.ctxs, .hostMem, .poison, .bch, .link, .pwr, .pcie, .out] ⊆ l := by simp) :
    s.frame l (t.cqFlush c r2) := by
  refine h.lift hl ?_
  clear h hl
  intro s h
  induction r2 generalizing t c with
  | zero => exact h
  | succ n ih =>
    unfold State.cqFlush
    split
    · exact h
    · split
      · exact h
      · split
        · exact h.wakeDom
        · exact (ih h.updCtx.cqWrite)

theorem cqPost (h : s.frame l t) {c : CtxId} {r : CplRec} (hl : [.ctxs, .hostMem, .poison, .bch, .link, .pwr, .pcie, .out] ⊆ l := by simp) :
    s.frame l (t.cqPost c r) := by
  refine h.lift hl fun h => ?_
  unfold State.cqPost
  extract_lets +onlyGivenNames s1
  exact h.updCtx.cqFlush

/-! ### The Tail -/

theorem tailTaken (h : s.frame l t) {c : CtxId} (hl : [.ctxs] ⊆ l := by simp) : s.frame l (t.tailTaken c) := by
  refine h.lift hl fun h => ?_
  unfold State.tailTaken
  extract_lets +onlyGivenNames n
  exact h.updCtx

theorem tailDropped (h : s.frame l t) {c : CtxId} (hl : [.regs, .ctxs, .link, .pwr, .pcie, .log, .logNext, .out] ⊆ l := by simp) : s.frame l
    (t.tailDropped c) := by
  refine h.lift hl fun h => ?_
  unfold State.tailDropped
  extract_lets +onlyGivenNames s1
  exact h.updCtx.addFld.setFld.logEvent

theorem tailFlush (h : s.frame l t) {c : CtxId} {r2 : Nat} (hl : [.regs, .ctxs, .mem, .hostMem, .deposits, .poison, .bch, .objs, .link,
    .pwr, .pcie, .log, .logNext, .out] ⊆ l := by simp) : s.frame l (t.tailFlush c r2) := by
  refine h.lift hl ?_
  clear h hl
  intro s h
  induction r2 generalizing t c with
  | zero => exact h
  | succ n ih =>
    unfold State.tailFlush
    split
    · exact h
    · split
      · exact h
      · extract_lets +onlyGivenNames put
        split
        · exact (ih h.tailDropped)
        · split
          · exact h.tryOnce (fun h1 => h1.writeBytes)
          · split
            · exact (h.tryOnce (fun h1 => h1.writeBytes)).updCtx
            · exact (ih ((h.tryOnce (fun h1 => h1.writeBytes)).tailTaken))

theorem tailAnswered (h : s.frame l t) {c : CtxId} {ok : Bool} (hl : [.regs, .ctxs, .mem, .hostMem, .deposits, .poison, .bch, .objs, .link,
    .pwr, .pcie, .log, .logNext, .out] ⊆ l := by simp) : s.frame l (t.tailAnswered c ok) := by
  refine h.lift hl fun h => ?_
  unfold State.tailAnswered
  split
  · extract_lets +onlyGivenNames t'
    exact (either h.tailTaken h.tailDropped).tailFlush
  · exact h

theorem tailPost (h : s.frame l t) {c : CtxId} {e : List W64} (hl : [.regs, .ctxs, .mem, .hostMem, .deposits, .poison, .bch, .objs, .link,
    .pwr, .pcie, .log, .logNext, .out] ⊆ l := by simp) : s.frame l (t.tailPost c e) := by
  refine h.lift hl fun h => ?_
  unfold State.tailPost
  split
  · exact h.updCtx.tailFlush
  · exact h.addFld.setFld

/-! ### Context save and restore (R239 to R242, R345, R346, R465) -/

theorem saveStart (h : s.frame l t) {x : Exec} (hl : [.running] ⊆ l := by simp) : s.frame l (t.saveStart x) := by
  refine h.lift hl fun h => ?_
  unfold State.saveStart
  extract_lets +onlyGivenNames t'
  split
  · exact h.report
  · exact h.updExec

theorem noteQueues (h : s.frame l t) {t2 : CtxId} (hl : [.regs, .link, .pwr, .pcie, .log, .logNext, .out] ⊆ l := by simp) : s.frame l
    (t.noteQueues t2) := by
  refine h.lift hl fun h => ?_
  unfold State.noteQueues
  exact h.foldl (fun h1 => h1.noteWord)

theorem saveRun (h : s.frame l t) {x : Exec} (hl : [.regs, .running, .mem, .hostMem, .deposits, .poison, .bch, .objs, .link, .pwr, .pcie,
    .sec, .log, .logNext, .out] ⊆ l := by simp) : s.frame l (saveRun x t) := by
  refine h.lift hl fun h => ?_
  unfold Machine.saveRun
  extract_lets +onlyGivenNames e t'
  split
  · exact h
  · extract_lets +onlyGivenNames n z s0
    have h1 : frame _ _ s0 := h.noteQueues
    extract_lets +onlyGivenNames _ s1 w
    exact h1.update.writeBytes.report

theorem execCtxSave (h : s.frame l t) {c : CtxId} {slot : Nat} (hl : [.regs, .running, .mem, .hostMem, .deposits, .poison, .bch, .objs,
    .armings, .link, .pwr, .pcie, .sec, .log, .logNext, .out] ⊆ l := by simp) : s.frames l (execCtxSave c slot t) := by
  refine h.liftOutcome hl fun h => ?_
  unfold Machine.execCtxSave
  exact (h.engineRun (fun h1 => h1.saveRun)).next

theorem setRegsAt (h : s.frame l t) {t2 : CtxId} {r2 : List (Nat × W64)} (hl : [.regs] ⊆ l := by simp) : s.frame l (t.setRegsAt t2 r2) := by
  refine h.lift hl ?_
  clear h hl
  intro s h
  induction r2 generalizing t t2 with
  | nil => exact h
  | cons y ys ih =>
    unfold State.setRegsAt
    exact (ih h.setReg)

theorem putQueue (h : s.frame l t) {j : Nat} {r2 : List (Nat × Byte)} (hl : [.mem] ⊆ l := by simp) : s.frame l (t.putQueue j r2) := by
  refine h.lift hl ?_
  clear h hl
  intro s h
  induction r2 generalizing t j with
  | nil => exact h
  | cons y ys ih =>
    unfold State.putQueue
    exact (ih h.poke)

theorem putPoison (h : s.frame l t) {w : Nat} {r2 : List Nat} (hl : [.poison] ⊆ l := by simp) : s.frame l (t.putPoison w r2) := by
  refine h.lift hl ?_
  clear h hl
  intro s h
  induction r2 generalizing t w with
  | nil => exact h
  | cons y ys ih =>
    unfold State.putPoison
    exact (ih h.setPoison)

theorem installAll (h : s.frame l t) {r1 : List Arming} (hl : [.armings] ⊆ l := by simp) : s.frame l (t.installAll r1) := by
  refine h.lift hl ?_
  clear h hl
  intro s h
  induction r1 generalizing t with
  | nil => exact h
  | cons y ys ih =>
    unfold State.installAll
    exact (ih h.install)

theorem restore (h : s.frame l t) {t2 : CtxId} {v : Saved} (hl : [.regs, .ctxs, .mem, .poison, .bch, .armings, .link, .sec] ⊆ l := by simp)
    : s.frame l (t.restore t2 v) := by
  refine h.lift hl fun h => ?_
  unfold State.restore
  extract_lets +onlyGivenNames k old _ b s1
  have hctx : (t.removeArms fun a => decide (a.ctx = t2)).ctxs = t.ctxs := ((refl [.armings, .link] t).removeArms).ctxs_eq
  have h1 : frame _ _ s1 := h.removeArms.setCtx (hreq := by simp [b, old, State.ctx, hctx]) (hact := by simp [b, old, State.ctx, hctx])
  extract_lets _ s0
  have h0 : frame _ _ s0 := h1.update
  exact h0.zeroFrom.putQueue.putPoison.setRegsAt.div.installAll

theorem restoreRun (h : s.frame l t) {x : Exec} (hl : [.regs, .ctxs, .running, .mem, .poison, .bch, .blks, .armings, .link, .pwr, .pcie,
    .sec, .log, .logNext, .out] ⊆ l := by simp) : s.frame l (restoreRun x t) := by
  refine h.lift hl fun h => ?_
  unfold Machine.restoreRun
  extract_lets +onlyGivenNames e t' r s1
  split
  · exact h.noteSpan.report
  · split
    · exact h.noteSpan.report
    · split
      · exact h.noteSpan.report
      · split
        · exact h.noteSpan.restore.report
        · exact h.noteSpan.report

theorem execCtxRestore (h : s.frame l t) {c : CtxId} {slot : Nat} (hl : [.regs, .ctxs, .running, .mem, .deposits, .poison, .bch, .blks,
    .armings, .link, .pwr, .pcie, .sec, .log, .logNext, .out] ⊆ l := by simp) : s.frames l (execCtxRestore c slot t) := by
  refine h.liftOutcome hl fun h => ?_
  unfold Machine.execCtxRestore
  exact (h.engineRun (fun h1 => h1.restoreRun)).next

/-! ### Sources -/

theorem readElems (h : s.frame l t) {x : Exec} {a n : Nat} {hh : Hdr} {f : Fmt} (hl : [.regs, .blks, .armings, .link, .pwr, .pcie, .log,
    .logNext, .out] ⊆ l := by simp) : s.frame l (t.readElems x a n hh f).2 := by
  refine h.lift hl fun h => ?_
  unfold State.readElems
  extract_lets +onlyGivenNames r
  exact h.readOperand

theorem readSrc (h : s.frame l t) {x : Exec} {a n : Nat} {want : Option Nat} {accept : Fmt → Bool} (hl : [.regs, .blks, .armings, .link,
    .pwr, .pcie, .log, .logNext, .out] ⊆ l := by simp) : s.frame l (t.readSrc x a n want accept).2 := by
  refine h.lift hl fun h => ?_
  unfold State.readSrc
  split
  next heq => exact h.readHdr.cast heq
  next s1 heq =>
    have h1 : frame _ _ s1 := h.readHdr.cast heq
    split
    · exact h1
    · split
      · split
        next heq => exact h1.readHdr.cast heq
        next s2 heq =>
          have h2 : frame _ _ s2 := h1.readHdr.cast heq
          split
          · split
            · exact h2.readElems
            · exact h2
          · exact h2
      · split
        · split
          · exact h1.readElems
          · exact h1
        · exact h1

/-! ### Conversion with statistics (R44 to R49) -/

theorem addStats (h : s.frame l t) {c : CtxId} {j : Counts} (hl : [.regs] ⊆ l := by simp) : s.frame l (t.addStats c j) := by
  refine h.lift hl fun h => ?_
  unfold State.addStats
  exact h.addFld.addFld.addFld

/-! ### Writing results -/

theorem writeOuts (h : s.frame l t) {x : Exec} {r2 : List VecOut} (hl : [.mem, .hostMem, .deposits, .poison, .bch, .objs, .link, .pwr, .out]
    ⊆ l := by simp) : s.frame l (t.writeOuts x r2).1 := by
  refine h.lift hl ?_
  clear h hl
  intro s h
  induction r2 generalizing t x with
  | nil => exact h
  | cons y ys ih =>
    unfold State.writeOuts
    extract_lets +onlyGivenNames r h' q
    exact (ih h.writeBytes.writeHdr)

theorem vecFinish (h : s.frame l t) {x : Exec} {outs img : List VecOut} {sts : List Status} {port : Nat} {rerun : Bool} (hl : [.running,
    .mem, .hostMem, .deposits, .poison, .bch, .objs, .link, .pwr, .out] ⊆ l := by simp) : s.frame l (t.vecFinish x outs img sts port rerun) :=
    by
  refine h.lift hl fun h => ?_
  unfold State.vecFinish
  extract_lets +onlyGivenNames w n sts' s1
  have h1 := h.toward s1 (by unfold s1; split; exacts [h.writeOuts, h.writeOuts.image])
  exact h1.report

theorem vecFail (h : s.frame l t) {x : Exec} {r : Report} (hl : [.running] ⊆ l := by simp) : s.frame l (t.vecFail x r) := by
  refine h.lift hl fun h => ?_
  unfold State.vecFail
  exact h.report

/-! ### QUANT (R44 to R56) -/

theorem readOutliers (h : s.frame l t) {x : Exec} {a n : Nat} (hl : [.regs, .blks, .armings, .link, .pwr, .pcie, .log, .logNext, .out] ⊆ l
    := by simp) : s.frame l (t.readOutliers x a n).2 := by
  refine h.lift hl fun h => ?_
  unfold State.readOutliers
  split
  · exact h
  · extract_lets +onlyGivenNames r
    split
    · exact h.readOperand
    · exact h.readOperand

theorem quantRun (h : s.frame l t) {x : Exec} (hl : [.regs, .running, .mem, .hostMem, .deposits, .poison, .bch, .objs, .blks, .armings,
    .link, .pwr, .pcie, .log, .logNext, .out] ⊆ l := by simp) : s.frame l (quantRun x t) := by
  refine h.lift hl fun h => ?_
  unfold Machine.quantRun
  extract_lets +onlyGivenNames e
  split
  next heq => exact (h.readSrc.cast heq).vecFail
  next s1 heq =>
    have h1 : frame _ _ s1 := h.readSrc.cast heq
    split
    next heq => exact (h1.readOutliers.cast heq).vecFail
    next s2 heq =>
      have h2 : frame _ _ s2 := h1.readOutliers.cast heq
      exact either (vecFinish (either h2.addStats.addFld h2.addStats)) h2.vecFail

theorem execQuant (h : s.frame l t) {c : CtxId} {slot : Nat} (hl : [.regs, .running, .mem, .hostMem, .deposits, .poison, .bch, .objs, .blks,
    .armings, .link, .pwr, .pcie, .log, .logNext, .out] ⊆ l := by simp) : s.frames l (execQuant c slot t) := by
  refine h.liftOutcome hl fun h => ?_
  unfold Machine.execQuant
  exact (h.engineRun (fun h1 => h1.quantRun)).next

/-! ### FUNC, SCALE_FIND (R46, R60, R66) -/

theorem funcRun (h : s.frame l t) {x : Exec} (hl : [.regs, .running, .mem, .hostMem, .deposits, .poison, .bch, .objs, .blks, .armings,
    .link, .pwr, .pcie, .log, .logNext, .out] ⊆ l := by simp) : s.frame l (funcRun x t) := by
  refine h.lift hl fun h => ?_
  unfold Machine.funcRun
  extract_lets +onlyGivenNames e
  split
  next heq => exact (h.readSrc.cast heq).vecFail
  next heq => exact (h.readSrc.cast heq).vecFinish

theorem execFunc (h : s.frame l t) {c : CtxId} {slot : Nat} (hl : [.regs, .running, .mem, .hostMem, .deposits, .poison, .bch, .objs, .blks,
    .armings, .link, .pwr, .pcie, .log, .logNext, .out] ⊆ l := by simp) : s.frames l (execFunc c slot t) := by
  refine h.liftOutcome hl fun h => ?_
  unfold Machine.execFunc
  exact (h.engineRun (fun h1 => h1.funcRun)).next

theorem scaleFindRun (h : s.frame l t) {x : Exec} (hl : [.regs, .running, .mem, .hostMem, .deposits, .poison, .bch, .objs, .blks, .armings,
    .link, .pwr, .pcie, .log, .logNext, .out] ⊆ l := by simp) : s.frame l (scaleFindRun x t) := by
  refine h.lift hl fun h => ?_
  unfold Machine.scaleFindRun
  extract_lets +onlyGivenNames e
  split
  next heq => exact (h.readSrc.cast heq).vecFail
  next heq => exact (h.readSrc.cast heq).vecFinish

theorem execScaleFind (h : s.frame l t) {c : CtxId} {slot : Nat} (hl : [.regs, .running, .mem, .hostMem, .deposits, .poison, .bch, .objs,
    .blks, .armings, .link, .pwr, .pcie, .log, .logNext, .out] ⊆ l := by simp) : s.frames l (execScaleFind c slot t) := by
  refine h.liftOutcome hl fun h => ?_
  unfold Machine.execScaleFind
  exact (h.engineRun (fun h1 => h1.scaleFindRun)).next

/-! ### NORM, SOFTMAX (R491) -/

theorem rowRun (h : s.frame l t) {op : Nat} {f : Entry → List F32 → List F32} {x : Exec} (hl : [.regs, .running, .mem, .hostMem, .deposits,
    .poison, .bch, .objs, .blks, .armings, .link, .pwr, .pcie, .log, .logNext, .out] ⊆ l := by simp) : s.frame l (rowRun op f x t) := by
  refine h.lift hl fun h => ?_
  unfold Machine.rowRun
  extract_lets +onlyGivenNames e
  split
  next heq => exact (h.readSrc.cast heq).vecFail
  next heq => exact (h.readSrc.cast heq).vecFinish

theorem execNorm (h : s.frame l t) {c : CtxId} {slot : Nat} (hl : [.regs, .running, .mem, .hostMem, .deposits, .poison, .bch, .objs, .blks,
    .armings, .link, .pwr, .pcie, .log, .logNext, .out] ⊆ l := by simp) : s.frames l (execNorm c slot t) := by
  refine h.liftOutcome hl fun h => ?_
  unfold Machine.execNorm
  exact (h.engineRun (fun h1 => h1.rowRun)).next

theorem execSoftmax (h : s.frame l t) {c : CtxId} {slot : Nat} (hl : [.regs, .running, .mem, .hostMem, .deposits, .poison, .bch, .objs,
    .blks, .armings, .link, .pwr, .pcie, .log, .logNext, .out] ⊆ l := by simp) : s.frames l (execSoftmax c slot t) := by
  refine h.liftOutcome hl fun h => ?_
  unfold Machine.execSoftmax
  exact (h.engineRun (fun h1 => h1.rowRun)).next

/-! ### RESCALE (R58) -/

theorem rescaleRun (h : s.frame l t) {x : Exec} (hl : [.regs, .running, .mem, .hostMem, .deposits, .poison, .bch, .objs, .blks, .armings,
    .link, .pwr, .pcie, .log, .logNext, .out] ⊆ l := by simp) : s.frame l (rescaleRun x t) := by
  refine h.lift hl fun h => ?_
  unfold Machine.rescaleRun
  extract_lets +onlyGivenNames e
  split
  next heq => exact (h.readSrc.cast heq).vecFail
  next src s1 heq =>
    have h1 : frame _ _ s1 := h.readSrc.cast heq
    extract_lets +onlyGivenNames nb rd s2
    have h2 : frame _ _ s2 := h1.readOperand
    extract_lets +onlyGivenNames tab
    split
    · exact h2.vecFail
    · exact either h2.vecFail h2.addStats.vecFinish

theorem execRescale (h : s.frame l t) {c : CtxId} {slot : Nat} (hl : [.regs, .running, .mem, .hostMem, .deposits, .poison, .bch, .objs,
    .blks, .armings, .link, .pwr, .pcie, .log, .logNext, .out] ⊆ l := by simp) : s.frames l (execRescale c slot t) := by
  refine h.liftOutcome hl fun h => ?_
  unfold Machine.execRescale
  exact (h.engineRun (fun h1 => h1.rescaleRun)).next

/-! ### OUTLIER (R57) -/

theorem outlierRun (h : s.frame l t) {x : Exec} (hl : [.regs, .running, .mem, .hostMem, .deposits, .poison, .bch, .objs, .blks, .armings,
    .link, .pwr, .pcie, .log, .logNext, .out] ⊆ l := by simp) : s.frame l (outlierRun x t) := by
  refine h.lift hl fun h => ?_
  unfold Machine.outlierRun
  extract_lets +onlyGivenNames e
  split
  next heq => exact (h.readSrc.cast heq).vecFail
  next src s1 heq =>
    have h1 : frame _ _ s1 := h.readSrc.cast heq
    split
    next heq => exact (h1.readHdr.cast heq).vecFail
    next hd s2 heq =>
      have h2 : frame _ _ s2 := h1.readHdr.cast heq
      refine either h2.vecFail ?_
      split
      next heq => exact (h2.readElems.cast heq).vecFail
      next side s3 heq =>
        have h3 : frame _ _ s3 := h2.readElems.cast heq
        have h4 := h.toward (if e.vAux < 320 then (.error { status := .tierFault }, s3) else
            s3.readOutliers x (e.vAux - 320) (hd.n / hd.ch) : Except Report (List Nat) × State).2 <| by
          split
          · exact h3
          · exact h3.readOutliers
        split
        next heq => exact (h4.cast heq).vecFail
        next heq => exact (h4.cast heq).vecFinish

theorem execOutlier (h : s.frame l t) {c : CtxId} {slot : Nat} (hl : [.regs, .running, .mem, .hostMem, .deposits, .poison, .bch, .objs,
    .blks, .armings, .link, .pwr, .pcie, .log, .logNext, .out] ⊆ l := by simp) : s.frames l (execOutlier c slot t) := by
  refine h.liftOutcome hl fun h => ?_
  unfold Machine.execOutlier
  exact (h.engineRun (fun h1 => h1.outlierRun)).next

/-! ### RANDOM (R61, R62, R64) -/

theorem randomRun (h : s.frame l t) {x : Exec} (hl : [.running, .mem, .hostMem, .deposits, .poison, .bch, .objs, .link, .pwr, .out] ⊆ l :=
    by simp) : s.frame l (randomRun x t) := by
  refine h.lift hl fun h => ?_
  unfold Machine.randomRun
  extract_lets +onlyGivenNames e f o
  exact h.vecFinish

theorem execRandom (h : s.frame l t) {c : CtxId} {slot : Nat} (hl : [.running, .mem, .hostMem, .deposits, .poison, .bch, .objs, .armings,
    .link, .pwr, .out] ⊆ l := by simp) : s.frames l (execRandom c slot t) := by
  refine h.liftOutcome hl fun h => ?_
  unfold Machine.execRandom
  exact (h.engineRun (fun h1 => h1.randomRun)).next

/-! ### ADD (R66) -/

theorem addRun (h : s.frame l t) {x : Exec} (hl : [.regs, .running, .mem, .hostMem, .deposits, .poison, .bch, .objs, .blks, .armings, .link,
    .pwr, .pcie, .log, .logNext, .out] ⊆ l := by simp) : s.frame l (addRun x t) := by
  refine h.lift hl fun h => ?_
  unfold Machine.addRun
  extract_lets +onlyGivenNames e
  split
  next heq => exact (h.readSrc.cast heq).vecFail
  next a s1 heq =>
    have h1 : frame _ _ s1 := h.readSrc.cast heq
    split
    next heq => exact (h1.readSrc.cast heq).vecFail
    next heq => exact either (h1.readSrc.cast heq).vecFail (h1.readSrc.cast heq).addStats.vecFinish

theorem execAdd (h : s.frame l t) {c : CtxId} {slot : Nat} (hl : [.regs, .running, .mem, .hostMem, .deposits, .poison, .bch, .objs, .blks,
    .armings, .link, .pwr, .pcie, .log, .logNext, .out] ⊆ l := by simp) : s.frames l (execAdd c slot t) := by
  refine h.liftOutcome hl fun h => ?_
  unfold Machine.execAdd
  exact (h.engineRun (fun h1 => h1.addRun)).next

/-! ### Requests (R192 to R194, R205) -/

theorem admitReq (h : s.frame l t) {c : CtxId} {num : Nat} {u : State} (hu : t.admitReq c num = some u)
    (hl : [.ctxs] ⊆ l := by simp) : s.frame l u := by
  refine h.lift hl fun h => ?_
  unfold State.admitReq at hu
  split at hu
  · cases hu
    exact h.updCtx
  · split at hu
    · cases hu
    · cases hu
      exact h.updCtx

theorem unadmit (h : s.frame l t) {c : CtxId} {num n : Nat} {ends : Bool} (hl : [.ctxs, .orphans, .models, .blks, .tsets] ⊆ l := by simp) :
    s.frame l (t.unadmit c num n ends) := by
  refine h.lift hl fun h => ?_
  unfold State.unadmit
  exact h.updCtx.drainSlots

/-! ### Tags (R202) -/

theorem recheck (h : s.frame l t) {c : CtxId} (hl : [.ctxs] ⊆ l := by simp) : s.frame l (t.recheck c) := by
  refine h.lift hl fun h => ?_
  unfold State.recheck
  exact h.updCtx

/-! ### Decode (R187, R189, R389) -/

theorem noteSlot (h : s.frame l t) {c : CtxId} {loc : Nat} {r3 : List Nat} (hl : [.regs, .link, .pwr, .pcie, .log, .logNext, .out] ⊆ l := by
    simp) : s.frame l (t.noteSlot c loc r3) := by
  refine h.lift hl ?_
  clear h hl
  intro s h
  induction r3 generalizing t c loc with
  | nil => exact h
  | cons y ys ih =>
    unfold State.noteSlot
    exact (ih h.noteWord)

theorem setHead (h : s.frame l t) {c : CtxId} {eng : Engine} {hh : Head} (hl : [.ctxs] ⊆ l := by simp) : s.frame l (t.setHead c eng hh) :=
    by
  refine h.lift hl fun h => ?_
  unfold State.setHead
  exact h.setQueue

theorem hold (h : s.frame l t) {c : CtxId} {eng : Engine} {w : Entry} {f : Fate} (hl : [.ctxs] ⊆ l := by simp) : s.frame l (t.hold c eng w
    f) := by
  refine h.lift hl fun h => ?_
  unfold State.hold
  exact h.setHead

theorem decodePoisoned (h : s.frame l t) {c : CtxId} {eng : Engine} {w : Entry} {mask : Nat} {u : State}
    (hu : t.decodePoisoned c eng w mask = some u) (hl : [.regs, .ctxs, .link, .pwr, .pcie, .log, .logNext, .out] ⊆ l := by simp) :
    s.frame l u := by
  refine h.lift hl fun h => ?_
  unfold State.decodePoisoned at hu
  extract_lets s1 tag at hu
  split at hu
  · cases hu
    exact h.logEvent.setFld
  · split at hu
    · cases hu
      exact h.logEvent.setHead
    · split at hu
      · cases hu
        exact h.logEvent.hold
      · obtain ⟨s2, hs2, rfl⟩ := Option.map_eq_some_iff.mp hu
        exact (h.logEvent.admitReq hs2).hold

theorem decodeClean (h : s.frame l t) {c : CtxId} {eng : Engine} {w : Entry} {u : State}
    (hu : t.decodeClean c eng w = some u) (hl : [.ctxs] ⊆ l := by simp) : s.frame l u := by
  refine h.lift hl fun h => ?_
  unfold State.decodeClean at hu
  split at hu
  · cases hu
    exact h.setHead
  · split at hu
    · cases hu
      exact h.setHead
    · obtain ⟨s1, hs1, rfl⟩ := Option.map_eq_some_iff.mp hu
      exact (h.admitReq hs1).hold

theorem decodeHead (h : s.frame l t) {c : CtxId} {eng : Engine} (hl : [.regs, .ctxs, .orphans, .models, .blks, .tsets, .link, .pwr, .pcie,
    .log, .logNext, .out] ⊆ l := by simp) : s.frame l (t.decodeHead c eng) := by
  refine h.lift hl fun h => ?_
  unfold State.decodeHead
  extract_lets +onlyGivenNames q
  refine either h ?_
  extract_lets +onlyGivenNames ws w mask
  refine either h ?_
  extract_lets +onlyGivenNames s1 s2
  have h2 : frame _ _ s2 := h.noteSlot.setQueue
  refine h.getD fun u hu => ?_
  obtain ⟨s3, hs3, rfl⟩ := Option.map_eq_some_iff.mp hu
  have h3 := h.toward s3 <| by
    split at hs3
    · exact h2.decodeClean hs3
    · exact h2.decodePoisoned hs3
  split
  · exact h3
  · exact h3.unadmit

theorem execQueueEntryDecode (h : s.frame l t) {c : CtxId} {e : Engine} (hl : [.regs, .ctxs, .orphans, .models, .blks, .tsets, .link, .pwr,
    .pcie, .log, .logNext, .out] ⊆ l := by simp) : s.frames l (execQueueEntryDecode c e t) := by
  refine h.liftOutcome hl fun h => ?_
  unfold Machine.execQueueEntryDecode
  exact h.decodeHead.next

/-! ### Hand-over (R31, R32, R91, R197, R224, R336, R337) -/

theorem latchShare (h : s.frame l t) {eng : Engine} (hl : [.shareTab] ⊆ l := by simp) : s.frame l (t.latchShare eng) := by
  refine h.lift hl fun h => ?_
  unfold State.latchShare
  exact h.update

theorem shareFind (h : s.frame l t) {eng : Engine} {n j : Nat} (hl : [.shareTab] ⊆ l := by simp) : s.frame l (t.shareFind eng n j).1 := by
  refine h.lift hl ?_
  clear h hl
  intro s h
  induction n generalizing t j with
  | zero => exact h
  | succ n ih =>
    unfold State.shareFind
    extract_lets s1 c
    have h1 : frame _ _ s1 := either h.latchShare h
    split
    · exact h1
    · exact ih h1

theorem advance (h : s.frame l t) {c : CtxId} {eng : Engine} (hl : [.ctxs] ⊆ l := by simp) : s.frame l (t.advance c eng) := by
  refine h.lift hl fun h => ?_
  unfold State.advance
  extract_lets +onlyGivenNames q
  exact h.setQueue

/-! ### The operands that may attach to armings, in the order the command reads them (R219) -/

theorem attachAll (h : s.frame l t) {x : Exec} (hl : [.armings, .link] ⊆ l := by simp) : s.frame l (t.attachAll x) := by
  refine h.lift hl fun h => ?_
  unfold State.attachAll
  extract_lets +onlyGivenNames s' s1
  have h2 : frame _ _ s1 := (h.foldl (fun h1 => h1.needPeers)).attachOps
  split
  · exact h2.attachWeights
  · exact h2

/-! ### Fill lists (R142, R143) -/

theorem readFills (h : s.frame l t) {v : View} {e : Entry} (hl : [.regs, .blks, .link, .pwr, .pcie, .log, .logNext, .out] ⊆ l := by simp) :
    s.frame l (t.readFills v e).2 := by
  refine h.lift hl fun h => ?_
  unfold State.readFills
  extract_lets +onlyGivenNames n
  split
  · exact h
  · extract_lets +onlyGivenNames r s1
    split
    · exact h.noteSpan
    · split
      · exact h.noteSpan
      · exact h.noteSpan

theorem startFills (h : s.frame l t) {c : CtxId} {slot : Nat} {bind : List (Nat × Nat)} {i : Nat} {es : List Entry}
    (hl : [.ctxs, .running, .armings, .link] ⊆ l := by simp) : s.frame l (t.startFills c slot bind i es) := by
  refine h.lift hl ?_
  clear h hl
  intro s h
  induction es generalizing t i with
  | nil => exact h
  | cons e es ih =>
    unfold State.startFills
    extract_lets +onlyGivenNames fs
    refine ih ?_
    split
    · exact h.update
    · extract_lets b s1
      have h1 : frame _ _ s1 := h.getD fun _ hu => h.admitReq hu
      clear_value s1
      split
      · exact h1.update
      · exact attachAll (h1.update)

theorem startExec (h : s.frame l t) {x : Exec} (hl : [.regs, .ctxs, .running, .blks, .armings, .link, .pwr, .pcie, .log, .logNext, .out] ⊆ l
    := by simp) : s.frame l (t.startExec x) := by
  refine h.lift hl fun h => ?_
  unfold State.startExec
  extract_lets +onlyGivenNames e
  split
  · exact h.copyStart
  · exact h.saveStart
  · exact h.saveStart
  · split
    next heq => exact (h.readFills.cast heq).report
    next heq => exact (h.readFills.cast heq).startFills
  · exact h

theorem handTo (h : s.frame l t) {c : CtxId} {eng : Engine} {w : Entry} (hl : [.freeCtr, .regs, .ctxs, .running, .blks, .armings, .link,
    .pwr, .pcie, .log, .logNext, .out] ⊆ l := by simp) : s.frame l (t.handTo c eng w) := by
  refine h.lift hl fun h => ?_
  unfold State.handTo
  split
  · exact h.setHead
  · split
    · exact h.setQueue
    · extract_lets +onlyGivenNames slot b _ x s0
      have h1 : frame _ _ s0 := (either h.update h)
      extract_lets +onlyGivenNames s1
      have h2 : frame _ _ s1 := h1.advance.dropLost
      exact h2.update.attachAll.startExec

theorem handover (h : s.frame l t) {eng : Engine} (hl : [.freeCtr, .regs, .ctxs, .shareAt, .shareTab, .running, .deposits, .blks, .armings,
    .link, .pwr, .pcie, .log, .logNext, .out] ⊆ l := by simp) : s.frame l (t.handover eng) := by
  refine h.lift hl fun h => ?_
  unfold State.handover
  split
  · exact h
  · split
    · exact h.update
    · exact h.withPeers (fun h1 => h1.update.handTo)

theorem execCommandHandover (h : s.frame l t) {e : Engine} (hl : [.freeCtr, .regs, .ctxs, .shareAt, .shareTab, .running, .deposits, .blks,
    .armings, .link, .pwr, .pcie, .log, .logNext, .out] ⊆ l := by simp) : s.frames l (execCommandHandover e t) := by
  refine h.liftOutcome hl fun h => ?_
  unfold Machine.execCommandHandover
  exact h.handover.next

/-! ### Completion (R190, R195, R199, R202, R342) -/

theorem enterWindow (h : s.frame l t) {c : CtxId} {d : DupEntry} (hl : [.ctxs] ⊆ l := by simp) : s.frame l (t.enterWindow c d) := by
  refine h.lift hl fun h => ?_
  unfold State.enterWindow
  split
  · exact h
  · exact h.updCtx

theorem noteDropped (h : s.frame l t) {n : Ending} (hl : [.regs, .link, .pwr, .pcie, .out] ⊆ l := by simp) : s.frame l (t.noteDropped n) :=
    by
  refine h.lift hl fun h => ?_
  unfold State.noteDropped
  split
  · exact h.addFld.linkEvent
  · exact h

theorem finish (h : s.frame l t) {c : CtxId} {m : Ending} (hl : [.regs, .ctxs, .sysCnt, .hostMem, .poison, .bch, .orphans, .models, .blks,
    .tsets, .link, .pwr, .pcie, .out] ⊆ l := by simp) : s.frame l (t.finish c m) := by
  refine h.lift hl fun h => ?_
  unfold State.finish
  extract_lets +onlyGivenNames n s1 s2
  have h2 : frame _ _ s2 := (either h.noteDropped.signalSys h.noteDropped)
  extract_lets +onlyGivenNames s3 s4 d s5
  have h5 : frame _ _ s5 := (either (either h2.cqPost.signal h2.cqPost).enterWindow (either h2.cqPost.signal h2.cqPost))
  extract_lets +onlyGivenNames s6 s7
  have h7 : frame _ _ s7 := (either (either h5.addFld h5).addFld (either h5.addFld h5))
  extract_lets +onlyGivenNames s8
  have h8 : frame _ _ s8 := (either h7.unadmit (either h7.unadmit h7))
  exact h8.recheck

theorem finishExec (h : s.frame l t) {lost : Bool} {x : Exec} {r : Report} (hl : [.regs, .ctxs, .sysCnt, .mem, .hostMem, .deposits, .poison,
    .bch, .objs, .orphans, .models, .blks, .tsets, .link, .pwr, .pcie, .log, .logNext, .out] ⊆ l := by simp) : s.frame l (t.finishExec lost x
    r) := by
  refine h.lift hl fun h => ?_
  unfold State.finishExec
  extract_lets +onlyGivenNames s1
  split
  · exact (either h.tailPost h).finish
  · exact (either h.tailPost h).finish

theorem finishExecs (h : s.frame l t) {lost : Bool} {r2 : List Exec} (hl : [.regs, .ctxs, .sysCnt, .mem, .hostMem, .deposits, .poison, .bch,
    .objs, .orphans, .models, .blks, .tsets, .link, .pwr, .pcie, .log, .logNext, .out] ⊆ l := by simp) : s.frame l (t.finishExecs lost r2) :=
    by
  refine h.lift hl ?_
  clear h hl
  intro s h
  induction r2 generalizing t lost with
  | nil => exact h
  | cons y ys ih =>
    unfold State.finishExecs
    exact (ih h.finishExec)

theorem setHeld (h : s.frame l t) {c : CtxId} {eng : Engine} {held : Bool} (hl : [.link] ⊆ l := by simp) : s.frame l (t.setHeld c eng held)
    := by
  refine h.lift hl fun h => ?_
  unfold State.setHeld
  extract_lets +onlyGivenNames l'
  exact h.update

theorem completeExec (h : s.frame l t) {lost : Bool} {x : Exec} (hl : [.regs, .ctxs, .running, .sysCnt, .mem, .hostMem, .deposits, .poison,
    .bch, .objs, .orphans, .models, .blks, .armings, .tsets, .link, .pwr, .pcie, .log, .logNext, .out] ⊆ l := by simp) : s.frame l
    (t.completeExec lost x) := by
  refine h.lift hl fun h => ?_
  unfold State.completeExec
  extract_lets +onlyGivenNames fills
  split
  · exact h
  · split
    · exact h
    · extract_lets +onlyGivenNames all
      split
      · exact h.setHeld
      · refine retireArms (finishExecs (foldl ?_ fun h => h.detachArms))
        exact h.setHeld.update

theorem finishFills (h : s.frame l t) {c : CtxId} {slot detail : Nat} {lost : Bool} {r5 : List Entry} (hl : [.regs, .ctxs, .sysCnt,
    .hostMem, .poison, .bch, .orphans, .models, .blks, .tsets, .link, .pwr, .pcie, .out] ⊆ l := by simp) : s.frame l (t.finishFills c slot
    detail lost r5) := by
  refine h.lift hl ?_
  clear h hl
  intro s h
  induction r5 generalizing t c slot detail lost with
  | nil => exact h
  | cons y ys ih =>
    unfold State.finishFills
    extract_lets +onlyGivenNames r
    exact (ih h.finish)

theorem finishHead (h : s.frame l t) {lost : Bool} {c : CtxId} {eng : Engine} {n : Ending} {fillDetail : Option Nat} (hl : [.regs, .ctxs,
    .sysCnt, .hostMem, .poison, .bch, .orphans, .models, .blks, .tsets, .link, .pwr, .pcie, .log, .logNext, .out] ⊆ l := by simp) : s.frame l
    (t.finishHead lost c eng n fillDetail) := by
  refine h.lift hl fun h => ?_
  unfold State.finishHead
  extract_lets +onlyGivenNames slot r
  have hr := h.toward r.2 <| by
    simp only [r]
    split
    · split
      · exact h.readFills
      · exact h
    · exact h
  extract_lets +onlyGivenNames es
  exact either h.setHeld hr.dropLost.setHeld.advance.finish.finishFills

theorem completeHead (h : s.frame l t) {lost : Bool} {c : CtxId} {eng : Engine} (hl : [.regs, .ctxs, .sysCnt, .mem, .hostMem, .deposits,
    .poison, .bch, .objs, .orphans, .models, .blks, .tsets, .link, .pwr, .pcie, .log, .logNext, .out] ⊆ l := by simp) : s.frame l
    (t.completeHead lost c eng) := by
  refine h.lift hl fun h => ?_
  unfold State.completeHead
  extract_lets +onlyGivenNames q base
  split
  · extract_lets +onlyGivenNames _ x s1
    exact (either h.tailPost h).finishHead
  · split
    · exact h
    · split
      · split
        · exact h.finishHead
        · exact h
      · split
        · exact h.finishHead
        · exact h
      · split
        · exact h.finishHead
        · exact h
      · exact h.finishHead
      · exact h.finishHead
      · exact h
      · exact h
  · exact h

theorem complete (h : s.frame l t) {lost : Bool} {c : CtxId} {eng : Engine} (hl : [.regs, .ctxs, .running, .sysCnt, .mem, .hostMem,
    .deposits, .poison, .bch, .objs, .orphans, .models, .blks, .armings, .tsets, .link, .pwr, .pcie, .log, .logNext, .out] ⊆ l := by simp) :
    s.frame l (t.complete lost c eng) := by
  refine h.lift hl fun h => ?_
  unfold State.complete
  split
  · exact h.completeExec
  · exact h.completeHead

/-! ### Migration requests (R260) -/

theorem migRequest (h : s.frame l t) {c : CtxId} {op : Nat} {v : W64} (hl : [.regs, .mig, .link, .pwr, .pcie, .log, .logNext, .out] ⊆ l :=
    by simp) : s.frame l (t.migRequest c op v) := by
  refine h.lift hl fun h => ?_
  unfold State.migRequest
  extract_lets +onlyGivenNames m
  split
  · exact h.addFld.logEvent
  · exact h.update

theorem execPromote (h : s.frame l t) {c : CtxId} {v : W64} (hl : [.regs, .mig, .link, .pwr, .pcie, .log, .logNext, .out] ⊆ l := by simp) :
    s.frames l (execPromote c v t) := by
  refine h.liftOutcome hl fun h => ?_
  unfold Machine.execPromote
  exact h.migRequest.next

theorem execEvict (h : s.frame l t) {c : CtxId} {v : W64} (hl : [.regs, .mig, .link, .pwr, .pcie, .log, .logNext, .out] ⊆ l := by simp) :
    s.frames l (execEvict c v t) := by
  refine h.liftOutcome hl fun h => ?_
  unfold Machine.execEvict
  exact h.migRequest.next

theorem execWriteback (h : s.frame l t) {c : CtxId} {v : W64} (hl : [.regs, .mig, .link, .pwr, .pcie, .log, .logNext, .out] ⊆ l := by simp)
    : s.frames l (execWriteback c v t) := by
  refine h.liftOutcome hl fun h => ?_
  unfold Machine.execWriteback
  exact h.migRequest.next

/-! ### Copies, references and charges of an object (R253, R263, R264) -/

theorem setObj (h : s.frame l t) {i : Nat} {o : Obj} (hl : [.objs] ⊆ l := by simp) : s.frame l (t.setObj i o) := by
  refine h.lift hl fun h => ?_
  unfold State.setObj
  exact h.update

theorem zeroTier (h : s.frame l t) {t2 idx size : Nat} (hl : [.mem, .poison, .bch] ⊆ l := by simp) : s.frame l (t.zeroTier t2 idx size) :=
    by
  refine h.lift hl fun h => ?_
  unfold State.zeroTier
  exact h.zeroFrom

theorem freed0 (h : s.frame l t) {idx : Nat} (hl : [.pwr] ⊆ l := by simp) : s.frame l (t.freed0 idx) := by
  refine h.lift hl fun h => ?_
  unfold State.freed0
  extract_lets +onlyGivenNames o
  split
  · exact h.update
  · exact h

theorem poisonWords (h : s.frame l t) {r1 : List Nat} (hl : [.poison, .bch] ⊆ l := by simp) : s.frame l (t.poisonWords r1) := by
  refine h.lift hl ?_
  clear h hl
  intro s h
  induction r1 generalizing t with
  | nil => exact h
  | cons y ys ih =>
    unfold State.poisonWords
    exact (ih h.setPoison.freshen)

theorem findPages (h : s.frame l t) {idx : Nat} {bs : List Nat} (hl : [.freeCtr, .poison, .bch] ⊆ l := by simp) :
    s.frame l (t.findPages idx bs) := by
  refine h.lift hl ?_
  clear h hl
  intro s h
  induction bs generalizing t with
  | nil => exact h
  | cons b bs ih =>
    unfold State.findPages
    extract_lets +onlyGivenNames r
    have hr := h.toward r.2 <| by
      simp only [r]
      split
      · exact h.takeFree
      · exact h
    exact ih (either hr.poisonWords hr)

/-! ### Starting an operation (R262, R263, R270, R311) -/

theorem failMigs (h : s.frame l t) {p : MigReq → Obj → Bool} (hl : [.mig] ⊆ l := by simp) : s.frame l (t.failMigs p) := by
  refine h.lift hl fun h => ?_
  unfold State.failMigs
  exact h.update

theorem updMig (h : s.frame l t) {c : CtxId} {id : Nat} {f : MigReq → MigReq} (hl : [.mig] ⊆ l := by simp) : s.frame l (t.updMig c id f) :=
    by
  refine h.lift hl fun h => ?_
  unfold State.updMig
  exact h.update

theorem migBegin (h : s.frame l t) {m : MigReq} (hl : [.objs, .mig] ⊆ l := by simp) : s.frame l (t.migBegin m) := by
  refine h.lift hl fun h => ?_
  unfold State.migBegin
  extract_lets +onlyGivenNames ends
  have hends : ∀ st i, frame _ _ (ends st i) := fun _ _ => h.updMig
  refine either h.updMig <| either (hends _ _) ?_
  split
  · exact hends _ _
  · refine either (hends _ _) <| either (hends _ _) ?_
    extract_lets +onlyGivenNames s1 wb
    have h1 : frame _ _ s1 := h.setObj
    exact either (either h1.setObj.updMig h1.updMig) h1.updMig

theorem migStart (h : s.frame l t) (hl : [.objs, .mig, .link, .pwr] ⊆ l := by simp) : s.frame l t.migStart := by
  refine h.lift hl fun h => ?_
  unfold State.migStart
  split
  · exact h
  · split
    · exact h
    · exact h.orStall (fun h1 => h1.touch.migBegin)

theorem execMigrationOpStart (h : s.frame l t) (hl : [.objs, .mig, .link, .pwr] ⊆ l := by simp) : s.frames l (execMigrationOpStart t) := by
  refine h.liftOutcome hl fun h => ?_
  unfold Machine.execMigrationOpStart
  exact h.migStart.next

/-! ### Ending an operation (R261, R263 to R265, R269) -/

theorem migPost (h : s.frame l t) {m : MigReq} (hl : [.ctxs, .hostMem, .poison, .bch] ⊆ l := by simp) : s.frame l (t.migPost m) := by
  refine h.lift hl fun h => ?_
  unfold State.migPost
  extract_lets +onlyGivenNames a s1
  split
  · exact h.hostStore.scnAdd
  · exact h.hostStore

theorem migPostAll (h : s.frame l t) {r1 : List MigReq} (hl : [.ctxs, .hostMem, .poison, .bch] ⊆ l := by simp) : s.frame l (t.migPostAll r1)
    := by
  refine h.lift hl ?_
  clear h hl
  intro s h
  induction r1 generalizing t with
  | nil => exact h
  | cons y ys ih =>
    unfold State.migPostAll
    exact (ih h.migPost)

theorem migFinish (h : s.frame l t) {m : MigReq} {st : Status} {moved : Bool} (hl : [.regs, .ctxs, .hostMem, .poison, .bch, .objs, .mig,
    .migWait, .link, .pwr] ⊆ l := by simp) : s.frame l (t.migFinish m st moved) := by
  refine h.lift hl fun h => ?_
  unfold State.migFinish
  extract_lets +onlyGivenNames e _ s1
  have h1 : frame _ _ s1 := h.update
  extract_lets +onlyGivenNames s2
  have h2 := h.toward s2 (by unfold s2; split; exacts [h1.setObj, h1])
  extract_lets +onlyGivenNames s3
  have h3 : frame _ _ s3 := (either h2.addFld h2)
  extract_lets +onlyGivenNames s4
  have h4 : frame _ _ s4 := (either h3.addFld h3)
  extract_lets +onlyGivenNames s5
  have h5 : frame _ _ s5 := (either h4.addFld h4)
  split
  · exact h5.migPost
  · exact h5.update.wakeDom

theorem migUndo (h : s.frame l t) {m : MigReq} (hl : [.objs] ⊆ l := by simp) : s.frame l (t.migUndo m) := by
  refine h.lift hl fun h => ?_
  unfold State.migUndo
  split
  · exact h
  · extract_lets +onlyGivenNames o o1
    exact h.setObj

theorem copyPage (h : s.frame l t) {m : MigReq} {o : Obj} {src : Nat → Option Loc} {q : Nat} {put : State → List SB → State}
    {u : State} (hu : t.copyPage m o src q put = some u) (hput : ∀ {u : State} {b : List SB}, s.frame l u → s.frame l (put u b))
    (hl : [.regs, .blks, .link, .pwr, .pcie, .log, .logNext, .out] ⊆ l := by simp) : s.frame l u := by
  unfold State.copyPage at hu
  extract_lets offs bytes s1 at hu
  split at hu
  · cases hu
  · cases hu
    exact hput ((h.notePlace (within hl)).addFld (within hl))

theorem fillCopy (h : s.frame l t) {m : MigReq} {idx : Nat} {o : Obj} {qs : List Nat} {u : State} (hu : t.fillCopy m idx o qs = some u)
    (hl : [.regs, .mem, .poison, .bch, .blks, .link, .pwr, .pcie, .log, .logNext, .out] ⊆ l := by simp) : s.frame l u := by
  refine h.lift hl ?_
  clear h hl
  intro s h
  induction qs generalizing t with
  | nil =>
    cases hu
    exact h
  | cons q qs ih =>
    unfold State.fillCopy at hu
    obtain ⟨s1, hs1, hrest⟩ := Option.bind_eq_some_iff.mp hu
    exact ih hrest (h.copyPage hs1 fun h => h.touch.store)

theorem putHome (h : s.frame l t) {m : MigReq} {loc : Loc} {b : List SB} (hl : [.mem, .hostMem, .poison, .bch, .link, .pwr, .out] ⊆ l := by
    simp) : s.frame l (t.putHome m loc b) := by
  refine h.lift hl fun h => ?_
  unfold State.putHome
  split
  · exact h.touch.store
  · exact h.touch.store
  · exact h.hostStore
  · exact h.peerWrite
  · exact h

theorem writeHome (h : s.frame l t) {m : MigReq} {idx : Nat} {o : Obj} {qs : List Nat} {u : State}
    (hu : t.writeHome m idx o qs = some u)
    (hl : [.regs, .mem, .hostMem, .poison, .bch, .blks, .link, .pwr, .pcie, .log, .logNext, .out] ⊆ l := by simp) : s.frame l u := by
  refine h.lift hl ?_
  clear h hl
  intro s h
  induction qs generalizing t with
  | nil =>
    cases hu
    exact h
  | cons q qs ih =>
    unfold State.writeHome at hu
    obtain ⟨loc, -, hloc⟩ := Option.bind_eq_some_iff.mp hu
    obtain ⟨s1, hs1, hrest⟩ := Option.bind_eq_some_iff.mp hloc
    exact ih hrest (h.copyPage hs1 fun h => h.putHome)

theorem evictEnd (h : s.frame l t) {m : MigReq} {i : Nat} {moved : Bool} (hl : [.regs, .ctxs, .mem, .hostMem, .poison, .bch, .objs, .mig,
    .migWait, .link, .pwr] ⊆ l := by simp) : s.frame l (t.evictEnd m i moved) := by
  refine h.lift hl fun h => ?_
  unfold State.evictEnd
  extract_lets +onlyGivenNames o o1
  split
  · exact (either h.freed0 h).zeroTier.setObj.migFinish
  · exact h.setObj.migFinish

theorem writeBackEnd (h : s.frame l t) {m : MigReq} {i : Nat} (hl : [.regs, .ctxs, .mem, .hostMem, .poison, .bch, .objs, .mig, .migWait,
    .blks, .link, .pwr, .pcie, .log, .logNext, .out] ⊆ l := by simp) : s.frame l (t.writeBackEnd m i) := by
  refine h.lift hl fun h => ?_
  unfold State.writeBackEnd
  extract_lets +onlyGivenNames o
  refine either h <| either (either h.evictEnd h.migFinish) ?_
  split
  next => exact h.migUndo.migFinish
  next s1 hs1 =>
    extract_lets +onlyGivenNames _ s2
    have h2 : frame _ _ s2 := (h.writeHome hs1).setObj
    exact either h2.updMig <| either h2.evictEnd h2.migFinish

theorem migEndAt (h : s.frame l t) {m : MigReq} {i : Nat} (hl : [.regs, .ctxs, .mem, .hostMem, .poison, .bch, .objs, .mig, .migWait, .blks,
    .link, .pwr, .pcie, .log, .logNext, .out] ⊆ l := by simp) : s.frame l (t.migEndAt m i) := by
  refine h.lift hl fun h => ?_
  unfold State.migEndAt
  extract_lets +onlyGivenNames o
  split
  · split
    · split
      next => exact h.migUndo.migFinish
      next hs1 => exact (h.fillCopy hs1).setObj.migFinish
    · exact either h.migFinish h.setObj.migFinish
  · exact either h.migFinish <| either h.writeBackEnd h.evictEnd
  · exact either h.writeBackEnd h.migFinish

theorem migEnd (h : s.frame l t) {c : CtxId} {id : Nat} (hl : [.regs, .ctxs, .mem, .hostMem, .deposits, .poison, .bch, .objs, .mig,
    .migWait, .blks, .link, .pwr, .pcie, .log, .logNext, .out] ⊆ l := by simp) : s.frame l (t.migEnd c id) := by
  refine h.lift hl fun h => ?_
  unfold State.migEnd
  split
  · exact h
  · split
    · exact h.migUndo.migFinish
    · exact h.migFinish
    · split
      · exact h
      · exact h.awaitPeers (fun h1 => h1.migEndAt)

theorem execMigrationOpEnd (h : s.frame l t) {c : CtxId} {id : BitVec 8} (hl : [.regs, .ctxs, .mem, .hostMem, .deposits, .poison, .bch,
    .objs, .mig, .migWait, .blks, .link, .pwr, .pcie, .log, .logNext, .out] ⊆ l := by simp) : s.frames l (execMigrationOpEnd c id t) := by
  refine h.liftOutcome hl fun h => ?_
  unfold Machine.execMigrationOpEnd
  exact h.migEnd.next

theorem migLate (h : s.frame l t) {c : CtxId} {id : Nat} (hl : [.regs, .ctxs, .hostMem, .poison, .bch, .objs, .mig, .migWait, .link, .pwr] ⊆
    l := by simp) : s.frame l (t.migLate c id) := by
  refine h.lift hl fun h => ?_
  unfold State.migLate
  split
  · exact h
  · exact h.migUndo.migFinish

theorem execMigrationDeadline (h : s.frame l t) {c : CtxId} {id : BitVec 8} (hl : [.regs, .ctxs, .hostMem, .poison, .bch, .objs, .mig,
    .migWait, .link, .pwr] ⊆ l := by simp) : s.frames l (execMigrationDeadline c id t) := by
  refine h.liftOutcome hl fun h => ?_
  unfold Machine.execMigrationDeadline
  exact h.migLate.next

theorem migAbortL (h : s.frame l t) {r1 : List MigReq} (hl : [.regs, .ctxs, .hostMem, .poison, .bch, .objs, .mig, .migWait, .link, .pwr] ⊆ l
    := by simp) : s.frame l (t.migAbortL r1) := by
  refine h.lift hl ?_
  clear h hl
  intro s h
  induction r1 generalizing t with
  | nil => exact h
  | cons y ys ih =>
    unfold State.migAbortL
    exact (ih h.migFinish)

theorem migAbort (h : s.frame l t) {c : CtxId} (hl : [.regs, .ctxs, .hostMem, .poison, .bch, .objs, .mig, .migWait, .link, .pwr] ⊆ l := by
    simp) : s.frame l (t.migAbort c) := by
  refine h.lift hl fun h => ?_
  unfold State.migAbort
  exact h.migAbortL

/-! ### The edit banks (R254, R256) -/

theorem setBank (h : s.frame l t) {who : Requester} {b : EditBank} (hl : [.bankHost, .bankMgc] ⊆ l := by simp) : s.frame l (t.setBank who b)
    := by
  refine h.lift hl fun h => ?_
  unfold State.setBank
  split
  · exact h.update
  · exact h.update
  · exact h

theorem withBank (h : s.frame l t) {who : Requester} {f : EditBank → State} (hf : ∀ {b : EditBank}, s.frame l (f b)) :
    s.frame l (t.withBank who f) := by
  unfold State.withBank
  cases t.bank? who
  · exact h
  · exact hf

theorem execQuiesceRequest (h : s.frame l t) {who : Requester} (hl : [.bankHost, .bankMgc] ⊆ l := by simp) : s.frames l (execQuiesceRequest
    who t) := by
  refine h.liftOutcome hl fun h => ?_
  unfold Machine.execQuiesceRequest
  exact (h.withBank (h.setBank)).next

theorem execQuiesceDone (h : s.frame l t) (hl : [.bankHost, .bankMgc] ⊆ l := by simp) : s.frames l (execQuiesceDone t) := by
  refine h.liftOutcome hl fun h => ?_
  unfold Machine.execQuiesceDone
  exact (either h.update h).next

theorem execQuiesceRelease (h : s.frame l t) {who : Requester} (hl : [.bankHost, .bankMgc] ⊆ l := by simp) : s.frames l (execQuiesceRelease
    who t) := by
  refine h.liftOutcome hl fun h => ?_
  unfold Machine.execQuiesceRelease
  exact (h.withBank (h.setBank)).next

/-! ### The object table (R253, R255, R257) -/

theorem create (h : s.frame l t) {who : Requester} (hl : [.freeCtr, .poison, .bch, .objs, .bankHost, .bankMgc] ⊆ l := by simp) : s.frame l
    (t.create who) := by
  refine h.lift hl fun h => ?_
  unfold State.create
  exact h.withBank ((either h.setBank.setObj.findPages h.setBank))

theorem execCreate (h : s.frame l t) {who : Requester} (hl : [.freeCtr, .poison, .bch, .objs, .bankHost, .bankMgc] ⊆ l := by simp) :
    s.frames l (execCreate who t) := by
  refine h.liftOutcome hl fun h => ?_
  unfold Machine.execCreate
  exact h.create.next

theorem objRead (h : s.frame l t) {who : Requester} (hl : [.bankHost, .bankMgc] ⊆ l := by simp) : s.frame l (t.objRead who) := by
  refine h.lift hl fun h => ?_
  unfold State.objRead
  exact h.withBank (h.setBank)

theorem execObjRead (h : s.frame l t) {who : Requester} (hl : [.bankHost, .bankMgc] ⊆ l := by simp) : s.frames l (execObjRead who t) := by
  refine h.liftOutcome hl fun h => ?_
  unfold Machine.execObjRead
  exact h.objRead.next

theorem releasePages (h : s.frame l t) {i : Nat} {o : Obj} (hl : [.pmap, .orphans, .blks] ⊆ l := by simp) : s.frame l (t.releasePages i o)
    := by
  refine h.lift hl fun h => ?_
  unfold State.releasePages
  extract_lets +onlyGivenNames pages s1
  have h1 : frame _ _ s1 := h.update
  split
  · split
    · exact h1.pagesDead
    · split
      · exact h1
      · exact h1.update
  · exact h1.pagesDead

theorem deleteObj (h : s.frame l t) {i : Nat} (hl : [.mem, .poison, .bch, .objs, .pmap, .orphans, .mig, .blks, .pwr] ⊆ l := by simp) :
    s.frame l (t.deleteObj i) := by
  refine h.lift hl fun h => ?_
  unfold State.deleteObj
  extract_lets +onlyGivenNames o hit s1 s2
  have h2 : frame _ _ s2 := h.update.freed0.zeroTier.zeroTier.releasePages
  exact h2.setObj

theorem delete (h : s.frame l t) {who : Requester} (hl : [.mem, .poison, .bch, .objs, .pmap, .orphans, .mig, .bankHost, .bankMgc, .blks,
    .pwr] ⊆ l := by simp) : s.frame l (t.delete who) := by
  refine h.lift hl fun h => ?_
  unfold State.delete
  exact h.withBank ((either h.setBank.deleteObj h.setBank))

theorem execDelete (h : s.frame l t) {who : Requester} (hl : [.mem, .poison, .bch, .objs, .pmap, .orphans, .mig, .bankHost, .bankMgc, .blks,
    .pwr] ⊆ l := by simp) : s.frames l (execDelete who t) := by
  refine h.liftOutcome hl fun h => ?_
  unfold Machine.execDelete
  exact h.delete.next

theorem setShare (h : s.frame l t) {who : Requester} (hl : [.objs, .bankHost, .bankMgc] ⊆ l := by simp) : s.frame l (t.setShare who) := by
  refine h.lift hl fun h => ?_
  unfold State.setShare
  exact h.withBank ((either h.setBank.setObj h.setBank))

theorem execSetShare (h : s.frame l t) {who : Requester} (hl : [.objs, .bankHost, .bankMgc] ⊆ l := by simp) : s.frames l (execSetShare who
    t) := by
  refine h.liftOutcome hl fun h => ?_
  unfold Machine.execSetShare
  exact h.setShare.next

theorem oneCopy (h : s.frame l t) {i : Nat} (hl : [.mem, .poison, .bch, .objs] ⊆ l := by simp) : s.frame l (t.oneCopy i) := by
  refine h.lift hl fun h => ?_
  unfold State.oneCopy
  extract_lets +onlyGivenNames o
  split
  · exact h.zeroTier.setObj
  · exact h

theorem setState (h : s.frame l t) {who : Requester} (hl : [.mem, .poison, .bch, .objs, .bankHost, .bankMgc] ⊆ l := by simp) : s.frame l
    (t.setState who) := by
  refine h.lift hl fun h => ?_
  unfold State.setState
  exact h.withBank ((either h.setBank.setObj.oneCopy h.setBank))

theorem execSetState (h : s.frame l t) {who : Requester} (hl : [.mem, .poison, .bch, .objs, .bankHost, .bankMgc] ⊆ l := by simp) : s.frames
    l (execSetState who t) := by
  refine h.liftOutcome hl fun h => ?_
  unfold Machine.execSetState
  exact h.setState.next

/-! ### The model table (R305, R327) -/

theorem withModels (h : s.frame l t) {who : Requester} {f : EditBank → State} (hf : ∀ {b : EditBank}, s.frame l (f b)) :
    s.frame l (t.withModels who f) := by
  unfold State.withModels
  split
  · exact h
  · exact h.withBank hf

theorem define (h : s.frame l t) {who : Requester} (hl : [.bankHost, .bankMgc, .models] ⊆ l := by simp) : s.frame l (t.define who) := by
  refine h.lift hl fun h => ?_
  unfold State.define
  exact h.withModels ((either h.setBank.setModel h.setBank))

theorem execDefine (h : s.frame l t) {who : Requester} (hl : [.bankHost, .bankMgc, .models] ⊆ l := by simp) : s.frames l (execDefine who t)
    := by
  refine h.liftOutcome hl fun h => ?_
  unfold Machine.execDefine
  exact h.define.next

theorem mdlRead (h : s.frame l t) {who : Requester} (hl : [.bankHost, .bankMgc] ⊆ l := by simp) : s.frame l (t.mdlRead who) := by
  refine h.lift hl fun h => ?_
  unfold State.mdlRead
  exact h.withBank (h.setBank)

theorem execMdlRead (h : s.frame l t) {who : Requester} (hl : [.bankHost, .bankMgc] ⊆ l := by simp) : s.frames l (execMdlRead who t) := by
  refine h.liftOutcome hl fun h => ?_
  unfold Machine.execMdlRead
  exact h.mdlRead.next

theorem undefine (h : s.frame l t) {who : Requester} (hl : [.bankHost, .bankMgc, .models] ⊆ l := by simp) : s.frame l (t.undefine who) := by
  refine h.lift hl fun h => ?_
  unfold State.undefine
  exact h.withModels ((either h.setBank.setModel h.setBank))

theorem execUndefine (h : s.frame l t) {who : Requester} (hl : [.bankHost, .bankMgc, .models] ⊆ l := by simp) : s.frames l (execUndefine who
    t) := by
  refine h.liftOutcome hl fun h => ?_
  unfold Machine.execUndefine
  exact h.undefine.next

/-! ### Wake events: what one records, and what one does to an entry sequence (R406, R408, R409) -/

theorem noteWake (h : s.frame l t) {source port : Nat} (hl : [.regs, .pwr] ⊆ l := by simp) : s.frame l (t.noteWake source port) := by
  refine h.lift hl fun h => ?_
  unfold State.noteWake
  split
  · exact h
  · exact h.setReg.setPwr

theorem entryEvent (h : s.frame l t) {source port : Nat} {pstate : Option Nat} (hl : [.regs, .pwr] ⊆ l := by simp) : s.frame l (t.entryEvent
    source port pstate) := by
  refine h.lift hl fun h => ?_
  unfold State.entryEvent
  split
  · exact h
  · extract_lets +onlyGivenNames s1
    have h1 : frame _ _ s1 := h.noteWake
    exact h1.update

/-! ### Context reset (R206, R440) -/

theorem clearPage (h : s.frame l t) {c : CtxId} {keep : List Nat} (hl : [.regs] ⊆ l := by simp) : s.frame l (t.clearPage c keep) := by
  refine h.lift hl fun h => ?_
  unfold State.clearPage
  exact h.update

theorem cqPostAll (h : s.frame l t) {c : CtxId} {r2 : List CplRec} (hl : [.ctxs, .hostMem, .poison, .bch, .link, .pwr, .pcie, .out] ⊆ l :=
    by simp) : s.frame l (t.cqPostAll c r2) := by
  refine h.lift hl ?_
  clear h hl
  intro s h
  induction r2 generalizing t c with
  | nil => exact h
  | cons y ys ih =>
    unfold State.cqPostAll
    exact (ih h.cqPost)

/-! ### What an abandoned command leaves (R97, R118, R152, R245) -/

theorem scrambleL (h : s.frame l t) {v : View} {r2 : List (Nat × Nat)} (hl : [.freeCtr, .mem, .hostMem, .deposits, .poison, .bch, .objs,
    .link, .pwr, .out] ⊆ l := by simp) : s.frame l (t.scrambleL v r2) := by
  refine h.lift hl ?_
  clear h hl
  intro s h
  induction r2 generalizing t v with
  | nil => exact h
  | cons y ys ih =>
    unfold State.scrambleL
    split
    · exact (ih h)
    · exact (ih h)
    · extract_lets +onlyGivenNames free bytes
      exact (ih h.writePiece.update)

theorem scramble (h : s.frame l t) {r1 : List Exec} (hl : [.freeCtr, .mem, .hostMem, .deposits, .poison, .bch, .objs, .link, .pwr, .out] ⊆ l
    := by simp) : s.frame l (t.scramble r1) := by
  refine h.lift hl ?_
  clear h hl
  intro s h
  induction r1 generalizing t with
  | nil => exact h
  | cons y ys ih =>
    unfold State.scramble
    exact (ih h.scrambleL)

theorem resetStart (h : s.frame l t) {c : CtxId} (hl : [.freeCtr, .regs, .ctxs, .running, .mem, .hostMem, .deposits, .poison, .bch, .objs,
    .mig, .migWait, .armings, .link, .pwr, .pcie, .sec, .out] ⊆ l := by simp) : s.frame l (t.resetStart c) := by
  refine h.lift hl fun h => ?_
  unfold State.resetStart
  extract_lets +onlyGivenNames recs s1
  have h1 : frame _ _ s1 := h.scramble.clearPage.updCtx (hreq := by simp [Ctx.abandon]) (hact := by simp [Ctx.abandon])
  extract_lets +onlyGivenNames s2
  have h2 : frame _ _ s2 := h1.removeArms.migAbort
  exact h2.update.cqPostAll

theorem resetEnd (h : s.frame l t) {c : CtxId} (hl : [.ctxs, .mem, .poison, .bch, .orphans, .models, .blks, .tsets, .pcie] ⊆ l := by simp) :
    s.frame l (t.resetEnd c) := by
  refine h.lift hl fun h => ?_
  unfold State.resetEnd
  extract_lets +onlyGivenNames k s1
  have h1 : frame _ _ s1 := h.zeroFrom.updCtx
  exact h1.update.drainSlots

theorem resetGoOn (h : s.frame l t) {c : CtxId} (hl : [.ctxs, .mem, .poison, .bch, .orphans, .models, .blks, .tsets, .pcie] ⊆ l := by simp)
    : s.frame l (t.resetGoOn c) := by
  refine h.lift hl fun h => ?_
  unfold State.resetGoOn
  split
  · exact h.resetEnd
  · exact h

theorem ctxReset (h : s.frame l t) {c : CtxId} (hl : [.freeCtr, .regs, .ctxs, .running, .mem, .hostMem, .deposits, .poison, .bch, .objs,
    .orphans, .mig, .migWait, .models, .blks, .armings, .tsets, .link, .pwr, .pcie, .sec, .out] ⊆ l := by simp) : s.frame l (t.ctxReset c) :=
    by
  refine h.lift hl fun h => ?_
  unfold State.ctxReset
  split
  · exact h
  · exact h.resetStart.resetGoOn

theorem resetDrop (h : s.frame l t) {c : CtxId} (hl : [.regs, .ctxs, .mem, .hostMem, .poison, .bch, .orphans, .models, .blks, .tsets, .link,
    .pwr, .pcie, .out] ⊆ l := by simp) : s.frame l (t.resetDrop c) := by
  refine h.lift hl fun h => ?_
  unfold State.resetDrop
  split
  · exact h
  · extract_lets +onlyGivenNames n s1
    exact h.updCtx.addFld.cqFlush.resetGoOn

theorem execContextReset (h : s.frame l t) {c : CtxId} (hl : [.freeCtr, .regs, .ctxs, .running, .mem, .hostMem, .deposits, .poison, .bch,
    .objs, .orphans, .mig, .migWait, .models, .blks, .armings, .tsets, .link, .pwr, .pcie, .sec, .out] ⊆ l := by simp) : s.frames l
    (execContextReset c t) := by
  refine h.liftOutcome hl fun h => ?_
  unfold Machine.execContextReset
  exact h.ctxReset.next

theorem execDevCtxReset (h : s.frame l t) {c : CtxId} (hl : [.freeCtr, .regs, .ctxs, .running, .mem, .hostMem, .deposits, .poison, .bch,
    .objs, .orphans, .mig, .migWait, .models, .blks, .armings, .tsets, .link, .pwr, .pcie, .sec, .out] ⊆ l := by simp) : s.frames l
    (execDevCtxReset c t) := by
  refine h.liftOutcome hl fun h => ?_
  unfold Machine.execDevCtxReset
  exact h.ctxReset.next

theorem execAbortedRecordDropTimeout (h : s.frame l t) {c : CtxId} (hl : [.regs, .ctxs, .mem, .hostMem, .poison, .bch, .orphans, .models,
    .blks, .tsets, .link, .pwr, .pcie, .out] ⊆ l := by simp) : s.frames l (execAbortedRecordDropTimeout c t) := by
  refine h.liftOutcome hl fun h => ?_
  unfold Machine.execAbortedRecordDropTimeout
  exact h.resetDrop.next

theorem ctxReturn (h : s.frame l t) {c : CtxId} (hl : [.freeCtr, .regs, .ctxs, .running, .mem, .hostMem, .deposits, .poison, .bch, .objs,
    .orphans, .mig, .migWait, .models, .blks, .armings, .tsets, .link, .pwr, .pcie, .sec, .out] ⊆ l := by simp) : s.frame l (t.ctxReturn c) :=
    by
  refine h.lift hl fun h => ?_
  unfold State.ctxReturn
  refine either h.resetDrop ?_
  extract_lets n u s1 s2
  have hu : frame _ _ u := h.scramble
  have h1 : frame _ _ s1 := hu.update
  have h2 : frame _ _ s2 := h1.updCtx.resetStart
  exact h2.addFld.resetGoOn

theorem ctxFlr (h : s.frame l t) {c : CtxId} (hl : [.freeCtr, .regs, .ctxs, .running, .mem, .hostMem, .deposits, .poison, .bch, .objs,
    .orphans, .mig, .migWait, .models, .blks, .armings, .tsets, .link, .pwr, .pcie, .sec, .out] ⊆ l := by simp) : s.frame l (t.ctxFlr c) := by
  refine h.lift hl fun h => ?_
  unfold State.ctxFlr
  extract_lets +onlyGivenNames s1
  exact h.ctxReset.resetDrop.clearPage.updCtx

theorem fnReset (h : s.frame l t) {n : Fin 16} (hl : [.pcie] ⊆ l := by simp) : s.frame l (t.fnReset n) := by
  refine h.lift hl fun h => ?_
  unfold State.fnReset
  exact h.update

theorem vfReset (h : s.frame l t) {n : Fin 16} (hl : [.freeCtr, .regs, .ctxs, .running, .mem, .hostMem, .deposits, .poison, .bch, .objs,
    .orphans, .mig, .migWait, .models, .blks, .armings, .tsets, .link, .pwr, .pcie, .sec, .out] ⊆ l := by simp) : s.frame l (t.vfReset n) :=
    by
  refine h.lift hl fun h => ?_
  unfold State.vfReset
  split
  · exact h.update
  · exact (either h.ctxFlr h).fnReset

theorem flrSettle (h : s.frame l t) {r1 : List CtxId} (hl : [.freeCtr, .regs, .ctxs, .running, .mem, .hostMem, .deposits, .poison, .bch,
    .objs, .orphans, .mig, .migWait, .models, .blks, .armings, .tsets, .link, .pwr, .pcie, .sec, .out] ⊆ l := by simp) : s.frame l
    (t.flrSettle r1) := by
  refine h.lift hl ?_
  clear h hl
  intro s h
  induction r1 generalizing t with
  | nil => exact h
  | cons y ys ih =>
    unfold State.flrSettle
    exact (ih (either h.vfReset h))

theorem execCommandComplete (h : s.frame l t) {c : CtxId} {e : Engine} (hl : [.freeCtr, .regs, .ctxs, .running, .sysCnt, .mem, .hostMem,
    .deposits, .poison, .bch, .objs, .orphans, .mig, .migWait, .models, .blks, .armings, .tsets, .link, .pwr, .pcie, .sec, .log, .logNext,
    .out] ⊆ l := by simp) : s.frames l (execCommandComplete c e t) := by
  refine h.liftOutcome hl fun h => ?_
  unfold Machine.execCommandComplete
  exact (h.awaitPeers (fun h1 => h1.complete)).flrSettle.next

/-! ### Rings (R196, R198, R342) -/

theorem execMsixTimerExpiry (h : s.frame l t) {c : CtxId} (hl : [.ctxs, .link, .pwr, .pcie, .out] ⊆ l := by simp) : s.frames l
    (execMsixTimerExpiry c t) := by
  refine h.liftOutcome hl fun h => ?_
  unfold Machine.execMsixTimerExpiry
  exact (either h.cqMessage h).next

theorem cqHead (h : s.frame l t) {c : CtxId} {v : W64} (hl : [.regs, .ctxs, .mem, .hostMem, .poison, .bch, .orphans, .models, .blks, .tsets,
    .link, .pwr, .pcie, .log, .logNext, .out] ⊆ l := by simp) : s.frame l (t.cqHead c v) := by
  refine h.lift hl fun h => ?_
  unfold State.cqHead
  extract_lets +onlyGivenNames x n h'
  split
  · extract_lets +onlyGivenNames s1
    exact h.setFld.setFld.cqFlush.resetGoOn
  · exact h.logEvent

theorem execCqHeadWrite (h : s.frame l t) {c : CtxId} {v : W64} (hl : [.regs, .ctxs, .mem, .hostMem, .poison, .bch, .orphans, .models,
    .blks, .tsets, .link, .pwr, .pcie, .log, .logNext, .out] ⊆ l := by simp) : s.frames l (execCqHeadWrite c v t) := by
  refine h.liftOutcome hl fun h => ?_
  unfold Machine.execCqHeadWrite
  exact h.cqHead.next

theorem tailHead (h : s.frame l t) {c : CtxId} {v : W64} (hl : [.regs, .ctxs, .mem, .hostMem, .deposits, .poison, .bch, .objs, .link, .pwr,
    .pcie, .log, .logNext, .out] ⊆ l := by simp) : s.frame l (t.tailHead c v) := by
  refine h.lift hl fun h => ?_
  unfold State.tailHead
  extract_lets +onlyGivenNames s1
  exact h.setFld.setFld.tailFlush

theorem execTailHeadWrite (h : s.frame l t) {c : CtxId} {v : W64} (hl : [.regs, .ctxs, .mem, .hostMem, .deposits, .poison, .bch, .objs,
    .link, .pwr, .pcie, .log, .logNext, .out] ⊆ l := by simp) : s.frames l (execTailHeadWrite c v t) := by
  refine h.liftOutcome hl fun h => ?_
  unfold Machine.execTailHeadWrite
  exact h.tailHead.next

/-! ### Queue enables (R184, R417) -/

theorem setAside (h : s.frame l t) {c : CtxId} {e : Engine} (hl : [.ctxs] ⊆ l := by simp) : s.frame l (t.setAside c e) := by
  refine h.lift hl fun h => ?_
  unfold State.setAside
  extract_lets +onlyGivenNames q
  split
  · extract_lets +onlyGivenNames counted
    exact h.setQueue
  · exact h

theorem setAsideL (h : s.frame l t) {c : CtxId} {bits : Nat} {r3 : List Engine} (hl : [.ctxs] ⊆ l := by simp) : s.frame l (t.setAsideL c
    bits r3) := by
  refine h.lift hl ?_
  clear h hl
  intro s h
  induction r3 generalizing t c bits with
  | nil => exact h
  | cons y ys ih =>
    unfold State.setAsideL
    exact (ih (either h.setAside h))

theorem postTrips (h : s.frame l t) {c : CtxId} (hl : [.ctxs, .hostMem, .poison, .bch, .link, .pwr, .pcie, .out] ⊆ l := by simp) : s.frame l
    (t.postTrips c) := by
  refine h.lift hl fun h => ?_
  unfold State.postTrips
  extract_lets +onlyGivenNames mine rest
  split
  · exact h
  · exact h.update.cqPostAll

theorem setQEn (h : s.frame l t) {c : CtxId} {new : Nat} (hl : [.regs, .ctxs, .hostMem, .poison, .bch, .link, .pwr, .pcie, .out] ⊆ l := by
    simp) : s.frame l (t.setQEn c new) := by
  refine h.lift hl fun h => ?_
  unfold State.setQEn
  extract_lets +onlyGivenNames old s1
  split
  · exact h.setAsideL.setFld.recheck
  · exact h.setAsideL.setFld.recheck.postTrips

theorem execQueueEnableWrite (h : s.frame l t) {c : CtxId} {v : W64} (hl : [.regs, .ctxs, .hostMem, .poison, .bch, .link, .pwr, .pcie, .out]
    ⊆ l := by simp) : s.frames l (execQueueEnableWrite c v t) := by
  refine h.liftOutcome hl fun h => ?_
  unfold Machine.execQueueEnableWrite
  split
  · exact .fault _
  · exact h.setQEn.next

theorem execDevCtxQueueDisable (h : s.frame l t) {c : CtxId} (hl : [.regs, .ctxs, .hostMem, .poison, .bch, .link, .pwr, .pcie, .out] ⊆ l :=
    by simp) : s.frames l (execDevCtxQueueDisable c t) := by
  refine h.liftOutcome hl fun h => ?_
  unfold Machine.execDevCtxQueueDisable
  exact h.setQEn.next

/-! ### Aborts (R205) -/

theorem abortReqs (h : s.frame l t) {c : CtxId} {nums : List Nat} (hl : [.ctxs] ⊆ l := by simp) : s.frame l (t.abortReqs c nums) := by
  refine h.lift hl fun h => ?_
  unfold State.abortReqs
  extract_lets +onlyGivenNames live
  exact h.updCtx

theorem execAbortRequest (h : s.frame l t) {c : CtxId} {req : BitVec 48} (hl : [.ctxs] ⊆ l := by simp) : s.frames l (execAbortRequest c req
    t) := by
  refine h.liftOutcome hl fun h => ?_
  unfold Machine.execAbortRequest
  exact h.abortReqs.next

theorem execAbortAll (h : s.frame l t) {c : CtxId} (hl : [.ctxs] ⊆ l := by simp) : s.frames l (execAbortAll c t) := by
  refine h.liftOutcome hl fun h => ?_
  unfold Machine.execAbortAll
  exact h.abortReqs.next

/-! ### Counters written by the host (R199, R201) -/

theorem execSyncAdd (h : s.frame l t) {c : CtxId} {v : W64} (hl : [.ctxs] ⊆ l := by simp) : s.frames l (execSyncAdd c v t) := by
  refine h.liftOutcome hl fun h => ?_
  unfold Machine.execSyncAdd
  exact h.scnAdd.next

theorem execSyncCounterWrite (h : s.frame l t) {c : CtxId} {n : Fin 256} {v : W64} (hl : [.ctxs] ⊆ l := by simp) : s.frames l
    (execSyncCounterWrite c n v t) := by
  refine h.liftOutcome hl fun h => ?_
  unfold Machine.execSyncCounterWrite
  exact h.setSync.next

theorem sysWrite (h : s.frame l t) {n : Nat} {v : W64} (hl : [.ctxs, .sysCnt, .link, .pwr, .out] ⊆ l := by simp) : s.frame l (t.sysWrite n
    v) := by
  refine h.lift hl fun h => ?_
  unfold State.sysWrite
  split
  · exact h
  · exact h.setSys

theorem execSystemCounterWrite (h : s.frame l t) {n : Fin 256} {v : W64} (hl : [.ctxs, .sysCnt, .link, .pwr, .out] ⊆ l := by simp) :
    s.frames l (execSystemCounterWrite n v t) := by
  refine h.liftOutcome hl fun h => ?_
  unfold Machine.execSystemCounterWrite
  exact h.sysWrite.next

/-! ### Exact mode (R336, R348) -/

theorem exactEnter (h : s.frame l t) {c : CtxId} (hl : [.regs, .ctxs, .link, .pwr] ⊆ l := by simp) : s.frame l (t.exactEnter c) := by
  refine h.lift hl fun h => ?_
  unfold State.exactEnter
  split
  case isTrue => exact h.updCtx
  case isFalse hno =>
    have hnone : ∀ d, d ≠ c → (t.ctx d).exactReq = false := fun d hd => by
      by_contra hreq
      exact hno (List.any_eq_true.mpr ⟨d, mem_allCtx d, by simpa [hd] using hreq⟩)
    have h1 : frame _ _ (t.updCtx c fun x => { x with exactReq := true, exactRefused := false }) :=
      h.replaceCtx (by simp) (fun _ => .inr hnone) (fun ha => .inl ha)
    exact h1.wakeDoms.entryEvent

theorem execExactEnter (h : s.frame l t) {c : CtxId} (hl : [.regs, .ctxs, .link, .pwr] ⊆ l := by simp) : s.frames l (execExactEnter c t) :=
    by
  refine h.liftOutcome hl fun h => ?_
  unfold Machine.execExactEnter
  exact h.exactEnter.next

theorem execExactActivate (h : s.frame l t) {c : CtxId} (hl : [.ctxs] ⊆ l := by simp) : s.frames l (execExactActivate c t) := by
  refine h.liftOutcome hl fun h => ?_
  unfold Machine.execExactActivate
  refine next ?_
  split
  case isTrue hfree =>
    have hnone : ∀ d, (t.ctx d).exactActive = false := fun d => by
      simp only [Bool.and_eq_true, Bool.not_eq_true', List.any_eq_false, Bool.not_eq_true] at hfree
      exact hfree.1.2 d (mem_allCtx d)
    exact h.replaceCtx (by simp) (fun hr => .inl hr) (fun _ => .inr fun d _ => hnone d)
  case isFalse => exact h

theorem exactExit (h : s.frame l t) {c : CtxId} (hl : [.ctxs] ⊆ l := by simp) : s.frame l (t.exactExit c) := by
  refine h.lift hl fun h => ?_
  unfold State.exactExit
  exact h.updCtx

theorem execExactExit (h : s.frame l t) {c : CtxId} (hl : [.ctxs] ⊆ l := by simp) : s.frames l (execExactExit c t) := by
  refine h.liftOutcome hl fun h => ?_
  unfold Machine.execExactExit
  exact h.exactExit.next

theorem execExactDeactivate (h : s.frame l t) {c : CtxId} (hl : [.ctxs] ⊆ l := by simp) : s.frames l (execExactDeactivate c t) := by
  refine h.liftOutcome hl fun h => ?_
  unfold Machine.execExactDeactivate
  exact (either h.updCtx h).next

/-! ### Device time (R367 to R370): what one CLK_CTL cycle does, and the commands of the TIME block -/

theorem timeTick (h : s.frame l t) (hl : [.time] ⊆ l := by simp) : s.frame l t.timeTick := by
  refine h.lift hl fun h => ?_
  unfold State.timeTick
  split
  · exact h.update
  · extract_lets +onlyGivenNames d
    exact h.update

theorem ppsFall (h : s.frame l t) (hl : [.time] ⊆ l := by simp) : s.frame l t.ppsFall := by
  refine h.lift hl fun h => ?_
  unfold State.ppsFall
  split
  · exact h.update
  · exact h

theorem timeSetTo (h : s.frame l t) {v : W64} (hl : [.time] ⊆ l := by simp) : s.frame l (t.timeSetTo v) := by
  refine h.lift hl fun h => ?_
  unfold State.timeSetTo
  split
  · exact h
  · exact h.update

theorem execTimeSet (h : s.frame l t) {v : W64} (hl : [.time] ⊆ l := by simp) : s.frames l (execTimeSet v t) := by
  refine h.liftOutcome hl fun h => ?_
  unfold Machine.execTimeSet
  exact h.timeSetTo.next

theorem timeAdjBy (h : s.frame l t) {v : W64} (hl : [.time] ⊆ l := by simp) : s.frame l (t.timeAdjBy v) := by
  refine h.lift hl fun h => ?_
  unfold State.timeAdjBy
  split
  · exact h
  · exact h.update

theorem execTimeAdj (h : s.frame l t) {v : W64} (hl : [.time] ⊆ l := by simp) : s.frames l (execTimeAdj v t) := by
  refine h.liftOutcome hl fun h => ?_
  unfold Machine.execTimeAdj
  exact h.timeAdjBy.next

theorem timeNowRead (h : s.frame l t) (hl : [.time, .out] ⊆ l := by simp) : s.frame l t.timeNowRead := by
  refine h.lift hl fun h => ?_
  unfold State.timeNowRead
  exact h.update.emit

theorem execTimeNowRead (h : s.frame l t) (hl : [.time, .aptWait, .out] ⊆ l := by simp) : s.frames l (execTimeNowRead t) := by
  refine h.liftOutcome hl fun h => ?_
  unfold Machine.execTimeNowRead
  exact (h.actingRead (fun h1 => h1.timeNowRead)).next

theorem ppsEdge (h : s.frame l t) (hl : [.time, .out] ⊆ l := by simp) : s.frame l t.ppsEdge := by
  refine h.lift hl fun h => ?_
  unfold State.ppsEdge
  split
  · exact h.update.emit
  · exact h

theorem execPpsEdge (h : s.frame l t) (hl : [.time, .out] ⊆ l := by simp) : s.frames l (execPpsEdge t) := by
  refine h.liftOutcome hl fun h => ?_
  unfold Machine.execPpsEdge
  exact h.ppsEdge.next

/-! ### The unlock sequence (R291 to R293) -/

theorem setFpc (h : s.frame l t) {x : Fpc} (hl : [.fpc] ⊆ l := by simp) : s.frame l (t.setFpc x) := by
  refine h.lift hl fun h => ?_
  unfold State.setFpc
  exact h.update

theorem fpcRelock (h : s.frame l t) (hl : [.regs, .fpc] ⊆ l := by simp) : s.frame l t.fpcRelock := by
  refine h.lift hl fun h => ?_
  unfold State.fpcRelock
  extract_lets +onlyGivenNames n
  exact h.setFpc.addFld

theorem seqWrite (h : s.frame l t) {who : Requester} {f : Bool → State} (hf : ∀ {g : Bool}, s.frame l (f g))
    (hl : [.regs] ⊆ l := by simp) : s.frame l (t.seqWrite who f) := by
  unfold State.seqWrite
  split
  · exact h
  · exact either (h.addFld (within hl)) hf

theorem fpcKey (h : s.frame l t) {who : Requester} {v : W64} (hl : [.regs, .fpc] ⊆ l := by simp) : s.frame l (t.fpcKey who v) := by
  refine h.lift hl fun h => ?_
  unfold State.fpcKey
  split
  · exact h
  · exact h.seqWrite ((either h.setFpc (either h.setFpc h.fpcRelock)))

theorem execFpcKeyWrite (h : s.frame l t) {who : Requester} {v : W64} (hl : [.regs, .fpc] ⊆ l := by simp) : s.frames l (execFpcKeyWrite who
    v t) := by
  refine h.liftOutcome hl fun h => ?_
  unfold Machine.execFpcKeyWrite
  exact h.fpcKey.next

theorem fpcCmd (h : s.frame l t) {who : Requester} {v : W64} (hl : [.regs, .fpc] ⊆ l := by simp) : s.frame l (t.fpcCmd who v) := by
  refine h.lift hl fun h => ?_
  unfold State.fpcCmd
  exact h.seqWrite ((either h.setFpc h.fpcRelock))

theorem execFpcCmdWrite (h : s.frame l t) {who : Requester} {v : W64} (hl : [.regs, .fpc] ⊆ l := by simp) : s.frames l (execFpcCmdWrite who
    v t) := by
  refine h.liftOutcome hl fun h => ?_
  unfold Machine.execFpcCmdWrite
  exact h.fpcCmd.next

theorem fpcAddr (h : s.frame l t) {who : Requester} {v : W64} (hl : [.regs, .fpc] ⊆ l := by simp) : s.frame l (t.fpcAddr who v) := by
  refine h.lift hl fun h => ?_
  unfold State.fpcAddr
  exact h.seqWrite ((either h.setFpc h.fpcRelock))

theorem execFpcAddrWrite (h : s.frame l t) {who : Requester} {v : W64} (hl : [.regs, .fpc] ⊆ l := by simp) : s.frames l (execFpcAddrWrite
    who v t) := by
  refine h.liftOutcome hl fun h => ?_
  unfold Machine.execFpcAddrWrite
  exact h.fpcAddr.next

theorem execFpcSequenceTimeout (h : s.frame l t) (hl : [.regs, .fpc] ⊆ l := by simp) : s.frames l (execFpcSequenceTimeout t) := by
  refine h.liftOutcome hl fun h => ?_
  unfold Machine.execFpcSequenceTimeout
  exact (either h h.fpcRelock).next

theorem execFpcLockoutExpiry (h : s.frame l t) (hl : [.fpc] ⊆ l := by simp) : s.frames l (execFpcLockoutExpiry t) := by
  refine h.liftOutcome hl fun h => ?_
  unfold Machine.execFpcLockoutExpiry
  exact (either h.setFpc h).next

/-! ### Results (R294, R297) -/

theorem postResult (h : s.frame l t) {mgc : Bool} {r : FpcResult} (hl : [.fpc, .link, .pwr, .pcie, .out] ⊆ l := by simp) : s.frame l
    (t.postResult mgc r) := by
  refine h.lift hl fun h => ?_
  unfold State.postResult
  split
  · exact h.setFpc
  · extract_lets +onlyGivenNames _ s1
    split
    · exact h.setFpc.sendMsix
    · exact h.setFpc

theorem popResult (h : s.frame l t) {who : Requester} (hl : [.fpc] ⊆ l := by simp) : s.frame l (t.popResult who) := by
  refine h.lift hl fun h => ?_
  unfold State.popResult
  split
  · exact h.setFpc
  · exact h.setFpc
  · exact h

theorem execFpcResultPop (h : s.frame l t) {who : Requester} (hl : [.fpc] ⊆ l := by simp) : s.frames l (execFpcResultPop who t) := by
  refine h.liftOutcome hl fun h => ?_
  unfold Machine.execFpcResultPop
  exact h.popResult.next

/-! ### Operations: their fields and what they touch -/

theorem setBlk (h : s.frame l t) {b : Nat} {x : Blk} (hl : [.blks] ⊆ l := by simp) : s.frame l (t.setBlk b x) := by
  refine h.lift hl fun h => ?_
  unfold State.setBlk
  exact h.update

theorem updBlk (h : s.frame l t) {b : Nat} {f : Blk → Blk} (hl : [.blks] ⊆ l := by simp) : s.frame l (t.updBlk b f) := by
  refine h.lift hl fun h => ?_
  unfold State.updBlk
  exact h.setBlk

theorem setOp (h : s.frame l t) {o : FpcOp} (hl : [.fpc] ⊆ l := by simp) : s.frame l (t.setOp o) := by
  refine h.lift hl fun h => ?_
  unfold State.setOp
  exact h.setFpc

theorem resumeOp (h : s.frame l t) {o : FpcOp} (hl : [.fpc] ⊆ l := by simp) : s.frame l (t.resumeOp o) := by
  refine h.lift hl fun h => ?_
  unfold State.resumeOp
  exact h.setOp

theorem resumeL (h : s.frame l t) {r1 : List FpcOp} (hl : [.fpc] ⊆ l := by simp) : s.frame l (t.resumeL r1) := by
  refine h.lift hl ?_
  clear h hl
  intro s h
  induction r1 generalizing t with
  | nil => exact h
  | cons y ys ih =>
    unfold State.resumeL
    exact (ih (either h.resumeOp h))

theorem releaseBuf (h : s.frame l t) {b : Nat} (hl : [.fpc] ⊆ l := by simp) : s.frame l (t.releaseBuf b) := by
  refine h.lift hl fun h => ?_
  unfold State.releaseBuf
  extract_lets +onlyGivenNames m
  exact h.setFpc

theorem finishOp (h : s.frame l t) {o : FpcOp} {code : Nat} (hl : [.fpc, .link, .pwr, .pcie, .out] ⊆ l := by simp) : s.frame l (t.finishOp o
    code) := by
  refine h.lift hl fun h => ?_
  unfold State.finishOp
  extract_lets +onlyGivenNames _ s1 s2
  exact (either h.setFpc.releaseBuf h.setFpc).resumeL.postResult

/-! ### Acceptance (R281, R282, R285, R295, R296, R452) -/

theorem launchMark (h : s.frame l t) {o : FpcOp} (hl : [.objs] ⊆ l := by simp) : s.frame l (t.launchMark o) := by
  refine h.lift hl fun h => ?_
  unfold State.launchMark
  split
  · exact h.setObj
  · exact h

theorem fpcLaunch (h : s.frame l t) {mgc : Bool} {v : W64} (hl : [.objs, .fpc, .link, .pwr, .pcie, .out] ⊆ l := by simp) : s.frame l
    (t.fpcLaunch mgc v) := by
  refine h.lift hl fun h => ?_
  unfold State.fpcLaunch
  extract_lets +onlyGivenNames f o s1
  split
  · exact h.setFpc.postResult
  · split
    · exact h.setFpc.setFpc.launchMark
    · extract_lets +onlyGivenNames s2
      exact (either h.setFpc.releaseBuf h.setFpc).postResult

theorem fpcData (h : s.frame l t) {who : Requester} {v : W64} (hl : [.regs, .objs, .fpc, .link, .pwr, .pcie, .out] ⊆ l := by simp) : s.frame
    l (t.fpcData who v) := by
  refine h.lift hl fun h => ?_
  unfold State.fpcData
  exact h.seqWrite ((either h.fpcRelock h.fpcLaunch))

theorem launchOf (h : s.frame l t) {op : Nat} {who : Requester} {v : W64} (hl : [.regs, .objs, .fpc, .link, .pwr, .pcie, .out] ⊆ l := by
    simp) : s.frame l (t.launchOf op who v) := by
  refine h.lift hl fun h => ?_
  unfold State.launchOf
  split
  · exact h.fpcData
  · exact h

theorem execProgPages (h : s.frame l t) {who : Requester} {v : W64} (hl : [.regs, .objs, .fpc, .link, .pwr, .pcie, .out] ⊆ l := by simp) :
    s.frames l (execProgPages who v t) := by
  refine h.liftOutcome hl fun h => ?_
  unfold Machine.execProgPages
  exact h.launchOf.next

theorem execEraseBlock (h : s.frame l t) {who : Requester} {v : W64} (hl : [.regs, .objs, .fpc, .link, .pwr, .pcie, .out] ⊆ l := by simp) :
    s.frames l (execEraseBlock who v t) := by
  refine h.liftOutcome hl fun h => ?_
  unfold Machine.execEraseBlock
  exact h.launchOf.next

theorem execRelocate (h : s.frame l t) {who : Requester} {v : W64} (hl : [.regs, .objs, .fpc, .link, .pwr, .pcie, .out] ⊆ l := by simp) :
    s.frames l (execRelocate who v t) := by
  refine h.liftOutcome hl fun h => ?_
  unfold Machine.execRelocate
  exact h.launchOf.next

theorem execCafTile (h : s.frame l t) {who : Requester} {v : W64} (hl : [.regs, .objs, .fpc, .link, .pwr, .pcie, .out] ⊆ l := by simp) :
    s.frames l (execCafTile who v t) := by
  refine h.liftOutcome hl fun h => ?_
  unfold Machine.execCafTile
  exact h.launchOf.next

theorem execCafErase (h : s.frame l t) {who : Requester} {v : W64} (hl : [.regs, .objs, .fpc, .link, .pwr, .pcie, .out] ⊆ l := by simp) :
    s.frames l (execCafErase who v t) := by
  refine h.liftOutcome hl fun h => ?_
  unfold Machine.execCafErase
  exact h.launchOf.next

theorem execFwPage (h : s.frame l t) {who : Requester} {v : W64} (hl : [.regs, .objs, .fpc, .link, .pwr, .pcie, .out] ⊆ l := by simp) :
    s.frames l (execFwPage who v t) := by
  refine h.liftOutcome hl fun h => ?_
  unfold Machine.execFwPage
  exact h.launchOf.next

/-! ### The fill position (R280, R282, R299) -/

theorem takePage (h : s.frame l t) {b p : Nat} {live : Bool} (hl : [.blks] ⊆ l := by simp) : s.frame l (t.takePage b p live) := by
  refine h.lift hl fun h => ?_
  unfold State.takePage
  exact h.updBlk

theorem fillPage (h : s.frame l t) {plane : Nat} {moving : Bool} {skip last : Option Nat} {r5 : Nat} (hl : [.blks] ⊆ l := by simp) : s.frame
    l (t.fillPage plane moving skip last r5).1 := by
  refine h.lift hl ?_
  clear h hl
  intro s h
  induction r5 generalizing t plane moving skip last with
  | zero => exact h
  | succ n ih =>
    unfold State.fillPage
    split
    · exact h
    · extract_lets +onlyGivenNames x p
      split
      · exact h.takePage
      · exact (ih h.updBlk)

theorem programPage (h : s.frame l t) {page : Nat} {data : List SB} (hl : [.mem, .poison, .flashErr] ⊆ l := by simp) : s.frame l
    (t.programPage page data) := by
  refine h.lift hl fun h => ?_
  unfold State.programPage
  exact (h.pokes.foldl (fun h => h.setPoison)).update (t := List.foldl _ _ _)

theorem mapPage (h : s.frame l t) {idx q : Nat} {page : Option Nat} (hl : [.pmap, .blks] ⊆ l := by simp) : s.frame l (t.mapPage idx q page)
    := by
  refine h.lift hl fun h => ?_
  unfold State.mapPage
  extract_lets +onlyGivenNames s1
  have h1 := h.toward s1 (by unfold s1; split; exacts [h.pageDead, h])
  split
  · exact h1.update
  · exact h1.update.updBlk

theorem landed (h : s.frame l t) {page : Nat} (hl : [.blks] ⊆ l := by simp) : s.frame l (t.landed page) := by
  refine h.lift hl fun h => ?_
  unfold State.landed
  exact h.updBlk

theorem badPage (h : s.frame l t) {page : Nat} (hl : [.blks] ⊆ l := by simp) : s.frame l (t.badPage page) := by
  refine h.lift hl fun h => ?_
  unfold State.badPage
  exact h.updBlk

theorem noteStage (h : s.frame l t) {o : FpcOp} {off n : Nat} (hl : [.regs, .link, .pwr, .pcie, .log, .logNext, .out] ⊆ l := by simp) :
    s.frame l (t.noteStage o off n) := by
  refine h.lift hl fun h => ?_
  unfold State.noteStage
  exact h.foldl (fun h1 => h1.noteWord)

theorem programUnit (h : s.frame l t) {o : FpcOp} {page i : Nat} (hl : [.regs, .mem, .poison, .flashErr, .link, .pwr, .pcie, .log, .logNext,
    .out] ⊆ l := by simp) : s.frame l (t.programUnit o page i) := by
  refine h.lift hl fun h => ?_
  unfold State.programUnit
  exact h.noteStage.programPage

/-! ### PROG_PAGES and FW_PAGE -/

theorem progStuck (h : s.frame l t) {o : FpcOp} {q code : Nat} (hl : [.objs, .fpc, .link, .pwr, .pcie, .out] ⊆ l := by simp) : s.frame l
    (t.progStuck o q code) := by
  refine h.lift hl fun h => ?_
  unfold State.progStuck
  extract_lets +onlyGivenNames _ s1 later
  exact h.setObj.finishOp.foldl (fun h2 => h2.finishOp)

theorem progPlace (h : s.frame l t) {o : FpcOp} {q : Nat} (hl : [.pmap, .blks] ⊆ l := by simp) : s.frame l (t.progPlace o q).1 := by
  refine h.lift hl fun h => ?_
  unfold State.progPlace
  extract_lets +onlyGivenNames r
  split
  · exact h.fillPage
  · exact (either h.fillPage.mapPage h.fillPage)

theorem progPages (h : s.frame l t) {o : FpcOp} {r2 : List Nat} (hl : [.pmap, .blks] ⊆ l := by simp) : s.frame l (t.progPages o r2).1 := by
  refine h.lift hl ?_
  clear h hl
  intro s h
  induction r2 generalizing t o with
  | nil => exact h
  | cons y ys ih =>
    unfold State.progPages
    extract_lets +onlyGivenNames r
    split
    · exact h.progPlace
    · exact (ih h.progPlace)

theorem progNext (h : s.frame l t) {o : FpcOp} (hl : [.objs, .fpc, .link, .pwr, .pcie, .out] ⊆ l := by simp) : s.frame l (t.progNext o) :=
    by
  refine h.lift hl fun h => ?_
  unfold State.progNext
  split
  · exact h.setOp
  · exact h.progStuck
  · exact h.finishOp

theorem progBegin (h : s.frame l t) {o : FpcOp} (hl : [.objs, .pmap, .blks, .fpc, .link, .pwr, .pcie, .out] ⊆ l := by simp) : s.frame l
    (t.progBegin o) := by
  refine h.lift hl fun h => ?_
  unfold State.progBegin
  extract_lets +onlyGivenNames r
  exact h.progPages.progNext

theorem progPulse (h : s.frame l t) {o : FpcOp} {good : Bool} (hl : [.regs, .mem, .poison, .flashErr, .objs, .pmap, .blks, .fpc, .link,
    .pwr, .pcie, .log, .logNext, .out] ⊆ l := by simp) : s.frame l (t.progPulse o good) := by
  refine h.lift hl fun h => ?_
  unfold State.progPulse
  split
  · exact h.programUnit.landed.progNext
  · split
    · exact h.setOp
    · extract_lets +onlyGivenNames o1 r
      split
      · exact h.badPage.progPlace.setOp
      · extract_lets +onlyGivenNames s1
        have h1 : frame _ _ s1 := (either h.badPage.progPlace.mapPage h.badPage.progPlace)
        exact h1.progNext

theorem fwPulse (h : s.frame l t) {o : FpcOp} {good : Bool} (hl : [.regs, .mem, .poison, .flashErr, .blks, .fpc, .link, .pwr, .pcie, .log,
    .logNext, .out] ⊆ l := by simp) : s.frame l (t.fwPulse o good) := by
  refine h.lift hl fun h => ?_
  unfold State.fwPulse
  split
  · exact h.programUnit.landed.finishOp
  · split
    · exact h.setOp
    · exact h.badPage.finishOp

/-! ### RELOCATE (R299) -/

theorem moveNext (h : s.frame l t) {o : FpcOp} (hl : [.blks, .fpc, .link, .pwr, .pcie, .out] ⊆ l := by simp) : s.frame l (t.moveNext o) :=
    by
  refine h.lift hl fun h => ?_
  unfold State.moveNext
  split
  · exact h.finishOp
  · extract_lets +onlyGivenNames o last r
    split
    · exact h.fillPage.finishOp
    · exact h.fillPage.setOp

theorem moveDone (h : s.frame l t) {src dst : Nat} (hl : [.regs, .mem, .poison, .flashErr, .pmap, .orphans, .blks, .link, .pwr, .pcie, .log,
    .logNext, .out] ⊆ l := by simp) : s.frame l (t.moveDone src dst) := by
  refine h.lift hl fun h => ?_
  unfold State.moveDone
  extract_lets +onlyGivenNames data s1
  have h1 : frame _ _ s1 := h.pageRead.programPage.landed
  extract_lets +onlyGivenNames s2
  exact h1.update.pageDead.updBlk

theorem movePulse (h : s.frame l t) {o : FpcOp} {good : Bool} (hl : [.regs, .mem, .poison, .flashErr, .pmap, .orphans, .blks, .fpc, .link,
    .pwr, .pcie, .log, .logNext, .out] ⊆ l := by simp) : s.frame l (t.movePulse o good) := by
  refine h.lift hl fun h => ?_
  unfold State.movePulse
  split
  · split
    · exact h.finishOp
    · exact (either h.moveDone h.landed).moveNext
  · split
    · exact h.setOp
    · exact h.badPage.moveNext

/-! ### CAF_TILE (R102 to R110, R295) -/

theorem planLog (h : s.frame l t) {tile : Nat} {r2 : List (Nat × Nat)} (hl : [.link, .pwr, .pcie, .log, .logNext, .out] ⊆ l := by simp) :
    s.frame l (t.planLog tile r2) := by
  refine h.lift hl ?_
  clear h hl
  intro s h
  induction r2 generalizing t tile with
  | nil => exact h
  | cons y ys ih =>
    unfold State.planLog
    exact (ih h.logEvent)

theorem planTile (h : s.frame l t) {o : FpcOp} {new : List StuckCell} (hl : [.tiles, .link, .pwr, .pcie, .log, .logNext, .out] ⊆ l := by
    simp) : s.frame l (t.planTile o new).1 := by
  refine h.lift hl fun h => ?_
  unfold State.planTile
  extract_lets p r
  clear_value r
  exact h.setTile.planLog

theorem tileEnd (h : s.frame l t) {o : FpcOp} {code : Nat} (hl : [.fpc, .tiles, .link, .pwr, .pcie, .out] ⊆ l := by simp) : s.frame l
    (t.tileEnd o code) := by
  refine h.lift hl fun h => ?_
  unfold State.tileEnd
  exact h.setTile.finishOp

theorem tileTolerant (h : s.frame l t) {o : FpcOp} {dev : List (Nat × Nat × Int × Int)} (hl : [.tsets, .link, .pwr, .pcie, .log, .logNext,
    .out] ⊆ l := by simp) : s.frame l (t.tileTolerant o dev) := by
  refine h.lift hl fun h => ?_
  unfold State.tileTolerant
  split
  · split
    · exact h
    · exact h.setTset.logEvent
  · exact h

theorem tileReport (h : s.frame l t) {o : FpcOp} (hl : [.mem, .hostMem, .deposits, .poison, .bch, .objs, .fpc, .tiles, .link, .pwr, .pcie,
    .out] ⊆ l := by simp) : s.frame l (t.tileReport o) := by
  refine h.lift hl fun h => ?_
  unfold State.tileReport
  extract_lets +onlyGivenNames recs
  split
  · exact h.tileEnd
  · extract_lets +onlyGivenNames r
    split
    · exact (h.tryOnce (fun h1 => h1.writeBytes)).tileEnd
    · exact (h.tryOnce (fun h1 => h1.writeBytes)).setOp

theorem reportsGoOn (h : s.frame l t) {r1 : List FpcOp} (hl : [.mem, .hostMem, .deposits, .poison, .bch, .objs, .fpc, .tiles, .link, .pwr,
    .pcie, .out] ⊆ l := by simp) : s.frame l (t.reportsGoOn r1) := by
  refine h.lift hl ?_
  clear h hl
  intro s h
  induction r1 generalizing t with
  | nil => exact h
  | cons y ys ih =>
    unfold State.reportsGoOn
    exact (ih (either h.tileReport h))

theorem rowNext (h : s.frame l t) {o : FpcOp} (hl : [.fpc, .sectors] ⊆ l := by simp) : s.frame l (t.rowNext o) := by
  refine h.lift hl fun h => ?_
  unfold State.rowNext
  extract_lets +onlyGivenNames x
  exact h.setSector.setOp

theorem tileStart (h : s.frame l t) {o : FpcOp} {new : List StuckCell} (hl : [.regs, .fpc, .sectors, .tiles, .link, .pwr, .pcie, .log,
    .logNext, .out] ⊆ l := by simp) : s.frame l (t.tileStart o new) := by
  refine h.lift hl fun h => ?_
  unfold State.tileStart
  extract_lets +onlyGivenNames off r
  split
  · exact h.noteStage.planTile.rowNext
  · exact h.noteStage.planTile.tileEnd

theorem tileBegin (h : s.frame l t) {o : FpcOp} {ones : List (Nat × Nat)} (hl : [.regs, .fpc, .sectors, .tiles, .link, .pwr, .pcie, .log,
    .logNext, .out] ⊆ l := by simp) : s.frame l (t.tileBegin o ones) := by
  refine h.lift hl fun h => ?_
  unfold State.tileBegin
  extract_lets +onlyGivenNames t'
  exact h.setTile.tileStart

theorem rowStore (h : s.frame l t) {o : FpcOp} {p : PlanIn} (hl : [.sectors, .cells] ⊆ l := by simp) : s.frame l (t.rowStore o p) := by
  refine h.lift hl fun h => ?_
  unfold State.rowStore
  extract_lets +onlyGivenNames t' m s1 x
  exact (h.foldl (fun h1 => h1.update)).setSector

theorem eraseSector (h : s.frame l t) {tile m : Nat} (hl : [.sectors, .cells, .link, .pwr, .pcie, .log, .logNext, .out] ⊆ l := by simp) :
    s.frame l (t.eraseSector tile m) := by
  refine h.lift hl fun h => ?_
  unfold State.eraseSector
  extract_lets +onlyGivenNames x lo hi s1 s2
  split
  · exact h.update.setSector.logEvent
  · exact h.update.setSector

theorem eraseSectors (h : s.frame l t) {tile : Nat} {r2 : List Nat} (hl : [.sectors, .cells, .link, .pwr, .pcie, .log, .logNext, .out] ⊆ l
    := by simp) : s.frame l (t.eraseSectors tile r2) := by
  refine h.lift hl ?_
  clear h hl
  intro s h
  induction r2 generalizing t tile with
  | nil => exact h
  | cons y ys ih =>
    unfold State.eraseSectors
    exact (ih h.eraseSector)

theorem tileDone (h : s.frame l t) {o : FpcOp} {p : PlanIn} (hl : [.mem, .hostMem, .deposits, .poison, .bch, .objs, .fpc, .sectors, .tsets,
    .tiles, .link, .pwr, .pcie, .log, .logNext, .out] ⊆ l := by simp) : s.frame l (t.tileDone o p) := by
  refine h.lift hl fun h => ?_
  unfold State.tileDone
  extract_lets +onlyGivenNames t' dev s1 x
  exact h.setTile.tileTolerant.setSector.tileReport

theorem tileRestart (h : s.frame l t) {o : FpcOp} {new : List StuckCell} {ones : List (Nat × Nat)} (hl : [.regs, .fpc, .sectors, .tiles,
    .cells, .link, .pwr, .pcie, .log, .logNext, .out] ⊆ l := by simp) : s.frame l (t.tileRestart o new ones) := by
  refine h.lift hl fun h => ?_
  unfold State.tileRestart
  extract_lets +onlyGivenNames r s1
  split
  · extract_lets +onlyGivenNames s2
    exact h.setTile.planLog.eraseSectors.logEvent.tileStart
  · extract_lets +onlyGivenNames x
    exact h.setTile.planLog.setSector.tileEnd

theorem tilePulse (h : s.frame l t) {o : FpcOp} {unset : List Nat} {ones : List (Nat × Nat)} (hl : [.regs, .mem, .hostMem, .deposits,
    .poison, .bch, .objs, .fpc, .sectors, .tsets, .tiles, .cells, .link, .pwr, .pcie, .log, .logNext, .out] ⊆ l := by simp) : s.frame l
    (t.tilePulse o unset ones) := by
  refine h.lift hl fun h => ?_
  unfold State.tilePulse
  extract_lets +onlyGivenNames p t' bad
  split
  · extract_lets +onlyGivenNames s1
    split
    · exact h.rowStore.tileDone
    · exact h.rowStore.rowNext
  · split
    · exact h.setOp
    · exact h.tileRestart

/-! ### Starting and pulses (R283, R285, R294) -/

theorem fwPageBegin (h : s.frame l t) {o : FpcOp} (hl : [.blks, .fpc, .link, .pwr, .pcie, .out] ⊆ l := by simp) : s.frame l (t.fwPageBegin
    o) := by
  refine h.lift hl fun h => ?_
  unfold State.fwPageBegin
  split
  · exact h.finishOp
  · split
    · exact h.finishOp
    · exact h.takePage.setOp

theorem opGo (h : s.frame l t) {o : FpcOp} {ones : List (Nat × Nat)} (hl : [.regs, .objs, .pmap, .blks, .fpc, .sectors, .tiles, .link, .pwr,
    .pcie, .log, .logNext, .out] ⊆ l := by simp) : s.frame l (t.opGo o ones) := by
  refine h.lift hl fun h => ?_
  unfold State.opGo
  split
  · exact h.progBegin
  · exact h.updBlk.setOp
  · exact h.moveNext
  · exact h.tileBegin
  · split
    · exact h.finishOp
    · exact h.setSector.setOp
  · exact h.fwPageBegin

theorem opBegin (h : s.frame l t) {o : FpcOp} {ones : List (Nat × Nat)} (hl : [.regs, .objs, .pmap, .blks, .fpc, .sectors, .tiles, .link,
    .pwr, .pcie, .log, .logNext, .out] ⊆ l := by simp) : s.frame l (t.opBegin o ones) := by
  refine h.lift hl fun h => ?_
  unfold State.opBegin
  split
  · exact h.opGo
  · split
    · exact h.progStuck
    · exact h.finishOp

theorem execFpcOperationStart (h : s.frame l t) {id : BitVec 8} {ones : List (Nat × Nat)} (hl : [.regs, .objs, .pmap, .blks, .fpc, .sectors,
    .tiles, .link, .pwr, .pcie, .log, .logNext, .out] ⊆ l := by simp) : s.frames l (execFpcOperationStart id ones t) := by
  refine h.liftOutcome hl fun h => ?_
  unfold Machine.execFpcOperationStart
  exact next (by split; exacts [h, (either h.opBegin h)])

theorem programPulse (h : s.frame l t) {id : Nat} {unset : List Nat} {ones : List (Nat × Nat)} (hl : [.regs, .mem, .hostMem, .deposits,
    .poison, .bch, .flashErr, .objs, .pmap, .orphans, .blks, .fpc, .sectors, .tsets, .tiles, .cells, .link, .pwr, .pcie, .log, .logNext, .out]
    ⊆ l := by simp) : s.frame l (t.programPulse id unset ones) := by
  refine h.lift hl fun h => ?_
  unfold State.programPulse
  split
  · exact h
  · split
    · exact h.progPulse
    · exact h.movePulse
    · exact h.tilePulse
    · exact h.fwPulse

theorem execProgramPulseEnd (h : s.frame l t) {id : BitVec 8} {cells : PulseCells} (hl : [.regs, .mem, .hostMem, .deposits, .poison, .bch,
    .flashErr, .objs, .pmap, .orphans, .blks, .fpc, .sectors, .tsets, .tiles, .cells, .link, .pwr, .pcie, .log, .logNext, .out] ⊆ l := by
    simp) : s.frames l (execProgramPulseEnd id cells t) := by
  refine h.liftOutcome hl fun h => ?_
  unfold Machine.execProgramPulseEnd
  exact h.programPulse.next

theorem blockErased (h : s.frame l t) {b : Nat} (hl : [.mem, .poison, .flashErr, .blks, .link, .pwr, .pcie, .log, .logNext, .out] ⊆ l := by
    simp) : s.frame l (t.blockErased b) := by
  refine h.lift hl fun h => ?_
  unfold State.blockErased
  extract_lets x s1 n st s2
  have h1 : frame _ _ s1 := h.update (h_mem := .inr ⟨by simp, SMap.wf_keepKeys _ _ _⟩)
  have h2 : frame _ _ s2 := h1.setBlk
  exact either h2.logEvent h2

theorem erasePulse (h : s.frame l t) {o : FpcOp} {good : Bool} (hl : [.mem, .poison, .flashErr, .blks, .fpc, .link, .pwr, .pcie, .log,
    .logNext, .out] ⊆ l := by simp) : s.frame l (t.erasePulse o good) := by
  refine h.lift hl fun h => ?_
  unfold State.erasePulse
  split
  · exact h.blockErased.finishOp
  · split
    · exact h.setOp
    · exact h.updBlk.finishOp

theorem sectorPulse (h : s.frame l t) {o : FpcOp} {good : Bool} (hl : [.fpc, .sectors, .cells, .link, .pwr, .pcie, .log, .logNext, .out] ⊆ l
    := by simp) : s.frame l (t.sectorPulse o good) := by
  refine h.lift hl fun h => ?_
  unfold State.sectorPulse
  split
  · extract_lets +onlyGivenNames s1
    split
    · exact h.eraseSector.finishOp
    · exact h.eraseSector.setSector.setOp
  · split
    · exact h.setOp
    · exact h.setSector.finishOp

theorem execErasePulseEnd (h : s.frame l t) {id : BitVec 8} {good : Bool} (hl : [.mem, .poison, .flashErr, .blks, .fpc, .sectors, .cells,
    .link, .pwr, .pcie, .log, .logNext, .out] ⊆ l := by simp) : s.frames l (execErasePulseEnd id good t) := by
  refine h.liftOutcome hl fun h => ?_
  unfold Machine.execErasePulseEnd
  exact next (by split; exacts [h, (either h.erasePulse h.sectorPulse)])

/-! ### Suspension (R286, R287) -/

theorem suspend (h : s.frame l t) {o : FpcOp} {ph : OpPhase} (hl : [.regs, .fpc, .link, .pwr, .pcie, .log, .logNext, .out] ⊆ l := by simp) :
    s.frame l (t.suspend o ph) := by
  refine h.lift hl fun h => ?_
  unfold State.suspend
  extract_lets +onlyGivenNames n starve s1
  split
  · exact h.setOp.addFld.logEvent
  · exact h.setOp

theorem execEraseSuspend (h : s.frame l t) {id : BitVec 8} (hl : [.regs, .fpc, .link, .pwr, .pcie, .log, .logNext, .out] ⊆ l := by simp) :
    s.frames l (execEraseSuspend id t) := by
  refine h.liftOutcome hl fun h => ?_
  unfold Machine.execEraseSuspend
  exact next (by split; exacts [h, (either h.suspend h)])

theorem execEraseResumeGap (h : s.frame l t) {id : BitVec 8} (hl : [.fpc] ⊆ l := by simp) : s.frames l (execEraseResumeGap id t) := by
  refine h.liftOutcome hl fun h => ?_
  unfold Machine.execEraseResumeGap
  exact next (by split; exacts [h, (either h.setOp h)])

theorem ctlSuspend (h : s.frame l t) {id : Nat} (hl : [.regs, .fpc, .link, .pwr, .pcie, .log, .logNext, .out] ⊆ l := by simp) : s.frame l
    (t.ctlSuspend id) := by
  refine h.lift hl fun h => ?_
  unfold State.ctlSuspend
  split
  · exact h
  · split
    · exact h
    · split
      · exact h.suspend
      · exact h.suspend
      · exact h.setOp

theorem ctlResume (h : s.frame l t) {id : Nat} (hl : [.fpc] ⊆ l := by simp) : s.frame l (t.ctlResume id) := by
  refine h.lift hl fun h => ?_
  unfold State.ctlResume
  split
  · exact h
  · split
    · exact h.resumeOp
    · exact h

theorem ctlHold (h : s.frame l t) {id : Nat} (hl : [.fpc] ⊆ l := by simp) : s.frame l (t.ctlHold id) := by
  refine h.lift hl fun h => ?_
  unfold State.ctlHold
  split
  · exact h
  · split
    · exact h.resumeOp
    · exact h.setOp

theorem execEraseCtlSuspend (h : s.frame l t) {id : BitVec 8} (hl : [.regs, .fpc, .link, .pwr, .pcie, .log, .logNext, .out] ⊆ l := by simp)
    : s.frames l (execEraseCtlSuspend id t) := by
  refine h.liftOutcome hl fun h => ?_
  unfold Machine.execEraseCtlSuspend
  exact h.ctlSuspend.next

theorem execEraseCtlResume (h : s.frame l t) {id : BitVec 8} (hl : [.fpc] ⊆ l := by simp) : s.frames l (execEraseCtlResume id t) := by
  refine h.liftOutcome hl fun h => ?_
  unfold Machine.execEraseCtlResume
  exact h.ctlResume.next

theorem execEraseCtlHold (h : s.frame l t) {id : BitVec 8} (hl : [.fpc] ⊆ l := by simp) : s.frames l (execEraseCtlHold id t) := by
  refine h.liftOutcome hl fun h => ?_
  unfold Machine.execEraseCtlHold
  exact h.ctlHold.next

/-! ### The calibration row (R302) -/

theorem calRead (h : s.frame l t) (hl : [.regs, .out] ⊆ l := by simp) : s.frame l t.calRead := by
  refine h.lift hl fun h => ?_
  unfold State.calRead
  extract_lets +onlyGivenNames d w
  exact h.setFld.emit

theorem execCalDataRead (h : s.frame l t) (hl : [.regs, .aptWait, .out] ⊆ l := by simp) : s.frames l (execCalDataRead t) := by
  refine h.liftOutcome hl fun h => ?_
  unfold Machine.execCalDataRead
  exact (h.actingRead (fun h1 => h1.calRead)).next

/-! ### What an interruption leaves (R288, R289, R290) -/

theorem unmapInstalling (h : s.frame l t) {r1 : List Nat} (hl : [.objs, .pmap, .blks] ⊆ l := by simp) : s.frame l (t.unmapInstalling r1) :=
    by
  refine h.lift hl ?_
  clear h hl
  intro s h
  induction r1 generalizing t with
  | nil => exact h
  | cons y ys ih =>
    unfold State.unmapInstalling
    exact (ih (either h.update.pagesDead.setObj h))

theorem unlaunch (h : s.frame l t) {r1 : List FpcOp} (hl : [.objs] ⊆ l := by simp) : s.frame l (t.unlaunch r1) := by
  refine h.lift hl ?_
  clear h hl
  intro s h
  induction r1 generalizing t with
  | nil => exact h
  | cons y ys ih =>
    unfold State.unlaunch
    exact (ih (either h.setObj h))

theorem fpcReset (h : s.frame l t) (hl : [.objs, .pmap, .blks, .fpc, .sectors, .tiles] ⊆ l := by simp) : s.frame l t.fpcReset := by
  refine h.lift hl fun h => ?_
  unfold State.fpcReset
  extract_lets +onlyGivenNames s0
  have h1 : frame _ _ s0 := h.unlaunch
  extract_lets +onlyGivenNames s1
  have h2 : frame _ _ s1 := (either h1.unmapInstalling h1)
  exact h2.update

/-! ### The record of an installation (R326), its messages (R355) and how it ends without a switch (R325) -/

theorem setInst (h : s.frame l t) {x : Inst} (hl : [.inst, .link, .pwr, .pcie, .out] ⊆ l := by simp) : s.frame l (t.setInst x) := by
  refine h.lift hl fun h => ?_
  unfold State.setInst
  extract_lets +onlyGivenNames s1
  split
  · exact h.update.sendMsix
  · exact h.update

theorem askQuiet (h : s.frame l t) (hl : [.bankMgc, .inst] ⊆ l := by simp) : s.frame l t.askQuiet := by
  refine h.lift hl fun h => ?_
  unfold State.askQuiet
  exact h.update

theorem endQuiet (h : s.frame l t) (hl : [.bankMgc, .inst] ⊆ l := by simp) : s.frame l t.endQuiet := by
  refine h.lift hl fun h => ?_
  unfold State.endQuiet
  split
  · exact h.update
  · exact h

theorem underQuiet (h : s.frame l t) {f : State → State} (hf : ∀ {s t : State}, s.frame l t → s.frame l (f t))
    (hl : [.bankMgc, .inst] ⊆ l := by simp) : s.frame l (t.underQuiet f) := by
  unfold State.underQuiet
  exact either ((hf h).endQuiet (within hl)) (h.askQuiet (within hl))

theorem clearShards (h : s.frame l t) (hl : [.link] ⊆ l := by simp) : s.frame l t.clearShards := by
  refine h.lift hl fun h => ?_
  unfold State.clearShards
  exact h.update

theorem releaseHeld (h : s.frame l t) {r1 : List HeldShard} (hl : [.fpc] ⊆ l := by simp) : s.frame l (t.releaseHeld r1) := by
  refine h.lift hl ?_
  clear h hl
  intro s h
  induction r1 generalizing t with
  | nil => exact h
  | cons y ys ih =>
    unfold State.releaseHeld
    exact (ih (either h.releaseBuf h))

theorem instStop (h : s.frame l t) {st : Status} {dev detail shard : Nat} (hl : [.orphans, .bankMgc, .models, .blks, .fpc, .inst, .tsets,
    .link, .pwr, .pcie, .out] ⊆ l := by simp) : s.frame l (t.instStop st dev detail shard) := by
  refine h.lift hl fun h => ?_
  unfold State.instStop
  extract_lets +onlyGivenNames i m s1
  exact (either h.makeStale h).endQuiet.clearShards.releaseHeld.setInst

theorem instFail (h : s.frame l t) {st : Status} {detail shard : Nat} (hl : [.orphans, .bankMgc, .models, .blks, .fpc, .inst, .tsets, .link,
    .pwr, .pcie, .out] ⊆ l := by simp) : s.frame l (t.instFail st detail shard) := by
  refine h.lift hl fun h => ?_
  unfold State.instFail
  extract_lets +onlyGivenNames s1 m
  split
  · split
    · exact h.instStop.sendCtl
    · exact h.instStop
  · exact h.instStop.sendCtlAll

theorem instLost (h : s.frame l t) {p : Nat} (hl : [.orphans, .bankMgc, .models, .blks, .fpc, .inst, .tsets, .link, .pwr, .pcie, .out] ⊆ l
    := by simp) : s.frame l (t.instLost p) := by
  refine h.lift hl fun h => ?_
  unfold State.instLost
  split
  · extract_lets +onlyGivenNames s1
    exact h.instStop.sendCtlAll
  · exact h

/-! ### Messages received -/

theorem credit (h : s.frame l t) {p : PortId} {ch n : Nat} (hl : [.link, .pwr, .out] ⊆ l := by simp) : s.frame l (t.credit p ch n) := by
  refine h.lift hl fun h => ?_
  unfold State.credit
  split
  · exact h
  · exact h.sendCtl

theorem dropCtl (h : s.frame l t) {p : PortId} {m : W64} (hl : [.link, .pwr, .out] ⊆ l := by simp) : s.frame l (t.dropCtl p m) := by
  refine h.lift hl fun h => ?_
  unfold State.dropCtl
  extract_lets +onlyGivenNames s1
  split
  · exact h.updPort.credit
  · exact h.updPort

theorem onCtl (h : s.frame l t) {p : PortId} {f : W64 → Bool} {act : W64 → State → State}
    (hf : ∀ {m : W64} {s t : State}, s.frame l t → s.frame l (act m t)) (hl : [.link, .pwr, .out] ⊆ l := by simp) :
    s.frame l (t.onCtl p f act) := by
  unfold State.onCtl
  split
  · exact h
  · exact hf (h.dropCtl (within hl))

/-! ### Ports and the map -/

theorem setTopo (h : s.frame l t) {d : Nat} {e : TopoEnt} (hl : [.link] ⊆ l := by simp) : s.frame l (t.setTopo d e) := by
  refine h.lift hl fun h => ?_
  unfold State.setTopo
  exact h.update

theorem setRoute (h : s.frame l t) {d : Nat} {p : PortId} (hl : [.link] ⊆ l := by simp) : s.frame l (t.setRoute d p) := by
  refine h.lift hl fun h => ?_
  unfold State.setRoute
  exact h.setTopo

theorem sendCtlOpt (h : s.frame l t) {p : Option PortId} {m : W64} (hl : [.link, .pwr, .out] ⊆ l := by simp) : s.frame l (t.sendCtl? p m) := by
  cases p with
  | none => exact h
  | some p => exact h.sendCtl hl

theorem sendUp (h : s.frame l t) {m : W64} (hl : [.link, .pwr, .out] ⊆ l := by simp) : s.frame l (t.sendUp m) := by
  refine h.lift hl fun h => ?_
  unfold State.sendUp
  exact h.sendCtlOpt

theorem reportPorts (h : s.frame l t) (hl : [.link, .pwr, .out] ⊆ l := by simp) : s.frame l t.reportPorts := by
  refine h.lift hl fun h => ?_
  unfold State.reportPorts
  split
  · split
    · exact h.sendCtl
    · exact h.update
  · exact h

theorem sendLost (h : s.frame l t) {p : PortId} (hl : [.link, .pwr, .out] ⊆ l := by simp) : s.frame l (t.sendLost p) := by
  refine h.lift hl fun h => ?_
  unfold State.sendLost
  split
  · exact h.sendUp
  · exact h.update

theorem tellWaiting (h : s.frame l t) (hl : [.link, .pwr, .out] ⊆ l := by simp) : s.frame l t.tellWaiting := by
  refine h.lift hl fun h => ?_
  unfold State.tellWaiting
  extract_lets +onlyGivenNames l' _ s1 s2
  split
  · exact (h.update.foldl (fun h2 => h2.sendLost)).reportPorts
  · exact h.update.foldl (fun h2 => h2.sendLost)

theorem informL (h : s.frame l t) {r1 : List PortId} (hl : [.link, .pwr, .out] ⊆ l := by simp) : s.frame l (t.informL r1) := by
  refine h.lift hl ?_
  clear h hl
  intro s h
  induction r1 generalizing t with
  | nil => exact h
  | cons y ys ih =>
    unfold State.informL
    exact (ih (either h.sendCtl h))

/-! ### Numbering (R371, R372) -/

theorem across (h : s.frame l t) {d q : Nat} {m : W64} (hl : [.link, .pwr, .out] ⊆ l := by simp) : s.frame l (t.across d q m) := by
  refine h.lift hl fun h => ?_
  unfold State.across
  split
  · exact h.sendCtl
  · exact h.sendCtlOpt

theorem assignAt (h : s.frame l t) {d q : Nat} (hl : [.regs, .link, .pwr, .pcie, .out] ⊆ l := by simp) : s.frame l (t.assignAt d q) := by
  refine h.lift hl fun h => ?_
  unfold State.assignAt
  split
  · exact h.across.linkEvent
  · extract_lets +onlyGivenNames h' s1 s2
    exact (either h.setTopo.updPort h.setTopo).across

theorem numberNext (h : s.frame l t) {r1 : Nat} (hl : [.regs, .link, .pwr, .pcie, .out] ⊆ l := by simp) : s.frame l (t.numberNext r1) := by
  refine h.lift hl ?_
  clear h hl
  intro s h
  induction r1 generalizing t with
  | zero => exact h
  | succ n ih =>
    unfold State.numberNext
    split
    · exact h
    · split
      · exact h
      · extract_lets +onlyGivenNames _ s1
        exact (ih (either h.update h.update.assignAt))

theorem numberAll (h : s.frame l t) (hl : [.regs, .link, .pwr, .pcie, .out] ⊆ l := by simp) : s.frame l t.numberAll := by
  refine h.lift hl fun h => ?_
  unfold State.numberAll
  exact h.numberNext

theorem joinL (h : s.frame l t) {xs : List (Nat × Nat)} (hl : [.link] ⊆ l := by simp) : s.frame l (t.joinL xs) := by
  refine h.lift hl fun h => ?_
  unfold State.joinL
  exact h.update

theorem join (h : s.frame l t) {d q : Nat} (hl : [.regs, .link, .pwr, .pcie, .out] ⊆ l := by simp) : s.frame l (t.join d q) := by
  refine h.lift hl fun h => ?_
  unfold State.join
  exact h.joinL.numberAll

theorem formCheck (h : s.frame l t) (hl : [.link] ⊆ l := by simp) : s.frame l t.formCheck := by
  refine h.lift hl fun h => ?_
  unfold State.formCheck
  split
  · exact h.update
  · exact h

theorem sendMgmt (h : s.frame l t) {p : PortId} {data : List Byte} (hl : [.link, .pwr, .out] ⊆ l := by simp) : s.frame l (t.sendMgmt p data)
    := by
  refine h.lift hl fun h => ?_
  unfold State.sendMgmt
  extract_lets +onlyGivenNames tag s1
  exact h.updPort.sendData

theorem sendMgmtAll (h : s.frame l t) {data : List Byte} {r2 : List PortId} (hl : [.link, .pwr, .out] ⊆ l := by simp) : s.frame l
    (t.sendMgmtAll data r2) := by
  refine h.lift hl ?_
  clear h hl
  intro s h
  induction r2 generalizing t data with
  | nil => exact h
  | cons y ys ih =>
    unfold State.sendMgmtAll
    exact (ih h.sendMgmt)

theorem sendVals (h : s.frame l t) {p : PortId} {r2 : List Nat} (hl : [.link, .pwr, .out] ⊆ l := by simp) : s.frame l (t.sendVals p r2) :=
    by
  refine h.lift hl ?_
  clear h hl
  intro s h
  induction r2 generalizing t p with
  | nil => exact h
  | cons y ys ih =>
    unfold State.sendVals
    exact (ih h.sendCtl)

theorem initDevice (h : s.frame l t) {p : PortId} (hl : [.link, .pwr, .out] ⊆ l := by simp) : s.frame l (t.initDevice p) := by
  refine h.lift hl fun h => ?_
  unfold State.initDevice
  exact h.sendVals.sendMgmt.sendCtl

theorem tellCount (h : s.frame l t) (hl : [.link, .pwr, .out] ⊆ l := by simp) : s.frame l t.tellCount := by
  refine h.lift hl fun h => ?_
  unfold State.tellCount
  exact h.sendMgmtAll

theorem portsReport (h : s.frame l t) {d mask : Nat} {nbrs : List (Nat × Nat × Nat)} (hl : [.regs, .link, .pwr, .pcie, .out] ⊆ l := by simp)
    : s.frame l (t.portsReport d mask nbrs) := by
  refine h.lift hl fun h => ?_
  unfold State.portsReport
  extract_lets +onlyGivenNames e
  refine either h ?_
  extract_lets +onlyGivenNames s1 u s2
  have h1 : frame _ _ s1 := h.setTopo
  have hd : frame _ _ ((s1.rootPort d).elim s1 fun p => s1.initDevice p) := h1.elim fun _ => h1.initDevice
  have h2 : frame _ _ s2 := either h1 (either hd.tellCount.linkEvent hd.tellCount)
  exact h2.joinL.numberAll.formCheck

/-! ### Reattachment (R373) -/

theorem reattachNext (h : s.frame l t) (hl : [.regs, .link, .pwr, .pcie, .out] ⊆ l := by simp) : s.frame l t.reattachNext := by
  refine h.lift hl fun h => ?_
  unfold State.reattachNext
  split
  · exact h.numberAll
  · split
    · exact h
    · split
      · exact h
      · extract_lets +onlyGivenNames e b w q s1 s2
        exact (either h.setTopo.updPort h.setTopo).across

theorem markRegion (h : s.frame l t) {r1 : List Nat} (hl : [.link] ⊆ l := by simp) : s.frame l (t.markRegion r1) := by
  refine h.lift hl ?_
  clear h hl
  intro s h
  induction r1 generalizing t with
  | nil => exact h
  | cons y ys ih =>
    unfold State.markRegion
    exact (ih h.setTopo)

theorem regionLost (h : s.frame l t) {u2 q : Nat} (hl : [.regs, .orphans, .bankMgc, .models, .blks, .fpc, .inst, .tsets, .link, .pwr, .pcie,
    .out] ⊆ l := by simp) : s.frame l (t.regionLost u2 q) := by
  refine h.lift hl fun h => ?_
  unfold State.regionLost
  extract_lets +onlyGivenNames region s1
  exact (either h.instLost h).markRegion.reattachNext

theorem adoptOne (h : s.frame l t) {u2 : Nat} {r2 : List (Nat × Nat)} (hl : [.link, .pwr, .out] ⊆ l := by simp) : s.frame l (t.adoptOne u2
    r2).1 := by
  refine h.lift hl ?_
  clear h hl
  intro s h
  induction r2 generalizing t u2 with
  | nil => exact h
  | cons y ys ih =>
    unfold State.adoptOne
    split
    · extract_lets +onlyGivenNames h' _ s1 r
      exact (ih h.setTopo.across)
    · exact (ih h)

theorem adopt (h : s.frame l t) {old : SMap TopoEnt} {fuel : Nat} {us : List Nat} (hl : [.link, .pwr, .out] ⊆ l := by simp) :
    s.frame l (t.adopt old fuel us) := by
  refine h.lift hl ?_
  clear h hl
  intro s h
  induction fuel generalizing t us with
  | zero => exact h
  | succ n ih =>
    cases us with
    | nil => exact h
    | cons u us =>
      unfold State.adopt
      exact ih h.adoptOne

theorem attached (h : s.frame l t) {x mask : Nat} (hl : [.regs, .link, .pwr, .pcie, .out] ⊆ l := by simp) : s.frame l (t.attached x mask) :=
    by
  refine h.lift hl fun h => ?_
  unfold State.attached
  extract_lets +onlyGivenNames e
  split
  · split
    · extract_lets +onlyGivenNames old s1
      exact h.setTopo.adopt.reattachNext
    · exact h
  · exact h

theorem noAnswer (h : s.frame l t) {x : Nat} (hl : [.regs, .link, .pwr, .pcie, .out] ⊆ l := by simp) : s.frame l (t.noAnswer x) := by
  refine h.lift hl fun h => ?_
  unfold State.noAnswer
  extract_lets +onlyGivenNames e
  split
  · exact h.setTopo.reattachNext
  · exact h

theorem freeRegion (h : s.frame l t) (hl : [.regs, .link, .pwr, .pcie, .out] ⊆ l := by simp) : s.frame l t.freeRegion := by
  refine h.lift hl fun h => ?_
  unfold State.freeRegion
  split
  · extract_lets +onlyGivenNames _ s1
    exact h.update.linkEvent.linkEvent.tellCount.reattachNext
  · exact h

/-! ### What a lost link ends (R374) -/

theorem failStream (h : s.frame l t) {r : PeerReq} {st : Status} {port : Nat} (hl : [.regs, .armings] ⊆ l := by simp) : s.frame l
    (t.failStream r st port) := by
  refine h.lift hl fun h => ?_
  unfold State.failStream
  split
  · exact h
  · split
    · exact h
    · extract_lets +onlyGivenNames cut fl
      exact h.setArming.addFld

theorem deposit (h : s.frame l t) {r : PeerReq} {bytes : List SB} (hl : [.deposits] ⊆ l := by simp) : s.frame l (t.deposit r bytes) := by
  refine h.lift hl fun h => ?_
  unfold State.deposit
  extract_lets +onlyGivenNames put
  exact h.update

theorem failMeta (h : s.frame l t) {r : PeerReq} {st : Status} {port : Nat} (hl : [.regs, .deposits, .armings] ⊆ l := by simp) : s.frame l
    (t.failMeta r st port) := by
  refine h.lift hl fun h => ?_
  unfold State.failMeta
  split
  · exact h
  · split
    · exact h
    · split
      · exact h.deposit
      · exact h.setArming.addFld

theorem redirty (h : s.frame l t) {r : PeerReq} (hl : [.objs] ⊆ l := by simp) : s.frame l (t.redirty r) := by
  refine h.lift hl fun h => ?_
  unfold State.redirty
  exact h.update

theorem failAccess (h : s.frame l t) {r : PeerReq} {st : Status} {port : Nat} (hl : [.regs, .ctxs, .running, .mem, .hostMem, .deposits,
    .poison, .bch, .objs, .mig, .armings, .link, .pwr, .pcie, .aptWait, .log, .logNext, .out] ⊆ l := by simp) : s.frame l (t.failAccess r st
    port) := by
  refine h.lift hl fun h => ?_
  unfold State.failAccess
  split
  · exact h.redirty
  · split
    · exact h.updMig
    · split
      · exact h.tailAnswered
      · split
        · extract_lets +onlyGivenNames s1
          have h1 : frame _ _ s1 := h.addFld
          split
          · exact h1
          · exact h1.update.emit
        · split
          · exact h.failMeta
          · extract_lets +onlyGivenNames s1
            split
            · exact h.updExec
            · exact h.updExec.deposit

theorem failPeer (h : s.frame l t) {st : Status} {port : Nat} {r : PeerReq} (hl : [.regs, .ctxs, .running, .mem, .hostMem, .deposits,
    .poison, .bch, .objs, .mig, .armings, .link, .pwr, .pcie, .aptWait, .log, .logNext, .out] ⊆ l := by simp) : s.frame l (t.failPeer st port
    r) := by
  refine h.lift hl fun h => ?_
  unfold State.failPeer
  split
  · exact h.failStream
  · exact h.failAccess

theorem losePeers (h : s.frame l t) {p : PortId} (hl : [.regs, .ctxs, .running, .mem, .hostMem, .deposits, .poison, .bch, .objs, .mig,
    .armings, .link, .pwr, .pcie, .aptWait, .log, .logNext, .out] ⊆ l := by simp) : s.frame l (t.losePeers p) := by
  refine h.lift hl fun h => ?_
  unfold State.losePeers
  extract_lets +onlyGivenNames s'
  have h1 : frame _ _ s' := (either h h.failMigs)
  extract_lets +onlyGivenNames mine _ s1
  exact h1.update.foldl (fun h3 => h3.failPeer)

/-! ### Management answers (R462) -/

theorem sendMgmtResp (h : s.frame l t) {p : PortId} {tag st : Nat} {report : List Byte} (hl : [.link, .pwr, .out] ⊆ l := by simp) : s.frame
    l (t.sendMgmtResp p tag st report) := by
  refine h.lift hl fun h => ?_
  unfold State.sendMgmtResp
  extract_lets +onlyGivenNames data
  exact h.sendData

theorem mgmtLost (h : s.frame l t) {p : PortId} (hl : [.link, .pwr, .sec, .out] ⊆ l := by simp) : s.frame l (t.mgmtLost p) := by
  refine h.lift hl fun h => ?_
  unfold State.mgmtLost
  extract_lets +onlyGivenNames gone x _ s1
  exact h.update.foldl (fun h2 => h2.sendMgmtResp)

/-! ### A port goes DOWN (R357) -/

theorem linkGone (h : s.frame l t) {p : PortId} {u2 : PortUse} (hl : [.regs, .orphans, .bankMgc, .models, .blks, .fpc, .inst, .tsets, .link,
    .time, .pwr, .pcie, .out] ⊆ l := by simp) : s.frame l (t.linkGone p u2) := by
  refine h.lift hl fun h => ?_
  unfold State.linkGone
  split
  · exact h.update.instLost
  · split
    · exact h.regionLost
    · exact h.sendLost
  · exact h.reportPorts
  · exact h.reportPorts

theorem tear (h : s.frame l t) {p : PortId} {st : PortState} (hl : [.regs, .ctxs, .running, .mem, .hostMem, .deposits, .poison, .bch, .objs,
    .orphans, .mig, .bankMgc, .models, .blks, .fpc, .inst, .armings, .tsets, .link, .time, .pwr, .pcie, .aptWait, .sec, .log, .logNext, .out]
    ⊆ l := by simp) : s.frame l (t.tear p st) := by
  refine h.lift hl fun h => ?_
  unfold State.tear
  extract_lets +onlyGivenNames x
  exact h.setPort.losePeers.mgmtLost.linkGone

theorem portDown (h : s.frame l t) {p : PortId} {cause : Nat} (hl : [.regs, .ctxs, .running, .mem, .hostMem, .deposits, .poison, .bch,
    .objs, .orphans, .mig, .bankMgc, .models, .blks, .fpc, .inst, .armings, .tsets, .link, .time, .pwr, .pcie, .aptWait, .sec, .log, .logNext,
    .out] ⊆ l := by simp) : s.frame l (t.portDown p cause) := by
  refine h.lift hl fun h => ?_
  unfold State.portDown
  split
  · exact h
  · extract_lets +onlyGivenNames s1 s2
    exact h.updPort.addFld.tear.updPort.linkEvent

/-! ### Links that become ACTIVE -/

theorem setUse (h : s.frame l t) {p : PortId} {u2 : PortUse} (hl : [.link] ⊆ l := by simp) : s.frame l (t.setUse p u2) := by
  refine h.lift hl fun h => ?_
  unfold State.setUse
  exact h.updPort

theorem settlePort (h : s.frame l t) {p : PortId} (hl : [.regs, .ctxs, .running, .mem, .hostMem, .deposits, .poison, .bch, .objs, .orphans,
    .mig, .bankMgc, .models, .blks, .fpc, .inst, .armings, .tsets, .link, .time, .pwr, .pcie, .aptWait, .sec, .log, .logNext, .out] ⊆ l := by
    simp) : s.frame l (t.settlePort p) := by
  refine h.lift hl fun h => ?_
  unfold State.settlePort
  extract_lets +onlyGivenNames x
  split
  · exact h
  · split
    · exact h.portDown
    · split
      · split
        · exact h.portDown
        · split
          · exact h.join
          · split
            · exact h
            · split
              · exact h.portDown
              · exact h.setUse.reattachNext
      · split
        · split
          · exact h.sendCtl
          · exact h
        · split
          · exact h.portDown
          · split
            · exact h.setUse.reportPorts
            · exact h.reportPorts

theorem takeUpstream (h : s.frame l t) {p : PortId} {hops : Nat} (hl : [.link, .pwr, .out] ⊆ l := by simp) : s.frame l (t.takeUpstream p
    hops) := by
  refine h.lift hl fun h => ?_
  unfold State.takeUpstream
  extract_lets +onlyGivenNames s1
  have h1 := h.toward s1 (by unfold s1; split; exacts [(either h.setUse h), h])
  extract_lets +onlyGivenNames s2
  have h2 : frame _ _ s2 := h1.setUse
  exact h2.update.tellWaiting

theorem restStandby (h : s.frame l t) {r1 : List PortId} (hl : [.link] ⊆ l := by simp) : s.frame l (t.restStandby r1) := by
  refine h.lift hl ?_
  clear h hl
  intro s h
  induction r1 generalizing t with
  | nil => exact h
  | cons y ys ih =>
    unfold State.restStandby
    extract_lets +onlyGivenNames x
    exact (ih (either h.setUse h))

theorem instCredits (h : s.frame l t) (hl : [.link, .pwr, .out] ⊆ l := by simp) : s.frame l t.instCredits := by
  refine h.lift hl fun h => ?_
  unfold State.instCredits
  split
  · exact h
  · extract_lets +onlyGivenNames used
    split
    · exact h.updPort.credit
    · exact h

theorem unnumber (h : s.frame l t) (hl : [.link, .pwr, .out] ⊆ l := by simp) : s.frame l t.unnumber := by
  refine h.lift hl fun h => ?_
  unfold State.unnumber
  extract_lets +onlyGivenNames _ s1
  exact (h.update.foldl (fun h2 => (either h2.setUse h2))).informL

/-! ### Flits (R356, R359) -/

theorem acceptData (h : s.frame l t) {p : PortId} {seq : Nat} {f : DataFlit} (hl : [.regs, .ctxs, .running, .mem, .hostMem, .deposits,
    .poison, .bch, .objs, .orphans, .mig, .bankMgc, .models, .blks, .fpc, .inst, .armings, .tsets, .link, .time, .pwr, .pcie, .aptWait, .sec,
    .log, .logNext, .out] ⊆ l := by simp) : s.frame l (t.acceptData p seq f) := by
  refine h.lift hl fun h => ?_
  unfold State.acceptData
  split
  · exact h.portDown
  · extract_lets +onlyGivenNames n s1
    exact h.updPort.addFld.sendCtl.credit

theorem rxDataFlit (h : s.frame l t) {p : PortId} {bs : List Byte} (hl : [.regs, .ctxs, .running, .mem, .hostMem, .deposits, .poison, .bch,
    .objs, .orphans, .mig, .bankMgc, .models, .blks, .fpc, .inst, .armings, .tsets, .link, .time, .pwr, .pcie, .aptWait, .sec, .log, .logNext,
    .out] ⊆ l := by simp) : s.frame l (t.rxDataFlit p bs) := by
  refine h.lift hl fun h => ?_
  unfold State.rxDataFlit
  extract_lets +onlyGivenNames x r nak
  split
  · exact h
  · split
    · exact h.addFld.sendCtl
    · split
      · exact h
      · extract_lets +onlyGivenNames d
        split
        · exact h.acceptData
        · split
          · exact h.addFld
          · exact h.sendCtl

theorem execDataFlit (h : s.frame l t) {p : PortId} {bytes : List Byte} (hl : [.regs, .ctxs, .running, .mem, .hostMem, .deposits, .poison,
    .bch, .objs, .orphans, .mig, .bankMgc, .models, .blks, .fpc, .inst, .armings, .tsets, .link, .time, .pwr, .pcie, .aptWait, .sec, .log,
    .logNext, .out] ⊆ l := by simp) : s.frames l (execDataFlit p bytes t) := by
  refine h.liftOutcome hl fun h => ?_
  unfold Machine.execDataFlit
  exact h.rxDataFlit.next

theorem takeCtlMsgs (h : s.frame l t) {p : PortId} {r2 : List W64} (hl : [.regs, .ctxs, .running, .mem, .hostMem, .deposits, .poison, .bch,
    .objs, .orphans, .mig, .bankMgc, .models, .blks, .fpc, .inst, .armings, .tsets, .link, .time, .pwr, .pcie, .aptWait, .sec, .log, .logNext,
    .out] ⊆ l := by simp) : s.frame l (t.takeCtlMsgs p r2) := by
  refine h.lift hl ?_
  clear h hl
  intro s h
  induction r2 generalizing t p with
  | nil => exact h
  | cons y ys ih =>
    unfold State.takeCtlMsgs
    split
    · exact (ih h.addFld)
    · split
      · exact h.portDown
      · exact (ih h.updPort)

theorem acceptCtl (h : s.frame l t) {p : PortId} {cseq : Nat} {msgs : List W64} (hl : [.regs, .ctxs, .running, .mem, .hostMem, .deposits,
    .poison, .bch, .objs, .orphans, .mig, .bankMgc, .models, .blks, .fpc, .inst, .armings, .tsets, .link, .time, .pwr, .pcie, .aptWait, .sec,
    .log, .logNext, .out] ⊆ l := by simp) : s.frame l (t.acceptCtl p cseq msgs) := by
  refine h.lift hl fun h => ?_
  unfold State.acceptCtl
  extract_lets +onlyGivenNames s1 s2
  exact (either h.updPort h.updPort.sendCtl).takeCtlMsgs

theorem rxCtlFlit (h : s.frame l t) {p : PortId} {bs : List Byte} (hl : [.regs, .ctxs, .running, .mem, .hostMem, .deposits, .poison, .bch,
    .objs, .orphans, .mig, .bankMgc, .models, .blks, .fpc, .inst, .armings, .tsets, .link, .time, .pwr, .pcie, .aptWait, .sec, .log, .logNext,
    .out] ⊆ l := by simp) : s.frame l (t.rxCtlFlit p bs) := by
  refine h.lift hl fun h => ?_
  unfold State.rxCtlFlit
  extract_lets +onlyGivenNames x r nak
  split
  · exact h
  · split
    · exact h.addFld.sendCtl
    · split
      · exact h
      · extract_lets +onlyGivenNames d
        split
        · exact h.acceptCtl
        · split
          · exact h.addFld
          · exact h.sendCtl

theorem execControlFlit (h : s.frame l t) {p : PortId} {bytes : List Byte} (hl : [.regs, .ctxs, .running, .mem, .hostMem, .deposits,
    .poison, .bch, .objs, .orphans, .mig, .bankMgc, .models, .blks, .fpc, .inst, .armings, .tsets, .link, .time, .pwr, .pcie, .aptWait, .sec,
    .log, .logNext, .out] ⊆ l := by simp) : s.frames l (execControlFlit p bytes t) := by
  refine h.liftOutcome hl fun h => ?_
  unfold Machine.execControlFlit
  exact h.rxCtlFlit.next

/-! ### Link-layer messages (R355, R356, R359) -/

theorem dack (h : s.frame l t) {p : PortId} {m : W64} (hl : [.link, .out] ⊆ l := by simp) : s.frame l (t.dack p m) := by
  refine h.lift hl fun h => ?_
  unfold State.dack
  exact h.updPort.pump

theorem execDack (h : s.frame l t) {p : PortId} (hl : [.link, .pwr, .out] ⊆ l := by simp) : s.frames l (execDack p t) := by
  refine h.liftOutcome hl fun h => ?_
  unfold Machine.execDack
  exact (h.onCtl (fun h1 => h1.dack)).next

theorem cack (h : s.frame l t) {p : PortId} {m : W64} (hl : [.link, .out] ⊆ l := by simp) : s.frame l (t.cack p m) := by
  refine h.lift hl fun h => ?_
  unfold State.cack
  exact h.updPort.pump

theorem execCack (h : s.frame l t) {p : PortId} (hl : [.link, .pwr, .out] ⊆ l := by simp) : s.frames l (execCack p t) := by
  refine h.liftOutcome hl fun h => ?_
  unfold Machine.execCack
  exact (h.onCtl (fun h1 => h1.cack)).next

theorem resendData (h : s.frame l t) {p : PortId} {r2 : List (Nat × DataFlit)} (hl : [.out] ⊆ l := by simp) : s.frame l (t.resendData p r2)
    := by
  refine h.lift hl ?_
  clear h hl
  intro s h
  induction r2 generalizing t p with
  | nil => exact h
  | cons y ys ih =>
    unfold State.resendData
    exact (ih h.emit)

theorem resendCtl (h : s.frame l t) {p : PortId} {r2 : List (Nat × List W64)} (hl : [.out] ⊆ l := by simp) : s.frame l (t.resendCtl p r2) :=
    by
  refine h.lift hl ?_
  clear h hl
  intro s h
  induction r2 generalizing t p with
  | nil => exact h
  | cons y ys ih =>
    unfold State.resendCtl
    exact (ih h.emit)

theorem divReplay (h : s.frame l t) {r1 : List CtxId} (hl : [.regs] ⊆ l := by simp) : s.frame l (t.divReplay r1) := by
  refine h.lift hl ?_
  clear h hl
  intro s h
  induction r1 generalizing t with
  | nil => exact h
  | cons y ys ih =>
    unfold State.divReplay
    exact (ih h.div)

theorem dnak (h : s.frame l t) {p : PortId} {m : W64} (hl : [.regs, .ctxs, .running, .mem, .hostMem, .deposits, .poison, .bch, .objs,
    .orphans, .mig, .bankMgc, .models, .blks, .fpc, .inst, .armings, .tsets, .link, .time, .pwr, .pcie, .aptWait, .sec, .log, .logNext, .out]
    ⊆ l := by simp) : s.frame l (t.dnak p m) := by
  refine h.lift hl fun h => ?_
  unfold State.dnak
  extract_lets +onlyGivenNames x n run s1
  split
  · exact h.setPort.portDown
  · extract_lets +onlyGivenNames l'
    exact h.setPort.addFld.resendData.divReplay

theorem execDnak (h : s.frame l t) {p : PortId} (hl : [.regs, .ctxs, .running, .mem, .hostMem, .deposits, .poison, .bch, .objs, .orphans,
    .mig, .bankMgc, .models, .blks, .fpc, .inst, .armings, .tsets, .link, .time, .pwr, .pcie, .aptWait, .sec, .log, .logNext, .out] ⊆ l := by
    simp) : s.frames l (execDnak p t) := by
  refine h.liftOutcome hl fun h => ?_
  unfold Machine.execDnak
  exact (h.onCtl (fun h1 => h1.dnak)).next

theorem cnak (h : s.frame l t) {p : PortId} {m : W64} (hl : [.regs, .ctxs, .running, .mem, .hostMem, .deposits, .poison, .bch, .objs,
    .orphans, .mig, .bankMgc, .models, .blks, .fpc, .inst, .armings, .tsets, .link, .time, .pwr, .pcie, .aptWait, .sec, .log, .logNext, .out]
    ⊆ l := by simp) : s.frame l (t.cnak p m) := by
  refine h.lift hl fun h => ?_
  unfold State.cnak
  extract_lets +onlyGivenNames x n run s1
  split
  · exact h.setPort.portDown
  · extract_lets +onlyGivenNames from_
    exact h.setPort.addFld.resendCtl.divReplay

theorem execCnak (h : s.frame l t) {p : PortId} (hl : [.regs, .ctxs, .running, .mem, .hostMem, .deposits, .poison, .bch, .objs, .orphans,
    .mig, .bankMgc, .models, .blks, .fpc, .inst, .armings, .tsets, .link, .time, .pwr, .pcie, .aptWait, .sec, .log, .logNext, .out] ⊆ l := by
    simp) : s.frames l (execCnak p t) := by
  refine h.liftOutcome hl fun h => ?_
  unfold Machine.execCnak
  exact (h.onCtl (fun h1 => h1.cnak)).next

theorem addCredit (h : s.frame l t) {p : PortId} {m : W64} (hl : [.link, .out] ⊆ l := by simp) : s.frame l (t.addCredit p m) := by
  refine h.lift hl fun h => ?_
  unfold State.addCredit
  extract_lets +onlyGivenNames n
  exact h.updPort.pump

theorem execCredit (h : s.frame l t) {p : PortId} (hl : [.link, .pwr, .out] ⊆ l := by simp) : s.frames l (execCredit p t) := by
  refine h.liftOutcome hl fun h => ?_
  unfold Machine.execCredit
  exact (h.onCtl (fun h1 => h1.addCredit)).next

/-! ### System counters (R201, R365) -/

theorem syncInc (h : s.frame l t) {p : PortId} (hl : [.ctxs, .sysCnt, .link, .pwr, .out] ⊆ l := by simp) : s.frame l (t.syncInc p) := by
  refine h.lift hl fun h => ?_
  unfold State.syncInc
  split
  · exact h
  · exact h.onCtl (fun h1 => h1.sysAdd)

theorem execSyncInc (h : s.frame l t) {p : PortId} (hl : [.ctxs, .sysCnt, .link, .pwr, .out] ⊆ l := by simp) : s.frames l (execSyncInc p t)
    := by
  refine h.liftOutcome hl fun h => ?_
  unfold Machine.execSyncInc
  exact h.syncInc.next

theorem moonFormed (h : s.frame l t) (hl : [.link] ⊆ l := by simp) : s.frame l t.moonFormed := by
  refine h.lift hl fun h => ?_
  unfold State.moonFormed
  split
  · exact h.update
  · exact h

theorem syncVal' (h : s.frame l t) {m : W64} (hl : [.ctxs, .sysCnt, .link, .pwr, .out] ⊆ l := by simp) : s.frame l (t.syncVal' m) := by
  refine h.lift hl fun h => ?_
  unfold State.syncVal'
  extract_lets +onlyGivenNames n v s1
  have h1 : frame _ _ s1 := h.setSys
  extract_lets +onlyGivenNames _ s2
  exact h1.update.sendCtlAll.moonFormed

theorem execSyncVal (h : s.frame l t) {p : PortId} (hl : [.ctxs, .sysCnt, .link, .pwr, .out] ⊆ l := by simp) : s.frames l (execSyncVal p t)
    := by
  refine h.liftOutcome hl fun h => ?_
  unfold Machine.execSyncVal
  exact (h.onCtl (fun h1 => (either h1.syncVal' h1))).next

/-! ### Time (R369) -/

theorem timeAct (h : s.frame l t) {off : Int} (hl : [.regs, .link, .time, .pwr, .pcie, .out] ⊆ l := by simp) : s.frame l (t.timeAct off) :=
    by
  refine h.lift hl fun h => ?_
  unfold State.timeAct
  extract_lets +onlyGivenNames a ns t' good u
  split
  · extract_lets +onlyGivenNames _ s1
    exact h.update.addFld.linkEvent
  · exact h.update

theorem execTime (h : s.frame l t) {p : PortId} (hl : [.regs, .link, .time, .pwr, .pcie, .out] ⊆ l := by simp) : s.frames l (execTime p t)
    := by
  refine h.liftOutcome hl fun h => ?_
  unfold Machine.execTime
  exact (h.onCtl (fun h1 => (either h1.timeAct h1))).next

theorem execTimeSendInterval (h : s.frame l t) (hl : [.link, .pwr, .out] ⊆ l := by simp) : s.frames l (execTimeSendInterval t) := by
  refine h.liftOutcome hl fun h => ?_
  unfold Machine.execTimeSendInterval
  exact (either h.sendCtlAll h).next

theorem execTimeHoldover (h : s.frame l t) (hl : [.time] ⊆ l := by simp) : s.frames l (execTimeHoldover t) := by
  refine h.liftOutcome hl fun h => ?_
  unfold Machine.execTimeHoldover
  exact (either h.update h).next

/-! ### Latency (R364) -/

theorem execMeasureRequest (h : s.frame l t) {p : PortId} {turn : BitVec 30} (hl : [.link, .pwr, .out] ⊆ l := by simp) : s.frames l
    (execMeasureRequest p turn t) := by
  refine h.liftOutcome hl fun h => ?_
  unfold Machine.execMeasureRequest
  exact (h.onCtl (fun h1 => h1.sendCtl)).next

theorem execMeasureReply (h : s.frame l t) {p : PortId} {ui : Nat} (hl : [.link, .pwr, .out] ⊆ l := by simp) : s.frames l (execMeasureReply
    p ui t) := by
  refine h.liftOutcome hl fun h => ?_
  unfold Machine.execMeasureReply
  exact (h.onCtl (fun h1 => h1.updPort)).next

/-! ### Topology messages (R371 to R373) -/

theorem joinMsg (h : s.frame l t) {p : PortId} (hl : [.regs, .link, .pwr, .pcie, .out] ⊆ l := by simp) : s.frame l (t.joinMsg p) := by
  refine h.lift hl fun h => ?_
  unfold State.joinMsg
  split
  · exact h.onCtl (fun h1 => (either h1.join h1.join))
  · split
    · exact h
    · exact h.onCtl (fun h1 => (either h1 h1.sendUp))

theorem execJoin (h : s.frame l t) {p : PortId} (hl : [.regs, .link, .pwr, .pcie, .out] ⊆ l := by simp) : s.frames l (execJoin p t) := by
  refine h.liftOutcome hl fun h => ?_
  unfold Machine.execJoin
  exact h.joinMsg.next

theorem assigned (h : s.frame l t) {p : PortId} {m : W64} (hl : [.link, .time, .pwr, .out] ⊆ l := by simp) : s.frame l (t.assigned p m) :=
    by
  refine h.lift hl fun h => ?_
  unfold State.assigned
  extract_lets +onlyGivenNames n q
  split
  · extract_lets +onlyGivenNames s1
    have h1 : frame _ _ s1 := h.takeUpstream
    extract_lets +onlyGivenNames _ _ s2
    exact h1.update.restStandby.reportPorts.informL.instCredits.moonFormed
  · split
    · exact h.takeUpstream.instCredits
    · split
      · split
        · exact h.updPort.setRoute.sendCtl
        · exact h
      · split
        · exact h.setRoute.sendCtl
        · exact h

theorem execAssign (h : s.frame l t) {p : PortId} (hl : [.link, .time, .pwr, .out] ⊆ l := by simp) : s.frames l (execAssign p t) := by
  refine h.liftOutcome hl fun h => ?_
  unfold Machine.execAssign
  exact (h.onCtl (fun h1 => (either h1.assigned h1))).next

theorem lostAt (h : s.frame l t) {m : W64} (hl : [.regs, .orphans, .bankMgc, .models, .blks, .fpc, .inst, .tsets, .link, .pwr, .pcie, .out]
    ⊆ l := by simp) : s.frame l (t.lostAt m) := by
  refine h.lift hl fun h => ?_
  unfold State.lostAt
  extract_lets +onlyGivenNames e
  exact h.setTopo.regionLost

theorem upward (h : s.frame l t) {p : PortId} {sub : Nat} {f : W64 → State → State}
    (hf : ∀ {m : W64} {s t : State}, s.frame l t → s.frame l (f m t)) (hl : [.link, .pwr, .out] ⊆ l := by simp) :
    s.frame l (t.upward p sub f) := by
  unfold State.upward
  exact either h (h.onCtl (fun h => either (hf h) ((h.setRoute (within hl)).sendUp (within hl))) hl)

theorem execLost (h : s.frame l t) {p : PortId} (hl : [.regs, .orphans, .bankMgc, .models, .blks, .fpc, .inst, .tsets, .link, .pwr, .pcie,
    .out] ⊆ l := by simp) : s.frames l (execLost p t) := by
  refine h.liftOutcome hl fun h => ?_
  unfold Machine.execLost
  exact (either h (h.onCtl (fun h1 => (either h1.lostAt h1.sendUp)))).next

theorem reattach (h : s.frame l t) {p : PortId} {m : W64} (hl : [.link, .pwr, .out] ⊆ l := by simp) : s.frame l (t.reattach p m) := by
  refine h.lift hl fun h => ?_
  unfold State.reattach
  extract_lets +onlyGivenNames x q
  split
  · exact h.takeUpstream.sendCtl.instCredits
  · split
    · split
      · exact h.updPort.setRoute.sendCtl
      · exact h
    · split
      · exact h.setRoute.sendCtl
      · exact h

theorem execReattach (h : s.frame l t) {p : PortId} (hl : [.link, .pwr, .out] ⊆ l := by simp) : s.frames l (execReattach p t) := by
  refine h.liftOutcome hl fun h => ?_
  unfold Machine.execReattach
  exact (h.onCtl (fun h1 => (either h1.reattach h1))).next

theorem execAttached (h : s.frame l t) {p : PortId} (hl : [.regs, .link, .pwr, .pcie, .out] ⊆ l := by simp) : s.frames l (execAttached p t)
    := by
  refine h.liftOutcome hl fun h => ?_
  unfold Machine.execAttached
  exact (h.upward (fun h1 => h1.attached)).next

theorem neighbour (h : s.frame l t) {p : PortId} {m : W64} {foreign : Bool} (hl : [.regs, .ctxs, .running, .mem, .hostMem, .deposits,
    .poison, .bch, .objs, .orphans, .mig, .bankMgc, .models, .blks, .fpc, .inst, .armings, .tsets, .link, .time, .pwr, .pcie, .aptWait, .sec,
    .log, .logNext, .out] ⊆ l := by simp) : s.frame l (t.neighbour p m foreign) := by
  refine h.lift hl fun h => ?_
  unfold State.neighbour
  extract_lets +onlyGivenNames s1
  split
  · exact h.updPort.unnumber
  · exact h.updPort.settlePort

theorem portsMessage (h : s.frame l t) {p : PortId} {nbrs : List (Nat × Nat × Nat)} {foreign : Bool} (hl : [.regs, .ctxs, .running, .mem,
    .hostMem, .deposits, .poison, .bch, .objs, .orphans, .mig, .bankMgc, .models, .blks, .fpc, .inst, .armings, .tsets, .link, .time, .pwr,
    .pcie, .aptWait, .sec, .log, .logNext, .out] ⊆ l := by simp) : s.frame l (t.portsMessage p nbrs foreign) := by
  refine h.lift hl fun h => ?_
  unfold State.portsMessage
  extract_lets +onlyGivenNames report
  split
  · exact h
  · exact h.onCtl (fun h1 => (either (either h1.portsReport (either h1.neighbour h1.setRoute.sendUp)) h1.neighbour))

theorem execPorts (h : s.frame l t) {p : PortId} {note : PortsNote} (hl : [.regs, .ctxs, .running, .mem, .hostMem, .deposits, .poison, .bch,
    .objs, .orphans, .mig, .bankMgc, .models, .blks, .fpc, .inst, .armings, .tsets, .link, .time, .pwr, .pcie, .aptWait, .sec, .log, .logNext,
    .out] ⊆ l := by simp) : s.frames l (execPorts p note t) := by
  refine h.liftOutcome hl fun h => ?_
  unfold Machine.execPorts
  exact h.portsMessage.next

theorem refuse (h : s.frame l t) {m : W64} (hl : [.link, .pwr, .out] ⊆ l := by simp) : s.frame l (t.refuse m) := by
  refine h.lift hl fun h => ?_
  unfold State.refuse
  split
  · exact h.update
  · split
    · exact h.sendCtl
    · exact h.sendCtlOpt

theorem execRefuse (h : s.frame l t) {p : PortId} (hl : [.link, .pwr, .out] ⊆ l := by simp) : s.frames l (execRefuse p t) := by
  refine h.liftOutcome hl fun h => ?_
  unfold Machine.execRefuse
  exact (h.onCtl (fun h1 => (either h1.refuse h1))).next

theorem execReattachNoAnswer (h : s.frame l t) {dev : BitVec 8} (hl : [.regs, .link, .pwr, .pcie, .out] ⊆ l := by simp) : s.frames l
    (execReattachNoAnswer dev t) := by
  refine h.liftOutcome hl fun h => ?_
  unfold Machine.execReattachNoAnswer
  exact (either h.noAnswer h).next

theorem endHeld (h : s.frame l t) {r1 : List (CtxId × Engine)} (hl : [.regs, .ctxs, .running, .sysCnt, .mem, .hostMem, .deposits, .poison,
    .bch, .objs, .orphans, .models, .blks, .armings, .tsets, .link, .pwr, .pcie, .log, .logNext, .out] ⊆ l := by simp) : s.frame l (t.endHeld
    r1) := by
  refine h.lift hl ?_
  clear h hl
  intro s h
  induction r1 generalizing t with
  | nil => exact h
  | cons y ys ih =>
    unfold State.endHeld
    exact (ih h.complete)

theorem execReattachWaitExpiry (h : s.frame l t) (hl : [.freeCtr, .regs, .ctxs, .running, .sysCnt, .mem, .hostMem, .deposits, .poison, .bch,
    .objs, .orphans, .mig, .migWait, .models, .blks, .armings, .tsets, .link, .pwr, .pcie, .sec, .log, .logNext, .out] ⊆ l := by simp) :
    s.frames l (execReattachWaitExpiry t) := by
  refine h.liftOutcome hl fun h => ?_
  unfold Machine.execReattachWaitExpiry
  exact (either h.freeRegion (either (either h.endHeld.flrSettle h.endHeld.flrSettle.unnumber) h)).next

theorem execJoinRetry (h : s.frame l t) (hl : [.link, .pwr, .out] ⊆ l := by simp) : s.frames l (execJoinRetry t) := by
  refine h.liftOutcome hl fun h => ?_
  unfold Machine.execJoinRetry
  exact (either (by split; exacts [h.sendCtl, h]) h).next

/-! ### Peer requests and answers (R361, R362) -/

theorem onMsg (h : s.frame l t) {p : PortId} {kind : Nat} {act : DataMsg → State → State}
    (hf : ∀ {m : DataMsg} {s t : State}, s.frame l t → s.frame l (act m t))
    (hl : [.regs, .link, .pwr, .pcie, .log, .logNext, .out] ⊆ l := by simp) : s.frame l (t.onMsg p kind act) := by
  unfold State.onMsg
  split
  · exact h
  · extract_lets n s1 s2
    have h1 : s.frame l s1 := h.updPort (within hl)
    have h2 : s.frame l s2 := h1.noteTransit (within hl)
    refine hf (State.frame.credit ?_ (within hl))
    exact either (h2.pump (within hl)) h2

theorem serveRead (h : s.frame l t) {p : PortId} {m : DataMsg} (hl : [.regs, .blks, .link, .pwr, .pcie, .log, .logNext, .out] ⊆ l := by
    simp) : s.frame l (t.serveRead p m) := by
  refine h.lift hl fun h => ?_
  unfold State.serveRead
  extract_lets +onlyGivenNames v may lost ok h'
  split
  · exact h.noteRead.sendData
  · exact (either h.dropLost h).sendData

theorem execRead (h : s.frame l t) {p : PortId} (hl : [.regs, .blks, .link, .pwr, .pcie, .log, .logNext, .out] ⊆ l := by simp) : s.frames l
    (execRead p t) := by
  refine h.liftOutcome hl fun h => ?_
  unfold Machine.execRead
  exact (h.tryOnce (fun h1 => h1.onMsg (fun h2 => h2.serveRead))).next

theorem serveWrite (h : s.frame l t) {p : PortId} {m : DataMsg} (hl : [.mem, .hostMem, .deposits, .poison, .bch, .objs, .link, .pwr, .out] ⊆
    l := by simp) : s.frame l (t.serveWrite p m) := by
  refine h.lift hl fun h => ?_
  unfold State.serveWrite
  extract_lets +onlyGivenNames v ok s1
  exact (either h.writeBytes h).sendData

theorem execWrite (h : s.frame l t) {p : PortId} (hl : [.regs, .mem, .hostMem, .deposits, .poison, .bch, .objs, .link, .pwr, .pcie, .log,
    .logNext, .out] ⊆ l := by simp) : s.frames l (execWrite p t) := by
  refine h.liftOutcome hl fun h => ?_
  unfold Machine.execWrite
  exact (h.tryOnce (fun h1 => h1.onMsg (fun h2 => h2.serveWrite))).next

theorem answered (h : s.frame l t) {p : PortId} {tag : Nat} {write : Bool} {r : PeerReq} {u : State}
    (hu : t.answered p tag write = some (r, u)) (hl : [.link] ⊆ l := by simp) : s.frame l u := by
  refine h.lift hl fun h => ?_
  unfold State.answered at hu
  obtain ⟨r, -, hr⟩ := Option.map_eq_some_iff.mp hu
  cases hr
  exact h.update

theorem fillStream (h : s.frame l t) {r : PeerReq} {bytes : List SB} (hl : [.armings] ⊆ l := by simp) : s.frame l (t.fillStream r bytes) :=
    by
  refine h.lift hl fun h => ?_
  unfold State.fillStream
  split
  · exact h
  · split
    · exact h
    · extract_lets +onlyGivenNames fill fl
      exact h.setArming

theorem readData (h : s.frame l t) {p : PortId} {m : DataMsg} (hl : [.regs, .ctxs, .running, .mem, .hostMem, .deposits, .poison, .bch,
    .objs, .mig, .armings, .link, .pwr, .pcie, .aptWait, .log, .logNext, .out] ⊆ l := by simp) : s.frame l (t.readData p m) := by
  refine h.lift hl fun h => ?_
  unfold State.readData
  split
  · exact h
  next r s1 hs1 =>
    have h1 : frame _ _ s1 := h.answered hs1
    exact either h1.failPeer <| either h1.fillStream h1.deposit

theorem execReadData (h : s.frame l t) {p : PortId} (hl : [.regs, .ctxs, .running, .mem, .hostMem, .deposits, .poison, .bch, .objs, .mig,
    .armings, .link, .pwr, .pcie, .aptWait, .log, .logNext, .out] ⊆ l := by simp) : s.frames l (execReadData p t) := by
  refine h.liftOutcome hl fun h => ?_
  unfold Machine.execReadData
  exact (h.onMsg (fun h1 => h1.readData)).next

theorem writeAck (h : s.frame l t) {p : PortId} {m : DataMsg} (hl : [.regs, .ctxs, .running, .mem, .hostMem, .deposits, .poison, .bch,
    .objs, .mig, .armings, .link, .pwr, .pcie, .aptWait, .log, .logNext, .out] ⊆ l := by simp) : s.frame l (t.writeAck p m) := by
  refine h.lift hl fun h => ?_
  unfold State.writeAck
  split
  · exact h
  next r s1 hs1 =>
    have h1 : frame _ _ s1 := h.answered hs1
    exact either h1.failPeer <| either h1.tailAnswered h1

theorem execWriteAck (h : s.frame l t) {p : PortId} (hl : [.regs, .ctxs, .running, .mem, .hostMem, .deposits, .poison, .bch, .objs, .mig,
    .armings, .link, .pwr, .pcie, .aptWait, .log, .logNext, .out] ⊆ l := by simp) : s.frames l (execWriteAck p t) := by
  refine h.liftOutcome hl fun h => ?_
  unfold Machine.execWriteAck
  exact (h.onMsg (fun h1 => h1.writeAck)).next

/-! ### Ports (R357, R363, R410) -/

theorem execLossOfSignal (h : s.frame l t) {p : PortId} (hl : [.regs, .ctxs, .running, .mem, .hostMem, .deposits, .poison, .bch, .objs,
    .orphans, .mig, .bankMgc, .models, .blks, .fpc, .inst, .armings, .tsets, .link, .time, .pwr, .pcie, .aptWait, .sec, .log, .logNext, .out]
    ⊆ l := by simp) : s.frames l (execLossOfSignal p t) := by
  refine h.liftOutcome hl fun h => ?_
  unfold Machine.execLossOfSignal
  exact (either h h.portDown).next

theorem execFlitSilenceTimeout (h : s.frame l t) {p : PortId} (hl : [.regs, .ctxs, .running, .mem, .hostMem, .deposits, .poison, .bch,
    .objs, .orphans, .mig, .bankMgc, .models, .blks, .fpc, .inst, .armings, .tsets, .link, .time, .pwr, .pcie, .aptWait, .sec, .log, .logNext,
    .out] ⊆ l := by simp) : s.frames l (execFlitSilenceTimeout p t) := by
  refine h.liftOutcome hl fun h => ?_
  unfold Machine.execFlitSilenceTimeout
  exact (either h.portDown h).next

theorem execPortDownRequest (h : s.frame l t) {p : PortId} (hl : [.regs, .ctxs, .running, .mem, .hostMem, .deposits, .poison, .bch, .objs,
    .orphans, .mig, .bankMgc, .models, .blks, .fpc, .inst, .armings, .tsets, .link, .time, .pwr, .pcie, .aptWait, .sec, .log, .logNext, .out]
    ⊆ l := by simp) : s.frames l (execPortDownRequest p t) := by
  refine h.liftOutcome hl fun h => ?_
  unfold Machine.execPortDownRequest
  exact h.portDown.next

theorem sendComet (h : s.frame l t) {p : PortId} (hl : [.out] ⊆ l := by simp) : s.frame l (t.sendComet p) := by
  refine h.lift hl fun h => ?_
  unfold State.sendComet
  split
  · exact h
  · exact h.emit

theorem execCometSend (h : s.frame l t) {p : PortId} (hl : [.out] ⊆ l := by simp) : s.frames l (execCometSend p t) := by
  refine h.liftOutcome hl fun h => ?_
  unfold Machine.execCometSend
  exact h.sendComet.next

theorem execPartnerSignalDetect (h : s.frame l t) {p : PortId} (hl : [.link] ⊆ l := by simp) : s.frames l (execPartnerSignalDetect p t) :=
    by
  refine h.liftOutcome hl fun h => ?_
  unfold Machine.execPartnerSignalDetect
  extract_lets +onlyGivenNames x
  exact (either h.setPort h).next

theorem sendMeasure (h : s.frame l t) {p : PortId} {r2 : List Nat} (hl : [.link, .pwr, .out] ⊆ l := by simp) : s.frame l (t.sendMeasure p
    r2) := by
  refine h.lift hl ?_
  clear h hl
  intro s h
  induction r2 generalizing t p with
  | nil => exact h
  | cons y ys ih =>
    unfold State.sendMeasure
    exact (ih h.sendCtl)

theorem portActive (h : s.frame l t) {p : PortId} (hl : [.regs, .ctxs, .running, .mem, .hostMem, .deposits, .poison, .bch, .objs, .orphans,
    .mig, .bankMgc, .models, .blks, .fpc, .inst, .armings, .tsets, .link, .time, .pwr, .pcie, .aptWait, .sec, .log, .logNext, .out] ⊆ l := by
    simp) : s.frame l (t.portActive p) := by
  refine h.lift hl fun h => ?_
  unfold State.portActive
  extract_lets +onlyGivenNames x s1
  exact h.setPort.pump.settlePort

theorem execTrainingStateDone (h : s.frame l t) {p : PortId} (hl : [.regs, .ctxs, .running, .mem, .hostMem, .deposits, .poison, .bch, .objs,
    .orphans, .mig, .bankMgc, .models, .blks, .fpc, .inst, .armings, .tsets, .link, .time, .pwr, .pcie, .aptWait, .sec, .log, .logNext, .out]
    ⊆ l := by simp) : s.frames l (execTrainingStateDone p t) := by
  refine h.liftOutcome hl fun h => ?_
  unfold Machine.execTrainingStateDone
  extract_lets +onlyGivenNames x
  exact next (by split; exacts [h.setPort, h.setPort.sendCtl.sendMeasure, (either h.portActive h), h])

theorem execTrainingTimeout (h : s.frame l t) {p : PortId} (hl : [.regs, .ctxs, .running, .mem, .hostMem, .deposits, .poison, .bch, .objs,
    .orphans, .mig, .bankMgc, .models, .blks, .fpc, .inst, .armings, .tsets, .link, .time, .pwr, .pcie, .aptWait, .sec, .log, .logNext, .out]
    ⊆ l := by simp) : s.frames l (execTrainingTimeout p t) := by
  refine h.liftOutcome hl fun h => ?_
  unfold Machine.execTrainingTimeout
  exact (either h.portDown h).next

theorem execRetrainWaitExpiry (h : s.frame l t) {p : PortId} (hl : [.link] ⊆ l := by simp) : s.frames l (execRetrainWaitExpiry p t) := by
  refine h.liftOutcome hl fun h => ?_
  unfold Machine.execRetrainWaitExpiry
  exact h.updPort.next

/-! ### The plan (R313, R314) -/

theorem deleteSlot (h : s.frame l t) {i j : Nat} (hl : [.mem, .poison, .bch, .objs, .pmap, .orphans, .mig, .models, .blks, .pwr] ⊆ l := by
    simp) : s.frame l (t.deleteSlot i j) := by
  refine h.lift hl fun h => ?_
  unfold State.deleteSlot
  extract_lets +onlyGivenNames gone s1 s2
  have h2 : frame _ _ s2 := h.setModel.foldl (fun h2 => h2.deleteObj)
  exact h2.setModel

theorem createPlanned (h : s.frame l t) {m : Model} {j : Nat} {o : Nat × Nat} (hl : [.freeCtr, .poison, .bch, .objs, .bankHost, .bankMgc] ⊆
    l := by simp) : s.frame l (t.createPlanned m j o).1 := by
  refine h.lift hl fun h => ?_
  unfold State.createPlanned
  extract_lets +onlyGivenNames j w0 _ b
  split
  · exact h
  · extract_lets +onlyGivenNames t'
    have h1 : frame _ _ t' := h.update.create
    exact h1.update

theorem createAll (h : s.frame l t) {m : Model} {j : Nat} {r3 : List (Nat × Nat)} (hl : [.freeCtr, .poison, .bch, .objs, .bankHost,
    .bankMgc] ⊆ l := by simp) : s.frame l (t.createAll m j r3).1 := by
  refine h.lift hl ?_
  clear h hl
  intro s h
  induction r3 generalizing t m j with
  | nil => exact h
  | cons y ys ih =>
    unfold State.createAll
    extract_lets +onlyGivenNames r
    split
    · exact h.createPlanned
    · exact (ih h.createPlanned)

theorem writeTsets (h : s.frame l t) {m : Model} {k : Nat} {all rs : List PlanRec} (hl : [.tsets] ⊆ l := by simp) :
    s.frame l (t.writeTsets m k all rs).1 := by
  refine h.lift hl ?_
  clear h hl
  intro s h
  induction rs generalizing t with
  | nil => exact h
  | cons r rs ih =>
    cases r with
    | tset =>
      unfold State.writeTsets
      extract_lets +onlyGivenNames x
      split
      · exact h
      · exact ih h.setTset
    | _ => exact ih h

theorem rehash (h : s.frame l t) {k : Nat} {all rs : List PlanRec} (hl : [.tsets] ⊆ l := by simp) : s.frame l (t.rehash k all rs) := by
  refine h.lift hl ?_
  clear h hl
  intro s h
  induction rs generalizing t with
  | nil => exact h
  | cons r rs ih =>
    cases r with
    | tset => exact ih h.setTset
    | _ => exact ih h

theorem applyPlan (h : s.frame l t) (hl : [.freeCtr, .mem, .poison, .bch, .objs, .pmap, .orphans, .mig, .bankHost, .bankMgc, .models, .blks,
    .fpc, .inst, .tsets, .link, .pwr, .pcie, .out] ⊆ l := by simp) : s.frame l t.applyPlan := by
  refine h.lift hl fun h => ?_
  unfold State.applyPlan
  extract_lets +onlyGivenNames i k m new s1 r
  split
  · exact (either h h.deleteSlot).createAll.instFail
  · split
    · exact (either h h.deleteSlot).createAll.instFail
    · extract_lets +onlyGivenNames q
      split
      · exact (either h h.deleteSlot).createAll.writeTsets.instFail
      · extract_lets +onlyGivenNames s2
        have h2 : frame _ _ s2 := (either h h.deleteSlot).createAll.writeTsets.rehash
        exact h2.setInst

/-! ### The installer's operations (R291, R314 to R316) -/

theorem mgcLaunch (h : s.frame l t) {cmd addr data : Nat} (hl : [.regs, .objs, .fpc, .link, .pwr, .pcie, .out] ⊆ l := by simp) : s.frame l
    (t.mgcLaunch cmd addr data) := by
  refine h.lift hl fun h => ?_
  unfold State.mgcLaunch
  exact h.fpcKey.fpcKey.fpcCmd.fpcAddr.fpcData

theorem noteLaunch (h : s.frame l t) {id : Nat} {held : List HeldShard} (hl : [.inst, .link, .pwr, .pcie, .out] ⊆ l := by simp) : s.frame l
    (t.noteLaunch id held) := by
  refine h.lift hl fun h => ?_
  unfold State.noteLaunch
  exact h.setInst

theorem launchPages (h : s.frame l t) {hh : HeldShard} (hl : [.regs, .objs, .orphans, .bankMgc, .models, .blks, .fpc, .inst, .tsets, .link,
    .pwr, .pcie, .out] ⊆ l := by simp) : s.frame l (t.launchPages hh) := by
  refine h.lift hl fun h => ?_
  unfold State.launchPages
  extract_lets +onlyGivenNames n
  split
  · exact h.instFail
  · split
    · exact h.instFail
    · exact h.mgcLaunch.noteLaunch

theorem launchTile (h : s.frame l t) {hh : HeldShard} (hl : [.regs, .objs, .fpc, .inst, .link, .pwr, .pcie, .out] ⊆ l := by simp) : s.frame
    l (t.launchTile hh) := by
  refine h.lift hl fun h => ?_
  unfold State.launchTile
  extract_lets +onlyGivenNames tile h' s1
  exact h.setReg.setReg.mgcLaunch.noteLaunch

theorem launchErase (h : s.frame l t) {tile : Nat} {rest : List Nat} (hl : [.regs, .objs, .fpc, .inst, .link, .pwr, .pcie, .out] ⊆ l := by
    simp) : s.frame l (t.launchErase tile rest) := by
  refine h.lift hl fun h => ?_
  unfold State.launchErase
  extract_lets +onlyGivenNames mask _ s1
  split
  · exact h.setInst
  · exact h.setInst.mgcLaunch.noteLaunch

theorem launchOne (h : s.frame l t) (hl : [.regs, .objs, .orphans, .bankMgc, .models, .blks, .fpc, .inst, .tsets, .link, .pwr, .pcie, .out]
    ⊆ l := by simp) : s.frame l t.launchOne := by
  refine h.lift hl fun h => ?_
  unfold State.launchOne
  split
  · exact h
  · split
    · exact h.launchErase
    · split
      · exact h
      · split
        · exact h.launchPages
        · exact h.launchTile

theorem dropHeld (h : s.frame l t) {id : Nat} (hl : [.fpc, .inst, .link, .pwr, .pcie, .out] ⊆ l := by simp) : s.frame l (t.dropHeld id) :=
    by
  refine h.lift hl fun h => ?_
  unfold State.dropHeld
  extract_lets +onlyGivenNames hs fin
  exact (h.foldl (fun h1 => h1.releaseBuf)).setInst

theorem instResult (h : s.frame l t) {r : FpcResult} (hl : [.orphans, .bankMgc, .models, .blks, .fpc, .inst, .tsets, .link, .pwr, .pcie,
    .out] ⊆ l := by simp) : s.frame l (t.instResult r) := by
  refine h.lift hl fun h => ?_
  unfold State.instResult
  extract_lets +onlyGivenNames _ s1
  split
  · exact h.setFpc.dropHeld.setInst
  · extract_lets +onlyGivenNames s2 _ s3
    split
    · exact h.setFpc.dropHeld.setInst
    · exact h.setFpc.dropHeld.setInst.instFail

theorem instResults (h : s.frame l t) (hl : [.orphans, .bankMgc, .models, .blks, .fpc, .inst, .tsets, .link, .pwr, .pcie, .out] ⊆ l := by
    simp) : s.frame l t.instResults := by
  refine h.lift hl fun h => ?_
  unfold State.instResults
  exact h.foldl (fun h1 => h1.instResult)

/-! ### Completion and the switch (R317 to R319) -/

theorem extend (h : s.frame l t) {j : Nat} {d : BitVec 384} (hl : [.sec] ⊆ l := by simp) : s.frame l (t.extend j d) := by
  refine h.lift hl fun h => ?_
  unfold State.extend
  exact h.update

theorem switchHere (h : s.frame l t) {b : Option Boundary} (hl : [.orphans, .models, .blks, .tsets, .sec] ⊆ l := by simp) : s.frame l
    (t.switchHere b) := by
  refine h.lift hl fun h => ?_
  unfold State.switchHere
  extract_lets +onlyGivenNames i k m wasActive m1 m2 u s1 s2 record
  exact (either h.setModel.setTsets h.setModel).extend.drainSlots

theorem armed (h : s.frame l t) (hl : [.inst, .link, .pwr, .pcie, .out] ⊆ l := by simp) : s.frame l t.armed := by
  refine h.lift hl fun h => ?_
  unfold State.armed
  split
  · extract_lets +onlyGivenNames _ s1
    split
    · exact h.setInst.setInst
    · exact h.setInst
  · exact h

theorem sendSwitch (h : s.frame l t) {b : Option Boundary} {ps : List PortId} (hl : [.link, .pwr, .out] ⊆ l := by simp) : s.frame l
    (t.sendSwitch b ps) := by
  refine h.lift hl fun h => ?_
  unfold State.sendSwitch
  extract_lets +onlyGivenNames recs s1
  exact (h.foldl (fun h1 => h1.sendCtlAll)).sendCtlAll

theorem leaderSwitch (h : s.frame l t) {b : Option Boundary} (hl : [.orphans, .models, .blks, .inst, .tsets, .link, .pwr, .pcie, .sec, .out]
    ⊆ l := by simp) : s.frame l (t.leaderSwitch b) := by
  refine h.lift hl fun h => ?_
  unfold State.leaderSwitch
  extract_lets +onlyGivenNames s1 own s2
  have h2 : frame _ _ s2 := (either h.sendSwitch.switchHere h.sendSwitch)
  exact h2.setInst.armed

theorem allReported (h : s.frame l t) (hl : [.orphans, .models, .blks, .inst, .tsets, .link, .pwr, .pcie, .sec, .out] ⊆ l := by simp) :
    s.frame l t.allReported := by
  refine h.lift hl fun h => ?_
  unfold State.allReported
  extract_lets +onlyGivenNames i
  split
  · extract_lets +onlyGivenNames s1
    split
    · exact h.setInst.leaderSwitch
    · exact h.setInst
  · exact h

theorem liveSlot (h : s.frame l t) {i j : Nat} (hl : [.objs] ⊆ l := by simp) : s.frame l (t.liveSlot i j) := by
  refine h.lift hl fun h => ?_
  unfold State.liveSlot
  exact h.update

theorem partStandby (h : s.frame l t) (hl : [.objs, .orphans, .models, .blks, .inst, .tsets, .link, .pwr, .pcie, .sec, .out] ⊆ l := by simp)
    : s.frame l t.partStandby := by
  refine h.lift hl fun h => ?_
  unfold State.partStandby
  extract_lets +onlyGivenNames i m s2
  split
  · exact h.liveSlot.setTsets.setModel.setInst.allReported
  · exact h.liveSlot.setTsets.setModel.setInst.sendUp

theorem partComplete (h : s.frame l t) (hl : [.objs, .orphans, .bankMgc, .models, .blks, .fpc, .inst, .tsets, .link, .pwr, .pcie, .sec,
    .out] ⊆ l := by simp) : s.frame l t.partComplete := by
  refine h.lift hl fun h => ?_
  unfold State.partComplete
  extract_lets +onlyGivenNames s1
  split
  · exact h.instResults.underQuiet (fun h2 => h2.partStandby)
  · exact h.instResults

theorem execPartComplete (h : s.frame l t) (hl : [.objs, .orphans, .bankMgc, .models, .blks, .fpc, .inst, .tsets, .link, .pwr, .pcie, .sec,
    .out] ⊆ l := by simp) : s.frames l (execPartComplete t) := by
  refine h.liftOutcome hl fun h => ?_
  unfold Machine.execPartComplete
  exact h.partComplete.instCredits.next

/-! ### The host's orders (R314, R318 to R320, R325, R326) -/

theorem instRefuse (h : s.frame l t) {code : Nat} (hl : [.inst] ⊆ l := by simp) : s.frame l (t.instRefuse code) := by
  refine h.lift hl fun h => ?_
  unfold State.instRefuse
  exact h.update

theorem read0 (h : s.frame l t) {a n : Nat} (hl : [.regs, .blks, .link, .pwr, .pcie, .log, .logNext, .out] ⊆ l := by simp) : s.frame l
    (t.read0 a n).2 := by
  refine h.lift hl fun h => ?_
  unfold State.read0
  extract_lets +onlyGivenNames _ v r
  exact h.noteRead

theorem instBegin (h : s.frame l t) {cmd : W64} {hdr : List Byte} {leader : Bool} {devices : List Nat} {descs : List ShardDesc} (hl :
    [.models, .inst, .link, .pwr, .pcie, .out] ⊆ l := by simp) : s.frame l (t.instBegin cmd hdr leader devices descs) := by
  refine h.lift hl fun h => ?_
  unfold State.instBegin
  extract_lets +onlyGivenNames i k md m s1
  exact (either h.setModel h).clearShards.setInst

theorem instStart (h : s.frame l t) {v : W64} (hl : [.regs, .orphans, .bankMgc, .models, .blks, .fpc, .inst, .tsets, .link, .pwr, .pcie,
    .log, .logNext, .out] ⊆ l := by simp) : s.frame l (t.instStart v) := by
  refine h.lift hl fun h => ?_
  unfold State.instStart
  extract_lets +onlyGivenNames md k
  split
  · exact h.instRefuse
  · extract_lets +onlyGivenNames a h' hdr n b
    split
    · exact h.read0.read0.instBegin
    · exact h.read0.read0.instBegin.instStop

theorem instSwitch (h : s.frame l t) {v : W64} (hl : [.regs, .orphans, .models, .blks, .inst, .tsets, .link, .pwr, .pcie, .sec, .log,
    .logNext, .out] ⊆ l := by simp) : s.frame l (t.instSwitch v) := by
  refine h.lift hl fun h => ?_
  unfold State.instSwitch
  extract_lets +onlyGivenNames i
  split
  · exact h.instRefuse
  · split
    · extract_lets +onlyGivenNames r
      split
      · exact h.read0.instRefuse
      · exact h.read0.leaderSwitch
    · split
      · exact h.instRefuse
      · exact h.leaderSwitch

theorem closeHere (h : s.frame l t) {md : Nat} (hl : [.orphans, .models, .blks, .tsets] ⊆ l := by simp) : s.frame l (t.closeHere md) := by
  refine h.lift hl fun h => ?_
  unfold State.closeHere
  exact h.setModel.drainSlots

theorem instClose (h : s.frame l t) {v : W64} (hl : [.orphans, .models, .blks, .inst, .tsets, .link, .pwr, .pcie, .out] ⊆ l := by simp) :
    s.frame l (t.instClose v) := by
  refine h.lift hl fun h => ?_
  unfold State.instClose
  extract_lets +onlyGivenNames md
  split
  · exact h.instRefuse
  · extract_lets +onlyGivenNames s1
    split
    · exact h.closeHere.sendCtlAll.setInst
    · exact h.closeHere.sendCtlAll

theorem instRetire (h : s.frame l t) {v : W64} (hl : [.orphans, .models, .blks, .inst, .tsets, .link, .pwr, .out] ⊆ l := by simp) : s.frame
    l (t.instRetire v) := by
  refine h.lift hl fun h => ?_
  unfold State.instRetire
  split
  next u hu => exact (h.retireHere hu).sendMgmtAll
  next => exact h.instRefuse

theorem instAbort (h : s.frame l t) (hl : [.orphans, .bankMgc, .models, .blks, .fpc, .inst, .tsets, .link, .pwr, .pcie, .out] ⊆ l := by
    simp) : s.frame l t.instAbort := by
  refine h.lift hl fun h => ?_
  unfold State.instAbort
  split
  · exact h.instFail
  · exact h

theorem order (h : s.frame l t) {op : Nat} {v : W64} (hl : [.regs, .orphans, .bankMgc, .models, .blks, .fpc, .inst, .tsets, .link, .pwr,
    .pcie, .sec, .log, .logNext, .out] ⊆ l := by simp) : s.frame l (t.order op v) := by
  refine h.lift hl fun h => ?_
  unfold State.order
  split
  · exact h.instStart
  · exact h.instSwitch
  · exact h.instClose
  · exact h.instRetire
  · exact h.instAbort
  · exact h

theorem tryOrder (h : s.frame l t) {op : Nat} {v : W64} (hl : [.regs, .deposits, .orphans, .bankMgc, .models, .blks, .fpc, .inst, .tsets,
    .link, .pwr, .pcie, .sec, .log, .logNext, .out] ⊆ l := by simp) : s.frame l (t.tryOrder op v).1 := by
  refine h.lift hl fun h => ?_
  unfold State.tryOrder
  split
  · exact h.askQuiet
  · extract_lets +onlyGivenNames r
    split
    · exact (h.tryPeers (fun h1 => h1.order.dropLost)).endQuiet
    · exact h.tryPeers (fun h1 => h1.order.dropLost)

theorem runOrders (h : s.frame l t) {xs : List (Nat × W64)} (hl : [.regs, .deposits, .orphans, .bankMgc, .models, .blks, .fpc, .inst,
    .tsets, .link, .pwr, .pcie, .sec, .log, .logNext, .out] ⊆ l := by simp) : s.frame l (t.runOrders xs) := by
  refine h.lift hl ?_
  clear h hl
  intro s h
  induction xs generalizing t with
  | nil =>
    unfold State.runOrders
    exact h.update
  | cons o xs ih =>
    unfold State.runOrders
    exact either (ih h.tryOrder) (h.tryOrder.update)

theorem instCmd (h : s.frame l t) {op : Nat} {v : W64} (hl : [.regs, .deposits, .orphans, .bankMgc, .models, .blks, .fpc, .inst, .tsets,
    .link, .pwr, .pcie, .sec, .log, .logNext, .out] ⊆ l := by simp) : s.frame l (t.instCmd op v) := by
  refine h.lift hl fun h => ?_
  unfold State.instCmd
  split
  · exact h
  · exact h.runOrders

theorem installerStep (h : s.frame l t) (hl : [.freeCtr, .regs, .mem, .deposits, .poison, .bch, .objs, .pmap, .orphans, .mig, .bankHost,
    .bankMgc, .models, .blks, .fpc, .inst, .tsets, .link, .pwr, .pcie, .sec, .log, .logNext, .out] ⊆ l := by simp) : s.frame l t.installerStep
    := by
  refine h.lift hl fun h => ?_
  unfold State.installerStep
  extract_lets +onlyGivenNames s0 s1
  split
  · exact h.recordPtrs.runOrders.instResults
  · split
    · exact h.recordPtrs.runOrders.instResults.underQuiet (fun h3 => h3.applyPlan)
    · split
      · exact h.recordPtrs.runOrders.instResults.launchOne
      · exact h.recordPtrs.runOrders.instResults

theorem execInstallerProgramLaunch (h : s.frame l t) (hl : [.freeCtr, .regs, .mem, .deposits, .poison, .bch, .objs, .pmap, .orphans, .mig,
    .bankHost, .bankMgc, .models, .blks, .fpc, .inst, .tsets, .link, .pwr, .pcie, .sec, .log, .logNext, .out] ⊆ l := by simp) : s.frames l
    (execInstallerProgramLaunch t) := by
  refine h.liftOutcome hl fun h => ?_
  unfold Machine.execInstallerProgramLaunch
  exact h.installerStep.instCredits.next

theorem execStart (h : s.frame l t) {v : W64} (hl : [.regs, .deposits, .orphans, .bankMgc, .models, .blks, .fpc, .inst, .tsets, .link, .pwr,
    .pcie, .sec, .log, .logNext, .out] ⊆ l := by simp) : s.frames l (execStart v t) := by
  refine h.liftOutcome hl fun h => ?_
  unfold Machine.execStart
  exact h.instCmd.next

theorem execSwitch (h : s.frame l t) {v : W64} (hl : [.regs, .deposits, .orphans, .bankMgc, .models, .blks, .fpc, .inst, .tsets, .link,
    .pwr, .pcie, .sec, .log, .logNext, .out] ⊆ l := by simp) : s.frames l (execSwitch v t) := by
  refine h.liftOutcome hl fun h => ?_
  unfold Machine.execSwitch
  exact h.instCmd.next

theorem execClose (h : s.frame l t) {v : W64} (hl : [.regs, .deposits, .orphans, .bankMgc, .models, .blks, .fpc, .inst, .tsets, .link, .pwr,
    .pcie, .sec, .log, .logNext, .out] ⊆ l := by simp) : s.frames l (execClose v t) := by
  refine h.liftOutcome hl fun h => ?_
  unfold Machine.execClose
  exact h.instCmd.next

theorem execRetire (h : s.frame l t) {v : W64} (hl : [.regs, .deposits, .orphans, .bankMgc, .models, .blks, .fpc, .inst, .tsets, .link,
    .pwr, .pcie, .sec, .log, .logNext, .out] ⊆ l := by simp) : s.frames l (execRetire v t) := by
  refine h.liftOutcome hl fun h => ?_
  unfold Machine.execRetire
  exact h.instCmd.next

theorem execAbort (h : s.frame l t) {v : W64} (hl : [.regs, .deposits, .orphans, .bankMgc, .models, .blks, .fpc, .inst, .tsets, .link, .pwr,
    .pcie, .sec, .log, .logNext, .out] ⊆ l := by simp) : s.frames l (execAbort v t) := by
  refine h.liftOutcome hl fun h => ?_
  unfold Machine.execAbort
  exact h.instCmd.next

theorem unchecked (h : s.frame l t) {d : Nat} (hl : [.freeCtr] ⊆ l := by simp) : s.frame l (t.unchecked d).2 := by
  refine h.lift hl fun h => ?_
  unfold State.unchecked
  extract_lets +onlyGivenNames l'
  split
  · exact h
  · extract_lets +onlyGivenNames r
    exact h.takeFree

theorem execInstallTimeout (h : s.frame l t) (hl : [.freeCtr, .orphans, .bankMgc, .models, .blks, .fpc, .inst, .tsets, .link, .pwr, .pcie,
    .out] ⊆ l := by simp) : s.frames l (execInstallTimeout t) := by
  refine h.liftOutcome hl fun h => ?_
  unfold Machine.execInstallTimeout
  exact (either h.unchecked.instStop.sendCtlAll h).next

/-! ### Shards (R321 to R323) -/

theorem resendShards (h : s.frame l t) {p : PortId} {r2 : List (Nat × List SB)} (hl : [.link, .pwr, .out] ⊆ l := by simp) : s.frame l
    (t.resendShards p r2) := by
  refine h.lift hl ?_
  clear h hl
  intro s h
  induction r2 generalizing t p with
  | nil => exact h
  | cons y ys ih =>
    unfold State.resendShards
    split
    · exact (ih h.sendData)
    · exact h.updPort

theorem sendShard (h : s.frame l t) {i : Nat} {body : List SB} {p : PortId} (hl : [.link, .pwr, .out] ⊆ l := by simp) : s.frame l
    (t.sendShard i body p) := by
  refine h.lift hl fun h => ?_
  unfold State.sendShard
  extract_lets +onlyGivenNames x
  split
  · extract_lets +onlyGivenNames s1
    split
    · exact h.updPort.resendShards
    · exact h.updPort
  · exact h.updPort.sendData

theorem sendShards (h : s.frame l t) {i : Nat} {body : List SB} {r3 : List PortId} (hl : [.link, .pwr, .out] ⊆ l := by simp) : s.frame l
    (t.sendShards i body r3) := by
  refine h.lift hl ?_
  clear h hl
  intro s h
  induction r3 generalizing t i body with
  | nil => exact h
  | cons y ys ih =>
    unfold State.sendShards
    exact (ih h.sendShard)

theorem keepPlan (h : s.frame l t) {payload : List Byte} (hl : [.orphans, .bankMgc, .models, .blks, .fpc, .inst, .tsets, .link, .pwr, .pcie,
    .out] ⊆ l := by simp) : s.frame l (t.keepPlan payload) := by
  refine h.lift hl fun h => ?_
  unfold State.keepPlan
  extract_lets +onlyGivenNames i
  split
  · exact h.instFail
  · split
    · exact h.instFail
    · exact h.setInst

theorem keepShard (h : s.frame l t) {d : ShardDesc} {payload : List Byte} (hl : [.mem, .poison, .bch, .orphans, .bankMgc, .models, .blks,
    .fpc, .inst, .tsets, .link, .pwr, .pcie, .out] ⊆ l := by simp) : s.frame l (t.keepShard d payload) := by
  refine h.lift hl fun h => ?_
  unfold State.keepShard
  split
  · exact h
  · split
    · exact h.keepPlan
    · split
      · exact h
      · extract_lets +onlyGivenNames bit _ s1
        exact h.setFpc.store.setInst

theorem planEnds (h : s.frame l t) {d : ShardDesc} {n : Nat} (hl : [.orphans, .bankMgc, .models, .blks, .fpc, .inst, .tsets, .link, .pwr,
    .pcie, .out] ⊆ l := by simp) : s.frame l (t.planEnds d n) := by
  refine h.lift hl fun h => ?_
  unfold State.planEnds
  split
  · exact h.instFail
  · exact h

theorem shardFetch (h : s.frame l t) (hl : [.regs, .mem, .poison, .bch, .orphans, .bankMgc, .models, .blks, .fpc, .inst, .tsets, .link,
    .pwr, .pcie, .log, .logNext, .out] ⊆ l := by simp) : s.frame l t.shardFetch := by
  refine h.lift hl fun h => ?_
  unfold State.shardFetch
  extract_lets +onlyGivenNames i
  split
  · exact h
  · split
    · exact h
    · extract_lets +onlyGivenNames ps
      split
      · exact h
      · extract_lets +onlyGivenNames _ v r s1
        split
        · split
          · exact h.noteRead.dropLost.instFail
          · exact h.noteRead.dropLost.setInst
        · extract_lets +onlyGivenNames bytes s2
          exact h.noteRead.dropLost.setInst.sendShards.keepShard.planEnds

theorem execShardFetch (h : s.frame l t) (hl : [.regs, .mem, .deposits, .poison, .bch, .orphans, .bankMgc, .models, .blks, .fpc, .inst,
    .tsets, .link, .pwr, .pcie, .log, .logNext, .out] ⊆ l := by simp) : s.frames l (execShardFetch t) := by
  refine h.liftOutcome hl fun h => ?_
  unfold Machine.execShardFetch
  exact (h.tryPeers (fun h1 => h1.shardFetch)).next

theorem moonBegin (h : s.frame l t) {cmd : W64} {hdr : List Byte} {d : ShardDesc} (hl : [.orphans, .bankMgc, .models, .blks, .fpc, .inst,
    .tsets, .link, .pwr, .pcie, .out] ⊆ l := by simp) : s.frame l (t.moonBegin cmd hdr d) := by
  refine h.lift hl fun h => ?_
  unfold State.moonBegin
  split
  · split
    · exact h.instBegin
    · exact h.update.instFail
  · exact h

theorem shardBad (h : s.frame l t) {p : PortId} {d : ShardDesc} (hl : [.orphans, .bankMgc, .models, .blks, .fpc, .inst, .tsets, .link, .pwr,
    .pcie, .out] ⊆ l := by simp) : s.frame l (t.shardBad p d) := by
  refine h.lift hl fun h => ?_
  unfold State.shardBad
  split
  · split
    · exact h.instFail
    · exact h.clearShards.setInst.sendUp
  · extract_lets +onlyGivenNames _ s1
    exact h.setInst.updPort.sendCtl

theorem shardIn (h : s.frame l t) {p : PortId} {cmd : W64} {hdr : List Byte} {m : DataMsg} (hl : [.mem, .poison, .bch, .orphans, .bankMgc,
    .models, .blks, .fpc, .inst, .tsets, .link, .pwr, .pcie, .out] ⊆ l := by simp) : s.frame l (t.shardIn p cmd hdr m) := by
  refine h.lift hl fun h => ?_
  unfold State.shardIn
  extract_lets +onlyGivenNames d x
  split
  · exact h
  · extract_lets +onlyGivenNames s1 good s2
    have h2 : frame _ _ s2 := (either (either h h.moonBegin).sendShards (either h h.moonBegin))
    split
    · exact h2.shardBad
    · extract_lets +onlyGivenNames s3
      exact h2.updPort.sendCtl.setInst.keepShard.planEnds

theorem shardMsg (h : s.frame l t) {p : PortId} {cmd : W64} {hdr : List Byte} (hl : [.regs, .mem, .poison, .bch, .orphans, .bankMgc,
    .models, .blks, .fpc, .inst, .tsets, .link, .pwr, .pcie, .log, .logNext, .out] ⊆ l := by simp) : s.frame l (t.shardMsg p cmd hdr) := by
  refine h.lift hl fun h => ?_
  unfold State.shardMsg
  split
  · exact h
  · extract_lets +onlyGivenNames d
    split
    · exact h
    · exact h.onMsg (fun h1 => h1.shardIn)

theorem execShard (h : s.frame l t) {p : PortId} {cmd : W64} {hdr : List Byte} (hl : [.regs, .mem, .poison, .bch, .orphans, .bankMgc,
    .models, .blks, .fpc, .inst, .tsets, .link, .pwr, .pcie, .log, .logNext, .out] ⊆ l := by simp) : s.frames l (execShard p cmd hdr t) := by
  refine h.liftOutcome hl fun h => ?_
  unfold Machine.execShard
  exact h.shardMsg.instCredits.next

/-! ### INST messages (R318, R319, R323, R324, R355) -/

theorem execInstAck (h : s.frame l t) {p : PortId} (hl : [.link, .pwr, .out] ⊆ l := by simp) : s.frames l (execInstAck p t) := by
  refine h.liftOutcome hl fun h => ?_
  unfold Machine.execInstAck
  exact (h.onCtl (fun h1 => h1.updPort)).next

theorem execInstRereq (h : s.frame l t) {p : PortId} (hl : [.link, .pwr, .out] ⊆ l := by simp) : s.frames l (execInstRereq p t) := by
  refine h.liftOutcome hl fun h => ?_
  unfold Machine.execInstRereq
  exact (h.onCtl (fun h1 => h1.resendShards)).next

theorem instUp (h : s.frame l t) {p : PortId} {sub : Nat} {f : W64 → State → State}
    (hf : ∀ {m : W64} {s t : State}, s.frame l t → s.frame l (f m t)) (hl : [.link, .pwr, .out] ⊆ l := by simp) :
    s.frame l (t.instUp p sub f) := by
  unfold State.instUp
  exact either h (h.onCtl (fun h => either (hf h) (h.sendUp (within hl))) hl)

theorem execInstDone (h : s.frame l t) {p : PortId} (hl : [.orphans, .models, .blks, .inst, .tsets, .link, .pwr, .pcie, .sec, .out] ⊆ l :=
    by simp) : s.frames l (execInstDone p t) := by
  refine h.liftOutcome hl fun h => ?_
  unfold Machine.execInstDone
  exact (h.instUp (fun h1 => (either h1.setInst.allReported h1))).next

theorem failReport (h : s.frame l t) {m : W64} {st : Status} {detail : Nat} (hl : [.orphans, .bankMgc, .models, .blks, .fpc, .inst, .tsets,
    .link, .pwr, .pcie, .out] ⊆ l := by simp) : s.frame l (t.failReport m st detail) := by
  refine h.lift hl fun h => ?_
  unfold State.failReport
  split
  · exact h.instStop.sendCtlAll
  · exact h

theorem failOrder (h : s.frame l t) {m : W64} {st : Status} {detail : Nat} (hl : [.orphans, .bankMgc, .models, .blks, .fpc, .inst, .tsets,
    .link, .pwr, .pcie, .out] ⊆ l := by simp) : s.frame l (t.failOrder m st detail) := by
  refine h.lift hl fun h => ?_
  unfold State.failOrder
  extract_lets +onlyGivenNames s1
  split
  · exact h.sendCtlAll.instStop
  · exact h.sendCtlAll.clearShards

theorem execInstFail (h : s.frame l t) {p : PortId} {st : BitVec 8} {detail : BitVec 16} (hl : [.orphans, .bankMgc, .models, .blks, .fpc,
    .inst, .tsets, .link, .pwr, .pcie, .out] ⊆ l := by simp) : s.frames l (execInstFail p st detail t) := by
  refine h.liftOutcome hl fun h => ?_
  unfold Machine.execInstFail
  exact (either (h.onCtl (fun h1 => h1.failOrder)) (h.instUp (fun h1 => h1.failReport))).next

theorem switchOrder (h : s.frame l t) {m : W64} (hl : [.orphans, .models, .blks, .inst, .tsets, .link, .pwr, .pcie, .sec, .out] ⊆ l := by
    simp) : s.frame l (t.switchOrder m) := by
  refine h.lift hl fun h => ?_
  unfold State.switchOrder
  extract_lets +onlyGivenNames s1 i b s2
  split
  · extract_lets +onlyGivenNames s3 _ s4
    exact (either h.sendCtlAll.setInst.switchHere.setInst.setInst h.sendCtlAll.setInst.switchHere.setInst).sendUp
  · exact h.sendCtlAll.setInst

theorem instDown (h : s.frame l t) {p : PortId} {sub : Nat} {f : W64 → State → State}
    (hf : ∀ {m : W64} {s t : State}, s.frame l t → s.frame l (f m t)) (hl : [.link, .pwr, .out] ⊆ l := by simp) :
    s.frame l (t.instDown p sub f) := h.onCtl (fun h => either (hf h) h) hl

theorem execInstSwitch (h : s.frame l t) {p : PortId} (hl : [.orphans, .bankMgc, .models, .blks, .inst, .tsets, .link, .pwr, .pcie, .sec,
    .out] ⊆ l := by simp) : s.frames l (execInstSwitch p t) := by
  refine h.liftOutcome hl fun h => ?_
  unfold Machine.execInstSwitch
  exact (either (h.underQuiet (fun h1 => h1.instDown (fun h2 => h2.switchOrder))) (h.instDown (fun h1 => h1.switchOrder))).next

theorem execInstSwitchAck (h : s.frame l t) {p : PortId} (hl : [.inst, .link, .pwr, .pcie, .out] ⊆ l := by simp) : s.frames l
    (execInstSwitchAck p t) := by
  refine h.liftOutcome hl fun h => ?_
  unfold Machine.execInstSwitchAck
  exact (h.instUp (fun h1 => (either h1.setInst.armed h1))).next

theorem execInstClose (h : s.frame l t) {p : PortId} (hl : [.orphans, .models, .blks, .inst, .tsets, .link, .pwr, .pcie, .out] ⊆ l := by
    simp) : s.frames l (execInstClose p t) := by
  refine h.liftOutcome hl fun h => ?_
  unfold Machine.execInstClose
  exact (h.instDown (fun h1 => (either h1.sendCtlAll.closeHere.setInst h1.sendCtlAll.closeHere))).next

theorem execInstSwitchRec (h : s.frame l t) {p : PortId} (hl : [.inst, .link, .pwr, .pcie, .out] ⊆ l := by simp) : s.frames l
    (execInstSwitchRec p t) := by
  refine h.liftOutcome hl fun h => ?_
  unfold Machine.execInstSwitchRec
  exact (h.instDown (fun h1 => h1.sendCtlAll.setInst)).next

/-! ### The boot sequence (R447 to R451) -/

theorem romMeasure (h : s.frame l t) (hl : [.sec] ⊆ l := by simp) : s.frame l t.romMeasure := by
  refine h.lift hl fun h => ?_
  unfold State.romMeasure
  extract_lets +onlyGivenNames _ s1 s2
  exact h.update.extend.extend.foldl (fun h3 => (either h3 h3.extend))

theorem runImage (h : s.frame l t) {img : Nat → Byte} {hh code : Nat} (hl : [.regs, .sec] ⊆ l := by simp) : s.frame l (t.runImage img hh
    code) := by
  refine h.lift hl fun h => ?_
  unfold State.runImage
  exact h.extend.extend.extend.extend.setSec.setFld

theorem slotResult (h : s.frame l t) {j code : Nat} (hl : [.sec] ⊆ l := by simp) : s.frame l (t.slotResult j code) := by
  refine h.lift hl fun h => ?_
  unfold State.slotResult
  exact h.update

theorem tryL (h : s.frame l t) {r1 : List Nat} (hl : [.regs, .sec] ⊆ l := by simp) : s.frame l (t.tryL r1) := by
  refine h.lift hl ?_
  clear h hl
  intro s h
  induction r1 generalizing t with
  | nil =>
    unfold State.tryL
    exact h.update.setFld
  | cons y ys ih =>
    unfold State.tryL
    extract_lets +onlyGivenNames code s1
    have h1 : frame _ _ s1 := h.slotResult
    split
    · exact h1.update.runImage
    · exact (ih h1)

theorem restoreRemaps (h : s.frame l t) {r1 : List (Nat × Nat × Nat)} (hl : [.tiles, .link, .pwr, .pcie, .log, .logNext, .out] ⊆ l := by
    simp) : s.frame l (t.restoreRemaps r1) := by
  refine h.lift hl ?_
  clear h hl
  intro s h
  induction r1 generalizing t with
  | nil => exact h
  | cons y ys ih =>
    unfold State.restoreRemaps
    exact (ih h.setTile.logEvent)

theorem countBoot (h : s.frame l t) {img : Nat → Nat → Byte} (hl : [.regs, .blks, .link, .pwr, .pcie, .log, .logNext, .out] ⊆ l := by simp)
    : s.frame l (t.countBoot img) := by
  refine h.lift hl fun h => ?_
  unfold State.countBoot
  extract_lets +onlyGivenNames hdrs stages
  exact h.foldl (fun h1 => h1.pageRead)

theorem boot (h : s.frame l t) (hl : [.regs, .blks, .tsets, .tiles, .link, .pwr, .pcie, .sec, .log, .logNext, .out] ⊆ l := by simp) :
    s.frame l t.boot := by
  refine h.lift hl fun h => ?_
  unfold State.boot
  extract_lets +onlyGivenNames s1
  have h1 : frame _ _ s1 := h.romMeasure
  extract_lets +onlyGivenNames s0
  have h2 : frame _ _ s0 := h1.tryL.countBoot
  extract_lets +onlyGivenNames s2
  have h3 : frame _ _ s2 := h2.restoreRemaps
  exact h3.update

/-! ### Resets (R440, R441) -/

theorem recordTrips (h : s.frame l t) {detail : Nat} {r2 : List CtxId} (hl : [.pwr] ⊆ l := by simp) : s.frame l (t.recordTrips detail r2) :=
    by
  refine h.lift hl ?_
  clear h hl
  intro s h
  induction r2 generalizing t detail with
  | nil => exact h
  | cons y ys ih =>
    unfold State.recordTrips
    extract_lets +onlyGivenNames old new trips
    exact (ih h.update)

theorem bootModels (h : s.frame l t) {is : List Nat} (hl : [.orphans, .models, .blks, .inst, .tsets] ⊆ l := by simp) :
    s.frame l (t.bootModels is) := by
  refine h.lift hl ?_
  clear h hl
  intro s h
  induction is generalizing t with
  | nil => exact h
  | cons i is ih =>
    unfold State.bootModels
    extract_lets s0 _ s1 f
    have h1 : frame _ _ s1 := h.unswitch.setModel
    exact ih (either (either h1.makeStale h1).makeStale (either h1.makeStale h1))

theorem wiped (h : s.frame l t) (hl : ofRails ⊆ l := by simp) : s.frame l t.wiped := by
  refine h.lift hl fun h => ?_
  unfold State.wiped
  extract_lets s'
  have h1 : frame _ _ s' := h.scramble.fpcReset.bootModels
  exact h1.update (h_ctxs := .inr ⟨by simp, fun _ => by simp [State.oneExact, State.ctx]⟩) (h_mem := .inr ⟨by simp, SMap.wf_keepKeys _ _ _⟩)

theorem sampleStraps (h : s.frame l t) {straps : BitVec 2} (hl : [.regs, .link, .time, .pwr] ⊆ l := by simp) : s.frame l (t.sampleStraps
    straps) := by
  refine h.lift hl fun h => ?_
  unfold State.sampleStraps
  extract_lets +onlyGivenNames r trained _ _ _ s1
  split
  · exact h.update.foldl (fun h2 => h2.setFld)
  · exact h.update

theorem restart (h : s.frame l t) {cause : Nat} {straps : BitVec 2} (hl : ofReset ⊆ l := by simp) : s.frame l (t.restart cause straps) := by
  refine h.lift hl fun h => ?_
  unfold State.restart
  exact h.wiped.setFld.sampleStraps.boot

theorem devReset (h : s.frame l t) {cause : Nat} {straps : BitVec 2} (hl : ofReset ⊆ l := by simp) : s.frame l (t.devReset cause straps) :=
    by
  refine h.lift hl fun h => ?_
  unfold State.devReset
  extract_lets +onlyGivenNames i ends s1
  have h1 : frame _ _ s1 := (either h.makeStale h)
  extract_lets +onlyGivenNames s2
  have h2 : frame _ _ s2 := h1.recordTrips.restart
  split
  · exact h2.update
  · exact h2

theorem coldBoot (h : s.frame l t) {straps : BitVec 2} (hl : ofReset ⊆ l := by simp) : s.frame l (t.coldBoot straps) := by
  refine h.lift hl fun h => ?_
  unfold State.coldBoot
  extract_lets +onlyGivenNames _ s1
  exact h.update.restart

/-! ### The commands -/

theorem devResetWrite (h : s.frame l t) {v : W64} {straps : BitVec 2} (hl : ofReset ⊆ l := by simp) : s.frame l (t.devResetWrite v straps)
    := by
  refine h.lift hl fun h => ?_
  unfold State.devResetWrite
  split
  · exact h.devReset
  · exact h

theorem execDevReset (h : s.frame l t) {v : W64} {straps : BitVec 2} (hl : ofReset ⊆ l := by simp) : s.frames l (execDevReset v straps t) :=
    by
  refine h.liftOutcome hl fun h => ?_
  unfold Machine.execDevReset
  exact h.devResetWrite.next

theorem execHotReset (h : s.frame l t) {straps : BitVec 2} (hl : ofReset ⊆ l := by simp) : s.frames l (execHotReset straps t) := by
  refine h.liftOutcome hl fun h => ?_
  unfold Machine.execHotReset
  exact (either h.devReset h).next

theorem watchdog (h : s.frame l t) {straps : BitVec 2} (hl : ofReset ⊆ l := by simp) : s.frame l (t.watchdog straps) := by
  refine h.lift hl fun h => ?_
  unfold State.watchdog
  extract_lets +onlyGivenNames x bump s1 w d
  exact h.update.takeFree.takeFree.logEvent.devReset

theorem execWatchdogExpiry (h : s.frame l t) {straps : BitVec 2} (hl : ofReset ⊆ l := by simp) : s.frames l (execWatchdogExpiry straps t) :=
    by
  refine h.liftOutcome hl fun h => ?_
  unfold Machine.execWatchdogExpiry
  exact (either h.watchdog h).next

theorem execBootOkTimer (h : s.frame l t) (hl : [.sec] ⊆ l := by simp) : s.frames l (execBootOkTimer t) := by
  refine h.liftOutcome hl fun h => ?_
  unfold Machine.execBootOkTimer
  exact (either h.update (either h.update h)).next

theorem noteRecovImage (h : s.frame l t) {code : Nat} (hl : [.regs, .link, .pwr, .pcie, .log, .logNext, .out] ⊆ l := by simp) : s.frame l
    (t.noteRecovImage code) := by
  refine h.lift hl fun h => ?_
  unfold State.noteRecovImage
  extract_lets +onlyGivenNames r
  exact h.foldl (fun h1 => h1.noteRecov)

theorem recovery (h : s.frame l t) (hl : [.regs, .link, .pwr, .pcie, .sec, .log, .logNext, .out] ⊆ l := by simp) : s.frame l t.recovery :=
    by
  refine h.lift hl fun h => ?_
  unfold State.recovery
  split
  · exact h
  · extract_lets +onlyGivenNames code s0
    have h1 : frame _ _ s0 := h.noteRecovImage
    extract_lets +onlyGivenNames _ s1
    split
    · exact h1.update.extend.runImage
    · exact h1.update.extend

theorem execRecoveryVerify (h : s.frame l t) (hl : [.regs, .link, .pwr, .pcie, .sec, .log, .logNext, .out] ⊆ l := by simp) : s.frames l
    (execRecoveryVerify t) := by
  refine h.liftOutcome hl fun h => ?_
  unfold Machine.execRecoveryVerify
  exact h.recovery.next

/-! ### The check-value units of a context (R381 to R383) and the latching of an error-log entry (R390, R391) -/

theorem setCrc (h : s.frame l t) {c : CtxId} {u2 : Fin 4} {x : CrcUnit} (hl : [.ctxs] ⊆ l := by simp) : s.frame l (t.setCrc c u2 x) := by
  refine h.lift hl fun h => ?_
  unfold State.setCrc
  exact h.updCtx

theorem crcWrite (h : s.frame l t) {c : CtxId} {u2 : Fin 4} {reg : Nat} {v : W64} (hl : [.ctxs] ⊆ l := by simp) : s.frame l (t.crcWrite c u2
    reg v) := by
  refine h.lift hl fun h => ?_
  unfold State.crcWrite
  exact h.setCrc

theorem execCrcConfigWrite (h : s.frame l t) {c : CtxId} {u2 : Fin 4} {v : W64} (hl : [.ctxs] ⊆ l := by simp) : s.frames l
    (execCrcConfigWrite c u2 v t) := by
  refine h.liftOutcome hl fun h => ?_
  unfold Machine.execCrcConfigWrite
  exact h.crcWrite.next

theorem execCrcFeed (h : s.frame l t) {c : CtxId} {u2 : Fin 4} {v : W64} (hl : [.ctxs] ⊆ l := by simp) : s.frames l (execCrcFeed c u2 v t)
    := by
  refine h.liftOutcome hl fun h => ?_
  unfold Machine.execCrcFeed
  exact h.crcWrite.next

theorem execCrcAdvance (h : s.frame l t) {c : CtxId} {u2 : Fin 4} {v : W64} (hl : [.ctxs] ⊆ l := by simp) : s.frames l (execCrcAdvance c u2
    v t) := by
  refine h.liftOutcome hl fun h => ?_
  unfold Machine.execCrcAdvance
  exact h.crcWrite.next

theorem execCrcAdvanceDone (h : s.frame l t) {c : CtxId} {u2 : Fin 4} (hl : [.ctxs] ⊆ l := by simp) : s.frames l (execCrcAdvanceDone c u2 t)
    := by
  refine h.liftOutcome hl fun h => ?_
  unfold Machine.execCrcAdvanceDone
  exact h.setCrc.next

theorem setRegs (h : s.frame l t) {off : Nat} {r2 : List W64} (hl : [.regs] ⊆ l := by simp) : s.frame l (t.setRegs off r2) := by
  refine h.lift hl ?_
  clear h hl
  intro s h
  induction r2 generalizing t off with
  | nil => exact h
  | cons y ys ih =>
    unfold State.setRegs
    exact (ih h.setReg)

theorem logSelect (h : s.frame l t) {v : W64} (hl : [.regs] ⊆ l := by simp) : s.frame l (t.logSelect v) := by
  refine h.lift hl fun h => ?_
  unfold State.logSelect
  extract_lets +onlyGivenNames q ws
  exact h.setReg.setRegs

theorem execLogSelect (h : s.frame l t) {v : W64} (hl : [.regs] ⊆ l := by simp) : s.frames l (execLogSelect v t) := by
  refine h.liftOutcome hl fun h => ?_
  unfold Machine.execLogSelect
  exact h.logSelect.next

/-! ### The expanders (chapter 6): one block decoded as it arrives -/

theorem decodeBlock (h : s.frame l t) {c : CtxId} {slot : Nat} (hl : [.regs, .armings, .link, .pwr, .pcie, .log, .logNext, .out] ⊆ l := by
    simp) : s.frame l (t.decodeBlock c slot) := by
  refine h.lift hl fun h => ?_
  unfold State.decodeBlock
  split
  · exact h
  · split
    · exact h
    · extract_lets +onlyGivenNames r
      exact h.decodeNext.setArming

theorem execBlockDecode (h : s.frame l t) {c : CtxId} {slot : Nat} (hl : [.regs, .armings, .link, .pwr, .pcie, .log, .logNext, .out] ⊆ l :=
    by simp) : s.frames l (execBlockDecode c slot t) := by
  refine h.liftOutcome hl fun h => ?_
  unfold Machine.execBlockDecode
  exact (h.orStall (fun h1 => h1.touch.decodeBlock)).next

/-! ### The PCI Express link goes (R438) -/

theorem returnL (h : s.frame l t) {r1 : List CtxId} (hl : [.freeCtr, .regs, .ctxs, .running, .mem, .hostMem, .deposits, .poison, .bch,
    .objs, .orphans, .mig, .migWait, .models, .blks, .armings, .tsets, .link, .pwr, .pcie, .sec, .out] ⊆ l := by simp) : s.frame l (t.returnL
    r1) := by
  refine h.lift hl ?_
  clear h hl
  intro s h
  induction r1 generalizing t with
  | nil => exact h
  | cons y ys ih =>
    unfold State.returnL
    exact (ih (either h.ctxReturn h))

theorem vfClear (h : s.frame l t) (hl : [.freeCtr, .regs, .ctxs, .running, .mem, .hostMem, .deposits, .poison, .bch, .objs, .orphans, .mig,
    .migWait, .models, .blks, .armings, .tsets, .link, .pwr, .pcie, .sec, .out] ⊆ l := by simp) : s.frame l t.vfClear := by
  refine h.lift hl fun h => ?_
  unfold State.vfClear
  extract_lets +onlyGivenNames s1
  have h1 : frame _ _ s1 := h.returnL
  exact h1.update

theorem endpointReset (h : s.frame l t) (hl : [.freeCtr, .regs, .ctxs, .running, .mem, .hostMem, .deposits, .poison, .bch, .objs, .orphans,
    .mig, .migWait, .models, .blks, .armings, .tsets, .link, .pwr, .pcie, .sec, .out] ⊆ l := by simp) : s.frame l t.endpointReset := by
  refine h.lift hl fun h => ?_
  unfold State.endpointReset
  extract_lets +onlyGivenNames s1
  have h1 : frame _ _ s1 := h.vfClear.foldl (fun h1 => h1.fnReset)
  exact h1.update

theorem linkLost (h : s.frame l t) (hl : [.freeCtr, .regs, .ctxs, .running, .mem, .hostMem, .deposits, .poison, .bch, .objs, .orphans, .mig,
    .migWait, .models, .blks, .armings, .tsets, .link, .pwr, .pcie, .aptWait, .sec, .out] ⊆ l := by simp) : s.frame l t.linkLost := by
  refine h.lift hl fun h => ?_
  unfold State.linkLost
  split
  · exact h
  · extract_lets +onlyGivenNames _ s0
    have h1 : frame _ _ s0 := h.update.failMigs
    extract_lets +onlyGivenNames s1
    have h2 : frame _ _ s1 := h1.endpointReset.addFld
    exact h2.update

theorem execLinkDown (h : s.frame l t) (hl : [.freeCtr, .regs, .ctxs, .running, .mem, .hostMem, .deposits, .poison, .bch, .objs, .orphans,
    .mig, .migWait, .models, .blks, .armings, .tsets, .link, .pwr, .pcie, .aptWait, .sec, .out] ⊆ l := by simp) : s.frames l (execLinkDown t)
    := by
  refine h.liftOutcome hl fun h => ?_
  unfold Machine.execLinkDown
  exact h.linkLost.next

/-! ### NST banks and DST without power (R251, R399, R407) -/

theorem poisonBank (h : s.frame l t) {b : Nat} (hl : [.poison, .bch, .pwr] ⊆ l := by simp) : s.frame l (t.poisonBank b) := by
  refine h.lift hl fun h => ?_
  unfold State.poisonBank
  extract_lets +onlyGivenNames s1
  have h1 : frame _ _ s1 := h.poisonWords
  exact h1.update

theorem poisonT1 (h : s.frame l t) (hl : [.poison, .bch] ⊆ l := by simp) : s.frame l t.poisonT1 := by
  refine h.lift hl fun h => ?_
  unfold State.poisonT1
  exact h.poisonWords

theorem dropCopies (h : s.frame l t) {t2 : Nat} (hl : [.objs] ⊆ l := by simp) : s.frame l (t.dropCopies t2) := by
  refine h.lift hl fun h => ?_
  unfold State.dropCopies
  exact h.update

theorem dropNst (h : s.frame l t) (hl : [.poison, .bch, .objs, .armings, .pwr] ⊆ l := by simp) : s.frame l t.dropNst := by
  refine h.lift hl fun h => ?_
  unfold State.dropNst
  extract_lets +onlyGivenNames lost
  split
  · exact h
  · extract_lets +onlyGivenNames s1
    have h1 : frame _ _ s1 := h.dropCopies.foldl (fun h1 => h1.poisonBank)
    exact h1.update

/-! ### Write-back at entry (R251, R405 step 4) -/

theorem writeBackOne (h : s.frame l t) {i t2 : Nat} (hl : [.regs, .mem, .hostMem, .poison, .bch, .objs, .blks, .link, .pwr, .pcie, .log,
    .logNext, .out] ⊆ l := by simp) : s.frame l (t.writeBackOne i t2) := by
  refine h.lift hl fun h => ?_
  unfold State.writeBackOne
  extract_lets +onlyGivenNames o m
  split
  next => exact h
  next s1 hs1 => exact (h.writeHome hs1).setObj

theorem writeBackL (h : s.frame l t) {dst : Bool} {r2 : List Nat} (hl : [.regs, .mem, .hostMem, .poison, .bch, .objs, .blks, .link, .pwr,
    .pcie, .log, .logNext, .out] ⊆ l := by simp) : s.frame l (t.writeBackL dst r2) := by
  refine h.lift hl ?_
  clear h hl
  intro s h
  induction r2 generalizing t dst with
  | nil => exact h
  | cons y ys ih =>
    unfold State.writeBackL
    exact (ih (by split; exacts [h.writeBackOne, h]))

theorem writeBackAll (h : s.frame l t) {target : PwrMode} (hl : [.regs, .mem, .hostMem, .poison, .bch, .objs, .blks, .link, .pwr, .pcie,
    .log, .logNext, .out] ⊆ l := by simp) : s.frame l (t.writeBackAll target) := by
  refine h.lift hl fun h => ?_
  unfold State.writeBackAll
  exact (h.tryOnce (fun h => h.writeBackL)).setPwr

/-! ### P-states (R396, R413) -/

theorem updPwr (h : s.frame l t) {f : Pwr → Pwr} (hl : [.pwr] ⊆ l := by simp) : s.frame l (t.updPwr f) := by
  refine h.lift hl fun h => ?_
  unfold State.updPwr
  exact h.update

theorem pwrRefuse (h : s.frame l t) {code : Nat} (hl : [.pwr] ⊆ l := by simp) : s.frame l (t.pwrRefuse code) := by
  refine h.lift hl fun h => ?_
  unfold State.pwrRefuse
  exact h.updPwr

theorem askVolt (h : s.frame l t) {p : Nat} {raising : Bool} (hl : [.pwr, .out] ⊆ l := by simp) : s.frame l (t.askVolt p raising) := by
  refine h.lift hl fun h => ?_
  unfold State.askVolt
  exact h.updPwr.emit

theorem startExit (h : s.frame l t) {source : Nat} (hl : [.pwr, .out] ⊆ l := by simp) : s.frame l (t.startExit source) := by
  refine h.lift hl fun h => ?_
  unfold State.startExit
  extract_lets +onlyGivenNames s1
  split
  · exact h.updPwr.askVolt
  · exact h.updPwr

theorem pstateStart (h : s.frame l t) {n : Nat} (hl : [.pwr, .out] ⊆ l := by simp) : s.frame l (t.pstateStart n) := by
  refine h.lift hl fun h => ?_
  unfold State.pstateStart
  split
  · exact h
  · split
    · exact h.askVolt
    · exact h.updPwr

theorem toPState (h : s.frame l t) {n : Nat} (hl : [.regs, .pwr, .out] ⊆ l := by simp) : s.frame l (t.toPState n) := by
  refine h.lift hl fun h => ?_
  unfold State.toPState
  split
  · exact h.entryEvent
  · split
    · exact h.pwrRefuse
    · split
      · exact h.pstateStart
      · exact h.updPwr.startExit
      · exact h.updPwr.startExit
      · exact h

theorem execPstateChange (h : s.frame l t) {n : Fin 4} (hl : [.regs, .pwr, .out] ⊆ l := by simp) : s.frames l (execPstateChange n t) := by
  refine h.liftOutcome hl fun h => ?_
  unfold Machine.execPstateChange
  exact h.toPState.next

theorem aclkStep (h : s.frame l t) (hl : [.pwr, .out] ⊆ l := by simp) : s.frame l t.aclkStep := by
  refine h.lift hl fun h => ?_
  unfold State.aclkStep
  split
  · split
    · exact h
    · extract_lets +onlyGivenNames a s1
      split
      · exact h.updPwr
      · extract_lets +onlyGivenNames s2
        split
        · exact h.updPwr.updPwr
        · exact h.updPwr.updPwr.askVolt
  · exact h

theorem execAclkStep (h : s.frame l t) (hl : [.pwr, .out] ⊆ l := by simp) : s.frames l (execAclkStep t) := by
  refine h.liftOutcome hl fun h => ?_
  unfold Machine.execAclkStep
  exact h.aclkStep.next

theorem voltConfirm (h : s.frame l t) (hl : [.pwr] ⊆ l := by simp) : s.frame l t.voltConfirm := by
  refine h.lift hl fun h => ?_
  unfold State.voltConfirm
  split
  · split
    · exact h
    · extract_lets +onlyGivenNames goesOn
      exact h.updPwr
  · exact h

theorem execAvsVoltageConfirm (h : s.frame l t) (hl : [.pwr] ⊆ l := by simp) : s.frames l (execAvsVoltageConfirm t) := by
  refine h.liftOutcome hl fun h => ?_
  unfold Machine.execAvsVoltageConfirm
  exact h.voltConfirm.next

theorem pwrAlert (h : s.frame l t) (hl : [.link, .pwr, .pcie, .out] ⊆ l := by simp) : s.frame l t.pwrAlert := by
  refine h.lift hl fun h => ?_
  unfold State.pwrAlert
  split
  · exact h.sendMsix
  · exact h

theorem voltTimeout (h : s.frame l t) (hl : [.link, .pwr, .pcie, .out] ⊆ l := by simp) : s.frame l t.voltTimeout := by
  refine h.lift hl fun h => ?_
  unfold State.voltTimeout
  split
  · split
    · exact h
    · exact h.updPwr.pwrAlert
  · exact h

theorem execAvsTimeout (h : s.frame l t) (hl : [.link, .pwr, .pcie, .out] ⊆ l := by simp) : s.frames l (execAvsTimeout t) := by
  refine h.liftOutcome hl fun h => ?_
  unfold Machine.execAvsTimeout
  exact h.voltTimeout.next

/-! ### Entry (R404 to R406) -/

theorem enter (h : s.frame l t) {target : PwrMode} {wake : Nat} (hl : [.pwr] ⊆ l := by simp) : s.frame l (t.enter target wake) := by
  refine h.lift hl fun h => ?_
  unfold State.enter
  split
  · exact h
  · split
    · exact h.pwrRefuse
    · split
      · exact h.pwrRefuse
      · split
        · exact h.pwrRefuse
        · exact h.updPwr

theorem execEnterIdle (h : s.frame l t) {wake : Fin 4} (hl : [.pwr] ⊆ l := by simp) : s.frames l (execEnterIdle wake t) := by
  refine h.liftOutcome hl fun h => ?_
  unfold Machine.execEnterIdle
  exact h.enter.next

theorem execEnterDoze (h : s.frame l t) {wake : Fin 4} (hl : [.pwr] ⊆ l := by simp) : s.frames l (execEnterDoze wake t) := by
  refine h.liftOutcome hl fun h => ?_
  unfold Machine.execEnterDoze
  exact h.enter.next

theorem execEnterPark (h : s.frame l t) {wake : Fin 4} (hl : [.pwr] ⊆ l := by simp) : s.frames l (execEnterPark wake t) := by
  refine h.liftOutcome hl fun h => ?_
  unfold Machine.execEnterPark
  exact h.enter.next

theorem execEnterOff (h : s.frame l t) {wake : Fin 4} (hl : [.pwr] ⊆ l := by simp) : s.frames l (execEnterOff wake t) := by
  refine h.liftOutcome hl fun h => ?_
  unfold Machine.execEnterOff
  exact h.enter.next

theorem stateCmd (h : s.frame l t) {v : W64} (hl : [.regs, .pwr, .out] ⊆ l := by simp) : s.frame l (t.stateCmd v) := by
  refine h.lift hl fun h => ?_
  unfold State.stateCmd
  extract_lets +onlyGivenNames w
  split
  · exact h.enter
  · exact h.enter
  · exact h.enter
  · exact h.enter
  · exact h.toPState

theorem suspendErases (h : s.frame l t) (hl : [.regs, .fpc, .link, .pwr, .pcie, .log, .logNext, .out] ⊆ l := by simp) : s.frame l
    t.suspendErases := by
  refine h.lift hl fun h => ?_
  unfold State.suspendErases
  exact h.foldl (fun h1 => (either h1.suspend h1))

theorem resumeErases (h : s.frame l t) (hl : [.fpc] ⊆ l := by simp) : s.frame l t.resumeErases := by
  refine h.lift hl fun h => ?_
  unfold State.resumeErases
  exact h.foldl (fun h1 => (either h1.resumeOp h1))

theorem portsOff (h : s.frame l t) (hl : [.regs, .ctxs, .running, .mem, .hostMem, .deposits, .poison, .bch, .objs, .orphans, .mig, .bankMgc,
    .models, .blks, .fpc, .inst, .armings, .tsets, .link, .time, .pwr, .pcie, .aptWait, .sec, .log, .logNext, .out] ⊆ l := by simp) : s.frame
    l t.portsOff := by
  refine h.lift hl fun h => ?_
  unfold State.portsOff
  exact h.foldl (fun h1 => (either h1 h1.tear))

theorem portsTrain (h : s.frame l t) (hl : [.link] ⊆ l := by simp) : s.frame l t.portsTrain := by
  refine h.lift hl fun h => ?_
  unfold State.portsTrain
  exact h.foldl (fun h1 => (either h1 h1.wakePort))

theorem stepBegin (h : s.frame l t) {target : PwrMode} {j : Nat} (hl : [.regs, .ctxs, .running, .mem, .hostMem, .deposits, .poison, .bch,
    .objs, .orphans, .mig, .bankMgc, .models, .blks, .fpc, .inst, .armings, .tsets, .link, .time, .pwr, .pcie, .aptWait, .sec, .log, .logNext,
    .out] ⊆ l := by simp) : s.frame l (t.stepBegin target j) := by
  refine h.lift hl fun h => ?_
  unfold State.stepBegin
  split
  · exact h.recordPtrs.suspendErases
  · exact h.writeBackAll
  · exact h.portsOff
  · exact h.updPwr
  · split
    · exact h.askVolt
    · exact h
  · exact h

theorem holdPads (h : s.frame l t) (hl : [.time, .pwr] ⊆ l := by simp) : s.frame l t.holdPads := by
  refine h.lift hl fun h => ?_
  unfold State.holdPads
  split
  · exact h.update
  · exact h

theorem dropStreams (h : s.frame l t) (hl : [.ctxs, .armings] ⊆ l := by simp) : s.frame l t.dropStreams := by
  refine h.lift hl fun h => ?_
  unfold State.dropStreams
  refine h.update (h_ctxs := .inr ⟨by simp, fun ho => ?_⟩)
  simpa [State.oneExact, State.ctx] using ho

theorem parkRailsOff (h : s.frame l t) (hl : [.pwr, .out] ⊆ l := by simp) : s.frame l t.parkRailsOff := by
  refine h.lift hl fun h => ?_
  unfold State.parkRailsOff
  exact (h.foldl (fun h1 => h1.emit)).updPwr

theorem dropStaging (h : s.frame l t) (hl : [.mem, .poison, .bch] ⊆ l := by simp) : s.frame l t.dropStaging := by
  refine h.lift hl fun h => ?_
  unfold State.dropStaging
  exact h.zeroFrom

theorem leaveSystem (h : s.frame l t) (hl : [.link, .pwr, .out] ⊆ l := by simp) : s.frame l t.leaveSystem := by
  refine h.lift hl fun h => ?_
  unfold State.leaveSystem
  split
  · exact h.unnumber
  · exact h

theorem stepSeven (h : s.frame l t) {target : PwrMode} (hl : [.ctxs, .mem, .poison, .bch, .objs, .pmap, .blks, .fpc, .sectors, .armings,
    .tiles, .link, .time, .pwr, .out] ⊆ l := by simp) : s.frame l (t.stepSeven target) := by
  refine h.lift hl fun h => ?_
  unfold State.stepSeven
  split
  · exact h.dropNst
  · extract_lets +onlyGivenNames s1
    have h1 : frame _ _ s1 := (either h.dropNst h.dropNst.dropCopies.poisonT1)
    exact h1.fpcReset.dropStaging.dropStreams.leaveSystem.holdPads.parkRailsOff
  · exact h.holdPads
  · exact h

theorem railsGone (h : s.frame l t) {mode : PwrMode} (hl : ofRails ⊆ l := by simp) : s.frame l (t.railsGone mode) := by
  refine h.lift hl fun h => ?_
  unfold State.railsGone
  exact h.wiped.setReg.setPwr

theorem startBoot (h : s.frame l t) {cause : Nat} (hl : [.regs, .pwr] ⊆ l := by simp) : s.frame l (t.startBoot cause) := by
  refine h.lift hl fun h => ?_
  unfold State.startBoot
  exact h.setFld.updPwr

theorem wakeOff (h : s.frame l t) {source : Nat} (hl : [.regs, .pwr] ⊆ l := by simp) : s.frame l (t.wakeOff source) := by
  refine h.lift hl fun h => ?_
  unfold State.wakeOff
  extract_lets +onlyGivenNames s1 hot
  split
  · exact (either h.updPwr h).updPwr
  · exact (either h.updPwr h).setFld.startBoot

theorem entryEnd (h : s.frame l t) {e : EntrySeq} (hl : ofRails ⊆ l := by simp) : s.frame l (t.entryEnd e) := by
  refine h.lift hl fun h => ?_
  unfold State.entryEnd
  extract_lets +onlyGivenNames s1
  have h1 : frame _ _ s1 := h.updPwr
  exact either (h1.railsGone.elim fun _ => h1.railsGone.wakeOff) (h1.elim fun _ => h1.startExit)

theorem abandon (h : s.frame l t) {e : EntrySeq} {pstate : Option Nat} (hl : [.regs, .fpc, .link, .pwr, .out] ⊆ l := by simp) : s.frame l
    (t.abandon e pstate) := by
  refine h.lift hl fun h => ?_
  unfold State.abandon
  extract_lets +onlyGivenNames s1 taken s2 s3
  have h1 : frame _ _ s1 := h.updPwr.addFld
  have h2 : frame _ _ s2 := either h1.portsTrain h1
  have h3 : frame _ _ s3 := either h2.resumeErases h2
  exact h3.elim fun _ => h3.toPState

theorem stepEnd (h : s.frame l t) {e : EntrySeq} (hl : ofReset ⊆ l := by simp) : s.frame l (t.stepEnd e) := by
  refine h.lift hl fun h => ?_
  unfold State.stepEnd
  split
  · exact h.abandon
  · extract_lets s1
    have h1 : frame _ _ s1 := either h.stepSeven h
    clear_value s1
    split
    · exact h1.entryEnd
    · exact h1.updPwr.stepBegin

theorem execEntryStepDone (h : s.frame l t) (hl : ofReset ⊆ l := by simp) : s.frames l (execEntryStepDone t) := by
  refine h.liftOutcome hl fun h => ?_
  unfold Machine.execEntryStepDone
  exact next (by split; exacts [h, (either h.stepEnd (either h.writeBackAll h))])

theorem pmeToAck (h : s.frame l t) (hl : ofReset ⊆ l := by simp) : s.frame l t.pmeToAck := by
  refine h.lift hl fun h => ?_
  unfold State.pmeToAck
  split
  · split
    · exact h.update.stepEnd
    · exact h
  · exact h

theorem execPmeToAck (h : s.frame l t) (hl : ofReset ⊆ l := by simp) : s.frames l (execPmeToAck t) := by
  refine h.liftOutcome hl fun h => ?_
  unfold Machine.execPmeToAck
  exact h.pmeToAck.next

theorem pmeTimeout (h : s.frame l t) (hl : [.regs, .fpc, .link, .pwr, .out] ⊆ l := by simp) : s.frame l t.pmeTimeout := by
  refine h.lift hl fun h => ?_
  unfold State.pmeTimeout
  split
  · split
    · exact h.updPwr.abandon
    · exact h
  · exact h

theorem execPmeTurnOffTimeout (h : s.frame l t) (hl : [.regs, .fpc, .link, .pwr, .out] ⊆ l := by simp) : s.frames l (execPmeTurnOffTimeout
    t) := by
  refine h.liftOutcome hl fun h => ?_
  unfold Machine.execPmeTurnOffTimeout
  exact h.pmeTimeout.next

/-! ### Waking (R403, R408 to R411) -/

theorem wakeEvent (h : s.frame l t) {source port : Nat} (hl : [.regs, .pwr, .out] ⊆ l := by simp) : s.frame l (t.wakeEvent source port) :=
    by
  refine h.lift hl fun h => ?_
  unfold State.wakeEvent
  split
  · exact h.entryEvent
  · split
    · split
      · exact h.noteWake
      · exact h
    · split
      · exact h.noteWake.startExit
      · exact h.noteWake.startExit
      · exact h.noteWake.startExit
      · split
        · exact h.setFld.updPwr
        · exact h.noteWake.wakeOff
      · exact h

theorem rtcAlarm (h : s.frame l t) (hl : [.regs, .pwr, .out] ⊆ l := by simp) : s.frame l t.rtcAlarm := by
  refine h.lift hl fun h => ?_
  unfold State.rtcAlarm
  extract_lets +onlyGivenNames now sec
  split
  · exact h
  · extract_lets +onlyGivenNames s0 s1
    split
    · exact (either h.setFld.setFld h).setFld.wakeEvent
    · exact (either h.setFld.setFld h).setFld

theorem execRtcAlarm (h : s.frame l t) (hl : [.regs, .pwr, .out] ⊆ l := by simp) : s.frames l (execRtcAlarm t) := by
  refine h.liftOutcome hl fun h => ?_
  unfold Machine.execRtcAlarm
  exact h.rtcAlarm.next

theorem hostWakes (h : s.frame l t) (hl : [.regs, .link, .pwr, .out] ⊆ l := by simp) : s.frame l t.hostWakes := by
  refine h.lift hl fun h => ?_
  unfold State.hostWakes
  extract_lets +onlyGivenNames s'
  split
  · exact h.wakeDom.wakeEvent
  · exact h.wakeDom

theorem execCometPatternDetect (h : s.frame l t) {p : PortId} (hl : [.regs, .pwr, .out] ⊆ l := by simp) : s.frames l (execCometPatternDetect
    p t) := by
  refine h.liftOutcome hl fun h => ?_
  unfold Machine.execCometPatternDetect
  exact (either h.wakeEvent h).next

theorem execTrelboWakeActivity (h : s.frame l t) {p : PortId} (hl : [.regs, .pwr, .out] ⊆ l := by simp) : s.frames l (execTrelboWakeActivity
    p t) := by
  refine h.liftOutcome hl fun h => ?_
  unfold Machine.execTrelboWakeActivity
  exact (either h (either (either h h.wakeEvent) (either h.wakeEvent h))).next

theorem wakeDone (h : s.frame l t) (hl : [.fpc, .link, .pwr, .out] ⊆ l := by simp) : s.frame l t.wakeDone := by
  refine h.lift hl fun h => ?_
  unfold State.wakeDone
  split
  · exact h
  · extract_lets +onlyGivenNames s1 s2
    exact (either (either h.updPwr.askVolt h.updPwr).portsTrain (either h.updPwr.askVolt h.updPwr)).resumeErases

theorem execWakeComplete (h : s.frame l t) (hl : [.fpc, .link, .pwr, .out] ⊆ l := by simp) : s.frames l (execWakeComplete t) := by
  refine h.liftOutcome hl fun h => ?_
  unfold Machine.execWakeComplete
  exact h.wakeDone.next

/-! ### Clock domains (R398 to R401) -/

theorem domDark (h : s.frame l t) {d : Nat} (hl : [.freeCtr, .regs, .ctxs, .running, .mem, .hostMem, .deposits, .poison, .bch, .objs,
    .orphans, .mig, .migWait, .bankMgc, .models, .blks, .fpc, .inst, .armings, .tsets, .link, .time, .pwr, .pcie, .aptWait, .sec, .log,
    .logNext, .out] ⊆ l := by simp) : s.frame l (t.domDark d) := by
  refine h.lift hl fun h => ?_
  unfold State.domDark
  split
  · exact h.tear
  · split
    · exact h.linkLost
    · exact h

theorem domGate (h : s.frame l t) {d : Nat} (hl : [.freeCtr, .regs, .ctxs, .running, .mem, .hostMem, .deposits, .poison, .bch, .objs,
    .orphans, .mig, .migWait, .bankMgc, .models, .blks, .fpc, .inst, .armings, .tsets, .link, .time, .pwr, .pcie, .aptWait, .sec, .log,
    .logNext, .out] ⊆ l := by simp) : s.frame l (t.domGate d) := by
  refine h.lift hl fun h => ?_
  unfold State.domGate
  split
  · split
    · exact h
    · exact h
    · exact h.setDom.domDark
    · exact h.setDom
  · exact h

theorem domClockGate (h : s.frame l t) {d : Nat} (hl : [.pwr] ⊆ l := by simp) : s.frame l (t.domClockGate d) := by
  refine h.lift hl fun h => ?_
  unfold State.domClockGate
  split
  · exact h.setDom
  · exact h

theorem domUp (h : s.frame l t) {d : Nat} (hl : [.link, .pwr] ⊆ l := by simp) : s.frame l (t.domUp d) := by
  refine h.lift hl fun h => ?_
  unfold State.domUp
  split
  · exact h.wakeDom
  · exact h

theorem domCmd (h : s.frame l t) {v : W64} (hl : [.freeCtr, .regs, .ctxs, .running, .mem, .hostMem, .deposits, .poison, .bch, .objs,
    .orphans, .mig, .migWait, .bankMgc, .models, .blks, .fpc, .inst, .armings, .tsets, .link, .time, .pwr, .pcie, .aptWait, .sec, .log,
    .logNext, .out] ⊆ l := by simp) : s.frame l (t.domCmd v) := by
  refine h.lift hl fun h => ?_
  unfold State.domCmd
  extract_lets +onlyGivenNames d
  split
  · exact h.domGate
  · exact h.domUp
  · exact h.domClockGate
  · exact h

theorem execDomainPowerGate (h : s.frame l t) {d : BitVec 7} (hl : [.freeCtr, .regs, .ctxs, .running, .mem, .hostMem, .deposits, .poison,
    .bch, .objs, .orphans, .mig, .migWait, .bankMgc, .models, .blks, .fpc, .inst, .armings, .tsets, .link, .time, .pwr, .pcie, .aptWait, .sec,
    .log, .logNext, .out] ⊆ l := by simp) : s.frames l (execDomainPowerGate d t) := by
  refine h.liftOutcome hl fun h => ?_
  unfold Machine.execDomainPowerGate
  exact h.domGate.next

theorem execDomainPowerUp (h : s.frame l t) {d : BitVec 7} (hl : [.link, .pwr] ⊆ l := by simp) : s.frames l (execDomainPowerUp d t) := by
  refine h.liftOutcome hl fun h => ?_
  unfold Machine.execDomainPowerUp
  exact h.domUp.next

theorem execDomainClockGate (h : s.frame l t) {d : BitVec 7} (hl : [.pwr] ⊆ l := by simp) : s.frames l (execDomainClockGate d t) := by
  refine h.liftOutcome hl fun h => ?_
  unfold Machine.execDomainClockGate
  exact h.domClockGate.next

theorem shutStep (h : s.frame l t) {d : Nat} (hl : [.freeCtr, .regs, .ctxs, .running, .mem, .hostMem, .deposits, .poison, .bch, .objs,
    .orphans, .mig, .migWait, .bankMgc, .models, .blks, .fpc, .inst, .armings, .tsets, .link, .time, .pwr, .pcie, .aptWait, .sec, .log,
    .logNext, .out] ⊆ l := by simp) : s.frame l (t.shutStep d) := by
  refine h.lift hl fun h => ?_
  unfold State.shutStep
  split
  · split
    · exact h
    · split
      · exact h.setDom
      · split
        · exact h.setDom.domDark
        · exact h.setDom
  · exact h

theorem rtcTick (h : s.frame l t) (hl : [.regs, .pwr] ⊆ l := by simp) : s.frame l t.rtcTick := by
  refine h.lift hl fun h => ?_
  unfold State.rtcTick
  extract_lets +onlyGivenNames n now s1
  split
  · exact h.updPwr
  · exact h.updPwr.setFld.setFld

/-! ### Pads (R412) -/

theorem padRelease (h : s.frame l t) {v : W64} (hl : [.regs, .pwr] ⊆ l := by simp) : s.frame l (t.padRelease v) := by
  refine h.lift hl fun h => ?_
  unfold State.padRelease
  split
  · exact h.updPwr.foldl (fun h1 => h1.setReg)
  · exact h

theorem execPadHoldRelease (h : s.frame l t) {v : W64} (hl : [.regs, .pwr] ⊆ l := by simp) : s.frames l (execPadHoldRelease v t) := by
  refine h.liftOutcome hl fun h => ?_
  unfold Machine.execPadHoldRelease
  exact h.padRelease.next

/-! ### Thermal alert and trip (R415 to R418) -/

theorem trip (h : s.frame l t) {sensor : Nat} {temp : Int} (hl : ofRails ⊆ l := by simp) : s.frame l (t.trip sensor temp) := by
  refine h.lift hl fun h => ?_
  unfold State.trip
  extract_lets +onlyGivenNames s1 s2 s3
  have h3 : frame _ _ s3 := h.addFld.setFld.setFld.recordTrips.holdPads.railsGone.updPwr
  exact h3.updPwr

theorem thermal (h : s.frame l t) {temps : List Int} (hl : ofRails ⊆ l := by simp) : s.frame l (t.thermal temps) := by
  refine h.lift hl fun h => ?_
  unfold State.thermal
  extract_lets l' s1 s2
  have h2 : frame _ _ s2 := either h.updPwr.pwrAlert h.updPwr
  clear_value s2
  split
  · exact h2.trip
  · exact h2

theorem execThermalSample (h : s.frame l t) {temps : List Int} (hl : ofRails ⊆ l := by simp) : s.frames l (execThermalSample temps t) := by
  refine h.liftOutcome hl fun h => ?_
  unfold Machine.execThermalSample
  exact (either h h.thermal).next

theorem offThermal (h : s.frame l t) {temp : Int} (hl : [.regs, .pwr] ⊆ l := by simp) : s.frame l (t.offThermal temp) := by
  refine h.lift hl fun h => ?_
  unfold State.offThermal
  split
  · extract_lets +onlyGivenNames s1
    split
    · exact h.updPwr.setFld.startBoot
    · exact h.updPwr
  · exact h

theorem execOffThermalSample (h : s.frame l t) {temp : Int} (hl : [.regs, .pwr] ⊆ l := by simp) : s.frames l (execOffThermalSample temp t)
    := by
  refine h.liftOutcome hl fun h => ?_
  unfold Machine.execOffThermalSample
  exact h.offThermal.next

/-! ### Regulators and rails (R414, R474 to R476, R488) -/

theorem pollRail (h : s.frame l t) {i : Nat} {r : Option (Nat × Nat × Nat × Bool)} (hl : [.pwr] ⊆ l := by simp) : s.frame l (t.pollRail i r)
    := by
  refine h.lift hl fun h => ?_
  unfold State.pollRail
  split
  · extract_lets +onlyGivenNames rail
    exact h.updPwr
  · extract_lets +onlyGivenNames rail
    exact h.updPwr

theorem railPoll (h : s.frame l t) {xs : List (Option (Nat × Nat × Nat × Bool))} (hl : [.pwr] ⊆ l := by simp) : s.frame l (t.railPoll xs) :=
    by
  refine h.lift hl fun h => ?_
  unfold State.railPoll
  extract_lets +onlyGivenNames s1
  exact (h.foldl (fun h1 => h1.pollRail)).updPwr

theorem execRailPoll (h : s.frame l t) {xs : List (Option (Nat × Nat × Nat × Bool))} (hl : [.pwr] ⊆ l := by simp) : s.frames l (execRailPoll
    xs t) := by
  refine h.liftOutcome hl fun h => ?_
  unfold Machine.execRailPoll
  exact (either h.railPoll h).next

theorem aonUp (h : s.frame l t) (hl : ofReset ⊆ l := by simp) : s.frame l t.aonUp := by
  refine h.lift hl fun h => ?_
  unfold State.aonUp
  extract_lets +onlyGivenNames s1
  have h1 : frame _ _ s1 := h.wiped
  exact h1.update

theorem execVddAonPowerUp (h : s.frame l t) (hl : ofReset ⊆ l := by simp) : s.frames l (execVddAonPowerUp t) := by
  refine h.liftOutcome hl fun h => ?_
  unfold Machine.execVddAonPowerUp
  exact (either h.aonUp h).next

theorem railsLost (h : s.frame l t) {mode : PwrMode} (hl : ofRails ⊆ l := by simp) : s.frame l (t.railsLost mode) := by
  refine h.lift hl fun h => ?_
  unfold State.railsLost
  exact h.railsGone.updPwr

theorem execVddAonLoss (h : s.frame l t) (hl : ofRails ⊆ l := by simp) : s.frames l (execVddAonLoss t) := by
  refine h.liftOutcome hl fun h => ?_
  unfold Machine.execVddAonLoss
  exact h.railsLost.next

theorem execPwrGoodMainRise (h : s.frame l t) {straps : BitVec 2} (hl : ofReset ⊆ l := by simp) : s.frames l (execPwrGoodMainRise straps t)
    := by
  refine h.liftOutcome hl fun h => ?_
  unfold Machine.execPwrGoodMainRise
  exact (either h.coldBoot.pstateStart h).next

theorem execPwrGoodTimeout (h : s.frame l t) (hl : [.pwr] ⊆ l := by simp) : s.frames l (execPwrGoodTimeout t) := by
  refine h.liftOutcome hl fun h => ?_
  unfold Machine.execPwrGoodTimeout
  exact (either h.updPwr h).next

theorem execRailRetry (h : s.frame l t) (hl : [.pwr] ⊆ l := by simp) : s.frames l (execRailRetry t) := by
  refine h.liftOutcome hl fun h => ?_
  unfold Machine.execRailRetry
  exact (either h.updPwr h).next

theorem execPwrGoodMainFall (h : s.frame l t) (hl : ofRails ⊆ l := by simp) : s.frames l (execPwrGoodMainFall t) := by
  refine h.liftOutcome hl fun h => ?_
  unfold Machine.execPwrGoodMainFall
  exact (either h.railsLost h).next

theorem execPowerFailRestart (h : s.frame l t) (hl : [.regs, .pwr] ⊆ l := by simp) : s.frames l (execPowerFailRestart t) := by
  refine h.liftOutcome hl fun h => ?_
  unfold Machine.execPowerFailRestart
  exact (either h.startBoot h).next

/-! ### PERST_N (R439, R441, R408) -/

theorem perstAssert (h : s.frame l t) {straps : BitVec 2} (hl : ofReset ⊆ l := by simp) : s.frame l (t.perstAssert straps) := by
  refine h.lift hl fun h => ?_
  unfold State.perstAssert
  extract_lets +onlyGivenNames s1
  have h1 : frame _ _ s1 := h.updPwr
  split
  · exact h1.devReset
  · split
    · extract_lets +onlyGivenNames _ s2
      split
      · exact h1.update.endpointReset.wakeEvent
      · exact h1.update.endpointReset
    · exact h1

theorem execPerstNAssert (h : s.frame l t) {straps : BitVec 2} (hl : ofReset ⊆ l := by simp) : s.frames l (execPerstNAssert straps t) := by
  refine h.liftOutcome hl fun h => ?_
  unfold Machine.execPerstNAssert
  exact h.perstAssert.next

theorem perstDeassert (h : s.frame l t) (hl : [.regs, .pwr, .pcie, .out] ⊆ l := by simp) : s.frame l t.perstDeassert := by
  refine h.lift hl fun h => ?_
  unfold State.perstDeassert
  refine either (wakeEvent ?_) ?_
  · exact h.updPwr.update
  · exact h.updPwr.update

theorem execPerstNDeassert (h : s.frame l t) (hl : [.regs, .pwr, .pcie, .out] ⊆ l := by simp) : s.frames l (execPerstNDeassert t) := by
  refine h.liftOutcome hl fun h => ?_
  unfold Machine.execPerstNDeassert
  exact h.perstDeassert.next

/-! ### Register words (R442, R466) -/

theorem updSec (h : s.frame l t) {f : Sec → Sec} (hl : [.sec] ⊆ l := by simp) : s.frame l (t.updSec f) := by
  refine h.lift hl fun h => ?_
  unfold State.updSec
  exact h.update

/-! ### Firmware update and security version (R453, R454, R468) -/

theorem fwBegin (h : s.frame l t) {slot : Bool} {version : BitVec 32} (hl : [.sec] ⊆ l := by simp) : s.frame l (t.fwBegin slot version) :=
    by
  refine h.lift hl fun h => ?_
  unfold State.fwBegin
  extract_lets +onlyGivenNames x
  split
  · exact h
  · exact h.updSec

theorem fwFinish (h : s.frame l t) (hl : [.sec] ⊆ l := by simp) : s.frame l t.fwFinish := by
  refine h.lift hl fun h => ?_
  unfold State.fwFinish
  split
  · exact h.updSec
  · exact h

theorem fwCancel (h : s.frame l t) (hl : [.sec] ⊆ l := by simp) : s.frame l t.fwCancel := by
  refine h.lift hl fun h => ?_
  unfold State.fwCancel
  exact h.updSec

theorem fwFields (h : s.frame l t) {v : W64} (hl : [.sec] ⊆ l := by simp) : s.frame l (t.fwFields v) := by
  refine h.lift hl fun h => ?_
  unfold State.fwFields
  split
  · exact h.updSec
  · exact h

theorem fwup (h : s.frame l t) {v : W64} (hl : [.sec] ⊆ l := by simp) : s.frame l (t.fwup v) := by
  refine h.lift hl fun h => ?_
  unfold State.fwup
  split
  · exact h.fwBegin
  · exact h.fwFinish.fwFields
  · exact h.fwCancel.fwFields
  · exact h.fwFields

theorem execFwupBegin (h : s.frame l t) {fwSlot : Bool} {version : BitVec 32} (hl : [.sec] ⊆ l := by simp) : s.frames l (execFwupBegin
    fwSlot version t) := by
  refine h.liftOutcome hl fun h => ?_
  unfold Machine.execFwupBegin
  exact h.fwBegin.next

theorem execFwupFinish (h : s.frame l t) (hl : [.sec] ⊆ l := by simp) : s.frames l (execFwupFinish t) := by
  refine h.liftOutcome hl fun h => ?_
  unfold Machine.execFwupFinish
  exact h.fwFinish.next

theorem execFwupCancel (h : s.frame l t) (hl : [.sec] ⊆ l := by simp) : s.frames l (execFwupCancel t) := by
  refine h.liftOutcome hl fun h => ?_
  unfold Machine.execFwupCancel
  exact h.fwCancel.next

theorem svnCommit (h : s.frame l t) {v : W64} (hl : [.sec] ⊆ l := by simp) : s.frame l (t.svnCommit v) := by
  refine h.lift hl fun h => ?_
  unfold State.svnCommit
  extract_lets +onlyGivenNames n
  split
  · exact h.updSec
  · exact h

theorem execSvnCommit (h : s.frame l t) {v : W64} (hl : [.sec] ⊆ l := by simp) : s.frames l (execSvnCommit v t) := by
  refine h.liftOutcome hl fun h => ?_
  unfold Machine.execSvnCommit
  exact h.svnCommit.next

/-! ### Measurements (R456, R457) -/

theorem measExtend (h : s.frame l t) {j : Nat} (hl : [.sec] ⊆ l := by simp) : s.frame l (t.measExtend j) := by
  refine h.lift hl fun h => ?_
  unfold State.measExtend
  split
  · exact h.extend
  · exact h

theorem execMeasurementExtend (h : s.frame l t) {j : Fin 16} (hl : [.sec] ⊆ l := by simp) : s.frames l (execMeasurementExtend j t) := by
  refine h.liftOutcome hl fun h => ?_
  unfold Machine.execMeasurementExtend
  exact h.measExtend.next

theorem ctxExtend (h : s.frame l t) {c : CtxId} (hl : [.sec] ⊆ l := by simp) : s.frame l (t.ctxExtend c) := by
  refine h.lift hl fun h => ?_
  unfold State.ctxExtend
  extract_lets +onlyGivenNames d
  exact h.updSec

theorem execContextMeasurementExtend (h : s.frame l t) {c : CtxId} (hl : [.sec] ⊆ l := by simp) : s.frames l (execContextMeasurementExtend c
    t) := by
  refine h.liftOutcome hl fun h => ?_
  unfold Machine.execContextMeasurementExtend
  exact h.ctxExtend.next

/-! ### Attestation requests (R459) -/

theorem attest (h : s.frame l t) {q : AttReq} (hl : [.link, .pwr, .sec, .out] ⊆ l := by simp) : s.frame l (t.attest q) := by
  refine h.lift hl fun h => ?_
  unfold State.attest
  split
  · split
    · exact h.sendMgmtResp
    · exact h.updSec
  · exact h.updSec

theorem attestPf (h : s.frame l t) {mctx : CtxId} (hl : [.link, .pwr, .sec, .out] ⊆ l := by simp) : s.frame l (t.attestPf mctx) := by
  refine h.lift hl fun h => ?_
  unfold State.attestPf
  exact h.attest

theorem execAttestationRequest (h : s.frame l t) {mctx : CtxId} (hl : [.link, .pwr, .sec, .out] ⊆ l := by simp) : s.frames l
    (execAttestationRequest mctx t) := by
  refine h.liftOutcome hl fun h => ?_
  unfold Machine.execAttestationRequest
  exact h.attestPf.next

theorem attestCtx (h : s.frame l t) {c : CtxId} (hl : [.link, .pwr, .sec, .out] ⊆ l := by simp) : s.frame l (t.attestCtx c) := by
  refine h.lift hl fun h => ?_
  unfold State.attestCtx
  exact h.attest

theorem execContextAttestationRequest (h : s.frame l t) {c : CtxId} (hl : [.link, .pwr, .sec, .out] ⊆ l := by simp) : s.frames l
    (execContextAttestationRequest c t) := by
  refine h.liftOutcome hl fun h => ?_
  unfold Machine.execContextAttestationRequest
  exact h.attestCtx.next

theorem attestRemote (h : s.frame l t) {d : Nat} {mctx : CtxId} (hl : [.link, .pwr, .sec, .out] ⊆ l := by simp) : s.frame l (t.attestRemote
    d mctx) := by
  refine h.lift hl fun h => ?_
  unfold State.attestRemote
  split
  · exact h
  · split
    · exact h.updSec
    · split
      · exact h.updSec
      · extract_lets +onlyGivenNames s1
        exact h.updSec.sendMgmt

theorem attCtl (h : s.frame l t) {v : W64} (hl : [.link, .pwr, .sec, .out] ⊆ l := by simp) : s.frame l (t.attCtl v) := by
  refine h.lift hl fun h => ?_
  unfold State.attCtl
  extract_lets +onlyGivenNames c
  split
  · exact h
  · split
    · exact h.attestPf
    · exact h.attestRemote

theorem execRemoteAttestationRequest (h : s.frame l t) {dev : BitVec 8} {mctx : CtxId} (hl : [.link, .pwr, .sec, .out] ⊆ l := by simp) :
    s.frames l (execRemoteAttestationRequest dev mctx t) := by
  refine h.liftOutcome hl fun h => ?_
  unfold Machine.execRemoteAttestationRequest
  exact (either h.attestPf h.attestRemote).next

/-! ### Reports (R459, R460) -/

theorem signStart (h : s.frame l t) (hl : [.sec] ⊆ l := by simp) : s.frame l t.signStart := by
  refine h.lift hl fun h => ?_
  unfold State.signStart
  split
  · split
    · extract_lets +onlyGivenNames body
      exact h.updSec
    · exact h
  · exact h

theorem execReportSignStart (h : s.frame l t) (hl : [.sec] ⊆ l := by simp) : s.frames l (execReportSignStart t) := by
  refine h.liftOutcome hl fun h => ?_
  unfold Machine.execReportSignStart
  exact h.signStart.next

theorem putReport (h : s.frame l t) {c : CtxId} {a : Nat} {report : List Byte} (hl : [.mem, .hostMem, .deposits, .poison, .bch, .objs,
    .link, .pwr, .out] ⊆ l := by simp) : s.frame l (t.putReport c a report).1 := by
  refine h.lift hl fun h => ?_
  unfold State.putReport
  split
  · exact h.writeBytes
  · exact h

theorem deliver (h : s.frame l t) {src : AttSrc} {c : CtxId} {a : Nat} {report : List Byte} (hl : [.mem, .hostMem, .deposits, .poison, .bch,
    .objs, .link, .pwr, .sec, .out] ⊆ l := by simp) : s.frame l (t.deliver src c a report) := by
  refine h.lift hl fun h => ?_
  unfold State.deliver
  extract_lets +onlyGivenNames r
  exact h.putReport.updSec

theorem signDone (h : s.frame l t) (hl : [.mem, .hostMem, .deposits, .poison, .bch, .objs, .link, .pwr, .sec, .out] ⊆ l := by simp) :
    s.frame l t.signDone := by
  refine h.lift hl fun h => ?_
  unfold State.signDone
  split
  · exact h
  · extract_lets +onlyGivenNames s1
    split
    · exact h.updSec.deliver
    · exact h.updSec.deliver
    · exact h.updSec.sendMgmtResp

theorem execReportSignDone (h : s.frame l t) (hl : [.mem, .hostMem, .deposits, .poison, .bch, .objs, .link, .pwr, .sec, .out] ⊆ l := by
    simp) : s.frames l (execReportSignDone t) := by
  refine h.liftOutcome hl fun h => ?_
  unfold Machine.execReportSignDone
  exact (h.tryOnce (fun h1 => h1.signDone)).next

/-! ### Management messages (R362, R462) -/

theorem takeCopies (h : s.frame l t) {own en : W64} {devs : Nat} (hl : [.regs, .link, .pwr, .out] ⊆ l := by simp) : s.frame l (t.takeCopies
    own en devs) := by
  refine h.lift hl fun h => ?_
  unfold State.takeCopies
  extract_lets +onlyGivenNames s0
  have h1 : frame _ _ s0 := h.setReg.setReg
  extract_lets +onlyGivenNames _ s1
  exact h1.update.sendMgmtAll

theorem attestMsg (h : s.frame l t) {p : PortId} {tag d : Nat} {mctx : CtxId} {nonce : List W64} (hl : [.link, .pwr, .sec, .out] ⊆ l := by
    simp) : s.frame l (t.attestMsg p tag d mctx nonce) := by
  refine h.lift hl fun h => ?_
  unfold State.attestMsg
  split
  · exact h.attest
  · split
    · exact h.sendMgmtResp
    · split
      · exact h.sendMgmtResp
      · extract_lets +onlyGivenNames _ s1
        exact h.update.sendMgmt

theorem mgmtReq (h : s.frame l t) {p : PortId} {m : DataMsg} (hl : [.regs, .orphans, .models, .blks, .tsets, .link, .pwr, .sec, .out] ⊆ l :=
    by simp) : s.frame l (t.mgmtReq p m) := by
  refine h.lift hl fun h => ?_
  unfold State.mgmtReq
  refine either h <| either h.takeCopies <| either h.attestMsg <| either ?_ h
  exact (h.getD fun u hu => h.retireHere hu).sendMgmtAll

theorem execMgmtReq (h : s.frame l t) {p : PortId} (hl : [.regs, .orphans, .bankMgc, .models, .blks, .inst, .tsets, .link, .pwr, .pcie,
    .sec, .log, .logNext, .out] ⊆ l := by simp) : s.frames l (execMgmtReq p t) := by
  refine h.liftOutcome hl fun h => ?_
  unfold Machine.execMgmtReq
  exact (either (h.underQuiet (fun h1 => h1.onMsg (fun h2 => h2.mgmtReq))) (h.onMsg (fun h1 => h1.mgmtReq))).next

theorem remoteDone (h : s.frame l t) {st addr : Nat} {report : List Byte} (hl : [.mem, .hostMem, .deposits, .poison, .bch, .objs, .link,
    .pwr, .sec, .out] ⊆ l := by simp) : s.frame l (t.remoteDone st addr report) := by
  refine h.lift hl fun h => ?_
  unfold State.remoteDone
  split
  · exact h.deliver
  · exact h.updSec

theorem mgmtResp (h : s.frame l t) {p : PortId} {m : DataMsg} (hl : [.mem, .hostMem, .deposits, .poison, .bch, .objs, .link, .pwr, .sec,
    .out] ⊆ l := by simp) : s.frame l (t.mgmtResp p m) := by
  refine h.lift hl fun h => ?_
  unfold State.mgmtResp
  extract_lets +onlyGivenNames st report
  split
  · exact h.updSec.remoteDone
  · exact h.update.sendMgmtResp
  · exact h

theorem execMgmtResp (h : s.frame l t) {p : PortId} (hl : [.regs, .mem, .hostMem, .deposits, .poison, .bch, .objs, .link, .pwr, .pcie, .sec,
    .log, .logNext, .out] ⊆ l := by simp) : s.frames l (execMgmtResp p t) := by
  refine h.liftOutcome hl fun h => ?_
  unfold Machine.execMgmtResp
  exact (h.tryOnce (fun h1 => h1.onMsg (fun h2 => h2.mgmtResp))).next

/-! ### Certificates (R458) -/

theorem certRead (h : s.frame l t) {c : Option CtxId} (hl : [.regs, .out] ⊆ l := by simp) : s.frame l (t.certRead c) := by
  refine h.lift hl fun h => ?_
  unfold State.certRead
  extract_lets +onlyGivenNames base w k
  exact h.setFld.emit

theorem execCertDataRead (h : s.frame l t) {c : Option CtxId} (hl : [.regs, .aptWait, .out] ⊆ l := by simp) : s.frames l (execCertDataRead c
    t) := by
  refine h.liftOutcome hl fun h => ?_
  unfold Machine.execCertDataRead
  extract_lets +onlyGivenNames fn
  exact (h.actingRead (fun h1 => h1.certRead)).next

/-! ### The effect of a write of a whole register (R9) -/

theorem plainWrite (h : s.frame l t) {off : Nat} {v : W64} (hl : [.regs] ⊆ l := by simp) : s.frame l (t.plainWrite off v) := by
  refine h.lift hl fun h => ?_
  unfold State.plainWrite
  split
  · exact h.setReg
  · exact h

theorem ownWrite (h : s.frame l t) {off : Nat} {v : W64} (hl : [.regs, .link, .pwr, .out] ⊆ l := by simp) : s.frame l (t.ownWrite off v) :=
    by
  refine h.lift hl fun h => ?_
  unfold State.ownWrite
  split
  · exact h
  · extract_lets +onlyGivenNames s1
    split
    · exact h.plainWrite.sendMgmtAll
    · exact h.plainWrite

theorem ctxCtl (h : s.frame l t) {v : W64} (hl : [.freeCtr, .regs, .ctxs, .running, .mem, .hostMem, .deposits, .poison, .bch, .objs,
    .orphans, .mig, .migWait, .models, .blks, .armings, .tsets, .link, .pwr, .pcie, .sec, .out] ⊆ l := by simp) : s.frame l (t.ctxCtl v) := by
  refine h.lift hl fun h => ?_
  unfold State.ctxCtl
  extract_lets +onlyGivenNames c
  split
  · exact h.setQEn
  · exact h.ctxReset
  · exact h

theorem writeDev (h : s.frame l t) {off : Nat} {v : W64} (hl : ofReset ⊆ l := by simp) : s.frame l (t.writeDev off v) := by
  refine h.lift hl fun h => ?_
  unfold State.writeDev
  split
  · exact h.devResetWrite
  · split
    · exact h.ctxCtl
    · split
      · exact h.ownWrite
      · split
        · exact h.sysWrite
        · exact h.plainWrite

theorem writePwr (h : s.frame l t) {off : Nat} {v : W64} (hl : [.freeCtr, .regs, .ctxs, .running, .mem, .hostMem, .deposits, .poison, .bch,
    .objs, .orphans, .mig, .migWait, .bankMgc, .models, .blks, .fpc, .inst, .armings, .tsets, .link, .time, .pwr, .pcie, .aptWait, .sec, .log,
    .logNext, .out] ⊆ l := by simp) : s.frame l (t.writePwr off v) := by
  refine h.lift hl fun h => ?_
  unfold State.writePwr
  split
  · exact h.stateCmd
  · split
    · exact h.domCmd
    · split
      · exact h.padRelease
      · exact h.plainWrite

theorem quiesceWrite (h : s.frame l t) {who : Requester} {v : W64} (hl : [.bankHost, .bankMgc] ⊆ l := by simp) : s.frame l (t.quiesceWrite
    who v) := by
  refine h.lift hl fun h => ?_
  unfold State.quiesceWrite
  exact h.withBank (h.setBank)

theorem objOp (h : s.frame l t) {who : Requester} {v : W64} (hl : [.freeCtr, .mem, .poison, .bch, .objs, .pmap, .orphans, .mig, .bankHost,
    .bankMgc, .blks, .pwr] ⊆ l := by simp) : s.frame l (t.objOp who v) := by
  refine h.lift hl fun h => ?_
  unfold State.objOp
  split
  · exact h.objRead
  · exact h.create
  · exact h.delete
  · exact h.setShare
  · exact h.setState
  · exact h

theorem mdlOp (h : s.frame l t) {who : Requester} {v : W64} (hl : [.bankHost, .bankMgc, .models] ⊆ l := by simp) : s.frame l (t.mdlOp who v)
    := by
  refine h.lift hl fun h => ?_
  unfold State.mdlOp
  split
  · exact h.mdlRead
  · exact h.define
  · exact h.undefine
  · exact h

theorem quotaWrite (h : s.frame l t) {v : W64} (hl : [.quotas] ⊆ l := by simp) : s.frame l (t.quotaWrite v) := by
  refine h.lift hl fun h => ?_
  unfold State.quotaWrite
  split
  · exact h
  · exact h.update

theorem writeMem (h : s.frame l t) {who : Requester} {off : Nat} {v : W64} (hl : [.freeCtr, .regs, .mem, .poison, .bch, .objs, .pmap,
    .orphans, .quotas, .mig, .bankHost, .bankMgc, .models, .blks, .pwr] ⊆ l := by simp) : s.frame l (t.writeMem who off v) := by
  refine h.lift hl fun h => ?_
  unfold State.writeMem
  split
  · exact h.quiesceWrite
  · split
    · exact h.withBank (h.setBank)
    · split
      · exact h.withBank (h.setBank)
      · split
        · exact h.objOp
        · split
          · exact h.quotaWrite
          · split
            · exact h.withBank (h.setBank)
            · split
              · extract_lets +onlyGivenNames i
                exact h.withBank (h.setBank)
              · split
                · exact h.mdlOp
                · exact h.plainWrite

theorem eraseCtl (h : s.frame l t) {v : W64} (hl : [.regs, .fpc, .link, .pwr, .pcie, .log, .logNext, .out] ⊆ l := by simp) : s.frame l
    (t.eraseCtl v) := by
  refine h.lift hl fun h => ?_
  unfold State.eraseCtl
  split
  · exact h.ctlSuspend
  · exact h.ctlResume
  · exact h.ctlHold
  · exact h

theorem writeFpc (h : s.frame l t) {who : Requester} {off : Nat} {v : W64} (hl : [.regs, .deposits, .objs, .orphans, .bankMgc, .models,
    .blks, .fpc, .inst, .tsets, .link, .pwr, .pcie, .sec, .log, .logNext, .out] ⊆ l := by simp) : s.frame l (t.writeFpc who off v) := by
  refine h.lift hl fun h => ?_
  unfold State.writeFpc
  split
  · exact h.fpcKey
  · split
    · exact h.fpcCmd
    · split
      · exact h.fpcAddr
      · split
        · exact h.fpcData
        · split
          · split
            · exact h.popResult
            · exact h
          · split
            · exact h.eraseCtl
            · split
              · exact h.instCmd
              · exact h.plainWrite

theorem portCtl (h : s.frame l t) {p : PortId} {off : Nat} {v : W64} (hl : [.regs, .ctxs, .running, .mem, .hostMem, .deposits, .poison,
    .bch, .objs, .orphans, .mig, .bankMgc, .models, .blks, .fpc, .inst, .armings, .tsets, .link, .time, .pwr, .pcie, .aptWait, .sec, .log,
    .logNext, .out] ⊆ l := by simp) : s.frame l (t.portCtl p off v) := by
  refine h.lift hl fun h => ?_
  unfold State.portCtl
  extract_lets +onlyGivenNames s1 s2
  have h2 : frame _ _ s2 := (either (either h.plainWrite.wakeDom h.plainWrite.wakeDom.tear) (either h.plainWrite.wakeDom.updPort
      h.plainWrite.wakeDom))
  extract_lets +onlyGivenNames s3
  split
  · exact (either h2.portDown h2).sendComet
  · exact (either h2.portDown h2)

theorem writeLnk (h : s.frame l t) {off : Nat} {v : W64} (hl : [.regs, .ctxs, .running, .mem, .hostMem, .deposits, .poison, .bch, .objs,
    .orphans, .mig, .bankMgc, .models, .blks, .fpc, .inst, .armings, .tsets, .link, .time, .pwr, .pcie, .aptWait, .sec, .log, .logNext, .out]
    ⊆ l := by simp) : s.frame l (t.writeLnk off v) := by
  refine h.lift hl fun h => ?_
  unfold State.writeLnk
  split
  · exact h.portCtl
  · exact h.plainWrite

theorem wdogWrite (h : s.frame l t) {v : W64} (hl : [.regs, .sec] ⊆ l := by simp) : s.frame l (t.wdogWrite v) := by
  refine h.lift hl fun h => ?_
  unfold State.wdogWrite
  extract_lets +onlyGivenNames t' s1
  split
  · exact h.updSec.setFld
  · exact h.updSec

theorem writeSec (h : s.frame l t) {off : Nat} {v : W64} (hl : [.regs, .link, .pwr, .pcie, .sec, .log, .logNext, .out] ⊆ l := by simp) :
    s.frame l (t.writeSec off v) := by
  refine h.lift hl fun h => ?_
  unfold State.writeSec
  split
  · exact h.svnCommit
  · split
    · exact h.fwup
    · split
      · exact h.wdogWrite
      · split
        · exact h.measExtend
        · split
          · exact h.attCtl
          · split
            · split
              · exact h.recovery
              · exact h
            · exact h.plainWrite

theorem writeTime (h : s.frame l t) {off : Nat} {v : W64} (hl : [.regs, .time, .pwr] ⊆ l := by simp) : s.frame l (t.writeTime off v) := by
  refine h.lift hl fun h => ?_
  unfold State.writeTime
  split
  · exact h.timeSetTo
  · split
    · exact h.timeAdjBy
    · split
      · split
        · exact h
        · exact h.plainWrite
      · split
        · exact h.updPwr
        · exact h.plainWrite

theorem writeBlock (h : s.frame l t) {who : Requester} {off : Nat} {v : W64} (hl : ofReset ⊆ l := by simp) : s.frame l (t.writeBlock who off
    v) := by
  refine h.lift hl fun h => ?_
  unfold State.writeBlock
  split
  · exact h.writeDev
  · exact h.writePwr
  · split
    · exact h.markPair
    · exact h.plainWrite
  · exact h.writeMem
  · exact h.writeFpc
  · exact h.writeLnk
  · exact h.writeSec
  · exact h.writeTime
  · split
    · exact h.logSelect
    · exact h.plainWrite
  · exact h.plainWrite

/-! ### Context pages -/

theorem ctrlWrite (h : s.frame l t) {c : CtxId} {v : W64} (hl : [.freeCtr, .regs, .ctxs, .running, .mem, .hostMem, .deposits, .poison, .bch,
    .objs, .orphans, .mig, .migWait, .models, .blks, .armings, .tsets, .link, .pwr, .pcie, .sec, .out] ⊆ l := by simp) : s.frame l
    (t.ctrlWrite c v) := by
  refine h.lift hl fun h => ?_
  unfold State.ctrlWrite
  extract_lets +onlyGivenNames s1
  split
  · exact h.setQEn.ctxReset
  · exact h.setQEn

theorem abortWrite (h : s.frame l t) {c : CtxId} {v : W64} (hl : [.ctxs] ⊆ l := by simp) : s.frame l (t.abortWrite c v) := by
  refine h.lift hl fun h => ?_
  unfold State.abortWrite
  split
  · exact h.abortReqs
  · exact h.abortReqs

theorem sizeWrite (h : s.frame l t) {c : CtxId} {o hi : Nat} {v : W64} (hl : [.regs] ⊆ l := by simp) : s.frame l (t.sizeWrite c o hi v) :=
    by
  refine h.lift hl fun h => ?_
  unfold State.sizeWrite
  extract_lets +onlyGivenNames f old s1
  split
  · exact h.plainWrite
  · exact h.plainWrite.setFld

theorem irqWrite (h : s.frame l t) {c : CtxId} {v : W64} (hl : [.regs, .ctxs] ⊆ l := by simp) : s.frame l (t.irqWrite c v) := by
  refine h.lift hl fun h => ?_
  unfold State.irqWrite
  extract_lets +onlyGivenNames s1 s2
  have h2 : frame _ _ s2 := (either h.plainWrite.setFld h.plainWrite)
  split
  · exact h2
  · exact h2.updCtx

theorem migWrite (h : s.frame l t) {c : CtxId} {v : W64} (hl : [.regs, .mig, .link, .pwr, .pcie, .log, .logNext, .out] ⊆ l := by simp) :
    s.frame l (t.migWrite c v) := by
  refine h.lift hl fun h => ?_
  unfold State.migWrite
  exact h.migRequest

theorem seedWrite (h : s.frame l t) {c : CtxId} {off : Nat} {v : W64} (hl : [.regs, .sec] ⊆ l := by simp) : s.frame l (t.seedWrite c off v)
    := by
  refine h.lift hl fun h => ?_
  unfold State.seedWrite
  exact h.setReg.updSec

theorem writePage (h : s.frame l t) {c : CtxId} {o : Nat} {v : W64} (hl : [.freeCtr, .regs, .ctxs, .running, .mem, .hostMem, .deposits,
    .poison, .bch, .objs, .orphans, .mig, .migWait, .models, .blks, .armings, .tsets, .link, .pwr, .pcie, .sec, .log, .logNext, .out] ⊆ l :=
    by simp) : s.frame l (t.writePage c o v) := by
  refine h.lift hl fun h => ?_
  unfold State.writePage
  exact either h.ctrlWrite <| either h.abortWrite <| either h.sizeWrite <| either h.cqHead <| either h.irqWrite <| either h.scnAdd <|
    either h.migWrite <| either (either h.exactEnter h.exactExit) <| either h.sizeWrite <| either h.tailHead <| either h.crcWrite <|
    either (either h.plainWrite h) <| either (either h.attestCtx h) <| either (either h.ctxExtend h) <| either h.seedWrite <|
    either h.setSync h.plainWrite

/-! ### MSI-X (R437) -/

theorem sendPending (h : s.frame l t) {fn : Fin 16} {v : Nat} (hl : [.link, .pwr, .pcie, .out] ⊆ l := by simp) : s.frame l (t.sendPending fn
    v) := by
  refine h.lift hl fun h => ?_
  unfold State.sendPending
  split
  · exact h.update.sendMsix
  · exact h

theorem sendAllPending (h : s.frame l t) {fn : Fin 16} (hl : [.link, .pwr, .pcie, .out] ⊆ l := by simp) : s.frame l (t.sendAllPending fn) :=
    by
  refine h.lift hl fun h => ?_
  unfold State.sendAllPending
  exact h.foldl (fun h1 => h1.sendPending)

theorem msixWrite (h : s.frame l t) {fn : Fin 16} {i : Nat} {v : W64} (hl : [.link, .pwr, .pcie, .out] ⊆ l := by simp) : s.frame l
    (t.msixWrite fn i v) := by
  refine h.lift hl fun h => ?_
  unfold State.msixWrite
  extract_lets +onlyGivenNames dflt
  exact h.update.sendPending

theorem unmask (h : s.frame l t) {fn : Fin 16} {vec : Option (Fin 128)} (hl : [.link, .pwr, .pcie, .out] ⊆ l := by simp) : s.frame l
    (t.unmask fn vec) := by
  refine h.lift hl fun h => ?_
  unfold State.unmask
  split
  · exact h.msixWrite
  · exact h.update.sendAllPending

theorem execMsixUnmask (h : s.frame l t) {fn : Fin 16} {vec : Option (Fin 128)} (hl : [.link, .pwr, .pcie, .out] ⊆ l := by simp) : s.frames
    l (execMsixUnmask fn vec t) := by
  refine h.liftOutcome hl fun h => ?_
  unfold Machine.execMsixUnmask
  exact h.unmask.next

/-! ### Register writes (R9, R431) -/

theorem regWrite (h : s.frame l t) {who : Requester} {off : Nat} {v : W64} (hl : ofReset ⊆ l := by simp) : s.frames l (t.regWrite who off v)
    := by
  refine h.liftOutcome hl fun h => ?_
  unfold State.regWrite
  split
  · split
    · exact .fault _
    · exact h.writePage.next
  · exact h.writeBlock.next

theorem notePoisonIn (h : s.frame l t) {c : Option CtxId} {words loc bar : Nat} (hl : [.regs, .link, .pwr, .pcie, .log, .logNext, .out] ⊆ l
    := by simp) : s.frame l (t.notePoisonIn c words loc bar) := by
  refine h.lift hl fun h => ?_
  unfold State.notePoisonIn
  exact h.addFld.logEvent

theorem access (h : s.frame l t) {who : Requester} {off size : Nat} {v : W64} (hl : ofReset ⊆ l := by simp) : s.frames l (t.access who off
    size v) := by
  refine h.liftOutcome hl fun h => ?_
  unfold State.access
  split
  · split
    · exact h.regWrite
    · exact h.next
  · split
    · exact h.msixWrite.next
    · exact h.next
  · exact h.next
  · exact h.next

theorem wakeAfter {o : Host.Outcome State Fault Refusal} (h : s.frames l o)
    (hl : [.regs, .link, .pwr, .out] ⊆ l := by simp) : s.frames l (wakeAfter o) := by
  intro u hu
  unfold Machine.wakeAfter at hu
  split at hu
  next v =>
    cases hu
    exact (h v rfl).hostWakes hl
  next o hno => exact absurd hu (hno u)

theorem regLand (h : s.frame l t) {n : Fin 16} {off size : Nat} {v : W64} {ep : Bool} (hl : ofReset ⊆ l := by simp) : s.frames l (t.regLand
    n off size v ep) := by
  refine h.liftOutcome hl fun h => ?_
  unfold State.regLand
  split
  · extract_lets +onlyGivenNames s1
    have h1 : frame _ _ s1 := either h.notePoisonIn h
    exact wakeAfter h1.access
  · exact h.next

theorem execRegisterWrite (h : s.frame l t) {who : Requester} {off size : Nat} {v : W64} {ep : Bool} (hl : ofReset ⊆ l := by simp) :
    s.frames l (execRegisterWrite who off size v ep t) := by
  refine h.liftOutcome hl fun h => ?_
  unfold Machine.execRegisterWrite
  split
  · exact h.access
  · split
    · exact h.putOff.next
    · exact h.regLand

/-! ### Queue windows (R182 to R185, R433) -/

theorem queueWrite (h : s.frame l t) {c : CtxId} {e : Engine} {o : Nat} {data : List Byte} {ep : Bool} (hl : [.regs, .mem, .poison, .bch,
    .link, .pwr, .pcie, .log, .logNext, .out] ⊆ l := by simp) : s.frame l (t.queueWrite c e o data ep) := by
  refine h.lift hl fun h => ?_
  unfold State.queueWrite
  extract_lets +onlyGivenNames s0 s1 s2
  have h3 : frame _ _ s2 := (either (either h.notePoisonIn h).store.entryEvent (either h.notePoisonIn h).store)
  exact h3.hostWakes

theorem queueLand (h : s.frame l t) {fn : Fin 16} {off : Nat} {data : List Byte} {ep : Bool} (hl : [.regs, .mem, .poison, .bch, .link, .pwr,
    .pcie, .log, .logNext, .out] ⊆ l := by simp) : s.frame l (t.queueLand fn off data ep) := by
  refine h.lift hl fun h => ?_
  unfold State.queueLand
  split
  · split
    · split
      · exact h
      · exact h.queueWrite
    · exact h
  · exact h

theorem execQueueEntryWrite (h : s.frame l t) {fn : Fin 16} {off : Nat} {data : List Byte} {ep : Bool} (hl : [.regs, .mem, .poison, .bch,
    .link, .pwr, .pcie, .aptWait, .log, .logNext, .out] ⊆ l := by simp) : s.frames l (execQueueEntryWrite fn off data ep t) := by
  refine h.liftOutcome hl fun h => ?_
  unfold Machine.execQueueEntryWrite
  exact (either h.putOff h.queueLand).next

/-! ### The tensor aperture (R435, R436) -/

theorem aptReadLand (h : s.frame l t) {c : CtxId} {ok : Bool} {a n : Nat} (hl : [.regs, .deposits, .blks, .link, .pwr, .pcie, .log,
    .logNext, .out] ⊆ l := by simp) : s.frame l (t.aptReadLand c ok a n).1 := by
  refine h.lift hl fun h => ?_
  unfold State.aptReadLand
  extract_lets +onlyGivenNames v
  split
  · exact h.aptFault.emit
  · split
    · exact h.dropLost.aptFault.emit
    · exact h.tryPeers (fun h1 => h1.noteRead.emit)

theorem hostLand (h : s.frame l t) {x : HostAcc} (hl : ofReset ⊆ l := by simp) : s.frame l (t.hostLand x).1 := by
  refine h.lift hl fun h => ?_
  unfold State.hostLand
  cases x with
  | write w => exact h.aptLand
  | read fn c ok a n => exact h.aptReadLand
  | queue fn off data ep => exact h.queueLand
  | reg fn off size v ep =>
    dsimp only
    split
    next u hu => exact h.regLand.get hu
    next => exact h
  | timeNow => exact h.timeNowRead
  | calData => exact h.calRead
  | certData fn c => exact h.certRead

theorem hostGoOn (h : s.frame l t) {n : Nat} (hl : ofReset ⊆ l := by simp) : s.frame l (t.hostGoOn n) := by
  refine h.lift hl ?_
  clear h hl
  intro s h
  induction n generalizing t with
  | zero => exact h
  | succ n ih =>
    unfold State.hostGoOn
    split
    · exact h
    next x xs _ =>
      have h1 : frame _ _ ((({ t with aptWait := xs } : State).hostLand x).1) := h.update.hostLand
      exact either (ih h1) (h1.update)

theorem hostDrain (h : s.frame l t) (hl : ofReset ⊆ l := by simp) : s.frame l t.hostDrain := by
  refine h.lift hl fun h => ?_
  unfold State.hostDrain
  exact h.hostGoOn

theorem execApertureRead (h : s.frame l t) {fn : Fin 16} {off n : Nat} (hl : ofReset ⊆ l := by simp) : s.frames l (execApertureRead fn off n
    t) := by
  refine h.liftOutcome hl fun h => ?_
  unfold Machine.execApertureRead
  exact (either h (either (either h.emit h) (either (either h.noteRecov.emit h.emit) h.putOff.hostDrain))).next

theorem aptWrite (h : s.frame l t) {fn : Fin 16} {c : CtxId} {ok : Bool} {a : Nat} {data : List Byte} {ep : Bool} (hl : ofReset ⊆ l := by
    simp) : s.frame l (t.aptWrite fn c ok a data ep) := by
  refine h.lift hl fun h => ?_
  unfold State.aptWrite
  extract_lets u
  have h1 : frame _ _ u := either h.notePoisonIn h
  exact either h1.aptFault h1.putOff.hostDrain

theorem execApertureWrite (h : s.frame l t) {fn : Fin 16} {off : Nat} {data : List Byte} {ep : Bool} (hl : ofReset ⊆ l := by simp) :
    s.frames l (execApertureWrite fn off data ep t) := by
  refine h.liftOutcome hl fun h => ?_
  unfold Machine.execApertureWrite
  exact (either h (either (either (either h.notePoisonIn h).store (either h.notePoisonIn h)) h.aptWrite.hostWakes)).next

/-! ### Function resets and handover (R428, R439, R440) -/

theorem execVfFlr (h : s.frame l t) {n : Fin 16} (hl : [.freeCtr, .regs, .ctxs, .running, .mem, .hostMem, .deposits, .poison, .bch, .objs,
    .orphans, .mig, .migWait, .models, .blks, .armings, .tsets, .link, .pwr, .pcie, .sec, .out] ⊆ l := by simp) : s.frames l (execVfFlr n t)
    := by
  refine h.liftOutcome hl fun h => ?_
  unfold Machine.execVfFlr
  exact (either h h.vfReset).next

theorem pfReset (h : s.frame l t) (hl : [.freeCtr, .regs, .ctxs, .running, .mem, .hostMem, .deposits, .poison, .bch, .objs, .orphans, .mig,
    .migWait, .models, .blks, .armings, .tsets, .link, .pwr, .pcie, .sec, .out] ⊆ l := by simp) : s.frame l t.pfReset := by
  refine h.lift hl fun h => ?_
  unfold State.pfReset
  extract_lets +onlyGivenNames s1
  have h1 : frame _ _ s1 := h.vfClear.foldl (fun h1 => h1.ctxFlr)
  extract_lets +onlyGivenNames s2
  have h2 : frame _ _ s2 := h1.foldl (fun h2 => h2.fnReset)
  exact h2.update

theorem execPfFlr (h : s.frame l t) (hl : [.freeCtr, .regs, .ctxs, .running, .mem, .hostMem, .deposits, .poison, .bch, .objs, .orphans,
    .mig, .migWait, .models, .blks, .armings, .tsets, .link, .pwr, .pcie, .sec, .out] ⊆ l := by simp) : s.frames l (execPfFlr t) := by
  refine h.liftOutcome hl fun h => ?_
  unfold Machine.execPfFlr
  exact h.pfReset.next

theorem vfSet (h : s.frame l t) {num : Nat} (hl : [.freeCtr, .regs, .ctxs, .running, .mem, .hostMem, .deposits, .poison, .bch, .objs,
    .orphans, .mig, .migWait, .models, .blks, .armings, .tsets, .link, .pwr, .pcie, .sec, .out] ⊆ l := by simp) : s.frame l (t.vfSet num) :=
    by
  refine h.lift hl fun h => ?_
  unfold State.vfSet
  split
  · exact h
  · extract_lets +onlyGivenNames s1
    have h1 : frame _ _ s1 := h.foldl (fun h1 => (either h1.ctxReset h1))
    extract_lets +onlyGivenNames busy
    exact h1.update

theorem execVfEnableSet (h : s.frame l t) {num : Fin 16} (hl : [.freeCtr, .regs, .ctxs, .running, .mem, .hostMem, .deposits, .poison, .bch,
    .objs, .orphans, .mig, .migWait, .models, .blks, .armings, .tsets, .link, .pwr, .pcie, .sec, .out] ⊆ l := by simp) : s.frames l
    (execVfEnableSet num t) := by
  refine h.liftOutcome hl fun h => ?_
  unfold Machine.execVfEnableSet
  exact h.vfSet.next

theorem execVfEnableClear (h : s.frame l t) (hl : [.freeCtr, .regs, .ctxs, .running, .mem, .hostMem, .deposits, .poison, .bch, .objs,
    .orphans, .mig, .migWait, .models, .blks, .armings, .tsets, .link, .pwr, .pcie, .sec, .out] ⊆ l := by simp) : s.frames l
    (execVfEnableClear t) := by
  refine h.liftOutcome hl fun h => ?_
  unfold Machine.execVfEnableClear
  exact h.vfClear.next

/-! ### The PCI Express link returns; completion timeouts (R388, R438) -/

theorem flushAll (h : s.frame l t) {r1 : List CtxId} (hl : [.regs, .ctxs, .mem, .hostMem, .deposits, .poison, .bch, .objs, .orphans,
    .models, .blks, .tsets, .link, .pwr, .pcie, .log, .logNext, .out] ⊆ l := by simp) : s.frame l (t.flushAll r1) := by
  refine h.lift hl ?_
  clear h hl
  intro s h
  induction r1 generalizing t with
  | nil => exact h
  | cons y ys ih =>
    unfold State.flushAll
    extract_lets +onlyGivenNames s1
    exact (ih h.cqFlush.resetGoOn.tailFlush)

theorem hostReturns (h : s.frame l t) (hl : [.regs, .ctxs, .mem, .hostMem, .deposits, .poison, .bch, .objs, .orphans, .migWait, .models,
    .blks, .tsets, .link, .pwr, .pcie, .log, .logNext, .out] ⊆ l := by simp) : s.frame l t.hostReturns := by
  refine h.lift hl fun h => ?_
  unfold State.hostReturns
  extract_lets +onlyGivenNames s1
  exact h.update.migPostAll.flushAll.foldl (fun h2 => h2.sendAllPending)

theorem pcieUp (h : s.frame l t) {gen width : Nat} (hl : [.regs, .ctxs, .mem, .hostMem, .deposits, .poison, .bch, .objs, .orphans, .migWait,
    .models, .blks, .tsets, .link, .pwr, .pcie, .log, .logNext, .out] ⊆ l := by simp) : s.frame l (t.pcieUp gen width) := by
  refine h.lift hl fun h => ?_
  unfold State.pcieUp
  split
  · split
    · exact h.update.wakeDom
    · exact h.update.hostReturns
  · exact h

theorem execPcieLinkUp (h : s.frame l t) {gen width : Nat} (hl : [.regs, .ctxs, .mem, .hostMem, .deposits, .poison, .bch, .objs, .orphans,
    .migWait, .models, .blks, .tsets, .link, .pwr, .pcie, .log, .logNext, .out] ⊆ l := by simp) : s.frames l (execPcieLinkUp gen width t) :=
    by
  refine h.liftOutcome hl fun h => ?_
  unfold Machine.execPcieLinkUp
  exact h.pcieUp.next

theorem hostReadLost (h : s.frame l t) {c : CtxId} {e : Engine} {slot off : Nat} (hl : [.regs, .armings] ⊆ l := by simp) : s.frame l
    (t.hostReadLost c e slot off) := by
  refine h.lift hl fun h => ?_
  unfold State.hostReadLost
  split
  · exact h
  · split
    · exact h
    · extract_lets +onlyGivenNames r
      exact h.failStream

theorem hostMigLost (h : s.frame l t) {c : CtxId} {id : Nat} (hl : [.mig] ⊆ l := by simp) : s.frame l (t.hostMigLost c id) := by
  refine h.lift hl fun h => ?_
  unfold State.hostMigLost
  exact h.failMigs

theorem hostCmdLost (h : s.frame l t) {c : CtxId} {e : Engine} {slot : Nat} (hl : [.running, .pcie] ⊆ l := by simp) : s.frame l
    (t.hostCmdLost c e slot) := by
  refine h.lift hl fun h => ?_
  unfold State.hostCmdLost
  split
  · exact h.updExec
  · exact h.update

theorem execPcieCompletionTimeout (h : s.frame l t) {c : CtxId} {e : Engine} {slot off : Nat} {mig : Option (BitVec 8)} (hl : [.regs,
    .running, .mig, .armings, .pcie] ⊆ l := by simp) : s.frames l (execPcieCompletionTimeout c e slot off mig t) := by
  refine h.liftOutcome hl fun h => ?_
  unfold Machine.execPcieCompletionTimeout
  exact next (by split; exacts [h.hostMigLost, (either h.hostReadLost h.hostCmdLost)])

/-! ### Domains that become ready; the clock -/

theorem tailsGoOn (h : s.frame l t) {r1 : List CtxId} (hl : [.regs, .ctxs, .mem, .hostMem, .deposits, .poison, .bch, .objs, .link, .pwr,
    .pcie, .log, .logNext, .out] ⊆ l := by simp) : s.frame l (t.tailsGoOn r1) := by
  refine h.lift hl ?_
  clear h hl
  intro s h
  induction r1 generalizing t with
  | nil => exact h
  | cons y ys ih =>
    unfold State.tailsGoOn
    exact (ih h.tailFlush)

theorem domGoesOn (h : s.frame l t) {d : Nat} (hl : ofReset ⊆ l := by simp) : s.frame l (t.domGoesOn d) := by
  refine h.lift hl fun h => ?_
  unfold State.domGoesOn
  extract_lets s1 s2
  have h1 : frame _ _ s1 := either h.pump h
  have h2 : frame _ _ s2 := either h1.hostReturns h1
  exact h2.tailsGoOn.reportsGoOn.hostDrain

theorem domReady (h : s.frame l t) {d : Nat} (hl : ofReset ⊆ l := by simp) : s.frame l (t.domReady d) := by
  refine h.lift hl fun h => ?_
  unfold State.domReady
  split
  · extract_lets +onlyGivenNames s1
    exact (either h.setDom.poisonBank h.setDom).domGoesOn
  · exact h

theorem execDomainWakeReady (h : s.frame l t) {d : BitVec 7} (hl : ofReset ⊆ l := by simp) : s.frames l (execDomainWakeReady d t) := by
  refine h.liftOutcome hl fun h => ?_
  unfold Machine.execDomainWakeReady
  exact h.domReady.next

theorem tick (h : s.frame l t) (hl : ofReset ⊆ l := by simp) : s.frame l t.tick := by
  refine h.lift hl fun h => ?_
  unfold State.tick
  extract_lets +onlyGivenNames s1
  exact (h.timeTick.ppsFall.rtcTick.updPwr.foldl (fun h2 => h2.shutStep)).hostDrain.recordPtrs.nullFlits

/-! ### One arm per command: a direct call of its meaning -/

theorem exec (h : s.frame every t) {i : Instr} : s.frames every (exec i t) := by
  unfold Machine.exec
  split
  · exact h.execQueueEntryWrite (subset_every _)
  · exact h.execRegisterWrite (subset_every _)
  · exact h.execApertureRead (subset_every _)
  · exact h.execApertureWrite (subset_every _)
  · exact h.execLinkDown (subset_every _)
  · exact h.execHotReset (subset_every _)
  · exact h.execPerstNAssert (subset_every _)
  · exact h.execPerstNDeassert (subset_every _)
  · exact h.execDevReset (subset_every _)
  · exact h.execWatchdogExpiry (subset_every _)
  · exact h.execBootOkTimer (subset_every _)
  · exact h.execVfFlr (subset_every _)
  · exact h.execPfFlr (subset_every _)
  · exact h.execVfEnableSet (subset_every _)
  · exact h.execVfEnableClear (subset_every _)
  · exact h.execMsixUnmask (subset_every _)
  · exact h.execQueueEntryDecode (subset_every _)
  · exact h.execCommandHandover (subset_every _)
  · exact h.execCommandComplete (subset_every _)
  · exact h.execMsixTimerExpiry (subset_every _)
  · exact h.execCqHeadWrite (subset_every _)
  · exact h.execQueueEnableWrite (subset_every _)
  · exact h.execContextReset (subset_every _)
  · exact h.execDevCtxQueueDisable (subset_every _)
  · exact h.execDevCtxReset (subset_every _)
  · exact h.execAbortRequest (subset_every _)
  · exact h.execAbortAll (subset_every _)
  · exact h.execSyncAdd (subset_every _)
  · exact h.execSyncCounterWrite (subset_every _)
  · exact h.execSystemCounterWrite (subset_every _)
  · exact h.execQuant (subset_every _)
  · exact h.execFunc (subset_every _)
  · exact h.execScaleFind (subset_every _)
  · exact h.execNorm (subset_every _)
  · exact h.execSoftmax (subset_every _)
  · exact h.execRescale (subset_every _)
  · exact h.execOutlier (subset_every _)
  · exact h.execRandom (subset_every _)
  · exact h.execAdd (subset_every _)
  · exact h.execMatvec (subset_every _)
  · exact h.execScrub (subset_every _)
  · exact h.execMatmul (subset_every _)
  · exact h.execOperandStallEpisode (subset_every _)
  · exact h.execCombine (subset_every _)
  · exact h.execBlockDecode (subset_every _)
  · exact h.execArm (subset_every _)
  · exact h.execDisarm (subset_every _)
  · exact h.execCopy (subset_every _)
  · exact h.execSlotTable (subset_every _)
  · exact h.execCtxSave (subset_every _)
  · exact h.execCtxRestore (subset_every _)
  · exact h.execCompress (subset_every _)
  · exact h.execTableLoad (subset_every _)
  · exact h.execTableLoadUnpinned (subset_every _)
  · exact h.execTransferGrant (subset_every _)
  · exact h.execTransferRetire (subset_every _)
  · exact h.execTileDeadlineExpiry (subset_every _)
  · exact h.execDramRefresh (subset_every _)
  · exact h.execPromote (subset_every _)
  · exact h.execEvict (subset_every _)
  · exact h.execWriteback (subset_every _)
  · exact h.execMigrationOpStart (subset_every _)
  · exact h.execMigrationOpEnd (subset_every _)
  · exact h.execMigrationDeadline (subset_every _)
  · exact h.execQuiesceRequest (subset_every _)
  · exact h.execQuiesceDone (subset_every _)
  · exact h.execQuiesceRelease (subset_every _)
  · exact h.execObjRead (subset_every _)
  · exact h.execCreate (subset_every _)
  · exact h.execDelete (subset_every _)
  · exact h.execSetShare (subset_every _)
  · exact h.execSetState (subset_every _)
  · exact h.execMdlRead (subset_every _)
  · exact h.execDefine (subset_every _)
  · exact h.execUndefine (subset_every _)
  · exact h.execCrcConfigWrite (subset_every _)
  · exact h.execCrcFeed (subset_every _)
  · exact h.execCrcAdvance (subset_every _)
  · exact h.execCrcAdvanceDone (subset_every _)
  · exact h.execExactEnter (subset_every _)
  · exact h.execExactActivate (subset_every _)
  · exact h.execExactExit (subset_every _)
  · exact h.execExactDeactivate (subset_every _)
  · exact h.execTailHeadWrite (subset_every _)
  · exact h.execFpcKeyWrite (subset_every _)
  · exact h.execFpcCmdWrite (subset_every _)
  · exact h.execFpcAddrWrite (subset_every _)
  · exact h.execFpcSequenceTimeout (subset_every _)
  · exact h.execFpcLockoutExpiry (subset_every _)
  · exact h.execProgPages (subset_every _)
  · exact h.execEraseBlock (subset_every _)
  · exact h.execRelocate (subset_every _)
  · exact h.execCafTile (subset_every _)
  · exact h.execCafErase (subset_every _)
  · exact h.execFwPage (subset_every _)
  · exact h.execFpcOperationStart (subset_every _)
  · exact h.execProgramPulseEnd (subset_every _)
  · exact h.execErasePulseEnd (subset_every _)
  · exact h.execEraseSuspend (subset_every _)
  · exact h.execEraseResumeGap (subset_every _)
  · exact h.execEraseCtlSuspend (subset_every _)
  · exact h.execEraseCtlResume (subset_every _)
  · exact h.execEraseCtlHold (subset_every _)
  · exact h.execFpcResultPop (subset_every _)
  · exact h.execCalDataRead (subset_every _)
  · exact h.execCafPairRetire (subset_every _)
  · exact h.execStart (subset_every _)
  · exact h.execSwitch (subset_every _)
  · exact h.execClose (subset_every _)
  · exact h.execRetire (subset_every _)
  · exact h.execAbort (subset_every _)
  · exact h.execInstallTimeout (subset_every _)
  · exact h.execShardFetch (subset_every _)
  · exact h.execInstallerProgramLaunch (subset_every _)
  · exact h.execPartComplete (subset_every _)
  · exact h.execDataFlit (subset_every _)
  · exact h.execControlFlit (subset_every _)
  · exact h.execDack (subset_every _)
  · exact h.execDnak (subset_every _)
  · exact h.execCack (subset_every _)
  · exact h.execCnak (subset_every _)
  · exact h.execCredit (subset_every _)
  · exact h.execSyncInc (subset_every _)
  · exact h.execSyncVal (subset_every _)
  · exact h.execTime (subset_every _)
  · exact h.execMeasureRequest (subset_every _)
  · exact h.execMeasureReply (subset_every _)
  · exact h.execJoin (subset_every _)
  · exact h.execAssign (subset_every _)
  · exact h.execLost (subset_every _)
  · exact h.execReattach (subset_every _)
  · exact h.execAttached (subset_every _)
  · exact h.execPorts (subset_every _)
  · exact h.execRefuse (subset_every _)
  · exact h.execInstAck (subset_every _)
  · exact h.execInstRereq (subset_every _)
  · exact h.execInstDone (subset_every _)
  · exact h.execInstFail (subset_every _)
  · exact h.execInstSwitch (subset_every _)
  · exact h.execInstSwitchAck (subset_every _)
  · exact h.execInstClose (subset_every _)
  · exact h.execInstSwitchRec (subset_every _)
  · exact h.execRead (subset_every _)
  · exact h.execWrite (subset_every _)
  · exact h.execReadData (subset_every _)
  · exact h.execWriteAck (subset_every _)
  · exact h.execMgmtReq (subset_every _)
  · exact h.execMgmtResp (subset_every _)
  · exact h.execShard (subset_every _)
  · exact h.execLossOfSignal (subset_every _)
  · exact h.execFlitSilenceTimeout (subset_every _)
  · exact h.execPortDownRequest (subset_every _)
  · exact h.execCometSend (subset_every _)
  · exact h.execCometPatternDetect (subset_every _)
  · exact h.execTrelboWakeActivity (subset_every _)
  · exact h.execPartnerSignalDetect (subset_every _)
  · exact h.execTrainingStateDone (subset_every _)
  · exact h.execTrainingTimeout (subset_every _)
  · exact h.execRetrainWaitExpiry (subset_every _)
  · exact h.execTimeSendInterval (subset_every _)
  · exact h.execTimeHoldover (subset_every _)
  · exact h.execReattachNoAnswer (subset_every _)
  · exact h.execReattachWaitExpiry (subset_every _)
  · exact h.execJoinRetry (subset_every _)
  · exact h.execTimeSet (subset_every _)
  · exact h.execTimeAdj (subset_every _)
  · exact h.execTimeNowRead (subset_every _)
  · exact h.execPpsEdge (subset_every _)
  · exact h.execPstateChange (subset_every _)
  · exact h.execAclkStep (subset_every _)
  · exact h.execAvsVoltageConfirm (subset_every _)
  · exact h.execAvsTimeout (subset_every _)
  · exact h.execEnterIdle (subset_every _)
  · exact h.execEnterDoze (subset_every _)
  · exact h.execEnterPark (subset_every _)
  · exact h.execEnterOff (subset_every _)
  · exact h.execPmeToAck (subset_every _)
  · exact h.execPmeTurnOffTimeout (subset_every _)
  · exact h.execRtcAlarm (subset_every _)
  · exact h.execWakeComplete (subset_every _)
  · exact h.execDomainPowerGate (subset_every _)
  · exact h.execDomainPowerUp (subset_every _)
  · exact h.execDomainClockGate (subset_every _)
  · exact h.execDomainWakeReady (subset_every _)
  · exact h.execPadHoldRelease (subset_every _)
  · exact h.execThermalSample (subset_every _)
  · exact h.execOffThermalSample (subset_every _)
  · exact h.execRailPoll (subset_every _)
  · exact h.execVddAonPowerUp (subset_every _)
  · exact h.execVddAonLoss (subset_every _)
  · exact h.execPwrGoodMainRise (subset_every _)
  · exact h.execPwrGoodTimeout (subset_every _)
  · exact h.execRailRetry (subset_every _)
  · exact h.execPwrGoodMainFall (subset_every _)
  · exact h.execPowerFailRestart (subset_every _)
  · exact h.execRecoveryVerify (subset_every _)
  · exact h.execFwupBegin (subset_every _)
  · exact h.execFwupFinish (subset_every _)
  · exact h.execFwupCancel (subset_every _)
  · exact h.execSvnCommit (subset_every _)
  · exact h.execMeasurementExtend (subset_every _)
  · exact h.execContextMeasurementExtend (subset_every _)
  · exact h.execAttestationRequest (subset_every _)
  · exact h.execRemoteAttestationRequest (subset_every _)
  · exact h.execContextAttestationRequest (subset_every _)
  · exact h.execReportSignStart (subset_every _)
  · exact h.execReportSignDone (subset_every _)
  · exact h.execCertDataRead (subset_every _)
  · exact h.execLogSelect (subset_every _)
  · exact h.execPcieLinkUp (subset_every _)
  · exact h.execPcieCompletionTimeout (subset_every _)
  · exact h.execAbortedRecordDropTimeout (subset_every _)
  · exact h.execEntryStepDone (subset_every _)
end State.frame

/-- A step stays in the frame of every part: it keeps the canonical form of the memory, and R336. -/
theorem step_frame {s t : State} (h : step s = .next t) : s.frame State.frame.every t := by
  unfold step at h
  split at h
  case h_1 =>
    rw [← Host.Outcome.next.inj h]
    exact (State.frame.refl _ s).tick (State.frame.subset_every _)
  case h_2 c rest _ =>
    have h0 : s.frame State.frame.every { s with pending := rest } :=
      .of_parts (fun p hp => absurd (State.frame.subset_every [p] (by simp)) hp) (.inl rfl) (.inl rfl)
    exact h0.exec.get h

/-- Settles O5: no operation takes the memory out of its canonical form. -/
theorem stepKeepsMemory : Obligations.StepKeepsMemory := by
  unfold Obligations.StepKeepsMemory
  exact fun s t hs h => (step_frame h).memOk hs

/-- Settles O6: R336 is a part of what the frame of every operation keeps; an entry into Exact mode and an activation ask whether another context
has the bit that they set. -/
theorem stepKeepsOneExact : Obligations.StepKeepsOneExact := by
  unfold Obligations.StepKeepsOneExact
  exact fun s t hs h => (step_frame h).oneExact hs

end Sys2Proof.Machine

end

section
/-! PROOFS. A frame as a record update: the state reached is the one left, with the parts of the frame replaced. -/

namespace Sys2Proof.Machine

open Sys2Proof

/-- Membership in a list of parts, as a value that evaluates. -/
def StatePart.isIn (p : StatePart) (l : List StatePart) : Bool := l.any fun q => q.ctorIdx == p.ctorIdx

theorem StatePart.isIn_of_mem {p : StatePart} {l : List StatePart} (h : p ∈ l) : p.isIn l = true := List.any_eq_true.mpr ⟨p, h, by simp⟩

/-- `s` with the parts in `l` taken from `t`. -/
def State.take (l : List StatePart) (s t : State) : State :=
  { pending := bif StatePart.isIn .pending l then t.pending else s.pending, freeCtr := bif StatePart.isIn .freeCtr l then t.freeCtr else s.freeCtr,
    regs := bif StatePart.isIn .regs l then t.regs else s.regs, ctxs := bif StatePart.isIn .ctxs l then t.ctxs else s.ctxs,
    shareAt := bif StatePart.isIn .shareAt l then t.shareAt else s.shareAt, shareTab := bif StatePart.isIn .shareTab l then t.shareTab else s.shareTab,
    running := bif StatePart.isIn .running l then t.running else s.running, sysCnt := bif StatePart.isIn .sysCnt l then t.sysCnt else s.sysCnt,
    mem := bif StatePart.isIn .mem l then t.mem else s.mem, hostMem := bif StatePart.isIn .hostMem l then t.hostMem else s.hostMem,
    deposits := bif StatePart.isIn .deposits l then t.deposits else s.deposits, poison := bif StatePart.isIn .poison l then t.poison else s.poison,
    bch := bif StatePart.isIn .bch l then t.bch else s.bch, flashErr := bif StatePart.isIn .flashErr l then t.flashErr else s.flashErr,
    objs := bif StatePart.isIn .objs l then t.objs else s.objs, pmap := bif StatePart.isIn .pmap l then t.pmap else s.pmap,
    orphans := bif StatePart.isIn .orphans l then t.orphans else s.orphans, quotas := bif StatePart.isIn .quotas l then t.quotas else s.quotas,
    mig := bif StatePart.isIn .mig l then t.mig else s.mig, migWait := bif StatePart.isIn .migWait l then t.migWait else s.migWait,
    bankHost := bif StatePart.isIn .bankHost l then t.bankHost else s.bankHost, bankMgc := bif StatePart.isIn .bankMgc l then t.bankMgc else s.bankMgc,
    models := bif StatePart.isIn .models l then t.models else s.models, blks := bif StatePart.isIn .blks l then t.blks else s.blks,
    fpc := bif StatePart.isIn .fpc l then t.fpc else s.fpc, sectors := bif StatePart.isIn .sectors l then t.sectors else s.sectors,
    inst := bif StatePart.isIn .inst l then t.inst else s.inst, armings := bif StatePart.isIn .armings l then t.armings else s.armings,
    tsets := bif StatePart.isIn .tsets l then t.tsets else s.tsets, tiles := bif StatePart.isIn .tiles l then t.tiles else s.tiles,
    cells := bif StatePart.isIn .cells l then t.cells else s.cells, link := bif StatePart.isIn .link l then t.link else s.link,
    time := bif StatePart.isIn .time l then t.time else s.time, pwr := bif StatePart.isIn .pwr l then t.pwr else s.pwr,
    pcie := bif StatePart.isIn .pcie l then t.pcie else s.pcie, aptWait := bif StatePart.isIn .aptWait l then t.aptWait else s.aptWait,
    sec := bif StatePart.isIn .sec l then t.sec else s.sec, fac := bif StatePart.isIn .fac l then t.fac else s.fac,
    log := bif StatePart.isIn .log l then t.log else s.log, logNext := bif StatePart.isIn .logNext l then t.logNext else s.logNext,
    out := bif StatePart.isIn .out l then t.out else s.out }

theorem StatePart.bif_isIn {α : Type} {p : StatePart} {l : List StatePart} {a b : α} (h : p ∉ l → a = b) : a = bif p.isIn l then a else b := by
  by_cases hp : p ∈ l
  · rw [StatePart.isIn_of_mem hp, cond_true]
  · rw [h hp, Bool.cond_self]

theorem State.frame.eq_take {l : List StatePart} {s t : State} (h : s.frame l t) : t = s.take l t := by
  have hsame := h.same
  clear h
  obtain ⟨⟩ := t
  unfold State.take
  congr 1
  all_goals exact StatePart.bif_isIn fun hp => hsame _ hp

end Sys2Proof.Machine
end

section
/-! PROOFS. The step, the reset, and device time (R336, R367 to R370). -/

namespace Sys2Proof.Machine

set_option Elab.async false

open Sys2Proof

/-! ### The reset state -/

theorem State.reset_ctx (c : CtxId) : State.reset.ctx c = {} := by simp [State.ctx, State.reset]

theorem State.reset_port (p : PortId) : State.reset.port p = {} := by simp [State.port, State.reset]

theorem State.reset_queue (c : CtxId) (e : Engine) : State.reset.queue c e = {} := by simp [State.queue, State.reset_ctx]

theorem State.reset_peek (k : Nat) : State.reset.peek k = (0, false) := by
  simp [State.peek, State.reset, State.wordErr, State.isPoison, deliverByte, SMap.get]

/-- Settles O1: what `step` does with a command in its queue. -/
theorem stepRunsFront : Obligations.StepRunsFront := by
  unfold Obligations.StepRunsFront
  intro c rest s h
  simp only [step, h]

/-- Settles O3: each part of the reset state, read off its definition. -/
theorem resetValues : Obligations.ResetValues := by
  unfold Obligations.ResetValues
  refine ⟨fun off => rfl, State.reset_peek, rfl, rfl, fun c e => State.reset_queue c e, fun i => rfl, fun i => rfl, rfl, fun p => ?_, rfl, rfl,
    rfl, rfl⟩
  rw [State.reset_port]

/-- Settles O4: no byte is listed, and no context has an Exact bit. -/
theorem invReset : Obligations.InvReset := by
  unfold Obligations.InvReset
  refine ⟨rfl, fun c d hc => ?_, fun c d hc => ?_⟩
  · simp [State.reset_ctx] at hc
  · simp [State.reset_ctx] at hc

end Sys2Proof.Machine
end

section
namespace Sys2Proof.Machine
set_option Elab.async false

open Sys2Proof

/-! ### One cycle of CLK_CTL -/

/-- What the fine time reads after it is set. -/
theorem TimeSt.fine_setFine (t : TimeSt) (v : Int) : (t.setFine v).fine = v % 2 ^ 96 := by
  simp only [TimeSt.fine, TimeSt.setFine, BitVec.toNat_ofInt]
  omega

variable (s : State)

theorem State.timeTick_of_no_slew (hset : s.time.pendingSet = none) (hslew : s.time.slew = 0) (hhold : s.time.holdover = false) :
    s.timeTick = { s with time := { s.time.setFine (s.time.fine + s.timeRate) with slew := 0 } } := by
  have hstep : 0 ≤ s.slewStep := by
    unfold State.slewStep
    split
    · decide
    · decide
    · decide
    · decide
  have hd : clampInt (-s.slewStep) s.slewStep 0 = 0 := by
    unfold clampInt
    omega
  have hheld : s.heldRate = 0 := by simp [State.heldRate, hhold]
  simp [State.timeTick, hset, hslew, hd, hheld]

theorem State.hostDrain_of_none (h : s.aptWait = []) : s.hostDrain = s := by simp [State.hostDrain, h, State.hostGoOn]

theorem State.recordPtrs_of_none (h : ∀ e ∈ s.models, e.2.unrec = none) : s.recordPtrs = s := by
  have hid : s.models.map (fun (e : Nat × Model) => (e.1, { e.2 with unrec := none })) = s.models := by
    rw [List.map_congr_left (g := id), List.map_id]
    rintro ⟨i, m⟩ hm
    have := h _ hm
    cases m
    simp_all
  simp only [State.recordPtrs]
  rw [hid]

theorem State.nullFlits_of_idle (h : ∀ p, (s.port p).state ≠ .active ∧ (s.port p).state ≠ .measure) (ps : List PortId) :
    s.nullFlits ps = s := by
  induction ps with
  | nil => rfl
  | cons p ps ih => simpa [State.nullFlits, (h p).1, (h p).2] using ih

/-- The real-time clock in its finest units: 2^−15 s / 375,000,000. -/
def State.rtcFine (u : State) : Nat := (u.fld Reg.pwrRtcNow_sec * 2 ^ 15 + u.fld Reg.pwrRtcNow_sub) * 375000000 + u.pwr.rtcAcc

theorem State.rtcFine_rtcTick : s.rtcTick.rtcFine = (s.rtcFine + s.rtcRate) % (2 ^ 63 * 375000000) := by
  have hsec : s.fld Reg.pwrRtcNow_sec < 2 ^ 48 := wBits_lt _ _ _
  have hsub : s.fld Reg.pwrRtcNow_sub < 2 ^ 15 := wBits_lt _ _ _
  unfold State.rtcTick State.rtcFine
  extract_lets n now s1
  split
  · change (s.fld Reg.pwrRtcNow_sec * 2 ^ 15 + s.fld Reg.pwrRtcNow_sub) * 375000000 + n % 375000000 = _
    omega
  · rw [State.fld_setFld_other _ _ _ _ (.inr (.inl (by decide))), State.fld_setFld_self _ _ _ (by decide), State.fld_setFld_self _ _ _ (by decide)]
    change (now / 32768 % 2 ^ 48 % 2 ^ 48 * 2 ^ 15 + now % 32768 % 2 ^ 15) * 375000000 + n % 375000000 = _
    omega

theorem State.reg_rtcTick_other {off : Nat} (h : off ≠ Reg.pwrRtcNow) : s.rtcTick.reg off = s.reg off := by
  unfold State.rtcTick
  extract_lets n now s1
  split
  · rfl
  · rw [State.reg_setFld_other _ _ _ _ h, State.reg_setFld_other _ _ _ _ h]
    rfl

theorem State.rtcTick_eq : s.rtcTick = { s with regs := s.rtcTick.regs, pwr := { s.pwr with rtcAcc := s.rtcTick.pwr.rtcAcc } } := by
  unfold State.rtcTick
  extract_lets n now s1
  split
  · rfl
  · rfl

theorem State.ppsFall_eq : s.ppsFall = { s with time := { s.time with ppsHigh := s.ppsFall.time.ppsHigh } } := by
  unfold State.ppsFall
  split
  · rfl
  · rfl

/-- A cycle in which nothing waits: the two clocks go on, and the wake events of the cycle before are past. -/
theorem State.tick_idle (hdoms : s.pwr.doms = []) (hapt : s.aptWait = [])
    (hports : ∀ p, (s.port p).state ≠ .active ∧ (s.port p).state ≠ .measure) (hrec : ∀ e ∈ s.models, e.2.unrec = none) :
    s.tick = (s.timeTick.ppsFall.rtcTick).updPwr (fun x => { x with wakeSeen := none }) := by
  have hf : s.frame [.time, .regs, .pwr] ((s.timeTick.ppsFall.rtcTick).updPwr (fun x => { x with wakeSeen := none })) :=
    (State.frame.refl _ s).timeTick.ppsFall.rtcTick.updPwr
  have hp : ((s.timeTick.ppsFall.rtcTick).updPwr (fun x => { x with wakeSeen := none })).pwr.doms = s.pwr.doms := by
    have hpwr : s.timeTick.ppsFall.pwr = s.pwr := ((State.frame.refl [.time] s).timeTick.ppsFall).pwr_eq
    exact (congrArg (·.pwr.doms) s.timeTick.ppsFall.rtcTick_eq).trans (congrArg Pwr.doms hpwr)
  unfold State.tick
  generalize (s.timeTick.ppsFall.rtcTick).updPwr (fun x => { x with wakeSeen := none }) = u at hf hp ⊢
  have hlink : u.link = s.link := hf.link_eq
  simp only [hp, hdoms, SMap.keys, List.map_nil, List.foldl_nil]
  rw [u.hostDrain_of_none (hf.aptWait_eq.trans hapt), u.recordPtrs_of_none (by rwa [hf.models_eq]), u.nullFlits_of_idle]
  simpa only [State.port, hlink] using hports

/-- Settles O2: a cycle in which nothing waits is that of the two clocks. -/
theorem stepIdle : Obligations.StepIdle := by
  unfold Obligations.StepIdle
  intro s hpend hmode hset hslew hhold hdoms hapt hports hrec rtc
  have hstep : step s = .next s.tick := by simp only [step, hpend]
  have htick := s.tick_idle hdoms hapt hports hrec
  have htime := s.timeTick_of_no_slew hset hslew hhold
  have hrate : s.timeRate = 2 * 2 ^ 32 + 0xAAAAAAAB + s.trim := by simp [State.timeRate, hmode]
  have hrtc : s.rtcRate = 32768 := by simp [State.rtcRate, hmode]
  refine ⟨s.tick, hstep, ?_, ?_, ?_, fun off hoff => ?_⟩
  · rw [htick, State.rtcTick_eq, State.ppsFall_eq, htime]
    rfl
  · rw [htick, State.rtcTick_eq, State.ppsFall_eq, htime, ← hrate]
    exact TimeSt.fine_setFine s.time (s.time.fine + s.timeRate)
  · rw [htick]
    have h1 := State.rtcFine_rtcTick s.timeTick.ppsFall
    have h2 : s.timeTick.ppsFall.rtcFine = s.rtcFine := by
      rw [State.ppsFall_eq, htime]
      rfl
    have h3 : s.timeTick.ppsFall.rtcRate = s.rtcRate := by
      rw [State.ppsFall_eq, htime]
      rfl
    rw [h2, h3, hrtc] at h1
    exact h1
  · rw [htick]
    change s.timeTick.ppsFall.rtcTick.reg off = s.reg off
    rw [State.reg_rtcTick_other _ hoff, State.ppsFall_eq, htime]
    rfl

/-! ### Reads that act (R426, R432, R441, R449) -/

section
variable {fn : Fin 16} {off : Nat} {recov : Bool} {acc : HostAcc} {f : State → State}

theorem State.actingRead_untaken (h : s.up = false ∨ s.pcie.d3.getLsbD fn.val = true) : s.actingRead fn off recov acc f = s := by
  rcases h with h | h
  · simp [State.actingRead, h]
  · simp [State.actingRead, h]

variable (hup : s.up = true) (hd3 : s.pcie.d3.getLsbD fn.val = false)
include hup hd3

theorem State.actingRead_zero (h : s.flag Reg.devStatus_ready = false ∨ (s.inRecovery = true ∧ recov = false)) :
    s.actingRead fn off recov acc f = s.emit (.readVal off 0) := by
  rcases h with h | ⟨h, hr⟩
  · rw [State.actingRead, hup, hd3, h]
    rfl
  · rw [State.actingRead, hup, hd3, h, hr, Bool.not_false, Bool.and_true, Bool.or_true]
    rfl

theorem State.actingRead_ready (hready : s.flag Reg.devStatus_ready = true) (hrec : s.inRecovery = false ∨ recov = true) :
    s.actingRead fn off recov acc f = if s.hostBehind fn then s.putOff acc else f s := by
  rcases hrec with h | h
  · rw [State.actingRead, hup, hd3, hready, h]
    rfl
  · rw [State.actingRead, hup, hd3, hready, h, Bool.not_true, Bool.and_false]
    rfl

end

/-! ### Device time -/

theorem signed_toInt (v : W64) : signed 32 (wBits v 0 32) = (v.setWidth 32).toInt := by
  have hb : wBits v 0 32 = (v.setWidth 32).toNat := by simp [wBits, bitsOf]
  rw [hb, BitVec.toInt_eq_toNat_cond]
  unfold signed
  have hlt := (v.setWidth 32).isLt
  split <;> split <;> omega

/-- Settles O7: the arms of the four commands. -/
theorem deviceTimeCommands : Obligations.DeviceTimeCommands := by
  unfold Obligations.DeviceTimeCommands
  refine ⟨fun v s hmoon => ⟨⟨s.timeSetTo v, rfl, ?_⟩, s.timeAdjBy v, rfl, ?_⟩, fun s => ⟨fun hup hd3 => ⟨fun hready hrec hbehind => ?_,
    fun hready hrec hbehind => ?_, fun hnot => ?_⟩, fun hoff => ?_, fun hen hrun hns => ⟨s.ppsEdge, rfl, ?_⟩⟩⟩
  · simp [State.timeSetTo, hmoon, State.timeTick]
  · rw [State.timeAdjBy, hmoon, signed_toInt]
    exact ⟨rfl, rfl, rfl⟩
  · refine ⟨s.timeNowRead, ?_, rfl, rfl, rfl, rfl⟩
    refine congrArg Host.Outcome.next ((s.actingRead_ready hup hd3 hready (.inl hrec)).trans ?_)
    rw [hbehind]
    rfl
  · refine congrArg Host.Outcome.next ((s.actingRead_ready hup hd3 hready (.inl hrec)).trans ?_)
    rw [hbehind]
    rfl
  · exact congrArg Host.Outcome.next (s.actingRead_zero hup hd3 (hnot.imp_right fun h => ⟨h, rfl⟩))
  · exact congrArg Host.Outcome.next (s.actingRead_untaken hoff)
  · have hstep : s.ppsEdge = { s with time := { s.time with ppsHigh := true }, out := s.out ++ [.pps] } := by
      simp [State.ppsEdge, hen, hrun, hns, State.emit]
    rw [hstep]
    refine ⟨rfl, rfl, ?_, rfl⟩
    change (true && s.flag Reg.timeOutCfg_ppsEn && s.outsRun) = true
    rw [hen, hrun]
    rfl

end Sys2Proof.Machine
end

section
/-! PROOFS. P-states and entries (R396, R403 to R406, R413). -/

namespace Sys2Proof.Machine

set_option Elab.async false

open Sys2Proof

variable {s : State}

theorem State.quiet.not_busy (h : s.quiet) : s.pwr.busy = false := by
  obtain ⟨hentry, hexit, hramp⟩ := h
  simp [Pwr.busy, hentry, hexit, hramp]

theorem State.toPState_run {n : Nat} (hmode : s.pwr.mode = .run) (hq : s.quiet) : s.toPState n = s.pstateStart n := by
  simp [State.toPState, hq.1, hq.not_busy, hmode]

theorem State.wakeDom_endpoint (s : State) : ∃ doms, s.wakeDom epDom = { s with pwr := { s.pwr with doms := doms } } := by
  unfold State.wakeDom
  split
  · exact ⟨_, rfl⟩
  · exact ⟨_, rfl⟩
  · split
    · exact ⟨_, rfl⟩
    · exact ⟨_, rfl⟩
  · exact ⟨_, rfl⟩

/-- A message leaves or stays pending; the endpoint's domain may wake. -/
theorem State.sendMsix_parts (s : State) (fn : Fin 16) (v : Nat) :
    ∃ pcie out doms, s.sendMsix fn v = { s with pcie := pcie, out := out, pwr := { s.pwr with doms := doms } } := by
  unfold State.sendMsix
  split
  · exact ⟨_, _, _, rfl⟩
  split
  · exact ⟨_, _, _, rfl⟩
  split
  · exact ⟨_, _, _, rfl⟩
  · obtain ⟨doms, h⟩ := State.wakeDom_endpoint
      { s with pcie := { s.pcie with pend := SMap.put false s.pcie.pend (fn.val * 128 + v) true } }
    exact ⟨_, _, doms, h⟩

theorem State.pwrAlert_parts (s : State) :
    ∃ pcie out doms, s.pwrAlert = { s with pcie := pcie, out := out, pwr := { s.pwr with doms := doms } } := by
  unfold State.pwrAlert
  split
  · exact s.sendMsix_parts _ _
  · exact ⟨_, _, _, rfl⟩

theorem State.aclkStep_of_ramp {r : Ramp} (hr : s.pwr.ramp = some r) (hwait : r.waitVolt = false) (hexit : s.pwr.exiting = false)
    (hentry : s.pwr.entry = none) :
    s.aclkStep = { s with pwr := s.aclkStep.pwr, out := s.aclkStep.out } ∧
      s.aclkStep.pwr.aclk = (if r.raising then s.pwr.aclk + 1 else s.pwr.aclk - 1) ∧
      s.aclkStep.pwr.pstate = (if s.aclkStep.pwr.aclk = 5 - r.target then r.target else s.pwr.pstate) := by
  have hgo : ¬(r.waitVolt = true ∨ s.pwr.exiting = true ∨ s.pwr.entry.isSome = true) := by simp [hwait, hexit, hentry]
  refine ⟨(State.frame.refl [.pwr, .out] s).aclkStep.eq_take, ?_⟩
  generalize ht : s.aclkStep = t
  simp only [State.aclkStep, hr, if_neg hgo] at ht
  generalize (if r.raising = true then s.pwr.aclk + 1 else s.pwr.aclk - 1) = a at ht ⊢
  split at ht
  next ha =>
    change ¬a = 5 - r.target at ha
    have hp : s.pwr.pstate = if a = 5 - r.target then r.target else s.pwr.pstate := by rw [if_neg ha]
    subst ht
    exact ⟨rfl, hp⟩
  next ha =>
    change ¬¬a = 5 - r.target at ha
    have hp : r.target = if a = 5 - r.target then r.target else s.pwr.pstate := by rw [if_pos (not_not.mp ha)]
    split at ht
    · subst ht
      exact ⟨rfl, hp⟩
    · subst ht
      exact ⟨rfl, hp⟩

/-- Settles O8: the arms of the commands, with what an alert message changes. -/
theorem pStateChange : Obligations.PStateChange := by
  unfold Obligations.PStateChange
  refine ⟨fun n s hmode hq hn => ?_, fun n s hmode hq hn => ?_, fun r s hr hwait hexit hentry =>
    ⟨s.aclkStep, rfl, State.aclkStep_of_ramp hr hwait hexit hentry⟩, fun r s hr hwait hraise hexit hentry => ?_, fun r s hr hwait => ?_⟩
  · have hstep : s.toPState n = s.askVolt n true := by rw [State.toPState_run hmode hq, State.pstateStart, if_neg (by omega), if_pos hn]
    exact ⟨s.askVolt n true, congrArg Host.Outcome.next hstep, rfl, rfl, rfl⟩
  · have hstep : s.toPState n = s.updPwr (fun x => { x with ramp := some { target := n, raising := false, waitVolt := false } }) := by
      rw [State.toPState_run hmode hq, State.pstateStart, if_neg (by omega), if_neg (by omega)]
    exact ⟨_, congrArg Host.Outcome.next hstep, rfl, rfl⟩
  · refine congrArg Host.Outcome.next ?_
    simp [State.voltConfirm, hr, hwait, hraise, hexit, hentry, State.updPwr]
  · have hstep : s.voltTimeout = (s.updPwr (fun x =>
        { x with ramp := none, fail := 1, vddOk := false, wakeState := if x.exiting then x.heldState else x.wakeState })).pwrAlert := by
      simp [State.voltTimeout, hr, hwait]
    obtain ⟨pcie, out, doms, hparts⟩ := (s.updPwr (fun x =>
      { x with ramp := none, fail := 1, vddOk := false, wakeState := if x.exiting then x.heldState else x.wakeState })).pwrAlert_parts
    exact ⟨_, congrArg Host.Outcome.next (hstep.trans hparts), rfl, rfl, rfl, rfl, rfl, rfl⟩

end Sys2Proof.Machine
end
section
namespace Sys2Proof.Machine
open Sys2Proof

variable {s : State}

/-! ### Entries (R404 to R406) -/

variable {e : EntrySeq}

theorem State.entryStepDone_ready (hentry : s.pwr.entry = some e) (hready : s.stepReady e.step = true) :
    exec .entryStepDone s = .next (s.stepEnd e) := by
  change Host.Outcome.next (match s.pwr.entry with
    | none => s
    | some e => if s.stepReady e.step then s.stepEnd e else if e.step = 4 ∧ !e.written then s.writeBackAll e.target else s) = _
  rw [hentry]
  exact congrArg Host.Outcome.next (if_pos hready)

theorem State.stepEnd_abandons {src : Nat} {p : Option Nat} (habandon : e.abandon = some (src, p)) (hstep : e.step < 7) :
    s.stepEnd e = s.abandon e p := by
  simp [State.stepEnd, habandon, hstep]

/-- In an entry to IDLE nothing has been stopped: the abandonment only ends the sequence. -/
theorem State.abandon_idle (htarget : e.target = .idle) :
    s.abandon e none = (s.updPwr (fun x => { x with entry := none, wakeSeen := none })).addFld Reg.pwrStatus_abandoned 1 := by
  simp [State.abandon, State.stepApplies, htarget]

/-- Step 1 of an entry to IDLE that a wake event has met. -/
def metEntry : EntrySeq := { target := .idle, step := 1, fromMode := .run, wake := 3, abandon := some (6, none) }

/-- Such an entry, with all 15 bits of PWR_STATUS.abandoned set. -/
def manyAbandoned : State :=
  { State.reset with pwr := { State.reset.pwr with entry := some metEntry }, regs := [(Reg.pwrStatus_abandoned.off, 0xFFFE0000)] }

theorem manyAbandoned_count : manyAbandoned.fld Reg.pwrStatus_abandoned = 32767 := by decide

theorem manyAbandoned_step : ∃ t, exec .entryStepDone manyAbandoned = .next t ∧ t.fld Reg.pwrStatus_abandoned = 32767 := by
  refine ⟨_, (State.entryStepDone_ready (e := metEntry) rfl rfl).trans (congrArg _ ((State.stepEnd_abandons rfl (by decide)).trans
    (State.abandon_idle rfl))), ?_⟩
  rw [State.fld_addFld_self _ _ _ (by decide)]
  change min (2 ^ 15 - 1) (manyAbandoned.fld Reg.pwrStatus_abandoned + 1) = 32767
  rw [manyAbandoned_count]
  rfl

/-- Refutes O9: PWR_STATUS.abandoned is a field of 15 bits, and saturates at 32,767, where the statement has it go on to 65,535. -/
theorem not_entrySequence : ¬ Obligations.EntrySequence := by
  unfold Obligations.EntrySequence
  rintro ⟨-, hsteps, -⟩
  obtain ⟨t, ht, -, -, hcount⟩ := (hsteps metEntry manyAbandoned rfl rfl rfl).2 6 rfl (.inl rfl)
  obtain ⟨u, hu, hsame⟩ := manyAbandoned_step
  rw [Host.Outcome.next.inj (ht.symm.trans hu), hsame, manyAbandoned_count] at hcount
  exact absurd hcount (by decide)

end Sys2Proof.Machine
end

section
/-! PROOFS. Wake events and exits (R402, R408 to R410). -/

namespace Sys2Proof.Machine

set_option Elab.async false

open Sys2Proof

variable {s : State}

theorem State.reg_congr {s t : State} (h : t.regs = s.regs) (off : Nat) : t.reg off = s.reg off := by simp only [State.reg, h]

theorem State.fld_congr {s t : State} (h : t.regs = s.regs) (f : Fld) : t.fld f = s.fld f := by simp only [State.fld, State.reg_congr h]

/-- What PWR_LAST_WAKE shows of an event. -/
def lastWakeWord (source port code during step count sec : Nat) : W64 :=
  wordOf [(Reg.pwrLastWake_source, source), (Reg.pwrLastWake_port, port), (Reg.pwrLastWake_from, code), (Reg.pwrLastWake_duringEntry, during),
    (Reg.pwrLastWake_step, step), (Reg.pwrLastWake_count, count), (Reg.pwrLastWake_rtcSec, sec)]

theorem wordOf_toNat (fs : List (Fld × Nat)) : (wordOf fs).toNat = (fs.map fun p => p.1.put p.2).sum % 2 ^ 64 := BitVec.toNat_ofNat _ _

theorem lastWakeWord_toNat (source port code during step count sec : Nat) :
    (lastWakeWord source port code during step count sec).toNat =
      source % 16 + 16 * (port % 8) + 128 * (code % 8) + 1024 * (during % 2) + 2048 * (step % 16) + 65536 * (count % 65536) +
        4294967296 * (sec % 4294967296) := by
  have word : ∀ fs : List (Fld × Nat), (fs.map fun p => p.1.put p.2) = [source % 2 ^ 4 * 2 ^ 0, port % 2 ^ 3 * 2 ^ 4, code % 2 ^ 3 * 2 ^ 7,
      during % 2 ^ 1 * 2 ^ 10, step % 2 ^ 4 * 2 ^ 11, count % 2 ^ 16 * 2 ^ 16, sec % 2 ^ 32 * 2 ^ 32] → (wordOf fs).toNat =
      source % 16 + 16 * (port % 8) + 128 * (code % 8) + 1024 * (during % 2) + 2048 * (step % 16) + 65536 * (count % 65536) +
        4294967296 * (sec % 4294967296) := by
    intro fs hsum
    rw [wordOf_toNat, hsum, List.sum_cons, List.sum_cons, List.sum_cons, List.sum_cons, List.sum_cons, List.sum_cons, List.sum_cons, List.sum_nil]
    omega
  exact word _ rfl

theorem lastWakeWord_fields (source port code during step count sec : Nat) :
    wBits (lastWakeWord source port code during step count sec) 0 4 = source % 16 ∧
    wBits (lastWakeWord source port code during step count sec) 4 3 = port % 8 ∧
    wBits (lastWakeWord source port code during step count sec) 7 3 = code % 8 ∧
    wBits (lastWakeWord source port code during step count sec) 16 16 = count % 65536 := by
  simp only [wBits, bitsOf, lastWakeWord_toNat]
  omega

/-- The word of an event that arrives in the state `s`. -/
def State.lastWake (s : State) (source port : Nat) : W64 :=
  lastWakeWord source port s.pwr.code (b2n s.pwr.entry.isSome) ((s.pwr.entry.map (·.step)).getD 0) s.wakeCount (s.fld Reg.pwrRtcNow_sec)

theorem State.noteWake_first {source port : Nat} (h : s.pwr.wakeSeen.any (fun k => decide (k ≤ source)) = false) :
    s.noteWake source port = { s.setReg Reg.pwrLastWake (s.lastWake source port) with pwr := { s.pwr with wakeSeen := some source } } := by
  rw [State.noteWake, h]
  rfl

theorem State.noteWake_later {source port k : Nat} (h : s.pwr.wakeSeen = some k) (hk : k ≤ source) : s.noteWake source port = s := by
  simp [State.noteWake, h, hk]

theorem State.startExit_parts (s : State) (source : Nat) :
    ∃ pwr out, s.startExit source = { s with pwr := pwr, out := out } ∧ pwr.exiting = true := by
  unfold State.startExit
  extract_lets s1
  split
  · exact ⟨_, _, rfl, rfl⟩
  · exact ⟨_, _, rfl, rfl⟩

/-- The first wake event of its cycle in IDLE, DOZE or PARK is recorded, and the exit begins. -/
theorem State.wakeEvent_exits {source port : Nat} (hentry : s.pwr.entry = none) (hexit : s.pwr.exiting = false)
    (hmode : s.pwr.mode = .idle ∨ s.pwr.mode = .park) (hseen : s.pwr.wakeSeen = none) :
    ∃ pwr out, s.wakeEvent source port = { s.setReg Reg.pwrLastWake (s.lastWake source port) with pwr := pwr, out := out } ∧
      pwr.exiting = true := by
  have hnote : s.noteWake source port = _ := State.noteWake_first (by rw [hseen]; rfl)
  obtain ⟨pwr, out, hparts, hx⟩ := State.startExit_parts (s.noteWake source port) source
  refine ⟨pwr, out, ?_, hx⟩
  have hgo : s.wakeEvent source port = (s.noteWake source port).startExit source := by
    rcases hmode with h | h
    · simp [State.wakeEvent, hentry, hexit, h]
    · simp [State.wakeEvent, hentry, hexit, h]
  rw [hgo, hparts, hnote]

theorem State.wakeCount_first (h : s.pwr.wakeSeen = none) : s.wakeCount = min 65535 (s.fld Reg.pwrLastWake_count + 1) := by
  simp [State.wakeCount, h, satAdd]

theorem State.wakeCount_later {k : Nat} (h : s.pwr.wakeSeen = some k) : s.wakeCount = s.fld Reg.pwrLastWake_count := by
  simp [State.wakeCount, h]

theorem State.wakeCount_lt : s.wakeCount < 65536 := by
  have hcount : s.fld Reg.pwrLastWake_count < 2 ^ 16 := wBits_lt _ _ _
  unfold State.wakeCount satAdd
  split
  · omega
  · omega

/-- What PWR_LAST_WAKE reads after an event. -/
theorem State.lastWake_fields {t : State} {source port : Nat} (h : t.reg Reg.pwrLastWake = s.lastWake source port) :
    t.fld Reg.pwrLastWake_source = source % 16 ∧ t.fld Reg.pwrLastWake_port = port % 8 ∧ t.fld Reg.pwrLastWake_from = s.pwr.code % 8 ∧
      t.fld Reg.pwrLastWake_count = s.wakeCount := by
  obtain ⟨hsource, hport, hfrom, hcount⟩ := lastWakeWord_fields source port s.pwr.code (b2n s.pwr.entry.isSome)
    ((s.pwr.entry.map (·.step)).getD 0) s.wakeCount (s.fld Reg.pwrRtcNow_sec)
  rw [Nat.mod_eq_of_lt s.wakeCount_lt] at hcount
  refine ⟨?_, ?_, ?_, ?_⟩
  · exact (congrArg (wBits · 0 4) h).trans hsource
  · exact (congrArg (wBits · 4 3) h).trans hport
  · exact (congrArg (wBits · 7 3) h).trans hfrom
  · exact (congrArg (wBits · 16 16) h).trans hcount

theorem State.comet_wakes {p : PortId} (hwakes : s.wakes p = true) (hmode : s.pwr.mode = .park) :
    exec (.cometPatternDetect p) s = .next (s.wakeEvent 4 p.val) := by
  refine congrArg Host.Outcome.next (if_pos ?_)
  simp [hwakes, State.detectors, hmode]

theorem State.activity_wakes {p : PortId} (hwakes : s.wakes p = true) (hport : s.portUp p = true) (hmode : s.pwr.mode = .idle)
    (hentry : s.pwr.entry = none) : exec (.trelboWakeActivity p) s = .next (s.wakeEvent 3 p.val) := by
  have hdet : s.detectors = false := by simp [State.detectors, hmode, hentry]
  refine congrArg Host.Outcome.next ?_
  rw [hwakes, hdet, hport]
  rfl

/-- A further event of the cycle, in an exit under way. -/
theorem State.wakeEvent_exiting {source port k : Nat} (hentry : s.pwr.entry = none) (hexit : s.pwr.exiting = true)
    (hseen : s.pwr.wakeSeen = some k) : s.wakeEvent source port = s.noteWake source port := by
  simp [State.wakeEvent, hentry, hexit, hseen]

theorem State.wakeDone_exits (hexit : s.pwr.exiting = true) (hramp : s.pwr.ramp = none) :
    s.wakeDone.pwr.mode = .run ∧ s.wakeDone.pwr.exiting = false ∧ s.wakeDone.pwr.pstate = s.pwr.wakeState ∧
      s.wakeDone.pwr.aclk = 5 - s.pwr.wakeState := by
  unfold State.wakeDone
  rw [if_neg (by simp [hexit, hramp])]
  extract_lets s1 s2
  have h2 : s2.pwr = { s1.pwr with ramp := s2.pwr.ramp } := by
    simp only [s2]
    split
    · rfl
    · rfl
  have h3 : s2.frame [.link, .fpc] (if s.pwr.mode = .park then s2.portsTrain else s2).resumeErases :=
    (((State.frame.refl _ s2).portsTrain).either (.refl _ s2)).resumeErases
  rw [h3.pwr_eq, h2]
  exact ⟨rfl, rfl, rfl, rfl⟩

/-- The state `t` is reached by an event that is recorded, in an exit. -/
def State.recorded (s t : State) (source port : Nat) : Prop :=
  t = { s with pwr := t.pwr, regs := t.regs, out := t.out } ∧ t.pwr.exiting = true ∧ t.fld Reg.pwrLastWake_source = source % 16 ∧
    t.fld Reg.pwrLastWake_port = port % 8 ∧ t.fld Reg.pwrLastWake_from = s.pwr.code % 8 ∧ t.fld Reg.pwrLastWake_count = s.wakeCount ∧
    ∀ off, off ≠ Reg.pwrLastWake → t.reg off = s.reg off

theorem State.recorded_of_word {u : State} {source port : Nat} {pwr : Pwr} {out : List Out} (hu : s.frame [.regs] u)
    (hword : u.reg Reg.pwrLastWake = s.lastWake source port) (hother : ∀ off, off ≠ Reg.pwrLastWake → u.reg off = s.reg off)
    (hx : pwr.exiting = true) :
    s.recorded { u with pwr := pwr, out := out } source port := by
  obtain ⟨hsource, hport, hfrom, hcount⟩ := State.lastWake_fields (s := s) (source := source) (port := port)
    (t := { u with pwr := pwr, out := out }) ((State.reg_congr rfl _).trans hword)
  have hf : s.frame [.pwr, .regs, .out] { u with pwr := pwr, out := out } := (hu.mono (by simp)).update
  exact ⟨hf.eq_take, hx, hsource, hport, hfrom, hcount, fun off h => (State.reg_congr rfl off).trans (hother off h)⟩

theorem State.recorded_lastWake {source port : Nat} {pwr : Pwr} {out : List Out} (hx : pwr.exiting = true) :
    s.recorded { s.setReg Reg.pwrLastWake (s.lastWake source port) with pwr := pwr, out := out } source port :=
  State.recorded_of_word (State.frame.refl _ s).setReg (s.reg_setReg_self _ _) (fun _ h => s.reg_setReg_other _ h) hx

theorem State.wakeEvent_recorded {source port : Nat} (hentry : s.pwr.entry = none) (hexit : s.pwr.exiting = false)
    (hmode : s.pwr.mode = .idle ∨ s.pwr.mode = .park) (hseen : s.pwr.wakeSeen = none) :
    s.recorded (s.wakeEvent source port) source port := by
  obtain ⟨pwr, out, hparts, hx⟩ := State.wakeEvent_exits (source := source) (port := port) hentry hexit hmode hseen
  rw [hparts]
  exact State.recorded_lastWake hx

theorem State.noteWake_recorded {source port : Nat} (hexit : s.pwr.exiting = true)
    (hseen : s.pwr.wakeSeen.any (fun k => decide (k ≤ source)) = false) : s.recorded (s.noteWake source port) source port := by
  rw [State.noteWake_first hseen]
  exact State.recorded_lastWake hexit

/-- R408: what the alarm does at its second. -/
theorem State.rtcAlarm_fires (hen : s.flag Reg.pwrRtcAlarm_en = true) (hmode : s.pwr.mode = .idle) (hentry : s.pwr.entry = none)
    (hexit : s.pwr.exiting = false) (hseen : s.pwr.wakeSeen = none) (hle : s.fld Reg.pwrRtcNow_sec ≤ s.fld Reg.pwrRtcAlarm_sec) :
    s.rtcAlarm = { s with pwr := s.rtcAlarm.pwr, regs := s.rtcAlarm.regs, out := s.rtcAlarm.out } ∧
      s.rtcAlarm.fld Reg.pwrRtcAlarm_fired = 1 ∧ s.rtcAlarm.fld Reg.pwrRtcNow_sec = s.fld Reg.pwrRtcAlarm_sec ∧
      (s.flag Reg.pwrWakeEn_rtc = true → s.rtcAlarm.pwr.exiting = true ∧ s.rtcAlarm.fld Reg.pwrLastWake_source = 1) := by
  have hsec : s.fld Reg.pwrRtcAlarm_sec < 2 ^ 48 := wBits_lt _ _ _
  have hnot : ¬(!s.flag Reg.pwrRtcAlarm_en || decide (s.pwr.mode = .unpowered) || decide (s.fld Reg.pwrRtcAlarm_sec < s.fld Reg.pwrRtcNow_sec)) =
      true := by simp [hen, hmode, hle]
  unfold State.rtcAlarm
  extract_lets now sec s0 s1
  rw [if_neg hnot]
  have h0 : s.frame [.regs] s0 := (State.frame.refl _ s).setFld.setFld.either (.refl _ s)
  have hnow : s0.fld Reg.pwrRtcNow_sec = s.fld Reg.pwrRtcAlarm_sec := by
    simp only [s0]
    split
    · rw [State.fld_setFld_other _ _ _ _ (.inr (.inl (by decide))), State.fld_setFld_self _ _ _ (by decide)]
      exact Nat.mod_eq_of_lt hsec
    · omega
  have h1 : s.frame [.regs] s1 := h0.setFld
  have hfired1 : s1.fld Reg.pwrRtcAlarm_fired = 1 := State.fld_setFld_self _ _ _ (by decide)
  have hnow1 : s1.fld Reg.pwrRtcNow_sec = s.fld Reg.pwrRtcAlarm_sec :=
    (State.fld_setFld_other _ _ _ _ (.inl (by decide))).trans hnow
  clear_value s1
  split
  next hwake =>
    have hpwr := h1.pwr_eq
    obtain ⟨-, hx, hsource, -, -, -, hother⟩ := State.wakeEvent_recorded (s := s1) (source := 1) (port := 0) (by rw [hpwr, hentry])
      (by rw [hpwr, hexit]) (.inl (by rw [hpwr, hmode])) (by rw [hpwr, hseen])
    have keep : ∀ f : Fld, f.off ≠ Reg.pwrLastWake → (s1.wakeEvent 1 0).fld f = s1.fld f := fun f hf => by
      simp only [State.fld, hother _ hf]
    have hf : s.frame [.pwr, .regs, .out] (s1.wakeEvent 1 0) := (h1.mono (by simp)).wakeEvent
    exact ⟨hf.eq_take, (keep _ (by decide)).trans hfired1, (keep _ (by decide)).trans hnow1, fun _ => ⟨hx, hsource⟩⟩
  next hno =>
    have hf : s.frame [.pwr, .regs, .out] s1 := h1.mono (by simp)
    exact ⟨hf.eq_take, hfired1, hnow1, fun h => absurd h hno⟩

/-- Settles O10: each event is recorded in PWR_LAST_WAKE, and one that may wake the device begins the exit. -/
theorem wakeSources : Obligations.WakeSources := by
  unfold Obligations.WakeSources
  refine ⟨fun s hen hmode hentry hexit hseen => ⟨fun hle => ⟨s.rtcAlarm, rfl, State.rtcAlarm_fires hen hmode hentry hexit hseen hle⟩,
    fun hlt => ?_⟩, ?_, fun p s hwakes hport hmode hentry hexit hseen => ?_, fun s hexit hramp => ?_⟩
  · refine congrArg Host.Outcome.next ?_
    simp [State.rtcAlarm, hlt]
  · intro p s hwakes hmode hentry woken
    have hport : p.val % 8 = p.val := Nat.mod_eq_of_lt p.isLt
    have hcode : s.pwr.code % 8 = 6 := by simp [Pwr.code, hmode]
    refine ⟨fun hexit hseen => ?_, fun k hexit hseen => ⟨fun hk => ?_, fun hk => ?_⟩⟩
    · obtain ⟨hparts, hx, hsource, hp, hfrom, hcount, -⟩ := State.wakeEvent_recorded (source := 4) (port := p.val) hentry hexit (.inr hmode) hseen
      exact ⟨_, State.comet_wakes hwakes hmode, ⟨hparts, hx, hsource, hp.trans hport, hfrom.trans hcode⟩,
        hcount.trans (State.wakeCount_first hseen)⟩
    · exact (State.comet_wakes hwakes hmode).trans (congrArg _ ((State.wakeEvent_exiting hentry hexit hseen).trans
        (State.noteWake_later hseen hk)))
    · have hany : s.pwr.wakeSeen.any (fun j => decide (j ≤ 4)) = false := by simp [hseen, hk]
      obtain ⟨hparts, hx, hsource, hp, hfrom, hcount, -⟩ := State.noteWake_recorded (port := p.val) hexit hany
      exact ⟨_, (State.comet_wakes hwakes hmode).trans (congrArg _ (State.wakeEvent_exiting hentry hexit hseen)),
        ⟨hparts, hx, hsource, hp.trans hport, hfrom.trans hcode⟩, hcount.trans (State.wakeCount_later hseen)⟩
  · have hcode : s.pwr.code % 8 = 4 := by simp [Pwr.code, hmode]
    obtain ⟨hparts, hx, hsource, hp, hfrom, -, -⟩ := State.wakeEvent_recorded (source := 3) (port := p.val) hentry hexit (.inl hmode) hseen
    exact ⟨_, State.activity_wakes hwakes hport hmode hentry, hparts, hx, hsource, hp.trans (Nat.mod_eq_of_lt p.isLt), hfrom.trans hcode⟩
  · obtain ⟨hrun, hex, hpst, haclk⟩ := State.wakeDone_exits hexit hramp
    exact ⟨s.wakeDone, rfl, hrun, hex, hpst, haclk, (State.frame.refl [.pwr, .link, .fpc, .out] s).wakeDone.eq_take⟩

end Sys2Proof.Machine
end

section
/-! PROOFS. Domains that go on (R399, R401). -/

namespace Sys2Proof.Machine

set_option Elab.async false

open Sys2Proof

variable {s : State}

/-! ### Nothing waits for a domain -/

theorem State.tailsGoOn_of_none (h : ∀ c, (s.ctx c).tailBuf = []) (cs : List CtxId) : s.tailsGoOn cs = s := by
  induction cs with
  | nil => rfl
  | cons c cs ih => simpa [State.tailsGoOn, h c, State.tailFlush] using ih

theorem State.reportsGoOn_of_none {os : List FpcOp} (h : ∀ o ∈ os, o.phase ≠ .reporting) : s.reportsGoOn os = s := by
  induction os with
  | nil => rfl
  | cons o os ih =>
    obtain ⟨ho, hos⟩ := List.forall_mem_cons.mp h
    simpa [State.reportsGoOn, ho] using ih hos

theorem State.calm.of_parts {t : State} (h : s.calm) (hapt : t.aptWait = s.aptWait) (hctxs : t.ctxs = s.ctxs) (hfpc : t.fpc = s.fpc) :
    t.calm := by
  obtain ⟨hnone, htails, hreports⟩ := h
  exact ⟨hapt.trans hnone, fun c => (congrArg (fun x => (Vector.get x c).tailBuf) hctxs).trans (htails c), by rwa [hfpc]⟩

/-- What waits for a domain that is no port's and not the endpoint's, when nothing waits. -/
theorem State.domGoesOn_calm {d : Nat} (h : s.calm) (hport : ¬(108 ≤ d ∧ d < 116)) (hhost : ¬(d = epDom ∧ s.pcie.linkUp = true)) :
    s.domGoesOn d = s := by
  obtain ⟨hnone, htails, hreports⟩ := h
  rw [State.domGoesOn, if_neg hport, if_neg hhost, State.tailsGoOn_of_none htails, State.reportsGoOn_of_none hreports,
    State.hostDrain_of_none _ hnone]

/-! ### Poisoned words (R399) -/

theorem State.poisonWords_marks {w : Nat} (ws : List Nat) (h : w ∈ ws ∨ (SMap.get false s.poison w = true ∧ SMap.get 0 s.bch w = 0)) :
    SMap.get false (s.poisonWords ws).poison w = true ∧ SMap.get 0 (s.poisonWords ws).bch w = 0 := by
  induction ws generalizing s with
  | nil => exact h.resolve_left (List.not_mem_nil)
  | cons x ws ih =>
    refine ih ?_
    by_cases hx : w = x
    · subst hx
      exact .inr ⟨SMap.get_put_self false s.poison w true, SMap.get_put_self 0 s.bch w 0⟩
    · rcases h with h | ⟨hp, hb⟩
      · exact .inl ((List.mem_cons.mp h).resolve_left hx)
      · exact .inr ⟨(SMap.get_put_other false s.poison true hx).trans hp, (SMap.get_put_other 0 s.bch 0 hx).trans hb⟩

/-- A byte of a marked word whose bits have no error is delivered poisoned. -/
theorem State.peek_marked {w k : Nat} (hk : k < 8) (hpoison : SMap.get false s.poison w = true) (hbch : SMap.get 0 s.bch w = 0) :
    (s.peek (8 * w + k)).2 = true := by
  have hw : (8 * w + k) / 8 = w := by omega
  simp [State.peek, State.wordErr, State.isPoison, hw, hpoison, hbch, deliverByte]

theorem State.poisonBank_frame (b : Nat) : s.frame [.poison, .bch, .pwr] (s.poisonBank b) := (State.frame.refl _ s).poisonBank

/-- Settles O12: the bank's words are marked as it wakes, and nothing that goes on then writes one of them. -/
theorem gatedBankIsPoisoned : Obligations.GatedBankIsPoisoned := by
  unfold Obligations.GatedBankIsPoisoned
  intro b i w s hdom hi hw hcalm
  have hb := b.isLt
  have hd : (BitVec.ofNat 7 (48 + b.val)).toNat = 48 + b.val := by
    rw [BitVec.toNat_ofNat]
    omega
  have hbank : (s.setDom (48 + b.val) .on).frame [.poison, .bch, .pwr] ((s.setDom (48 + b.val) .on).poisonBank b.val) :=
    State.poisonBank_frame _
  have hcalm' : ((s.setDom (48 + b.val) .on).poisonBank b.val).calm := hcalm.of_parts hbank.aptWait_eq hbank.ctxs_eq hbank.fpc_eq
  have hready : s.domReady (48 + b.val) = (s.setDom (48 + b.val) .on).poisonBank b.val := by
    have hrange : (!false && decide (48 ≤ 48 + b.val) && decide (48 + b.val < 80)) = true := by simp; omega
    rw [State.domReady, hdom]
    dsimp only
    rw [if_pos hrange, Nat.add_sub_cancel_left]
    exact State.domGoesOn_calm hcalm' (by omega) (fun h => absurd h.1 (by unfold epDom; omega))
  refine ⟨_, congrArg Host.Outcome.next ((congrArg s.domReady hd).trans hready), fun k hk => ?_⟩
  obtain ⟨hpoison, hbch⟩ := State.poisonWords_marks (s := s.setDom (48 + b.val) .on) (w := w)
    ((SMap.keys s.objs).flatMap fun j => s.bankWords j b.val) (.inl (List.mem_flatMap.mpr ⟨i, hi, hw⟩))
  exact State.peek_marked hk hpoison hbch

end Sys2Proof.Machine
end

section
/-! PROOFS. Thermal samples and rail polls (R414 to R418). -/

namespace Sys2Proof.Machine

set_option Elab.async false

open Sys2Proof

variable {s : State}

/-- A list written into a map from key `k` on: each of its keys reads its element, every other as before. -/
theorem SMap.get_foldl_put {α β : Type} [DecidableEq α] (d : α) (f : β → α) (i : Nat) (xs : List β) (k : Nat) (m : SMap α) :
    SMap.get d ((xs.zipIdx k).foldl (fun m r => SMap.put d m r.2 (f r.1)) m) i =
      if i < k then SMap.get d m i else ((xs[i - k]?).map f).getD (SMap.get d m i) := by
  induction xs generalizing k m with
  | nil => simp
  | cons x xs ih =>
    rw [List.zipIdx_cons, List.foldl_cons, ih]
    by_cases hlt : i < k
    · rw [if_pos hlt, if_pos (by omega), SMap.get_put_other _ _ _ (by omega)]
    · rw [if_neg hlt]
      by_cases heq : i = k
      · subst heq
        rw [if_pos (by omega), SMap.get_put_self, Nat.sub_self]
        rfl
      · rw [if_neg (by omega), SMap.get_put_other _ _ _ heq, show i - k = i - (k + 1) + 1 by omega, List.getElem?_cons_succ]

/-! ### Thermal samples -/

/-- The readings of a sample, as the sensors are numbered. -/
def readings (temps : List Int) : List (Nat × Int) := ((temps.take 64).zipIdx).map (fun (r : Int × Nat) => (r.2, r.1))

theorem mem_readings {temps : List Int} (hlen : temps.length = 64) {i : Nat} {x : Int} : (i, x) ∈ readings temps ↔ temps[i]? = some x := by
  rw [readings, List.take_of_length_le (by omega)]
  simp [List.mem_map, List.mem_zipIdx_iff_getElem?]

/-- What a sample writes into a map of the sensors. -/
theorem SMap.get_foldl_readings {α : Type} [DecidableEq α] (d : α) (f : Int → α) {temps : List Int} (hlen : temps.length = 64) {i : Nat} {x : Int}
    (h : temps[i]? = some x) (m : SMap α) : SMap.get d ((readings temps).foldl (fun m r => SMap.put d m r.1 (f r.2)) m) i = f x := by
  rw [readings, List.take_of_length_le (by omega), List.foldl_map, SMap.get_foldl_put]
  simp [h]

/-- The state after a sample is recorded. -/
def State.sampled (s : State) (temps : List Int) : State :=
  s.updPwr (fun x => { x with
    sensors := (readings temps).foldl (fun (m : SMap Nat) (r : Nat × Int) => SMap.put 0 m r.1 (unsigned 9 r.2)) x.sensors
    hot := (readings temps).foldl (fun (m : SMap Bool) (r : Nat × Int) => SMap.put false m r.1 (decide (115 ≤ r.2))) x.hot })

theorem State.thermal_eq (temps : List Int) :
    s.thermal temps = match (readings temps).find? (fun r => decide (115 ≤ r.2) && SMap.get false s.pwr.hot r.1) with
      | some r => (if s.alertHit (readings temps) then (s.sampled temps).pwrAlert else s.sampled temps).trip r.1 r.2
      | none => if s.alertHit (readings temps) then (s.sampled temps).pwrAlert else s.sampled temps := rfl

theorem State.thermal_cool {temps : List Int} (hlen : temps.length = 64)
    (hcool : ∀ x ∈ temps, x < 115 ∧ x < (s.fld Reg.pwrThermCfg_alertThr : Int)) : s.thermal temps = s.sampled temps := by
  have hmem : ∀ r ∈ readings temps, r.2 < 115 ∧ r.2 < (s.fld Reg.pwrThermCfg_alertThr : Int) := fun r hr =>
    hcool r.2 (List.mem_of_getElem? ((mem_readings hlen).mp hr))
  have hfind : (readings temps).find? (fun r => decide (115 ≤ r.2) && SMap.get false s.pwr.hot r.1) = none :=
    List.find?_eq_none.mpr fun r hr => by
      have := (hmem r hr).1
      simp; omega
  have halert : s.alertHit (readings temps) = false := List.any_eq_false.mpr fun r hr => by
    have := (hmem r hr).2
    simp; omega
  rw [State.thermal_eq, hfind, halert]
  rfl

theorem State.trip_off (sensor : Nat) (temp : Int) :
    (s.trip sensor temp).pwr.thermTripN = false ∧ (s.trip sensor temp).pwr.mode = .off ∧ (s.trip sensor temp).pwr.pwrEnMain = false :=
  ⟨rfl, rfl, rfl⟩

theorem State.thermal_trips {temps : List Int} (hlen : temps.length = 64) {i : Nat} {x : Int} (hx : temps[i]? = some x) (h115 : 115 ≤ x)
    (hhot : SMap.get false s.pwr.hot i = true) : ∃ u sensor temp, s.thermal temps = State.trip u sensor temp := by
  have hfind : ((readings temps).find? (fun r => decide (115 ≤ r.2) && SMap.get false s.pwr.hot r.1)).isSome = true :=
    List.find?_isSome.mpr ⟨(i, x), (mem_readings hlen).mpr hx, by simp [h115, hhot]⟩
  obtain ⟨r, hr⟩ := Option.isSome_iff_exists.mp hfind
  rw [State.thermal_eq, hr]
  exact ⟨_, _, _, rfl⟩

/-! ### Rail polls -/

/-- What a poll makes of a rail's readings. -/
def Rail.polled (old : Rail) : Option (Nat × Nat × Nat × Bool) → Rail
  | some (mv, ma, mw, fault) => { mv := mv % 2 ^ 16, ma := ma % 2 ^ 20, mw := mw % 2 ^ 24, fault := fault, stale := false }
  | none => { old with stale := true }

theorem State.pollRail_eq (i : Nat) (r : Option (Nat × Nat × Nat × Bool)) :
    s.pollRail i r = s.updPwr (fun x => { x with
      fail := if r.isNone then 3 else x.fail, rails := SMap.put {} x.rails i (Rail.polled (SMap.get {} x.rails i) r) }) := by
  cases r
  · rfl
  · rfl

/-- The rails polled from rail `k` on. -/
def State.pollFrom (s : State) (xs : List (Option (Nat × Nat × Nat × Bool))) (k : Nat) : State :=
  (xs.zipIdx k).foldl (fun (s : State) (r : Option (Nat × Nat × Nat × Bool) × Nat) => s.pollRail r.2 r.1) s

theorem State.pollFrom_cons (x : Option (Nat × Nat × Nat × Bool)) (xs : List (Option (Nat × Nat × Nat × Bool))) (k : Nat) :
    s.pollFrom (x :: xs) k = (s.pollRail k x).pollFrom xs (k + 1) := rfl

theorem State.pollFrom_eq (xs : List (Option (Nat × Nat × Nat × Bool))) (k : Nat) :
    s.pollFrom xs k = { s with pwr := { s.pwr with fail := (s.pollFrom xs k).pwr.fail, rails := (s.pollFrom xs k).pwr.rails } } := by
  induction xs generalizing s k with
  | nil => rfl
  | cons x xs ih =>
    rw [State.pollFrom_cons, ih, State.pollRail_eq]
    rfl

theorem State.pollFrom_keeps {xs : List (Option (Nat × Nat × Nat × Bool))} {k i : Nat} (h : i < k) :
    SMap.get {} (s.pollFrom xs k).pwr.rails i = SMap.get {} s.pwr.rails i := by
  induction xs generalizing s k with
  | nil => rfl
  | cons x xs ih =>
    rw [State.pollFrom_cons, ih (by omega), State.pollRail_eq]
    exact SMap.get_put_other _ _ _ (by omega)

theorem State.pollFrom_fail {xs : List (Option (Nat × Nat × Nat × Bool))} {k : Nat} (h : s.pwr.fail = 3) : (s.pollFrom xs k).pwr.fail = 3 := by
  induction xs generalizing s k with
  | nil => exact h
  | cons x xs ih =>
    rw [State.pollFrom_cons]
    refine ih ?_
    rw [State.pollRail_eq]
    change (if x.isNone = true then 3 else s.pwr.fail) = 3
    split
    · rfl
    · exact h

theorem State.pollFrom_shows {xs : List (Option (Nat × Nat × Nat × Bool))} {k i : Nat} {r : Option (Nat × Nat × Nat × Bool)}
    (h : xs[i]? = some r) : SMap.get {} (s.pollFrom xs k).pwr.rails (k + i) = Rail.polled (SMap.get {} s.pwr.rails (k + i)) r ∧
      (r = none → (s.pollFrom xs k).pwr.fail = 3) := by
  induction xs generalizing s k i with
  | nil => simp at h
  | cons x xs ih =>
    rw [State.pollFrom_cons]
    cases i with
    | zero =>
      obtain rfl : x = r := by simpa using h
      refine ⟨?_, ?_⟩
      · rw [State.pollFrom_keeps (by omega), State.pollRail_eq]
        exact SMap.get_put_self _ _ _ _
      · rintro rfl
        exact State.pollFrom_fail (by rw [State.pollRail_eq]; rfl)
    | succ i =>
      obtain ⟨hrail, hfail⟩ := ih (s := s.pollRail k x) (k := k + 1) (i := i) (by simpa using h)
      refine ⟨?_, hfail⟩
      rw [show k + (i + 1) = k + 1 + i by omega, hrail, State.pollRail_eq]
      exact congrArg (Rail.polled · r) (SMap.get_put_other _ _ _ (by omega))

theorem State.startBoot_cause (s : State) (cause : Nat) : (s.startBoot cause).fld Reg.devStatus_resetCause = cause % 16 :=
  (State.fld_congr (s := s.setFld Reg.devStatus_resetCause cause) (t := s.startBoot cause) rfl _).trans
    (State.fld_setFld_self s Reg.devStatus_resetCause cause (by decide))

/-- Settles O13: samples by the readings they record, polls rail by rail. -/
theorem sensorsAndRails : Obligations.SensorsAndRails := by
  unfold Obligations.SensorsAndRails
  refine ⟨⟨fun temps s hoff hunp hlen => ?_, fun temp s hmode => ?_⟩, fun l s hup hlen => ?_⟩
  · have hexec : exec (.thermalSample temps) s = .next (s.thermal temps) := congrArg Host.Outcome.next (if_neg (by simp [hoff, hunp]))
    refine ⟨fun hcool => ⟨_, hexec.trans (congrArg _ (State.thermal_cool hlen hcool)), rfl, rfl, fun i x hx => ?_⟩, fun i x hx h115 hhot => ?_⟩
    · exact SMap.get_foldl_readings 0 (unsigned 9) hlen hx _
    · obtain ⟨u, sensor, temp, htrip⟩ := State.thermal_trips hlen hx h115 hhot
      exact ⟨_, hexec.trans (congrArg _ htrip), u.trip_off sensor temp⟩
  · intro recorded
    refine ⟨fun htrip hheld hcool => ?_, fun h => congrArg Host.Outcome.next ?_⟩
    · have hgo : s.offThermal temp = ((s.updPwr fun _ => recorded).setFld Reg.pwrTrip_deferred 1).startBoot 6 := by
        rw [State.offThermal, if_pos hmode]
        exact if_pos ⟨by simp [htrip], hheld, hcool⟩
      have hf : s.frame [.pwr, .regs] (s.offThermal temp) := (State.frame.refl _ s).offThermal
      refine ⟨s.offThermal temp, rfl, hf.eq_take, ?_, ?_⟩
      · rw [hgo]
        rfl
      · rw [hgo]
        exact State.startBoot_cause _ 6
    · rw [State.offThermal, if_pos hmode]
      refine if_neg ?_
      rintro ⟨htrip, hheld, hcool⟩
      rcases h with h | h | h
      · simp [h] at htrip
      · simp [h] at hheld
      · omega
  · have hexec : exec (.railPoll l) s = .next (s.railPoll l) := congrArg Host.Outcome.next (if_pos (.inl hup))
    have hpoll : s.railPoll l = (s.pollFrom l 0).updPwr (fun x => { x with mwHist := ((x.mwSum % 2 ^ 24) :: x.mwHist).take 10 }) := by
      rw [State.railPoll, List.take_of_length_le (by omega)]
      rfl
    have hf : s.frame [.pwr] (s.railPoll l) := (State.frame.refl _ s).railPoll
    refine ⟨_, hexec, hf.eq_take, ?_, fun i r hr => ?_⟩
    · rw [hpoll, State.pollFrom_eq]
      rfl
    · obtain ⟨hrail, hfail⟩ := State.pollFrom_shows (s := s) (k := 0) hr
      rw [Nat.zero_add] at hrail
      rw [hpoll]
      cases r with
      | none => exact ⟨hrail, hfail rfl⟩
      | some r => exact hrail

end Sys2Proof.Machine
end

section
/-! PROOFS. The boot (R439 to R449) and the rails (R474 to R476, R488). -/

namespace Sys2Proof.Machine

set_option Elab.async false

open Sys2Proof

variable {s t u : State}

/-! ### Reports into the log -/

/-- A log that only grows, and forgets its oldest entries beyond 1,024. -/
def logGrows (l m : List LogEnt) : Prop := l.length ≤ 1024 → m.length ≤ 1024 ∧ ∃ new k, m = (l ++ new).drop k ∧ k ≤ new.length

theorem logGrows.refl (l : List LogEnt) : logGrows l l := fun h => ⟨h, [], 0, by simp⟩

theorem logGrows.trans {l m n : List LogEnt} (h : logGrows l m) (h' : logGrows m n) : logGrows l n := fun hl => by
  obtain ⟨hm, new, k, rfl, hk⟩ := h hl
  obtain ⟨hn, new', k', rfl, hk'⟩ := h' hm
  refine ⟨hn, new ++ new', k + k', ?_, by simp; omega⟩
  rw [← List.append_assoc, ← List.drop_drop, List.drop_append_of_le_length (show k ≤ (l ++ new).length by simp; omega)]

theorem logGrows.append_last (l : List LogEnt) (e : LogEnt) {n : Nat} (hn : n = 1024) :
    logGrows l ((l ++ [e]).drop ((l ++ [e]).length - n)) := fun hl =>
  ⟨by simp; omega, [e], _, rfl, by simp; omega⟩

/-- What reports and counts of page reads change: counts in registers other than DEV_STATUS, the blocks' read counts, remaps, the log, and the
message that announces an entry. -/
structure State.audits (s t : State) : Prop where
  parts : ∃ regs blks tiles pcie log logNext out doms,
    t = { s with regs := regs, blks := blks, tiles := tiles, pcie := pcie, log := log, logNext := logNext, out := out,
                 pwr := { s.pwr with doms := doms } }
  status : t.reg Reg.devStatus = s.reg Reg.devStatus
  log : logGrows s.log t.log

theorem State.audits.refl (s : State) : s.audits s := ⟨⟨_, _, _, _, _, _, _, _, rfl⟩, State.reg_congr rfl _, logGrows.refl _⟩

theorem State.audits.trans (h : s.audits t) (h' : t.audits u) : s.audits u := by
  obtain ⟨⟨_, _, _, _, _, _, _, _, ht⟩, hreg, hlog⟩ := h
  obtain ⟨⟨_, _, _, _, _, _, _, _, hu⟩, hreg', hlog'⟩ := h'
  refine ⟨?_, hreg'.trans hreg, hlog.trans hlog'⟩
  rw [ht] at hu
  exact ⟨_, _, _, _, _, _, _, _, hu⟩

theorem State.audits.foldl {α : Type} {f : State → α → State} (hf : ∀ s a, State.audits s (f s a)) (l : List α) (s : State) :
    s.audits (l.foldl f s) := by
  induction l generalizing s with
  | nil => exact State.audits.refl s
  | cons a l ih => exact (hf s a).trans (ih _)

theorem State.audits.sendMsix (s : State) (fn : Fin 16) (v : Nat) : s.audits (s.sendMsix fn v) := by
  obtain ⟨pcie, out, doms, h⟩ := s.sendMsix_parts fn v
  rw [h]
  exact ⟨⟨_, _, _, _, _, _, _, _, rfl⟩, State.reg_congr rfl _, logGrows.refl _⟩

theorem State.audits.logged (s : State) {l : List LogEnt} (n : Nat) (h : logGrows s.log l) : s.audits { s with log := l, logNext := n } :=
  ⟨⟨_, _, _, _, _, _, _, _, rfl⟩, State.reg_congr rfl _, h⟩

theorem State.audits.logEvent (s : State) (src code : Nat) (c : Option CtxId) (loc detail : Nat) :
    s.audits (s.logEvent src code c loc detail) := by
  unfold State.logEvent
  extract_lets e l s1
  have h1 : s.audits s1 := .logged s _ (logGrows.append_last s.log e rfl)
  split
  · exact h1.trans (State.audits.sendMsix _ _ _)
  · exact h1

theorem State.audits.setFld (s : State) {f : Fld} (n : Nat) (h : f.off ≠ Reg.devStatus) : s.audits (s.setFld f n) :=
  ⟨⟨_, _, _, _, _, _, _, _, rfl⟩, State.reg_setFld_other _ f n _ h.symm, logGrows.refl _⟩

theorem State.audits.addFld (s : State) {f : Fld} (n : Nat) (h : f.off ≠ Reg.devStatus) : s.audits (s.addFld f n) :=
  ⟨⟨_, _, _, _, _, _, _, _, rfl⟩, State.reg_addFld_other _ f n _ h.symm, logGrows.refl _⟩

theorem State.audits.noteDisturb (s : State) (hit : Bool) (code p : Nat) : s.audits (s.noteDisturb hit code p) := by
  unfold State.noteDisturb
  split
  · exact (State.audits.setFld _ _ (by decide)).trans (State.audits.logEvent _ _ _ _ _ _)
  · exact State.audits.refl s

theorem State.audits.countRead (s : State) (p : Nat) : s.audits (s.countRead p) := by
  unfold State.countRead
  extract_lets b n warn isOver s1
  have h1 : s.audits s1 := ⟨⟨_, _, _, _, _, _, _, _, rfl⟩, State.reg_congr rfl _, logGrows.refl _⟩
  exact (h1.trans (State.audits.noteDisturb _ _ _ _)).trans (State.audits.noteDisturb _ _ _ _)

theorem State.audits.failedWords (s : State) (c : Option CtxId) (p : Nat) (l : List Nat) : s.audits (s.failedWords c p l) := by
  induction l generalizing s with
  | nil => exact State.audits.refl s
  | cons i l ih =>
    unfold State.failedWords
    refine State.audits.trans ?_ (ih _)
    split
    · exact (State.audits.addFld _ _ (by decide)).trans (State.audits.logEvent _ _ _ _ _ _)
    · exact State.audits.refl s

theorem State.audits.pageRead (s : State) (c : Option CtxId) (p : Nat) : s.audits (s.pageRead c p) := by
  unfold State.pageRead
  extract_lets s1 s2
  have h1 : s.audits s1 := State.audits.countRead s p
  have h2 : s1.audits s2 := by
    unfold s2
    split
    · exact State.audits.addFld _ _ (by decide)
    · exact State.audits.refl s1
  exact (h1.trans h2).trans (State.audits.failedWords _ _ _ _)

theorem State.audits.countBoot (s : State) (img : Nat → Nat → Byte) : s.audits (s.countBoot img) :=
  State.audits.foldl (fun s p => State.audits.pageRead s none p) _ s

theorem State.audits.restoreRemaps (s : State) (l : List (Nat × Nat × Nat)) : s.audits (s.restoreRemaps l) := by
  induction l generalizing s with
  | nil => exact State.audits.refl s
  | cons e l ih =>
    obtain ⟨i, j, d⟩ := e
    unfold State.restoreRemaps
    refine State.audits.trans (State.audits.trans ?_ (State.audits.logEvent _ _ _ _ _ _)) (ih _)
    exact ⟨⟨_, _, _, _, _, _, _, _, rfl⟩, State.reg_congr rfl _, logGrows.refl _⟩

theorem State.audits.fld_status (h : s.audits t) {f : Fld} (hf : f.off = Reg.devStatus) : t.fld f = s.fld f := by
  unfold State.fld
  rw [hf, h.status]

/-! ### The measured start of a slot -/

/-- The counters of SEC_BOOT are the same. -/
def Sec.sameCounts (x y : Sec) : Prop := y.expiries = x.expiries ∧ y.streakA = x.streakA ∧ y.streakB = x.streakB

theorem Sec.sameCounts.trans {x y z : Sec} (h : x.sameCounts y) (h' : y.sameCounts z) : x.sameCounts z := by
  obtain ⟨he, ha, hb⟩ := h
  obtain ⟨he', ha', hb'⟩ := h'
  exact ⟨he'.trans he, ha'.trans ha, hb'.trans hb⟩

/-- What the stages of the boot that measure and verify change: the security state, but for its counters, and DEV_STATUS.ready. -/
structure State.measures (s t : State) : Prop where
  parts : t = { s with regs := t.regs, sec := t.sec }
  counts : s.sec.sameCounts t.sec
  cause : t.fld Reg.devStatus_resetCause = s.fld Reg.devStatus_resetCause

theorem State.measures.refl (s : State) : s.measures s := ⟨rfl, ⟨rfl, rfl, rfl⟩, rfl⟩

theorem State.measures.trans (h : s.measures t) (h' : t.measures u) : s.measures u := by
  obtain ⟨ht, hcnt, hcause⟩ := h
  obtain ⟨hu, hcnt', hcause'⟩ := h'
  refine ⟨?_, hcnt.trans hcnt', hcause'.trans hcause⟩
  rw [ht] at hu
  exact hu

theorem State.measures.foldl {α : Type} {f : State → α → State} (hf : ∀ s a, State.measures s (f s a)) (l : List α) (s : State) :
    s.measures (l.foldl f s) := by
  induction l generalizing s with
  | nil => exact State.measures.refl s
  | cons a l ih => exact (hf s a).trans (ih _)

theorem State.measures.ofSec (s : State) {x : Sec} (h : s.sec.sameCounts x) : s.measures { s with sec := x } :=
  ⟨rfl, h, State.fld_congr rfl _⟩

theorem State.measures.extend (s : State) (k : Nat) (d : BitVec 384) : s.measures (s.extend k d) := .ofSec s ⟨rfl, rfl, rfl⟩

theorem State.measures.fails (s : State) : s.measures { s with sec := { s.sec with state := 3 } } := .ofSec s ⟨rfl, rfl, rfl⟩

theorem State.measures.enters (s : State) (slot fallback : Bool) :
    s.measures { s with sec := { s.sec with slot := slot, fallback := fallback } } := .ofSec s ⟨rfl, rfl, rfl⟩

theorem State.measures.runs (s : State) (code : Nat) (version : BitVec 32) (svn rsa slh : Nat) :
    s.measures { s with sec := { s.sec with state := code, version := version, svn := svn, rsaIdx := rsa, slhIdx := slh } } :=
  .ofSec s ⟨rfl, rfl, rfl⟩

theorem State.measures.setReady (s : State) (n : Nat) : s.measures (s.setFld Reg.devStatus_ready n) :=
  ⟨rfl, ⟨rfl, rfl, rfl⟩, State.fld_setFld_other _ _ _ _ (by decide)⟩

theorem State.measures.runImage (s : State) (img : Nat → Byte) (h code : Nat) : s.measures (s.runImage img h code) := by
  unfold State.runImage
  extract_lets s1 s2 x s3
  have h2 : s.measures s2 := (((State.measures.extend s _ _).trans (.extend _ _ _)).trans (.extend _ _ _)).trans (.extend _ _ _)
  have h3 : s2.measures s3 := .runs s2 _ _ _ _ _
  exact (h2.trans h3).trans (State.measures.setReady _ _)

theorem State.measures.slotResult (s : State) (k code : Nat) : s.measures (s.slotResult k code) :=
  .ofSec s (by split <;> exact ⟨rfl, rfl, rfl⟩)

theorem State.measures.romMeasure (s : State) : s.measures s.romMeasure := by
  unfold State.romMeasure
  extract_lets x s1 s2
  have h1 : s.measures s1 := .ofSec s ⟨rfl, rfl, rfl⟩
  have h2 : s1.measures s2 := (State.measures.extend _ _ _).trans (.extend _ _ _)
  refine (h1.trans h2).trans (State.measures.foldl (fun s d => ?_) _ _)
  split
  · exact State.measures.refl s
  · exact State.measures.extend s _ _

theorem State.measures.tryL (s : State) (l : List Nat) : s.measures (s.tryL l) := by
  induction l generalizing s with
  | nil => exact (State.measures.fails s).trans (State.measures.setReady _ 1)
  | cons k l ih =>
    unfold State.tryL
    extract_lets code s1
    have h1 : s.measures s1 := .slotResult s k code
    split
    · exact (h1.trans (.enters s1 _ _)).trans (.runImage _ _ _ _)
    · exact h1.trans (ih s1)

theorem State.ready_setReady (s : State) : (s.setFld Reg.devStatus_ready 1).fld Reg.devStatus_ready = 1 := by
  rw [State.fld_setFld_self s _ _ (by decide)]; rfl

theorem State.ready_runImage (s : State) (img : Nat → Byte) (h code : Nat) : (s.runImage img h code).fld Reg.devStatus_ready = 1 :=
  State.ready_setReady _

theorem State.ready_tryL (s : State) (l : List Nat) : (s.tryL l).fld Reg.devStatus_ready = 1 := by
  induction l generalizing s with
  | nil => exact State.ready_setReady _
  | cons k l ih =>
    unfold State.tryL
    extract_lets code s1
    split
    · exact State.ready_runImage _ _ _ _
    · exact ih s1

/-! ### The boot as a whole -/

/-- What a boot leaves as it stands. -/
structure State.boots (s t : State) : Prop where
  pwr : ∃ doms, t.pwr = { s.pwr with doms := doms }
  link : t.link = s.link
  counts : s.sec.sameCounts t.sec
  cause : t.fld Reg.devStatus_resetCause = s.fld Reg.devStatus_resetCause
  ready : t.fld Reg.devStatus_ready = 1
  log : logGrows s.log t.log

theorem State.boot_boots (s : State) : s.boots s.boot := by
  unfold State.boot
  extract_lets s1 s0 s2
  have h1 : s.measures (s1.tryL s1.bootOrder) := (State.measures.romMeasure s).trans (.tryL _ _)
  have h2 : (s1.tryL s1.bootOrder).audits s2 := (State.audits.countBoot _ _).trans (State.audits.restoreRemaps _ _)
  have hready := State.ready_tryL s1 s1.bootOrder
  generalize s1.tryL s1.bootOrder = v at h1 h2 hready
  obtain ⟨hv, hcnt, hcause⟩ := h1
  have hsame : v.pwr = s.pwr ∧ v.link = s.link ∧ v.log = s.log := by rw [hv]; exact ⟨rfl, rfl, rfl⟩
  obtain ⟨hpwr, hlink, hlog⟩ := hsame
  obtain ⟨_, _, _, _, _, _, _, doms, h2p⟩ := h2.parts
  have h2s : s2.pwr = { v.pwr with doms := doms } ∧ s2.link = v.link ∧ s2.sec = v.sec := by rw [h2p]; exact ⟨rfl, rfl, rfl⟩
  obtain ⟨hpwr2, hlink2, hsec2⟩ := h2s
  refine ⟨⟨doms, hpwr2.trans (by rw [hpwr])⟩, hlink2.trans hlink, ?_, ?_, ?_, hlog ▸ h2.log⟩
  · rw [← hsec2] at hcnt
    exact hcnt
  · exact (h2.fld_status rfl).trans hcause
  · exact (h2.fld_status rfl).trans hready

/-! ### The resets -/

theorem State.scrambleL_pwr (s : State) (v : View) (l : List (Nat × Nat)) : (s.scrambleL v l).pwr = s.pwr := by
  induction l generalizing s with
  | nil => rfl
  | cons r l ih =>
    obtain ⟨a, n⟩ := r
    unfold State.scrambleL
    split
    · exact ih s
    · exact ih s
    · exact ih _

theorem State.scramble_pwr (s : State) (l : List Exec) : (s.scramble l).pwr = s.pwr := by
  induction l generalizing s with
  | nil => rfl
  | cons x l ih => exact (ih _).trans (State.scrambleL_pwr s _ _)

theorem State.wiped_pwr (s : State) : s.wiped.pwr = s.pwr.wiped := by
  have h : ((s.scramble s.running).fpcReset.bootModels (SMap.keys s.models)).pwr = (s.scramble s.running).pwr :=
    (State.frame.refl [.objs, .pmap, .blks, .fpc, .sectors, .tiles, .orphans, .models, .inst, .tsets] _).fpcReset.bootModels.pwr_eq
  exact congrArg Pwr.wiped (h.trans (State.scramble_pwr s _))

/-- Before a reset or a loss of power wipes the state, only memory, flash bookkeeping and models have changed. -/
theorem State.before_wiped (s : State) :
    s.frame [.freeCtr, .mem, .hostMem, .deposits, .poison, .bch, .objs, .link, .pwr, .out, .pmap, .blks, .fpc, .sectors, .tiles,
      .orphans, .models, .inst, .tsets] ((s.scramble s.running).fpcReset.bootModels (SMap.keys s.models)) :=
  (State.frame.refl _ s).scramble.fpcReset.bootModels

theorem State.wiped_sec (s : State) : s.wiped.sec = s.sec.wiped := congrArg Sec.wiped s.before_wiped.sec_eq

theorem State.wiped_log (s : State) : s.wiped.log = s.log := s.before_wiped.log_eq

theorem Sec.sameCounts_wiped (x : Sec) : x.sameCounts x.wiped := ⟨rfl, rfl, rfl⟩

theorem State.enablePorts_status (s : State) (l : List PortId) :
    (l.foldl (fun (s : State) p => s.setFld (Reg.lnkPortCtl_en.port p) 1) s).reg Reg.devStatus = s.reg Reg.devStatus := by
  induction l generalizing s with
  | nil => rfl
  | cons p l ih => exact (ih _).trans (State.reg_setFld_other _ _ _ _ (by
    show 0x20 ≠ 0x900100 + 0x40 * p.val
    omega))

/-- The straps give the role, and no register but the ports' enables changes. -/
theorem State.sampleStraps_parts (s : State) (straps : BitVec 2) :
    (s.sampleStraps straps).pwr = { s.pwr with sysCfg := straps } ∧ (s.sampleStraps straps).link.role = straps.toNat ∧
      (s.sampleStraps straps).reg Reg.devStatus = s.reg Reg.devStatus := by
  unfold State.sampleStraps
  extract_lets r trained l tm w s1
  split
  · have h : s1.frame [.regs] (allPorts.foldl (fun (s : State) p => s.setFld (Reg.lnkPortCtl_en.port p) 1) s1) :=
      (State.frame.refl [.regs] s1).foldl (fun h => h.setFld)
    exact ⟨h.pwr_eq, by rw [h.link_eq], (State.enablePorts_status s1 _).trans (State.reg_congr rfl _)⟩
  · exact ⟨rfl, rfl, State.reg_congr rfl _⟩

/-- What every restart leaves (R439, R441): the cause shown, the role of the straps, the device ready, and what power-independent state it
keeps. -/
structure State.restarts (s t : State) (cause : Nat) (straps : BitVec 2) : Prop where
  pwr : ∃ doms, t.pwr = { s.pwr.wiped with sysCfg := straps, doms := doms }
  role : t.link.role = straps.toNat
  counts : s.sec.sameCounts t.sec
  cause : t.fld Reg.devStatus_resetCause = cause
  ready : t.fld Reg.devStatus_ready = 1
  log : logGrows s.log t.log

theorem State.restart_restarts (s : State) {cause : Nat} (straps : BitVec 2) (hcause : cause < 16) :
    s.restarts (s.restart cause straps) cause straps := by
  unfold State.restart
  have hw : s.wiped.frame [.regs] (s.wiped.setFld Reg.devStatus_resetCause cause) := (State.frame.refl _ _).setFld
  have hc : (s.wiped.setFld Reg.devStatus_resetCause cause).fld Reg.devStatus_resetCause = cause := by
    rw [State.fld_setFld_self s.wiped _ _ (by decide)]
    exact Nat.mod_eq_of_lt hcause
  generalize s.wiped.setFld Reg.devStatus_resetCause cause = v at hw hc
  obtain ⟨hpwr, hrole, hstatus⟩ := v.sampleStraps_parts straps
  have hs : v.frame [.regs, .link, .time, .pwr] (v.sampleStraps straps) := (State.frame.refl _ v).sampleStraps
  generalize v.sampleStraps straps = u at hpwr hrole hstatus hs
  obtain ⟨⟨doms, hb⟩, hlink, hcounts, hcause', hready, hlog⟩ := u.boot_boots
  refine ⟨⟨doms, ?_⟩, ?_, ?_, ?_, hready, ?_⟩
  · rw [hb, hpwr, hw.pwr_eq, s.wiped_pwr]
  · rw [hlink, hrole]
  · rw [hs.sec_eq, hw.sec_eq, s.wiped_sec] at hcounts
    exact (Sec.sameCounts_wiped s.sec).trans hcounts
  · rw [hcause', ← hc]
    unfold State.fld
    exact congrArg (fun r => wBits r _ _) hstatus
  · rw [hs.log_eq, hw.log_eq, s.wiped_log] at hlog
    exact hlog

/-! ### The rails -/

theorem State.coldBoot_restarts (s : State) (straps : BitVec 2) :
    State.restarts { s with pwr := { s.pwr with thermTripN := true } } (s.coldBoot straps) (s.fld Reg.devStatus_resetCause) straps :=
  State.restart_restarts { s with pwr := { s.pwr with thermTripN := true } } straps (Nat.mod_lt _ (by decide))

/-- From the wiped state on, a restart changes only these parts. -/
theorem State.restart_frame (s : State) (cause : Nat) (straps : BitVec 2) :
    s.wiped.frame [.regs, .blks, .tsets, .tiles, .link, .time, .pwr, .pcie, .sec, .log, .logNext, .out] (s.restart cause straps) :=
  (State.frame.refl _ s.wiped).setFld.sampleStraps.boot

/-- A P-state change begins: a ramp stands, unless the state is the present one, and a faster state asks for its voltage first. -/
theorem State.pstateStart_parts (s : State) (n : Nat) :
    ∃ ramp out, s.pstateStart n = { s with pwr := { s.pwr with ramp := ramp }, out := out } ∧ (n = s.pwr.pstate → ramp = s.pwr.ramp) ∧
      (n < s.pwr.pstate → ramp = some { target := n, raising := true, waitVolt := true }) := by
  unfold State.pstateStart
  split
  next h => exact ⟨_, _, rfl, fun _ => rfl, fun hlt => absurd h (Nat.ne_of_lt hlt)⟩
  next h =>
    split
    · exact ⟨_, _, rfl, fun heq => absurd heq h, fun _ => rfl⟩
    next hge => exact ⟨_, _, rfl, fun heq => absurd heq h, fun hlt => absurd hlt hge⟩

/-- PWR_GOOD_MAIN in time: a cold boot, then the change to a faster wake state. -/
theorem State.pwrGood_boots (s : State) (straps : BitVec 2) :
    let t := (s.coldBoot straps).pstateStart s.pwr.wakeState
    t.pwr.mode = .run ∧ t.pwr.pstate = 3 ∧ t.pwr.thermTripN = true ∧ t.link.role = straps.toNat ∧ t.fld Reg.devStatus_ready = 1 ∧
      t.fld Reg.devStatus_resetCause = s.fld Reg.devStatus_resetCause ∧ t.running = [] ∧
      (s.log.length ≤ 1024 → ∃ l k, t.log = (s.log ++ l).drop k ∧ k ≤ l.length) ∧
      (s.pwr.wakeState = 3 → t.pwr.ramp = none) ∧
      (s.pwr.wakeState < 3 → t.pwr.ramp = some { target := s.pwr.wakeState, raising := true, waitVolt := true }) := by
  intro t
  obtain ⟨⟨doms, hpwr⟩, hrole, -, hcause, hready, hlog⟩ := s.coldBoot_restarts straps
  have hrun : (s.coldBoot straps).running = [] := (State.restart_frame _ _ straps).running_eq
  obtain ⟨ramp, out, ht, hsame, hraise⟩ := (s.coldBoot straps).pstateStart_parts s.pwr.wakeState
  change t = _ at ht
  generalize s.coldBoot straps = v at *
  rw [hpwr] at hsame hraise
  rw [ht]
  refine ⟨?_, ?_, ?_, hrole, (State.fld_congr rfl _).trans hready, (State.fld_congr rfl _).trans hcause, hrun,
    fun hl => (hlog hl).2, hsame, hraise⟩ <;> simp only [hpwr] <;> rfl

/-- Settles O14, each event from what a wipe, a cold boot and a loss of the rails leave. -/
theorem rails : Obligations.Rails := by
  unfold Obligations.Rails
  refine fun s => ⟨fun hmode => ?_, fun straps hmode hen => ?_, fun hmode hen => ?_, fun hmode => ?_, fun hpow hen => ⟨fun hrem => ?_, fun hrem => ?_⟩,
    fun hmode hen => ?_, ?_⟩
  · exact ⟨s.aonUp, congrArg Host.Outcome.next (if_pos hmode), rfl, rfl, rfl, rfl, fun off => rfl⟩
  · exact ⟨_, congrArg Host.Outcome.next (if_pos ⟨hmode, hen⟩), s.pwrGood_boots straps⟩
  · exact congrArg Host.Outcome.next (if_pos ⟨hmode, hen⟩)
  · exact congrArg Host.Outcome.next (if_pos hmode)
  · have hgo : ((s.up || decide (s.pwr.mode = .park)) && s.pwr.pwrEnMain && !s.removingRails) = true := by
      simpa [hen, hrem] using hpow
    refine ⟨s.railsLost .rising, congrArg Host.Outcome.next (if_pos hgo), rfl, rfl, rfl, rfl, ?_, s.wiped_log⟩
    exact (congrArg Pwr.trips s.wiped_pwr :)
  · exact congrArg Host.Outcome.next (if_neg (by simp [hrem]))
  · exact ⟨s.startBoot 1, congrArg Host.Outcome.next (if_pos ⟨hmode, by simp [hen]⟩), rfl, rfl, s.startBoot_cause 1⟩
  · exact ⟨s.railsLost .unpowered, rfl, rfl, rfl, rfl⟩

end Sys2Proof.Machine
end

section
/-! PROOFS. A device reset (R439 to R441): why it can change flash bytes in a state with an object of a number beyond the table. -/

namespace Sys2Proof.Machine

set_option Elab.async false

open Sys2Proof

variable {s t u : State}

/-- A command in execution that writes one byte at tensor address 0. -/
def strayExec : Exec := { ctx := 0, eng := .vec, slot := 0, words := [2, 0, 0, 0, 0, 1] }

/-- An object at tensor address 0 whose T0 content lies, by its number, at the keys of flash page 0. -/
def strayObjs : SMap Obj := [(2 ^ 23, { valid := true, size := 1, cp0 := true })]

/-- The byte that a reset writes at the destination of the command in execution. -/
def strayByte : Byte := BitVec.ofNat 8 (Config.freeWord 0).toNat

/-- The state of the refutation: the device is up, one command is in execution, and the flash byte differs from the one the reset writes. -/
def strayState : State := { running := [strayExec], objs := strayObjs, mem := [(kFlash 0 0, strayByte + 1)] }

theorem State.destOf_stray : (s.destOf strayExec).flatMap (fun r => piecesOf r.1 r.2) = [(0, 1)] := rfl

theorem kT0_stray : kT0 (2 ^ 23) 0 = kFlash 0 0 := rfl

theorem State.reach_stray (hobjs : s.objs = strayObjs) (hmodels : s.models = []) :
    s.reach strayExec.view 0 = some (2 ^ 23, { valid := true, size := 1, cp0 := true }, 0) := by
  simp [State.reach, State.translate, State.objAt, hobjs, hmodels, strayObjs, strayExec, Exec.view, Obj.visible, Obj.holds]

theorem State.writePlace_stray (hobjs : s.objs = strayObjs) (hmodels : s.models = []) :
    s.writePlace strayExec.view 0 = some (.t0 (kFlash 0 0)) := by
  rw [State.writePlace, State.reach_stray hobjs hmodels, ← kT0_stray]
  rfl

theorem State.writePiece_stray (hobjs : s.objs = strayObjs) (hmodels : s.models = []) (who : Engine × Nat) (b : SB) :
    SMap.get 0 (s.writePiece strayExec.view who 0 [b]).1.mem (kFlash 0 0) = b.1 := by
  rw [State.writePiece, State.reach_stray hobjs hmodels, State.writePlace_stray hobjs hmodels]
  have h := (State.frame.refl [.objs] ((s.touch (s.memDoms 1 (.t0 (kFlash 0 0)))).store (kFlash 0 0) [b])).markDirty (idx := 2 ^ 23)
  rw [show [b].length = 1 from rfl]
  simp only [h.mem_eq, State.store_mem]
  exact State.pokes_get [b.1] _ (kFlash 0 0) 0 b.1 rfl

theorem State.scramble_stray (hrun : s.running = [strayExec]) (hobjs : s.objs = strayObjs) (hmodels : s.models = []) (hfree : s.freeCtr = 0) :
    SMap.get 0 (s.scramble s.running).mem (kFlash 0 0) = strayByte := by
  rw [hrun, State.scramble, State.destOf_stray]
  simp only [State.scrambleL, State.writePlace_stray hobjs hmodels, State.scramble]
  refine (State.writePiece_stray hobjs hmodels _ _).trans ?_
  rw [hfree]
  rfl

/-- A wipe keeps the flash bytes as they stand once the commands in execution are cut short. -/
theorem State.wiped_flash (s : State) (page off : Nat) (hpage : page < 2 ^ 29) (hoff : off < 16384) :
    SMap.get 0 s.wiped.mem (kFlash page off) = SMap.get 0 (s.scramble s.running).mem (kFlash page off) := by
  have h : ((s.scramble s.running).fpcReset.bootModels (SMap.keys s.models)).mem = (s.scramble s.running).mem :=
    (State.frame.refl [.objs, .pmap, .blks, .fpc, .sectors, .tiles, .orphans, .models, .inst, .tsets] _).fpcReset.bootModels.mem_eq
  have hkey : kFlash page off / 2 ^ 64 = 3 := by unfold kFlash; omega
  calc SMap.get 0 s.wiped.mem (kFlash page off)
      = SMap.get 0 (SMap.keepKeys (fun k => decide (k / 2 ^ 64 = 3)) (s.scramble s.running).mem) (kFlash page off) := by rw [← h]; rfl
    _ = SMap.get 0 (s.scramble s.running).mem (kFlash page off) := by rw [SMap.get_keepKeys, if_pos (by rw [decide_eq_true_eq]; exact hkey)]

theorem State.devReset_stray (straps : BitVec 2) : SMap.get 0 (strayState.devReset 3 straps).mem (kFlash 0 0) = strayByte := by
  have hdev : strayState.devReset 3 straps = (strayState.recordTrips 3 allCtx).restart 3 straps := rfl
  have hs : strayState.frame [.pwr] (strayState.recordTrips 3 allCtx) := (State.frame.refl _ _).recordTrips
  rw [hdev]
  generalize strayState.recordTrips 3 allCtx = v at hs
  rw [(State.restart_frame v 3 straps).mem_eq, State.wiped_flash v 0 0 (by decide) (by decide)]
  exact State.scramble_stray hs.running_eq hs.objs_eq hs.models_eq hs.freeCtr_eq

/-- Refutes O15: the statement is about every state, also one whose table holds an object of number 2^23, the T0 content of which has the keys
of flash page 0; the words that a command in execution was writing there when the reset came are then flash bytes that change. -/
theorem not_deviceReset : ¬ Obligations.DeviceReset := by
  unfold Obligations.DeviceReset
  rintro ⟨h, -⟩
  obtain ⟨-, ⟨t, ht, hbooted⟩, -, -⟩ := h 0 strayState rfl
  obtain rfl : strayState.devReset 3 0 = t := Host.Outcome.next.inj ht
  obtain ⟨-, -, -, -, -, -, -, -, -, -, -, -, hflash⟩ := hbooted
  have hkept := hflash 0 0 (by decide) (by decide)
  rw [State.devReset_stray 0] at hkept
  have hbyte : strayByte = strayByte + 1 := hkept
  simp at hbyte

end Sys2Proof.Machine
end

section
/-! PROOFS. Bit errors of delivered words (R385), and the boot's events (R408, R439, R446 to R449). -/

namespace Sys2Proof.Machine

set_option Elab.async false

open Sys2Proof

variable {s t u : State}

/-- What the count and the report of words with bit errors of one memory change: the memory's counts in TEL_ECC, the log, and the message that
announces an entry. -/
structure State.notes (s : State) (store : Nat) (t : State) : Prop where
  parts : ∃ regs pcie log logNext out doms,
    t = { s with regs := regs, pcie := pcie, log := log, logNext := logNext, out := out, pwr := { s.pwr with doms := doms } }
  others : ∀ off, off ≠ Reg.telEcc + 8 * store → t.reg off = s.reg off

theorem State.notes.refl (s : State) (store : Nat) : s.notes store s := ⟨⟨_, _, _, _, _, _, rfl⟩, fun _ _ => rfl⟩

theorem State.notes.trans {store : Nat} (h : s.notes store t) (h' : t.notes store u) : s.notes store u := by
  obtain ⟨⟨_, _, _, _, _, _, ht⟩, hreg⟩ := h
  obtain ⟨⟨_, _, _, _, _, _, hu⟩, hreg'⟩ := h'
  refine ⟨?_, fun off hoff => (hreg' off hoff).trans (hreg off hoff)⟩
  rw [ht] at hu
  exact ⟨_, _, _, _, _, _, hu⟩

theorem State.notes.sendMsix (s : State) (store : Nat) (fn : Fin 16) (v : Nat) : s.notes store (s.sendMsix fn v) := by
  obtain ⟨pcie, out, doms, h⟩ := s.sendMsix_parts fn v
  rw [h]
  exact ⟨⟨_, _, _, _, _, _, rfl⟩, fun _ _ => State.reg_congr rfl _⟩

theorem State.notes.logged (s : State) (store : Nat) (l : List LogEnt) (n : Nat) : s.notes store { s with log := l, logNext := n } :=
  ⟨⟨_, _, _, _, _, _, rfl⟩, fun _ _ => State.reg_congr rfl _⟩

theorem State.notes.logEvent (s : State) (store src code : Nat) (c : Option CtxId) (loc detail : Nat) :
    s.notes store (s.logEvent src code c loc detail) := by
  unfold State.logEvent
  extract_lets e l s1
  have h1 : s.notes store s1 := .logged s store _ _
  split
  · exact h1.trans (State.notes.sendMsix _ _ _ _)
  · exact h1

theorem State.notes.addFld (s : State) {store : Nat} {f : Fld} (n : Nat) (h : f.off = Reg.telEcc + 8 * store) : s.notes store (s.addFld f n) :=
  ⟨⟨_, _, _, _, _, _, rfl⟩, fun off hoff => State.reg_addFld_other _ f n off (h ▸ hoff)⟩

theorem State.notes.noteErr (s : State) (store : Nat) (c : Option CtxId) (n w loc : Nat) : s.notes store (s.noteErr store c n w loc) := by
  unfold State.noteErr
  split
  · exact .addFld s 1 rfl
  split
  · exact (State.notes.addFld s 1 rfl).trans (.logEvent _ _ _ _ _ _ _)
  · exact .refl s store

theorem State.notes.noteWords (s : State) (store : Nat) (c : Option CtxId) (w loc n : Nat) : s.notes store (s.noteWords store c w loc n) := by
  induction n generalizing s w loc with
  | zero => exact .refl s store
  | succ n ih => exact (State.notes.noteErr s store c _ w loc).trans (ih _ _ _)

theorem State.notes.noteRecovImage (s : State) (code : Nat) : s.notes 0 (s.noteRecovImage code) := by
  unfold State.noteRecovImage
  extract_lets r
  generalize r = l
  induction l generalizing s with
  | nil => exact .refl s 0
  | cons g l ih => exact (State.notes.noteWords s 0 _ _ _ _).trans (ih _)

theorem State.noteRecovImage_clean (h : s.bch = []) (code : Nat) : s.noteRecovImage code = s := by
  unfold State.noteRecovImage
  extract_lets r
  generalize r = l
  induction l with
  | nil => rfl
  | cons g l ih =>
    rw [List.foldl_cons, show s.noteRecov g.1 g.2 = s from State.noteWords_clean s h _ _ _ _ _]
    exact ih

/-! ### The events of the boot -/

theorem State.wakeEvent_off (hmode : s.pwr.mode = .off) (hheld : s.pwr.heldWake = false) (hentry : s.pwr.entry = none)
    (hexit : s.pwr.exiting = false) (source port : Nat) : s.wakeEvent source port = (s.noteWake source port).wakeOff source := by
  simp [State.wakeEvent, hmode, hheld, hentry, hexit]

theorem State.reg_startBoot_other (s : State) (cause : Nat) {k : Nat} (h : k ≠ Reg.devStatus) : (s.startBoot cause).reg k = s.reg k :=
  (State.reg_congr (s := s.setFld Reg.devStatus_resetCause cause) (t := s.startBoot cause) rfl k).trans (State.reg_setFld_other _ _ _ _ h)

/-- A wake by PERST_N in OFF, the first event of its cycle: the cold boot starts with cause 1. -/
theorem State.wakeOff_boots (htherm : s.pwr.thermTripN = true) :
    (s.wakeOff 2).pwr.mode = .rising ∧ (s.wakeOff 2).pwr.pwrEnMain = true ∧ (s.wakeOff 2).fld Reg.devStatus_resetCause = 1 ∧
      (s.wakeOff 2).reg Reg.pwrLastWake = s.reg Reg.pwrLastWake := by
  have h : s.wakeOff 2 = (s.setFld Reg.pwrTrip_deferred 0).startBoot 1 := by simp [State.wakeOff, htherm]
  rw [h]
  refine ⟨rfl, rfl, State.startBoot_cause _ 1, ?_⟩
  rw [State.reg_startBoot_other _ _ (by decide), State.reg_setFld_other _ _ _ _ (by decide)]

theorem State.reg_setReg_withPwr (s : State) (off : Nat) (v : W64) (pwr : Pwr) : { s.setReg off v with pwr := pwr }.reg off = v :=
  (State.reg_congr (s := s.setReg off v) rfl off).trans (s.reg_setReg_self _ _)

theorem State.wakeEvent_off_boots (hmode : s.pwr.mode = .off) (hheld : s.pwr.heldWake = false) (hentry : s.pwr.entry = none)
    (hexit : s.pwr.exiting = false) (htherm : s.pwr.thermTripN = true) (hseen : s.pwr.wakeSeen = none) :
    s.wakeEvent 2 0 = { s with pwr := (s.wakeEvent 2 0).pwr, regs := (s.wakeEvent 2 0).regs } ∧ (s.wakeEvent 2 0).pwr.mode = .rising ∧
      (s.wakeEvent 2 0).pwr.pwrEnMain = true ∧ (s.wakeEvent 2 0).fld Reg.devStatus_resetCause = 1 ∧
      (s.wakeEvent 2 0).fld Reg.pwrLastWake_source = 2 := by
  rw [State.wakeEvent_off hmode hheld hentry hexit]
  have hnote : s.noteWake 2 0 = _ := State.noteWake_first (by rw [hseen]; rfl)
  have hword : (s.noteWake 2 0).reg Reg.pwrLastWake = s.lastWake 2 0 := by
    rw [hnote]
    exact s.reg_setReg_withPwr _ _ _
  have htherm' : (s.noteWake 2 0).pwr.thermTripN = true := by
    rw [hnote]
    exact htherm
  obtain ⟨hrise, hen, hcause, hlast⟩ := State.wakeOff_boots htherm'
  obtain ⟨hsource, -, -, -⟩ := State.lastWake_fields (hlast.trans hword)
  exact ⟨((State.frame.refl [.regs, .pwr] s).noteWake.wakeOff).eq_take, hrise, hen, hcause, hsource⟩

/-- The measured verification of a recovery image. -/
theorem State.recovery_verifies (h3 : s.sec.state = 3) :
    let code := verifyMarked s.sec s.recovByte s.recovPoison recovHdr
    let s0 := s.noteRecovImage code
    let s1 := { s0 with sec := { s0.sec with recovResult := code } }.extend 7 (sha384 (signedRegion s.recovByte recovHdr))
    s.recovery = if code = 1 then s1.runImage s.recovByte recovHdr 4 else s1 := by
  rw [State.recovery, if_neg (by simp [h3])]

theorem State.extend_recovResult (s : State) (k : Nat) (d : BitVec 384) : (s.extend k d).sec.recovResult = s.sec.recovResult := rfl

theorem State.sec_ran (s : State) (code : Nat) (version : BitVec 32) (svn rsa slh : Nat) :
    let x : Sec := { s.sec with state := code, version := version, svn := svn, rsaIdx := rsa, slhIdx := slh }
    x.recovResult = s.sec.recovResult ∧ x.state = code ∧ x.version = version := ⟨rfl, rfl, rfl⟩

theorem State.runImage_sec (s : State) (img : Nat → Byte) (h code : Nat) :
    (s.runImage img h code).sec.recovResult = s.sec.recovResult ∧ (s.runImage img h code).sec.state = code ∧
      (s.runImage img h code).sec.version = BitVec.ofNat 32 (imgNum img (h + 8) 4) := by
  unfold State.runImage
  extract_lets s1 s2 x s3
  have h1 : s1.sec.recovResult = s.sec.recovResult := (State.extend_recovResult _ _ _).trans (State.extend_recovResult _ _ _)
  have h2 : s2.sec.recovResult = s1.sec.recovResult := (State.extend_recovResult _ _ _).trans (State.extend_recovResult _ _ _)
  obtain ⟨hres, hstate, hversion⟩ := s2.sec_ran code (BitVec.ofNat 32 (imgNum img (h + 8) 4)) (imgNum img (h + 0xC) 1)
    (imgNum img (h + 0xD) 1) (imgNum img (h + 0xE) 1)
  rw [(State.frame.refl [.regs] s3).setFld.sec_eq]
  exact ⟨hres.trans (h2.trans h1), hstate, hversion⟩

/-- The verification extends a measurement and posts its result. -/
def State.judged (s : State) (code : Nat) (d : BitVec 384) : State := { s with sec := { s.sec with recovResult := code } }.extend 7 d

theorem State.judged_eq (s : State) (code : Nat) (d : BitVec 384) : s.judged code d = { s with sec := (s.judged code d).sec } := rfl

theorem State.judged_sec (s : State) (code : Nat) (d : BitVec 384) :
    (s.judged code d).sec.recovResult = code ∧ (s.judged code d).sec.state = s.sec.state := ⟨rfl, rfl⟩

/-- A recovery image that passes is booted, one that fails leaves the device in RECOVERY. -/
theorem State.recovery_parts (h3 : s.sec.state = 3) :
    s.recovery = { s with sec := s.recovery.sec, regs := s.recovery.regs, log := s.recovery.log, logNext := s.recovery.logNext,
                          pcie := s.recovery.pcie, pwr := s.recovery.pwr, out := s.recovery.out } ∧
      (s.bch = [] → s.recovery = { s with sec := s.recovery.sec, regs := s.recovery.regs }) ∧
      s.recovery.sec.recovResult = verifyMarked s.sec s.recovByte s.recovPoison recovHdr ∧
      (s.recovery.sec.recovResult = 1 → s.recovery.sec.state = 4 ∧ s.recovery.fld Reg.devStatus_ready = 1 ∧
        s.recovery.sec.version = BitVec.ofNat 32 (imgNum s.recovByte (recovHdr + 8) 4)) ∧
      (s.recovery.sec.recovResult ≠ 1 → s.recovery.sec.state = 3 ∧ (∀ off, off ≠ Reg.telEcc → s.recovery.reg off = s.reg off) ∧
        (s.bch = [] → s.recovery.regs = s.regs)) := by
  have hrec := State.recovery_verifies h3
  generalize hcode : verifyMarked s.sec s.recovByte s.recovPoison recovHdr = code at hrec ⊢
  change s.recovery = if code = 1 then ((s.noteRecovImage code).judged code _).runImage s.recovByte recovHdr 4
    else (s.noteRecovImage code).judged code _ at hrec
  generalize sha384 (signedRegion s.recovByte recovHdr) = d at hrec
  have hclean : s.bch = [] → s.noteRecovImage code = s := fun h => State.noteRecovImage_clean h code
  obtain ⟨⟨_, _, _, _, _, _, hv⟩, hothers⟩ := State.notes.noteRecovImage s code
  generalize s.noteRecovImage code = v at hrec hclean hv hothers
  have hstate : v.sec.state = 3 := by rw [hv]; exact h3
  obtain ⟨hjres, hjstate⟩ := v.judged_sec code d
  have hj := v.judged_eq code d
  generalize v.judged code d = w at hrec hjres hjstate hj
  have hw : w = { s with sec := w.sec, regs := w.regs, log := w.log, logNext := w.logNext, pcie := w.pcie, pwr := w.pwr, out := w.out } := by
    rw [hj, hv]
  have hwclean : s.bch = [] → w = { s with sec := w.sec, regs := w.regs } := fun h => by rw [hj, hclean h]
  by_cases h1 : code = 1
  · rw [if_pos h1] at hrec
    obtain ⟨hres, hst, hver⟩ := w.runImage_sec s.recovByte recovHdr 4
    have hready := w.ready_runImage s.recovByte recovHdr 4
    have hparts := (State.measures.runImage w s.recovByte recovHdr 4).parts
    rw [← hrec] at hres hst hver hready hparts
    refine ⟨?_, fun h => ?_, hres.trans hjres, fun _ => ⟨hst, hready, hver⟩, fun h => absurd (hres.trans (hjres.trans h1)) h⟩
    · rw [hparts, hw]
    · rw [hparts, hwclean h]
  · rw [if_neg h1] at hrec
    rw [hrec]
    refine ⟨hw, hwclean, hjres, fun h => absurd (hjres.symm.trans h) h1, fun _ => ⟨hjstate.trans hstate, fun off hoff => ?_, fun h => ?_⟩⟩
    · exact (State.reg_congr (by rw [hj]) off).trans (hothers off hoff)
    · rw [hj, hclean h]

/-- Settles O16: the wake in OFF through `wakeEvent`, the recovery image through what its verification leaves. -/
theorem bootEvents : Obligations.BootEvents := by
  unfold Obligations.BootEvents
  refine ⟨fun s => ⟨fun hmode => ?_, fun hmode hperst hen htherm hheld hentry hexit hseen => ?_, fun h2 => ?_⟩,
    fun s h3 => ⟨s.recovery, rfl, State.recovery_parts h3⟩⟩
  · exact congrArg Host.Outcome.next (if_neg fun h => hmode h.2.1)
  · refine ⟨_, congrArg Host.Outcome.next (if_pos ⟨hperst, hmode, hen⟩), ?_⟩
    exact State.wakeEvent_off_boots (s := { s.updPwr (fun x => { x with perst := false }) with pcie := { s.pcie with refClk := true } })
      hmode hheld hentry hexit htherm hseen
  · refine ⟨_, congrArg Host.Outcome.next (if_pos h2), rfl, ?_, fun hslot => ?_, fun hslot => ?_⟩
    · split <;> rfl
    · rw [if_neg (by simp [hslot])]
      exact ⟨rfl, rfl⟩
    · rw [if_pos hslot]
      exact ⟨rfl, rfl⟩

end Sys2Proof.Machine
end

section
/-! PROOFS. Clock domains that are on stay on when messages, records and results go out (R399 to R401). -/

namespace Sys2Proof.Machine

set_option Elab.async false

open Sys2Proof

variable {s t u : State}

/-- Every domain that is on stays on. -/
def State.keepsOn (s t : State) : Prop := ∀ d, s.dom d = .on → t.dom d = .on

theorem State.keepsOn.refl (s : State) : s.keepsOn s := fun _ h => h

theorem State.keepsOn.trans (h : s.keepsOn t) (h' : t.keepsOn u) : s.keepsOn u := fun d hd => h' d (h d hd)

theorem State.keepsOn.of_doms (h : t.pwr.doms = s.pwr.doms) : s.keepsOn t := fun d hd => by
  simpa only [State.dom, h] using hd

theorem State.keepsOn.after (h : t.keepsOn u) (hd : t.pwr.doms = s.pwr.doms) : s.keepsOn u := (State.keepsOn.of_doms hd).trans h

theorem State.keepsOn.of_frame {l : List StatePart} (h : s.frame l t) (hp : .pwr ∉ l := by simp) : s.keepsOn t :=
  .of_doms (congrArg Pwr.doms (h.pwr_eq hp))

theorem State.keepsOn.setOn (s : State) (d : Nat) : s.keepsOn (s.setDom d .on) := fun k hk => by
  by_cases h : k = d
  · subst h; exact State.dom_setDom_self _ _ _
  · exact (State.dom_setDom_other _ _ h).trans hk

theorem State.keepsOn.setOther {d : Nat} (x : DomState) (hd : s.dom d ≠ .on) : s.keepsOn (s.setDom d x) := fun k hk =>
  (State.dom_setDom_other _ _ (fun h : k = d => hd (h ▸ hk))).trans hk

theorem State.keepsOn.wakeDom (s : State) (d : Nat) : s.keepsOn (s.wakeDom d) := by
  have hport : ∀ {t : State}, t.keepsOn (t.wakePort d) := .of_frame (State.frame.refl [.link] _).wakePort
  unfold State.wakeDom
  split
  next h => exact .setOther _ (by simp [h])
  next h => exact (State.keepsOn.setOther _ (by simp [h])).trans hport
  next h =>
    split
    · exact .setOn s d
    · exact (State.keepsOn.setOther _ (by simp [h])).trans hport
  next => exact .refl s

theorem State.keepsOn.wakeDoms (s : State) (ds : List Nat) : s.keepsOn (s.wakeDoms ds) := by
  induction ds generalizing s with
  | nil => exact .refl s
  | cons d ds ih => exact (State.keepsOn.wakeDom s d).trans (ih _)

theorem State.keepsOn.tryOnce {f : State → State} (h : s.keepsOn (f s)) : s.keepsOn (s.tryOnce f).1 := by
  unfold State.tryOnce
  extract_lets t
  split
  · exact h.trans (.of_doms rfl)
  · exact .wakeDoms s _

theorem State.keepsOn.sendMsix (s : State) (fn : Fin 16) (v : Nat) : s.keepsOn (s.sendMsix fn v) := by
  unfold State.sendMsix
  split
  · exact .refl s
  split
  · exact .of_doms rfl
  split
  · exact .of_doms rfl
  · exact (State.keepsOn.wakeDom _ _).after rfl

theorem State.keepsOn.logEvent (s : State) (src code : Nat) (c : Option CtxId) (loc detail : Nat) :
    s.keepsOn (s.logEvent src code c loc detail) := by
  unfold State.logEvent
  extract_lets e l s1
  split
  · exact (State.keepsOn.sendMsix _ _ _).after rfl
  · exact .of_doms rfl

theorem State.keepsOn.countIrq (s : State) (c : CtxId) (irq : Bool) : s.keepsOn (s.countIrq c irq) := by
  unfold State.countIrq
  split
  · extract_lets n s1
    split
    · exact (State.keepsOn.sendMsix _ _ _).after rfl
    · exact .of_doms rfl
  · exact .refl s

theorem State.keepsOn.cqWrite (s : State) (c : CtxId) (r : CplRec) : s.keepsOn (s.cqWrite c r) := by
  unfold State.cqWrite
  extract_lets x a n
  exact (State.keepsOn.of_frame (State.frame.refl [.hostMem, .poison, .bch, .ctxs] s).hostStore.updCtx).trans (.countIrq _ _ _)

theorem State.keepsOn.cqFlush (s : State) (c : CtxId) (fuel : Nat) : s.keepsOn (s.cqFlush c fuel) := by
  induction fuel generalizing s with
  | zero => exact .refl s
  | succ fuel ih =>
    unfold State.cqFlush
    split
    · exact .refl s
    split
    · exact .refl s
    split
    · exact .wakeDom s _
    · refine State.keepsOn.trans ?_ (ih _)
      exact (State.keepsOn.cqWrite _ c _).after rfl

theorem State.keepsOn.sendData (s : State) (p : PortId) (kind : Nat) (header : List Byte) (data : List SB) :
    s.keepsOn (s.sendData p kind header data) := by
  unfold State.sendData
  extract_lets s1
  exact (State.keepsOn.wakeDom s _).trans (.of_frame (State.frame.refl [.link, .out] (s.wakeDom (108 + p.val))).updPort.pumpData)

theorem State.keepsOn.peerWrite (s : State) (c : CtxId) (e : Engine) (slot : Nat) (p : PortId) (dev : Nat) (pc : CtxId) (a : Nat)
    (data : List SB) : s.keepsOn (s.peerWrite c e slot p dev pc a data) := by
  unfold State.peerWrite
  extract_lets tag s1 r s2
  exact (State.keepsOn.sendData _ _ _ _ _).after rfl

theorem State.keepsOn.touch (s : State) (ds : List Nat) : s.keepsOn (s.touch ds) := by
  unfold State.touch
  extract_lets l
  split
  · exact .refl s
  · exact .of_doms rfl

theorem State.keepsOn.writePiece (s : State) (v : View) (who : Engine × Nat) (a : Nat) (data : List SB) :
    s.keepsOn (s.writePiece v who a data).1 := by
  unfold State.writePiece
  split
  next idx o off loc hreach hplace =>
    extract_lets s1
    have h1 : s.keepsOn s1 := .touch s _
    split
    · exact h1.trans (.of_frame (State.frame.refl [.mem, .poison, .bch, .objs] s1).store.markDirty)
    · exact h1.trans (.of_frame (State.frame.refl [.mem, .poison, .bch, .objs] s1).store.markDirty)
    · exact .of_frame (State.frame.refl [.hostMem, .poison, .bch] s).hostStore
    · exact (State.keepsOn.of_frame (State.frame.refl [.link, .deposits] s).overlay).trans (.peerWrite _ _ _ _ _ _ _ _ _)
    · exact .refl s
  next => exact .refl s

theorem State.keepsOn.writeL (s : State) (v : View) (who : Engine × Nat) (l : List (Nat × Nat)) (data : List SB) :
    s.keepsOn (s.writeL v who l data).1 := by
  induction l generalizing s data with
  | nil => exact .refl s
  | cons r l ih =>
    obtain ⟨a, n⟩ := r
    exact (State.keepsOn.writePiece s v who a _).trans (ih _ _)

theorem State.keepsOn.tailDropped (s : State) (c : CtxId) : s.keepsOn (s.tailDropped c) := by
  unfold State.tailDropped
  extract_lets s1
  exact (State.keepsOn.of_frame (State.frame.refl [.ctxs, .regs] s).updCtx.addFld.setFld).trans (.logEvent _ _ _ _ _ _)

theorem State.keepsOn.tailFlush (s : State) (c : CtxId) (fuel : Nat) : s.keepsOn (s.tailFlush c fuel) := by
  induction fuel generalizing s with
  | zero => exact .refl s
  | succ fuel ih =>
    unfold State.tailFlush
    split
    next => exact .refl s
    next e rest hbuf =>
      split
      · exact .refl s
      extract_lets put
      have hput : s.keepsOn put.1 := .tryOnce (.writeL s _ _ _ _)
      split
      · exact (State.keepsOn.tailDropped s c).trans (ih _)
      next =>
        split
        · exact hput
        split
        · exact hput.trans (.of_doms rfl)
        · exact (hput.trans (.of_frame (State.frame.refl [.ctxs, .regs] put.1).tailTaken)).trans (ih _)

theorem State.keepsOn.flushAll (s : State) (cs : List CtxId) : s.keepsOn (s.flushAll cs) := by
  induction cs generalizing s with
  | nil => exact .refl s
  | cons c cs ih =>
    unfold State.flushAll
    extract_lets s1
    have h1 : s.keepsOn s1 := (State.keepsOn.cqFlush s c _).trans (.of_frame (State.frame.refl [.ctxs, .mem, .poison, .bch, .orphans, .models, .blks, .tsets, .pcie] _).resetGoOn)
    exact (h1.trans (.tailFlush _ _ _)).trans (ih _)

theorem State.keepsOn.foldl {α : Type} {f : State → α → State} (hf : ∀ s a, State.keepsOn s (f s a)) (l : List α) (s : State) :
    s.keepsOn (l.foldl f s) := by
  induction l generalizing s with
  | nil => exact .refl s
  | cons a l ih => exact (hf s a).trans (ih _)

theorem State.keepsOn.sendPending (s : State) (fn : Fin 16) (v : Nat) : s.keepsOn (s.sendPending fn v) := by
  unfold State.sendPending
  split
  · exact (State.keepsOn.sendMsix _ _ _).after rfl
  · exact .refl s

theorem State.keepsOn.hostReturns (s : State) : s.keepsOn s.hostReturns := by
  unfold State.hostReturns
  extract_lets s1
  have h0 : s.keepsOn ({ s with migWait := [] }.migPostAll s.migWait) :=
    .of_frame (State.frame.refl [.migWait, .hostMem, .poison, .bch, .ctxs] s).update.migPostAll
  exact (h0.trans (.flushAll _ _)).trans (.foldl (fun s n => .foldl (fun s v => .sendPending s n v) _ s) _ _)

theorem State.keepsOn.tailsGoOn (s : State) (cs : List CtxId) : s.keepsOn (s.tailsGoOn cs) := by
  induction cs generalizing s with
  | nil => exact .refl s
  | cons c cs ih => exact (State.keepsOn.tailFlush s c _).trans (ih _)

theorem State.keepsOn.postResult (s : State) (mgc : Bool) (r : FpcResult) : s.keepsOn (s.postResult mgc r) := by
  unfold State.postResult
  split
  · exact .of_doms rfl
  extract_lets s1
  split
  · exact (State.keepsOn.sendMsix _ _ _).after rfl
  · exact .of_doms rfl

theorem State.keepsOn.finishOp (s : State) (o : FpcOp) (code : Nat) : s.keepsOn (s.finishOp o code) := by
  unfold State.finishOp
  extract_lets f s1 s2
  have h2 : s.keepsOn s2 := .of_frame ((State.frame.refl [.fpc] s).setFpc.releaseBuf.either (State.frame.refl [.fpc] s).setFpc)
  exact (h2.trans (.of_frame (State.frame.refl [.fpc] s2).resumeL)).trans (.postResult _ _ _)

theorem State.keepsOn.tileEnd (s : State) (o : FpcOp) (code : Nat) : s.keepsOn (s.tileEnd o code) :=
  (State.keepsOn.finishOp _ o code).after rfl

theorem State.keepsOn.tileReport (s : State) (o : FpcOp) : s.keepsOn (s.tileReport o) := by
  unfold State.tileReport
  extract_lets recs r
  by_cases hrecs : recs.isEmpty
  · rw [if_pos hrecs]
    exact .tileEnd s o 0
  rw [if_neg hrecs]
  have hr : s.keepsOn r.1 := .tryOnce (.writeL s _ _ _ _)
  split
  · exact hr.trans (.tileEnd _ o 0)
  · exact hr.trans (.of_frame (State.frame.refl [.fpc] r.1).setOp)

theorem State.keepsOn.reportsGoOn (s : State) (os : List FpcOp) : s.keepsOn (s.reportsGoOn os) := by
  induction os generalizing s with
  | nil => exact .refl s
  | cons o os ih =>
    refine State.keepsOn.trans ?_ (ih _)
    split
    · exact .tileReport s o
    · exact .refl s

theorem State.keepsOn.poisonBank (s : State) (b : Nat) : s.keepsOn (s.poisonBank b) := by
  unfold State.poisonBank
  extract_lets s1
  exact (State.keepsOn.of_frame (State.frame.refl [.poison, .bch] s).poisonWords : s.keepsOn s1).trans (.of_doms rfl)

/-- With no host access waiting, the work that a ready domain lets go on leaves every domain on that is. -/
theorem State.keepsOn.domGoesOn (h : s.aptWait = []) (d : Nat) : s.keepsOn (s.domGoesOn d) := by
  unfold State.domGoesOn
  extract_lets s1 s2
  have h1 : s.frame [.link, .out] s1 := (State.frame.refl [.link, .out] s).pump.either (State.frame.refl _ s)
  have h2 : s1.keepsOn s2 := by
    unfold s2
    split
    · exact .hostReturns s1
    · exact .refl s1
  have hs : s.frame [.regs, .ctxs, .mem, .hostMem, .deposits, .poison, .bch, .objs, .orphans, .migWait, .models, .blks, .tsets, .link, .pwr,
      .pcie, .log, .logNext, .out, .fpc, .tiles] ((s2.tailsGoOn allCtx).reportsGoOn s2.fpc.ops) :=
    (((h1.mono (by simp)).hostReturns.either (h1.mono (by simp))).tailsGoOn).reportsGoOn
  have hwait : ((s2.tailsGoOn allCtx).reportsGoOn s2.fpc.ops).aptWait = [] := hs.aptWait_eq.trans h
  rw [State.hostDrain_of_none _ hwait]
  exact ((State.keepsOn.of_frame h1).trans h2).trans ((State.keepsOn.tailsGoOn s2 _).trans (.reportsGoOn _ _))

/-! ### Ports while they send -/

theorem State.port_pumpData_other {p q : PortId} (h : q ≠ p) (fuel : Nat) (s : State) : (s.pumpData p fuel).port q = s.port q := by
  induction fuel generalizing s with
  | zero => rfl
  | succ fuel ih =>
    unfold State.pumpData
    extract_lets x
    split
    · rfl
    split
    · rfl
    · exact (ih _).trans (State.port_setPort_other _ _ h)

theorem State.port_pump_other {p q : PortId} (h : q ≠ p) (s : State) : (s.pump p).port q = s.port q := by
  unfold State.pump
  extract_lets s1
  exact (State.port_pumpData_other h _ _).trans (State.port_pumpCtl_other h _ _)

theorem State.domGoesOn_port {d : Nat} (h : s.calm) (hd : 108 ≤ d ∧ d < 116) : s.domGoesOn d = s.pump (portNo (d - 108)) := by
  have hf : s.frame [.link, .out] (s.pump (portNo (d - 108))) := (State.frame.refl _ s).pump
  obtain ⟨hnone, htails, hreports⟩ := h.of_parts hf.aptWait_eq hf.ctxs_eq hf.fpc_eq
  rw [State.domGoesOn, if_pos hd]
  rw [if_neg (fun hc => absurd hc.1 (by unfold epDom; omega)), State.tailsGoOn_of_none htails, State.reportsGoOn_of_none hreports,
    State.hostDrain_of_none _ hnone]

/-! ### Waking, gating and readiness -/

theorem State.port_wakePort (s : State) (d : Nat) :
    s.wakePort d = { s with link := { s.link with ports := (s.wakePort d).link.ports } } ∧
      ∀ q : PortId, d ≠ 108 + q.val → (s.wakePort d).port q = s.port q := by
  unfold State.wakePort
  extract_lets p
  split
  next hc =>
    refine ⟨rfl, fun q hq => ?_⟩
    have hne : q ≠ p := fun h => hq (by rw [h]; simp [p]; omega)
    exact State.port_setPort_other s _ hne
  · exact ⟨rfl, fun _ _ => rfl⟩

/-- A domain that is dark begins to wake, and the port of a port's domain with it. -/
theorem State.wakeDom_dark {d : Nat} (h : s.dom d = .powerGated ∨ ∃ k, 4 ≤ k ∧ s.dom d = .shutting k) :
    s.wakeDom d = (s.setDom d (.waking false)).wakePort d := by
  unfold State.wakeDom
  rcases h with h | ⟨k, hk, h⟩
  · rw [h]
  · rw [h]
    exact if_neg (Nat.not_lt.mpr hk)

theorem State.wakeDom_abandons {d k : Nat} (h : s.dom d = .shutting k) (hk : k < 4) : s.wakeDom d = s.setDom d .on := by
  unfold State.wakeDom
  rw [h]
  exact if_pos hk

theorem State.dom_wakePort (s : State) (d k : Nat) : (s.wakePort d).dom k = s.dom k := by
  have h : s.frame [.link] (s.wakePort d) := (State.frame.refl _ s).wakePort
  simp only [State.dom, h.pwr_eq]

theorem State.domReady_waking {d : Nat} {clean : Bool} (h : s.dom d = .waking clean) :
    s.domReady d = (if !clean && decide (48 ≤ d) && decide (d < 80) then (s.setDom d .on).poisonBank (d - 48) else s.setDom d .on).domGoesOn d := by
  rw [State.domReady, h]

/-- The state in which a domain that has become ready lets its work go on. -/
def State.readied (s : State) (d : Nat) (clean : Bool) : State :=
  if !clean && decide (48 ≤ d) && decide (d < 80) then (s.setDom d .on).poisonBank (d - 48) else s.setDom d .on

theorem State.readied_frame (s : State) (d : Nat) (clean : Bool) : s.frame [.poison, .bch, .pwr] (s.readied d clean) :=
  (State.frame.refl _ s).setDom.poisonBank.either (State.frame.refl _ s).setDom

theorem State.dom_readied (s : State) (d : Nat) (clean : Bool) (k : Nat) : (s.readied d clean).dom k = (s.setDom d .on).dom k := by
  unfold State.readied
  split
  · have h : (s.setDom d .on).frame [.poison, .bch] ((s.setDom d .on).poisonWords
        ((SMap.keys (s.setDom d .on).objs).flatMap (fun i => (s.setDom d .on).bankWords i (d - 48)))) := (State.frame.refl _ _).poisonWords
    simp only [State.dom, State.poisonBank, h.pwr_eq]
  · rfl

theorem State.readied_of_no_bank {d : Nat} {clean : Bool} (h : clean = true ∨ d < 48 ∨ 80 ≤ d) : s.readied d clean = s.setDom d .on :=
  if_neg (by simp; rcases h with h | h | h <;> simp [h])

theorem State.domReady_readied {d : Nat} {clean : Bool} (h : s.dom d = .waking clean) : s.domReady d = (s.readied d clean).domGoesOn d :=
  State.domReady_waking h

/-- A port of the domain's own sends what it has queued; other domains have nothing that goes on in a calm state. -/
theorem State.domGoesOn_quiet {d : Nat} (h : s.calm) (hhost : s.pcie.linkUp = false ∨ d ≠ 116) :
    s.frame [.link, .out] (s.domGoesOn d) ∧ (¬(108 ≤ d ∧ d < 116) → s.domGoesOn d = s) ∧
      ∀ q : PortId, d ≠ 108 + q.val → (s.domGoesOn d).port q = s.port q := by
  by_cases hport : 108 ≤ d ∧ d < 116
  · rw [State.domGoesOn_port h hport]
    refine ⟨(State.frame.refl _ s).pump, fun hn => absurd hport hn, fun q hq => State.port_pump_other (fun hqp => hq ?_) s⟩
    rw [hqp]
    simp [portNo]
    omega
  · have hno : ¬(d = epDom ∧ s.pcie.linkUp = true) := fun hc => by
      obtain ⟨hd, hl⟩ := hc
      rcases hhost with hh | hh
      · exact Bool.false_ne_true (hh.symm.trans hl)
      · exact hh hd
    rw [State.domGoesOn_calm h hport hno]
    exact ⟨State.frame.refl _ s, fun _ => rfl, fun _ _ => rfl⟩

theorem State.domReady_calm {d : Nat} {clean : Bool} (hw : s.dom d = .waking clean) (h : s.calm) (hhost : s.pcie.linkUp = false ∨ d ≠ 116) :
    (s.domReady d).dom d = .on ∧ (∀ k, k ≠ d → (s.domReady d).dom k = s.dom k) ∧
      (clean = true ∨ d < 48 ∨ 80 ≤ d →
        (d < 108 ∨ d = 116 → s.domReady d = { s with pwr := (s.domReady d).pwr }) ∧
          s.domReady d = { s with pwr := (s.domReady d).pwr, link := (s.domReady d).link, out := (s.domReady d).out } ∧
            ∀ q : PortId, d ≠ 108 + q.val → (s.domReady d).port q = s.port q) := by
  have hr := s.readied_frame d clean
  have hdoms := s.dom_readied d clean
  have hclean := State.readied_of_no_bank (s := s) (d := d) (clean := clean)
  rw [State.domReady_readied hw]
  generalize s.readied d clean = v at hr hdoms hclean
  obtain ⟨hf, hsame, hports⟩ := State.domGoesOn_quiet (s := v) (d := d) (h.of_parts hr.aptWait_eq hr.ctxs_eq hr.fpc_eq)
    (by rwa [hr.pcie_eq])
  have hdom : ∀ k, (v.domGoesOn d).dom k = (s.setDom d .on).dom k := fun k =>
    Eq.trans (by simp only [State.dom, hf.pwr_eq]) (hdoms k)
  refine ⟨(hdom d).trans (State.dom_setDom_self _ _ _), fun k hk => (hdom k).trans (State.dom_setDom_other _ _ hk), fun hb => ?_⟩
  have hv : s.frame [.pwr] v := by
    rw [hclean hb]
    exact (State.frame.refl _ s).setDom
  refine ⟨fun hd => ?_, State.frame.eq_take (l := [.pwr, .link, .out]) ((hv.mono (by simp)).trans (hf.mono (by simp))), fun q hq => ?_⟩
  · rw [hsame (by omega)]
    exact hv.eq_take
  · exact (hports q hq).trans (congrArg (fun x => x.ports[q]) hv.link_eq)

/-- Settles O11: gating and waking by the one domain they set, readiness by what goes on after it. -/
theorem domainsAndPads : Obligations.DomainsAndPads := by
  unfold Obligations.DomainsAndPads
  refine ⟨fun d s hd => ⟨fun hwr hon => ⟨⟨s.setDom d.toNat (.shutting 1), ?_, rfl, State.dom_setDom_self _ _ _, fun k hk => State.dom_setDom_other _ _ hk⟩,
      ⟨s.setDom d.toNat .clockGated, congrArg Host.Outcome.next (if_pos ⟨hwr, hon⟩), rfl, State.dom_setDom_self _ _ _,
        fun k hk => State.dom_setDom_other _ _ hk⟩⟩,
    fun hmode hdark => ?_, fun k hmode hsh hk => ?_, fun clean hw => ⟨fun hcalm hhost => ⟨s.domReady d.toNat, rfl, State.domReady_calm hw hcalm hhost⟩,
      fun hnone => ⟨s.domReady d.toNat, rfl, ?_⟩⟩⟩,
    fun v w off s hhold hpend hv => ?_, fun v s hno => ?_⟩
  · refine congrArg Host.Outcome.next ?_
    rw [State.domGate, if_pos hwr, hon]
  · have hup : s.domUp d.toNat = (s.setDom d.toNat (.waking false)).wakePort d.toNat :=
      (if_pos ⟨hmode, hd⟩).trans (State.wakeDom_dark hdark)
    obtain ⟨hparts, hports⟩ := (s.setDom d.toNat (.waking false)).port_wakePort d.toNat
    refine ⟨_, congrArg Host.Outcome.next hup, ?_, ?_, fun k hk => ?_, hports⟩
    · rw [hparts]
      rfl
    · exact (State.dom_wakePort _ _ _).trans (State.dom_setDom_self _ _ _)
    · exact (State.dom_wakePort _ _ _).trans (State.dom_setDom_other _ _ hk)
  · exact ⟨_, congrArg Host.Outcome.next ((if_pos ⟨hmode, hd⟩).trans (State.wakeDom_abandons hsh hk)), rfl, State.dom_setDom_self _ _ _,
      fun k hk => State.dom_setDom_other _ _ hk⟩
  · rw [State.domReady_readied hw]
    have hr := s.readied_frame d.toNat clean
    exact State.keepsOn.domGoesOn (hr.aptWait_eq.trans hnone) _ _ ((s.dom_readied _ _ _).trans (State.dom_setDom_self _ _ _))
  · have hgo : (wBit v 0 && s.pwr.padHold) = true := by rw [hhold, Bool.and_true]; exact hv
    have hrel : s.padRelease v = ({ s with pwr := { s.pwr with padHold := false, padPending := [] } }).setReg off w := by
      rw [State.padRelease, if_pos hgo, hpend]
      rfl
    exact ⟨_, congrArg Host.Outcome.next hrel, rfl, rfl, State.reg_setReg_self _ _ _, fun k hk => State.reg_setReg_other _ _ hk⟩
  · have hstop : ¬(wBit v 0 && s.pwr.padHold) = true := by
      rcases hno with h | h
      · rw [h, Bool.and_false]; exact Bool.false_ne_true
      · rw [show wBit v 0 = false from h]; exact Bool.false_ne_true
    exact congrArg Host.Outcome.next (if_neg hstop)

end Sys2Proof.Machine
end

section
/-! PROOFS. The PCI Express link (R197, R269, R438) and function-level resets (R428, R440). -/

namespace Sys2Proof.Machine

set_option Elab.async false

open Sys2Proof

variable {s t u : State}

/-! ### The functions' MSI-X tables -/

theorem State.msixWord_fnReset_self (s : State) (n : Fin 16) {i : Nat} (hi : i < 256) :
    (s.fnReset n).msixWord n i = State.reset.msixWord n i := by
  have hkey : msixKey n i / 256 = n.val := by unfold msixKey; omega
  have hout : decide (msixKey n i / 256 ≠ n.val) = false := by simp [hkey]
  rw [State.msixWord, State.fnReset, SMap.get_keepKeys, hout]
  rfl

theorem State.msixWord_fnReset_other (s : State) {n fn : Fin 16} (h : fn ≠ n) {i : Nat} (hi : i < 256) :
    (s.fnReset n).msixWord fn i = s.msixWord fn i := by
  have hkey : msixKey fn i / 256 = fn.val := by unfold msixKey; omega
  have hin : decide (msixKey fn i / 256 ≠ n.val) = true := by simp [hkey, Fin.val_inj, h]
  rw [State.msixWord, State.fnReset, SMap.get_keepKeys, hin]
  rfl

/-- The tables of the functions reset are as at reset. -/
theorem State.msixWord_fnResets (ns : List (Fin 16)) {fn : Fin 16} (hfn : fn ∈ ns ∨ ∀ i, i < 256 → s.msixWord fn i = State.reset.msixWord fn i)
    {i : Nat} (hi : i < 256) : (ns.foldl (fun (s : State) n => s.fnReset n) s).msixWord fn i = State.reset.msixWord fn i := by
  induction ns generalizing s with
  | nil => exact hfn.resolve_left List.not_mem_nil i hi
  | cons n ns ih =>
    refine ih ?_
    by_cases h : fn = n
    · subst h
      exact .inr fun j hj => s.msixWord_fnReset_self fn hj
    · exact hfn.imp (fun hm => (List.mem_cons.mp hm).resolve_left h) fun hw j hj => (s.msixWord_fnReset_other h hj).trans (hw j hj)

theorem getLsbD_foldl_or (ns : List (Fin 16)) (v : BitVec 16) (k : Nat) (hk : k < 16) :
    (ns.foldl (fun (v : BitVec 16) n => v ||| BitVec.ofNat 16 (2 ^ n.val)) v).getLsbD k = (v.getLsbD k || ns.any (fun n => decide (n.val = k))) := by
  induction ns generalizing v with
  | nil => simp
  | cons n ns ih =>
    have hbit : (BitVec.ofNat 16 (2 ^ n.val)).getLsbD k = decide (n.val = k) := by
      rw [BitVec.getLsbD_ofNat, Nat.testBit_two_pow]
      simp [hk]
    rw [List.foldl_cons, ih, BitVec.getLsbD_or, hbit, List.any_cons, Bool.or_assoc]

theorem State.held_fnResets (ns : List (Fin 16)) (s : State) : (ns.foldl (fun (s : State) n => s.fnReset n) s).pcie.held =
    ns.foldl (fun (v : BitVec 16) n => v ||| BitVec.ofNat 16 (2 ^ n.val)) s.pcie.held := by
  induction ns generalizing s with
  | nil => rfl
  | cons n ns ih => exact ih _

/-- Once every function is reset, MSI-X is held for each until it is enabled again. -/
theorem State.held_all (s : State) : (allCtx.foldl (fun (s : State) n => s.fnReset n) s).pcie.held = 0xFFFF := by
  rw [State.held_fnResets]
  refine BitVec.eq_of_getLsbD_eq fun k hk => ?_
  have hany : allCtx.any (fun n => decide (n.val = k)) = true := List.any_eq_true.mpr ⟨⟨k, hk⟩, List.mem_finRange _, by simp⟩
  have hones : (0xFFFF : BitVec 16).getLsbD k = true := by
    rw [show (0xFFFF : BitVec 16) = BitVec.allOnes 16 from rfl, BitVec.getLsbD_allOnes]
    simp [hk]
  rw [getLsbD_foldl_or _ _ _ hk, hany, Bool.or_true, hones]

/-- Resetting functions changes nothing else of the endpoint. -/
theorem State.pcie_fnResets (ns : List (Fin 16)) (s : State) :
    ∃ msix pend held d3 flr, ns.foldl (fun (s : State) n => s.fnReset n) s =
      { s with pcie := { s.pcie with msix := msix, pend := pend, held := held, d3 := d3, flrWait := flr } } := by
  induction ns generalizing s with
  | nil => exact ⟨_, _, _, _, _, rfl⟩
  | cons n ns ih =>
    obtain ⟨msix, pend, held, d3, flr, h⟩ := ih (s.fnReset n)
    exact ⟨msix, pend, held, d3, flr, h⟩

/-! ### The loss of the link -/

theorem State.returnL_of_none (h : s.pcie.vfEn = false) (cs : List CtxId) : s.returnL cs = s := by
  induction cs with
  | nil => rfl
  | cons c cs ih =>
    have hc : s.vfHolds c = false := by rw [State.vfHolds, h]; rfl
    rw [State.returnL, hc]
    exact ih

theorem State.endpointReset_parts (h : s.pcie.vfEn = false) :
    s.endpointReset = { s with pcie := s.endpointReset.pcie } ∧ s.endpointReset.pcie.vfEn = false ∧ s.endpointReset.pcie.numVfs = 0 ∧
      s.endpointReset.pcie.linkUp = s.pcie.linkUp ∧ s.endpointReset.pcie.held = 0xFFFF ∧
      ∀ (fn : Fin 16) (i : Nat), i < 256 → s.endpointReset.msixWord fn i = State.reset.msixWord fn i := by
  have hvf : s.vfClear = { s with pcie := { s.pcie with vfEn := false } } := by rw [State.vfClear, State.returnL_of_none h]
  obtain ⟨msix, pend, held, d3, flr, hparts⟩ := s.vfClear.pcie_fnResets allCtx
  have hheld := s.vfClear.held_all
  have hmsix : ∀ (fn : Fin 16) (i : Nat), i < 256 →
      (allCtx.foldl (fun (s : State) n => s.fnReset n) s.vfClear).msixWord fn i = State.reset.msixWord fn i :=
    fun fn i hi => State.msixWord_fnResets allCtx (.inl (List.mem_finRange fn)) hi
  rw [State.endpointReset]
  generalize allCtx.foldl (fun (s : State) n => s.fnReset n) s.vfClear = v at *
  rw [hvf] at hparts
  rw [hparts] at hheld hmsix ⊢
  exact ⟨rfl, rfl, rfl, rfl, hheld, hmsix⟩

theorem MigReq.failed_iff (m : MigReq) (f : Nat → Bool) :
    (m.report.isNone && m.obj.any f) = true ↔ m.report = none ∧ ∃ i, m.obj = some i ∧ f i = true := by
  rw [Bool.and_eq_true, Option.isNone_iff_eq_none, Option.any_eq_true]

/-- The state in which the link is lost: what uses host memory will end with TIER_FAULT. -/
def State.unlinked (s : State) : State := ({ s with pcie := { s.pcie with linkUp := false, lostReads := [] } }).failMigs (fun m o => m.usesHost o)

theorem State.unlinked_mig (s : State) : s.unlinked.mig = s.mig.map (fun m =>
    if m.report = none ∧ (∃ i, m.obj = some i ∧ m.usesHost (s.obj i) = true) then { m with report := some .tierFault } else m) := by
  refine List.map_congr_left fun m _ => ?_
  have hiff := m.failed_iff (fun i => m.usesHost (s.obj i))
  by_cases hc : m.report = none ∧ ∃ i, m.obj = some i ∧ m.usesHost (s.obj i) = true
  · rw [if_pos hc]
    exact if_pos (hiff.mpr hc)
  · rw [if_neg hc]
    exact if_neg fun h => hc (hiff.mp h)

theorem State.unlinked_eq (s : State) :
    s.unlinked = { s with pcie := { s.pcie with linkUp := false, lostReads := [] }, mig := s.unlinked.mig } := rfl

/-- The last step of a loss of the link: its rate is shown as 0, and reads by the host are gone. -/
def State.linkShown (s : State) : State := { s with pcie := { s.pcie with gen := 0, width := 0 }, aptWait := s.aptWait.filter HostAcc.posted }

theorem State.linkLost_eq (hup : s.pcie.linkUp = true) :
    s.linkLost = (s.unlinked.endpointReset.addFld Reg.devStatus_linkDowns 1).linkShown := if_neg (by simp [hup])

theorem State.linkLost_parts (hup : s.pcie.linkUp = true) (hvf : s.pcie.vfEn = false) :
    let t := s.linkLost
    t = { s with pcie := t.pcie, regs := t.regs, mig := t.mig, aptWait := s.aptWait.filter HostAcc.posted } ∧
      t.pcie.linkUp = false ∧ t.pcie.vfEn = false ∧ t.pcie.numVfs = 0 ∧ t.pcie.held = 0xFFFF ∧
      (∀ (fn : Fin 16) (i : Nat), i < 256 → t.msixWord fn i = State.reset.msixWord fn i) ∧
      t.fld Reg.devStatus_linkDowns = min 65535 (s.fld Reg.devStatus_linkDowns + 1) ∧
      (∀ off, off ≠ Reg.devStatus → t.reg off = s.reg off) ∧ t.mig = s.unlinked.mig := by
  intro t
  have ht : t = _ := State.linkLost_eq hup
  obtain ⟨hparts, hvfEn, hnum, hlink, hheld, hmsix⟩ := State.endpointReset_parts (s := s.unlinked) hvf
  have hfld : s.unlinked.endpointReset.fld Reg.devStatus_linkDowns = s.fld Reg.devStatus_linkDowns := State.fld_congr (by rw [hparts]; rfl) _
  have hreg : ∀ off, s.unlinked.endpointReset.reg off = s.reg off := fun off => State.reg_congr (by rw [hparts]; rfl) off
  have hsame : s.frame [.pcie, .mig] s.unlinked.endpointReset := by
    rw [hparts, s.unlinked_eq]
    exact (State.frame.refl _ s).update
  have hmig : s.unlinked.endpointReset.mig = s.unlinked.mig := by rw [hparts]
  generalize s.unlinked.endpointReset = v at *
  have hw : v.frame [.regs] (v.addFld Reg.devStatus_linkDowns 1) := (State.frame.refl _ _).addFld
  have hcount : (v.addFld Reg.devStatus_linkDowns 1).fld Reg.devStatus_linkDowns = min 65535 (s.fld Reg.devStatus_linkDowns + 1) := by
    rw [State.fld_addFld_self _ _ _ (by decide), hfld]
    rfl
  have hregs : ∀ off, off ≠ Reg.devStatus → (v.addFld Reg.devStatus_linkDowns 1).reg off = s.reg off := fun off hoff =>
    (State.reg_addFld_other _ _ _ _ hoff).trans (hreg off)
  generalize v.addFld Reg.devStatus_linkDowns 1 = w at *
  have hws : s.frame [.pcie, .mig, .regs] w := (hsame.mono (by simp)).trans (hw.mono (by simp))
  have hpcie := hw.pcie_eq
  have hmsixW : ∀ (fn : Fin 16) (i : Nat), w.msixWord fn i = v.msixWord fn i := fun fn i => by simp only [State.msixWord, hpcie]
  refine ht ▸ ⟨?_, ?_, ?_, ?_, ?_, fun fn i hi => (hmsixW fn i).trans (hmsix fn i hi), (State.fld_congr rfl _).trans hcount,
    fun off hoff => (State.reg_congr rfl _).trans (hregs off hoff), hw.mig_eq.trans hmig⟩
  · exact congrArg State.linkShown hws.eq_take
  · exact (congrArg Pcie.linkUp hpcie).trans hlink
  · exact (congrArg Pcie.vfEn hpcie).trans hvfEn
  · exact (congrArg Pcie.numVfs hpcie).trans hnum
  · exact (congrArg Pcie.held hpcie).trans hheld

/-! ### The return of the link -/

theorem State.flushAll_append (l m : List CtxId) (s : State) : s.flushAll (l ++ m) = (s.flushAll l).flushAll m := by
  induction l generalizing s with
  | nil => rfl
  | cons c l ih => exact ih _

/-- Nothing of a context waits for host memory. -/
def State.nothingWaits (s : State) (c : CtxId) : Prop := (s.ctx c).cbuf = [] ∧ (s.ctx c).tailBuf = [] ∧ (s.ctx c).resetBusy = false

theorem State.flushAll_of_none {cs : List CtxId} (h : ∀ c ∈ cs, s.nothingWaits c) : s.flushAll cs = s := by
  induction cs with
  | nil => rfl
  | cons c cs ih =>
    obtain ⟨⟨hbuf, htail, hbusy⟩, hrest⟩ := List.forall_mem_cons.mp h
    have hgo : s.resetGoOn c = s := by simp [State.resetGoOn, hbusy]
    rw [State.flushAll, hbuf, show s.cqFlush c ([] : List CplRec).length = s from rfl, hgo, htail]
    exact ih hrest

theorem State.sendAllPending_of_none (h : s.pcie.pend = []) (fns : List (Fin 16)) :
    fns.foldl (fun (s : State) n => s.sendAllPending n) s = s := by
  have hone : ∀ (fn : Fin 16) (vs : List Nat), vs.foldl (fun (s : State) v => s.sendPending fn v) s = s := fun fn vs => by
    induction vs with
    | nil => rfl
    | cons v vs ih =>
      have hv : s.sendPending fn v = s := by simp [State.sendPending, h]
      rw [List.foldl_cons, hv]
      exact ih
  induction fns with
  | nil => rfl
  | cons fn fns ih =>
    rw [List.foldl_cons, show s.sendAllPending fn = s from hone fn _]
    exact ih

theorem State.hostReturns_of_flush (hmig : s.migWait = []) (hpend : (s.flushAll allCtx).pcie.pend = []) :
    s.hostReturns = s.flushAll allCtx := by
  have h0 : { s with migWait := [] } = s := by rw [← hmig]
  rw [State.hostReturns, hmig]
  dsimp only [State.migPostAll]
  rw [h0]
  exact State.sendAllPending_of_none hpend allCtx

/-- Bytes inserted from address `a + k` on: each of their addresses reads its byte, every other as before. -/
theorem SMap.find?_foldl_insert {α β : Type} (f : β → α) (a j : Nat) (xs : List β) (k : Nat) (m : SMap α) :
    SMap.find? ((xs.zipIdx k).foldl (fun m p => SMap.insert m (a + p.2) (f p.1)) m) (a + j) =
      if j < k then SMap.find? m (a + j) else ((xs[j - k]?).map f).or (SMap.find? m (a + j)) := by
  induction xs generalizing k m with
  | nil => simp
  | cons x xs ih =>
    rw [List.zipIdx_cons, List.foldl_cons, ih]
    by_cases hlt : j < k
    · rw [if_pos hlt, if_pos (by omega), SMap.find?_insert_other _ _ (by omega)]
    · rw [if_neg hlt]
      by_cases heq : j = k
      · subst heq
        rw [if_pos (by omega), SMap.find?_insert_self, Nat.sub_self]
        rfl
      · rw [if_neg (by omega), SMap.find?_insert_other _ _ (by omega), show j - k = j - (k + 1) + 1 by omega, List.getElem?_cons_succ]

/-- The host memory after a store: each byte of the data at its address. -/
theorem hostStore_find (s : State) (a i : Nat) (data : List SB) {x : SB} (h : data[i]? = some x) :
    SMap.find? (s.hostStore a data).hostMem (a + i) = some x.1 := by
  have hmem : (s.hostStore a data).hostMem =
      (data.zipIdx).foldl (fun (m : SMap Byte) (p : SB × Nat) => SMap.insert m (a + p.2) p.1.1) s.hostMem :=
    ((State.frame.refl [.poison, .bch] _).markWords).hostMem_eq
  rw [hmem, SMap.find?_foldl_insert (fun x : SB => x.1) a i data 0, if_neg (Nat.not_lt_zero i), Nat.sub_zero, h]
  rfl

/-- Where the next completion record of context c goes in host memory. -/
def State.cqPlace (s : State) (c : CtxId) : Nat := (s.reg (ctxBase c + Reg.ctxCqBase)).toNat / 256 * 256 + 32 * (s.ctx c).cqTail

/-- The state after the record of context c that waited has been written. -/
def State.cqWritten (s : State) (c : CtxId) (r : CplRec) : State :=
  ((s.updCtx c (fun x => { x with cbuf := [] })).hostStore (s.cqPlace c) (clean (r.bytes (!(s.ctx c).cqLap)))).updCtx c
    (fun x => { x with cqTail := (ringNext (s.cqSize c) (s.ctx c).cqTail (s.ctx c).cqLap).1
                       cqLap := (ringNext (s.cqSize c) (s.ctx c).cqTail (s.ctx c).cqLap).2 })

theorem State.cqFlush_one {c : CtxId} {r : CplRec} (hbuf : (s.ctx c).cbuf = [r]) (hfull : s.cqFull c = false) (hup : s.hostUp = true)
    (hirq : r.irq = false) : s.cqFlush c 1 = s.cqWritten c r := by
  have hctx : (s.updCtx c (fun x => { x with cbuf := [] })).ctx c = { s.ctx c with cbuf := [] } := State.ctx_updCtx_self _ _ _
  rw [State.cqFlush, hbuf]
  dsimp only
  rw [hfull, hup]
  simp only [Bool.false_eq_true, Bool.not_true, if_false, State.cqFlush]
  simp only [State.cqWrite, hctx, hirq, State.countIrq, Bool.false_and, Bool.false_eq_true, if_false]
  rfl

theorem State.cqWritten_frame (s : State) (c : CtxId) (r : CplRec) : s.frame [.ctxs, .hostMem, .poison, .bch] (s.cqWritten c r) :=
  (State.frame.refl _ s).updCtx.hostStore.updCtx

theorem State.ctx_cqWritten (s : State) (c : CtxId) (r : CplRec) :
    (s.cqWritten c r).ctx c = { s.ctx c with cbuf := [], cqTail := (ringNext (s.cqSize c) (s.ctx c).cqTail (s.ctx c).cqLap).1,
                                              cqLap := (ringNext (s.cqSize c) (s.ctx c).cqTail (s.ctx c).cqLap).2 } := by
  have hstore : ∀ (v : State) (a : Nat) (b : List SB), (v.hostStore a b).ctx c = v.ctx c := fun v a b => by
    rw [State.hostStore_eq]
    rfl
  rw [State.cqWritten, State.ctx_updCtx_self, hstore, State.ctx_updCtx_self]

theorem State.ctx_cqWritten_other (s : State) {c d : CtxId} (r : CplRec) (h : d ≠ c) : (s.cqWritten c r).ctx d = s.ctx d := by
  have hstore : ∀ (v : State) (a : Nat) (b : List SB), (v.hostStore a b).ctx d = v.ctx d := fun v a b => by
    rw [State.hostStore_eq]
    rfl
  rw [State.cqWritten, State.ctx_updCtx_other _ _ h, hstore, State.ctx_updCtx_other _ _ h]

theorem State.hostMem_cqWritten (s : State) (c : CtxId) (r : CplRec) {i : Nat} {b : Byte} (h : (r.bytes (!(s.ctx c).cqLap))[i]? = some b) :
    SMap.find? (s.cqWritten c r).hostMem (s.cqPlace c + i) = some b := by
  have hclean : (clean (r.bytes (!(s.ctx c).cqLap)))[i]? = some (b, false) := by rw [clean, List.getElem?_map, h]; rfl
  exact hostStore_find (s.updCtx c (fun x => { x with cbuf := [] })) (s.cqPlace c) i _ hclean

theorem State.flushAll_one {c : CtxId} {r : CplRec} (hbuf : (s.ctx c).cbuf = [r]) (hfull : s.cqFull c = false) (hup : s.hostUp = true)
    (hirq : r.irq = false) (htail : (s.ctx c).tailBuf = []) (hbusy : (s.ctx c).resetBusy = false) (hothers : ∀ d, d ≠ c → s.nothingWaits d) :
    s.flushAll allCtx = s.cqWritten c r := by
  obtain ⟨l, m, hlm⟩ := List.append_of_mem (List.mem_finRange c)
  have hnd : (l ++ c :: m).Nodup := hlm ▸ List.nodup_finRange 16
  have hl : ∀ d ∈ l, d ≠ c := fun d hd h => (List.nodup_append.mp hnd).2.2 d hd c List.mem_cons_self h
  have hm : ∀ d ∈ m, d ≠ c := fun d hd h => (List.nodup_cons.mp (List.nodup_append.mp hnd).2.1).1 (h ▸ hd)
  have hflush : s.cqFlush c (s.ctx c).cbuf.length = s.cqWritten c r := by rw [hbuf]; exact State.cqFlush_one hbuf hfull hup hirq
  have hctx := s.ctx_cqWritten c r
  have hgo : (s.cqWritten c r).resetGoOn c = s.cqWritten c r := by simp [State.resetGoOn, hctx, hbusy]
  rw [show allCtx = l ++ c :: m from hlm, State.flushAll_append, State.flushAll_of_none fun d hd => hothers d (hl d hd), State.flushAll, hflush, hgo]
  rw [hctx, htail]
  change (s.cqWritten c r).flushAll m = _
  refine State.flushAll_of_none fun d hd => ?_
  have hd' := s.ctx_cqWritten_other r (hm d hd)
  have hw := hothers d (hm d hd)
  unfold State.nothingWaits at hw ⊢
  rw [hd']
  exact hw

/-- The state with the link up. -/
def State.linked (s : State) (gen width : Nat) : State := { s with pcie := { s.pcie with linkUp := true, refClk := true, gen := gen, width := width } }

theorem State.pcieUp_linked {gen width : Nat} (hup : s.up = true) (hperst : s.pwr.perst = false) (hdown : s.pcie.linkUp = false)
    (hgated : s.gated epDom = false) : s.pcieUp gen width = (s.linked gen width).hostReturns := by
  rw [State.pcieUp, if_pos (by simp [hup, hperst, hdown]), if_neg (by simp [hgated])]
  rfl

/-- Settles O17: the endpoint's reset for the loss, the flush of what waited for the return. -/
theorem linkDownAndUp : Obligations.LinkDownAndUp := by
  unfold Obligations.LinkDownAndUp
  refine ⟨fun s hup hvf => ?_, fun gen width s hup hperst hdown hgated hmig hpend htails => ?_⟩
  · obtain ⟨hparts, hlink, hvfEn, hnum, hheld, hmsix, hcount, hregs, hmigs⟩ := State.linkLost_parts hup hvf
    exact ⟨s.linkLost, rfl, hparts, hlink, hvfEn, hnum, hheld, hmsix, hcount, hregs, hmigs.trans s.unlinked_mig⟩
  · have hpcie := State.pcieUp_linked (gen := gen) (width := width) hup hperst hdown hgated
    refine ⟨fun hbufs => ?_, fun c r hbuf hothers hfull hirq => ?_⟩
    · have hflush : (s.linked gen width).flushAll allCtx = s.linked gen width :=
        State.flushAll_of_none fun d _ => ⟨hbufs d, htails d⟩
      have hret := State.hostReturns_of_flush (s := s.linked gen width) hmig (by rw [hflush]; exact hpend)
      exact ⟨s.linked gen width, congrArg Host.Outcome.next ((hpcie.trans hret).trans hflush), rfl⟩
    · obtain ⟨htail, hbusy⟩ := htails c
      have hflush : (s.linked gen width).flushAll allCtx = (s.linked gen width).cqWritten c r :=
        State.flushAll_one hbuf hfull (by rw [State.hostUp]; exact (by simp [hgated] : (true && !s.gated epDom) = true)) hirq htail hbusy
          fun d hd => ⟨hothers d hd, htails d⟩
      have hf := (s.linked gen width).cqWritten_frame c r
      have hret := State.hostReturns_of_flush (s := s.linked gen width) hmig (by rw [hflush, hf.pcie_eq]; exact hpend)
      have hctx := (s.linked gen width).ctx_cqWritten c r
      refine ⟨_, congrArg Host.Outcome.next ((hpcie.trans hret).trans hflush), by rw [hf.pcie_eq]; rfl, by rw [hctx], congrArg Ctx.cqTail hctx,
        fun i b hb => (s.linked gen width).hostMem_cqWritten c r hb, fun d hd => (s.linked gen width).ctx_cqWritten_other r hd, hf.regs_eq, hf.mem_eq⟩

end Sys2Proof.Machine
end

section
/-! PROOFS. Context resets and function-level resets (R206, R428, R440). -/

namespace Sys2Proof.Machine

set_option Elab.async false

open Sys2Proof

variable {s t u : State}

/-! ### What the reset of one context leaves of the others -/

/-- Work for context c: the device blocks' registers stay, and a context that is as at reset stays so. -/
structure State.ctxWork (c : CtxId) (s t : State) : Prop where
  dev : ∀ off, off < 0x1000000 → t.reg off = s.reg off
  blank : ∀ d, d ≠ c → s.ctx d = {} → t.ctx d = {}
  vf : t.pcie.vfEn = s.pcie.vfEn

variable {c : CtxId}

theorem State.ctxWork.refl (c : CtxId) (s : State) : s.ctxWork c s := ⟨fun _ _ => rfl, fun _ _ h => h, rfl⟩

theorem State.ctxWork.trans (h : State.ctxWork c s t) (h' : State.ctxWork c t u) : State.ctxWork c s u :=
  ⟨fun off hoff => (h'.dev off hoff).trans (h.dev off hoff), fun d hd hb => h'.blank d hd (h.blank d hd hb), h'.vf.trans h.vf⟩

theorem State.ctxWork.of_frame {l : List StatePart} (h : s.frame l t) (hr : .regs ∉ l := by simp) (hc : .ctxs ∉ l := by simp)
    (hp : .pcie ∉ l := by simp) : State.ctxWork c s t :=
  ⟨fun off _ => State.reg_congr (h.regs_eq hr) off, fun d _ hb => (congrArg (fun x => Vector.get x d) (h.ctxs_eq hc)).trans hb,
    congrArg Pcie.vfEn (h.pcie_eq hp)⟩

theorem State.ctxWork.updCtx (s : State) (f : Ctx → Ctx) : State.ctxWork c s (s.updCtx c f) :=
  ⟨fun off _ => State.reg_congr rfl off, fun _ hd hb => (State.ctx_updCtx_other s f hd).trans hb, rfl⟩

theorem State.ctxWork.release (s : State) : State.ctxWork c s s.release := by
  refine ⟨fun off _ => State.reg_congr rfl off, fun d _ hb => ?_, rfl⟩
  have h : s.release.ctx d = { s.ctx d with queues := (s.ctx d).queues.map (s.releaseHead d) } := by simp [State.release, State.ctx]
  rw [h, hb]
  simp [State.releaseHead]

theorem State.ctxWork.setFld (s : State) {f : Fld} (n : Nat) (hf : 0x1000000 ≤ f.off) : State.ctxWork c s (s.setFld f n) :=
  ⟨fun off hoff => State.reg_setFld_other s f n off (by omega), fun _ _ hb => hb, rfl⟩

theorem State.ctxWork.addFld (s : State) {f : Fld} (n : Nat) (hf : 0x1000000 ≤ f.off) : State.ctxWork c s (s.addFld f n) := .setFld s _ hf

theorem ctxBase_ge (c : CtxId) (o : Nat) : 0x1000000 ≤ ctxBase c + o := by unfold ctxBase; omega

theorem State.reg_clearPage_other (s : State) (c : CtxId) (keep : List Nat) {off : Nat} (h : off < ctxBase c ∨ ctxBase c + 0x10000 ≤ off) :
    (s.clearPage c keep).reg off = s.reg off := by
  have hkeep : (!(decide (ctxBase c ≤ off) && decide (off < ctxBase c + 0x10000)) || keep.contains (off - ctxBase c)) = true := by
    rcases h with h | h
    · simp [Nat.not_le.mpr h]
    · simp [Nat.not_lt.mpr h]
  simp only [State.reg, State.clearPage, SMap.get_keepKeys, hkeep, if_true]

theorem State.reg_clearPage (s : State) (c : CtxId) {keep : List Nat} {o : Nat} (ho : o < 0x10000) (hk : keep.contains o = false) :
    (s.clearPage c keep).reg (ctxBase c + o) = regReset (ctxBase c + o) := by
  have hout : (!(decide (ctxBase c ≤ ctxBase c + o) && decide (ctxBase c + o < ctxBase c + 0x10000)) ||
      keep.contains (ctxBase c + o - ctxBase c)) = false := by
    rw [Nat.add_sub_cancel_left, hk]
    simp [ho]
  simp only [State.reg, State.clearPage, SMap.get_keepKeys, hout, Bool.false_eq_true, if_false]

theorem State.ctxWork.clearPage (s : State) (keep : List Nat) : State.ctxWork c s (s.clearPage c keep) :=
  ⟨fun _ hoff => s.reg_clearPage_other c keep (.inl (Nat.lt_of_lt_of_le hoff (ctxBase_ge c 0))), fun _ _ hb => hb, rfl⟩

theorem State.pcie_wakeDom (s : State) (d : Nat) : (s.wakeDom d).pcie = s.pcie := ((State.frame.refl [.pwr, .link] s).wakeDom).pcie_eq

theorem State.ctxWork.sendMsix (s : State) (fn : Fin 16) (v : Nat) : State.ctxWork c s (s.sendMsix fn v) := by
  have h : s.frame [.link, .pwr, .pcie, .out] (s.sendMsix fn v) := (State.frame.refl _ s).sendMsix
  refine ⟨fun off _ => State.reg_congr h.regs_eq off, fun d _ hb => (congrArg (fun x => Vector.get x d) h.ctxs_eq).trans hb, ?_⟩
  unfold State.sendMsix
  split
  · rfl
  split
  · rfl
  split
  · rfl
  · rw [State.pcie_wakeDom]

theorem State.ctxWork.countIrq (s : State) (irq : Bool) : State.ctxWork c s (s.countIrq c irq) := by
  unfold State.countIrq
  split
  · extract_lets n s1
    have h1 : State.ctxWork c s s1 := .updCtx s _
    split
    · exact (h1.trans (.updCtx s1 _)).trans (.sendMsix _ _ _)
    · exact h1
  · exact .refl c s

theorem State.ctxWork.cqWrite (s : State) (r : CplRec) : State.ctxWork c s (s.cqWrite c r) := by
  unfold State.cqWrite
  extract_lets x a n
  exact ((State.ctxWork.of_frame (State.frame.refl [.hostMem, .poison, .bch] s).hostStore).trans (.updCtx _ _)).trans (.countIrq _ _)

theorem State.ctxWork.cqFlush (s : State) (fuel : Nat) : State.ctxWork c s (s.cqFlush c fuel) := by
  induction fuel generalizing s with
  | zero => exact .refl c s
  | succ fuel ih =>
    unfold State.cqFlush
    split
    · exact .refl c s
    split
    · exact .refl c s
    split
    · exact .of_frame (State.frame.refl [.pwr, .link] s).wakeDom
    · exact ((State.ctxWork.updCtx s _).trans (.cqWrite _ _)).trans (ih _)

theorem State.ctxWork.cqPostAll (s : State) (rs : List CplRec) : State.ctxWork c s (s.cqPostAll c rs) := by
  induction rs generalizing s with
  | nil => exact .refl c s
  | cons r rs ih => exact ((State.ctxWork.updCtx s _).trans (.cqFlush _ _)).trans (ih _)

theorem State.ctxWork.migPost (s : State) {m : MigReq} (hm : m.ctx = c) : State.ctxWork c s (s.migPost m) := by
  subst hm
  unfold State.migPost
  extract_lets a s1
  have h1 : State.ctxWork m.ctx s s1 := .of_frame (State.frame.refl [.hostMem, .poison, .bch] s).hostStore
  split
  · exact (h1.trans (.updCtx s1 _)).trans (.release _)
  · exact h1

/-- An aborted request that has not started leaves the engine: it counts nowhere in the device's blocks. -/
theorem State.ctxWork.migFinish (s : State) {m : MigReq} (hm : m.ctx = c) (hstart : m.started = false) (moved : Bool) :
    State.ctxWork c s (s.migFinish m .aborted moved) := by
  unfold State.migFinish
  extract_lets e l s1 s2 s3 s4 s5
  have h2 : s.frame [.mig, .link, .objs] s2 := by
    unfold s2
    split
    · exact (State.frame.refl _ s).update.setObj
    · exact (State.frame.refl _ s).update
  have h3 : s3 = s2 := if_neg (by simp [hstart])
  have h4 : s4 = s3 := if_neg (by simp [hstart])
  have h5 : s5 = s4 := if_neg (by simp)
  rw [h5, h4, h3]
  split
  · exact (State.ctxWork.of_frame h2).trans (.migPost _ hm)
  · exact .of_frame ((h2.mono (by simp) : s.frame [.mig, .link, .objs, .migWait, .pwr] s2).update.wakeDom)

theorem State.ctxWork.migAbort (s : State) : State.ctxWork c s (s.migAbort c) := by
  have key : ∀ (ms : List MigReq) (t : State), (∀ m ∈ ms, m.ctx = c ∧ m.started = false) → State.ctxWork c t (t.migAbortL ms) := by
    intro ms
    induction ms with
    | nil => exact fun t _ => .refl c t
    | cons m ms ih =>
      intro t h
      obtain ⟨⟨hctx, hstart⟩, hrest⟩ := List.forall_mem_cons.mp h
      exact (State.ctxWork.migFinish t hctx hstart false).trans (ih _ hrest)
  refine key _ s fun m hm => ?_
  have hp := (List.mem_filter.mp hm).2
  simpa using hp

theorem State.ctxWork.resetStart (s : State) : State.ctxWork c s (s.resetStart c) := by
  unfold State.resetStart
  extract_lets recs s1 s2 l s3
  have h1 : State.ctxWork c s s1 :=
    ((State.ctxWork.of_frame (State.frame.refl [.freeCtr, .mem, .hostMem, .deposits, .poison, .bch, .objs, .link, .pwr, .out] s).scramble).trans
      (.clearPage _ _)).trans (.updCtx _ _)
  have h2 : State.ctxWork c s1 s2 := (State.ctxWork.of_frame (State.frame.refl [.armings, .link] s1).removeArms).trans (.migAbort _)
  have h3 : State.ctxWork c s2 s3 := .of_frame (State.frame.refl [.running, .link, .sec] s2).update
  exact ((h1.trans h2).trans h3).trans (.cqPostAll _ _)

theorem State.ctxWork.resetEnd (s : State) : State.ctxWork c s (s.resetEnd c) := by
  unfold State.resetEnd
  extract_lets k s1
  have h1 : State.ctxWork c s s1 := (State.ctxWork.of_frame (State.frame.refl [.mem, .poison, .bch] s).zeroFrom).trans (.updCtx _ _)
  have h2 : State.ctxWork c s1 { s1 with pcie := { s1.pcie with handover := s1.pcie.handover &&& ~~~ (BitVec.ofNat 16 (2 ^ c.val)) } } :=
    ⟨fun off _ => State.reg_congr rfl off, fun _ _ hb => hb, rfl⟩
  exact (h1.trans h2).trans (.of_frame (State.frame.refl [.orphans, .models, .blks, .tsets] _).drainSlots)

theorem State.ctxWork.resetGoOn (s : State) : State.ctxWork c s (s.resetGoOn c) := by
  unfold State.resetGoOn
  split
  · exact .resetEnd s
  · exact .refl c s

theorem State.ctxWork.ctxReset (s : State) : State.ctxWork c s (s.ctxReset c) := by
  unfold State.ctxReset
  split
  · exact .refl c s
  · exact (State.ctxWork.resetStart s).trans (.resetGoOn _)

theorem State.ctxWork.resetDrop (s : State) : State.ctxWork c s (s.resetDrop c) := by
  unfold State.resetDrop
  split
  · exact .refl c s
  extract_lets n s1
  have h1 : State.ctxWork c s s1 := .updCtx s _
  exact ((h1.trans (.addFld s1 _ (ctxBase_ge c _))).trans (.cqFlush _ _)).trans (.resetGoOn _)

theorem State.ctxWork.ctxFlr (s : State) : State.ctxWork c s (s.ctxFlr c) := by
  unfold State.ctxFlr
  extract_lets s1
  have h1 : State.ctxWork c s s1 := (State.ctxWork.ctxReset s).trans (.resetDrop _)
  exact (h1.trans (.clearPage s1 _)).trans (.updCtx _ _)

theorem State.ctxWork.ctxReturn (s : State) : State.ctxWork c s (s.ctxReturn c) := by
  unfold State.ctxReturn
  split
  · exact .resetDrop s
  extract_lets n x s1 s2
  have h1 : State.ctxWork c s s1 :=
    (State.ctxWork.of_frame (State.frame.refl [.freeCtr, .mem, .hostMem, .deposits, .poison, .bch, .objs, .link, .pwr, .out] s).scramble :
      State.ctxWork c s x).trans (.of_frame (State.frame.refl [.running] x).update)
  have h2 : State.ctxWork c s1 s2 := (State.ctxWork.updCtx s1 _).trans (.resetStart _)
  exact ((h1.trans h2).trans (.addFld s2 _ (ctxBase_ge c _))).trans (.resetGoOn _)

/-! ### A function-level reset of the physical function -/

theorem State.ctx_ctxFlr (s : State) (c : CtxId) : (s.ctxFlr c).ctx c = {} := State.ctx_updCtx_self _ c _

theorem State.dev_returnL (s : State) (cs : List CtxId) {off : Nat} (h : off < 0x1000000) : (s.returnL cs).reg off = s.reg off := by
  induction cs generalizing s with
  | nil => rfl
  | cons c cs ih =>
    refine (ih _).trans ?_
    split
    · exact (State.ctxWork.ctxReturn (c := c) s).dev off h
    · rfl

theorem State.dev_ctxFlrs (s : State) (cs : List CtxId) {off : Nat} (h : off < 0x1000000) :
    (cs.foldl (fun (s : State) c => s.ctxFlr c) s).reg off = s.reg off := by
  induction cs generalizing s with
  | nil => rfl
  | cons c cs ih => exact (ih _).trans ((State.ctxWork.ctxFlr (c := c) s).dev off h)

theorem State.ctx_ctxFlrs (s : State) (cs : List CtxId) {d : CtxId} (h : d ∈ cs ∨ s.ctx d = {}) :
    (cs.foldl (fun (s : State) c => s.ctxFlr c) s).ctx d = {} := by
  induction cs generalizing s with
  | nil => exact h.resolve_left List.not_mem_nil
  | cons c cs ih =>
    refine ih _ ?_
    by_cases hd : d = c
    · subst hd
      exact .inr (s.ctx_ctxFlr d)
    · exact h.imp (fun hm => (List.mem_cons.mp hm).resolve_left hd) ((State.ctxWork.ctxFlr (c := c) s).blank d hd)

theorem State.vf_ctxFlrs (s : State) (cs : List CtxId) : (cs.foldl (fun (s : State) c => s.ctxFlr c) s).pcie.vfEn = s.pcie.vfEn := by
  induction cs generalizing s with
  | nil => rfl
  | cons c cs ih => exact (ih _).trans (State.ctxWork.ctxFlr (c := c) s).vf

theorem State.pfReset_eq (s : State) : ∃ msix pend held d3 flr, s.pfReset =
    { allCtx.foldl (fun (s : State) c => s.ctxFlr c) s.vfClear with
      pcie := { (allCtx.foldl (fun (s : State) c => s.ctxFlr c) s.vfClear).pcie with
        msix := msix, pend := pend, held := held, d3 := d3, flrWait := flr, numVfs := 0 } } := by
  unfold State.pfReset
  extract_lets s1 s2 p
  obtain ⟨msix, pend, held, d3, flr, h⟩ := s1.pcie_fnResets allCtx
  have h2 : s2 = _ := h
  clear_value s2
  change ∃ msix pend held d3 flr, _ = { s1 with pcie := { s1.pcie with msix := msix, pend := pend, held := held, d3 := d3, flrWait := flr, numVfs := 0 } }
  clear_value s1
  subst h2
  exact ⟨msix, pend, held, d3, flr, rfl⟩

theorem State.msixWord_pfReset (s : State) (fn : Fin 16) {i : Nat} (hi : i < 256) : s.pfReset.msixWord fn i = State.reset.msixWord fn i := by
  unfold State.pfReset
  extract_lets s1 s2 p
  have h2 : s2.msixWord fn i = State.reset.msixWord fn i := State.msixWord_fnResets (s := s1) allCtx (.inl (List.mem_finRange fn)) hi
  clear_value s2
  exact h2

/-- Settles O19: each context's reset keeps the device's registers and leaves the contexts reset before it as they are. -/
theorem pfFunctionReset : Obligations.PfFunctionReset := by
  unfold Obligations.PfFunctionReset
  intro s
  have hdev : ∀ off, off < 0x1000000 → (allCtx.foldl (fun (s : State) c => s.ctxFlr c) s.vfClear).reg off = s.reg off := fun off h =>
    (State.dev_ctxFlrs _ _ h).trans (s.dev_returnL allCtx h)
  have hctx : ∀ c, (allCtx.foldl (fun (s : State) c => s.ctxFlr c) s.vfClear).ctx c = {} := fun c =>
    State.ctx_ctxFlrs _ _ (.inl (List.mem_finRange c))
  have hvf := State.vf_ctxFlrs s.vfClear allCtx
  have hmsix := fun (fn : Fin 16) (i : Nat) (hi : i < 256) => s.msixWord_pfReset fn hi
  obtain ⟨msix, pend, held, d3, flr, hparts⟩ := s.pfReset_eq
  generalize allCtx.foldl (fun (s : State) c => s.ctxFlr c) s.vfClear = v at *
  refine ⟨s.pfReset, rfl, ?_, ?_, fun c => ?_, hmsix, fun off h => ?_⟩
  · rw [hparts]
    exact hvf
  · rw [hparts]
  · rw [hparts]
    exact hctx c
  · exact (State.reg_congr (by rw [hparts]) off).trans (hdev off h)

/-! ### A function-level reset of a virtual function -/

/-- An arming of context 1. -/
def leftArming : Arming := { ctx := 1, eng := .mxe, slot := 0, desc := {} }

/-- Virtual function 1 holds context 1, whose reset is in progress; an arming of it stands all the same. -/
def leftState : State :=
  { ctxs := State.reset.ctxs.set 1 { resetBusy := true }, pcie := { vfEn := true, numVfs := 1 }, armings := [leftArming] }

theorem State.armings_ctxFlr_of_busy (h : (s.ctx c).resetBusy = true) : (s.ctxFlr c).armings = s.armings := by
  have hreset : s.ctxReset c = s := if_pos h
  rw [State.ctxFlr, hreset]
  exact ((State.frame.refl [.regs, .ctxs, .mem, .hostMem, .poison, .bch, .orphans, .models, .blks, .tsets, .link, .pwr, .pcie, .out]
    s).resetDrop.clearPage.updCtx).armings_eq

theorem leftState_armings : (leftState.vfReset 1).armings = [leftArming] := by
  have hflr : leftState.vfReset 1 = (leftState.ctxFlr 1).fnReset 1 := rfl
  rw [hflr]
  exact State.armings_ctxFlr_of_busy rfl

/-- Refutes O18: the statement is about every state, also one in which an arming of a context stands though its reset is in progress; the
reset of the function then ends that reset, and the arming stays. -/
theorem not_virtualFunctions : ¬ Obligations.VirtualFunctions := by
  unfold Obligations.VirtualFunctions
  rintro ⟨h, -⟩
  obtain ⟨t, ht, -, -, -, harms, -, -⟩ := h 1 leftState (by decide) (by decide) (by decide)
  obtain rfl : leftState.vfReset 1 = t := Host.Outcome.next.inj ht
  exact harms leftArming (by rw [leftState_armings]; exact List.mem_singleton_self _) rfl

end Sys2Proof.Machine
end

section
/-! PROOFS. A context reset (R206, R440, R442) and the queue enables (R184, R245). -/

namespace Sys2Proof.Machine

set_option Elab.async false

open Sys2Proof

variable {s t u : State}

variable {c : CtxId}

/-! ### Migration requests that a reset aborts -/

/-- An aborted request that has not started counts in no register. -/
theorem State.migFinish_aborted {m : MigReq} (hstart : m.started = false) (moved : Bool) :
    s.frame [.ctxs, .hostMem, .poison, .bch, .objs, .mig, .migWait, .link, .pwr] (s.migFinish m .aborted moved) := by
  unfold State.migFinish
  extract_lets e l s1 s2 s3 s4 s5
  have h2 : s.frame [.ctxs, .hostMem, .poison, .bch, .objs, .mig, .migWait, .link, .pwr] s2 := by
    unfold s2
    split
    · exact (State.frame.refl _ s).update.setObj
    · exact (State.frame.refl _ s).update
  have h3 : s3 = s2 := if_neg (by simp [hstart])
  have h4 : s4 = s3 := if_neg (by simp [hstart])
  have h5 : s5 = s4 := if_neg (by simp)
  rw [h5, h4, h3]
  exact h2.migPost.either h2.update.wakeDom

/-- The counters and the heads' releases of a context are all that its aborted migration requests change in it. -/
def Ctx.signalled (x y : Ctx) : Prop := ∃ sync queues, y = { x with sync := sync, queues := queues }

theorem Ctx.signalled.refl (x : Ctx) : x.signalled x := ⟨_, _, rfl⟩

theorem Ctx.signalled.trans {x y z : Ctx} (h : x.signalled y) (h' : y.signalled z) : x.signalled z := by
  obtain ⟨_, _, rfl⟩ := h
  obtain ⟨_, _, rfl⟩ := h'
  exact ⟨_, _, rfl⟩

theorem State.ctx_congr (h : t.ctxs = s.ctxs) (d : CtxId) : t.ctx d = s.ctx d := congrArg (fun x => Vector.get x d) h

theorem State.ctx_scnAdd (s : State) (c : CtxId) (n inc : Nat) : (s.ctx c).signalled ((s.scnAdd c n inc).ctx c) := by
  unfold State.scnAdd State.setSync
  rw [State.ctx_release, State.ctx_updCtx_self]
  exact ⟨_, _, rfl⟩

theorem State.ctx_migPost (s : State) {m : MigReq} (hm : m.ctx = c) : (s.ctx c).signalled ((s.migPost m).ctx c) := by
  subst hm
  unfold State.migPost
  extract_lets a s1
  have h1 : s1.ctx m.ctx = s.ctx m.ctx := State.ctx_congr ((State.frame.refl [.hostMem, .poison, .bch] s).hostStore).ctxs_eq _
  split
  · rw [← h1]
    exact s1.ctx_scnAdd _ _ _
  · rw [h1]
    exact .refl _

theorem State.ctx_migFinish (s : State) {m : MigReq} (hm : m.ctx = c) (st : Status) (moved : Bool) :
    (s.ctx c).signalled ((s.migFinish m st moved).ctx c) := by
  unfold State.migFinish
  extract_lets e l s1 s2 s3 s4 s5
  have h2 : s.frame [.mig, .link, .objs, .regs] s2 := by
    unfold s2
    split
    · exact (State.frame.refl _ s).update.setObj
    · exact (State.frame.refl _ s).update
  have h5 : s.frame [.mig, .link, .objs, .regs] s5 := by
    have h3 : s.frame [.mig, .link, .objs, .regs] s3 := h2.addFld.either h2
    have h4 : s.frame [.mig, .link, .objs, .regs] s4 := h3.addFld.either h3
    exact h4.addFld.either h4
  have hctx : s5.ctx c = s.ctx c := State.ctx_congr h5.ctxs_eq c
  split
  · rw [← hctx]
    exact s5.ctx_migPost hm
  · rw [← hctx]
    have h6 : s5.frame [.migWait, .pwr, .link] ({ s5 with migWait := s5.migWait ++ [e] }.wakeDom epDom) := (State.frame.refl _ s5).update.wakeDom
    rw [State.ctx_congr h6.ctxs_eq c]
    exact .refl _

theorem State.migAbort_work (s : State) (c : CtxId) :
    s.frame [.ctxs, .hostMem, .poison, .bch, .objs, .mig, .migWait, .link, .pwr] (s.migAbort c) ∧
      (s.ctx c).signalled ((s.migAbort c).ctx c) := by
  have key : ∀ (ms : List MigReq) (t : State), (∀ m ∈ ms, m.ctx = c ∧ m.started = false) →
      t.frame [.ctxs, .hostMem, .poison, .bch, .objs, .mig, .migWait, .link, .pwr] (t.migAbortL ms) ∧
        (t.ctx c).signalled ((t.migAbortL ms).ctx c) := by
    intro ms
    induction ms with
    | nil => exact fun t _ => ⟨.refl _ t, .refl _⟩
    | cons m ms ih =>
      intro t h
      obtain ⟨⟨hctx, hstart⟩, hrest⟩ := List.forall_mem_cons.mp h
      obtain ⟨hf, hs⟩ := ih (t.migFinish m .aborted false) hrest
      exact ⟨(State.migFinish_aborted hstart false).trans hf, (t.ctx_migFinish hctx .aborted false).trans hs⟩
  refine key _ s fun m hm => ?_
  have hp := (List.mem_filter.mp hm).2
  simpa using hp

/-! ### The start of a reset -/

theorem State.armings_removeArms (s : State) (p : Arming → Bool) {a : Arming} (h : a ∈ (s.removeArms p).armings) :
    ∃ b ∈ s.armings, p b = false ∧ a.ctx = b.ctx := by
  unfold State.removeArms at h
  extract_lets kept flag u at h
  have hu : (u.dropReqsOf kept (s.armings.filter p)).armings = u.armings := ((State.frame.refl [.link] u).dropReqsOf).armings_eq
  rw [hu] at h
  obtain ⟨b, hb, rfl⟩ := List.mem_map.mp h
  obtain ⟨hmem, hp⟩ := List.mem_filter.mp hb
  exact ⟨b, hmem, by simpa using hp, rfl⟩

/-- What a context is once its reset has begun: its structures abandoned, its request in progress, `rs` the records that wait. -/
structure State.resetting (s t : State) (c : CtxId) (rs : List CplRec) : Prop where
  armings : ∀ a ∈ t.armings, a.ctx ≠ c
  running : ∀ x ∈ t.running, x.ctx ≠ c
  exact : (t.ctx c).exactReq = false
  busy : (t.ctx c).resetBusy = true
  cbuf : (t.ctx c).cbuf = (s.ctx c).cbuf ++ rs
  dropped : t.reg (ctxBase c + Reg.ctxReqStat) = regReset (ctxBase c + Reg.ctxReqStat)
  pcie : t.pcie = s.pcie

/-- Records that no host memory takes wait. -/
theorem State.cqPostAll_down (h : s.pcie.linkUp = false) (rs : List CplRec) :
    s.frame [.ctxs, .pwr, .link] (s.cqPostAll c rs) ∧ (s.cqPostAll c rs).ctx c = { s.ctx c with cbuf := (s.ctx c).cbuf ++ rs } := by
  induction rs generalizing s with
  | nil => exact ⟨.refl _ s, by simp [State.cqPostAll]⟩
  | cons r rs ih =>
    have hflush : ∀ (t : State) (n : Nat), t.pcie.linkUp = false → t.frame [.pwr, .link] (t.cqFlush c n) := fun t n ht => by
      cases n with
      | zero => exact .refl _ t
      | succ n =>
        unfold State.cqFlush
        split
        · exact .refl _ t
        split
        · exact .refl _ t
        rw [if_pos (by simp [State.hostUp, ht])]
        exact (State.frame.refl _ t).wakeDom
    unfold State.cqPostAll State.cqPost
    extract_lets s1
    have h1 := hflush s1 ((s1.ctx c).cbuf.length) h
    obtain ⟨hf, hctx⟩ := ih (s := s1.cqFlush c ((s1.ctx c).cbuf.length)) (by rw [h1.pcie_eq]; exact h)
    have hs1 : s1.ctx c = { s.ctx c with cbuf := (s.ctx c).cbuf ++ [r] } := State.ctx_updCtx_self _ _ _
    refine ⟨((State.frame.refl _ s).updCtx.trans (h1.mono (by simp))).trans hf, ?_⟩
    rw [hctx, State.ctx_congr h1.ctxs_eq c, hs1]
    exact congrArg (fun l => ({ s.ctx c with cbuf := l } : Ctx)) (List.append_cons _ _ _).symm

/-- A context's page cleared, its structures, armings and migration requests given up. -/
def State.givenUp (s : State) (c : CtxId) : State :=
  ((((s.scramble (s.execsCtx c)).clearPage c keptRegs).updCtx c Ctx.abandon).removeArms (fun a => decide (a.ctx = c))).migAbort c

/-- The commands of the context taken out of execution. -/
def State.unqueued (s : State) (c : CtxId) : State :=
  { s with
    running := s.running.filter (fun x => decide (x.ctx ≠ c))
    link := { s.link with
      heldSig := s.link.heldSig.filter (fun k => decide (k.1 ≠ c))
      peerReqs := s.link.peerReqs.filter (fun r => decide (r.ctx ≠ c) || decide (2 ^ 20 < r.slot)) }
    sec := s.sec.dropCtx c }

/-- The records of a context's commands that its reset aborts. -/
def State.abortedRecs (s : State) (c : CtxId) : List CplRec := (s.inExecution c).map (fun x => abortedRec x.2.2 x.1 x.2.1 2 s.time.ns)

theorem State.resetStart_eq (s : State) (c : CtxId) :
    s.resetStart c = ((s.givenUp c).unqueued c).cqPostAll c (s.abortedRecs c) := rfl

theorem State.resetStart_held (s : State) (c : CtxId) : s.resetting ((s.givenUp c).unqueued c) c [] := by
  have hsc : s.frame [.freeCtr, .mem, .hostMem, .deposits, .poison, .bch, .objs, .link, .pwr, .out] (s.scramble (s.execsCtx c)) :=
    (State.frame.refl _ s).scramble
  have hpage : ((s.scramble (s.execsCtx c)).clearPage c keptRegs).reg (ctxBase c + Reg.ctxReqStat) = regReset (ctxBase c + Reg.ctxReqStat) :=
    State.reg_clearPage _ c (by decide) (by decide)
  have hv : s.frame [.freeCtr, .mem, .hostMem, .deposits, .poison, .bch, .objs, .link, .pwr, .out, .regs]
      ((s.scramble (s.execsCtx c)).clearPage c keptRegs) := (hsc.mono (by simp)).clearPage
  have hgiven : s.givenUp c = ((((s.scramble (s.execsCtx c)).clearPage c keptRegs).updCtx c Ctx.abandon).removeArms
    (fun a => decide (a.ctx = c))).migAbort c := rfl
  generalize (s.scramble (s.execsCtx c)).clearPage c keptRegs = v at *
  have hw : (v.updCtx c Ctx.abandon).frame [.armings, .link] ((v.updCtx c Ctx.abandon).removeArms (fun a => decide (a.ctx = c))) :=
    (State.frame.refl _ _).removeArms
  have harms := fun (a : Arming) => State.armings_removeArms (v.updCtx c Ctx.abandon) (fun a => decide (a.ctx = c)) (a := a)
  have hctx : ((v.updCtx c Ctx.abandon).removeArms (fun a => decide (a.ctx = c))).ctx c = (s.ctx c).abandon := by
    rw [State.ctx_congr hw.ctxs_eq c, State.ctx_updCtx_self, State.ctx_congr hv.ctxs_eq c]
  have hregs : (v.updCtx c Ctx.abandon).regs = v.regs := rfl
  have hpcie : (v.updCtx c Ctx.abandon).pcie = v.pcie := rfl
  generalize v.updCtx c Ctx.abandon = v' at *
  obtain ⟨hf, sync, queues, hsig⟩ := State.migAbort_work (v'.removeArms (fun a => decide (a.ctx = c))) c
  rw [← hgiven] at hf hsig
  rw [hctx] at hsig
  generalize v'.removeArms (fun a => decide (a.ctx = c)) = w at *
  generalize s.givenUp c = u at *
  have hu : (u.unqueued c).ctx c = u.ctx c := rfl
  refine ⟨fun a ha hc => ?_, fun x hx => ?_, ?_, ?_, ?_, ?_, ?_⟩
  · obtain ⟨b, -, hb, hab⟩ := harms a (hf.armings_eq ▸ ha)
    exact of_decide_eq_false hb (hab.symm.trans hc)
  · exact of_decide_eq_true (List.mem_filter.mp hx).2
  · rw [hu, hsig]; rfl
  · rw [hu, hsig]; rfl
  · rw [hu, hsig]; exact (List.append_nil _).symm
  · rw [← hpage]
    exact State.reg_congr (hf.regs_eq.trans (hw.regs_eq.trans hregs)) _
  · exact (hf.pcie_eq.trans (hw.pcie_eq.trans hpcie)).trans hv.pcie_eq

/-! ### The end of a reset -/

/-- A context whose reset is complete: queues, counters, requests and window as at reset, and its queue memory 0. -/
structure State.resetDone (t : State) (c : CtxId) : Prop where
  busy : (t.ctx c).resetBusy = false
  queues : ∀ e, t.queue c e = { head := 0, phase := true, dec := .idle }
  sync : (t.ctx c).sync = []
  reqs : (t.ctx c).reqs = []
  dup : (t.ctx c).dup = []
  memory : ∀ e slot off, slot < 4096 → off < 64 → t.peek (kQueue c e slot off) = (0, false)

/-- A context's reset structures. -/
def Ctx.cleared (x : Ctx) : Ctx := { x with queues := Vector.replicate 4 {}, sync := [], reqs := [], dup := [], resetBusy := false }

theorem kQueue_range (c : CtxId) (e : Engine) {slot off : Nat} (hs : slot < 4096) (ho : off < 64) :
    kQueues c ≤ kQueue c e slot off ∧ kQueue c e slot off < kQueues c + 2 ^ 20 := by
  have he := e.code.isLt
  have hm : (Engine.mxe).code.val = 0 := rfl
  unfold kQueues kQueue
  rw [hm]
  omega

theorem State.peek_congr (hm : t.mem = s.mem) (hp : t.poison = s.poison) (hb : t.bch = s.bch) (k : Nat) : t.peek k = s.peek k := by
  simp only [State.peek, State.wordErr, State.isPoison, hm, hp, hb]

theorem State.resetEnd_frame (s : State) (c : CtxId) :
    s.frame [.ctxs, .mem, .poison, .bch, .orphans, .models, .blks, .tsets, .pcie] (s.resetEnd c) := (State.frame.refl _ s).resetEnd

theorem State.ctx_resetEnd (s : State) (c : CtxId) : (s.resetEnd c).ctx c = (s.ctx c).cleared := by
  unfold State.resetEnd
  extract_lets k s1 p
  have h : s1.frame [.pcie, .orphans, .models, .blks, .tsets]
      ({ s1 with pcie := { s1.pcie with handover := s1.pcie.handover &&& ~~~ (BitVec.ofNat 16 (2 ^ c.val)) } }.drainSlots) :=
    (State.frame.refl _ s1).update.drainSlots
  exact (State.ctx_congr h.ctxs_eq c).trans (State.ctx_updCtx_self _ c _)

theorem State.peek_resetEnd (s : State) (c : CtxId) (e : Engine) {slot off : Nat} (hs : slot < 4096) (ho : off < 64) :
    (s.resetEnd c).peek (kQueue c e slot off) = (0, false) := by
  unfold State.resetEnd
  extract_lets k s1 p
  have h : s1.frame [.pcie, .orphans, .models, .blks, .tsets]
      ({ s1 with pcie := { s1.pcie with handover := s1.pcie.handover &&& ~~~ (BitVec.ofNat 16 (2 ^ c.val)) } }.drainSlots) :=
    (State.frame.refl _ s1).update.drainSlots
  refine (State.peek_congr (s := s.zeroFrom k (k + 2 ^ 20)) h.mem_eq h.poison_eq h.bch_eq _).trans (s.zeroFrom_peek _ _ _ ?_ ?_ (kQueue_range c e hs ho))
  · unfold k kQueues kQueue; omega
  · unfold k kQueues kQueue; omega

theorem State.resetEnd_done (s : State) (c : CtxId) : (s.resetEnd c).resetDone c := by
  have hctx := s.ctx_resetEnd c
  refine ⟨by rw [hctx]; rfl, fun e => ?_, by rw [hctx]; rfl, by rw [hctx]; rfl, by rw [hctx]; rfl,
    fun e slot off hs ho => s.peek_resetEnd c e hs ho⟩
  rw [State.queue, hctx]
  exact Vector.getElem_replicate _

theorem State.resetGoOn_ends (hbusy : (s.ctx c).resetBusy = true) (hbuf : (s.ctx c).cbuf = []) : s.resetGoOn c = s.resetEnd c := by
  rw [State.resetGoOn, hbusy, hbuf]
  rfl

theorem State.resetGoOn_waits {r : CplRec} (hbuf : r ∈ (s.ctx c).cbuf) (hr : r.ofReset = true) : s.resetGoOn c = s := by
  have hany : (s.ctx c).cbuf.any (·.ofReset) = true := List.any_eq_true.mpr ⟨r, hbuf, hr⟩
  rw [State.resetGoOn, hany, Bool.not_true, Bool.and_false]
  exact if_neg Bool.false_ne_true

theorem State.ctxReset_eq (h : (s.ctx c).resetBusy = false) : s.ctxReset c = (s.resetStart c).resetGoOn c := if_neg (by simp [h])

/-- With nothing in execution the reset completes at once. -/
theorem State.ctxReset_at_once (hbusy : (s.ctx c).resetBusy = false) (hexec : s.inExecution c = []) (hbuf : (s.ctx c).cbuf = []) :
    (s.ctxReset c).resetDone c ∧ (∀ a ∈ (s.ctxReset c).armings, a.ctx ≠ c) ∧ (∀ x ∈ (s.ctxReset c).running, x.ctx ≠ c) ∧
      ((s.ctxReset c).ctx c).exactReq = false := by
  have hrecs : s.abortedRecs c = [] := by rw [State.abortedRecs, hexec]; rfl
  have hstart : s.resetStart c = (s.givenUp c).unqueued c := by rw [State.resetStart_eq, hrecs]; rfl
  have h := s.resetStart_held c
  rw [State.ctxReset_eq hbusy, hstart]
  generalize (s.givenUp c).unqueued c = v at h
  obtain ⟨harms, hrun, hexact, hb, hcbuf, -, -⟩ := h
  rw [State.resetGoOn_ends hb (by rw [hcbuf, hbuf]; rfl)]
  have hf := v.resetEnd_frame c
  have hctx := v.ctx_resetEnd c
  have hdone := v.resetEnd_done c
  generalize v.resetEnd c = w at *
  exact ⟨hdone, hf.armings_eq ▸ harms, hf.running_eq ▸ hrun, by rw [hctx]; exact hexact⟩

theorem abortedRecs_ofReset {r : CplRec} (h : r ∈ s.abortedRecs c) : r.ofReset = true := by
  obtain ⟨x, -, rfl⟩ := List.mem_map.mp h
  rfl

/-- With the link down the records of its commands wait, and the reset with them. -/
theorem State.ctxReset_waits (hbusy : (s.ctx c).resetBusy = false) (hexec : s.inExecution c ≠ [])
    (hdown : s.pcie.linkUp = false) : s.resetting (s.ctxReset c) c (s.abortedRecs c) := by
  have h := s.resetStart_held c
  rw [State.ctxReset_eq hbusy, State.resetStart_eq]
  generalize (s.givenUp c).unqueued c = v at h
  obtain ⟨harms, hrun, hexact, hb, hcbuf, hreg, hpcie⟩ := h
  obtain ⟨hf, hctx⟩ := State.cqPostAll_down (c := c) (s := v) (by rw [hpcie]; exact hdown) (s.abortedRecs c)
  have hwait : (v.cqPostAll c (s.abortedRecs c)).resetGoOn c = v.cqPostAll c (s.abortedRecs c) := by
    obtain ⟨r, hr⟩ := List.exists_mem_of_ne_nil (s.abortedRecs c) (by simpa [State.abortedRecs] using hexec)
    refine State.resetGoOn_waits (r := r) ?_ (abortedRecs_ofReset hr)
    rw [hctx]
    exact List.mem_append_right _ hr
  rw [hwait]
  generalize v.cqPostAll c (s.abortedRecs c) = w at *
  refine ⟨hf.armings_eq ▸ harms, hf.running_eq ▸ hrun, by rw [hctx]; exact hexact, by rw [hctx]; exact hb, ?_,
    (State.reg_congr hf.regs_eq _).trans hreg, hf.pcie_eq.trans hpcie⟩
  rw [hctx, hcbuf]
  simp

theorem filter_ofReset (rs : List CplRec) (h : ∀ r ∈ rs, r.ofReset = true) :
    rs.filter (·.ofReset) = rs ∧ rs.filter (fun r => !r.ofReset) = [] :=
  ⟨List.filter_eq_self.mpr h, List.filter_eq_nil_iff.mpr fun r hr => by simp [h r hr]⟩

theorem regReset_page (c : CtxId) {o : Nat} (ho : o < 0x10000) : regReset (ctxBase c + o) = ((pageRow? o).map RegRow.resetW).getD 0 := by
  have hc := c.isLt
  have hrow : regRow? (ctxBase c + o) = pageRow? o := by
    unfold regRow? ctxBase
    rw [if_neg (by omega), if_pos (by omega), show (0x1000000 + 0x10000 * c.val + o) % 0x10000 = o by omega]
  rw [regReset, hrow]

/-- The reset value of CTX_REQ_STAT: nothing dropped. -/
theorem regReset_reqStat (c : CtxId) : wBits (regReset (ctxBase c + Reg.ctxReqStat)) 32 16 = 0 := by
  rw [regReset_page c (by decide), show ((pageRow? Reg.ctxReqStat).map RegRow.resetW).getD 0 = 0 from rfl]
  rfl

/-- The time limit drops the records that wait, counts them and completes the reset. -/
theorem State.resetDrop_completes {rs : List CplRec} (h : s.resetting t c rs) (hbuf : (s.ctx c).cbuf = []) (hrs : ∀ r ∈ rs, r.ofReset = true) :
    (t.resetDrop c).resetDone c ∧ ((t.resetDrop c).ctx c).cbuf = [] ∧
      (t.resetDrop c).fld (Reg.ctxReqStat_dropped.at c) = min 65535 rs.length := by
  obtain ⟨-, -, -, hb, hcbuf, hreg, -⟩ := h
  obtain ⟨hall, hnone⟩ := filter_ofReset rs hrs
  rw [hbuf, List.nil_append] at hcbuf
  unfold State.resetDrop
  rw [if_neg (by simp [hb])]
  extract_lets n s1
  have hctx : s1.ctx c = { t.ctx c with cbuf := [] } := by
    refine (State.ctx_updCtx_self _ c _).trans ?_
    rw [hcbuf, hnone]
  have hn : n = rs.length := by unfold n; rw [hcbuf, hall]
  have hfld : (s1.addFld (Reg.ctxReqStat_dropped.at c) n).fld (Reg.ctxReqStat_dropped.at c) = min 65535 rs.length := by
    have hzero : s1.fld (Reg.ctxReqStat_dropped.at c) = 0 := by
      unfold State.fld
      rw [show s1.reg (Reg.ctxReqStat_dropped.at c).off = regReset (ctxBase c + Reg.ctxReqStat) from hreg]
      exact regReset_reqStat c
    rw [State.fld_addFld_self s1 _ _ (show 32 + 16 ≤ 64 by decide), hzero, hn]
    show min (2 ^ 16 - 1) (0 + rs.length) = _
    simp
  have hctx' : (s1.addFld (Reg.ctxReqStat_dropped.at c) n).ctx c = { t.ctx c with cbuf := [] } := hctx
  rw [hctx]
  generalize s1.addFld (Reg.ctxReqStat_dropped.at c) n = v at *
  rw [show v.cqFlush c (([] : List CplRec).length) = v from rfl, State.resetGoOn_ends (by rw [hctx']; exact hb) (by rw [hctx'])]
  refine ⟨v.resetEnd_done c, by rw [v.ctx_resetEnd c, hctx']; rfl, ?_⟩
  rw [State.fld_congr (v.resetEnd_frame c).regs_eq, hfld]

/-- Settles O27: the start of a reset gives the context up; its end, at once or at the time limit, leaves it as at reset. -/
theorem contextReset : Obligations.ContextReset := by
  unfold Obligations.ContextReset
  intro c s hbusy done begun
  have ofDone : ∀ {t : State}, t.resetDone c → done t := fun h => ⟨h.busy, h.queues, h.sync, h.reqs, h.dup, h.memory⟩
  refine ⟨fun hexec hbuf => ?_, fun hexec hbuf hdown => ?_⟩
  · obtain ⟨hdone, hbegun⟩ := State.ctxReset_at_once hbusy hexec hbuf
    exact ⟨⟨s.ctxReset c, rfl, ofDone hdone, hbegun⟩, ⟨s.ctxReset c, rfl, ofDone hdone, hbegun⟩⟩
  · have h := State.ctxReset_waits hbusy hexec hdown
    obtain ⟨hdone, hempty, hcount⟩ := State.resetDrop_completes h hbuf fun r hr => abortedRecs_ofReset hr
    refine ⟨s.ctxReset c, (s.ctxReset c).resetDrop c, rfl, ⟨h.armings, h.running, h.exact⟩, h.busy, ?_, rfl, ofDone hdone, hempty, ?_⟩
    · rw [h.cbuf, hbuf, List.nil_append]
      rfl
    · rw [hcount, State.abortedRecs, List.length_map]

/-! ### The queue enables -/

/-- A head keeps its place; it is decoded as before or not at all. -/
def Queue.keepsPlace (q q' : Queue) : Prop := q'.head = q.head ∧ q'.phase = q.phase ∧ (q'.dec = q.dec ∨ q'.dec = .idle)

theorem Queue.keepsPlace.refl (q : Queue) : q.keepsPlace q := ⟨rfl, rfl, .inl rfl⟩

theorem Queue.keepsPlace.trans {q q' q'' : Queue} (h : q.keepsPlace q') (h' : q'.keepsPlace q'') : q.keepsPlace q'' := by
  obtain ⟨hhead, hphase, hdec⟩ := h
  obtain ⟨hhead', hphase', hdec'⟩ := h'
  refine ⟨hhead'.trans hhead, hphase'.trans hphase, ?_⟩
  rcases hdec' with hdec' | hdec'
  · exact hdec.imp hdec'.trans hdec'.trans
  · exact .inr hdec'

theorem State.setAside_self (s : State) (c : CtxId) (e : Engine) :
    (s.queue c e).keepsPlace ((s.setAside c e).queue c e) ∧
      ∀ w r f, (s.queue c e).dec = .held w r f → ((s.setAside c e).queue c e).dec = .idle := by
  unfold State.setAside
  extract_lets q
  split
  next w r f h =>
    rw [State.queue_setQueue_self]
    exact ⟨⟨rfl, rfl, .inr rfl⟩, fun _ _ _ _ => rfl⟩
  next h => exact ⟨.refl _, fun w r f hq => absurd hq (h w r f)⟩

theorem State.setAside_other (s : State) (c : CtxId) {e f : Engine} (h : f ≠ e) : (s.setAside c e).queue c f = s.queue c f := by
  unfold State.setAside
  extract_lets q
  split
  · exact State.queue_setQueue_other _ _ (.inr h)
  · rfl

theorem State.setAsideL_place (c : CtxId) (bits : Nat) (es : List Engine) (e : Engine) (s : State) :
    (s.queue c e).keepsPlace ((s.setAsideL c bits es).queue c e) ∧
      (e ∈ es → Nat.testBit bits e.code = true → ∀ w r f, (s.queue c e).dec = .held w r f → ((s.setAsideL c bits es).queue c e).dec = .idle) := by
  induction es generalizing s with
  | nil => exact ⟨.refl _, fun h => absurd h List.not_mem_nil⟩
  | cons e' es ih =>
    obtain ⟨hplace, hidle⟩ := ih (if Nat.testBit bits e'.code then s.setAside c e' else s)
    by_cases he : e = e'
    · subst he
      by_cases hbit : Nat.testBit bits e.code = true
      · rw [if_pos hbit] at hplace
        obtain ⟨hself, hheld⟩ := s.setAside_self c e
        rw [State.setAsideL, if_pos hbit]
        refine ⟨hself.trans hplace, fun _ _ w r f hq => ?_⟩
        obtain ⟨-, -, hdec⟩ := hplace
        exact hdec.elim (·.trans (hheld w r f hq)) id
      · rw [if_neg hbit] at hplace
        rw [State.setAsideL, if_neg hbit]
        exact ⟨hplace, fun _ h => absurd h hbit⟩
    · have hsame : (if Nat.testBit bits e'.code then s.setAside c e' else s).queue c e = s.queue c e := by
        split
        · exact s.setAside_other c he
        · rfl
      rw [hsame] at hplace hidle
      exact ⟨hplace, fun hm => hidle ((List.mem_cons.mp hm).resolve_left he)⟩

theorem State.recheckHead_place (s : State) (c : CtxId) (q : Queue) :
    (s.recheckHead c q).head = q.head ∧ (s.recheckHead c q).phase = q.phase ∧ (q.dec = .idle → (s.recheckHead c q).dec = .idle) := by
  unfold State.recheckHead
  split
  next w r h =>
    have hne : q.dec ≠ .idle := by simp [h]
    split
    · exact ⟨rfl, rfl, fun hq => absurd hq hne⟩
    · split
      · exact ⟨rfl, rfl, id⟩
      · exact ⟨rfl, rfl, fun _ => rfl⟩
  next => exact ⟨rfl, rfl, id⟩

theorem State.queue_recheck (s : State) (c : CtxId) (e : Engine) : (s.recheck c).queue c e = s.recheckHead c (s.queue c e) := by
  rw [State.recheck, State.queue, State.ctx_updCtx_self]
  exact Vector.getElem_map ..

/-! ### Records leave the queues as they are -/

/-- Every queue is as before. -/
def State.keepsQueues (s t : State) : Prop := ∀ d e, t.queue d e = s.queue d e

theorem State.keepsQueues.refl (s : State) : s.keepsQueues s := fun _ _ => rfl

theorem State.keepsQueues.trans (h : s.keepsQueues t) (h' : t.keepsQueues u) : s.keepsQueues u := fun d e => (h' d e).trans (h d e)

theorem State.keepsQueues.of_frame {l : List StatePart} (h : s.frame l t) (hc : .ctxs ∉ l := by simp) : s.keepsQueues t := fun d e =>
  congrArg (fun x : Ctx => x.queues[e.code]) (State.ctx_congr (h.ctxs_eq hc) d)

theorem State.keepsQueues.updCtx (s : State) {c : CtxId} {f : Ctx → Ctx} (hf : ∀ x, (f x).queues = x.queues) : s.keepsQueues (s.updCtx c f) := fun d e => by
  by_cases h : d = c
  · subst h
    rw [State.queue, State.ctx_updCtx_self]
    exact congrArg (fun q => q[e.code]) (hf _)
  · rw [State.queue, State.ctx_updCtx_other _ _ h]
    rfl

theorem State.keepsQueues.afterUpd {c : CtxId} {f : Ctx → Ctx} (h : (s.updCtx c f).keepsQueues t) (hf : ∀ x, (f x).queues = x.queues) :
    s.keepsQueues t := (State.keepsQueues.updCtx s hf).trans h

theorem State.keepsQueues.sendMsix (s : State) (fn : Fin 16) (v : Nat) : s.keepsQueues (s.sendMsix fn v) :=
  .of_frame (State.frame.refl [.link, .pwr, .pcie, .out] s).sendMsix

theorem State.keepsQueues.countIrq (s : State) (c : CtxId) (irq : Bool) : s.keepsQueues (s.countIrq c irq) := by
  unfold State.countIrq
  split
  · extract_lets n s1
    have h1 : s.keepsQueues s1 := .updCtx s fun _ => rfl
    split
    · exact h1.trans ((State.keepsQueues.sendMsix _ _ _).afterUpd fun _ => rfl)
    · exact h1
  · exact .refl s

theorem State.keepsQueues.cqWrite (s : State) (c : CtxId) (r : CplRec) : s.keepsQueues (s.cqWrite c r) := by
  unfold State.cqWrite
  extract_lets x a n
  exact (State.keepsQueues.of_frame (State.frame.refl [.hostMem, .poison, .bch] s).hostStore).trans
    ((State.keepsQueues.countIrq _ _ _).afterUpd fun _ => rfl)

theorem State.keepsQueues.cqFlush (s : State) (c : CtxId) (fuel : Nat) : s.keepsQueues (s.cqFlush c fuel) := by
  induction fuel generalizing s with
  | zero => exact .refl s
  | succ fuel ih =>
    unfold State.cqFlush
    split
    · exact .refl s
    split
    · exact .refl s
    split
    · exact .of_frame (State.frame.refl [.pwr, .link] s).wakeDom
    · refine State.keepsQueues.trans ?_ (ih _)
      exact (State.keepsQueues.cqWrite _ _ _).afterUpd fun _ => rfl

theorem State.keepsQueues.cqPostAll (s : State) (c : CtxId) (rs : List CplRec) : s.keepsQueues (s.cqPostAll c rs) := by
  induction rs generalizing s with
  | nil => exact .refl s
  | cons r rs ih =>
    refine State.keepsQueues.trans ?_ (ih _)
    exact (State.keepsQueues.cqFlush _ _ _).afterUpd fun _ => rfl

theorem State.keepsQueues.postTrips (s : State) (c : CtxId) : s.keepsQueues (s.postTrips c) := by
  unfold State.postTrips
  extract_lets mine rest
  split
  · exact .refl s
  · exact (State.keepsQueues.of_frame (State.frame.refl [.pwr] s).update).trans (.cqPostAll _ _ _)

theorem testBit_disabled {old new : Nat} (hnew : new < 16) (e : Engine) (hold : Nat.testBit old e.code = true)
    (hoff : Nat.testBit new e.code = false) : Nat.testBit (old &&& (15 - new)) e.code = true := by
  have hcompl : ∀ n, n < 16 → ∀ k : Fin 4, Nat.testBit (15 - n) k = !Nat.testBit n k := by decide
  rw [Nat.testBit_and, hold, hcompl new hnew e.code, hoff]
  rfl

theorem State.setQEn_keeps (s : State) (c : CtxId) {new : Nat} (hnew : new < 16) :
    (s.setQEn c new).fld (Reg.ctxCtrl_qEn.at c) = new ∧ (s.setQEn c new).mem = s.mem ∧ (s.setQEn c new).running = s.running ∧
      ∀ e, ((s.setQEn c new).queue c e).head = (s.queue c e).head ∧ ((s.setQEn c new).queue c e).phase = (s.queue c e).phase ∧
        (s.qEn c e = true → Nat.testBit new e.code = false → ∀ w r f, (s.queue c e).dec = .held w r f →
          ((s.setQEn c new).queue c e).dec = .idle) := by
  have hf : s.frame [.regs, .ctxs, .hostMem, .poison, .bch, .link, .pwr, .pcie, .out] (s.setQEn c new) := (State.frame.refl _ s).setQEn
  have hplace := fun e => State.setAsideL_place c (s.fld (Reg.ctxCtrl_qEn.at c) &&& (15 - new)) allEng e s
  suffices h : (s.setQEn c new).fld (Reg.ctxCtrl_qEn.at c) = new ∧
      (((s.setAsideL c (s.fld (Reg.ctxCtrl_qEn.at c) &&& (15 - new)) allEng).setFld (Reg.ctxCtrl_qEn.at c) new).recheck c).keepsQueues
        (s.setQEn c new) by
    obtain ⟨hfld, hq⟩ := h
    refine ⟨hfld, hf.mem_eq, hf.running_eq, fun e => ?_⟩
    obtain ⟨⟨hhead, hphase, -⟩, hidle⟩ := hplace e
    rw [hq c e, State.queue_recheck]
    obtain ⟨rhead, rphase, ridle⟩ := State.recheckHead_place ((s.setAsideL c (s.fld (Reg.ctxCtrl_qEn.at c) &&& (15 - new)) allEng).setFld
      (Reg.ctxCtrl_qEn.at c) new) c ((s.setAsideL c (s.fld (Reg.ctxCtrl_qEn.at c) &&& (15 - new)) allEng).queue c e)
    exact ⟨rhead.trans hhead, rphase.trans hphase, fun hen hoff w r f hdec =>
      ridle (hidle (by cases e <;> decide) (testBit_disabled hnew e hen hoff) w r f hdec)⟩
  unfold State.setQEn
  extract_lets old s1
  have hfld : s1.fld (Reg.ctxCtrl_qEn.at c) = new := by
    have h := State.fld_setFld_self (s.setAsideL c (old &&& (15 - new)) allEng) (Reg.ctxCtrl_qEn.at c) new (show 4 + 4 ≤ 64 by decide)
    exact ((State.fld_congr rfl _).trans h).trans (Nat.mod_eq_of_lt hnew)
  split
  · exact ⟨hfld, .refl s1⟩
  · have hp : s1.frame [.ctxs, .hostMem, .poison, .bch, .link, .pwr, .pcie, .out] (s1.postTrips c) := (State.frame.refl _ s1).postTrips
    exact ⟨(State.fld_congr hp.regs_eq _).trans hfld, .postTrips s1 c⟩

/-- Settles O26 by what a write of the enables keeps. -/
theorem queueEnables : Obligations.QueueEnables := by
  unfold Obligations.QueueEnables
  intro c v s
  refine ⟨fun hsave => ⟨s.setQEn c (wBits v 4 4), ?_, s.setQEn_keeps c (wBits_lt v 4 4)⟩, fun hsave hset => ?_,
    ⟨s.setQEn c 0, rfl, s.setQEn_keeps c (by decide)⟩⟩
  · exact if_neg (by simp [State.qEnUndefined, hsave])
  · exact if_pos (by simp only [State.qEnUndefined, hsave, Bool.and_true, decide_eq_true_eq]; exact hset)

end Sys2Proof.Machine
end

section
/-! PROOFS. Aborts (R205), Exact mode (R336), ring heads and the message timer (R196, R198, R210, R342). -/

namespace Sys2Proof.Machine

set_option Elab.async false

open Sys2Proof

variable {s t u : State}

variable {c : CtxId}

/-! ### Aborts -/

theorem find?_abort (reqs : List Request) (live : List Nat) (n : Nat) :
    (reqs.map (fun r => if live.contains r.num then { r with aborting := true } else r)).find? (fun r => decide (r.num = n)) =
      (reqs.find? (fun r => decide (r.num = n))).map (fun r => if live.contains n then { r with aborting := true } else r) := by
  induction reqs with
  | nil => rfl
  | cons r reqs ih =>
    have hnum : (if live.contains r.num then { r with aborting := true } else r).num = r.num := by split <;> rfl
    rw [List.map_cons, List.find?_cons, List.find?_cons, hnum]
    by_cases h : r.num = n
    · subst h
      simp
    · rw [decide_eq_false h]
      exact ih

theorem State.openReq_abortReqs (s : State) (c : CtxId) (nums : List Nat) (n : Nat) :
    (s.abortReqs c nums).openReq c n =
      (s.openReq c n).map (fun r => if (nums.filter (fun n => (s.openReq c n).isSome)).contains n then { r with aborting := true } else r) := by
  rw [State.openReq, State.abortReqs, State.ctx_updCtx_self]
  exact find?_abort _ _ n

theorem State.queue_abortReqs (s : State) (c : CtxId) (nums : List Nat) (e : Engine) :
    (s.abortReqs c nums).queue c e = abortHead (nums.filter (fun n => (s.openReq c n).isSome)) (s.queue c e) := by
  rw [State.queue, State.abortReqs, State.ctx_updCtx_self]
  exact Vector.getElem_map ..

/-- An abort that names a request puts it in force, and turns the heads held for it. -/
theorem State.abortReqs_names (s : State) {n : Nat} {r : Request} (hreq : s.openReq c n = some r) {nums : List Nat} (hn : n ∈ nums) :
    s.abortReqs c nums = { s with ctxs := (s.abortReqs c nums).ctxs } ∧ (∀ d, d ≠ c → (s.abortReqs c nums).ctx d = s.ctx d) ∧
      (s.abortReqs c nums).openReq c n = some { r with aborting := true } ∧
      ∀ e w rel, (s.queue c e).dec = .held w rel .run → Entry.reqNum w = n → ((s.abortReqs c nums).queue c e).dec = .held w rel .abort := by
  have hlive : (nums.filter (fun n => (s.openReq c n).isSome)).contains n = true :=
    List.contains_iff_mem.mpr (List.mem_filter.mpr ⟨hn, by rw [hreq]; rfl⟩)
  refine ⟨rfl, fun d hd => State.ctx_updCtx_other _ _ hd, ?_, fun e w rel hdec hw => ?_⟩
  · rw [State.openReq_abortReqs, hreq, Option.map_some, if_pos hlive]
  · rw [State.queue_abortReqs, abortHead, hdec]
    dsimp only
    rw [hw, if_pos hlive]

/-- Settles O28: an abort of one request, and of all open ones. -/
theorem aborts : Obligations.Aborts := by
  unfold Obligations.Aborts
  intro c q r s hreq
  refine ⟨⟨s.abortReqs c [q.toNat], rfl, s.abortReqs_names hreq (List.mem_singleton_self _), fun n hn => ?_⟩,
    ⟨s.abortReqs c ((s.ctx c).reqs.map (·.num)), rfl, s.abortReqs_names hreq ?_⟩⟩
  · have hout : ((([q.toNat] : List Nat).filter (fun n => (s.openReq c n).isSome)).contains n) = false := by
      rw [← Bool.not_eq_true, List.contains_iff_mem]
      exact fun h => hn (List.mem_singleton.mp (List.mem_filter.mp h).1)
    rw [State.openReq_abortReqs, hout]
    simp
  · have hmem := List.mem_of_find?_eq_some hreq
    have hnum : r.num = q.toNat := of_decide_eq_true (List.find?_some (p := fun r : Request => decide (r.num = q.toNat)) hreq)
    exact List.mem_map.mpr ⟨r, hmem, hnum⟩

/-! ### Exact mode -/

theorem State.dom_wakeDom_self (s : State) (d : Nat) : (s.wakeDom d).dom d ≠ .clockGated ∧ (s.wakeDom d).dom d ≠ .powerGated := by
  unfold State.wakeDom
  split
  next => rw [State.dom_setDom_self]; exact ⟨by simp, by simp⟩
  next => rw [State.dom_wakePort, State.dom_setDom_self]; exact ⟨by simp, by simp⟩
  next =>
    split
    · rw [State.dom_setDom_self]; exact ⟨by simp, by simp⟩
    · rw [State.dom_wakePort, State.dom_setDom_self]; exact ⟨by simp, by simp⟩
  next hc hp hs => exact ⟨hc, hp⟩

theorem State.dom_wakeDom_other (s : State) {d k : Nat} (h : k ≠ d) : (s.wakeDom d).dom k = s.dom k := by
  unfold State.wakeDom
  split
  · exact State.dom_setDom_other _ _ h
  · rw [State.dom_wakePort]; exact State.dom_setDom_other _ _ h
  · split
    · exact State.dom_setDom_other _ _ h
    · rw [State.dom_wakePort]; exact State.dom_setDom_other _ _ h
  · rfl

/-- The domains woken are neither clock-gated nor power-gated. -/
theorem State.wakeDoms_wakes (ds : List Nat) {k : Nat} (s : State) (hk : k ∈ ds ∨ (s.dom k ≠ .clockGated ∧ s.dom k ≠ .powerGated)) :
    (s.wakeDoms ds).dom k ≠ .clockGated ∧ (s.wakeDoms ds).dom k ≠ .powerGated := by
  induction ds generalizing s with
  | nil => exact hk.resolve_left List.not_mem_nil
  | cons d ds ih =>
    refine ih _ ?_
    by_cases h : k = d
    · subst h
      exact .inr (s.dom_wakeDom_self k)
    · rw [s.dom_wakeDom_other h]
      exact hk.imp_left fun hm => (List.mem_cons.mp hm).resolve_left h

theorem State.wakePort_none (s : State) {d : Nat} (h : d < 108) : s.wakePort d = s := by
  unfold State.wakePort
  exact if_neg fun hc => absurd hc.1 (by omega)

/-- Domains that are no port's wake without their port. -/
theorem State.wakeDoms_pwr (ds : List Nat) (h : ∀ d ∈ ds, d < 108) (s : State) : s.frame [.pwr] (s.wakeDoms ds) := by
  induction ds generalizing s with
  | nil => exact .refl _ s
  | cons d ds ih =>
    obtain ⟨hd, hds⟩ := List.forall_mem_cons.mp h
    have h1 : s.frame [.pwr] (s.wakeDom d) := by
      unfold State.wakeDom
      split
      · exact (State.frame.refl _ s).setDom
      · rw [State.wakePort_none _ hd]; exact (State.frame.refl _ s).setDom
      · split
        · exact (State.frame.refl _ s).setDom
        · rw [State.wakePort_none _ hd]; exact (State.frame.refl _ s).setDom
      · exact .refl _ s
    exact h1.trans (ih hds _)

theorem mem_exactDoms {k : Nat} : k ∈ exactDoms ↔ k < 93 := by simp [exactDoms, domRange]

/-- A context with its Exact bits. -/
def Ctx.withExact (x : Ctx) (req act ref : Bool) : Ctx := { x with exactReq := req, exactActive := act, exactRefused := ref }

theorem State.ctx_updCtx_both (s : State) (c : CtxId) (f : Ctx → Ctx) :
    (∀ d, d ≠ c → (s.updCtx c f).ctx d = s.ctx d) ∧ (s.updCtx c f).ctx c = f (s.ctx c) :=
  ⟨fun _ hd => State.ctx_updCtx_other _ _ hd, State.ctx_updCtx_self _ _ _⟩

/-- The state in which the Exact request of context c stands, its domains waking. -/
theorem State.exactEnter_stands (h : ∀ d, d ≠ c → (s.ctx d).exactReq = false) (hentry : s.pwr.entry = none) :
    s.exactEnter c = (s.updCtx c (fun x => { x with exactReq := true, exactRefused := false })).wakeDoms exactDoms := by
  have hnone : allCtx.any (fun d => decide (d ≠ c) && (s.ctx d).exactReq) = false := by
    rw [← Bool.not_eq_true, List.any_eq_true]
    rintro ⟨d, -, hd⟩
    obtain ⟨hne, hreq⟩ := Bool.and_eq_true_iff.mp hd
    exact Bool.false_ne_true ((h d (of_decide_eq_true hne)).symm.trans hreq)
  have hkeep : ∀ (ds : List Nat) (t : State), t.pwr.entry = none → (t.wakeDoms ds).pwr.entry = none := fun ds => by
    induction ds with
    | nil => exact fun t ht => ht
    | cons d ds ih =>
      intro t ht
      refine ih _ ?_
      have hport : ∀ (u : State), (u.wakePort d).pwr = u.pwr := fun u => ((State.frame.refl [.link] u).wakePort).pwr_eq
      unfold State.wakeDom
      split
      · exact ht
      · rw [hport]; exact ht
      · split
        · exact ht
        · rw [hport]; exact ht
      · exact ht
  have hwoken := hkeep exactDoms (s.updCtx c (fun x => { x with exactReq := true, exactRefused := false })) hentry
  rw [State.exactEnter, hnone, if_neg Bool.false_ne_true, State.entryEvent, hwoken]

/-- Settles O30, bit by bit. -/
theorem exactMode : Obligations.ExactMode := by
  unfold Obligations.ExactMode
  intro c s bits
  refine ⟨fun d hd hreq => ?_, fun hnone hentry => ?_, fun hreq hidle => ?_, ?_, fun hact hreq hcount => ?_⟩
  · have hany : allCtx.any (fun d => decide (d ≠ c) && (s.ctx d).exactReq) = true :=
      List.any_eq_true.mpr ⟨d, List.mem_finRange d, by simp [hd, hreq]⟩
    exact ⟨_, congrArg Host.Outcome.next (if_pos hany), rfl, s.ctx_updCtx_both c _⟩
  · obtain ⟨hothers, hself⟩ := s.ctx_updCtx_both c (fun x => { x with exactReq := true, exactRefused := false })
    have hparts : s.updCtx c (fun x => { x with exactReq := true, exactRefused := false }) =
      { s with ctxs := (s.updCtx c (fun x => { x with exactReq := true, exactRefused := false })).ctxs } := rfl
    refine ⟨_, congrArg Host.Outcome.next (State.exactEnter_stands hnone hentry), ?_⟩
    generalize s.updCtx c (fun x => { x with exactReq := true, exactRefused := false }) = v at *
    have hf := State.wakeDoms_pwr exactDoms (fun d hd => Nat.lt_of_lt_of_le (mem_exactDoms.mp hd) (by decide)) v
    refine ⟨?_, ⟨fun d hd => (State.ctx_congr hf.ctxs_eq d).trans (hothers d hd), (State.ctx_congr hf.ctxs_eq c).trans hself⟩,
      fun k hk => State.wakeDoms_wakes exactDoms v (.inl (mem_exactDoms.mpr hk))⟩
    have heq := hf.eq_take
    generalize v.wakeDoms exactDoms = w at *
    rw [heq, hparts]
    rfl
  · have hgo : ((s.ctx c).exactReq && !(allCtx.any (fun d => (s.ctx d).exactActive)) && allCtx.all (fun d => decide (s.execCount d = 0))) = true := by
      simp [hreq, hidle]
    refine ⟨_, congrArg Host.Outcome.next (if_pos hgo), rfl, fun d hd => State.ctx_updCtx_other _ _ hd, ?_⟩
    rw [State.ctx_updCtx_self, ← hreq]
  · exact ⟨_, rfl, rfl, s.ctx_updCtx_both c _⟩
  · have hgo : ((s.ctx c).exactActive && !(s.ctx c).exactReq && decide (s.execCount c = 0)) = true := by simp [hact, hreq, hcount]
    refine ⟨_, congrArg Host.Outcome.next (if_pos hgo), rfl, fun d hd => State.ctx_updCtx_other _ _ hd, ?_⟩
    rw [State.ctx_updCtx_self, ← hreq]

/-! ### Ring heads and the message timer -/

/-- Two fields of one register written one after the other. -/
theorem State.fld_setFld_two (s : State) {f g : Fld} (n m : Nat) (hoff : g.off = f.off) (hf : f.lo + f.width ≤ 64) (hg : g.lo + g.width ≤ 64)
    (hfg : f.lo + f.width ≤ g.lo ∨ g.lo + g.width ≤ f.lo) :
    ((s.setFld f n).setFld g m).fld f = n % 2 ^ f.width ∧ ((s.setFld f n).setFld g m).fld g = m % 2 ^ g.width ∧
      (∀ off, off ≠ f.off → ((s.setFld f n).setFld g m).reg off = s.reg off) ∧
      (s.setFld f n).setFld g m = { s with regs := ((s.setFld f n).setFld g m).regs } := by
  refine ⟨?_, State.fld_setFld_self _ _ _ hg, fun off h => ?_, rfl⟩
  · rw [State.fld_setFld_other _ _ _ _ (.inr hfg.symm), State.fld_setFld_self _ _ _ hf]
  · rw [State.reg_setFld_other _ _ _ _ (hoff ▸ h), State.reg_setFld_other _ _ _ _ h]

theorem decide_wBits_one (v : W64) (i : Nat) : decide (wBits v i 1 ≠ 0) = v.getLsbD i := by
  rw [BitVec.getLsbD, Nat.testBit_eq_decide_div_mod_eq, decide_eq_decide]
  unfold wBits bitsOf
  omega

theorem State.cqHead_taken {v : W64} (hin : wBits v 0 16 < s.cqSize c)
    (huse : ringUsed (s.cqSize c) (s.ctx c).cqTail (s.ctx c).cqLap (wBits v 0 16) (v.getLsbD 16) ≤ s.cqSize c)
    (hbuf : (s.ctx c).cbuf = []) (hbusy : (s.ctx c).resetBusy = false) :
    s.cqHead c v = (s.setFld (Reg.ctxCqHead_head.at c) (wBits v 0 16)).setFld (Reg.ctxCqHead_lap.at c) (wBits v 16 1) := by
  rw [State.cqHead, if_pos ⟨hin, huse⟩]
  have hctx : ((s.setFld (Reg.ctxCqHead_head.at c) (wBits v 0 16)).setFld (Reg.ctxCqHead_lap.at c) (wBits v 16 1)).ctx c = s.ctx c := rfl
  generalize (s.setFld (Reg.ctxCqHead_head.at c) (wBits v 0 16)).setFld (Reg.ctxCqHead_lap.at c) (wBits v 16 1) = u at *
  have hflush : u.cqFlush c (u.ctx c).cbuf.length = u := by rw [hctx, hbuf]; rfl
  have hgo : u.resetGoOn c = u := by simp [State.resetGoOn, hctx, hbusy]
  dsimp only
  rw [hflush, hgo]

theorem State.tailHead_taken {v : W64} (hbuf : (s.ctx c).tailBuf = []) :
    s.tailHead c v = (s.setFld (Reg.ctxTailHead_head.at c) (wBits v 0 20)).setFld (Reg.ctxTailHead_lap.at c) (wBits v 20 1) := by
  unfold State.tailHead
  have hctx : ((s.setFld (Reg.ctxTailHead_head.at c) (wBits v 0 20)).setFld (Reg.ctxTailHead_lap.at c) (wBits v 20 1)).ctx c = s.ctx c :=
    State.ctx_congr ((State.frame.refl [.regs] s).setFld.setFld).ctxs_eq c
  generalize (s.setFld (Reg.ctxTailHead_head.at c) (wBits v 0 20)).setFld (Reg.ctxTailHead_lap.at c) (wBits v 20 1) = u at *
  dsimp only
  rw [hctx, hbuf]
  rfl

theorem getLast?_drop_tail {α : Type} {l : List α} {a : α} (h : l.getLast? = some a) {n : Nat} (hn : 0 < n) :
    (l.drop (l.length - n)).getLast? = some a := by
  have hpos : 0 < l.length := List.length_pos_iff.mpr fun hnil => by simp [hnil] at h
  rw [List.getLast?_drop, if_neg (by omega), h]

/-- A log entry stands last in the log. -/
theorem State.logEvent_last (s : State) (src code : Nat) (c : Option CtxId) (loc detail : Nat) :
    ∃ l, (s.logEvent src code c loc detail).log.getLast? = some l ∧ l.src = src ∧ l.code = code ∧ l.ctx = c := by
  obtain ⟨n, hn, hpos⟩ : ∃ n, n = 1024 ∧ 0 < n := ⟨_, rfl, by decide⟩
  unfold State.logEvent
  rw [← hn]
  extract_lets e l s1
  have hlog : s1.log.getLast? = some e := getLast?_drop_tail (l := l) List.getLast?_concat hpos
  have hsend : ∀ (t : State) (fn : Fin 16) (v : Nat), (t.sendMsix fn v).log = t.log := fun t fn v =>
    ((State.frame.refl [.link, .pwr, .pcie, .out] t).sendMsix).log_eq
  refine ⟨e, ?_, rfl, rfl, rfl⟩
  split
  · rw [hsend]; exact hlog
  · exact hlog

theorem State.logEvent_parts (s : State) (src code : Nat) (c : Option CtxId) (loc detail : Nat) :
    ∃ log n pcie pwr out, s.logEvent src code c loc detail = { s with log := log, logNext := n, pcie := pcie, pwr := pwr, out := out } := by
  unfold State.logEvent
  extract_lets e l s1
  split
  · obtain ⟨pcie, out, doms, h⟩ := s1.sendMsix_parts 0 (s1.fld Reg.telLogCfg_vector)
    exact ⟨_, _, _, _, _, h⟩
  · exact ⟨_, _, _, _, _, rfl⟩

theorem State.sendMsix_leaves {fn : Fin 16} {v : Nat} (hv : v < 128) (hmask : s.vecMasked fn v = false) (hheld : s.pcie.held.getLsbD fn.val = false)
    (hd3 : s.pcie.d3.getLsbD fn.val = false) (hup : s.hostUp = true) : s.sendMsix fn v = s.emit (.msix fn v) := by
  have hopen : (s.vecMasked fn v || s.pcie.held.getLsbD fn.val || s.pcie.d3.getLsbD fn.val) = false := by rw [hmask, hheld, hd3]; rfl
  rw [State.sendMsix, if_neg (Nat.not_le.mpr hv), hopen, hup]
  rfl

/-- Settles O25: the heads as two fields of one register, the timer as the message it sends. -/
theorem ringHeadsAndTimer : Obligations.RingHeadsAndTimer := by
  unfold Obligations.RingHeadsAndTimer
  refine ⟨fun c v s => ⟨fun hin huse hbuf hbusy => ?_, fun hover => ?_, fun hbuf => ?_⟩,
    fun c s hpend hen htimer hvec hup hmask hheld hd3 => ?_⟩
  · obtain ⟨hhead, hlap, hothers, hparts⟩ := s.fld_setFld_two (f := Reg.ctxCqHead_head.at c) (g := Reg.ctxCqHead_lap.at c) (wBits v 0 16)
      (wBits v 16 1) rfl (show 0 + 16 ≤ 64 by decide) (show 16 + 1 ≤ 64 by decide) (.inl (show 0 + 16 ≤ 16 by decide))
    refine ⟨_, congrArg Host.Outcome.next (State.cqHead_taken hin huse hbuf hbusy), hparts, ?_, ?_, hothers⟩
    · exact hhead.trans (Nat.mod_eq_of_lt (wBits_lt v 0 16))
    · rw [State.flag, hlap, show wBits v 16 1 % 2 ^ (Reg.ctxCqHead_lap.at c).width = wBits v 16 1 from Nat.mod_eq_of_lt (wBits_lt v 16 1)]
      exact decide_wBits_one v 16
  · have hout : s.cqHead c v = s.logEvent 6 1 (some c) v.toNat 0 := if_neg fun h => absurd h.2 (Nat.not_le.mpr hover)
    obtain ⟨log, n, pcie, pwr, out, hparts⟩ := s.logEvent_parts 6 1 (some c) v.toNat 0
    refine ⟨_, congrArg Host.Outcome.next hout, ?_, s.logEvent_last 6 1 (some c) v.toNat 0⟩
    rw [hparts]
  · obtain ⟨hhead, hlap, hothers, hparts⟩ := s.fld_setFld_two (f := Reg.ctxTailHead_head.at c) (g := Reg.ctxTailHead_lap.at c) (wBits v 0 20)
      (wBits v 20 1) rfl (show 0 + 20 ≤ 64 by decide) (show 20 + 1 ≤ 64 by decide) (.inl (show 0 + 20 ≤ 20 by decide))
    refine ⟨_, congrArg Host.Outcome.next (State.tailHead_taken hbuf), hparts, ?_, ?_, hothers⟩
    · exact hhead.trans (Nat.mod_eq_of_lt (wBits_lt v 0 20))
    · rw [State.flag, hlap, show wBits v 20 1 % 2 ^ (Reg.ctxTailHead_lap.at c).width = wBits v 20 1 from Nat.mod_eq_of_lt (wBits_lt v 20 1)]
      exact decide_wBits_one v 20
  · obtain ⟨hothers, hself⟩ := s.ctx_updCtx_both c (fun x => { x with irqPending := 0 })
    have hsend : s.cqMessage c = (s.updCtx c (fun x => { x with irqPending := 0 })).emit (.msix (s.owner c) (s.fld (Reg.ctxCqIrq_vector.at c))) :=
      State.sendMsix_leaves (s := s.updCtx c (fun x => { x with irqPending := 0 })) hvec hmask hheld hd3 hup
    refine ⟨_, congrArg Host.Outcome.next ((if_pos ⟨hpend, hen, htimer⟩).trans hsend), rfl, ?_, rfl, hothers⟩
    exact congrArg Ctx.irqPending hself

end Sys2Proof.Machine
end

section
/-! PROOFS. Pending MSI-X messages (R437) and host reads without completion (R269, R388). -/

namespace Sys2Proof.Machine

set_option Elab.async false

open Sys2Proof

variable {s t u : State}

variable {c : CtxId} {fn : Fin 16}

/-! ### Pending messages -/

/-- The function's messages may leave: host memory within reach, MSI-X enabled, not in D3hot. -/
def State.mayLeave (s : State) (fn : Fin 16) : Prop :=
  s.hostUp = true ∧ s.pcie.held.getLsbD fn.val = false ∧ s.pcie.d3.getLsbD fn.val = false

/-- Whether a message of a vector is pending. -/
def State.pends (s : State) (fn : Fin 16) (v : Nat) : Bool := SMap.get false s.pcie.pend (fn.val * 128 + v)

/-- A state with other pending messages and more sent. -/
def State.sentOut (s : State) (pend : SMap Bool) (out : List Out) : State := { s with pcie := { s.pcie with pend := pend }, out := out }

theorem State.sendMsix_masked {v : Nat} (hv : v < 128) (hmask : s.vecMasked fn v = true) :
    s.sendMsix fn v = s.sentOut (SMap.put false s.pcie.pend (fn.val * 128 + v) true) s.out := by
  rw [State.sendMsix, if_neg (Nat.not_le.mpr hv), if_pos (by rw [hmask]; rfl)]
  rfl

/-- Sending a pending message: it leaves and is pending no more, unless its vector is masked; no other vector's pending bit changes. -/
theorem State.sendPending_parts (h : s.mayLeave fn) {v : Nat} (hv : v < 128) :
    ∃ pend l, s.sendPending fn v = s.sentOut pend (s.out ++ l) ∧
      (∀ k, k ≠ fn.val * 128 + v → SMap.get false pend k = SMap.get false s.pcie.pend k) ∧
      (s.vecMasked fn v = false → SMap.get false pend (fn.val * 128 + v) = false ∧ (s.pends fn v = true → .msix fn v ∈ l)) ∧
      (s.pends fn v = false → SMap.get false pend (fn.val * 128 + v) = false) := by
  obtain ⟨hup, hheld, hd3⟩ := h
  unfold State.sendPending
  by_cases hp : SMap.get false s.pcie.pend (fn.val * 128 + v) = true
  · rw [if_pos hp]
    have hpend : s.pends fn v = true := hp
    by_cases hmask : s.vecMasked fn v = true
    · refine ⟨SMap.put false (SMap.put false s.pcie.pend (fn.val * 128 + v) false) (fn.val * 128 + v) true, [], ?_, fun k hk => ?_,
        fun h => absurd (hmask.symm.trans h) (by decide), fun h => absurd (hpend.symm.trans h) (by decide)⟩
      · rw [List.append_nil]
        exact State.sendMsix_masked (s := s.sentOut (SMap.put false s.pcie.pend (fn.val * 128 + v) false) s.out) hv hmask
      · rw [SMap.get_put_other _ _ _ hk, SMap.get_put_other _ _ _ hk]
    · refine ⟨SMap.put false s.pcie.pend (fn.val * 128 + v) false, [.msix fn v], ?_, fun k hk => SMap.get_put_other _ _ _ hk,
        fun _ => ⟨SMap.get_put_self _ _ _ _, fun _ => List.mem_singleton_self _⟩, fun _ => SMap.get_put_self _ _ _ _⟩
      exact State.sendMsix_leaves (s := { s with pcie := { s.pcie with pend := SMap.put false s.pcie.pend (fn.val * 128 + v) false } }) hv
        (Bool.eq_false_iff.mpr hmask) hheld hd3 hup
  · rw [if_neg hp]
    have hp' := Bool.eq_false_iff.mpr hp
    exact ⟨s.pcie.pend, [], by simp [State.sentOut], fun _ _ => rfl,
      fun _ => ⟨hp', fun h => absurd h hp⟩, fun _ => hp'⟩

/-- Sending what is pending of several vectors: an unmasked one among them that was pending is sent, and is pending no more. -/
theorem State.sendAll_parts (h : s.mayLeave fn) {v : Nat} (hmask : s.vecMasked fn v = false) (ws : List Nat) (hws : ∀ w ∈ ws, w < 128) :
    ∃ pend l, ws.foldl (fun (s : State) w => s.sendPending fn w) s = s.sentOut pend (s.out ++ l) ∧
      (v ∈ ws → s.pends fn v = true → SMap.get false pend (fn.val * 128 + v) = false ∧ .msix fn v ∈ l) ∧
      (s.pends fn v = false → SMap.get false pend (fn.val * 128 + v) = false) := by
  induction ws generalizing s with
  | nil =>
    exact ⟨s.pcie.pend, [], by simp [State.sentOut], fun h => absurd h List.not_mem_nil, id⟩
  | cons w ws ih =>
    obtain ⟨hw, hws'⟩ := List.forall_mem_cons.mp hws
    obtain ⟨p, l, hsend, hother, hclear, hnone⟩ := State.sendPending_parts h hw
    obtain ⟨p', l', hrest, hsent, hkept⟩ := ih (s := s.sentOut p (s.out ++ l)) h hmask hws'
    refine ⟨p', l ++ l', ?_, fun hm hp => ?_, fun hp => hkept ?_⟩
    · rw [List.foldl_cons, hsend, hrest, ← List.append_assoc]
      rfl
    · by_cases hvw : v = w
      · subst hvw
        obtain ⟨hgone, hmsg⟩ := hclear hmask
        exact ⟨hkept hgone, List.mem_append_left _ (hmsg hp)⟩
      · have hstill : (s.sentOut p (s.out ++ l)).pends fn v = true := (hother _ (by omega)).trans hp
        obtain ⟨hgone, hmsg⟩ := hsent ((List.mem_cons.mp hm).resolve_left hvw) hstill
        exact ⟨hgone, List.mem_append_right _ hmsg⟩
    · by_cases hvw : v = w
      · subst hvw
        exact hnone hp
      · exact (hother _ (by omega)).trans hp

/-- The state with the mask bit of a vector clear. -/
def State.unmasked (s : State) (fn : Fin 16) (v : Nat) : State :=
  let w := wSet (s.msixWord fn (2 * v + 1)) 32 1 0
  { s with pcie := { s.pcie with msix := SMap.put (if (2 * v + 1) % 2 = 1 then 0x100000000 else 0) s.pcie.msix (msixKey fn (2 * v + 1)) w } }

theorem State.vecMasked_unmasked (s : State) (fn : Fin 16) (v : Nat) : (s.unmasked fn v).vecMasked fn v = false := by
  have hword : (s.unmasked fn v).msixWord fn (2 * v + 1) = wSet (s.msixWord fn (2 * v + 1)) 32 1 0 := by
    rw [State.msixWord, State.unmasked, SMap.get_put_self]
  rw [State.vecMasked, hword, wBit, ← decide_wBits_one, wBits_wSet_self _ _ _ _ (by decide)]
  rfl

theorem State.unmask_some (s : State) (fn : Fin 16) (v : Fin 128) : s.unmask fn (some v) = (s.unmasked fn v.val).sendPending fn v.val := by
  have hv : (2 * v.val + 1) / 2 = v.val := by omega
  have h : s.unmask fn (some v) = (s.unmasked fn v.val).sendPending fn ((2 * v.val + 1) / 2) := by
    unfold State.unmask State.msixWrite State.unmasked
    rfl
  rw [h, hv]

/-- Clearing a vector's mask bit. -/
theorem State.unmask_vector (h : s.mayLeave fn) {v : Fin 128} (hp : s.pends fn v.val = true) :
    let t := s.unmask fn (some v)
    t = { s with pcie := t.pcie, out := t.out } ∧ t.out = s.out ++ [.msix fn v.val] ∧ t.vecMasked fn v.val = false ∧ t.pends fn v.val = false := by
  intro t
  have hmask := s.vecMasked_unmasked fn v.val
  have hparts : s.unmasked fn v.val = { s with pcie := (s.unmasked fn v.val).pcie } := rfl
  have hp' : SMap.get false (s.unmasked fn v.val).pcie.pend (fn.val * 128 + v.val) = true := hp
  obtain ⟨hup, hheld, hd3⟩ : (s.unmasked fn v.val).mayLeave fn := h
  have ht : t = (s.unmasked fn v.val).sendPending fn v.val := s.unmask_some fn v
  have hout : (s.unmasked fn v.val).out = s.out := rfl
  generalize s.unmasked fn v.val = u at *
  have hsend : u.sendPending fn v.val = u.sentOut (SMap.put false u.pcie.pend (fn.val * 128 + v.val) false) (u.out ++ [.msix fn v.val]) := by
    rw [State.sendPending, if_pos hp']
    exact State.sendMsix_leaves (s := u.sentOut (SMap.put false u.pcie.pend (fn.val * 128 + v.val) false) u.out) v.isLt hmask hheld hd3 hup
  rw [ht, hsend]
  exact ⟨by rw [hparts]; rfl, congrArg (· ++ _) hout, hmask, SMap.get_put_self false u.pcie.pend (fn.val * 128 + v.val) false⟩

theorem State.mayLeave.unhold (hup : s.hostUp = true) (hd3 : s.pcie.d3.getLsbD fn.val = false) :
    State.mayLeave { s with pcie := { s.pcie with held := s.pcie.held &&& ~~~ (BitVec.ofNat 16 (2 ^ fn.val)) } } fn := by
  refine ⟨hup, ?_, hd3⟩
  have hbit : (BitVec.ofNat 16 (2 ^ fn.val)).getLsbD fn.val = true := by
    rw [BitVec.getLsbD_ofNat, Nat.testBit_two_pow_self]
    simp
  show (s.pcie.held &&& ~~~ (BitVec.ofNat 16 (2 ^ fn.val))).getLsbD fn.val = false
  rw [BitVec.getLsbD_and, BitVec.getLsbD_not, hbit]
  simp

/-- Clearing the Function Mask. -/
theorem State.unmask_function (hup : s.hostUp = true) (hd3 : s.pcie.d3.getLsbD fn.val = false) {v : Fin 128} (hp : s.pends fn v.val = true)
    (hmask : s.vecMasked fn v.val = false) :
    let t := s.unmask fn none
    t = { s with pcie := t.pcie, out := t.out } ∧ .msix fn v.val ∈ t.out ∧ t.pcie.held.getLsbD fn.val = false ∧ t.pends fn v.val = false := by
  have hleave := State.mayLeave.unhold hup hd3
  intro t
  obtain ⟨pend, l, hsend, hsent, -⟩ := State.sendAll_parts hleave (v := v.val) hmask (List.range 128) (fun w hw => List.mem_range.mp hw)
  have ht : t = _ := hsend
  obtain ⟨hgone, hmsg⟩ := hsent (List.mem_range.mpr v.isLt) hp
  obtain ⟨-, hheld, -⟩ := hleave
  rw [ht]
  exact ⟨rfl, List.mem_append_right _ hmsg, hheld, hgone⟩

/-! ### Host reads without completion -/

theorem State.hostMigLost_fails {m : MigReq} (hm : m ∈ s.mig) {id : Nat} (hctx : m.ctx = c) (hid : m.id = id) (hreport : m.report = none)
    {i : Nat} (hobj : m.obj = some i) (hreads : m.readsHost (s.obj i) = true) :
    { m with report := some .tierFault } ∈ (s.hostMigLost c id).mig := by
  refine List.mem_map.mpr ⟨m, hm, if_pos ?_⟩
  rw [hreport, hobj]
  simp [hctx, hid, hreads]

theorem poisonRun_poisoned {n : Nat} {x : SB} (h : x ∈ poisonRun n) : x.2 = true := by
  obtain ⟨i, -, rfl⟩ := List.mem_map.mp h
  rfl

theorem take_append_poison (data : List SB) (off : Nat) :
    (data.take off ++ poisonRun (data.length - off)).take off = data.take off ∧
      ∀ x ∈ (data.take off ++ poisonRun (data.length - off)).drop off, x.2 = true := by
  rcases Nat.le_total off data.length with h | h
  · have hlen : (data.take off).length = off := by simp [h]
    refine ⟨by rw [List.take_append_of_le_length (by omega), List.take_take, Nat.min_self], fun x hx => ?_⟩
    rw [List.drop_append, hlen, Nat.sub_self, List.drop_zero, List.drop_of_length_le (by omega), List.nil_append] at hx
    exact poisonRun_poisoned hx
  · have hall : data.take off = data := List.take_of_length_le h
    have hnone : poisonRun (data.length - off) = [] := by rw [Nat.sub_eq_zero_of_le h]; rfl
    rw [hall, hnone, List.append_nil]
    refine ⟨hall, fun x hx => ?_⟩
    rw [List.drop_of_length_le h] at hx
    exact absurd hx List.not_mem_nil

/-- The tile whose host read is lost carries the fault from the lost byte on, and no further tile of the arming will be issued. -/
theorem State.hostReadLost_fails {e : Engine} {slot off : Nat} {a : Arming} {f : Flight} (harms : s.armings = [a]) (hat : a.at c e slot = true)
    (hflight : a.flight = [f]) (hhost : f.host = true) (hfault : f.fault = none) :
    s.hostReadLost c e slot off = { s with armings := (s.hostReadLost c e slot off).armings, regs := (s.hostReadLost c e slot off).regs } ∧
      ∃ b g, (s.hostReadLost c e slot off).armings = [b] ∧ b.flight = [g] ∧ g.tile = f.tile ∧ g.fault = some .tierFault ∧
        g.data.take off = f.data.take off ∧ (∀ x ∈ g.data.drop off, x.2 = true) ∧ b.dead.isSome = true := by
  have hfind : s.armings.find? (fun a => a.at c e slot && a.flight.any (fun f => f.host && f.fault.isNone)) = some a := by
    simp [harms, hat, hflight, hhost, hfault]
  have hfindF : a.flight.find? (fun f => f.host && f.fault.isNone) = some f := by simp [hflight, hhost, hfault]
  have hkeys : (decide (a.ctx = c) && decide (a.eng = e) && decide (a.slot = slot)) = true := hat
  have hidx : s.armings.findIdx? (fun a => decide (a.ctx = c) && decide (a.eng = e) && decide (a.slot = slot) &&
      a.flight.any (fun g => decide (g.tile = f.tile))) = some 0 := by
    rw [harms, List.findIdx?_cons, hkeys, hflight]
    simp
  have hget : s.armAt 0 = some a := by rw [State.armAt, harms]; rfl
  obtain ⟨htake, hdrop⟩ := take_append_poison f.data off
  refine ⟨((State.frame.refl [.armings, .regs] s).hostReadLost).eq_take, ?_⟩
  rw [State.hostReadLost, hfind]
  dsimp only
  rw [hfindF]
  dsimp only
  rw [State.failStream]
  dsimp only
  rw [hidx]
  dsimp only
  rw [hget]
  dsimp only
  rw [((State.frame.refl [.regs] _).addFld).armings_eq, State.setArming, harms, hflight]
  refine ⟨_, _, rfl, rfl, ?_⟩
  dsimp only
  rw [if_pos rfl, if_neg (by simp [hfault]), hfault]
  exact ⟨rfl, rfl, htake, hdrop, rfl⟩

/-- Settles O20: what is pending is sent, and what is lost is marked where it was to arrive. -/
theorem msixAndTimeouts : Obligations.MsixAndTimeouts := by
  unfold Obligations.MsixAndTimeouts
  refine ⟨fun fn v s hup hd3 hp => ⟨fun hheld => ⟨s.unmask fn (some v), rfl, State.unmask_vector ⟨hup, hheld, hd3⟩ hp⟩,
      fun hmask => ⟨s.unmask fn none, rfl, State.unmask_function hup hd3 hp hmask⟩⟩,
    fun c e slot off i id m s hm hctx hid hstart hch hreport hobj hhome hpeer hcp => ?_,
    fun c e slot off a f s hslot harms hat hflight hhost hfault => ?_, fun c e slot off s => ⟨fun x hrun hctx heng hslot => ?_, fun hnone => ?_⟩⟩
  · refine ⟨s.hostMigLost c id.toNat, rfl, rfl, State.hostMigLost_fails hm hctx hid hreport hobj ?_⟩
    have ht0 : (!(decide (m.tier = 0) && (s.obj i).cp1)) = true := by
      by_cases ht : m.tier = 0
      · simp [hcp ht]
      · simp [ht]
    simp [MigReq.readsHost, hstart, hch, hhome, hpeer]
    simpa using ht0
  · exact ⟨s.hostReadLost c e slot off, congrArg Host.Outcome.next (if_pos hslot), State.hostReadLost_fails harms hat hflight hhost hfault⟩
  · have hcmd : s.hostCmdLost c e slot = { s with running := [{ x with hostLost := true }] } := by
      rw [State.hostCmdLost, if_pos (by simp [hrun, hctx, heng, hslot]), State.updExec, hrun, List.map_singleton, if_pos ⟨hctx, heng, hslot⟩]
    refine congrArg Host.Outcome.next ((if_neg (by unfold cmdReads; omega)).trans ?_)
    rw [show 65536 + slot - cmdReads = slot by unfold cmdReads; omega]
    exact hcmd
  · refine congrArg Host.Outcome.next ((if_neg (by unfold cmdReads; omega)).trans ?_)
    rw [show 65536 + slot - cmdReads = slot by unfold cmdReads; omega, State.hostCmdLost, if_neg ?_]
    rw [List.any_eq_true]
    rintro ⟨x, hx, hk⟩
    simp only [Bool.and_eq_true, decide_eq_true_eq] at hk
    obtain ⟨⟨hctx, heng⟩, hslot⟩ := hk
    exact hnone x hx ⟨hctx, heng, hslot⟩

end Sys2Proof.Machine
end

section
/-! PROOFS. A register write by access type: the registers of a context's page that have no effect of their own. -/

namespace Sys2Proof.Machine

set_option Elab.async false

open Sys2Proof

variable {s t u : State}

/-! ### The plain registers of a context's page -/

/-- What a row of the plain registers must have for a field of it to read by its access type: the fields lie in the word, each
access mask is full on the fields of its type and empty on the others, and what the device shows in CTX_MIG_STAT and
CTX_TAIL_STAT lies in fields that software cannot write. -/
def RegRow.byField (r : RegRow) (o : Nat) : Bool :=
  r.fields.all fun f =>
    decide (f.lo + f.width ≤ 64) &&
    [Acc.rw, Acc.ro, Acc.wo, Acc.w1c].all (fun a => decide (wBits (r.mask a) f.lo f.width = if f.acc = a then 2 ^ f.width - 1 else 0)) &&
    (decide (f.acc = .ro) || ((decide (o ≠ Reg.ctxMigStat) || decide (9 ≤ f.lo)) &&
      (decide (o ≠ Reg.ctxTailStat) || decide (f.lo + f.width ≤ 34))))

theorem plainPage_byField : ∀ o ∈ plainPage, ∀ r, pageRow? o = some r → r.byField o = true := by
  have h : plainPage.all (fun o => (pageRow? o).all (fun r => r.byField o)) = true := by decide
  intro o ho r hr
  have := List.all_eq_true.mp h o ho
  rwa [hr] at this

/-- A plain register is not one whose write has an effect. -/
theorem plainPage_writes : ∀ o ∈ plainPage, o < 0x10000 ∧ o % 8 = 0 ∧ o ≠ Reg.ctxCtrl ∧ o ≠ Reg.ctxAbort ∧ o ≠ Reg.ctxCqCfg ∧
    o ≠ Reg.ctxCqHead ∧ o ≠ Reg.ctxCqIrq ∧ o ≠ Reg.ctxSyncAdd ∧ o ≠ Reg.ctxMigReq ∧ o ≠ Reg.ctxExact ∧ o ≠ Reg.ctxTailCfg ∧
    o ≠ Reg.ctxTailHead ∧ ¬ (Reg.ctxCrcCfg ≤ o ∧ o < Reg.ctxCrcCfg + 128) ∧ o ≠ Reg.ctxAptCfg ∧ o ≠ Reg.ctxAttReq ∧
    o ≠ Reg.ctxExtCtl ∧ ¬ (Reg.ctxSecKeyseed ≤ o ∧ o < Reg.ctxSecKeyseed + 32) ∧ ¬ Reg.ctxSync ≤ o ∧ o ≠ Reg.ctxCqBase ∧
    o ≠ Reg.ctxTailBase := by decide

/-- A plain register is not one whose read shows the state of the device, but CTX_MIG_STAT and CTX_TAIL_STAT. -/
theorem plainPage_reads : ∀ o ∈ plainPage, o ≠ Reg.ctxStatus ∧ ¬ (Reg.ctxQHead ≤ o ∧ o < Reg.ctxQHead + 32) ∧ o ≠ Reg.ctxCqTail ∧
    o ≠ Reg.ctxCmpTables ∧ o ≠ Reg.ctxTmvSlot ∧ o ≠ Reg.ctxTmvRun ∧ o ≠ Reg.ctxMigUse ∧ o ≠ Reg.ctxExact ∧ o ≠ Reg.ctxTailTail ∧
    ¬ (Reg.ctxCrcCfg ≤ o ∧ o < Reg.ctxCrcCfg + 128) ∧ ¬ Reg.ctxSync ≤ o ∧ o ≠ Reg.ctxAttStat ∧
    ¬ (Reg.ctxMeasD ≤ o ∧ o < Reg.ctxMeasD + 48) ∧ o ≠ Reg.ctxSecStat ∧ o ≠ Reg.ctxCertSel ∧ o ≠ Reg.ctxCertData := by decide

/-- What the device shows over a plain register: lowest bit, width and value. -/
def State.shownOver (s : State) (c : CtxId) (o : Nat) : Fld × Nat :=
  if o = Reg.ctxMigStat then (Reg.ctxMigStat_outstanding, s.migCount c)
  else if o = Reg.ctxTailStat then (Reg.ctxTailStat_buffered, (s.ctx c).tailBuf.length)
  else (⟨0, 0, 0⟩, 0)

theorem wSet_none (w : W64) : wSet w 0 0 0 = w := by
  apply BitVec.eq_of_getLsbD_eq
  intro i hi
  rw [wSet_getLsbD _ _ _ _ _ hi, if_neg (by omega)]

/-- The read of a plain register: the stored word under what the device shows over it. -/
theorem State.readPage_plain (s : State) (c : CtxId) {o : Nat} (ho : o ∈ plainPage) :
    s.readPage c o = wSet (s.reg (ctxBase c + o)) (s.shownOver c o).1.lo (s.shownOver c o).1.width (s.shownOver c o).2 := by
  obtain ⟨h1, h2, h3, h4, h5, h6, h7, h8, h9, h10, h11, h12, h13, h14, h15, h16⟩ := plainPage_reads o ho
  unfold State.readPage State.shownOver
  rw [if_neg h1, if_neg h2, if_neg h3, if_neg h4, if_neg h5, if_neg h6, if_neg h7, if_neg h8, if_neg h9, if_neg h10, if_neg h11,
    if_neg h12, if_neg h13, if_neg h14, if_neg h15, if_neg h16]
  split
  · rfl
  · split
    · rfl
    · exact (wSet_none _).symm

theorem ctxBase_row (c : CtxId) {o : Nat} (ho : o < 0x10000) : regRow? (ctxBase c + o) = pageRow? o := by
  have hc := c.isLt
  unfold regRow? ctxBase
  rw [if_neg (by omega), if_pos (by omega), show (0x1000000 + 0x10000 * c.val + o) % 0x10000 = o by omega]

theorem ctxBase_page (c : CtxId) {o : Nat} (ho : o < 0x10000) :
    ¬ ctxBase c + o < 0x1000000 ∧ ctxBase c + o < 0x1100000 ∧ (Fin.ofNat 16 ((ctxBase c + o - 0x1000000) / 0x10000) : CtxId) = c ∧
      (ctxBase c + o) % 0x10000 = o := by
  have hc := c.isLt
  unfold ctxBase
  refine ⟨by omega, by omega, Fin.ext ?_, by omega⟩
  show (0x1000000 + 0x10000 * c.val + o - 0x1000000) / 0x10000 % 16 = c.val
  omega

theorem ctxBase_pageCtx (c : CtxId) {o : Nat} (ho : o < 0x10000) : pageCtx (ctxBase c + o) = some (c, o) := by
  obtain ⟨h1, h2, h3, h4⟩ := ctxBase_page c ho
  rw [pageCtx, if_pos ⟨by omega, h2⟩, h3, h4]

theorem State.readReg_page (s : State) (who : Requester) (c : CtxId) {o : Nat} (ho : o < 0x10000) {r : RegRow}
    (hr : pageRow? o = some r) : s.readReg who (ctxBase c + o) = s.readPage c o &&& ~~~ (r.mask .wo) := by
  obtain ⟨h1, h2, h3, h4⟩ := ctxBase_page c ho
  unfold State.readReg
  rw [ctxBase_row c ho, hr]
  simp only [if_neg h1, h3, h4]

/-! ### The way of a write to a context's page -/

/-- The write by the physical function goes to the device's access at once: nothing waits, and the endpoint is on. -/
theorem State.serving.landed (hs : s.serving) (off size : Nat) (v : W64) :
    exec (.registerWrite (.fn 0) off size v false) s = wakeAfter (s.access (.fn 0) off size v) := by
  obtain ⟨hrun, hready, -, hd3, -, hnone⟩ := hs
  have hup : s.up = true := by simp [State.up, hrun]
  have hopen : s.barsOpen 0 = true := by
    rw [State.barsOpen, hup, hready, show s.pcie.d3.getLsbD (0 : Fin 16).val = false from hd3]
    rfl
  show (if s.barsOpen 0 && s.hostBehind 0 then _ else s.regLand 0 off size v false) = _
  rw [if_neg (by simp [State.hostBehind, hnone]), State.regLand, if_pos hopen]
  rfl

/-- In state P0 to P3 with the endpoint on, an access by the host wakes nothing. -/
theorem State.hostWakes_run (hrun : s.pwr.mode = .run) (hon : s.dom epDom = .on) : s.hostWakes = s := by
  unfold State.hostWakes
  rw [State.wakeDom_on s _ hon]
  exact if_neg fun h => by simp [hrun] at h

theorem State.pfTarget_page {c : CtxId} (hheld : s.vfHolds c = false) (hrec : s.inRecovery = false) {o : Nat} (ho : o < 0x10000) :
    s.pfTarget (ctxBase c + o) = if (pageRow? o).isSome then some (.reg (ctxBase c + o)) else none := by
  obtain ⟨h1, h2, h3, h4⟩ := ctxBase_page c ho
  unfold State.pfTarget
  rw [if_neg h1]
  simp only [h3, h4, hheld, hrec, h2, true_and, Bool.not_false, and_true]

theorem State.serving.access_page (hs : s.serving) {c : CtxId} (hheld : s.vfHolds c = false) {o : Nat} (ho : o < 0x10000) (h8 : o % 8 = 0)
    (v : W64) : s.access (.fn 0) (ctxBase c + o) 8 v =
      if (pageRow? o).isSome then s.regWrite (.fn 0) (ctxBase c + o) v else .next s := by
  obtain ⟨-, -, hrec, -⟩ := hs
  have hal : (ctxBase c + o) % 8 = 0 := by unfold ctxBase; omega
  unfold State.access
  rw [show (ctxBase c + o) / 8 * 8 = ctxBase c + o by omega, hal,
    show s.target (.fn 0) (ctxBase c + o) = s.pfTarget (ctxBase c + o) from rfl, State.pfTarget_page hheld hrec ho]
  by_cases hrow : (pageRow? o).isSome = true
  · simp only [if_pos hrow, Nat.add_zero, State.regValue, true_and, if_pos hal]
  · simp only [if_neg hrow]

theorem State.regWrite_page (who : Requester) (c : CtxId) {o : Nat} (ho : o < 0x10000) (v : W64) :
    s.regWrite who (ctxBase c + o) v = (s.pageFault c o v).elim (.next (s.writePage c o v)) .fault := by
  unfold State.regWrite
  rw [ctxBase_pageCtx c ho]
  cases h : s.pageFault c o v with
  | none => simp only [h, Option.elim_none]
  | some f => simp only [h, Option.elim_some]

/-- The write of a plain register stores what its access types make of it. -/
theorem State.serving.writes_plain (hs : s.serving) {c : CtxId} (hheld : s.vfHolds c = false) {o : Nat} (ho : o ∈ plainPage) {r : RegRow}
    (hr : pageRow? o = some r) (v : W64) :
    exec (.registerWrite (.fn 0) (ctxBase c + o) 8 v false) s =
      .next (s.setReg (ctxBase c + o) (r.merge (s.reg (ctxBase c + o)) v)) := by
  obtain ⟨hlt, h8, h1, h2, h3, h4, h5, h6, h7, h8', h9, h10, h11, h12, h13, h14, h15, h16, h17, h18⟩ := plainPage_writes o ho
  have hfault : s.pageFault c o v = none := by
    unfold State.pageFault
    rw [if_neg h1, if_neg (by simp [h17, h3]), if_neg h18, if_neg h9]
  have hwrite : s.writePage c o v = s.setReg (ctxBase c + o) (r.merge (s.reg (ctxBase c + o)) v) := by
    unfold State.writePage
    rw [if_neg h1, if_neg h2, if_neg h3, if_neg h4, if_neg h5, if_neg h6, if_neg h7, if_neg h8', if_neg h9, if_neg h10, if_neg h11,
      if_neg h12, if_neg h13, if_neg h14, if_neg h15, if_neg h16, State.plainWrite, ctxBase_row c hlt, hr]
  rw [hs.landed, hs.access_page hheld hlt h8, hr, if_pos Option.isSome_some, State.regWrite_page _ _ hlt, hfault]
  obtain ⟨hrun, -, -, -, hon, -⟩ := hs
  show Host.Outcome.next ((s.writePage c o v).hostWakes) = _
  rw [hwrite]
  exact congrArg Host.Outcome.next (State.hostWakes_run (s := s.setReg _ _) hrun hon)

/-! ### What a field of a written register reads -/

/-- A bit of a word that its row's access types let a write change. -/
theorem RegRow.merge_getLsbD (r : RegRow) (old v : W64) {j : Nat} (hj : j < 64) :
    (r.merge old v).getLsbD j = (((old.getLsbD j && !(r.mask .rw).getLsbD j) || (v.getLsbD j && (r.mask .rw).getLsbD j)) &&
      !(v.getLsbD j && (r.mask .w1c).getLsbD j)) := by
  simp [RegRow.merge, hj]

/-- On a field, the mask of an access type is full where the field is of that type, and else empty. -/
theorem RegRow.mask_getLsbD {r : RegRow} {o : Nat} (h : r.byField o = true) {f : RegField} (hf : f ∈ r.fields) (a : Acc) {i : Nat}
    (hi : i < f.width) : (r.mask a).getLsbD (f.lo + i) = decide (f.acc = a) := by
  have hok := List.all_eq_true.mp h f hf
  simp only [Bool.and_eq_true, List.all_cons, List.all_nil, decide_eq_true_eq, Bool.and_true] at hok
  obtain ⟨⟨hlo, hrw, hro, hwo, hw1c⟩, -⟩ := hok
  have hbits : wBits (r.mask a) f.lo f.width = if f.acc = a then 2 ^ f.width - 1 else 0 := by
    cases a <;> assumption
  have hbit := wBits_testBit (r.mask a) f.lo f.width i
  rw [hbits, decide_eq_true hi, Bool.true_and] at hbit
  rw [← hbit]
  by_cases ha : f.acc = a
  · simp [ha, Nat.testBit_two_pow_sub_one, hi]
  · simp [ha]

theorem RegRow.byField_in {r : RegRow} {o : Nat} (h : r.byField o = true) {f : RegField} (hf : f ∈ r.fields) : f.lo + f.width ≤ 64 := by
  have hok := List.all_eq_true.mp h f hf
  simp only [Bool.and_eq_true, decide_eq_true_eq] at hok
  obtain ⟨⟨hlo, -⟩, -⟩ := hok
  exact hlo

/-- What the device shows over a plain register lies in fields that software cannot write. -/
theorem RegRow.shownOver_ro {r : RegRow} {o : Nat} (h : r.byField o = true) {f : RegField} (hf : f ∈ r.fields) (s : State) (c : CtxId)
    {i : Nat} (hi : i < f.width)
    (hin : (s.shownOver c o).1.lo ≤ f.lo + i ∧ f.lo + i < (s.shownOver c o).1.lo + (s.shownOver c o).1.width) : f.acc = .ro := by
  have hok := List.all_eq_true.mp h f hf
  simp only [Bool.and_eq_true, Bool.or_eq_true, decide_eq_true_eq] at hok
  obtain ⟨-, hro | ⟨hmig, htail⟩⟩ := hok
  · exact hro
  · unfold State.shownOver at hin
    split at hin
    · obtain ⟨-, hhi⟩ := hin
      have : 9 ≤ f.lo := hmig.resolve_left (fun hne => hne ‹_›)
      have : f.lo + i < 0 + 9 := hhi
      omega
    · split at hin
      · obtain ⟨hlo, -⟩ := hin
        have : f.lo + f.width ≤ 34 := htail.resolve_left (fun hne => hne ‹_›)
        have : 34 ≤ f.lo + i := hlo
        omega
      · obtain ⟨-, hhi⟩ := hin
        exact absurd hhi (Nat.not_lt_zero _)

/-- A bit of a field that the device shows nothing over, as software reads it. -/
theorem State.readField_bit (s : State) (who : Requester) (c : CtxId) {o : Nat} (ho : o ∈ plainPage) {r : RegRow}
    (hr : pageRow? o = some r) {f : RegField} (hf : f ∈ r.fields) {i : Nat} (hi : i < f.width) :
    (wBits (s.readReg who (ctxBase c + o)) f.lo f.width).testBit i =
      ((if (s.shownOver c o).1.lo ≤ f.lo + i ∧ f.lo + i < (s.shownOver c o).1.lo + (s.shownOver c o).1.width then
        (s.shownOver c o).2.testBit (f.lo + i - (s.shownOver c o).1.lo) else (s.reg (ctxBase c + o)).getLsbD (f.lo + i)) &&
          decide (f.acc ≠ .wo)) := by
  have hok := plainPage_byField o ho r hr
  have hj : f.lo + i < 64 := by have := r.byField_in hok hf; omega
  obtain ⟨hlt, -⟩ := plainPage_writes o ho
  rw [wBits_testBit, decide_eq_true hi, Bool.true_and, s.readReg_page who c hlt hr, BitVec.getLsbD_and, BitVec.getLsbD_not,
    r.mask_getLsbD hok hf .wo hi, s.readPage_plain c ho, wSet_getLsbD _ _ _ _ _ hj]
  simp [hj]

/-- R9: what each field of the written register reads. -/
theorem State.fields_written (who : Requester) (c : CtxId) {o : Nat} (ho : o ∈ plainPage) {r : RegRow} (hr : pageRow? o = some r)
    (v : W64) {f : RegField} (hf : f ∈ r.fields) {i : Nat} (hi : i < f.width) {old new : Nat}
    (hold : old = wBits (s.readReg who (ctxBase c + o)) f.lo f.width)
    (hnew : new = wBits ((s.setReg (ctxBase c + o) (r.merge (s.reg (ctxBase c + o)) v)).readReg who (ctxBase c + o)) f.lo f.width) :
    new.testBit i = match f.acc with
      | .rw => v.getLsbD (f.lo + i)
      | .ro => old.testBit i
      | .wo => false
      | .w1c => old.testBit i && !v.getLsbD (f.lo + i) := by
  have hok := plainPage_byField o ho r hr
  have hj : f.lo + i < 64 := by have := r.byField_in hok hf; omega
  have hro := r.shownOver_ro hok hf s c hi
  rw [hnew, hold, State.readField_bit _ who c ho hr hf hi, State.readField_bit _ who c ho hr hf hi, State.reg_setReg, if_pos rfl,
    r.merge_getLsbD _ _ hj, r.mask_getLsbD hok hf .rw hi, r.mask_getLsbD hok hf .w1c hi,
    show (s.setReg (ctxBase c + o) (r.merge (s.reg (ctxBase c + o)) v)).shownOver c o = s.shownOver c o from rfl]
  cases hacc : f.acc with
  | ro => simp
  | wo => simp
  | rw => rw [if_neg (fun h => by simp [hacc] at hro; omega)]; simp
  | w1c =>
    have hnot : ¬ ((s.shownOver c o).1.lo ≤ f.lo + i ∧ f.lo + i < (s.shownOver c o).1.lo + (s.shownOver c o).1.width) := fun h =>
      by simp [hacc] at hro; omega
    simp only [if_neg hnot]
    simp

/-! ### The obligation -/

/-- Settles O31: the fields of a plain register read by their access types, bit by bit; a reserved offset has no target, and the
base of the completion ring is guarded by the records that wait. -/
theorem registerWrite : Obligations.RegisterWrite := by
  unfold Obligations.RegisterWrite
  refine ⟨fun c o r v s hs hheld ho hr => ?_, fun c o v s hs hheld => ⟨fun hlt h8 hnone => ?_, fun hbuf => ?_⟩⟩
  · refine ⟨_, hs.writes_plain hheld ho hr v, rfl, fun off hne => State.reg_setReg_other s _ hne, fun f hf => ?_⟩
    have hbit := fun i hi => State.fields_written (s := s) (.fn 0) c ho hr v hf (i := i) hi rfl rfl
    have hzero : ∀ (w : W64) i, ¬ i < f.width → (wBits w f.lo f.width).testBit i = false := fun w i hi => by
      rw [wBits_testBit, decide_eq_false hi, Bool.false_and]
    intro old new
    cases hacc : f.acc with
    | rw =>
      refine Nat.eq_of_testBit_eq fun i => ?_
      by_cases hi : i < f.width
      · have hv : v.getLsbD (f.lo + i) = (wBits v f.lo f.width).testBit i := by
          rw [wBits_testBit, decide_eq_true hi, Bool.true_and]
        exact (hbit i hi).trans (by rw [hacc]; exact hv)
      · rw [hzero _ i hi, hzero _ i hi]
    | ro =>
      refine Nat.eq_of_testBit_eq fun i => ?_
      by_cases hi : i < f.width
      · exact (hbit i hi).trans (by rw [hacc])
      · rw [hzero _ i hi, hzero _ i hi]
    | wo =>
      refine Nat.eq_of_testBit_eq fun i => ?_
      by_cases hi : i < f.width
      · exact (hbit i hi).trans (by rw [hacc, Nat.zero_testBit])
      · rw [hzero _ i hi, Nat.zero_testBit]
    | w1c =>
      intro i hi
      exact (hbit i hi).trans (by rw [hacc])
  · obtain ⟨hrun, -, -, -, hon, -⟩ := id hs
    rw [hs.landed, hs.access_page hheld hlt h8, hnone]
    exact congrArg Host.Outcome.next (State.hostWakes_run hrun hon)
  · have hfault : s.pageFault c Reg.ctxCqBase v = some .undefinedRingMove := by
      unfold State.pageFault
      rw [if_neg (by decide), if_pos (by decide), if_neg (by simpa using hbuf)]
    rw [hs.landed, hs.access_page hheld (by decide) (by decide), if_pos (by decide), State.regWrite_page _ _ (by decide), hfault]
    rfl

end Sys2Proof.Machine
end

section
/-! PROOFS. Weight encodings, the model table, the check-value units, and the window on the error log. -/

namespace Sys2Proof.Machine

set_option Elab.async false

open Sys2Proof

variable {s t u : State}

/-! ### Weight encodings (R75, R105) -/

/-- The bit patterns of magnitude `v` that R105 tries. -/
def sideCands (int4 : Bool) (v : Nat) : List Nat :=
  if v < encT int4 then [v % encT int4]
  else if v < 2 * encT int4 then [v % encT int4 + encT int4, v % encT int4 + 2 * encT int4]
  else [v % encT int4 + encT int4 + 2 * encT int4]

theorem fitSide_eq (int4 : Bool) (v : Nat) (forced : List (Nat × Bool)) :
    fitSide int4 v forced = (sideCands int4 v).find? (fun c => meets c forced) := rfl

/-- Every candidate of a magnitude within the format holds that magnitude. -/
theorem sideVal_cands : ∀ int4 : Bool, ∀ v, v < encL int4 + 1 → ∀ b ∈ sideCands int4 v, sideVal int4 b = v := by
  have h4 : ∀ v, v < encL true + 1 → ∀ b ∈ sideCands true v, sideVal true b = v := by decide
  have h8 : (List.range (encL false + 1)).all (fun v => (sideCands false v).all (fun b => decide (sideVal false b = v))) = true := by
    decide
  intro int4 v hv b hb
  cases int4 with
  | true => exact h4 v hv b hb
  | false => exact of_decide_eq_true (List.all_eq_true.mp (List.all_eq_true.mp h8 v (List.mem_range.mpr hv)) b hb)

/-- A side that fits holds its magnitude and equals every forced cell. -/
theorem fitSide_some {int4 : Bool} {v b : Nat} {forced : List (Nat × Bool)} (hv : v < encL int4 + 1) (h : fitSide int4 v forced = some b) :
    sideVal int4 b = v ∧ meets b forced = true := by
  rw [fitSide_eq] at h
  have hmeets := List.find?_some h
  exact ⟨sideVal_cands int4 v hv b (List.mem_of_find?_eq_some h), hmeets⟩

/-- With no stuck cell every magnitude fits. -/
theorem fitSide_free (int4 : Bool) (v : Nat) : ∃ b, fitSide int4 v [] = some b := by
  rw [fitSide_eq, sideCands]
  split
  · exact ⟨_, rfl⟩
  · split
    · exact ⟨_, rfl⟩
    · exact ⟨_, rfl⟩

theorem fitSide_zero (int4 : Bool) : fitSide int4 0 [] = some 0 := by cases int4 <;> rfl

/-- An encoding comes from two sides that differ by the weight. -/
theorem encodeW_sides {int4 : Bool} {w : Int} {fPos fNeg : List (Nat × Bool)} {c : Cell2} (hw : w.natAbs ≤ encL int4)
    (h : encodeW int4 w fPos fNeg = some c) :
    ∃ d, w.toNat + d < encL int4 + 1 ∧ (-w).toNat + d < encL int4 + 1 ∧
      fitSide int4 (w.toNat + d) fPos = some c.1 ∧ fitSide int4 ((-w).toNat + d) fNeg = some c.2 := by
  obtain ⟨d, hd, hc⟩ := List.exists_of_findSome?_eq_some h
  have hlt := List.mem_range.mp hd
  refine ⟨d, by omega, by omega, ?_⟩
  cases hp : fitSide int4 (w.toNat + d) fPos with
  | none => rw [hp] at hc; cases hc
  | some p =>
    cases hn : fitSide int4 ((-w).toNat + d) fNeg with
    | none => rw [hp, hn] at hc; cases hc
    | some n =>
      rw [hp, hn] at hc
      cases hc
      exact ⟨rfl, rfl⟩

theorem encodeW_exact {int4 : Bool} {w : Int} {fPos fNeg : List (Nat × Bool)} {c : Cell2} (hw : w.natAbs ≤ encL int4)
    (h : encodeW int4 w fPos fNeg = some c) : cellVal int4 c = w ∧ meets c.1 fPos = true ∧ meets c.2 fNeg = true := by
  obtain ⟨d, hp, hn, fp, fn⟩ := encodeW_sides hw h
  obtain ⟨vp, mp⟩ := fitSide_some hp fp
  obtain ⟨vn, mn⟩ := fitSide_some hn fn
  refine ⟨?_, mp, mn⟩
  rw [cellVal, vp, vn]
  omega

/-- The ordinary encoding is the first one: no charge on the side of the other sign. -/
theorem ordinary_exists (int4 : Bool) (w : Int) :
    ∃ e, ordinary int4 w = some e ∧ (e.1 = 0 ∨ e.2 = 0) := by
  obtain ⟨p, hp⟩ := fitSide_free int4 (w.toNat + 0)
  obtain ⟨n, hn⟩ := fitSide_free int4 ((-w).toNat + 0)
  refine ⟨(p, n), ?_, ?_⟩
  · rw [ordinary, encodeW, List.range_succ_eq_map, List.findSome?_cons, hp, hn]
  · rcases Int.le_total 0 w with h0 | h0
    · rw [show (-w).toNat + 0 = 0 by omega, fitSide_zero] at hn
      exact .inr (Option.some.inj hn).symm
    · rw [show w.toNat + 0 = 0 by omega, fitSide_zero] at hp
      exact .inl (Option.some.inj hp).symm

/-- Settles O60: an encoding is a pair of candidates whose magnitudes differ by the weight. -/
theorem encodingStoresWeight : Obligations.EncodingStoresWeight := by
  unfold Obligations.EncodingStoresWeight
  intro int4 w fPos fNeg c hw
  obtain ⟨e, he, hside⟩ := ordinary_exists int4 w
  obtain ⟨hval, -⟩ := encodeW_exact hw he
  exact ⟨encodeW_exact hw, e, he, hval, hside⟩

/-! ### The model table (R305, R327) -/

/-- The code of a DEFINE by the physical function: it makes the entry where the code is 0, and else only answers. -/
theorem State.define_pf (s : State) : s.define (.fn 0) =
    if s.defineCode s.bankHost = 0 then
      ({ s with bankHost := { s.bankHost with mdlCode := s.defineCode s.bankHost } }).setModel s.bankHost.mdlSel (Model.ofWords s.bankHost.mdlW)
    else { s with bankHost := { s.bankHost with mdlCode := s.defineCode s.bankHost } } := rfl

/-- The code of an UNDEFINE of the selected entry. -/
def State.undefineCode (s : State) (b : EditBank) : Nat :=
  if !b.done then 1
  else if !(s.model b.mdlSel).valid || !(s.slotVacant (s.model b.mdlSel) 0) || !(s.slotVacant (s.model b.mdlSel) 1) then 4 else 0

theorem State.undefine_pf (s : State) : s.undefine (.fn 0) =
    if s.undefineCode s.bankHost = 0 then
      ({ s with bankHost := { s.bankHost with mdlCode := s.undefineCode s.bankHost } }).setModel s.bankHost.mdlSel {}
    else { s with bankHost := { s.bankHost with mdlCode := s.undefineCode s.bankHost } } := rfl

theorem State.define_answers {k : Nat} (hk : s.defineCode s.bankHost = k) (h0 : k ≠ 0) :
    exec (.define (.fn 0)) s = .next { s with bankHost := { s.bankHost with mdlCode := k } } := by
  refine congrArg Host.Outcome.next (s.define_pf.trans ?_)
  rw [hk, if_neg h0]

theorem State.undefine_answers {k : Nat} (hk : s.undefineCode s.bankHost = k) (h0 : k ≠ 0) :
    exec (.undefine (.fn 0)) s = .next { s with bankHost := { s.bankHost with mdlCode := k } } := by
  refine congrArg Host.Outcome.next (s.undefine_pf.trans ?_)
  rw [hk, if_neg h0]

theorem State.define_makes (hk : s.defineCode s.bankHost = 0) :
    exec (.define (.fn 0)) s = .next (({ s with bankHost := { s.bankHost with mdlCode := 0 } }).setModel s.bankHost.mdlSel
      (Model.ofWords s.bankHost.mdlW)) := by
  refine congrArg Host.Outcome.next (s.define_pf.trans ?_)
  rw [hk, if_pos rfl]

theorem State.undefine_frees (hk : s.undefineCode s.bankHost = 0) :
    exec (.undefine (.fn 0)) s = .next (({ s with bankHost := { s.bankHost with mdlCode := 0 } }).setModel s.bankHost.mdlSel {}) := by
  refine congrArg Host.Outcome.next (s.undefine_pf.trans ?_)
  rw [hk, if_pos rfl]

/-- Settles O43: DEFINE and UNDEFINE by their codes. -/
theorem modelTable : Obligations.ModelTable := by
  unfold Obligations.ModelTable
  refine ⟨fun who b s hb => ?_, fun b s hb => ?_, fun s => ⟨rfl, rfl⟩⟩
  · refine congrArg Host.Outcome.next (?_ : s.mdlRead who = _)
    rw [State.mdlRead, State.withBank, hb]
    rfl
  · subst hb
    have edited : ∀ (i : Instr) (p : Model),
        exec i s = .next (({ s with bankHost := { s.bankHost with mdlCode := 0 } }).setModel s.bankHost.mdlSel p) → ∃ t, exec i s = .next t ∧
        t = { s with models := t.models, bankHost := { s.bankHost with mdlCode := 0 } } ∧ t.model s.bankHost.mdlSel = p ∧
        ∀ j, j ≠ s.bankHost.mdlSel → t.model j = s.model j := fun _ _ hi =>
      ⟨_, hi, rfl, State.model_setModel_self _ _ _, fun j hj => State.model_setModel_other _ _ hj⟩
    refine ⟨fun hd => ⟨State.define_answers ?_ (by decide), State.undefine_answers ?_ (by decide)⟩,
      fun hd hv => State.define_answers ?_ (by decide), fun hk => ⟨?_, rfl, rfl⟩, fun hd hv h0 h1 => ?_,
      fun hd hv hbusy => State.undefine_answers ?_ (by decide)⟩
    · simp [State.defineCode, hd]
    · simp [State.undefineCode, hd]
    · simp [State.defineCode, hd, hv]
    · exact edited _ _ (State.define_makes hk)
    · exact edited _ _ (State.undefine_frees (by simp [State.undefineCode, hd, hv, h0, h1]))
    · rcases hbusy with h | h <;> simp [State.undefineCode, hd, hv, h]

/-! ### The check-value units (R383) -/

/-- A changed unit stands in its place, and the other units, contexts and parts of the state are as before. -/
theorem State.setCrc_becomes (s : State) (c : CtxId) (u : Fin 4) (hlen : (s.ctx c).crc.length = 4) (y : CrcUnit) :
    s.setCrc c u y = { s with ctxs := (s.setCrc c u y).ctxs } ∧ (∀ d, d ≠ c → (s.setCrc c u y).ctx d = s.ctx d) ∧
      (s.setCrc c u y).ctx c = { s.ctx c with crc := ((s.setCrc c u y).ctx c).crc } ∧ (s.setCrc c u y).crcUnit c u = y ∧
      ∀ w, w ≠ u → (s.setCrc c u y).crcUnit c w = s.crcUnit c w := by
  have hself : (s.setCrc c u y).ctx c = { s.ctx c with crc := (s.ctx c).crc.set u y } := State.ctx_updCtx_self _ c _
  refine ⟨rfl, fun d hd => State.ctx_updCtx_other _ _ hd, by rw [hself], ?_, fun w hw => ?_⟩
  · rw [State.crcUnit, hself, List.getD_eq_getElem?_getD, List.getElem?_set_self (by rw [hlen]; exact u.isLt)]
    rfl
  · rw [State.crcUnit, hself, List.getD_eq_getElem?_getD, List.getElem?_set_ne (fun h => hw (Fin.ext h.symm)),
      ← List.getD_eq_getElem?_getD]
    rfl

theorem CrcUnit.access_idle {x : CrcUnit} (h : x.adv = none) (reg : Nat) (v : W64) : x.access reg v = x.apply reg v := by
  rw [CrcUnit.access, h]
  rfl

theorem CrcUnit.access_busy {x : CrcUnit} {n : Nat} (h : x.adv = some n) (reg : Nat) (v : W64) :
    x.access reg v = { x with waiting := x.waiting ++ [(reg, v)] } := by
  rw [CrcUnit.access, h]
  rfl

theorem CrcUnit.feed_wide {x : CrcUnit} (h : x.w64 = true) (bs : List Byte) : x.feed bs = { x with run := crc64Run x.run bs } := by
  rw [CrcUnit.feed, h]
  rfl

theorem CrcUnit.feed_narrow {x : CrcUnit} (h : x.w64 = false) (bs : List Byte) :
    x.feed bs = { x with run := (crc32Run (x.run.setWidth 32) bs).setWidth 64 } := by
  rw [CrcUnit.feed, h]
  rfl

theorem CrcUnit.done_wide {x : CrcUnit} {n : Nat} (hadv : x.adv = some n) (h : x.w64 = true) :
    x.done = { x with adv := none, run := crc64Advance x.run n }.drain x.waiting := by
  rw [CrcUnit.done, hadv]
  show CrcUnit.drain { x with adv := none, run := if x.w64 then _ else _ } x.waiting = _
  rw [h]
  rfl

/-! ### The window on the error log (R390, R391) -/

/-- Words written in a row of registers: word `k` stands in register `k`, and registers below the row are as before. -/
theorem State.setRegs_reads : ∀ (ws : List W64) (s : State) (off : Nat),
    (∀ k w, ws[k]? = some w → (s.setRegs off ws).reg (off + 8 * k) = w) ∧ (∀ o, o < off → (s.setRegs off ws).reg o = s.reg o) ∧
      s.setRegs off ws = { s with regs := (s.setRegs off ws).regs }
  | [], s, off => ⟨fun k w h => by simp at h, fun _ _ => rfl, rfl⟩
  | w :: l, s, off => by
    obtain ⟨hrow, hlow, hrest⟩ := State.setRegs_reads l (s.setReg off w) (off + 8)
    refine ⟨fun k x hx => ?_, fun o ho => ?_, hrest⟩
    · cases k with
      | zero =>
        obtain rfl : w = x := by simpa using hx
        exact (hlow off (by omega)).trans (State.reg_setReg_self s off w)
      | succ k =>
        rw [show off + 8 * (k + 1) = off + 8 + 8 * k by omega]
        exact hrow k x (by simpa using hx)
    · exact (hlow o (by omega)).trans (State.reg_setReg_other s _ (by omega))

/-- The words that a write of TEL_LOG_SEL shows. -/
def State.logWords (s : State) (v : W64) : List W64 :=
  match s.log.find? (fun e => decide (e.seq = v.setWidth 32)) with
  | some e => e.words
  | none => [0, 0, 0, 0]

theorem State.logSelect_eq (s : State) (v : W64) :
    s.logSelect v = (s.setReg Reg.telLogSel (BitVec.ofNat 64 (wBits v 0 32))).setRegs Reg.telLogW (s.logWords v) := rfl

/-- Settles O45: a unit's access by whether an advance is in progress, and the words of the selected log entry. -/
theorem checkValueUnits : Obligations.CheckValueUnits := by
  unfold Obligations.CheckValueUnits
  refine ⟨fun c u v s hlen => ?_, fun v s => ?_⟩
  · have becomes : ∀ (i : Instr) (x y : CrcUnit), exec i s = .next (s.setCrc c u x) → x = y →
        ∃ t, exec i s = .next t ∧ t = { s with ctxs := t.ctxs } ∧ (∀ d, d ≠ c → t.ctx d = s.ctx d) ∧
          t.ctx c = { s.ctx c with crc := (t.ctx c).crc } ∧ t.crcUnit c u = y ∧ ∀ w, w ≠ u → t.crcUnit c w = s.crcUnit c w :=
      fun i x y hi hxy => ⟨_, hi, hxy ▸ s.setCrc_becomes c u hlen x⟩
    refine ⟨fun hidle => ⟨?_, fun hw => ?_, fun hw => ?_, ?_⟩, fun n hadv => ⟨?_, fun hnone hw => ?_, fun hone hw => ?_⟩⟩
    · exact becomes _ _ _ rfl (CrcUnit.access_idle hidle 0 v)
    · exact becomes _ _ _ rfl ((CrcUnit.access_idle hidle 2 v).trans (CrcUnit.feed_wide hw _))
    · exact becomes _ _ _ rfl ((CrcUnit.access_idle hidle 2 v).trans (CrcUnit.feed_narrow hw _))
    · exact becomes _ _ _ rfl (CrcUnit.access_idle hidle 3 v)
    · exact becomes _ _ _ rfl (CrcUnit.access_busy hadv 2 v)
    · refine becomes _ _ _ rfl ((CrcUnit.done_wide hadv hw).trans ?_)
      rw [hnone, CrcUnit.drain, ← hnone]
    · refine becomes _ _ _ rfl ((CrcUnit.done_wide hadv hw).trans ?_)
      refine (congrArg (CrcUnit.drain _) hone).trans ?_
      exact congrArg (fun y => CrcUnit.drain y [])
        (CrcUnit.feed_wide (x := { s.crcUnit c u with adv := none, run := crc64Advance (s.crcUnit c u).run n }) hw _)
  · obtain ⟨hrow, hlow, hrest⟩ := State.setRegs_reads (s.logWords v) (s.setReg Reg.telLogSel (BitVec.ofNat 64 (wBits v 0 32))) Reg.telLogW
    refine ⟨s.logSelect v, rfl, hrest, (hlow _ (by decide)).trans (State.reg_setReg_self s _ _), fun e he k w hw => hrow k w ?_,
      fun hnone k hk => hrow k 0 ?_⟩
    · rw [State.logWords, he]
      exact hw
    · rw [State.logWords, hnone]
      interval_cases k <;> rfl

end Sys2Proof.Machine
end

section
/-! PROOFS. The unlock sequence of the flash and program controller. -/

namespace Sys2Proof.Machine

set_option Elab.async false

open Sys2Proof

variable {s t u : State}

/-- A write of the sequence by the requester that may make it. -/
theorem State.seqWrite_own {who : Requester} {g : Bool} (hwho : sideOf who = some g) (hown : s.fpc.lock ≠ 0 → s.fpc.owner = g)
    (f : Bool → State) : s.seqWrite who f = f g := by
  unfold State.seqWrite
  rw [hwho]
  exact if_neg fun h => h.2 (hown h.1)

/-- A write of the sequence by the other requester only counts. -/
theorem State.seqWrite_foreign {who : Requester} {g : Bool} (hwho : sideOf who = some g) (hlock : s.fpc.lock ≠ 0) (hown : s.fpc.owner ≠ g)
    (f : Bool → State) : s.seqWrite who f = s.addFld Reg.fpcLock_foreign 1 := by
  unfold State.seqWrite
  rw [hwho]
  exact if_pos ⟨hlock, hown⟩

/-- The counts of FPC_LOCK rise by 1 up to 65,535. -/
theorem State.lockCount (s : State) {f : Fld} (hlo : f.lo + 16 ≤ 64) (hw : f.width = 16) :
    (s.addFld f 1).fld f = min 65535 (s.fld f + 1) := by
  rw [State.fld_addFld_self s f 1 (by omega), hw]
  rfl

/-- A relock outside a lockout: the sequence starts anew, and the sixteenth locks it out. -/
theorem State.fpcRelock_relocks (h : s.fpc.lockout = false) :
    s.fpcRelock = { s with fpc := s.fpcRelock.fpc, regs := s.fpcRelock.regs } ∧
      s.fpcRelock.fpc = { s.fpc with lock := 0, relocks := s.fpc.relocks + 1, lockout := decide (16 ≤ s.fpc.relocks + 1) } ∧
      s.fpcRelock.fld Reg.fpcLock_badSeq = min 65535 (s.fld Reg.fpcLock_badSeq + 1) := by
  refine ⟨rfl, ?_, State.lockCount (State.setFpc s _) (by decide) rfl⟩
  show ({ s.fpc with lock := 0, relocks := s.fpc.relocks + 1, lockout := s.fpc.lockout || decide (16 ≤ s.fpc.relocks + 1) } : Fpc) = _
  rw [h, Bool.false_or]

theorem State.fpcKey_open {who : Requester} {v : W64} (h : s.fpc.lockout = false) : s.fpcKey who v = s.seqWrite who (fun g =>
    if s.fpc.lock = 0 ∧ wBits v 0 16 = 0xA5C3 then s.setFpc { s.fpc with lock := 1, owner := g }
    else if s.fpc.lock = 1 ∧ wBits v 0 16 = 0x3C5A then s.setFpc { s.fpc with lock := 2 }
    else s.fpcRelock) := by
  rw [State.fpcKey, h]
  exact if_neg Bool.false_ne_true

/-- Settles O46: each write of the sequence by who makes it, the lock's place and the value written. -/
theorem fpcSequence : Obligations.FpcSequence := by
  unfold Obligations.FpcSequence
  intro who g v s hwho
  have relocked : ∀ i, s.fpc.lockout = false → exec i s = .next s.fpcRelock →
      ∃ t, exec i s = .next t ∧ t = { s with fpc := t.fpc, regs := t.regs } ∧
        t.fpc = { s.fpc with lock := 0, relocks := s.fpc.relocks + 1, lockout := decide (16 ≤ s.fpc.relocks + 1) } ∧
        t.fld Reg.fpcLock_badSeq = min 65535 (s.fld Reg.fpcLock_badSeq + 1) :=
    fun i hopen hi => ⟨_, hi, State.fpcRelock_relocks hopen⟩
  have counted : ∀ i, exec i s = .next (s.addFld Reg.fpcLock_foreign 1) →
      ∃ t, exec i s = .next t ∧ t = { s with regs := t.regs } ∧ t.fld Reg.fpcLock_foreign = min 65535 (s.fld Reg.fpcLock_foreign + 1) :=
    fun i hi => ⟨_, hi, rfl, s.lockCount (by decide) rfl⟩
  have key : ∀ {x}, s.fpcKey who v = x → exec (.fpcKeyWrite who v) s = .next x := fun h => congrArg Host.Outcome.next h
  have cmd : ∀ {x}, s.fpcCmd who v = x → exec (.fpcCmdWrite who v) s = .next x := fun h => congrArg Host.Outcome.next h
  have addr : ∀ {x}, s.fpcAddr who v = x → exec (.fpcAddrWrite who v) s = .next x := fun h => congrArg Host.Outcome.next h
  refine ⟨fun hopen => ⟨fun h0 hkey => key ?_, fun h0 hkey => relocked _ hopen (key ?_), fun h0 hown => ?_, fun h0 hown => ?_⟩,
    fun hout => ⟨congrArg Host.Outcome.next (if_pos hout), congrArg Host.Outcome.next (if_pos hout)⟩⟩
  · rw [State.fpcKey_open hopen, State.seqWrite_own hwho (fun h => absurd h0 h), if_pos ⟨h0, hkey⟩]
    rfl
  · rw [State.fpcKey_open hopen, State.seqWrite_own hwho (fun h => absurd h0 h), if_neg (fun h => hkey h.2), if_neg (by simp [h0])]
  · have own : ∀ f, s.seqWrite who f = f g := State.seqWrite_own hwho (fun _ => hown)
    refine ⟨fun h1 hkey => key ?_, fun hbad => relocked _ hopen (key ?_), fun h2 => cmd ((own _).trans (if_pos h2)),
      fun h2 => relocked _ hopen (cmd ((own _).trans (if_neg h2))), fun h3 => addr ((own _).trans (if_pos h3)),
      fun h3 => relocked _ hopen (addr ((own _).trans (if_neg h3))), relocked _ hopen (congrArg Host.Outcome.next (if_neg h0))⟩
    · rw [State.fpcKey_open hopen, own, if_neg (fun h => h0 h.1), if_pos ⟨h1, hkey⟩]
      rfl
    · rw [State.fpcKey_open hopen, own, if_neg (fun h => h0 h.1), if_neg (fun h => hbad.elim (· h.1) (· h.2))]
  · have other : ∀ f, s.seqWrite who f = s.addFld Reg.fpcLock_foreign 1 := State.seqWrite_foreign hwho h0 hown
    exact ⟨counted _ (key ((State.fpcKey_open hopen).trans (other _))), counted _ (cmd (other _)), counted _ (addr (other _))⟩

end Sys2Proof.Machine
end

section
/-! PROOFS. An attestation report to host memory while the endpoint's domain is gated. -/

namespace Sys2Proof.Machine

set_option Elab.async false

open Sys2Proof

variable {s t u : State}

/-! ### Writes to objects whose home is host memory -/

/-- Every object lies in host memory and has no copy on the device. -/
def State.hostOnly (s : State) : Prop := ∀ e ∈ s.objs, e.2.home = 3 ∧ e.2.t3Peer = false ∧ e.2.cp0 = false ∧ e.2.cp1 = false

theorem State.reach_mem {v : View} {a : Nat} {r : Nat × Obj × Nat} (h : s.reach v a = some r) : (r.1, r.2.1) ∈ s.objs := by
  unfold State.reach at h
  split at h
  · cases h
  · obtain ⟨a', -, h⟩ := Option.bind_eq_some_iff.mp h
    obtain ⟨e, he, h⟩ := Option.bind_eq_some_iff.mp h
    split at h
    · cases h
    · cases h
      exact List.mem_of_find?_eq_some he

theorem State.homeLoc_host {o : Obj} (hhome : o.home = 3) (hpeer : o.t3Peer = false) (i off : Nat) : s.homeLoc i o off =
    if s.pcie.linkUp || s.gated epDom then some (.host (o.loc.toNat % 2 ^ 52 * 4096 + off)) else none := by
  unfold State.homeLoc
  rw [hhome]
  exact if_neg (by simp [hpeer])

/-- Where every object lies in host memory, so does every byte that can be written. -/
theorem State.hostOnly.writePlace (h : s.hostOnly) {v : View} {a : Nat} {l : Loc} (hl : s.writePlace v a = some l) : ∃ k, l = .host k := by
  obtain ⟨r, hr, hl⟩ := Option.bind_eq_some_iff.mp hl
  obtain ⟨hhome, hpeer, h0, h1⟩ : r.2.1.home = 3 ∧ r.2.1.t3Peer = false ∧ r.2.1.cp0 = false ∧ r.2.1.cp1 = false :=
    h _ (State.reach_mem hr)
  split at hl
  · cases hl
  · rw [State.readLoc, if_neg (by simp [h0]), if_neg (by simp [h1])] at hl
    rw [State.homeLoc_host hhome hpeer] at hl
    split at hl
    · exact ⟨_, (Option.some.inj hl).symm⟩
    · cases hl

/-- A write to host memory is sent whether or not the endpoint's domain is on: it stops no attempt. -/
theorem State.hostOnly.writePiece (h : s.hostOnly) (v : View) (who : Engine × Nat) (a : Nat) (data : List SB) :
    (s.writePiece v who a data).1.pwr = s.pwr ∧ (s.writePiece v who a data).1.hostOnly := by
  unfold State.writePiece
  split
  · rename_i loc _ hplace
    obtain ⟨k, rfl⟩ := h.writePlace hplace
    have hf : s.frame [.hostMem, .poison, .bch] (s.hostStore k data) := (State.frame.refl _ s).hostStore
    refine ⟨hf.pwr_eq, fun e he => h e ?_⟩
    rwa [← hf.objs_eq]
  · exact ⟨rfl, h⟩

theorem State.hostOnly.writeL (v : View) (who : Engine × Nat) (l : List (Nat × Nat)) (h : s.hostOnly) (data : List SB) :
    (s.writeL v who l data).1.pwr = s.pwr := by
  induction l generalizing s data with
  | nil => rfl
  | cons p l ih =>
    obtain ⟨hpwr, hkeep⟩ := h.writePiece v who p.1 (data.take p.2)
    exact (ih hkeep _).trans hpwr

/-! ### The report -/

/-- The physical function's report to host memory is delivered at its first attempt. -/
theorem State.hostOnly.signDone (h : s.hostOnly) {q : AttReq} {body : List Byte} (hsig : s.sec.signing = some (q, body)) (hsrc : q.src = .pf)
    (hstall : s.pwr.stall = []) : ∃ t, exec .reportSignDone s = .next t ∧ t.sec.signing = none := by
  have hdone : s.signDone = (s.updSec (fun x => { x with signing := none })).deliver .pf 0 q.addr (signedReport body) := by
    unfold State.signDone
    rw [hsig]
    simp only [hsrc]
  generalize signedReport body = report at hdone
  have hput : ((s.updSec (fun x => { x with signing := none })).putReport 0 q.addr report).1.pwr = s.pwr ∧
      ((s.updSec (fun x => { x with signing := none })).putReport 0 q.addr report).1.sec.signing = none := by
    unfold State.putReport
    split
    · have hf := (State.frame.refl [.mem, .hostMem, .deposits, .poison, .bch, .objs, .link, .pwr, .out]
        (s.updSec (fun x => { x with signing := none }))).writeBytes (v := (s.updSec (fun x => { x with signing := none })).hostView 0)
          (who := (.tmv, 2 ^ 20 + 2)) (a := q.addr) (data := clean report)
      have hpwr := State.hostOnly.writeL (s := s.updSec (fun x => { x with signing := none }))
        ((s.updSec (fun x => { x with signing := none })).hostView 0) (.tmv, 2 ^ 20 + 2) (piecesOf q.addr (clean report).length) h (clean report)
      exact ⟨hpwr, congrArg Sec.signing hf.sec_eq⟩
    · exact ⟨rfl, rfl⟩
  obtain ⟨hpwr, hsec⟩ := hput
  have hstays : s.signDone.pwr.stall = [] := by
    rw [hdone]
    exact (congrArg Pwr.stall hpwr).trans hstall
  refine ⟨s.signDone, congrArg (Host.Outcome.next ∘ Prod.fst) (State.tryOnce_done s _ hstays hstall), ?_⟩
  rw [hdone]
  exact hsec

/-- An object of context 0 in host memory, at the front of the tensor address space. -/
def hostObj : Obj := { valid := true, size := 16, home := 3 }

/-- A report of the physical function is being signed, whose destination is an object in host memory; the clock of the endpoint's domain
is stopped. -/
def reportState : State :=
  { objs := [(0, hostObj)]
    sec := { signing := some ({ src := .pf, kind := 1, mctx := 0, nonce := [], addr := 0 }, []) }
    pcie := { linkUp := true }
    pwr := { doms := [(epDom, .clockGated)] } }

theorem reportState_hostOnly : reportState.hostOnly := by
  intro e he
  obtain rfl := List.mem_singleton.mp he
  exact ⟨rfl, rfl, rfl, rfl⟩

theorem reportState_reach {a : Nat} (ha : a < 65536) : reportState.reach (reportState.hostView 0) a = some (0, hostObj, a) := by
  have hobj : reportState.objAt 0 a = some (0, hostObj) := by
    show List.find? _ [(0, hostObj)] = _
    rw [List.find?_cons_of_pos]
    show (true && (decide (0 * 4096 ≤ a) && decide (a < (0 + 16) * 4096))) = true
    simp
    omega
  rw [State.reach, if_neg (by omega)]
  show (reportState.objAt 0 a).bind _ = _
  rw [hobj]
  show some (0, hostObj, a - 0 * 4096) = _
  rw [Nat.zero_mul, Nat.sub_zero]

theorem reportState_writePlace : reportState.writePlace (reportState.hostView 0) 0 = some (.host 0) := by
  rw [State.writePlace, reportState_reach (by decide)]
  rfl

theorem reportState_place : reportState.reportPlace 0 0 = true := by
  unfold State.reportPlace
  extract_lets v
  rw [reportState_writePlace, reportState_reach (by decide), reportState_reach (by decide)]
  rfl

/-- Refutes O58: of a report whose destination meets a gated domain the statement says that it waits, whatever the destination; a report
to host memory is posted while the endpoint's domain is gated, and its signing is over. -/
theorem not_securityIsland : ¬ Obligations.SecurityIsland := by
  intro h
  obtain ⟨-, hatt⟩ := h
  obtain ⟨-, -, -, -, hdone, -⟩ := hatt 0 reportState
  obtain ⟨hgated, -⟩ := hdone { src := .pf, kind := 1, mctx := 0, nonce := [], addr := 0 } [] rfl rfl
  obtain ⟨t, ht, hsec, -⟩ := hgated 0 (.host 0) epDom (.inl ⟨rfl, rfl⟩) reportState_place reportState_writePlace
    (List.mem_singleton.mpr rfl) (by decide)
  obtain ⟨t', ht', hnone⟩ := reportState_hostOnly.signDone rfl rfl rfl
  obtain rfl := Host.Outcome.next.inj (ht'.symm.trans ht)
  rw [hsec] at hnone
  cases hnone

end Sys2Proof.Machine
end

section
/-! PROOFS. The flash and program controller: launches, refusals, results, and the end of an erase. -/

namespace Sys2Proof.Machine

set_option Elab.async false

open Sys2Proof

variable {s t u : State}

/-! ### Results -/

theorem State.sendMsix_fpc (s : State) (fn : Fin 16) (v : Nat) : (s.sendMsix fn v).fpc = s.fpc := by rw [State.sendMsix_eq]

/-- A posted result joins its queue, and the controller keeps everything else. -/
theorem State.postResult_fpc (s : State) (mgc : Bool) (r : FpcResult) : (s.postResult mgc r).fpc =
    if mgc then { s.fpc with resMgc := s.fpc.resMgc ++ [r] } else { s.fpc with resHost := s.fpc.resHost ++ [r] } := by
  unfold State.postResult
  split
  · rfl
  · extract_lets f s1
    split
    · exact State.sendMsix_fpc s1 0 _
    · rfl

/-- A result is posted at the end of the queue of its requester; operations, lock and counts are as before. -/
theorem State.postResult_posts (s : State) (mgc : Bool) (r : FpcResult) :
    (s.postResult mgc r).fpc.results mgc = s.fpc.results mgc ++ [r] ∧ (s.postResult mgc r).fpc.ops = s.fpc.ops ∧
      (s.postResult mgc r).fpc.lock = s.fpc.lock ∧ (s.postResult mgc r).fpc.nextId = s.fpc.nextId := by
  rw [State.postResult_fpc]
  cases mgc <;> exact ⟨rfl, rfl, rfl, rfl⟩

/-- An operation's change leaves no operation with another's sequence number. -/
theorem State.mem_setOp {p x : FpcOp} (h : x ∈ (s.setOp p).fpc.ops) : x = p ∨ x ∈ s.fpc.ops := by
  obtain ⟨y, hy, rfl⟩ := List.mem_map.mp h
  split
  · exact .inl rfl
  · exact .inr hy

/-- An operation that stands there is found changed. -/
theorem State.setOp_mem {o p : FpcOp} (h : o ∈ s.fpc.ops) (hseq : o.seq = p.seq) : p ∈ (s.setOp p).fpc.ops :=
  List.mem_map.mpr ⟨o, h, if_pos hseq⟩

theorem State.resumeL_gone {n : Nat} : ∀ (l : List FpcOp) (s : State), (∀ x ∈ l, x.seq ≠ n) → (∀ x ∈ s.fpc.ops, x.seq ≠ n) →
    ∀ x ∈ (s.resumeL l).fpc.ops, x.seq ≠ n
  | [], _, _, h => h
  | o :: l, s, hl, h => by
    refine State.resumeL_gone l _ (fun x hx => hl x (List.mem_cons_of_mem _ hx)) fun x hx => ?_
    have ho := hl o (List.mem_cons_self ..)
    split at hx
    · rcases State.mem_setOp hx with rfl | hx
      · exact ho
      · exact h x hx
    · exact h x hx

theorem State.resumeL_results (mgc : Bool) : ∀ (l : List FpcOp) (s : State), (s.resumeL l).fpc.results mgc = s.fpc.results mgc
  | [], _ => rfl
  | o :: l, s => by
    refine (State.resumeL_results mgc l _).trans ?_
    split <;> rfl

/-- An operation that ends leaves the controller, and its result stands at the end of its requester's queue. -/
theorem State.finishOp_ends (s : State) (o : FpcOp) (k : Nat) : (∀ x ∈ (s.finishOp o k).fpc.ops, x.seq ≠ o.seq) ∧
    (s.finishOp o k).fpc.results o.mgc =
      s.fpc.results o.mgc ++ [{ id := o.id, op := o.op, code := k, fail := o.fail, fails := o.fails }] := by
  unfold State.finishOp
  extract_lets f s1 s2
  have hops : ∀ x ∈ s2.fpc.ops, x.seq ≠ o.seq := fun x hx => by
    have h1 : x ∈ s1.fpc.ops := by
      change x ∈ (if _ then s1.releaseBuf o.buf else s1).fpc.ops at hx
      split at hx <;> exact hx
    exact of_decide_eq_true (List.mem_filter.mp h1).2
  have hres : s2.fpc.results o.mgc = s.fpc.results o.mgc := by
    change (if _ then s1.releaseBuf o.buf else s1).fpc.results o.mgc = _
    split <;> rfl
  obtain ⟨hposted, hkept, -⟩ := State.postResult_posts (s2.resumeL s2.fpc.ops) o.mgc
    { id := o.id, op := o.op, code := k, fail := o.fail, fails := o.fails }
  refine ⟨fun x hx => State.resumeL_gone _ s2 hops hops x (hkept ▸ hx), hposted.trans ?_⟩
  rw [State.resumeL_results, hres]

/-! ### Launches -/

/-- The operation that the write of FPC_DATA launches. -/
def State.launched (s : State) (g : Bool) (v : W64) : FpcOp :=
  { id := s.fpc.nextId, seq := s.fpc.launches, op := wBits s.fpc.cmd 0 8, mgc := g, addr := s.fpc.addr, data := v,
    permit := s.fpc.cmd.getLsbD 9, hold := s.fpc.cmd.getLsbD 8, param0 := s.reg Reg.fpcParam0, param1 := s.reg Reg.fpcParam1 }

/-- The lock after a launch: locked, the relocks forgotten, the next id taken. -/
def State.locked (s : State) : State :=
  s.setFpc { s.fpc with lock := 0, relocks := 0, nextId := (s.fpc.nextId + 1) % 256, launches := s.fpc.launches + 1 }

/-- A launch in its three outcomes: refused as the seventeenth, accepted, turned away. -/
theorem State.fpcLaunch_cases (s : State) (g : Bool) (v : W64) : s.fpcLaunch g v =
    if 16 ≤ s.fpc.outstanding g then s.locked.postResult g { id := (s.launched g v).id, op := (s.launched g v).op, code := 8 }
    else match s.fpcCheck s.fpc.cmd (s.launched g v) with
      | none => (s.locked.setFpc { s.locked.fpc with ops := s.locked.fpc.ops ++ [s.launched g v] }).launchMark (s.launched g v)
      | some k =>
        (if (s.launched g v).buffered ∧ !(s.launched g v).keep ∧ k ≠ 6 then s.locked.releaseBuf (s.launched g v).buf else s.locked).postResult g
          { id := (s.launched g v).id, op := (s.launched g v).op, code := k } := rfl

/-- In its place of the sequence, with the confirming data of an erase, the write of FPC_DATA launches. -/
theorem State.launchOf_launches {who : Requester} {g : Bool} {v : W64} {op : Nat} (hwho : sideOf who = some g) (hlock : s.fpc.lock = 4)
    (hown : s.fpc.owner = g) (hop : wBits s.fpc.cmd 0 8 = op) (hconf : op = 2 ∨ op = 5 → wBits v 0 16 = 0xD0) :
    s.launchOf op who v = s.fpcLaunch g v := by
  rw [State.launchOf, if_pos ⟨hlock, hop⟩, State.fpcData, State.seqWrite_own hwho (fun _ => hown), hop]
  exact if_neg fun h => h.elim (· hlock) fun h => h.2 (hconf h.1)

/-- An operation that is turned away, or is the requester's seventeenth, posts its result and changes no object, block or byte. -/
def State.turnsAway (s t : State) (g : Bool) (v : W64) (k : Nat) : Prop :=
  t.fpc.results g = s.fpc.results g ++ [{ id := (s.launched g v).id, op := (s.launched g v).op, code := k }] ∧ t.fpc.ops = s.fpc.ops ∧
    t.fpc.lock = 0 ∧ t.fpc.nextId = (s.fpc.nextId + 1) % 256 ∧ t.objs = s.objs ∧ t.blks = s.blks ∧ t.mem = s.mem ∧ t.ctxs = s.ctxs

theorem State.turnsAway_post {g : Bool} {v : W64} {k : Nat} (hf : s.frame [.fpc] u) (hres : u.fpc.results g = s.fpc.results g)
    (hops : u.fpc.ops = s.fpc.ops) (hlock : u.fpc.lock = 0) (hid : u.fpc.nextId = (s.fpc.nextId + 1) % 256) :
    s.turnsAway (u.postResult g { id := (s.launched g v).id, op := (s.launched g v).op, code := k }) g v k := by
  obtain ⟨hpost, hops', hlock', hid'⟩ := u.postResult_posts g { id := (s.launched g v).id, op := (s.launched g v).op, code := k }
  have hp : s.frame [.fpc, .link, .pwr, .pcie, .out] (u.postResult g { id := (s.launched g v).id, op := (s.launched g v).op, code := k }) :=
    (hf.mono (by simp)).postResult
  exact ⟨by rw [hpost, hres], hops'.trans hops, hlock'.trans hlock, hid'.trans hid, hp.objs_eq, hp.blks_eq, hp.mem_eq, hp.ctxs_eq⟩

theorem State.launch_full {g : Bool} {v : W64} (hfull : 16 ≤ s.fpc.outstanding g) : s.turnsAway (s.fpcLaunch g v) g v 8 := by
  rw [State.fpcLaunch_cases, if_pos hfull]
  exact State.turnsAway_post ((State.frame.refl [.fpc] s).setFpc) (by cases g <;> rfl) rfl rfl rfl

theorem State.launch_refused {g : Bool} {v : W64} {k : Nat} (hroom : s.fpc.outstanding g < 16)
    (hk : s.fpcCheck s.fpc.cmd (s.launched g v) = some k) : s.turnsAway (s.fpcLaunch g v) g v k := by
  rw [State.fpcLaunch_cases, if_neg (by omega), hk]
  simp only
  split
  · exact State.turnsAway_post ((State.frame.refl [.fpc] s).setFpc.releaseBuf) (by cases g <;> rfl) rfl rfl rfl
  · exact State.turnsAway_post ((State.frame.refl [.fpc] s).setFpc) (by cases g <;> rfl) rfl rfl rfl

theorem State.nextUnmapped_congr (h : t.pmap = s.pmap) {idx : Nat} (fuel q : Nat) : t.nextUnmapped idx fuel q = s.nextUnmapped idx fuel q := by
  induction fuel generalizing q with
  | zero => rfl
  | succ fuel ih =>
    have hp : t.physPage idx q = s.physPage idx q := by unfold State.physPage; rw [h]
    rw [State.nextUnmapped, State.nextUnmapped, hp, ih]

/-- An operation that is accepted joins those launched; PROG_PAGES moves its object's next page on. -/
theorem State.launch_accepted {g : Bool} {v : W64} (hroom : s.fpc.outstanding g < 16)
    (hk : s.fpcCheck s.fpc.cmd (s.launched g v) = none) :
    s.fpcLaunch g v = { s with fpc := (s.fpcLaunch g v).fpc, objs := (s.fpcLaunch g v).objs } ∧
      (s.fpcLaunch g v).fpc = { s.fpc with lock := 0, relocks := 0, nextId := (s.fpc.nextId + 1) % 256, launches := s.fpc.launches + 1,
                                           ops := s.fpc.ops ++ [s.launched g v] } ∧
      ((s.launched g v).op = 1 → ((s.fpcLaunch g v).obj (s.launched g v).object).nextPage =
        s.nextUnmapped (s.launched g v).object (List.length s.pmap) ((s.launched g v).firstPage + (s.launched g v).count)) ∧
      ∀ j, ((s.launched g v).op ≠ 1 ∨ j ≠ (s.launched g v).object) → (s.fpcLaunch g v).obj j = s.obj j := by
  have hl : s.fpcLaunch g v = (s.locked.setFpc { s.locked.fpc with ops := s.locked.fpc.ops ++ [s.launched g v] }).launchMark (s.launched g v) := by
    rw [State.fpcLaunch_cases, if_neg (by omega), hk]
  rw [hl]
  generalize s.launched g v = o
  unfold State.launchMark
  by_cases h1 : o.op = 1
  · rw [if_pos h1]
    refine ⟨rfl, rfl, fun _ => ?_, fun j hj => ?_⟩
    · rw [State.obj_setObj_self]
      dsimp only
      exact State.nextUnmapped_congr (s := s) (t := s.locked.setFpc { s.locked.fpc with ops := s.locked.fpc.ops ++ [o] }) rfl _ _
    · exact State.obj_setObj_other _ _ (hj.resolve_left (fun h => h h1))
  · rw [if_neg h1]
    exact ⟨rfl, rfl, fun h => absurd h h1, fun _ _ => rfl⟩

/-- The three outcomes of a launch, for each of the six operations. -/
theorem State.launches {who : Requester} {g : Bool} {v : W64} {op : Nat} {i : Instr} (hi : exec i s = .next (s.launchOf op who v))
    (hwho : sideOf who = some g) (hlock : s.fpc.lock = 4) (hown : s.fpc.owner = g) (hop : wBits s.fpc.cmd 0 8 = op)
    (hconf : op = 2 ∨ op = 5 → wBits v 0 16 = 0xD0) :
    (s.fpc.outstanding g < 16 → s.fpcCheck s.fpc.cmd (s.launched g v) = none →
      ∃ t, exec i s = .next t ∧ t = { s with fpc := t.fpc, objs := t.objs } ∧
        t.fpc = { s.fpc with lock := 0, relocks := 0, nextId := (s.fpc.nextId + 1) % 256, launches := s.fpc.launches + 1,
                             ops := s.fpc.ops ++ [s.launched g v] } ∧
        (op = 1 → (t.obj (s.launched g v).object).nextPage =
          s.nextUnmapped (s.launched g v).object (List.length s.pmap) ((s.launched g v).firstPage + (s.launched g v).count)) ∧
        ∀ j, (op ≠ 1 ∨ j ≠ (s.launched g v).object) → t.obj j = s.obj j) ∧
    (∀ k, s.fpc.outstanding g < 16 → s.fpcCheck s.fpc.cmd (s.launched g v) = some k → ∃ t, exec i s = .next t ∧ s.turnsAway t g v k) ∧
    (16 ≤ s.fpc.outstanding g → ∃ t, exec i s = .next t ∧ s.turnsAway t g v 8) := by
  have hgo : exec i s = .next (s.fpcLaunch g v) := hi.trans (congrArg Host.Outcome.next (State.launchOf_launches hwho hlock hown hop hconf))
  have hop' : (s.launched g v).op = op := hop
  refine ⟨fun hroom hk => ?_, fun k hroom hk => ⟨_, hgo, State.launch_refused hroom hk⟩, fun hfull => ⟨_, hgo, State.launch_full hfull⟩⟩
  have hacc := State.launch_accepted hroom hk
  rw [hop'] at hacc
  exact ⟨_, hgo, hacc⟩

/-- Erasing a block of the user area that has live pages is turned away with code 5. -/
theorem State.eraseLive_code {o : FpcOp} {cmd : W64} (hop : o.op = 2) (hres : fpcReserved cmd o = false) (huser : userBlock o.block = true)
    (hlive : (s.blk o.block).live ≠ 0) : s.fpcCheck cmd o = some 5 := by
  have hslot : fwSlot o.block = none := by
    have h64 : blockIn o.block < 64 := of_decide_eq_true huser
    exact if_neg (by omega)
  have hopen : s.fwOpen o.block = true := by rw [State.fwOpen, hslot]
  unfold State.fpcCheck
  rw [if_neg (by simp [hres]), hop]
  simp only
  rw [if_neg (by simp [huser]), if_neg (by simp [hopen]), if_pos hlive]

/-- Settles O47: the three outcomes of a launch, and the check of an erase. -/
theorem fpcLaunches : Obligations.FpcLaunches := by
  unfold Obligations.FpcLaunches
  intro who g v s hwho hlock hown
  refine ⟨fun h hc => State.launches rfl hwho hlock hown h hc, fun h hc => State.launches rfl hwho hlock hown h hc,
    fun h hc => State.launches rfl hwho hlock hown h hc, fun h hc => State.launches rfl hwho hlock hown h hc,
    fun h hc => State.launches rfl hwho hlock hown h hc, fun h hc => State.launches rfl hwho hlock hown h hc,
    fun hop hconf hroom hres huser hlive => ?_⟩
  obtain ⟨-, hturned, -⟩ := State.launches (i := .eraseBlock who v) rfl hwho hlock hown hop (fun _ => hconf)
  exact hturned 5 hroom (State.eraseLive_code (o := s.launched g v) hop hres huser hlive)

end Sys2Proof.Machine
end

section
/-! PROOFS. Erases of the flash and of the charge arrays: their pulses, suspension, results and calibration reads. -/

namespace Sys2Proof.Machine

set_option Elab.async false

open Sys2Proof

variable {s t u : State}

/-! ### A verified erase -/

/-- What a verified erase leaves of a block, and that it takes no other block and no byte of one. -/
theorem State.blockErased_erases (s : State) (b : Nat) :
    ((s.blockErased b).blk b).state = (if (s.blk b).retire then .bad else .erased) ∧ ((s.blockErased b).blk b).ptr = 0 ∧
      ((s.blockErased b).blk b).pe = min 65535 ((s.blk b).pe + 1) ∧ (∀ c, c ≠ b → (s.blockErased b).blk c = s.blk c) ∧
      (∀ k, (k < kFlash (b * 2048) 0 ∨ kFlash (b * 2048 + 2048) 0 ≤ k) → SMap.get 0 (s.blockErased b).mem k = SMap.get 0 s.mem k) ∧
      (s.blockErased b).fpc = s.fpc := by
  unfold State.blockErased
  extract_lets x s1 n st s2
  have key : ∀ t : State, t.blks = s2.blks → t.mem = s2.mem → t.fpc = s2.fpc →
      (t.blk b).state = st ∧ (t.blk b).ptr = 0 ∧ (t.blk b).pe = n ∧ (∀ c, c ≠ b → t.blk c = s.blk c) ∧
      (∀ k, (k < kFlash (b * 2048) 0 ∨ kFlash (b * 2048 + 2048) 0 ≤ k) → SMap.get 0 t.mem k = SMap.get 0 s.mem k) ∧ t.fpc = s.fpc := by
    intro t hblk hmem hfpc
    have hb : ∀ c, t.blk c = s2.blk c := fun c => by rw [State.blk, hblk]; rfl
    have hself : s2.blk b = { state := st, retire := x.retire, peOver := x.peOver || decide (1000 < n), pe := n, fails := x.fails, was := x.record.was } :=
      State.blk_setBlk_self s1 _ _
    refine ⟨by rw [hb, hself], by rw [hb, hself], by rw [hb, hself], fun c hc => (hb c).trans (State.blk_setBlk_other s1 _ hc), fun k hk => ?_, hfpc⟩
    rw [hmem]
    have hm : s2.mem = SMap.keepKeys (fun k => !(decide (kFlash (b * 2048) 0 ≤ k) && decide (k < kFlash (b * 2048 + 2048) 0))) s.mem := rfl
    rw [hm, SMap.get_keepKeys, if_pos]
    simp
    omega
  split
  · have hf := (State.frame.refl [.link, .pwr, .pcie, .log, .logNext, .out] s2).logEvent (src := 2) (code := 3) (c := none)
      (loc := b * 2048) (detail := 0)
    exact key _ hf.blks_eq hf.mem_eq hf.fpc_eq
  · exact key s2 rfl rfl rfl

/-- What a verified erase leaves of a sector; it takes no byte. -/
theorem State.eraseSector_erases (s : State) (tile m : Nat) :
    ((s.eraseSector tile m).sector tile m).state = .erased ∧ ((s.eraseSector tile m).sector tile m).rows = 0 ∧
      ((s.eraseSector tile m).sector tile m).pe = min 65535 ((s.sector tile m).pe + 1) ∧ (s.eraseSector tile m).mem = s.mem := by
  unfold State.eraseSector
  extract_lets x lo hi s1 s2
  have hself : s2.sector tile m = { state := .erased, pe := min 65535 (x.pe + 1), was := x.record.was } := State.sector_setSector_self s1 _ _ _
  split
  · have hf := (State.frame.refl [.link, .pwr, .pcie, .log, .logNext, .out] s2).logEvent (src := 2) (code := 3) (c := none)
      (loc := 16 * tile + m) (detail := 0)
    have hs : ∀ u : State, u.sectors = s2.sectors → u.sector tile m = s2.sector tile m := fun u h => by rw [State.sector, h]; rfl
    rw [hs _ hf.sectors_eq, hself]
    exact ⟨rfl, rfl, rfl, hf.mem_eq⟩
  · rw [hself]
    exact ⟨rfl, rfl, rfl, rfl⟩

/-! ### Operations found by their id -/

theorem State.fpcOp_mem {id : Nat} {p : FpcOp → Bool} {o : FpcOp} (h : s.fpcOp id p = some o) : o ∈ s.fpc.ops := List.mem_of_find?_eq_some h

theorem State.execErasePulse {id : BitVec 8} {o : FpcOp} (good : Bool)
    (h : s.fpcOp id.toNat (fun o => decide (o.phase = .running) && o.erases) = some o) :
    exec (.erasePulseEnd id good) s = .next (if o.op = 2 then s.erasePulse o good else s.sectorPulse o good) := by
  show Host.Outcome.next _ = _
  rw [h]

/-- A suspended operation stands in its new phase, with the pulses it had. -/
theorem State.suspend_waits {o : FpcOp} (hmem : o ∈ s.fpc.ops) (ph : OpPhase) :
    (∃ p ∈ (s.suspend o ph).fpc.ops, p.seq = o.seq ∧ p.phase = ph ∧ p.pulses = o.pulses) ∧ (s.suspend o ph).blks = s.blks ∧
      (s.suspend o ph).mem = s.mem := by
  unfold State.suspend
  extract_lets n starve s1
  have hin : ∃ p ∈ s1.fpc.ops, p.seq = o.seq ∧ p.phase = ph ∧ p.pulses = o.pulses := ⟨_, State.setOp_mem hmem rfl, rfl, rfl, rfl⟩
  have hf1 : s.frame [.fpc] s1 := (State.frame.refl [.fpc] s).setOp
  split
  · have hf : s1.frame [.regs, .link, .pwr, .pcie, .log, .logNext, .out] ((s1.addFld Reg.fpcStatus_starved 1).logEvent 2 2 none o.starveLoc o.id) :=
      (State.frame.refl _ s1).addFld.logEvent
    exact ⟨by rw [hf.fpc_eq]; exact hin, hf.blks_eq.trans hf1.blks_eq, hf.mem_eq.trans hf1.mem_eq⟩
  · exact ⟨hin, hf1.blks_eq, hf1.mem_eq⟩

section Erase
variable {id : BitVec 8} {o : FpcOp} (h : s.eraseOp id.toNat = some o)
include h

theorem State.execEraseSuspend (hop : o.op = 2) (hph : o.phase = .running) (hhold : o.hold = false) (hen : s.flag Reg.fpcCfg_rdSuspend = true) :
    exec (.eraseSuspend id) s = .next (s.suspend o .suspendedRead) := by
  show Host.Outcome.next _ = _
  rw [h]
  exact congrArg Host.Outcome.next (if_pos ⟨hop, hph, by simp [hhold], hen⟩)

theorem State.execEraseSuspend_held (hhold : o.hold = true) : exec (.eraseSuspend id) s = .next s := by
  show Host.Outcome.next _ = _
  rw [h]
  exact congrArg Host.Outcome.next (if_neg fun hc => by simp [hhold] at hc)

theorem State.ctlSuspend_running (hph : o.phase = .running) (hhold : o.hold = false) :
    s.ctlSuspend id.toNat = s.suspend o .suspendedHost := by
  rw [State.ctlSuspend, h]
  show (if o.hold then s else _) = _
  rw [hhold, hph]
  rfl

theorem State.ctlSuspend_held (hhold : o.hold = true) : s.ctlSuspend id.toNat = s := by
  rw [State.ctlSuspend, h]
  exact if_pos hhold

theorem State.ctlResume_suspended (hph : o.phase = .suspendedHost) : s.ctlResume id.toNat = s.resumeOp o := by
  rw [State.ctlResume, h]
  exact if_pos hph

theorem State.ctlHold_read (hph : o.phase = .suspendedRead) : s.ctlHold id.toNat = s.resumeOp { o with hold := true } := by
  rw [State.ctlHold, h]
  exact if_pos hph

theorem State.ctlHold_other (hph : o.phase ≠ .suspendedRead) : s.ctlHold id.toNat = s.setOp { o with hold := true } := by
  rw [State.ctlHold, h]
  exact if_neg hph

theorem State.execEraseResumeGap (hph : o.phase = .suspendedRead) (hstarts : s.fpcStarts = true) :
    exec (.eraseResumeGap id) s = .next (if s.planeWork o then s else s.setOp { o with phase := .running }) := by
  show Host.Outcome.next _ = _
  rw [h]
  refine congrArg Host.Outcome.next ?_
  cases hw : s.planeWork o with
  | true => exact if_neg fun hc => by simp [hw] at hc
  | false => exact if_pos ⟨hph, hstarts, by simp [hw]⟩

end Erase

/-! ### The obligation -/

/-- A verified erase of a block: the operation ends, the block is empty, and no other block and no byte of one changes. -/
theorem State.erasePulse_good (s : State) (o : FpcOp) : (∀ x ∈ (s.erasePulse o true).fpc.ops, x.seq ≠ o.seq) ∧
    (s.erasePulse o true).fpc.results o.mgc =
      s.fpc.results o.mgc ++ [{ id := o.id, op := o.op, code := 0, fail := o.fail, fails := o.fails }] ∧
    ((s.erasePulse o true).blk o.block).state = (if (s.blk o.block).retire then .bad else .erased) ∧
    ((s.erasePulse o true).blk o.block).ptr = 0 ∧ ((s.erasePulse o true).blk o.block).pe = min 65535 ((s.blk o.block).pe + 1) ∧
    (∀ b, b ≠ o.block → (s.erasePulse o true).blk b = s.blk b) ∧
    ∀ k, (k < kFlash (o.block * 2048) 0 ∨ kFlash (o.block * 2048 + 2048) 0 ≤ k) →
      SMap.get 0 (s.erasePulse o true).mem k = SMap.get 0 s.mem k := by
  have he : s.erasePulse o true = (s.blockErased o.block).finishOp o 0 := rfl
  obtain ⟨hst, hptr, hpe, hother, hmem, hfpc⟩ := s.blockErased_erases o.block
  rw [he]
  generalize s.blockErased o.block = u at *
  obtain ⟨hgone, hres⟩ := u.finishOp_ends o 0
  have hf : u.frame [.fpc, .link, .pwr, .pcie, .out] (u.finishOp o 0) := (State.frame.refl _ u).finishOp
  have hblk : ∀ b, (u.finishOp o 0).blk b = u.blk b := fun b => by rw [State.blk, hf.blks_eq]; rfl
  exact ⟨hgone, by rw [hres, hfpc], by rw [hblk, hst], by rw [hblk, hptr], by rw [hblk, hpe], fun b hb => (hblk b).trans (hother b hb),
    fun k hk => by rw [hf.mem_eq, hmem k hk]⟩

/-- The eighth pulse that does not verify: the operation ends with FAIL and the block is bad. -/
theorem State.erasePulse_fails {o : FpcOp} (h8 : 8 ≤ o.pulses + 1) : ((s.erasePulse o false).blk o.block).state = .bad ∧
    (s.erasePulse o false).mem = s.mem ∧ (s.erasePulse o false).fpc.results o.mgc =
      s.fpc.results o.mgc ++ [{ id := o.id, op := o.op, code := 1, fail := true, fails := o.fails }] := by
  have he : s.erasePulse o false =
      (s.updBlk o.block (fun b => { b.record with state := .bad, eraseIntent := false })).finishOp { o with fail := true } 1 := by
    rw [State.erasePulse, if_neg Bool.false_ne_true, if_neg (by omega)]
  rw [he]
  have hbad : ((s.updBlk o.block (fun b => { b.record with state := .bad, eraseIntent := false })).blk o.block).state = .bad := by
    rw [State.updBlk, State.blk_setBlk_self]
  have hu : s.frame [.blks] (s.updBlk o.block (fun b => { b.record with state := .bad, eraseIntent := false })) :=
    (State.frame.refl [.blks] s).updBlk
  generalize s.updBlk o.block (fun b => { b.record with state := .bad, eraseIntent := false }) = u at *
  obtain ⟨-, hres⟩ := u.finishOp_ends { o with fail := true } 1
  have hf : u.frame [.fpc, .link, .pwr, .pcie, .out] (u.finishOp { o with fail := true } 1) := (State.frame.refl _ u).finishOp
  refine ⟨?_, hf.mem_eq.trans hu.mem_eq, by rw [← hu.fpc_eq]; exact hres⟩
  rw [State.blk, hf.blks_eq]
  exact hbad

/-- A verified erase of an operation's last sector. -/
theorem State.sectorPulse_last {o : FpcOp} (htodo : o.todo = []) : (∀ x ∈ (s.sectorPulse o true).fpc.ops, x.seq ≠ o.seq) ∧
    ((s.sectorPulse o true).sector o.tile o.unit).state = .erased ∧ ((s.sectorPulse o true).sector o.tile o.unit).rows = 0 ∧
    ((s.sectorPulse o true).sector o.tile o.unit).pe = min 65535 ((s.sector o.tile o.unit).pe + 1) ∧
    (s.sectorPulse o true).mem = s.mem := by
  have he : s.sectorPulse o true = (s.eraseSector o.tile o.unit).finishOp o 0 := by
    rw [State.sectorPulse, if_pos rfl, htodo]
  obtain ⟨hst, hrows, hpe, hmem⟩ := s.eraseSector_erases o.tile o.unit
  rw [he]
  generalize s.eraseSector o.tile o.unit = u at *
  obtain ⟨hgone, -⟩ := u.finishOp_ends o 0
  have hf : u.frame [.fpc, .link, .pwr, .pcie, .out] (u.finishOp o 0) := (State.frame.refl _ u).finishOp
  have hsec : (u.finishOp o 0).sector o.tile o.unit = u.sector o.tile o.unit := by rw [State.sector, hf.sectors_eq]; rfl
  exact ⟨hgone, by rw [hsec, hst], by rw [hsec, hrows], by rw [hsec, hpe], hf.mem_eq.trans hmem⟩

/-- The read of the calibration word advances its index. -/
theorem State.calRead_reads (s : State) : s.calRead = { s with regs := s.calRead.regs, out := s.calRead.out } ∧
    s.calRead.out = s.out ++ [.readVal Reg.fpcCalData (s.calWord (s.fld Reg.fpcCalSel_die) (s.fld Reg.fpcCalSel_word))] ∧
    s.calRead.fld Reg.fpcCalSel_word = (s.fld Reg.fpcCalSel_word + 1) % 2 ^ Reg.fpcCalSel_word.width := by
  refine ⟨rfl, ?_, s.fld_setFld_self Reg.fpcCalSel_word _ (by decide)⟩
  show s.out ++ [_] = _
  rfl

theorem State.markPair_marks (s : State) (v : W64) : s.markPair v = { s with tiles := (s.markPair v).tiles } ∧
    wBits v 10 10 ∈ ((s.markPair v).tile (wBits v 0 10)).marks ∧ ∀ j, j ≠ wBits v 0 10 → (s.markPair v).tile j = s.tile j := by
  unfold State.markPair
  extract_lets t d
  by_cases h : (s.tile t).marks.contains d
  · rw [if_pos h]
    exact ⟨rfl, by simpa using h, fun _ _ => rfl⟩
  · rw [if_neg h]
    refine ⟨rfl, ?_, fun j hj => State.tile_setTile_other s _ hj⟩
    rw [State.tile_setTile_self]
    exact List.mem_append_right _ (List.mem_singleton.mpr rfl)

/-- Settles O49: each command of an erase by the operation's phase, and the end of its pulses. -/
theorem fpcErases : Obligations.FpcErases := by
  unfold Obligations.FpcErases
  refine ⟨fun id o s => ⟨fun hop h2 => ⟨?_, fun h8 => ?_, fun h8 => ?_⟩, fun hop h5 htodo => ?_, fun hop => ⟨fun hph => ?_, fun hph => ?_, fun hph => ?_,
    fun hph hstarts => State.execEraseResumeGap hop hph hstarts⟩⟩, fun s => ⟨rfl, rfl, fun hup hd3 => ⟨fun hready hrec hbehind => ?_,
    fun hready hrec hbehind => ?_, fun hnot => ?_⟩, fun hoff => ?_, fun v => ⟨_, rfl, s.markPair_marks v⟩⟩⟩
  · have hend := State.execErasePulse true hop
    rw [if_pos h2] at hend
    have hgood := s.erasePulse_good o
    rw [h2] at hgood
    exact ⟨_, hend, hgood⟩
  · have hend := State.execErasePulse false hop
    rw [if_pos h2, State.erasePulse, if_neg Bool.false_ne_true, if_pos h8] at hend
    exact hend
  · have hend := State.execErasePulse false hop
    rw [if_pos h2] at hend
    obtain ⟨hbad, hmem, hres⟩ := State.erasePulse_fails (s := s) h8
    exact ⟨_, hend, hbad, hmem, by rw [hres, h2]⟩
  · have hend := State.execErasePulse true hop
    rw [if_neg (by omega)] at hend
    exact ⟨_, hend, State.sectorPulse_last htodo⟩
  · have hmem := State.fpcOp_mem hop
    exact ⟨fun h2 hhold hen => ⟨_, State.execEraseSuspend hop h2 hph hhold hen, State.suspend_waits hmem _⟩,
      fun hhold => ⟨_, congrArg Host.Outcome.next (State.ctlSuspend_running hop hph hhold), State.suspend_waits hmem _⟩,
      fun hhold => ⟨State.execEraseSuspend_held hop hhold, congrArg Host.Outcome.next (State.ctlSuspend_held hop hhold)⟩,
      congrArg Host.Outcome.next (State.ctlHold_other hop (by simp [hph]))⟩
  · exact ⟨congrArg Host.Outcome.next (State.ctlResume_suspended hop hph), congrArg Host.Outcome.next (State.ctlHold_other hop (by simp [hph]))⟩
  · exact congrArg Host.Outcome.next (State.ctlHold_read hop hph)
  · refine ⟨s.calRead, ?_, s.calRead_reads⟩
    refine congrArg Host.Outcome.next ((s.actingRead_ready hup hd3 hready (.inl hrec)).trans ?_)
    rw [hbehind]
    rfl
  · refine congrArg Host.Outcome.next ((s.actingRead_ready hup hd3 hready (.inl hrec)).trans ?_)
    rw [hbehind]
    rfl
  · exact congrArg Host.Outcome.next (s.actingRead_zero hup hd3 (hnot.imp_right fun h => ⟨h, rfl⟩))
  · exact congrArg Host.Outcome.next (s.actingRead_untaken hoff)

end Sys2Proof.Machine
end

section
/-! PROOFS. Programs of the flash and program controller: starts, pages, moves and rows. -/

namespace Sys2Proof.Machine

set_option Elab.async false

open Sys2Proof

variable {s t u : State}

/-! ### Operations that remain when others end -/

/-- An operation that remains is one that stood before: its own, at most taken on from `resuming`. -/
def FpcOp.goesOn (y x : FpcOp) : Prop := y.seq = x.seq ∧ y.op = x.op ∧ y.addr = x.addr ∧ (x.phase = .queued → y.phase = .queued)

theorem FpcOp.goesOn.refl (x : FpcOp) : x.goesOn x := ⟨rfl, rfl, rfl, fun h => h⟩

theorem FpcOp.goesOn.trans {x y z : FpcOp} (h : x.goesOn y) (k : y.goesOn z) : x.goesOn z := by
  obtain ⟨h1, h2, h3, h4⟩ := h
  obtain ⟨k1, k2, k3, k4⟩ := k
  exact ⟨h1.trans k1, h2.trans k2, h3.trans k3, h4 ∘ k4⟩

theorem State.resumeL_goesOn {base : List FpcOp} : ∀ (l : List FpcOp) (s : State), (∀ x ∈ l, x ∈ base) →
    (∀ x ∈ s.fpc.ops, ∃ y ∈ base, y.goesOn x) → ∀ x ∈ (s.resumeL l).fpc.ops, ∃ y ∈ base, y.goesOn x
  | [], _, _, h => h
  | o :: l, s, hl, h => by
    refine State.resumeL_goesOn l _ (fun x hx => hl x (List.mem_cons_of_mem _ hx)) fun x hx => ?_
    split at hx
    · rcases State.mem_setOp hx with rfl | hx
      · refine ⟨o, hl o (List.mem_cons_self ..), rfl, rfl, rfl, fun hq => ?_⟩
        dsimp only at hq
        split at hq <;> cases hq
      · exact h x hx
    · exact h x hx

/-- When an operation ends, the others remain. -/
theorem State.finishOp_goesOn {o : FpcOp} {k : Nat} {x : FpcOp} (hx : x ∈ (s.finishOp o k).fpc.ops) :
    x.seq ≠ o.seq ∧ ∃ y ∈ s.fpc.ops, y.goesOn x := by
  obtain ⟨hgone, -⟩ := s.finishOp_ends o k
  refine ⟨hgone x hx, ?_⟩
  unfold State.finishOp at hx
  extract_lets f s1 s2 at hx
  have hops : ∀ y ∈ s2.fpc.ops, y ∈ s.fpc.ops := fun y hy => by
    have h1 : y ∈ s1.fpc.ops := by
      change y ∈ (if _ then s1.releaseBuf o.buf else s1).fpc.ops at hy
      split at hy <;> exact hy
    exact List.mem_of_mem_filter h1
  obtain ⟨-, hkept, -⟩ := State.postResult_posts (s2.resumeL s2.fpc.ops) o.mgc
    { id := o.id, op := o.op, code := k, fail := o.fail, fails := o.fails }
  rw [hkept] at hx
  obtain ⟨y, hy, hyx⟩ := State.resumeL_goesOn s2.fpc.ops s2 (fun y hy => hy) (fun y hy => ⟨y, hy, .refl y⟩) x hx
  exact ⟨y, hops y hy, hyx⟩

/-- A result that is posted stays posted when an operation ends. -/
theorem State.finishOp_results {o : FpcOp} {k : Nat} {g : Bool} {r : FpcResult} (hr : r ∈ s.fpc.results g) :
    r ∈ (s.finishOp o k).fpc.results g := by
  unfold State.finishOp
  extract_lets f s1 s2
  have hres : s2.fpc.results g = s.fpc.results g := by
    change (if _ then s1.releaseBuf o.buf else s1).fpc.results g = _
    split <;> rfl
  rw [State.postResult_fpc]
  have hin : r ∈ (s2.resumeL s2.fpc.ops).fpc.results g := by rw [State.resumeL_results, hres]; exact hr
  generalize (s2.resumeL s2.fpc.ops).fpc = x at hin
  cases o.mgc <;> cases g
  · exact List.mem_append_left _ hin
  · exact hin
  · exact hin
  · exact List.mem_append_left _ hin

/-- Operations end one after another: none of them remains, and what remains stood before. -/
theorem State.finishOps {k : Nat} : ∀ (l : List FpcOp) (s : State),
    (∀ x ∈ (l.foldl (fun (s : State) x => s.finishOp x k) s).fpc.ops, (∀ z ∈ l, x.seq ≠ z.seq) ∧ ∃ y ∈ s.fpc.ops, y.goesOn x) ∧
    (∀ g, ∀ r ∈ s.fpc.results g, r ∈ (l.foldl (fun (s : State) x => s.finishOp x k) s).fpc.results g)
  | [], _ => ⟨fun x hx => ⟨by simp, x, hx, .refl x⟩, fun _ _ h => h⟩
  | z :: l, s => by
    obtain ⟨hops, hres⟩ := State.finishOps (k := k) l (s.finishOp z k)
    refine ⟨fun x hx => ?_, fun g r hr => hres g r (State.finishOp_results hr)⟩
    obtain ⟨hnot, y, hy, hyx⟩ := hops x hx
    obtain ⟨hz, w, hw, hwy⟩ := State.finishOp_goesOn hy
    obtain ⟨hseq, -⟩ := id hyx
    refine ⟨fun a ha => ?_, w, hw, hwy.trans hyx⟩
    rcases List.mem_cons.mp ha with rfl | ha
    · exact fun h => hz (hseq.trans h)
    · exact hnot a ha

/-- R281: a PROG_PAGES that ends before its pages are programmed leaves its page the object's next one, and no program of a later page of
the object waits. -/
theorem State.progStuck_ends (s : State) (o : FpcOp) (q k : Nat) :
    (∀ x ∈ (s.progStuck o q k).fpc.ops, x.seq ≠ o.seq) ∧
    { id := o.id, op := o.op, code := k, fail := o.fail, fails := o.fails } ∈ (s.progStuck o q k).fpc.results o.mgc ∧
    ((s.progStuck o q k).obj o.object).nextPage = o.firstPage + q ∧
    ∀ x ∈ (s.progStuck o q k).fpc.ops, x.op = 1 → x.object = o.object → x.phase ≠ .queued := by
  unfold State.progStuck
  extract_lets f s1 later
  obtain ⟨hops, hres⟩ := State.finishOps (k := 3) later (s1.finishOp o k)
  obtain ⟨-, hposted⟩ := s1.finishOp_ends o k
  have hobj : (later.foldl (fun (s : State) x => s.finishOp x 3) (s1.finishOp o k)).objs = s1.objs :=
    (((State.frame.refl [.fpc, .link, .pwr, .pcie, .out] s1).finishOp).foldl (fun h => h.finishOp)).objs_eq
  refine ⟨fun x hx => ?_, hres _ _ (by rw [hposted]; exact List.mem_append_right _ (List.mem_singleton.mpr rfl)), ?_, fun x hx hop hob hq => ?_⟩
  · obtain ⟨-, y, hy, hseq, -⟩ := hops x hx
    obtain ⟨hne, -⟩ := State.finishOp_goesOn hy
    exact hseq ▸ hne
  · have h1 : s1.obj o.object = { s.obj o.object with nextPage := o.firstPage + q } := State.obj_setObj_self s _ _
    rw [State.obj, hobj]
    exact congrArg Obj.nextPage h1
  · obtain ⟨hnot, y, hy, hyx⟩ := hops x hx
    obtain ⟨hne, z, hz, hzy⟩ := State.finishOp_goesOn hy
    obtain ⟨hseq, hzop, hzaddr, hzq⟩ := hzy.trans hyx
    obtain ⟨hyseq, -⟩ := hyx
    refine hnot z (List.mem_filter.mpr ⟨hz, ?_⟩) hseq.symm
    have hzob : z.object = o.object := by rw [FpcOp.object, hzaddr]; exact hob
    have hzne : z.seq ≠ o.seq := fun h => hne (hyseq.trans (hseq.symm.trans h))
    simp [hzop.trans hop, hzob, hzq hq, hzne]

/-! ### Starts -/

/-- The operation has ended or runs. -/
def State.begun (t : State) (o : FpcOp) : Prop := (∀ x ∈ t.fpc.ops, x.seq ≠ o.seq) ∨ ∃ p ∈ t.fpc.ops, p.seq = o.seq ∧ p.phase = .running

theorem State.begun.finishOp (s : State) {o p : FpcOp} (hseq : p.seq = o.seq) (k : Nat) : (s.finishOp p k).begun o :=
  .inl (hseq ▸ (s.finishOp_ends p k).1)

theorem State.begun.setOp {o p : FpcOp} (hmem : o ∈ s.fpc.ops) (hseq : p.seq = o.seq) (hph : p.phase = .running) : (s.setOp p).begun o :=
  .inr ⟨p, State.setOp_mem hmem hseq.symm, hseq, hph⟩

theorem State.begun.progNext {o p : FpcOp} (hmem : o ∈ s.fpc.ops) (hseq : p.seq = o.seq) : (s.progNext p).begun o := by
  unfold State.progNext
  split
  · exact .setOp hmem hseq rfl
  · obtain ⟨hgone, -⟩ := s.progStuck_ends p ‹_› 9
    exact .inl (hseq ▸ hgone)
  · exact .finishOp s hseq 0

theorem State.progPages_seq : ∀ (l : List Nat) (s : State) (o : FpcOp), (s.progPages o l).2.seq = o.seq
  | [], _, _ => rfl
  | q :: l, s, o => by
    unfold State.progPages
    extract_lets r
    split
    · rfl
    · exact State.progPages_seq l _ _

theorem State.begun.moveNext {o p : FpcOp} (hmem : o ∈ s.fpc.ops) (hseq : p.seq = o.seq) : (s.moveNext p).begun o := by
  unfold State.moveNext
  split
  · exact .finishOp s hseq 0
  · rename_i l _
    extract_lets p' last r
    have hfpc : r.1.fpc = s.fpc := ((State.frame.refl [.blks] s).fillPage).fpc_eq
    split
    · exact .finishOp _ hseq 9
    · exact .setOp (hfpc ▸ hmem) hseq rfl

/-- The plan of a tile, with the reads of its image counted. -/
theorem State.frame_planned (s : State) (o : FpcOp) (off n : Nat) (new : List StuckCell) :
    s.frame [.regs, .tiles, .link, .pwr, .pcie, .log, .logNext, .out] ((s.noteStage o off n).planTile o new).1 :=
  (State.frame.refl _ s).noteStage.planTile

theorem State.begun.rowNext {o p : FpcOp} (hmem : o ∈ s.fpc.ops) (hseq : p.seq = o.seq) : (s.rowNext p).begun o := by
  unfold State.rowNext
  exact .setOp (p := { p with phase := .running, pulses := 0 }) hmem hseq rfl

theorem State.begun.tileStart {o p : FpcOp} (hmem : o ∈ s.fpc.ops) (hseq : p.seq = o.seq) (new : List StuckCell) :
    (s.tileStart p new).begun o := by
  unfold State.tileStart
  extract_lets off r
  have hf : s.frame [.regs, .tiles, .link, .pwr, .pcie, .log, .logNext, .out] r.1 := s.frame_planned p off 131072 new
  clear_value r
  split
  · exact .rowNext (by rwa [hf.fpc_eq]) hseq
  · exact .finishOp _ hseq 1

theorem State.begun.tileBegin {o : FpcOp} (hmem : o ∈ s.fpc.ops) (ones : List (Nat × Nat)) : (s.tileBegin o ones).begun o := by
  unfold State.tileBegin
  extract_lets t
  exact State.begun.tileStart (s := s.setTile o.tile _) hmem rfl _

theorem State.begun.fwPageBegin {o : FpcOp} (hmem : o ∈ s.fpc.ops) : (s.fwPageBegin o).begun o := by
  unfold State.fwPageBegin
  split
  · exact .finishOp s rfl 2
  · split
    · exact .finishOp s rfl 3
    · refine .setOp ?_ rfl rfl
      rwa [((State.frame.refl [.blks] s).takePage).fpc_eq]

theorem State.begun.opGo {o : FpcOp} (hmem : o ∈ s.fpc.ops) (ones : List (Nat × Nat)) : (s.opGo o ones).begun o := by
  unfold State.opGo
  split
  · refine .progNext (s := (s.progPages o (List.range o.count)).1) ?_ (State.progPages_seq _ s o)
    rwa [((State.frame.refl [.pmap, .blks] s).progPages).fpc_eq]
  · exact .setOp hmem rfl rfl
  · exact .moveNext hmem rfl
  · exact .tileBegin hmem ones
  · split
    · exact .finishOp s rfl 0
    · exact .setOp hmem rfl rfl
  · exact .fwPageBegin hmem

/-- `State.tileStart` for an image of `n` bytes. -/
def State.tileStartAt (s : State) (o : FpcOp) (new : List StuckCell) (n : Nat) : State :=
  let off := n * wBits o.data 3 3
  let r := (s.noteStage o off n).planTile o new
  if r.2 && !(s.anyBad (kStage o.buf off) n) then r.1.rowNext { o with unit := 0 } else r.1.tileEnd { o with phase := .running } 1

theorem State.tileStart_eq (s : State) (o : FpcOp) (new : List StuckCell) : s.tileStart o new = s.tileStartAt o new 131072 := rfl

/-- An image with a poisoned word ends the programming. -/
theorem State.tileStartAt_poisoned {o : FpcOp} {n : Nat} (hbad : s.anyBad (kStage o.buf (n * wBits o.data 3 3)) n = true)
    (new : List StuckCell) : ∃ u : State, s.tileStartAt o new n = u.finishOp { o with phase := .running } 1 ∧ u.fpc = s.fpc := by
  unfold State.tileStartAt
  extract_lets off r
  have hf : s.frame [.regs, .tiles, .link, .pwr, .pcie, .log, .logNext, .out] r.1 := s.frame_planned o off n new
  clear_value r
  refine ⟨r.1.setTile o.tile { r.1.tile o.tile with shown := none }, ?_, hf.fpc_eq⟩
  exact if_neg fun h => by simp [off, hbad] at h

/-- A CAF_TILE whose image has a poisoned word ends with FAIL and programs no cell. -/
theorem State.tileBegin_poisoned {o : FpcOp} (hbad : s.anyBad (kStage o.buf (131072 * wBits o.data 3 3)) 131072 = true)
    (ones : List (Nat × Nat)) : (∀ x ∈ (s.tileBegin o ones).fpc.ops, x.seq ≠ o.seq) ∧ (s.tileBegin o ones).cells = s.cells ∧
      (s.tileBegin o ones).fpc.results o.mgc =
        s.fpc.results o.mgc ++ [{ id := o.id, op := o.op, code := 1, fail := o.fail, fails := o.fails }] := by
  have hcells : (s.tileBegin o ones).cells = s.cells := ((State.frame.refl [.regs, .fpc, .sectors, .tiles, .link, .pwr, .pcie, .log, .logNext, .out]
    s).tileBegin).cells_eq
  obtain ⟨u, hu, hfpc⟩ := State.tileStartAt_poisoned
    (s := s.setTile o.tile { s.tile o.tile with shown := some ⟨(s.tile o.tile).fieldStuck, (s.tile o.tile).remap, (s.tile o.tile).marks⟩ })
    (o := o) (n := 131072) hbad (s.onesRead o ones)
  have hend : s.tileBegin o ones = u.finishOp { o with phase := .running } 1 := by rw [State.tileBegin, State.tileStart_eq, hu]
  obtain ⟨hgone, hres⟩ := u.finishOp_ends { o with phase := .running } 1
  rw [hend] at hcells ⊢
  exact ⟨hgone, hcells, hres.trans (by rw [hfpc]; rfl)⟩

/-- R294: what the start of an operation whose turn has come leaves. -/
theorem State.execStart {id : BitVec 8} {o : FpcOp} (hop : s.fpcOp id.toNat (fun o => decide (o.phase = .queued)) = some o)
    (hturn : s.opTurn o = true) (hstarts : s.fpcStarts = true) (ones : List (Nat × Nat)) :
    exec (.fpcOperationStart id ones) s = .next (s.opBegin o ones) := by
  show Host.Outcome.next _ = _
  rw [hop]
  exact congrArg Host.Outcome.next (if_pos ⟨hturn, hstarts⟩)

theorem State.opBegin_go {o : FpcOp} (h : s.startCheck o = none) (ones : List (Nat × Nat)) : s.opBegin o ones = s.opGo o ones := by
  rw [State.opBegin, h]

theorem State.opBegin_ends {o : FpcOp} {k : Nat} (h : s.startCheck o = some k) (ones : List (Nat × Nat)) :
    s.opBegin o ones = if o.op = 1 then s.progStuck o 0 k else s.finishOp o k := by
  rw [State.opBegin, h]

/-! ### Pages of the staging buffer -/

theorem State.noteStage_mem (s : State) (o : FpcOp) (off n : Nat) : (s.noteStage o off n).mem = s.mem :=
  ((State.frame.refl [.regs, .link, .pwr, .pcie, .log, .logNext, .out] s).noteStage).mem_eq

theorem State.programPage_mem (s : State) (page : Nat) (data : List SB) :
    (s.programPage page data).mem = (s.pokes (kFlash page 0) (data.map (·.1))).mem := by
  unfold State.programPage
  extract_lets s1 bad u
  clear_value bad
  exact ((State.frame.refl [.poison] s1).foldl (fun h => h.setPoison)).mem_eq

/-- A page programmed from a unit of the staging buffer holds its bytes, and no other byte changes. -/
theorem State.programUnit_bytes (s : State) (o : FpcOp) (page i : Nat) :
    (∀ j, j < 16384 → SMap.get 0 (s.programUnit o page i).mem (kFlash page j) = (s.peek (kStage o.buf (16384 * i + j))).1) ∧
      ∀ k, (∀ j, j < 16384 → k ≠ kFlash page j) → SMap.get 0 (s.programUnit o page i).mem k = SMap.get 0 s.mem k := by
  have hnote := s.noteStage_mem o (16384 * i) 16384
  have hmem : (s.programUnit o page i).mem =
      ((s.noteStage o (16384 * i) 16384).pokes (kFlash page 0) ((s.stagePage o i).map (·.1))).mem := by
    exact State.programPage_mem _ page _
  have hkey : ∀ j, kFlash page j = kFlash page 0 + j := fun j => by unfold kFlash; omega
  have hlen : ((s.stagePage o i).map (·.1)).length = 16384 := by rw [List.length_map, State.stagePage, List.length_map, List.length_range]
  rw [hmem]
  refine ⟨fun j hj => ?_, fun k hk => ?_⟩
  · rw [hkey]
    refine State.pokes_get _ _ _ _ _ ?_
    rw [List.getElem?_map, State.stagePage, List.getElem?_map, List.getElem?_range hj]
    rfl
  · refine (State.pokes_get_other _ _ _ _ ?_).trans (by rw [hnote])
    rw [hlen]
    by_cases h : k < kFlash page 0
    · exact .inl h
    · refine .inr (Nat.le_of_not_lt fun hlt => hk (k - kFlash page 0) (by omega) ?_)
      rw [hkey]
      omega

/-- The end of a page's program closes its block's record. -/
theorem State.landed_closes (s : State) (page : Nat) : ((s.landed page).blk (page / 2048)).inFlight = false := by
  rw [State.landed, State.updBlk, State.blk_setBlk_self]

theorem State.landed_mem (s : State) (page : Nat) : (s.landed page).mem = s.mem := rfl

/-! ### Pulses -/

/-- A pulse of an operation in progress ended, by what the operation is. -/
theorem State.programPulse_of {id : Nat} {o : FpcOp} (h : s.fpcOp id (fun o => decide (o.phase = .running) && !o.erases) = some o)
    (unset : List Nat) (ones : List (Nat × Nat)) :
    (o.op = 1 → s.programPulse id unset ones = s.progPulse o unset.isEmpty) ∧
      (o.op = 3 → s.programPulse id unset ones = s.movePulse o unset.isEmpty) ∧
      (o.op = 4 → s.programPulse id unset ones = s.tilePulse o unset ones) ∧
      (o.op = 6 → s.programPulse id unset ones = s.fwPulse o unset.isEmpty) := by
  unfold State.programPulse
  rw [h]
  refine ⟨fun hop => ?_, fun hop => ?_, fun hop => ?_, fun hop => ?_⟩ <;> simp only [hop]

/-- The next page of a PROG_PAGES in progress stands in the operation. -/
theorem State.progNext_next {o : FpcOp} (hmem : o ∈ s.fpc.ops) {q p n : Nat} {l : List (Nat × Nat × Nat)} (hrest : o.rest = (q, p, n) :: l) :
    ∃ x ∈ (s.progNext o).fpc.ops, x.seq = o.seq ∧ x.phase = .running ∧ x.unit = q ∧ x.target = p ∧ x.rest = l := by
  rw [State.progNext, hrest]
  exact ⟨_, State.setOp_mem hmem rfl, rfl, rfl, rfl, rfl, rfl⟩

/-- The pulse with which a page of a PROG_PAGES verifies. -/
theorem State.progPulse_good (s : State) (o : FpcOp) : s.progPulse o true = ((s.programUnit o o.target o.unit).landed o.target).progNext o := rfl

theorem State.fwPulse_good (s : State) (o : FpcOp) :
    s.fwPulse o true = ((s.programUnit o o.target (wBits o.data 3 6)).landed o.target).finishOp o 0 := rfl

/-- A page programmed and its record closed: the operations are as they were. -/
theorem State.programmed (s : State) (o : FpcOp) (page i : Nat) :
    s.frame [.regs, .mem, .poison, .flashErr, .blks, .link, .pwr, .pcie, .log, .logNext, .out] ((s.programUnit o page i).landed page) :=
  (State.frame.refl _ s).programUnit.landed

/-! ### Moves (R299) -/

theorem SMap.find?_map {α : Type} (f : α → α) : ∀ (m : SMap α) (k : Nat),
    SMap.find? (List.map (fun (e : Nat × α) => (e.1, f e.2)) m) k = (SMap.find? m k).map f
  | [], _ => rfl
  | (j, v) :: m, k => by
    show (if k = j then some (f v) else SMap.find? (List.map (fun (e : Nat × α) => (e.1, f e.2)) m) k) =
      Option.map f (if k = j then some v else SMap.find? m k)
    split
    · rfl
    · exact SMap.find?_map f m k

/-- The pages of objects, with one page given a new place. -/
def renamed (m : SMap Nat) (src dst : Nat) : SMap Nat := List.map (fun (e : Nat × Nat) => (e.1, if e.2 = src + 1 then dst + 1 else e.2)) m

theorem State.physPage_renamed {src dst : Nat} (h : t.pmap = renamed s.pmap src dst) :
    (∀ idx q, s.physPage idx q = some src → t.physPage idx q = some dst) ∧
      ∀ idx q r, s.physPage idx q = some r → r ≠ src → t.physPage idx q = some r := by
  have hfind : ∀ k, SMap.find? t.pmap k = (SMap.find? s.pmap k).map (fun v => if v = src + 1 then dst + 1 else v) := fun k => by
    rw [h, renamed]
    exact SMap.find?_map (fun v => if v = src + 1 then dst + 1 else v) s.pmap k
  have hget : ∀ idx q r, s.physPage idx q = some r → SMap.find? s.pmap (pmapKey idx q) = some (r + 1) := fun idx q r hr => by
    unfold State.physPage SMap.get at hr
    cases hf : SMap.find? s.pmap (pmapKey idx q) with
    | none => simp [hf] at hr
    | some v =>
      cases v with
      | zero => simp [hf] at hr
      | succ v => simpa [hf] using hr
  have hback : ∀ idx q r, SMap.find? t.pmap (pmapKey idx q) = some (r + 1) → t.physPage idx q = some r := fun idx q r hr => by
    rw [State.physPage, SMap.get, hr]
    rfl
  refine ⟨fun idx q hr => hback idx q _ ?_, fun idx q r hr hne => hback idx q _ ?_⟩
  · rw [hfind, hget idx q _ hr]
    simp
  · rw [hfind, hget idx q _ hr]
    simp [hne]

/-- A verified move gives the page its new place. -/
theorem State.moveDone_pmap (s : State) (src dst : Nat) : (s.moveDone src dst).pmap = renamed s.pmap src dst := by
  unfold State.moveDone
  extract_lets data s1 s2
  have h1 : s1.pmap = s.pmap := by
    have hf : s.frame [.regs, .blks, .mem, .poison, .flashErr, .link, .pwr, .pcie, .log, .logNext, .out] s1 :=
      (State.frame.refl _ s).pageRead.programPage.landed
    exact hf.pmap_eq
  clear_value data s1
  have h2 : s2.pmap = renamed s1.pmap src dst := rfl
  clear_value s2
  exact (((State.frame.refl [.blks] s2).pageDead.updBlk).pmap_eq).trans (by rw [h2, h1])

/-- The pulse with which the last page of a RELOCATE verifies. -/
theorem State.movePulse_last {o : FpcOp} {p : Nat} (htodo : o.todo = [p]) : s.movePulse o true =
    (if s.pageLive p then s.moveDone p o.target else s.landed o.target).finishOp { o with todo := [] } 0 := by
  rw [State.movePulse, if_pos rfl, htodo]
  rfl

/-! ### Rows of a tile (R102) -/

/-- A row's cells, stored output by output. -/
def State.rowCells (s : State) (t : Tile) (o : FpcOp) (p : PlanIn) (l : List Nat) : State :=
  l.foldl (fun (s : State) out => { s with cells := SMap.put (0, 0) s.cells (cellKey o.tile o.unit out) (t.stored p o.unit out) }) s

theorem State.rowCells_get (t : Tile) (o : FpcOp) (p : PlanIn) : ∀ (l : List Nat) (s : State) (out : Nat), out ∈ l ∨
    SMap.get (0, 0) s.cells (cellKey o.tile o.unit out) = t.stored p o.unit out →
    SMap.get (0, 0) (s.rowCells t o p l).cells (cellKey o.tile o.unit out) = t.stored p o.unit out
  | [], _, _, h => h.resolve_left (by simp)
  | x :: l, s, out, h => by
    refine State.rowCells_get t o p l _ out ?_
    by_cases hx : out = x
    · subst hx
      exact .inr (SMap.get_put_self ..)
    · refine h.imp (fun h => (List.mem_cons.mp h).resolve_left hx) fun h => ?_
      refine (SMap.get_put_other (0, 0) s.cells _ fun hk => hx ?_).trans h
      unfold cellKey at hk
      omega

theorem State.rowCells_frame (t : Tile) (o : FpcOp) (p : PlanIn) (l : List Nat) (s : State) : s.frame [.cells] (s.rowCells t o p l) :=
  (State.frame.refl [.cells] s).foldl fun h => h.update

/-- Every sector has the state and the rows it had. -/
def State.rowsKept (s t : State) : Prop := ∀ tile m, (t.sector tile m).state = (s.sector tile m).state ∧ (t.sector tile m).rows = (s.sector tile m).rows

theorem State.rowsKept.trans (h : s.rowsKept t) (k : t.rowsKept u) : s.rowsKept u := fun tile m => by
  obtain ⟨h1, h2⟩ := h tile m
  obtain ⟨k1, k2⟩ := k tile m
  exact ⟨k1.trans h1, k2.trans h2⟩

theorem State.rowsKept.of_eq (h : t.sectors = s.sectors) : s.rowsKept t := fun tile m => by
  rw [State.sector, h]
  exact ⟨rfl, rfl⟩

theorem State.rowsKept.setSector {tile m : Nat} {x : Sector} (hstate : x.state = (s.sector tile m).state) (hrows : x.rows = (s.sector tile m).rows) :
    s.rowsKept (s.setSector tile m x) := fun tile' m' => by
  rw [State.sector, State.setSector, SMap.get_put]
  split
  · rename_i hk
    rw [show s.sector tile' m' = s.sector tile m by rw [State.sector, hk]; rfl]
    exact ⟨hstate, hrows⟩
  · exact ⟨rfl, rfl⟩

theorem Sector.record_state (x : Sector) : x.record.state = x.state ∧ x.record.rows = x.rows := ⟨rfl, rfl⟩

theorem State.rowsKept.rowNext (s : State) (o : FpcOp) : s.rowsKept (s.rowNext o) := by
  unfold State.rowNext
  extract_lets x a
  refine State.rowsKept.trans (.setSector ?_ ?_) (.of_eq rfl) <;>
  · simp only [a]
    split <;> rfl

theorem State.rowsKept.tileDone (s : State) (o : FpcOp) (p : PlanIn) : s.rowsKept (s.tileDone o p) := by
  unfold State.tileDone
  extract_lets t dev s1 x a
  have h1 : s.rowsKept s1 :=
    .of_eq ((State.frame.refl [.tiles, .tsets, .link, .pwr, .pcie, .log, .logNext, .out] s).setTile.tileTolerant).sectors_eq
  clear_value s1
  refine h1.trans (State.rowsKept.trans (t := s1.setSector o.tile (o.unit / 64) { a with inFlight := false }) (.setSector ?_ ?_) (.of_eq ?_))
  · simp only [a]
    split <;> rfl
  · simp only [a]
    split <;> rfl
  · exact ((State.frame.refl [.mem, .hostMem, .deposits, .poison, .bch, .objs, .fpc, .tiles, .link, .pwr, .pcie, .out] _).tileReport).sectors_eq

/-- A stored row: its cells, and its sector's state and count. -/
theorem State.rowStore_stores (s : State) (o : FpcOp) (p : PlanIn) :
    (∀ out, out < p.outs → SMap.get (0, 0) (s.rowStore o p).cells (cellKey o.tile o.unit out) = (s.tile o.tile).stored p o.unit out) ∧
      ((s.rowStore o p).sector o.tile (o.unit / 64)).state = .programmed ∧
      ((s.rowStore o p).sector o.tile (o.unit / 64)).rows = o.unit % 64 + 1 := by
  have hcells : (s.rowStore o p).cells = (s.rowCells (s.tile o.tile) o p (List.range p.outs)).cells := rfl
  refine ⟨fun out hout => ?_, ?_, ?_⟩
  · rw [hcells]
    exact State.rowCells_get _ o p _ s out (.inl (List.mem_range.mpr hout))
  · unfold State.rowStore
    rw [State.sector_setSector_self]
  · unfold State.rowStore
    rw [State.sector_setSector_self]

/-- `State.planIn` for an image of `n` bytes. -/
def State.planInAt (s : State) (o : FpcOp) (n : Nat) : PlanIn :=
  { int4 := (s.tileHome o.tile).any (fun h => h.2.2.int4), rows := 64 * s.tileSectors o.tile,
    image := (List.range n).map (fun j => (s.peek (kStage o.buf (n * wBits o.data 3 3 + j))).1) }

theorem State.planIn_eq (s : State) (o : FpcOp) : s.planIn o = s.planInAt o 131072 := rfl

theorem State.planInAt_congr {o : FpcOp} (hhome : t.tileHome o.tile = s.tileHome o.tile) (hpeek : ∀ k, t.peek k = s.peek k) (n : Nat) :
    t.planInAt o n = s.planInAt o n := by
  unfold State.planInAt State.tileSectors
  rw [hhome]
  congr 1
  exact List.map_congr_left fun j _ => congrArg Prod.fst (hpeek _)

/-- The plan's input is the tile's place and the bytes of its image. -/
theorem State.planRows_congr (htsets : t.tsets = s.tsets) (hmem : t.mem = s.mem) (hpoison : t.poison = s.poison) (hbch : t.bch = s.bch)
    (o : FpcOp) : t.planRows o = s.planRows o := by
  have hhome : t.tileHome o.tile = s.tileHome o.tile := by unfold State.tileHome State.tileSlot; rw [htsets]
  have hin : t.planIn o = s.planIn o := by
    rw [State.planIn_eq, State.planIn_eq]
    exact State.planInAt_congr hhome (State.peek_congr hmem hpoison hbch) _
  unfold State.planRows
  rw [hin, hhome]

theorem Tile.deviations_counted (t : Tile) (p : PlanIn) (a b : Nat) : ({ t with reencoded := a, deviated := b } : Tile).deviations p = t.deviations p := rfl

/-- A tile programmed without deviations writes no report. -/
theorem State.tileDone_exact {o : FpcOp} (h : (s.tile o.tile).deviations (s.planRows o) = []) :
    (s.tileDone o (s.planRows o)).mem = s.mem := by
  unfold State.tileDone
  extract_lets t dev s1 x a
  have hdev : dev = [] := h
  have h1 : s1 = s.setTile o.tile { t with reencoded := t.reencodedCount (s.planRows o), deviated := dev.length } := by
    show State.tileTolerant _ o dev = _
    rw [State.tileTolerant]
    split
    · exact if_pos (by rw [hdev]; rfl)
    · rfl
  have hdevs : ((s1.setSector o.tile (o.unit / 64) { a with inFlight := false }).tile o.tile).deviations
      ((s1.setSector o.tile (o.unit / 64) { a with inFlight := false }).planRows o) = [] := by
    rw [State.planRows_congr (s := s) (by rw [h1]; rfl) (by rw [h1]; rfl) (by rw [h1]; rfl) (by rw [h1]; rfl),
      show (s1.setSector o.tile (o.unit / 64) { a with inFlight := false }).tile o.tile = s1.tile o.tile from rfl, h1,
      State.tile_setTile_self, Tile.deviations_counted]
    exact h
  have hmem : (s1.setSector o.tile (o.unit / 64) { a with inFlight := false }).mem = s.mem := by rw [h1]; rfl
  generalize s1.setSector o.tile (o.unit / 64) { a with inFlight := false } = v at hdevs hmem
  rw [State.tileReport, hdevs]
  exact (((State.frame.refl [.fpc, .tiles, .link, .pwr, .pcie, .out] v).tileEnd).mem_eq).trans hmem

/-- The pulse with which every cell of a row verifies. -/
theorem State.tilePulse_good (s : State) (o : FpcOp) (ones : List (Nat × Nat)) : s.tilePulse o [] ones =
    if o.unit + 1 = (s.planRows o).rows then (s.rowStore o (s.planRows o)).tileDone o (s.planRows o)
    else (s.rowStore o (s.planRows o)).rowNext { o with unit := o.unit + 1 } := rfl

/-- A row of a tile that verifies is stored, its sector counts it, and only a tile's report writes memory. -/
theorem State.tilePulse_stores (s : State) (o : FpcOp) (ones : List (Nat × Nat)) :
    ((s.tilePulse o [] ones).sector o.tile (o.unit / 64)).state = .programmed ∧
      ((s.tilePulse o [] ones).sector o.tile (o.unit / 64)).rows = o.unit % 64 + 1 ∧
      (o.unit + 1 ≠ (s.planRows o).rows ∨ (s.tile o.tile).deviations (s.planRows o) = [] → (s.tilePulse o [] ones).mem = s.mem) ∧
      ∀ out, out < (s.planRows o).outs → SMap.get (0, 0) (s.tilePulse o [] ones).cells (cellKey o.tile o.unit out) =
        (s.tile o.tile).stored (s.planRows o) o.unit out := by
  obtain ⟨hcells, hstate, hrows⟩ := s.rowStore_stores o (s.planRows o)
  have hf : s.frame [.sectors, .cells] (s.rowStore o (s.planRows o)) := (State.frame.refl _ s).rowStore
  have hplan : (s.rowStore o (s.planRows o)).planRows o = s.planRows o := State.planRows_congr hf.tsets_eq hf.mem_eq hf.poison_eq hf.bch_eq o
  have htile : (s.rowStore o (s.planRows o)).tile o.tile = s.tile o.tile := by rw [State.tile, hf.tiles_eq]; rfl
  rw [State.tilePulse_good]
  generalize s.rowStore o (s.planRows o) = u at *
  by_cases hlast : o.unit + 1 = (s.planRows o).rows
  · rw [if_pos hlast]
    obtain ⟨k1, k2⟩ := State.rowsKept.tileDone u o (s.planRows o) o.tile (o.unit / 64)
    have hc : (u.tileDone o (s.planRows o)).cells = u.cells := ((State.frame.refl [.mem, .hostMem, .deposits, .poison, .bch, .objs, .fpc, .sectors,
      .tsets, .tiles, .link, .pwr, .pcie, .log, .logNext, .out] u).tileDone).cells_eq
    refine ⟨k1.trans hstate, k2.trans hrows, fun h => ?_, fun out hout => by rw [hc, hcells out hout]⟩
    have hdev := h.resolve_left (fun hne => hne hlast)
    rw [← hplan, State.tileDone_exact (by rw [htile, hplan]; exact hdev)]
    exact hf.mem_eq
  · rw [if_neg hlast]
    obtain ⟨k1, k2⟩ := State.rowsKept.rowNext u { o with unit := o.unit + 1 } o.tile (o.unit / 64)
    have hn : u.frame [.fpc, .sectors] (u.rowNext { o with unit := o.unit + 1 }) := (State.frame.refl _ u).rowNext
    exact ⟨k1.trans hstate, k2.trans hrows, fun _ => hn.mem_eq.trans hf.mem_eq, fun out hout => by rw [hn.cells_eq, hcells out hout]⟩

/-! ### The obligation -/

theorem State.opGo_erase {o : FpcOp} (hop : o.op = 2) (ones : List (Nat × Nat)) :
    ((s.opGo o ones).blk o.block).eraseIntent = true ∧ (s.opGo o ones).mem = s.mem := by
  have he : s.opGo o ones = (s.updBlk o.block (fun b => { b.record with eraseIntent := true })).setOp { o with phase := .running } := by
    simp only [State.opGo, hop]
  rw [he]
  refine ⟨?_, rfl⟩
  have hb : ((s.updBlk o.block (fun b => { b.record with eraseIntent := true })).setOp { o with phase := .running }).blk o.block =
      (s.updBlk o.block (fun b => { b.record with eraseIntent := true })).blk o.block := rfl
  rw [hb, State.updBlk, State.blk_setBlk_self]

theorem State.opGo_tile {o : FpcOp} (hop : o.op = 4) (ones : List (Nat × Nat)) : s.opGo o ones = s.tileBegin o ones := by
  simp only [State.opGo, hop]

/-- An operation that ends at its start with a result. -/
theorem State.opBegin_refused {o : FpcOp} {k : Nat} (hk : s.startCheck o = some k) (ones : List (Nat × Nat)) :
    (∀ x ∈ (s.opBegin o ones).fpc.ops, x.seq ≠ o.seq) ∧
      { id := o.id, op := o.op, code := k, fail := o.fail, fails := o.fails } ∈ (s.opBegin o ones).fpc.results o.mgc ∧
      (s.opBegin o ones).blks = s.blks ∧ (s.opBegin o ones).cells = s.cells ∧ (s.opBegin o ones).mem = s.mem ∧
      (o.op = 1 → ((s.opBegin o ones).obj o.object).nextPage = o.firstPage ∧
        ∀ x ∈ (s.opBegin o ones).fpc.ops, x.op = 1 → x.object = o.object → x.phase ≠ .queued) := by
  rw [State.opBegin_ends hk]
  by_cases hop : o.op = 1
  · rw [if_pos hop]
    obtain ⟨hgone, hres, hnext, hnone⟩ := s.progStuck_ends o 0 k
    have hf : s.frame [.objs, .fpc, .link, .pwr, .pcie, .out] (s.progStuck o 0 k) := (State.frame.refl _ s).progStuck
    exact ⟨hgone, hres, hf.blks_eq, hf.cells_eq, hf.mem_eq, fun _ => ⟨hnext, hnone⟩⟩
  · rw [if_neg hop]
    obtain ⟨hgone, hres⟩ := s.finishOp_ends o k
    have hf : s.frame [.fpc, .link, .pwr, .pcie, .out] (s.finishOp o k) := (State.frame.refl _ s).finishOp
    exact ⟨hgone, by rw [hres]; exact List.mem_append_right _ (List.mem_singleton.mpr rfl), hf.blks_eq, hf.cells_eq, hf.mem_eq,
      fun h => absurd h hop⟩

/-- Settles O48: an operation by its check at the start, a pulse by what the operation is. -/
theorem fpcPrograms : Obligations.FpcPrograms := by
  unfold Obligations.FpcPrograms
  intro id ones o s
  refine ⟨fun hop hturn hstarts => ⟨s.opBegin o ones, State.execStart hop hturn hstarts ones, ?_, fun hk => ?_, fun k hk => State.opBegin_refused hk ones⟩,
    fun hop => ?_⟩
  · exact ((State.frame.refl [.regs, .objs, .pmap, .blks, .fpc, .sectors, .tiles, .link, .pwr, .pcie, .log, .logNext, .out] s).opBegin).ctxs_eq
  · rw [State.opBegin_go hk]
    refine ⟨State.begun.opGo (State.fpcOp_mem hop) ones, fun h2 => State.opGo_erase h2 ones, fun h4 hbad => ?_⟩
    rw [State.opGo_tile h4, ← h4]
    exact State.tileBegin_poisoned hbad ones
  · have hmem := State.fpcOp_mem hop
    have pulse : ∀ unset u, s.programPulse id.toNat unset ones = u → exec (.programPulseEnd id ⟨unset, ones⟩) s = .next u :=
      fun unset u h => congrArg Host.Outcome.next h
    have of := State.programPulse_of hop
    refine ⟨fun h1 => ?_, fun h6 => ?_, fun x l hprog hpulses => ?_, fun p h3 htodo => ?_, fun h4 => ?_⟩
    · obtain ⟨hprog, -⟩ := of [] ones
      refine ⟨_, pulse [] _ ((hprog h1).trans (s.progPulse_good o)), ?_⟩
      have hf := s.programmed o o.target o.unit
      obtain ⟨hbytes, hother⟩ := s.programUnit_bytes o o.target o.unit
      have hland := State.landed_mem (s.programUnit o o.target o.unit) o.target
      have hclosed := State.landed_closes (s.programUnit o o.target o.unit) o.target
      generalize (s.programUnit o o.target o.unit).landed o.target = u at *
      have hn : u.frame [.objs, .fpc, .link, .pwr, .pcie, .out] (u.progNext o) := (State.frame.refl _ u).progNext
      refine ⟨fun hrest hstuck => ?_, fun q p n l hrest => State.progNext_next (by rwa [hf.fpc_eq]) hrest, ?_, fun j hj => ?_, fun k hk => ?_⟩
      · have hend : u.progNext o = u.finishOp o 0 := by rw [State.progNext, hrest, hstuck]
        rw [hend, ← hf.fpc_eq]
        exact u.finishOp_ends o 0
      · rw [State.blk, hn.blks_eq]
        exact hclosed
      · rw [hn.mem_eq, hland, hbytes j hj]
      · rw [hn.mem_eq, hland, hother k hk]
    · obtain ⟨-, -, -, hprog⟩ := of [] ones
      refine ⟨_, pulse [] _ ((hprog h6).trans (s.fwPulse_good o)), ?_⟩
      have hf := s.programmed o o.target (wBits o.data 3 6)
      obtain ⟨hbytes, hother⟩ := s.programUnit_bytes o o.target (wBits o.data 3 6)
      have hland := State.landed_mem (s.programUnit o o.target (wBits o.data 3 6)) o.target
      generalize (s.programUnit o o.target (wBits o.data 3 6)).landed o.target = u at *
      have hn : u.frame [.fpc, .link, .pwr, .pcie, .out] (u.finishOp o 0) := (State.frame.refl _ u).finishOp
      refine ⟨?_, fun j hj => ?_, fun k hk => ?_⟩
      · rw [← hf.fpc_eq]
        exact u.finishOp_ends o 0
      · rw [hn.mem_eq, hland, hbytes j hj]
      · rw [hn.mem_eq, hland, hother k hk]
    · obtain ⟨h1, h3, -, h6⟩ := of (x :: l) ones
      refine pulse _ _ ?_
      rcases hprog with h | h | h
      · rw [h1 h]
        exact (if_neg Bool.false_ne_true).trans (if_pos hpulses)
      · rw [h3 h]
        exact (if_neg Bool.false_ne_true).trans (if_pos hpulses)
      · rw [h6 h]
        exact (if_neg Bool.false_ne_true).trans (if_pos hpulses)
    · obtain ⟨-, hmove, -⟩ := of [] ones
      refine ⟨_, pulse [] _ ((hmove h3).trans (State.movePulse_last htodo)), ?_⟩
      have hmoved := s.moveDone_pmap p o.target
      have hf : s.frame [.regs, .mem, .poison, .flashErr, .pmap, .orphans, .blks, .link, .pwr, .pcie, .log, .logNext, .out]
          (if s.pageLive p then s.moveDone p o.target else s.landed o.target) :=
        State.frame.either (State.frame.refl _ s).moveDone (State.frame.refl _ s).landed
      have hdead : s.pageLive p = false → (if s.pageLive p then s.moveDone p o.target else s.landed o.target).pmap = s.pmap := fun h => by
        rw [if_neg (by simp [h])]
        rfl
      have hlive : s.pageLive p = true → (if s.pageLive p then s.moveDone p o.target else s.landed o.target).pmap = renamed s.pmap p o.target := fun h => by
        rw [if_pos h, hmoved]
      generalize (if s.pageLive p then s.moveDone p o.target else s.landed o.target) = u at *
      have hn : u.frame [.fpc, .link, .pwr, .pcie, .out] (u.finishOp { o with todo := [] } 0) := (State.frame.refl _ u).finishOp
      refine ⟨?_, fun h => hn.pmap_eq.trans (hdead h), fun h => State.physPage_renamed (hn.pmap_eq.trans (hlive h))⟩
      rw [← hf.fpc_eq]
      exact u.finishOp_ends { o with todo := [] } 0
    · obtain ⟨-, -, htile, -⟩ := of [] ones
      exact ⟨_, pulse [] _ (htile h4), s.tilePulse_stores o ones⟩

end Sys2Proof.Machine
end

section
/-! PROOFS. Editing the object table. -/

namespace Sys2Proof.Machine

set_option Elab.async false

open Sys2Proof

variable {s t u : State}

/-! ### The edit banks -/

theorem State.bank_setBank {who : Requester} {b : EditBank} (hb : s.bank? who = some b) (c : EditBank) : (s.setBank who c).bank? who = some c := by
  cases who with
  | mgc => rfl
  | fn n =>
    unfold State.bank? at hb
    split at hb
    · rename_i h
      cases h
      rfl
    · rename_i h
      cases h
    · cases hb

theorem State.bank_congr (hhost : t.bankHost = s.bankHost) (hmgc : t.bankMgc = s.bankMgc) (who : Requester) : t.bank? who = s.bank? who := by
  unfold State.bank?
  rw [hhost, hmgc]

theorem State.setBank_parts (s : State) (who : Requester) (c : EditBank) :
    s.setBank who c = { s with bankHost := (s.setBank who c).bankHost, bankMgc := (s.setBank who c).bankMgc } := by
  unfold State.setBank
  split <;> rfl

/-- A command of a bank with its code: what it does for the bank's code. -/
theorem State.withBank_some {who : Requester} {b : EditBank} (hb : s.bank? who = some b) (f : EditBank → State) : s.withBank who f = f b := by
  rw [State.withBank, hb]
  rfl

/-- What an edit of one entry leaves: the bank's code 0, the entry, and every other entry. -/
def State.edited (s t : State) (who : Requester) (b : EditBank) (p : Obj) : Prop :=
  t = { s with objs := t.objs, bankHost := t.bankHost, bankMgc := t.bankMgc } ∧ t.bank? who = some { b with code := 0 } ∧ t.obj b.idx = p ∧
    ∀ j, j ≠ b.idx → t.obj j = s.obj j

theorem State.edited_setObj {who : Requester} {b : EditBank} (hb : s.bank? who = some b) (p : Obj) :
    s.edited ((s.setBank who { b with code := 0 }).setObj b.idx p) who b p := by
  refine ⟨?_, ?_, State.obj_setObj_self _ _ _, fun j hj => (State.obj_setObj_other _ _ hj).trans ?_⟩
  · rw [State.setBank_parts]
    rfl
  · exact State.bank_setBank hb _
  · rw [State.setBank_parts]
    rfl

/-! ### The codes of the edits -/

/-- The code of a DELETE. -/
def State.deleteCode (s : State) (b : EditBank) : Nat := if !b.done then 1 else if !(s.obj b.idx).valid then 4 else 0

/-- The entry that SET_SHARE makes. -/
def State.shared (s : State) (b : EditBank) : Obj := { s.obj b.idx with share := BitVec.ofNat 16 (wBits (b.w.getD 1 0) 30 16) }

/-- The code of a SET_SHARE. -/
def State.shareCode (s : State) (b : EditBank) : Nat :=
  if !b.done then 1 else if !(s.obj b.idx).valid then 4 else if wBits (b.w.getD 1 0) 52 12 ≠ 0 ∨ (s.shared b).stateBad then 5
  else if s.overlaps b.idx (s.shared b) then 2 else 0

/-- The entry that SET_STATE makes. -/
def State.stated (s : State) (b : EditBank) : Obj := { s.obj b.idx with ro := (b.w.getD 0 0).getLsbD 46, inst := (b.w.getD 0 0).getLsbD 47 }

/-- The code of a SET_STATE. -/
def State.stateCode (s : State) (b : EditBank) : Nat :=
  if !b.done then 1 else if !(s.obj b.idx).valid then 4
  else if wBits (b.w.getD 0 0) 49 15 ≠ 0 ∨ (s.stated b).stateBad ∨ (!(s.obj b.idx).ro && (s.stated b).ro && s.vfHolds (s.obj b.idx).owner)
    then 5 else 0

theorem State.shareCode_zero {b : EditBank} (hdone : b.done = true) (hvalid : (s.obj b.idx).valid = true)
    (hrsv : wBits (b.w.getD 1 0) 52 12 = 0) (hgood : (s.shared b).stateBad = false) (hover : s.overlaps b.idx (s.shared b) = false) :
    s.shareCode b = 0 := by
  unfold State.shareCode
  rw [if_neg (by simp [hdone]), if_neg (by simp [hvalid]), if_neg (fun h => h.elim (· hrsv) fun h => by rw [hgood] at h; cases h),
    if_neg (by simp [hover])]

theorem State.stateCode_zero {b : EditBank} (hdone : b.done = true) (hvalid : (s.obj b.idx).valid = true)
    (hrsv : wBits (b.w.getD 0 0) 49 15 = 0) (hgood : (s.stated b).stateBad = false)
    (hvf : (s.obj b.idx).ro = true ∨ (s.stated b).ro = false ∨ s.vfHolds (s.obj b.idx).owner = false) : s.stateCode b = 0 := by
  unfold State.stateCode
  rw [if_neg (by simp [hdone]), if_neg (by simp [hvalid]), if_neg]
  rintro (h | h | h)
  · exact h hrsv
  · rw [hgood] at h
    cases h
  · rcases hvf with hv | hv | hv <;> simp [hv] at h

section Codes
variable {who : Requester} {b : EditBank} (hb : s.bank? who = some b)
include hb

theorem State.create_by : s.create who = if s.createCode b = 0 then
    ((s.setBank who { b with code := s.createCode b }).setObj b.idx (Obj.ofWords b.w)).findPages b.idx
      (s.setBank who { b with code := s.createCode b }).pwr.lostBanks
    else s.setBank who { b with code := s.createCode b } := s.withBank_some hb _

theorem State.delete_by : s.delete who = if s.deleteCode b = 0 then (s.setBank who { b with code := s.deleteCode b }).deleteObj b.idx
    else s.setBank who { b with code := s.deleteCode b } := s.withBank_some hb _

theorem State.setShare_by : s.setShare who = if s.shareCode b = 0 then (s.setBank who { b with code := s.shareCode b }).setObj b.idx (s.shared b)
    else s.setBank who { b with code := s.shareCode b } := s.withBank_some hb _

theorem State.setState_by : s.setState who = if s.stateCode b = 0 then
    ((s.setBank who { b with code := s.stateCode b }).setObj b.idx (s.stated b)).oneCopy b.idx
    else s.setBank who { b with code := s.stateCode b } := s.withBank_some hb _

/-- An edit that is refused only answers its code. -/
theorem State.edit_answers {k : Nat} (h0 : k ≠ 0) :
    (s.createCode b = k → exec (.create who) s = .next (s.setBank who { b with code := k })) ∧
    (s.deleteCode b = k → exec (.delete who) s = .next (s.setBank who { b with code := k })) ∧
    (s.shareCode b = k → exec (.setShare who) s = .next (s.setBank who { b with code := k })) ∧
    (s.stateCode b = k → exec (.setState who) s = .next (s.setBank who { b with code := k })) := by
  refine ⟨fun h => congrArg Host.Outcome.next ((State.create_by hb).trans ?_), fun h => congrArg Host.Outcome.next ((State.delete_by hb).trans ?_),
    fun h => congrArg Host.Outcome.next ((State.setShare_by hb).trans ?_), fun h => congrArg Host.Outcome.next ((State.setState_by hb).trans ?_)⟩ <;>
  rw [h, if_neg h0]

theorem State.create_makes (h : s.createCode b = 0) : exec (.create who) s =
    .next (((s.setBank who { b with code := 0 }).setObj b.idx (Obj.ofWords b.w)).findPages b.idx s.pwr.lostBanks) := by
  refine congrArg Host.Outcome.next ((State.create_by hb).trans ?_)
  rw [h, if_pos rfl, State.setBank_parts]

theorem State.delete_frees (h : s.deleteCode b = 0) : exec (.delete who) s = .next ((s.setBank who { b with code := 0 }).deleteObj b.idx) := by
  refine congrArg Host.Outcome.next ((State.delete_by hb).trans ?_)
  rw [h, if_pos rfl]

theorem State.setShare_sets (h : s.shareCode b = 0) :
    exec (.setShare who) s = .next ((s.setBank who { b with code := 0 }).setObj b.idx (s.shared b)) := by
  refine congrArg Host.Outcome.next ((State.setShare_by hb).trans ?_)
  rw [h, if_pos rfl]

theorem State.setState_sets (h : s.stateCode b = 0) :
    exec (.setState who) s = .next (((s.setBank who { b with code := 0 }).setObj b.idx (s.stated b)).oneCopy b.idx) := by
  refine congrArg Host.Outcome.next ((State.setState_by hb).trans ?_)
  rw [h, if_pos rfl]

end Codes

/-! ### The upper bytes of an object -/

/-- Zeroing a run of whole words: its bytes read 0, clean, and every other byte is as before. -/
theorem State.zeroTier_bytes (s : State) (t i size : Nat) :
    (∀ off, off < size * 4096 → (s.zeroTier t i size).peek (kTier t i off) = (0, false)) ∧
      (∀ k, s.peek k = (0, false) → (s.zeroTier t i size).peek k = (0, false)) ∧
      ∀ k, (∀ off, off < size * 4096 → k ≠ kTier t i off) → SMap.get 0 (s.zeroTier t i size).mem k = SMap.get 0 s.mem k := by
  have hkey : ∀ off, kTier t i off = kTier t i 0 + off := fun off => by unfold kTier kT0 kT1; split <;> omega
  have h0 : kTier t i 0 % 8 = 0 := by unfold kTier kT0 kT1; split <;> omega
  have hend : kTier t i (size * 4096) % 8 = 0 := by rw [hkey]; omega
  have hin : ∀ k, kTier t i 0 ≤ k ∧ k < kTier t i (size * 4096) → (s.zeroTier t i size).peek k = (0, false) := fun k hk =>
    State.zeroFrom_peek s _ _ k h0 hend hk
  refine ⟨fun off hoff => hin _ ?_, fun k hk => ?_, fun k hk => ?_⟩
  · rw [hkey off, hkey (size * 4096)]
    omega
  · by_cases h : kTier t i 0 ≤ k ∧ k < kTier t i (size * 4096)
    · exact hin k h
    · refine Eq.trans ?_ hk
      have hw : ¬ (kTier t i 0 / 8 ≤ k / 8 ∧ k / 8 < kTier t i (size * 4096) / 8) := by omega
      have hkeep : (!(decide (kTier t i 0 / 8 ≤ k / 8) && decide (k / 8 < kTier t i (size * 4096) / 8))) = true := by
        rw [Bool.not_eq_true', Bool.and_eq_false_iff, decide_eq_false_iff_not, decide_eq_false_iff_not]
        omega
      unfold State.peek State.wordErr State.isPoison State.zeroTier
      rw [State.zeroFrom_get, if_neg h]
      simp only [State.zeroFrom, SMap.get_keepKeys, hkeep, if_true]
  · rw [State.zeroTier, State.zeroFrom_get, if_neg]
    intro h
    refine hk (k - kTier t i 0) ?_ ?_
    · have := hkey (size * 4096)
      omega
    · rw [hkey]
      omega

/-- A deleted object: its entry is free, its upper bytes read 0, and no other entry and no other byte changes. -/
theorem State.deleteObj_frees (s : State) (i : Nat) :
    (s.deleteObj i).obj i = {} ∧ (∀ j, j ≠ i → (s.deleteObj i).obj j = s.obj j) ∧ (∀ who, (s.deleteObj i).bank? who = s.bank? who) ∧
      (∀ off, off < (s.obj i).size * 4096 → (s.deleteObj i).peek (kT0 i off) = (0, false) ∧ (s.deleteObj i).peek (kT1 i off) = (0, false)) ∧
      ∀ k, (∀ off, off < (s.obj i).size * 4096 → k ≠ kT0 i off ∧ k ≠ kT1 i off) → SMap.get 0 (s.deleteObj i).mem k = SMap.get 0 s.mem k := by
  unfold State.deleteObj
  extract_lets o hit s1 s2
  have h1 : s.frame [.mig, .pwr] (s1.freed0 i) := State.frame.freed0 (t := s1) ((State.frame.refl _ s).update)
  obtain ⟨hz0, -, hm0⟩ := (s1.freed0 i).zeroTier_bytes 0 i o.size
  obtain ⟨hz1, hk1, hm1⟩ := ((s1.freed0 i).zeroTier 0 i o.size).zeroTier_bytes 1 i o.size
  have hv : (s1.freed0 i).frame [.mem, .poison, .bch] (((s1.freed0 i).zeroTier 0 i o.size).zeroTier 1 i o.size) :=
    (State.frame.refl _ _).zeroTier.zeroTier
  have hw : (((s1.freed0 i).zeroTier 0 i o.size).zeroTier 1 i o.size).frame [.pmap, .orphans, .blks] s2 := (State.frame.refl _ _).releasePages
  clear_value s1 s2
  generalize s1.freed0 i = v0 at *
  generalize v0.zeroTier 0 i o.size = v1 at *
  generalize v1.zeroTier 1 i o.size = v2 at *
  have hobjs : s2.objs = s.objs := hw.objs_eq.trans (hv.objs_eq.trans h1.objs_eq)
  have hpeek : ∀ k, (s2.setObj i {}).peek k = v2.peek k := fun k => State.peek_congr hw.mem_eq hw.poison_eq hw.bch_eq k
  refine ⟨State.obj_setObj_self _ _ _, fun j hj => (State.obj_setObj_other _ _ hj).trans ?_, fun who => ?_, fun off hoff => ⟨?_, ?_⟩, fun k hk => ?_⟩
  · rw [State.obj, hobjs]
    rfl
  · exact State.bank_congr (hw.bankHost_eq.trans (hv.bankHost_eq.trans h1.bankHost_eq)) (hw.bankMgc_eq.trans (hv.bankMgc_eq.trans h1.bankMgc_eq)) who
  · rw [hpeek]
    exact hk1 _ (hz0 off hoff)
  · rw [hpeek]
    exact hz1 off hoff
  · refine (congrArg (SMap.get 0 · k) hw.mem_eq).trans ((hm1 k fun off hoff => (hk off hoff).2).trans
      ((hm0 k fun off hoff => (hk off hoff).1).trans ?_))
    rw [h1.mem_eq]

/-- An object with copies in both tiers that becomes writable loses the copy in T1. -/
theorem State.oneCopy_drops {i : Nat} {p : Obj} (hro : p.ro = false) (h0 : p.cp0 = true) (h1 : p.cp1 = true) :
    ((s.setObj i p).oneCopy i).obj i = { p with cp1 := false, hold1 := [] } ∧ (∀ j, j ≠ i → ((s.setObj i p).oneCopy i).obj j = s.obj j) ∧
      (∀ who, ((s.setObj i p).oneCopy i).bank? who = s.bank? who) ∧
      (∀ off, off < p.size * 4096 → ((s.setObj i p).oneCopy i).peek (kT1 i off) = (0, false)) ∧
      ∀ k, (∀ off, off < p.size * 4096 → k ≠ kT1 i off) → SMap.get 0 ((s.setObj i p).oneCopy i).mem k = SMap.get 0 s.mem k := by
  have hself : (s.setObj i p).obj i = p := State.obj_setObj_self _ _ _
  have hdrop : (s.setObj i p).oneCopy i = ((s.setObj i p).zeroTier 1 i p.size).setObj i { p with cp1 := false, hold1 := [] } := by
    rw [State.oneCopy, hself]
    exact if_pos (by simp [hro, h0, h1])
  obtain ⟨hz, -, hm⟩ := (s.setObj i p).zeroTier_bytes 1 i p.size
  rw [hdrop]
  refine ⟨State.obj_setObj_self _ _ _, fun j hj => (State.obj_setObj_other _ _ hj).trans (State.obj_setObj_other s _ hj), fun who => rfl, hz, hm⟩

theorem State.oneCopy_keeps {i : Nat} {p : Obj} (h : p.ro = true ∨ p.cp0 = false ∨ p.cp1 = false) : (s.setObj i p).oneCopy i = s.setObj i p := by
  have hself : (s.setObj i p).obj i = p := State.obj_setObj_self _ _ _
  rw [State.oneCopy, hself]
  exact if_neg (by rcases h with h | h | h <;> simp [h])

/-! ### The obligation -/

theorem State.quiesceDone_settles {who : Requester} {b : EditBank} (hb : s.bank? who = some b) (hreq : b.req = true) (hmig : s.migBusy = 0) :
    ∃ t, exec .quiesceDone s = .next t ∧ t = { s with bankHost := t.bankHost, bankMgc := t.bankMgc } ∧
      t.bank? who = some { b with done := true } := by
  refine ⟨_, congrArg Host.Outcome.next (if_pos hmig), rfl, ?_⟩
  have hsettle : b.settle = { b with done := true } := if_pos hreq
  unfold State.bank? at hb ⊢
  split at hb
  · cases hb
    exact congrArg some hsettle
  · cases hb
    exact congrArg some hsettle
  · cases hb

/-- Settles O42: each edit by its code. -/
theorem objectTable : Obligations.ObjectTable := by
  unfold Obligations.ObjectTable
  intro who b s hb
  have answers := fun k h0 => State.edit_answers hb (k := k) h0
  have set : ∀ (i : Instr) (p : Obj), exec i s = .next ((s.setBank who { b with code := 0 }).setObj b.idx p) →
      ∃ t, exec i s = .next t ∧ s.edited t who b p := fun _ p h => ⟨_, h, State.edited_setObj hb p⟩
  refine ⟨congrArg Host.Outcome.next (s.withBank_some hb _), congrArg Host.Outcome.next (s.withBank_some hb _),
    fun hreq hmig => State.quiesceDone_settles hb hreq hmig, fun hfree => ?_, fun hvalid hmig => ?_, fun hdone => ?_, fun hdone hvalid => ?_, fun hk => ⟨fun hlost => ?_, ?_⟩,
    fun hdone hvalid => ?_, fun hdone hvalid hrsv hgood hover => ?_, fun hdone hvalid hrsv hgood hvf => ⟨fun hkeep => ?_, fun hro h0 h1 => ?_⟩⟩
  · refine congrArg Host.Outcome.next ((s.withBank_some hb _).trans ?_)
    rw [Obj.words, hfree]
    rfl
  · refine congrArg Host.Outcome.next ((s.withBank_some hb _).trans ?_)
    rw [hmig]
    rfl
  · obtain ⟨hc, hd, hsh, hst⟩ := answers 1 (by decide)
    exact ⟨hc (by simp [State.createCode, hdone]), hd (by simp [State.deleteCode, hdone]), hsh (by simp [State.shareCode, hdone]),
      hst (by simp [State.stateCode, hdone])⟩
  · obtain ⟨hc, -⟩ := answers 4 (by decide)
    exact hc (by simp [State.createCode, hdone, hvalid])
  · refine set _ _ ((State.create_makes hb hk).trans ?_)
    rw [hlost]
    rfl
  · refine ⟨_, State.create_makes hb hk, ?_⟩
    have hedit := State.edited_setObj hb (Obj.ofWords b.w)
    have hu : s.frame [.objs, .bankHost, .bankMgc] ((s.setBank who { b with code := 0 }).setObj b.idx (Obj.ofWords b.w)) :=
      (State.frame.refl _ s).setBank.setObj
    generalize (s.setBank who { b with code := 0 }).setObj b.idx (Obj.ofWords b.w) = u at *
    obtain ⟨-, hbank, hself, hother⟩ := hedit
    have hf : u.frame [.freeCtr, .poison, .bch] (u.findPages b.idx s.pwr.lostBanks) := (State.frame.refl _ u).findPages
    have hobj : ∀ j, (u.findPages b.idx s.pwr.lostBanks).obj j = u.obj j := fun j => by rw [State.obj, hf.objs_eq]; rfl
    refine ⟨?_, (State.bank_congr hf.bankHost_eq hf.bankMgc_eq who).trans hbank, (hobj _).trans hself, fun j hj => (hobj j).trans (hother j hj)⟩
    exact ((hu.mono (by simp) : s.frame [.objs, .bankHost, .bankMgc, .freeCtr, .poison, .bch] u).findPages).eq_take
  · have hk : s.deleteCode b = 0 := by simp [State.deleteCode, hdone, hvalid]
    obtain ⟨hself, hother, hbank, hzero, hmem⟩ := (s.setBank who { b with code := 0 }).deleteObj_frees b.idx
    have hobj : ∀ j, (s.setBank who { b with code := 0 }).obj j = s.obj j := fun j => by rw [State.setBank_parts]; rfl
    have hm : (s.setBank who { b with code := 0 }).mem = s.mem := by rw [State.setBank_parts]
    rw [hobj] at hzero hmem
    exact ⟨_, State.delete_frees hb hk, (hbank who).trans (State.bank_setBank hb _), hself, fun j hj => (hother j hj).trans (hobj j), hzero,
      fun k h => (hmem k h).trans (by rw [hm])⟩
  · exact set _ _ (State.setShare_sets hb (State.shareCode_zero hdone hvalid hrsv hgood hover))
  · refine set _ _ ((State.setState_sets hb (State.stateCode_zero hdone hvalid hrsv hgood hvf)).trans ?_)
    exact congrArg Host.Outcome.next (State.oneCopy_keeps hkeep)
  · obtain ⟨hself, hother, hbank, hzero, hmem⟩ := State.oneCopy_drops (s := s.setBank who { b with code := 0 }) (i := b.idx) (p := s.stated b) hro h0 h1
    have hobj : ∀ j, (s.setBank who { b with code := 0 }).obj j = s.obj j := fun j => by rw [State.setBank_parts]; rfl
    have hm : (s.setBank who { b with code := 0 }).mem = s.mem := by rw [State.setBank_parts]
    exact ⟨_, State.setState_sets hb (State.stateCode_zero hdone hvalid hrsv hgood hvf), (hbank who).trans (State.bank_setBank hb _), hself,
      fun j hj => (hother j hj).trans (hobj j), hzero, fun k h => (hmem k h).trans (by rw [hm])⟩

end Sys2Proof.Machine
end

section
/-! PROOFS. Flits, acknowledgements and replays. -/

namespace Sys2Proof.Machine

set_option Elab.async false

open Sys2Proof

variable {s t u : State}

/-! ### What a send leaves of a port -/

/-- A port that has sent control flits: its receiver, its data side and its state are as before. -/
def Port.sentOn (x y : Port) : Prop :=
  y = { x with txCtl := y.txCtl, credCtl := y.credCtl, txCseq := y.txCseq, creplay := y.creplay, qown := y.qown, cown := y.cown }

theorem Port.sentOn.refl (x : Port) : x.sentOn x := rfl

theorem Port.sentOn.trans {x y z : Port} (h : x.sentOn y) (k : y.sentOn z) : x.sentOn z := by
  unfold Port.sentOn at *
  rw [k, h]

theorem Port.sentOn_fillCtl : ∀ (n : Nat) (x : Port), x.sentOn (x.fillCtl n).2
  | 0, x => .refl x
  | n + 1, x => by
    unfold Port.fillCtl
    split
    · exact .refl x
    · refine Port.sentOn.trans ?_ (Port.sentOn_fillCtl n _)
      rfl

theorem State.port_pumpCtl (p : PortId) : ∀ (fuel : Nat) (s : State), (s.port p).sentOn ((s.pumpCtl p fuel).port p)
  | 0, s => .refl _
  | fuel + 1, s => by
    unfold State.pumpCtl
    extract_lets x r msgs
    split
    · exact .refl _
    split
    · exact .refl _
    refine Port.sentOn.trans ?_ (State.port_pumpCtl p fuel _)
    rw [State.port_emit, State.port_setPort_self]
    exact (Port.sentOn_fillCtl 3 x).trans rfl

/-- A port that is not OFF does not change as its domain wakes. -/
theorem State.port_wakeDom_notOff {p : PortId} (h : (s.port p).state ≠ .off) : (s.wakeDom (108 + p.val)).port p = s.port p := by
  have hp : Fin.ofNat 8 (108 + p.val - 108) = p := by simp
  have hwake : ∀ t : State, t.link = s.link → (t.wakePort (108 + p.val)).port p = s.port p := fun t ht => by
    have hport : t.port p = s.port p := by rw [State.port, ht]; rfl
    simp only [State.wakePort, hp]
    rw [if_neg]
    · exact hport
    · rintro ⟨-, -, -, hoff, -⟩
      exact h (hport ▸ hoff)
  unfold State.wakeDom
  split
  · rfl
  · exact hwake _ rfl
  · split
    · rfl
    · exact hwake _ rfl
  · rfl

theorem State.port_sendCtl {p : PortId} (h : (s.port p).state ≠ .off) (m : W64) : (s.port p).sentOn ((s.sendCtl p m).port p) := by
  unfold State.sendCtl
  extract_lets s1
  refine Port.sentOn.trans ?_ (State.port_pumpCtl p _ s1)
  rw [show s1.port p = { (s.wakeDom (108 + p.val)).port p with txCtl := queueCtl ((s.wakeDom (108 + p.val)).port p).txCtl m } from
    State.port_updPort_self _ p _, State.port_wakeDom_notOff h]
  rfl

/-- A message that waits or is kept stays so when one that takes no other's place is sent. -/
theorem State.carries_sendCtl {p : PortId} {m n : W64} (h : s.carries p m) (h8 : msgType m ≠ 8) (hoff : (s.port p).state ≠ .off)
    (h6 : msgType n ≠ 6) (h7 : msgType n ≠ 7) : (s.sendCtl p n).carries p m := by
  refine State.carries_pumpCtl h8 _ ?_
  unfold State.carries
  rw [State.port_updPort_self, State.port_wakeDom_notOff hoff]
  refine h.imp_left fun hm => ?_
  have hq : queueCtl (s.port p).txCtl n = (s.port p).txCtl ++ [n] := by
    unfold queueCtl
    rw [if_neg (fun h => h6 h.1), if_neg (fun h => h7 h.1)]
  rw [hq]
  exact List.mem_append_left _ hm

/-! ### What the link layer changes -/

/-- Only links, registers and what leaves the device change, and with every port's domain on no domain. -/
def State.linkOnly (s t : State) : Prop := s.frame [.link, .regs, .pwr, .out] t ∧ (s.portsOn → t.pwr = s.pwr)

theorem State.linkOnly.trans (h : s.linkOnly t) (k : t.linkOnly u) : s.linkOnly u := by
  obtain ⟨hf, hp⟩ := h
  obtain ⟨kf, kp⟩ := k
  refine ⟨hf.trans kf, fun hon => ?_⟩
  have hpwr := hp hon
  exact (kp fun q => by rw [State.dom, hpwr]; exact hon q).trans hpwr

theorem State.linkOnly.of_frame (h : s.frame [.link, .regs, .out] t) : s.linkOnly t := ⟨h.mono (by simp), fun _ => h.pwr_eq⟩

theorem State.linkOnly.parts (h : s.linkOnly t) :
    t = { s with link := t.link, regs := t.regs, pwr := t.pwr, out := t.out } ∧ (s.portsOn → t.pwr = s.pwr) := by
  obtain ⟨hf, hp⟩ := h
  exact ⟨hf.eq_take, hp⟩

theorem State.linkOnly.sendCtl (s : State) (p : PortId) (m : W64) : s.linkOnly (s.sendCtl p m) :=
  ⟨(State.frame.refl _ s).sendCtl, fun hon => by rw [State.sendCtl_on s p (hon p)]⟩

theorem State.linkOnly.credit (s : State) (p : PortId) (ch n : Nat) : s.linkOnly (s.credit p ch n) := by
  unfold State.credit
  split
  · exact ⟨.refl _ s, fun _ => rfl⟩
  · exact .sendCtl s p _

theorem State.linkOnly.updPort (s : State) (p : PortId) (f : Port → Port) : s.linkOnly (s.updPort p f) := .of_frame (State.frame.refl _ s).updPort

theorem State.linkOnly.addFld (s : State) (f : Fld) (n : Nat) : s.linkOnly (s.addFld f n) := .of_frame (State.frame.refl _ s).addFld

/-- What a port that has sent control flits keeps. -/
theorem Port.sentOn.keeps {x y : Port} (h : x.sentOn y) : y.state = x.state ∧ y.rxSeq = x.rxSeq ∧ y.rxCseq = x.rxCseq ∧ y.inMsgs = x.inMsgs ∧
    y.part = x.part ∧ y.inCtl = x.inCtl := by
  unfold Port.sentOn at h
  rw [h]
  exact ⟨rfl, rfl, rfl, rfl, rfl, rfl⟩

theorem State.port_credit {p : PortId} (h : (s.port p).state ≠ .off) (ch n : Nat) : (s.port p).sentOn ((s.credit p ch n).port p) := by
  unfold State.credit
  split
  · exact .refl _
  · exact State.port_sendCtl h _

/-- The type of a message is what it was made with. -/
theorem msgType_ctlMsg {ty : Nat} (hty : ty < 16) (fs : List (Nat × Nat)) (hfs : ∀ f ∈ fs, 4 ≤ f.1) : msgType (ctlMsg ty fs) = ty := by
  have hsum : ∀ l : List (Nat × Nat), (∀ f ∈ l, 4 ≤ f.1) → (l.map (fun f => f.2 * 2 ^ f.1)).sum % 16 = 0 := by
    intro l
    induction l with
    | nil => exact fun _ => rfl
    | cons f l ih =>
      intro h
      obtain ⟨k, hk⟩ := Nat.exists_eq_add_of_le (h f (List.mem_cons_self ..))
      have hl := ih fun g hg => h g (List.mem_cons_of_mem _ hg)
      have hf : f.2 * 2 ^ f.1 % 16 = 0 := by
        rw [hk, Nat.pow_add, ← Nat.mul_assoc, Nat.mul_comm f.2, Nat.mul_assoc]
        exact Nat.mul_mod_right 16 _
      rw [List.map_cons, List.sum_cons]
      omega
  have h := hsum fs hfs
  simp only [msgType, ctlMsg, wBits, bitsOf, BitVec.toNat_ofNat]
  omega

theorem State.carries_credit {p : PortId} {m : W64} (h : s.carries p m) (h8 : msgType m ≠ 8) (hoff : (s.port p).state ≠ .off) (ch n : Nat) :
    (s.credit p ch n).carries p m := by
  unfold State.credit
  split
  · exact h
  · have h5 : msgType (ctlMsg 5 [(4, ch), (6, n)]) = 5 := msgType_ctlMsg (by decide) _ (by simp)
    exact State.carries_sendCtl h h8 hoff (by rw [h5]; decide) (by rw [h5]; decide)

/-! ### Data flits -/

theorem Port.take_state (x : Port) (f : DataFlit) : (x.take f).state = x.state := by
  unfold Port.take
  extract_lets sofar y
  split <;> rfl

/-- A good data flit in sequence, within its credit: it is taken and acknowledged. -/
theorem State.acceptData_takes {p : PortId} {f : DataFlit} (hact : (s.port p).state = .active) (hgrant : (s.port p).granted f = true) (seq : Nat) :
    s.linkOnly (s.acceptData p seq f) ∧ ((s.acceptData p seq f).port p).rxSeq = (seq + 1) % 65536 ∧
      ((s.acceptData p seq f).port p).inMsgs = ((s.port p).take f).inMsgs ∧
      ((s.acceptData p seq f).port p).part = ((s.port p).take f).part ∧ (s.acceptData p seq f).carries p (ctlMsg 1 [(4, seq)]) := by
  unfold State.acceptData
  rw [if_neg (by simp [hgrant])]
  extract_lets n s1
  have h1 : s.linkOnly s1 := (State.linkOnly.updPort s p _).trans (.addFld _ _ _)
  have hport : s1.port p = { (s.port p).take f with rxSeq := (seq + 1) % 65536 } :=
    State.port_updPort_self s p (fun x => { x.take f with rxSeq := (seq + 1) % 65536 })
  clear_value n s1
  have hoff1 : (s1.port p).state ≠ .off := by
    rw [hport]
    show ((s.port p).take f).state ≠ .off
    rw [Port.take_state, hact]
    decide
  have hsent := State.port_sendCtl hoff1 (ctlMsg 1 [(4, seq)])
  have hoff2 : ((s1.sendCtl p (ctlMsg 1 [(4, seq)])).port p).state ≠ .off := by
    obtain ⟨hst, -⟩ := hsent.keeps
    rw [hst]
    exact hoff1
  obtain ⟨-, hseq, -, hmsgs, hpart, -⟩ := (hsent.trans (State.port_credit hoff2 0 (if f.ch = 0 ∧ !f.last then 1 else 0))).keeps
  have ht : msgType (ctlMsg 1 [(4, seq)]) = 1 := msgType_ctlMsg (by decide) _ (by simp)
  refine ⟨(h1.trans (.sendCtl _ _ _)).trans (.credit _ _ _ _), hseq.trans (by rw [hport]), hmsgs.trans (by rw [hport]), hpart.trans (by rw [hport]), ?_⟩
  exact State.carries_credit (State.carries_sendCtl_self s1 p (by rw [ht]; decide) (by rw [ht]; decide)) (by rw [ht]; decide) hoff2 _ _

/-- A negative acknowledgement: counted, and the receiver stays. -/
theorem State.refuses {p : PortId} (hact : (s.port p).state = .active) (f : Fld) {ty n : Nat} (hty : ty < 16) (h6 : ty ≠ 6) (h8 : ty ≠ 8) :
    s.linkOnly ((s.addFld f 1).sendCtl p (ctlMsg ty [(4, n)])) ∧
      (s.port p).sentOn (((s.addFld f 1).sendCtl p (ctlMsg ty [(4, n)])).port p) ∧
      ((s.addFld f 1).sendCtl p (ctlMsg ty [(4, n)])).carries p (ctlMsg ty [(4, n)]) ∧
      (f.lo + f.width ≤ 64 → ((s.addFld f 1).sendCtl p (ctlMsg ty [(4, n)])).fld f = min (2 ^ f.width - 1) (s.fld f + 1)) := by
  have ht : msgType (ctlMsg ty [(4, n)]) = ty := msgType_ctlMsg hty _ (by simp)
  have hf : (s.addFld f 1).frame [.link, .pwr, .out] ((s.addFld f 1).sendCtl p (ctlMsg ty [(4, n)])) := (State.frame.refl _ _).sendCtl
  refine ⟨(State.linkOnly.addFld s f 1).trans (.sendCtl _ _ _), State.port_sendCtl (s := s.addFld f 1) (by
    show (s.port p).state ≠ .off
    rw [hact]
    decide) _, State.carries_sendCtl_self _ p (by rwa [ht]) (by rwa [ht]), fun hw => ?_⟩
  exact (State.fld_congr hf.regs_eq f).trans (s.fld_addFld_self f 1 hw)

/-- What a received data flit does on an ACTIVE port. -/
theorem State.rxDataFlit_active {p : PortId} (hact : (s.port p).state = .active) (bs : List Byte) :
    ((decodeDataFlit bs).crcOk = false → s.rxDataFlit p bs =
      (s.addFld (Reg.lnkPortErr_crcData.port p) 1).sendCtl p (ctlMsg 2 [(4, (s.port p).rxSeq)])) ∧
    ((decodeDataFlit bs).crcOk = true → (decodeDataFlit bs).null = false →
      ((decodeDataFlit bs).seq = (s.port p).rxSeq → s.rxDataFlit p bs = s.acceptData p (decodeDataFlit bs).seq (decodeDataFlit bs).flit) ∧
      (32768 ≤ ((decodeDataFlit bs).seq + 65536 - (s.port p).rxSeq) % 65536 →
        s.rxDataFlit p bs = s.addFld (Reg.lnkPortErr_dup.port p) 1)) := by
  unfold State.rxDataFlit
  extract_lets x r nak d
  have hx : ¬ x.state ≠ .active := fun h => h hact
  rw [if_neg hx]
  refine ⟨fun hbad => if_pos (by simp [r, hbad]), fun hgood hnull => ⟨fun hseq => ?_, fun hlate => ?_⟩⟩
  · have hd : d = 0 := by show (r.seq + 65536 - x.rxSeq) % 65536 = 0; rw [show r.seq = x.rxSeq from hseq]; omega
    rw [if_neg (by simp [r, hgood]), if_neg (by simp [r, hnull]), if_pos hd]
  · have hd : 32768 ≤ d := hlate
    rw [if_neg (by simp [r, hgood]), if_neg (by simp [r, hnull]), if_neg (by omega), if_pos hd]

/-! ### Control flits -/

/-- Messages of the link-layer types, and of the types that need no credit, join those that wait. -/
theorem State.takeCtlMsgs_waits {p : PortId} : ∀ (ms : List W64) (s : State), (∀ m ∈ ms, msgType m < 10 ∧ msgType m ≠ 0) →
    s.frame [.link] (s.takeCtlMsgs p ms) ∧ ((s.takeCtlMsgs p ms).port p).inCtl = ms.foldl queueCtl (s.port p).inCtl ∧
      ((s.takeCtlMsgs p ms).port p).rxCseq = (s.port p).rxCseq ∧ (∀ m, s.carries p m → (s.takeCtlMsgs p ms).carries p m)
  | [], s, _ => ⟨.refl _ s, rfl, rfl, fun _ h => h⟩
  | m :: ms, s, h => by
    obtain ⟨hlt, hne⟩ := h m (List.mem_cons_self ..)
    have hclass : msgClass m ≠ 5 := by
      unfold msgClass
      generalize msgType m = k at *
      interval_cases k <;> simp_all
    have hstep : s.takeCtlMsgs p (m :: ms) = (s.updPort p (fun x => { x with
        inCtl := queueCtl x.inCtl m, rxCtl := if msgClass m = 5 then x.rxCtl + 1 else x.rxCtl })).takeCtlMsgs p ms := by
      rw [State.takeCtlMsgs, if_neg (by omega), if_neg (fun hc => hclass hc.1)]
    obtain ⟨hf, hin, hseq, hcar⟩ := State.takeCtlMsgs_waits ms (s.updPort p (fun x => { x with
      inCtl := queueCtl x.inCtl m, rxCtl := if msgClass m = 5 then x.rxCtl + 1 else x.rxCtl })) fun n hn => h n (List.mem_cons_of_mem _ hn)
    rw [hstep]
    refine ⟨((State.frame.refl _ s).updPort).trans hf, hin.trans ?_, hseq.trans ?_, fun n hn => hcar n ?_⟩
    · rw [State.port_updPort_self]
      rfl
    · rw [State.port_updPort_self]
    · unfold State.carries
      rw [State.port_updPort_self]
      exact hn

/-- A good control flit in sequence, not of CACK alone and without messages that need credit. -/
theorem State.acceptCtl_takes {p : PortId} {ms : List W64} (hact : (s.port p).state = .active) (hms : ∀ m ∈ ms, msgType m < 10 ∧ msgType m ≠ 0)
    (hack : ∃ m ∈ ms, isType 3 m = false) (cseq : Nat) :
    s.linkOnly (s.acceptCtl p cseq ms) ∧ ((s.acceptCtl p cseq ms).port p).rxCseq = (cseq + 1) % 4096 ∧
      ((s.acceptCtl p cseq ms).port p).inCtl = ms.foldl queueCtl (s.port p).inCtl ∧ (s.acceptCtl p cseq ms).carries p (ctlMsg 3 [(4, cseq)]) := by
  have hall : (ms.all (isType 3) && decide (cseq % 16 ≠ 15)) = false := by
    obtain ⟨m, hm, h3⟩ := hack
    rw [Bool.and_eq_false_iff]
    exact .inl (List.all_eq_false.mpr ⟨m, hm, by simp [h3]⟩)
  unfold State.acceptCtl
  rw [hall]
  extract_lets s1 s2
  have h1 : s.linkOnly s1 := .updPort s p _
  have hport : s1.port p = { s.port p with rxCseq := (cseq + 1) % 4096 } :=
    State.port_updPort_self s p (fun x => { x with rxCseq := (cseq + 1) % 4096 })
  have hs2 : s2 = s1.sendCtl p (ctlMsg 3 [(4, cseq)]) := if_neg Bool.false_ne_true
  have hoff : (s1.port p).state ≠ .off := by
    rw [hport]
    show (s.port p).state ≠ .off
    rw [hact]
    decide
  obtain ⟨-, -, hseq, -, -, hin⟩ := (State.port_sendCtl hoff (ctlMsg 3 [(4, cseq)])).keeps
  have ht : msgType (ctlMsg 3 [(4, cseq)]) = 3 := msgType_ctlMsg (by decide) _ (by simp)
  have hcar := State.carries_sendCtl_self s1 p (m := ctlMsg 3 [(4, cseq)]) (by rw [ht]; decide) (by rw [ht]; decide)
  have h2 : s1.linkOnly s2 := by rw [hs2]; exact .sendCtl _ _ _
  rw [← hs2] at hseq hin hcar
  obtain ⟨hf, hin', hseq', hcar'⟩ := State.takeCtlMsgs_waits (p := p) ms s2 hms
  exact ⟨(h1.trans h2).trans (.of_frame (hf.mono (by simp))), hseq'.trans (hseq.trans (by rw [hport])), hin'.trans (by rw [hin, hport]), hcar' _ hcar⟩

/-- What a received control flit does on an ACTIVE port. -/
theorem State.rxCtlFlit_active {p : PortId} (hact : (s.port p).state = .active) (bs : List Byte) :
    ((decodeCtlFlit bs).crcOk = false → s.rxCtlFlit p bs =
      (s.addFld (Reg.lnkPortErr_crcCtl.port p) 1).sendCtl p (ctlMsg 4 [(4, (s.port p).rxCseq)])) ∧
    ((decodeCtlFlit bs).crcOk = true → (decodeCtlFlit bs).null = false → (decodeCtlFlit bs).seq = (s.port p).rxCseq →
      s.rxCtlFlit p bs = s.acceptCtl p (decodeCtlFlit bs).seq (decodeCtlFlit bs).msgs) := by
  unfold State.rxCtlFlit
  extract_lets x r nak d
  have hx : ¬ (x.state ≠ .active ∧ x.state ≠ .measure) := fun h => h.1 hact
  rw [if_neg hx]
  refine ⟨fun hbad => if_pos (by simp [r, hbad]), fun hgood hnull hseq => ?_⟩
  have hd : d = 0 := by show (r.seq + 4096 - x.rxCseq) % 4096 = 0; rw [show r.seq = x.rxCseq from hseq]; omega
  rw [if_neg (by simp [r, hgood]), if_neg (by simp [r, hnull]), if_pos hd]

/-- The messages of a decoded flit have a type. -/
theorem decodeCtlFlit_typed {bs : List Byte} {m : W64} (h : m ∈ (decodeCtlFlit bs).msgs) : msgType m ≠ 0 :=
  of_decide_eq_true (List.mem_filter.mp h).2

/-! ### Acknowledgements and credits on a port with nothing to send -/

theorem Port.fillCtl_none {x : Port} (h : x.txCtl = []) (n : Nat) : x.fillCtl n = ([], x) := by
  have hpick : x.pickCtl = none := by
    rw [Port.pickCtl, h]
    rfl
  cases n with
  | zero => rfl
  | succ n => rw [Port.fillCtl, hpick]

theorem State.pump_idle {p : PortId} (hidle : s.portIdle p) : s.pump p = s := by
  obtain ⟨hctl, hdata⟩ := hidle
  have hc : ∀ fuel, s.pumpCtl p fuel = s := fun fuel => by
    cases fuel with
    | zero => rfl
    | succ fuel =>
      unfold State.pumpCtl
      simp only [Port.fillCtl_none hctl]
      split <;> rfl
  have hd : ∀ fuel, s.pumpData p fuel = s := fun fuel => by
    have hpick : (s.port p).pickData = none := by
      unfold Port.pickData
      rw [hdata]
      rfl
    cases fuel with
    | zero => rfl
    | succ fuel =>
      unfold State.pumpData
      simp only [hpick]
      split <;> rfl
  rw [State.pump, hc, hd]

/-- A message of a class that needs no credit leaves its queue, and nothing else changes. -/
theorem State.dropCtl_plain {p : PortId} {m : W64} (h : msgClass m ≠ 5) :
    s.dropCtl p m = s.updPort p (fun x => { x with inCtl := x.inCtl.erase m }) := by
  unfold State.dropCtl
  simp only [if_neg h]

theorem State.onCtl_plain {p : PortId} {f : W64 → Bool} {act : W64 → State → State} {m : W64} (hm : s.peekCtl p f = some m) (h : msgClass m ≠ 5) :
    s.onCtl p f act = act m (s.updPort p (fun x => { x with inCtl := x.inCtl.erase m })) := by
  rw [State.onCtl_some s p f act m hm, State.dropCtl_plain h]

theorem msgClass_of_isType {ty : Nat} {m : W64} (hty : ty = 1 ∨ ty = 2 ∨ ty = 3 ∨ ty = 4 ∨ ty = 5 ∨ ty = 6 ∨ ty = 7 ∨ ty = 8 ∨ ty = 9)
    (h : msgType m = ty) : msgClass m ≠ 5 := by
  unfold msgClass
  rw [h]
  rcases hty with rfl | rfl | rfl | rfl | rfl | rfl | rfl | rfl | rfl <;> decide

theorem State.peekCtl_type {p : PortId} {f : W64 → Bool} {m : W64} (hm : s.peekCtl p f = some m) : f m = true := List.find?_some hm

/-- An acknowledgement or a credit on a port with nothing to send: the port takes it in, and nothing else changes. -/
theorem State.takesIn {p : PortId} {f : W64 → Bool} {act : W64 → State → State} {m : W64} {g : Port → Port} (hidle : s.portIdle p)
    (hm : s.peekCtl p f = some m) (h : msgClass m ≠ 5) (hact : ∀ u, act m u = (u.updPort p g).pump p)
    (hg : ∀ x, (g x).txCtl = x.txCtl ∧ (g x).txData = x.txData) :
    s.onCtl p f act = { s with link := (s.onCtl p f act).link } ∧
      (s.onCtl p f act).port p = g { s.port p with inCtl := (s.port p).inCtl.erase m } := by
  have hport : ((s.updPort p (fun x => { x with inCtl := x.inCtl.erase m })).updPort p g).port p =
      g { s.port p with inCtl := (s.port p).inCtl.erase m } := by
    rw [State.port_updPort_self, State.port_updPort_self]
  have hstep : s.onCtl p f act = (s.updPort p (fun x => { x with inCtl := x.inCtl.erase m })).updPort p g := by
    rw [State.onCtl_plain hm h, hact]
    refine State.pump_idle ?_
    obtain ⟨hctl, hdata⟩ := hidle
    obtain ⟨hc, hd⟩ := hg { s.port p with inCtl := (s.port p).inCtl.erase m }
    unfold State.portIdle
    rw [hport]
    exact ⟨hc.trans hctl, hd.trans hdata⟩
  rw [hstep]
  exact ⟨rfl, hport⟩

/-! ### Replays -/

theorem State.out_resendData (p : PortId) : ∀ (l : List (Nat × DataFlit)) (s : State),
    (s.resendData p l).out = s.out ++ l.map (fun e => .flit p (encodeDataFlit e.1 e.2))
  | [], s => (List.append_nil _).symm
  | (q, f) :: l, s => by
    rw [State.resendData, State.out_resendData p l]
    show s.out ++ [_] ++ _ = _
    rw [List.append_assoc]
    rfl

theorem State.out_resendCtl (p : PortId) : ∀ (l : List (Nat × List W64)) (s : State),
    (s.resendCtl p l).out = s.out ++ l.map (fun e => .flit p (encodeCtlFlit e.1 e.2))
  | [], s => (List.append_nil _).symm
  | (q, f) :: l, s => by
    rw [State.resendCtl, State.out_resendCtl p l]
    show s.out ++ [_] ++ _ = _
    rw [List.append_assoc]
    rfl

/-- What a deviation counts for a context lies in the context's page. -/
theorem State.reg_div {off : Nat} (hoff : ∀ c o, off < ctxBase c + o) (s : State) (c : CtxId) (code n : Nat) : (s.div c code n).reg off = s.reg off := by
  unfold State.div
  extract_lets src
  split
  · rfl
  have hsrc : off ≠ src.off := ((hoff c Reg.ctxDivSrc).trans_le (Nat.le_add_right _ _)).ne
  have hcount : off ≠ (Reg.ctxDivCount_count.at c).off := (hoff c _).ne
  rw [State.reg_addFld_other _ _ _ _ hsrc, State.reg_addFld_other _ _ _ _ hcount]

theorem State.reg_divReplay {off : Nat} (hoff : ∀ c o, off < ctxBase c + o) (l : List CtxId) (s : State) : (s.divReplay l).reg off = s.reg off := by
  induction l generalizing s with
  | nil => rfl
  | cons c l ih =>
    unfold State.divReplay
    exact (ih _).trans (State.reg_div hoff s c 3 1)

/-- The count of a port's replays lies among the device's own registers. -/
theorem lnkPortErr_replays_lt (p : PortId) (c : CtxId) (o : Nat) : (Reg.lnkPortErr_replays.port p).off < ctxBase c + o := by
  have h : (Reg.lnkPortErr_replays.port p).off = 0x900118 + 0x40 * p.val := rfl
  have hc := ctxBase_ge c o
  have hp := p.isLt
  omega

/-- A replay: the flits go out in order, the port counts it, and the contexts whose transfers it holds. -/
theorem State.replays {p : PortId} {x : Port} {v : State → State} {l : List CtxId} {o : List Out}
    (hv : ∀ u : State, u.frame [.out] (v u)) (ho : ∀ u : State, (v u).out = u.out ++ o) :
    let t := (v ((s.setPort p x).addFld (Reg.lnkPortErr_replays.port p) 1)).divReplay l
    s.linkOnly t ∧ t.out = s.out ++ o ∧ t.fld (Reg.lnkPortErr_replays.port p) = min 65535 (s.fld (Reg.lnkPortErr_replays.port p) + 1) := by
  intro t
  have hset : s.frame [.link] (s.setPort p x) := (State.frame.refl _ s).setPort
  have hadd : (s.setPort p x).frame [.regs] ((s.setPort p x).addFld (Reg.lnkPortErr_replays.port p) 1) := (State.frame.refl _ _).addFld
  have hv1 := hv ((s.setPort p x).addFld (Reg.lnkPortErr_replays.port p) 1)
  have hdiv : (v ((s.setPort p x).addFld (Reg.lnkPortErr_replays.port p) 1)).frame [.regs] t := (State.frame.refl _ _).divReplay
  refine ⟨.of_frame (((hset.mono (by simp)).trans (hadd.mono (by simp))).trans ((hv1.mono (by simp)).trans (hdiv.mono (by simp)))),
    (hdiv.out_eq.trans (ho _)).trans (congrArg (· ++ o) (hadd.out_eq.trans hset.out_eq)), ?_⟩
  have hreg : t.reg (Reg.lnkPortErr_replays.port p).off =
      ((s.setPort p x).addFld (Reg.lnkPortErr_replays.port p) 1).reg (Reg.lnkPortErr_replays.port p).off :=
    (State.reg_divReplay (lnkPortErr_replays_lt p) l _).trans (State.reg_congr hv1.regs_eq _)
  rw [show t.fld (Reg.lnkPortErr_replays.port p) = ((s.setPort p x).addFld (Reg.lnkPortErr_replays.port p) 1).fld _ from by
    unfold State.fld
    rw [hreg]]
  exact State.fld_addFld_self _ _ 1 (show 32 + 16 ≤ 64 by decide)

/-- The first DNAK of a run, its message taken from those that wait. -/
theorem State.dnak_first {p : PortId} {m : W64} (h : (s.port p).nakRun = 0) :
    let t := (s.updPort p (fun x => { x with inCtl := x.inCtl.erase m })).dnak p m
    (t = { s with link := t.link, regs := t.regs, pwr := t.pwr, out := t.out } ∧ (s.portsOn → t.pwr = s.pwr)) ∧
      t.out = s.out ++ ((s.port p).replay.filter (fun e => laterSeq 65536 ((wBits m 4 16 + 65535) % 65536) e.1)).map
        (fun e => .flit p (encodeDataFlit e.1 e.2)) ∧
      t.fld (Reg.lnkPortErr_replays.port p) = min 65535 (s.fld (Reg.lnkPortErr_replays.port p) + 1) := by
  have hx : (s.updPort p (fun x => { x with inCtl := x.inCtl.erase m })).port p = { s.port p with inCtl := (s.port p).inCtl.erase m } :=
    State.port_updPort_self s p _
  have h1 : s.linkOnly (s.updPort p (fun x => { x with inCtl := x.inCtl.erase m })) := .updPort s p _
  have hreg : (s.updPort p (fun x => { x with inCtl := x.inCtl.erase m })).fld = s.fld := rfl
  have hout1 : (s.updPort p (fun x => { x with inCtl := x.inCtl.erase m })).out = s.out := rfl
  generalize s.updPort p _ = u at *
  intro t
  have ht : t = State.dnak u p m := rfl
  unfold State.dnak at ht
  extract_lets x n run s1 l at ht
  have hrep : x.replay = (s.port p).replay := by rw [show x = _ from hx]
  have hrun : run = 1 := if_neg fun hc => absurd hc.1 (by rw [show x = _ from hx]; simp [h])
  rw [if_neg (by omega)] at ht
  obtain ⟨honly, hout, hcnt⟩ := State.replays (s := u) (p := p) (x := { x with nakSeq := n, nakRun := run }) (v := fun u => u.resendData p l)
    (l := (l.filterMap (fun e => e.2.own)).dedup) (fun u => (State.frame.refl _ u).resendData) fun u => State.out_resendData p _ u
  rw [← ht] at honly hout hcnt
  refine ⟨(h1.trans honly).parts, ?_, hcnt.trans (by rw [hreg])⟩
  rw [hout, hout1, show l = _ from congrArg (List.filter _) hrep]

/-- The first CNAK of a run, its message taken from those that wait. -/
theorem State.cnak_first {p : PortId} {m : W64} (h : (s.port p).cnakRun = 0) :
    let t := (s.updPort p (fun x => { x with inCtl := x.inCtl.erase m })).cnak p m
    (t = { s with link := t.link, regs := t.regs, pwr := t.pwr, out := t.out } ∧ (s.portsOn → t.pwr = s.pwr)) ∧
      t.out = s.out ++ ((s.port p).creplay.filter (fun e => laterSeq 4096 ((wBits m 4 12 + 4095) % 4096) e.1)).map
        (fun e => .flit p (encodeCtlFlit e.1 e.2)) ∧
      t.fld (Reg.lnkPortErr_replays.port p) = min 65535 (s.fld (Reg.lnkPortErr_replays.port p) + 1) := by
  have hx : (s.updPort p (fun x => { x with inCtl := x.inCtl.erase m })).port p = { s.port p with inCtl := (s.port p).inCtl.erase m } :=
    State.port_updPort_self s p _
  have h1 : s.linkOnly (s.updPort p (fun x => { x with inCtl := x.inCtl.erase m })) := .updPort s p _
  have hreg : (s.updPort p (fun x => { x with inCtl := x.inCtl.erase m })).fld = s.fld := rfl
  have hout1 : (s.updPort p (fun x => { x with inCtl := x.inCtl.erase m })).out = s.out := rfl
  generalize s.updPort p _ = u at *
  intro t
  have ht : t = State.cnak u p m := rfl
  unfold State.cnak at ht
  extract_lets x n run s1 from_ at ht
  have hrep : x.creplay = (s.port p).creplay := by rw [show x = _ from hx]
  have hrun : run = 1 := if_neg fun hc => absurd hc.1 (by rw [show x = _ from hx]; simp [h])
  rw [if_neg (by omega)] at ht
  obtain ⟨honly, hout, hcnt⟩ := State.replays (s := u) (p := p) (x := { x with cnakSeq := n, cnakRun := run })
    (v := fun u => u.resendCtl p (x.creplay.filter (fun e => from_ e.1))) (l := ((x.cown.filter (fun e => from_ e.1)).map Prod.snd).dedup)
    (fun u => (State.frame.refl _ u).resendCtl) fun u => State.out_resendCtl p _ u
  rw [← ht] at honly hout hcnt
  refine ⟨(h1.trans honly).parts, ?_, hcnt.trans (by rw [hreg])⟩
  rw [hout, hout1, hrep]

/-- Settles O53. -/
theorem flits : Obligations.Flits := by
  unfold Obligations.Flits
  intro p bytes s hup
  have hact : (s.port p).state = .active := of_decide_eq_true hup
  obtain ⟨hdbad, hdgood⟩ := State.rxDataFlit_active hact bytes
  obtain ⟨hcbad, hcgood⟩ := State.rxCtlFlit_active hact bytes
  intro x d k only
  refine ⟨fun hcrc hnull hseq hgrant => ⟨_, rfl, ?_⟩, fun hcrc => ⟨_, rfl, ?_⟩, fun hcrc hnull hlate => ⟨_, rfl, ?_⟩,
    fun hcrc hnull hseq htypes hack => ⟨_, rfl, ?_⟩, fun hcrc => ⟨_, rfl, ?_⟩, fun m hidle => ?_, fun m hm hrun => ⟨_, rfl, ?_⟩,
    fun m hm hrun => ⟨_, rfl, ?_⟩⟩
  · obtain ⟨hin, -⟩ := hdgood hcrc hnull
    rw [hin hseq]
    obtain ⟨honly, hrx, hmsgs, hpart, hcar⟩ := State.acceptData_takes hact hgrant d.seq
    exact ⟨honly.parts, hrx.trans (by rw [hseq]), hmsgs, hpart, hcar⟩
  · rw [hdbad hcrc]
    obtain ⟨honly, hsent, hcar, hcnt⟩ := State.refuses hact (Reg.lnkPortErr_crcData.port p) (ty := 2) (n := x.rxSeq) (by decide) (by decide) (by decide)
    obtain ⟨-, hrx, -, hmsgs, -, -⟩ := hsent.keeps
    exact ⟨honly.parts, hrx, hmsgs, hcar, hcnt (show 0 + 16 ≤ 64 by decide)⟩
  · obtain ⟨-, hdup⟩ := hdgood hcrc hnull
    rw [hdup hlate]
    exact ⟨((State.frame.refl [.regs] s).addFld).eq_take, State.fld_addFld_self _ _ 1 (show 48 + 8 ≤ 64 by decide)⟩
  · rw [hcgood hcrc hnull hseq]
    obtain ⟨honly, hrx, hin, hcar⟩ := State.acceptCtl_takes hact (fun m hm => ⟨htypes m hm, decodeCtlFlit_typed hm⟩) hack k.seq
    exact ⟨honly.parts, hrx.trans (by rw [hseq]), hin, hcar⟩
  · rw [hcbad hcrc]
    obtain ⟨honly, hsent, hcar, hcnt⟩ := State.refuses hact (Reg.lnkPortErr_crcCtl.port p) (ty := 4) (n := x.rxCseq) (by decide) (by decide) (by decide)
    obtain ⟨-, -, hrx, -, -, hin⟩ := hsent.keeps
    exact ⟨honly.parts, hrx, hin, hcar, hcnt (show 16 + 16 ≤ 64 by decide)⟩
  · intro y n
    refine ⟨fun hm => ⟨_, rfl, ?_⟩, fun hm => ⟨_, rfl, ?_⟩, fun hm => ⟨_, rfl, ?_⟩⟩
    · have hclass := msgClass_of_isType (ty := 1) (by simp) (of_decide_eq_true (State.peekCtl_type hm))
      exact State.takesIn hidle hm hclass (act := fun m s => s.dack p m) (fun _ => rfl) fun _ => ⟨rfl, rfl⟩
    · have hclass := msgClass_of_isType (ty := 3) (by simp) (of_decide_eq_true (State.peekCtl_type hm))
      exact State.takesIn hidle hm hclass (act := fun m s => s.cack p m) (fun _ => rfl) fun _ => ⟨rfl, rfl⟩
    · have hclass := msgClass_of_isType (ty := 5) (by simp) (of_decide_eq_true (State.peekCtl_type hm))
      obtain ⟨honly, hport⟩ := State.takesIn hidle hm hclass (act := fun m s => s.addCredit p m) (fun _ => rfl) fun x => by
        split <;> exact ⟨rfl, rfl⟩
      refine ⟨honly, fun h => ?_, fun h => ?_, fun h => ?_, fun h => ?_⟩ <;>
      · rw [hport, h]
        rfl
  · have hclass := msgClass_of_isType (ty := 2) (by simp) (of_decide_eq_true (State.peekCtl_type hm))
    rw [State.onCtl_plain hm hclass]
    exact State.dnak_first (m := m) hrun
  · have hclass := msgClass_of_isType (ty := 4) (by simp) (of_decide_eq_true (State.peekCtl_type hm))
    rw [State.onCtl_plain hm hclass]
    obtain ⟨hparts, hout, -⟩ := State.cnak_first (s := s) (m := m) hrun
    exact ⟨hparts, hout⟩

end Sys2Proof.Machine
end

section
/-! PROOFS. Counter, time and latency messages. -/

namespace Sys2Proof.Machine

set_option Elab.async false

open Sys2Proof

variable {s t u : State}

/-! ### A send changes the ports of the link state alone -/

/-- Of the link state only the ports change. -/
def State.portsOnly (s t : State) : Prop := t.link = { s.link with ports := t.link.ports }

theorem State.portsOnly.refl (s : State) : s.portsOnly s := rfl

theorem State.portsOnly.trans (h : s.portsOnly t) (k : t.portsOnly u) : s.portsOnly u := by
  unfold State.portsOnly at *
  rw [k, h]

theorem State.portsOnly_wakePort (s : State) (d : Nat) : s.portsOnly (s.wakePort d) := by
  unfold State.wakePort
  extract_lets p
  split <;> rfl

theorem State.portsOnly_wakeDom (s : State) (d : Nat) : s.portsOnly (s.wakeDom d) := by
  unfold State.wakeDom
  split
  · rfl
  · exact State.portsOnly.trans rfl (State.portsOnly_wakePort _ d)
  · split
    · rfl
    · exact State.portsOnly.trans rfl (State.portsOnly_wakePort _ d)
  · rfl

theorem State.portsOnly_pumpCtl (p : PortId) : ∀ (fuel : Nat) (s : State), s.portsOnly (s.pumpCtl p fuel)
  | 0, s => .refl s
  | fuel + 1, s => by
    unfold State.pumpCtl
    extract_lets x r msgs
    split
    · exact .refl s
    split
    · exact .refl s
    exact State.portsOnly.trans rfl (State.portsOnly_pumpCtl p fuel _)

theorem State.portsOnly_sendCtl (s : State) (p : PortId) (m : W64) : s.portsOnly (s.sendCtl p m) := by
  unfold State.sendCtl
  extract_lets s1
  exact ((State.portsOnly_wakeDom s _).trans (State.portsOnly.refl _ : State.portsOnly (s.wakeDom (108 + p.val)) s1)).trans (State.portsOnly_pumpCtl p _ s1)

theorem State.portsOnly_sendCtlAll (m : W64) : ∀ (ps : List PortId) (s : State), s.portsOnly (s.sendCtlAll m ps)
  | [], s => .refl s
  | p :: l, s => (State.portsOnly_sendCtl s p m).trans (State.portsOnly_sendCtlAll m l _)

/-! ### System counters -/

/-- Only links, system counters, contexts and what leaves the device change, and with every port's domain on no domain. -/
def State.sysOnly (s t : State) : Prop :=
  t = { s with link := t.link, sysCnt := t.sysCnt, ctxs := t.ctxs, pwr := t.pwr, out := t.out } ∧ (s.portsOn → t.pwr = s.pwr)

theorem State.sysOnly.trans (h : s.sysOnly t) (k : t.sysOnly u) : s.sysOnly u := by
  obtain ⟨hst, hp⟩ := h
  obtain ⟨kst, kp⟩ := k
  refine ⟨by rw [kst, hst], fun hon => ?_⟩
  have hpwr := hp hon
  exact (kp fun q => by rw [State.dom, hpwr]; exact hon q).trans hpwr

theorem State.sysOnly.of_sent (h : s.sent t) : s.sysOnly t := by
  obtain ⟨hst, hp⟩ := h
  exact ⟨by rw [hst], hp⟩

theorem State.sysOnly_updPort (s : State) (p : PortId) (f : Port → Port) : s.sysOnly (s.updPort p f) := ⟨rfl, fun _ => rfl⟩

theorem State.sysOnly_setSys (s : State) (n : Nat) (v : BitVec 32) : s.sysOnly (s.setSys n v) :=
  State.sysOnly.trans (t := s.storeSys n v) ⟨rfl, fun _ => rfl⟩ (.of_sent (s.sent_setSys n v))

/-- The counter that is set, and the others. -/
theorem State.sysCnt_setSys_get (s : State) (n : Nat) (v : BitVec 32) :
    SMap.get 0 (s.setSys n v).sysCnt n = v ∧ ∀ k, k ≠ n → SMap.get 0 (s.setSys n v).sysCnt k = SMap.get 0 s.sysCnt k := by
  rw [State.sysCnt_setSys]
  exact ⟨SMap.get_put_self _ _ _ _, fun k hk => SMap.get_put_other _ _ _ hk⟩

theorem State.moonFormed_parts (s : State) : s.sent s.moonFormed ∧ s.moonFormed.link.syncGot = s.link.syncGot := by
  unfold State.moonFormed
  split
  · exact ⟨⟨rfl, fun _ => rfl⟩, rfl⟩
  · exact ⟨⟨rfl, fun _ => rfl⟩, rfl⟩

/-- The bit of a counter that is set in a mask. -/
theorem getLsbD_or_ofNat {n : Nat} (h : n < 256) (x : BitVec 256) : (x ||| BitVec.ofNat 256 (2 ^ n)).getLsbD n = true := by
  rw [BitVec.getLsbD_or, BitVec.getLsbD_ofNat, Nat.testBit_two_pow_self]
  simp [h]

/-- A SYNC_VAL at a Moon: its copy is set, counts as received, and is passed on. -/
theorem State.syncVal'_sets (s : State) (m : W64) :
    s.sysOnly (s.syncVal' m) ∧ SMap.get 0 (s.syncVal' m).sysCnt (wBits m 4 8) = BitVec.ofNat 32 (wBits m 12 32) ∧
      (s.syncVal' m).link.syncGot.getLsbD (wBits m 4 8) = true ∧
      ∀ k, k ≠ wBits m 4 8 → SMap.get 0 (s.syncVal' m).sysCnt k = SMap.get 0 s.sysCnt k := by
  have hlt : wBits m 4 8 < 256 := Nat.mod_lt _ (by decide)
  unfold State.syncVal'
  extract_lets n v s1 src s2
  obtain ⟨hself, hother⟩ := s.sysCnt_setSys_get n v
  have h1 : s.sysOnly s1 := s.sysOnly_setSys n v
  have hcnt2 : s2.sysCnt = s1.sysCnt := rfl
  have hgot2 : s2.link.syncGot.getLsbD n = true := getLsbD_or_ofNat hlt _
  have h2 : s1.sysOnly s2 := ⟨rfl, fun _ => rfl⟩
  clear_value s2
  have hall := State.sent_sendCtlAll s2 (syncValMsg n v) s2.downstream
  have hlink : s2.portsOnly (s2.sendCtlAll (syncValMsg n v) s2.downstream) := State.portsOnly_sendCtlAll _ _ s2
  obtain ⟨hformed, hgot⟩ := (s2.sendCtlAll (syncValMsg n v) s2.downstream).moonFormed_parts
  have hsys : ((s2.sendCtlAll (syncValMsg n v) s2.downstream).moonFormed).sysCnt = s1.sysCnt := by
    rw [hformed.1, hall.1, hcnt2]
  refine ⟨(h1.trans h2).trans ((State.sysOnly.of_sent hall).trans (.of_sent hformed)), by rw [hsys]; exact hself, ?_, fun k hk => by rw [hsys]; exact hother k hk⟩
  rw [hgot, hlink]
  exact hgot2

/-! ### TIME messages -/

/-- An event of the link is recorded; its message is all that may follow. -/
theorem State.linkEvent_parts (s : State) (bit : Nat) :
    (s.linkEvent bit).regs = (s.setReg Reg.lnkEvent (s.reg Reg.lnkEvent ||| BitVec.ofNat 64 (2 ^ bit))).regs ∧
      (s.dom epDom = .on → (s.linkEvent bit).pwr = s.pwr) := by
  unfold State.linkEvent
  extract_lets s1
  split
  · exact ⟨by rw [State.sendMsix_eq], fun h => by rw [State.sendMsix_on (s := s1) h]; rfl⟩
  · exact ⟨rfl, fun _ => rfl⟩

/-- The offset of a TIME message is that of device time and of the port's latency. -/
theorem State.timeOffset_congr {p : PortId} (htime : t.time = s.time) (hlat : (t.port p).latPs = (s.port p).latPs) (m : W64) :
    t.timeOffset p m = s.timeOffset p m := by
  unfold State.timeOffset
  rw [htime, hlat]

/-- A small offset of a TIME message is slewed. -/
theorem State.timeAct_slews {off : Int} (hsmall : off.natAbs ≤ 1000 * 2 ^ 32) (hfirst : s.time.firstTime = false) :
    ∃ x, s.timeAct off = { s with time := x } ∧ x.fine = s.time.fine ∧ x.slew = off ∧ x.holdover = false := by
  unfold State.timeAct
  extract_lets a ns t good u src s1
  rw [if_neg (by
    rintro (h | h)
    · exact absurd h (Nat.not_lt.mpr hsmall)
    · exact absurd (hfirst.symm.trans h) (by decide))]
  exact ⟨_, rfl, rfl, rfl, rfl⟩

/-- A large one steps the time. -/
theorem State.timeAct_steps {off : Int} (hbig : 1000 * 2 ^ 32 < off.natAbs) :
    s.frame [.time, .regs, .pcie, .pwr, .link, .out] (s.timeAct off) ∧ (s.dom epDom = .on → (s.timeAct off).pwr = s.pwr) ∧
      (s.timeAct off).time.slew = 0 ∧ (s.timeAct off).time.locked = false ∧ (s.timeAct off).time.fine = (s.time.fine + off) % 2 ^ 96 ∧
      (s.timeAct off).fld Reg.timeStatus_steps = min 65535 (s.fld Reg.timeStatus_steps + 1) ∧
      ((s.timeAct off).reg Reg.lnkEvent).getLsbD 12 = true := by
  refine ⟨((State.frame.refl [.time, .regs, .pcie, .pwr, .link, .out] s).timeAct), ?_⟩
  unfold State.timeAct
  extract_lets a ns t good u src s1
  rw [if_pos (.inl hbig)]
  obtain ⟨hregs, hpwr⟩ := (s1.addFld Reg.timeStatus_steps 1).linkEvent_parts 12
  have htime : ((s1.addFld Reg.timeStatus_steps 1).linkEvent 12).time = s1.time := by rw [State.linkEvent_eq]; rfl
  have hlocked : u.locked = false := if_pos (show 2 * ns < a by
    have h : 1000 * ns < a := hbig
    omega)
  refine ⟨hpwr, ?_, ?_, ?_, ?_, ?_⟩
  · rw [htime]
  · rw [htime]
    exact hlocked
  · rw [htime]
    exact TimeSt.fine_setFine u (u.fine + off)
  · rw [State.fld_congr (t := ((s1.addFld Reg.timeStatus_steps 1).linkEvent 12)) hregs, State.fld, State.reg_setReg_other _ _ (by decide)]
    exact State.fld_addFld_self s1 Reg.timeStatus_steps 1 (by decide)
  · rw [State.reg_congr (t := ((s1.addFld Reg.timeStatus_steps 1).linkEvent 12)) hregs, State.reg_setReg_self, BitVec.getLsbD_or, BitVec.getLsbD_ofNat,
      Nat.testBit_two_pow_self]
    simp

/-! ### TIME goes out -/

/-- What a flit's message of the device's own time is: that of the moment it leaves. -/
theorem State.carries_pumpCtl_time {p : PortId} : ∀ (fuel : Nat) {s : State} {m : W64}, s.timeMsg = m → s.carries p m → (s.pumpCtl p fuel).carries p m
  | 0, _, _, _, h => h
  | fuel + 1, s, m, hm, h => by
    have hat : s.atSend m = m := by
      unfold State.atSend
      split
      · exact hm
      · rfl
    simp only [State.pumpCtl]
    split
    · exact h
    · split
      · exact h
      · refine State.carries_pumpCtl_time fuel hm ?_
        simp only [State.carries, State.port_emit, State.port_setPort_self, Port.sentCtl, Port.creplay_fillCtl]
        rcases h with hq | ⟨e, he, hin⟩
        · rcases Port.mem_fillCtl 3 hq with hsent | hleft
          · exact .inr ⟨_, List.mem_append_right _ (List.mem_singleton_self _), List.mem_map.mpr ⟨m, hsent, hat⟩⟩
          · exact .inl hleft
        · exact .inr ⟨e, List.mem_append_left _ he, hin⟩

theorem State.timeMsg_sendCtl (s : State) (p : PortId) (m : W64) : (s.sendCtl p m).timeMsg = s.timeMsg := by rw [State.sendCtl_eq]; rfl

theorem State.carries_sendCtl_time (s : State) (p : PortId) : (s.sendCtl p s.timeMsg).carries p s.timeMsg := by
  have h6 : msgType s.timeMsg ≠ 6 := by
    rw [State.timeMsg, msgType_ctlMsg (by decide) _ (by simp)]
    decide
  unfold State.sendCtl
  extract_lets s1
  have htime : s1.timeMsg = s.timeMsg := by
    show (s.wakeDom (108 + p.val)).timeMsg = s.timeMsg
    rw [State.wakeDom_eq]
    rfl
  refine State.carries_pumpCtl_time _ htime (.inl ?_)
  rw [State.port_updPort_self]
  exact mem_queueCtl_self _ h6

theorem State.carries_sendCtlAll_time {q : PortId} {m : W64} (ps : List PortId) {s : State} (hm : s.timeMsg = m) (h : q ∈ ps) :
    (s.sendCtlAll m ps).carries q m := by
  induction ps generalizing s with
  | nil => cases h
  | cons p l ih =>
    rw [State.sendCtlAll]
    by_cases hl : q ∈ l
    · exact ih ((s.timeMsg_sendCtl p m).trans hm) hl
    · obtain rfl := (List.mem_cons.mp h).resolve_right hl
      rw [State.carries, State.port_sendCtlAll_other m l _ hl, ← hm]
      exact s.carries_sendCtl_time q

/-! ### The messages -/

/-- A message of a type that needs no credit is taken from its queue and acted on. -/
theorem State.onCtl_takes {p : PortId} {f : W64 → Bool} {act : W64 → State → State} {m : W64} {ty : Nat} (hm : s.peekCtl p f = some m)
    (hty : ty = 1 ∨ ty = 2 ∨ ty = 3 ∨ ty = 4 ∨ ty = 5 ∨ ty = 6 ∨ ty = 7 ∨ ty = 8 ∨ ty = 9) (htype : isType ty m = true) :
    s.onCtl p f act = act m (s.updPort p (fun x => { x with inCtl := x.inCtl.erase m })) :=
  State.onCtl_plain hm (msgClass_of_isType hty (of_decide_eq_true htype))

/-- A TIME message from the upstream acts on device time by its offset. -/
theorem State.execTime_acts {p : PortId} {m : W64} (hmoon : s.isMoon = true) (hup : s.upstream = some p) (hm : s.peekCtl p (isType 8) = some m) :
    exec (.time p) s = .next ((s.updPort p (fun x => { x with inCtl := x.inCtl.erase m })).timeAct (s.timeOffset p m)) := by
  have hoff : (s.updPort p (fun x => { x with inCtl := x.inCtl.erase m })).timeOffset p m = s.timeOffset p m := by
    have hport := State.port_updPort_self s p (fun x => { x with inCtl := x.inCtl.erase m })
    exact State.timeOffset_congr (s := s) (p := p) (t := s.updPort p (fun x => { x with inCtl := x.inCtl.erase m })) rfl (by rw [hport]) m
  show Host.Outcome.next (s.onCtl p (isType 8) _) = _
  rw [State.onCtl_takes hm (ty := 8) (by simp) (State.peekCtl_type hm), hoff,
    if_pos (show (s.updPort p (fun x => { x with inCtl := x.inCtl.erase m })).isMoon = true ∧
      (s.updPort p (fun x => { x with inCtl := x.inCtl.erase m })).upstream = some p from ⟨hmoon, hup⟩)]

/-- A TIME message with a small offset, and one with a large one. -/
theorem State.time_acts {p : PortId} {m : W64} {off : Int}
    (hstep : exec (.time p) s = .next ((s.updPort p (fun x => { x with inCtl := x.inCtl.erase m })).timeAct off)) (hfirst : s.time.firstTime = false) :
    (off.natAbs ≤ 1000 * 2 ^ 32 → ∃ t, exec (.time p) s = .next t ∧ t = { s with link := t.link, time := t.time } ∧ t.time.fine = s.time.fine ∧
      t.time.slew = off ∧ t.time.holdover = false) ∧
    (1000 * 2 ^ 32 < off.natAbs → ∃ t, exec (.time p) s = .next t ∧
      t = { s with link := t.link, time := t.time, regs := t.regs, pcie := t.pcie, pwr := t.pwr, out := t.out } ∧
      (s.dom epDom = .on → t.pwr = s.pwr) ∧ t.time.slew = 0 ∧ t.time.locked = false ∧ t.time.fine = (s.time.fine + off) % 2 ^ 96 ∧
      t.fld Reg.timeStatus_steps = min 65535 (s.fld Reg.timeStatus_steps + 1) ∧ (t.reg Reg.lnkEvent).getLsbD 12 = true) := by
  refine ⟨fun hsmall => ⟨_, hstep, ?_⟩, fun hbig => ⟨_, hstep, ?_⟩⟩
  · obtain ⟨x, hx, hfine, hslew, hhold⟩ := State.timeAct_slews (s := s.updPort p (fun x => { x with inCtl := x.inCtl.erase m })) hsmall hfirst
    rw [hx]
    exact ⟨rfl, hfine, hslew, hhold⟩
  · obtain ⟨hf, hpwr, hslew, hlocked, hfine, hsteps, hev⟩ :=
      State.timeAct_steps (s := s.updPort p (fun x => { x with inCtl := x.inCtl.erase m })) hbig
    exact ⟨(((State.frame.refl [.time, .regs, .pcie, .pwr, .link, .out] s).updPort).trans hf).eq_take, hpwr, hslew, hlocked, hfine, hsteps, hev⟩

/-- Settles O54. -/
theorem systemMessages : Obligations.SystemMessages := by
  unfold Obligations.SystemMessages
  intro p m s counted
  refine ⟨fun hplanet hm => ⟨_, rfl, ?_⟩, fun hmoon hserves hup hm => ⟨_, rfl, ?_⟩, fun hmoon hup hm hfirst => ?_, ?_, fun hmoon => ?_,
    fun turn hm => ⟨_, rfl, ?_⟩, fun ui hm hdone => ⟨_, rfl, ?_⟩⟩
  · have hmoon : s.isMoon = false := by
      have h1 : s.link.role = 1 := of_decide_eq_true hplanet
      simp [State.isMoon, h1]
    have hpath : s.noPath = false := by simp [State.noPath, hmoon]
    have htype := State.peekCtl_type hm
    unfold State.syncInc
    rw [if_neg (by simp [hpath]), State.onCtl_takes hm (ty := 6) (by simp) htype]
    unfold State.sysAdd
    rw [if_neg (by
      show ¬ s.isMoon = true
      simp [hmoon])]
    obtain ⟨hself, hother⟩ := State.sysCnt_setSys_get (s.updPort p (fun x => { x with inCtl := x.inCtl.erase m })) (wBits m 4 8)
      (SMap.get 0 s.sysCnt (wBits m 4 8) + BitVec.ofNat 32 (wBits m 12 32))
    exact ⟨(s.sysOnly_updPort p _).trans (State.sysOnly_setSys _ _ _), hself, hother⟩
  · rw [State.onCtl_takes hm (ty := 7) (by simp) (State.peekCtl_type hm)]
    rw [if_pos (show (s.updPort p (fun x => { x with inCtl := x.inCtl.erase m })).isMoon = true ∧
      (s.updPort p (fun x => { x with inCtl := x.inCtl.erase m })).serves = true ∧
      (s.updPort p (fun x => { x with inCtl := x.inCtl.erase m })).upstream = some p from ⟨hmoon, hserves, hup⟩)]
    obtain ⟨hst, hself, hgot, hother⟩ := State.syncVal'_sets (s.updPort p (fun x => { x with inCtl := x.inCtl.erase m })) m
    exact ⟨(s.sysOnly_updPort p _).trans hst, hself, hgot, hother⟩
  · exact State.time_acts (State.execTime_acts hmoon hup hm) hfirst
  · intro sends
    exact ⟨fun h => ⟨_, congrArg Host.Outcome.next (if_pos h), State.sent_sendCtlAll s _ _, fun q hq => State.carries_sendCtlAll_time _ rfl hq⟩,
      fun h => congrArg Host.Outcome.next (if_neg h)⟩
  · exact congrArg Host.Outcome.next (if_pos hmoon)
  · have htype := (Bool.and_eq_true _ _ ▸ State.peekCtl_type hm : _ ∧ _).1
    rw [State.onCtl_takes hm (ty := 9) (by simp) htype]
    have h9 : msgType (ctlMsg 9 [(4, 1), (6, wBits m 6 8), (14, turn.toNat)]) = 9 := msgType_ctlMsg (by decide) _ (by simp)
    refine ⟨?_, State.carries_sendCtl_self _ p (by rw [h9]; decide) (by rw [h9]; decide)⟩
    exact State.sent_sendCtlAll (s.updPort p (fun x => { x with inCtl := x.inCtl.erase m })) _ [p]
  · have htype := (Bool.and_eq_true _ _ ▸ State.peekCtl_type hm : _ ∧ _).1
    rw [State.onCtl_takes hm (ty := 9) (by simp) htype]
    refine ⟨rfl, ?_⟩
    rw [State.port_updPort_self, State.port_updPort_self, if_pos hdone]

end Sys2Proof.Machine
end

section
/-! PROOFS. The completion of a command. -/

namespace Sys2Proof.Machine

set_option Elab.async false

open Sys2Proof

variable {s t u : State}

/-! ### What the end of a command leaves as it is -/

/-- Host memory, the ring of context c and what the end of a command looks at stay as they are. -/
structure State.ringKept (c : CtxId) (s t : State) : Prop where
  mem : t.mem = s.mem
  hostMem : t.hostMem = s.hostMem
  running : t.running = s.running
  stall : t.pwr.stall = s.pwr.stall
  missing : t.link.missing = s.link.missing
  flrWait : t.pcie.flrWait = s.pcie.flrWait
  tail : (t.ctx c).cqTail = (s.ctx c).cqTail
  lap : (t.ctx c).cqLap = (s.ctx c).cqLap

theorem State.ringKept.refl (c : CtxId) (s : State) : State.ringKept c s s := ⟨rfl, rfl, rfl, rfl, rfl, rfl, rfl, rfl⟩

theorem State.ringKept.trans {c : CtxId} (h : State.ringKept c s t) (k : State.ringKept c t u) : State.ringKept c s u :=
  ⟨k.mem.trans h.mem, k.hostMem.trans h.hostMem, k.running.trans h.running, k.stall.trans h.stall, k.missing.trans h.missing,
    k.flrWait.trans h.flrWait, k.tail.trans h.tail, k.lap.trans h.lap⟩

theorem State.ringKept.of_frame {c : CtxId} (h : s.frame [.regs, .deposits, .armings, .orphans, .models, .blks, .tsets] t) :
    State.ringKept c s t ∧ ∀ n, t.syncVal c n = s.syncVal c n := by
  have hctx : t.ctx c = s.ctx c := by rw [State.ctx, h.ctxs_eq]; rfl
  exact ⟨⟨h.mem_eq, h.hostMem_eq, h.running_eq, by rw [h.pwr_eq], by rw [h.link_eq], by rw [h.pcie_eq],
    by rw [hctx], by rw [hctx]⟩, fun n => by rw [State.syncVal, hctx]; rfl⟩

theorem State.ringKept.updCtx {c : CtxId} (s : State) {f : Ctx → Ctx} (hf : ∀ x, (f x).cqTail = x.cqTail ∧ (f x).cqLap = x.cqLap) :
    State.ringKept c s (s.updCtx c f) :=
  ⟨rfl, rfl, rfl, rfl, rfl, rfl, by rw [State.ctx_updCtx_self, (hf _).1], by rw [State.ctx_updCtx_self, (hf _).2]⟩

theorem State.ringKept.release {c : CtxId} (s : State) : State.ringKept c s s.release :=
  ⟨rfl, rfl, rfl, rfl, rfl, rfl, by rw [State.ctx_release], by rw [State.ctx_release]⟩

theorem State.syncVal_updCtx {c : CtxId} (s : State) {f : Ctx → Ctx} (hf : ∀ x, (f x).sync = x.sync) (n : Nat) :
    (s.updCtx c f).syncVal c n = s.syncVal c n := by
  rw [State.syncVal, State.ctx_updCtx_self, hf]
  rfl

theorem State.sendMsix_ringKept (c : CtxId) (s : State) (fn : Fin 16) (v : Nat) :
    State.ringKept c s (s.sendMsix fn v) ∧ ∀ n, (s.sendMsix fn v).syncVal c n = s.syncVal c n := by
  have hflr : (s.sendMsix fn v).pcie.flrWait = s.pcie.flrWait := by
    unfold State.sendMsix
    split
    · rfl
    split
    · rfl
    split
    · rfl
    · rw [State.pcie_wakeDom]
  obtain ⟨pcie, out, doms, h⟩ := s.sendMsix_parts fn v
  rw [h] at hflr ⊢
  exact ⟨⟨rfl, rfl, rfl, rfl, rfl, hflr, rfl, rfl⟩, fun _ => rfl⟩

theorem State.countIrq_ringKept (c : CtxId) (s : State) (irq : Bool) :
    State.ringKept c s (s.countIrq c irq) ∧ ∀ n, (s.countIrq c irq).syncVal c n = s.syncVal c n := by
  unfold State.countIrq
  split
  · extract_lets n s1
    have h1 : State.ringKept c s s1 := .updCtx s fun _ => ⟨rfl, rfl⟩
    have k1 : ∀ n, s1.syncVal c n = s.syncVal c n := State.syncVal_updCtx s fun _ => rfl
    split
    · unfold State.cqMessage
      have h2 : State.ringKept c s1 (s1.updCtx c (fun x => { x with irqPending := 0 })) := .updCtx s1 fun _ => ⟨rfl, rfl⟩
      have k2 := fun n => State.syncVal_updCtx (c := c) s1 (f := fun x => { x with irqPending := 0 }) (fun _ => rfl) n
      obtain ⟨h3, k3⟩ := State.sendMsix_ringKept c (s1.updCtx c (fun x => { x with irqPending := 0 })) (s1.owner c)
        (s1.fld (Reg.ctxCqIrq_vector.at c))
      exact ⟨(h1.trans h2).trans h3, fun n => (k3 n).trans ((k2 n).trans (k1 n))⟩
    · exact ⟨h1, k1⟩
  · exact ⟨.refl c s, fun _ => rfl⟩

/-! ### The signals of a command that signals no system counter -/

theorem State.setSync_ringKept (s : State) (c : CtxId) (n : Nat) (v : BitVec 32) : State.ringKept c s (s.setSync c n v) := by
  unfold State.setSync
  exact (State.ringKept.updCtx s (f := fun x => { x with sync := SMap.put 0 x.sync n v }) fun _ => ⟨rfl, rfl⟩).trans (.release _)

/-- One signal: the counter it names rises by its increment. -/
theorem State.signalOne_counts {c : CtxId} {e : Entry} {k : Nat} (sys : Bool) (h : e.sigInc k = 0 ∨ e.sigSys k = false) :
    State.ringKept c s (s.signalOne c e sys k) ∧
      (s.signalOne c e sys k).syncVal c (e.sigIdx k) = s.syncVal c (e.sigIdx k) + BitVec.ofNat 32 (e.sigInc k) := by
  unfold State.signalOne
  by_cases hinc : e.sigInc k = 0
  · rw [if_pos hinc, hinc]
    exact ⟨.refl c s, (BitVec.add_zero _).symm⟩
  · rw [if_neg hinc, if_neg (by simp [h.resolve_left hinc])]
    exact ⟨State.setSync_ringKept s c _ _, State.syncVal_setSync_self _ _ _ _⟩

theorem Entry.signalsSys_false {e : Entry} (h : e.signalsSys = false) :
    (e.sigInc 0 = 0 ∨ e.sigSys 0 = false) ∧ (e.sigInc 1 = 0 ∨ e.sigSys 1 = false) := by
  simp only [Entry.signalsSys, Bool.or_eq_false_iff, Bool.and_eq_false_iff, decide_eq_false_iff_not, ne_eq, not_not] at h
  exact ⟨h.1.symm, h.2.symm⟩

theorem State.signal_counts {c : CtxId} {e : Entry} (sys : Bool) (h : e.signalsSys = false) :
    State.ringKept c s (s.signal c e sys) ∧
      (e.sigInc 1 = 0 → (s.signal c e sys).syncVal c (e.sigIdx 0) = s.syncVal c (e.sigIdx 0) + BitVec.ofNat 32 (e.sigInc 0)) := by
  obtain ⟨hk0, hk1⟩ := Entry.signalsSys_false h
  obtain ⟨h0, c0⟩ := State.signalOne_counts (s := s) (c := c) sys hk0
  obtain ⟨h1, c1⟩ := State.signalOne_counts (s := s.signalOne c e sys 0) (c := c) sys hk1
  unfold State.signal
  extract_lets s1
  have hs1 : State.ringKept c s s1 := h0.trans h1
  have hc1 : e.sigInc 1 = 0 → s1.syncVal c (e.sigIdx 0) = s.syncVal c (e.sigIdx 0) + BitVec.ofNat 32 (e.sigInc 0) := fun hz => by
    rw [show s1 = s.signalOne c e sys 0 from by
      show State.signalOne _ c e sys 1 = _
      rw [State.signalOne, if_pos hz]]
    exact c0
  split
  · obtain ⟨h2, k2⟩ := State.ringKept.of_frame (c := c) (((State.frame.refl [.regs] s1).setReg
      (off := ctxBase c + Reg.ctxStep) (v := s1.reg (ctxBase c + Reg.ctxStep) + 1)).mono (by simp))
    exact ⟨hs1.trans h2, fun hz => (k2 _).trans (hc1 hz)⟩
  · exact ⟨hs1, hc1⟩

/-! ### The record, and what follows it -/

/-- The record that waits is written where there is room and host memory is within reach, and counts toward the ring's message. -/
theorem State.cqFlush_writes {c : CtxId} {r : CplRec} (hbuf : (s.ctx c).cbuf = [r]) (hfull : s.cqFull c = false) (hup : s.hostUp = true) :
    s.cqFlush c 1 = (s.cqWritten c r).countIrq c r.irq := by
  have hctx : (s.updCtx c (fun x => { x with cbuf := [] })).ctx c = { s.ctx c with cbuf := [] } := State.ctx_updCtx_self _ _ _
  rw [State.cqFlush, hbuf]
  dsimp only
  rw [hfull, hup]
  simp only [Bool.false_eq_true, Bool.not_true, if_false, State.cqFlush]
  simp only [State.cqWrite, hctx]
  rfl

/-- What follows the record of an ending command: the window of tags, the counts, its request, and the heads that waited for its tag. -/
theorem State.recheck_ringKept (c : CtxId) (s : State) : State.ringKept c s (s.recheck c) ∧ ∀ n, (s.recheck c).syncVal c n = s.syncVal c n :=
  ⟨.updCtx s fun _ => ⟨rfl, rfl⟩, State.syncVal_updCtx s fun _ => rfl⟩

theorem State.enterWindow_ringKept (c : CtxId) (s : State) (d : DupEntry) :
    State.ringKept c s (s.enterWindow c d) ∧ ∀ n, (s.enterWindow c d).syncVal c n = s.syncVal c n := by
  unfold State.enterWindow
  split
  · exact ⟨.refl c s, fun _ => rfl⟩
  · exact ⟨.updCtx s fun _ => ⟨rfl, rfl⟩, State.syncVal_updCtx s fun _ => rfl⟩

theorem State.unadmit_ringKept (c : CtxId) (s : State) (num n : Nat) (ends : Bool) :
    State.ringKept c s (s.unadmit c num n ends) ∧ ∀ k, (s.unadmit c num n ends).syncVal c k = s.syncVal c k := by
  unfold State.unadmit
  generalize hv : s.updCtx c _ = v
  have h1 : State.ringKept c s v := by rw [← hv]; exact .updCtx s fun _ => ⟨rfl, rfl⟩
  have k1 : ∀ n, v.syncVal c n = s.syncVal c n := by rw [← hv]; exact State.syncVal_updCtx s fun _ => rfl
  obtain ⟨h2, k2⟩ := State.ringKept.of_frame (c := c) (((State.frame.refl [.orphans, .models, .blks, .tsets] v).drainSlots).mono (by simp))
  exact ⟨h1.trans h2, fun n => (k2 n).trans (k1 n)⟩

theorem State.addFld_ringKept (c : CtxId) (s : State) (f : Fld) (n : Nat) :
    State.ringKept c s (s.addFld f n) ∧ ∀ k, (s.addFld f n).syncVal c k = s.syncVal c k :=
  State.ringKept.of_frame (((State.frame.refl [.regs] s).addFld).mono (by simp))

/-- The ring's part stays, and so do the context's counters. -/
def State.settles (c : CtxId) (s t : State) : Prop := State.ringKept c s t ∧ ∀ n, t.syncVal c n = s.syncVal c n

theorem State.settles.trans {c : CtxId} (h : State.settles c s t) (k : State.settles c t u) : State.settles c s u := by
  obtain ⟨hr, hs⟩ := h
  obtain ⟨kr, ks⟩ := k
  exact ⟨hr.trans kr, fun n => (ks n).trans (hs n)⟩

theorem State.settles.ite {c : CtxId} {p : Prop} [Decidable p] (h : State.settles c s t) : State.settles c s (if p then t else s) := by
  split
  · exact h
  · exact ⟨.refl c s, fun _ => rfl⟩

/-- A command that signals no system counter places no system signal. -/
theorem State.signalSys_none {e : Entry} (c : CtxId) (h : e.signalsSys = false) : s.signalSys c e = s := by
  have hone : ∀ (v : State) (k : Nat), e.sigInc k = 0 ∨ e.sigSys k = false → (if e.sigSys k then v.signalOne c e true k else v) = v := fun v k hk => by
    rcases hk with hinc | hsys
    · rw [State.signalOne, if_pos hinc, ite_self]
    · rw [hsys, if_neg Bool.false_ne_true]
  obtain ⟨h0, h1⟩ := Entry.signalsSys_false h
  unfold State.signalSys
  extract_lets one
  exact (congrArg (fun v => one v 1) (hone s 0 h0)).trans (hone s 1 h1)

/-- The record joins those that wait. -/
def State.posted (s : State) (c : CtxId) (r : CplRec) : State := s.updCtx c (fun x => { x with cbuf := x.cbuf ++ [r] })

theorem State.ctx_posted {c : CtxId} (h : (s.ctx c).cbuf = []) (r : CplRec) : (s.posted c r).ctx c = { s.ctx c with cbuf := [r] } := by
  rw [State.posted, State.ctx_updCtx_self, h]
  rfl

/-- How a command ends that signals no system counter, with room in its ring and host memory within reach. -/
theorem State.finish_records {c : CtxId} {m : Ending} (hlost : m.lost = false) (hsig : m.signals = true) (hsys : m.words.signalsSys = false)
    (hbuf : (s.ctx c).cbuf = []) (hfull : s.cqFull c = false) (hup : s.hostUp = true) :
    State.ringKept c ((s.posted c (s.recordOf m)).cqWritten c (s.recordOf m)) (s.finish c m) ∧
      (m.words.sigInc 1 = 0 → (s.finish c m).syncVal c (m.words.sigIdx 0) = s.syncVal c (m.words.sigIdx 0) + BitVec.ofNat 32 (m.words.sigInc 0)) := by
  have hsettle : m.settle s.link.upPort = m := by
    unfold Ending.settle
    rw [if_neg (by simp [hlost])]
  have hctx := State.ctx_posted hbuf (s.recordOf m)
  have hpost : s.cqPost c (s.recordOf m) = ((s.posted c (s.recordOf m)).cqWritten c (s.recordOf m)).countIrq c (s.recordOf m).irq := by
    unfold State.cqPost
    change (s.posted c (s.recordOf m)).cqFlush c ((s.posted c (s.recordOf m)).ctx c).cbuf.length = _
    have hused : (s.posted c (s.recordOf m)).cqFull c = s.cqFull c := by
      unfold State.cqFull State.cqUsed
      rw [hctx]
      rfl
    rw [hctx]
    exact State.cqFlush_writes (by rw [hctx]) (hused.trans hfull) hup
  unfold State.finish
  rw [hsettle]
  extract_lets n s1 s2 s3 s4 d s5 s6 s7 s8
  have hs2 : s2 = s := by
    have hs1 : s1 = s := if_neg (by simp [n, hlost])
    show (if _ then s1.signalSys c m.words else s1) = s
    rw [hs1, State.signalSys_none c hsys, ite_self]
  have hsync3 : ((s.posted c (s.recordOf m)).cqWritten c (s.recordOf m)).syncVal c = s.syncVal c := by
    funext k
    unfold State.syncVal
    rw [State.ctx_cqWritten, hctx]
  obtain ⟨h3, k3⟩ := State.countIrq_ringKept c ((s.posted c (s.recordOf m)).cqWritten c (s.recordOf m)) (s.recordOf m).irq
  have hs3 : s3 = ((s.posted c (s.recordOf m)).cqWritten c (s.recordOf m)).countIrq c (s.recordOf m).irq := by
    show s2.cqPost c (s.recordOf m) = _
    rw [hs2, hpost]
  rw [← hs3] at h3 k3
  obtain ⟨h4, k4⟩ := State.signal_counts (s := s3) (c := c) (!m.lost && !s.isMoon) hsys
  have hs4 : s4 = s3.signal c m.words (!m.lost && !s.isMoon) := if_pos hsig
  rw [← hs4] at h4 k4
  have h5 : State.settles c s4 s5 := State.settles.ite (State.enterWindow_ringKept c s4 d)
  have h6 : State.settles c s5 s6 := State.settles.ite (State.addFld_ringKept c s5 _ 1)
  have h7 : State.settles c s6 s7 := State.settles.ite (State.addFld_ringKept c s6 _ 1)
  have h8 : State.settles c s7 s8 := by
    show State.settles c s7 (if _ then _ else if _ then _ else _)
    split
    · exact State.unadmit_ringKept c s7 _ _ _
    · exact State.settles.ite (State.unadmit_ringKept c s7 _ _ _)
  obtain ⟨hlast, klast⟩ := (((h5.trans h6).trans h7).trans h8).trans (State.recheck_ringKept c s8)
  refine ⟨(h3.trans h4).trans hlast, fun hz => ?_⟩
  rw [klast, k4 hz, k3, hsync3]

/-! ### The command that completes -/

/-- Work that stalls on nothing and misses no peer's bytes is done at once. -/
theorem State.awaitPeers_done {ds : List Nat} {c : CtxId} {e : Engine} {slot : Nat} {f : State → State} (hon : ∀ d ∈ ds, s.domOn d = true)
    (hstall : (f s).pwr.stall = []) (hmissing : (f s).link.missing = []) :
    s.awaitPeers ds c e slot f = { f s with deposits := if s.deposits.isEmpty then (f s).deposits else [] } := by
  simp only [State.awaitPeers, State.orStall, State.touch_on s ds hon, hmissing, hstall, List.isEmpty_nil, if_true]

theorem State.flrSettle_none (h : s.pcie.flrWait = 0) (cs : List CtxId) : s.flrSettle cs = s := by
  induction cs with
  | nil => rfl
  | cons c l ih =>
    unfold State.flrSettle
    rw [if_neg (by simp [h])]
    exact ih

theorem State.missing_dropReqsOf (kept : List Arming) : ∀ (l : List Arming) (s : State), (s.dropReqsOf kept l).link.missing = s.link.missing
  | [], _ => rfl
  | a :: l, s => by
    unfold State.dropReqsOf
    rw [State.missing_dropReqsOf kept l]
    split <;> rfl

/-- What remains of the armings of a command that ends. -/
theorem State.retireArms_ringKept (d c : CtxId) (s : State) (e : Engine) (slot : Nat) : State.settles d s (s.retireArms c e slot) := by
  have hf : s.frame [.armings, .link] (s.retireArms c e slot) := (State.frame.refl _ s).retireArms
  have hctx : (s.retireArms c e slot).ctx d = s.ctx d := by rw [State.ctx, hf.ctxs_eq]; rfl
  have hmissing : (s.retireArms c e slot).link.missing = s.link.missing := by
    unfold State.retireArms State.removeArms
    extract_lets kept flag t
    exact State.missing_dropReqsOf kept _ t
  exact ⟨⟨hf.mem_eq, hf.hostMem_eq, hf.running_eq, by rw [hf.pwr_eq], hmissing, by rw [hf.pcie_eq], by rw [hctx], by rw [hctx]⟩,
    fun n => by rw [State.syncVal, hctx]; rfl⟩

/-- The state in which the command's end is recorded: it has left execution. -/
def State.leaves (s : State) (x : Exec) : State :=
  ([x].filter Exec.refusedWork).foldl State.detachArms
    { s.setHeld x.ctx x.eng false with running := s.running.filter (fun y => !([x].contains y)) }

theorem State.leaves_parts (s : State) (x : Exec) : s.frame [.link, .running, .armings] (s.leaves x) ∧ x ∉ (s.leaves x).running ∧
    (s.leaves x).link.missing = s.link.missing := by
  have h0 : s.frame [.link, .running, .armings] { s.setHeld x.ctx x.eng false with running := s.running.filter (fun y => !([x].contains y)) } :=
    ((State.frame.refl [.link, .running, .armings] s).setHeld).update
  have hf : State.frame [.armings] { s.setHeld x.ctx x.eng false with running := s.running.filter (fun y => !([x].contains y)) } (s.leaves x) :=
    (State.frame.refl _ _).foldl (fun h => h.detachArms)
  refine ⟨h0.trans (hf.mono (by simp)), ?_, by rw [hf.link_eq]; rfl⟩
  rw [hf.running_eq]
  simp

/-- A command that has its result, writes no Tail entry, has no fill entries and signals no system counter. -/
theorem State.completeExec_alone {x : Exec} {r : Report} (hres : x.result = some r) (hfills : s.fillExecs x = []) (hwrites : s.writesOut x = false)
    (htails : s.tails x r = false) (hdup : x.dupOf = none) (hsys : x.words.signalsSys = false) :
    s.completeExec false x = (((s.leaves x).finish x.ctx { x.ending r with lost := false }).retireArms x.ctx x.eng x.slot) := by
  have hfin : ∀ u : State, u.tails x r = false → u.finishExecs (s.noPath && false) [x] = u.finish x.ctx { x.ending r with lost := false } := fun u hu => by
    rw [Bool.and_false]
    unfold State.finishExecs State.finishExec
    rw [hres]
    simp only [Option.getD_some, hu, hdup]
    rfl
  have htails' : (s.leaves x).tails x r = false := by
    obtain ⟨hleft, -⟩ := s.leaves_parts x
    unfold State.tails State.flag at htails ⊢
    rw [State.fld_congr hleft.regs_eq]
    exact htails
  unfold State.completeExec
  rw [hfills]
  extract_lets fills all s1 s2
  simp only [hres]
  rw [if_neg (by simp [fills, hwrites]), if_neg (by simp [all, fills, hsys])]
  exact congrArg (fun v => State.retireArms v x.ctx x.eng x.slot) (hfin (s.leaves x) htails')

/-- Settles O24. -/
theorem commandComplete : Obligations.CommandComplete := by
  unfold Obligations.CommandComplete
  intro c e x r s hfind hres hdup hfills hwrites htails hsys hflr hbuf hfull hup hstall hmissing rec_
  have hx := List.find?_some hfind
  obtain ⟨⟨rfl, rfl⟩, hfill⟩ : (x.ctx = c ∧ x.eng = e) ∧ x.fillOf = none := by simpa using hx
  have hcomplete : s.complete false x.ctx x.eng = (((s.leaves x).finish x.ctx { x.ending r with lost := false }).retireArms x.ctx x.eng x.slot) := by
    unfold State.complete
    rw [hfind]
    exact State.completeExec_alone hres hfills hwrites htails hdup hsys
  obtain ⟨hleft, hgone, hmiss⟩ := s.leaves_parts x
  generalize s.leaves x = u at *
  have hctx : u.ctx x.ctx = s.ctx x.ctx := by rw [State.ctx, hleft.ctxs_eq]; rfl
  have hfull' : u.cqFull x.ctx = false := by
    have hfld := State.fld_congr hleft.regs_eq
    unfold State.cqFull State.cqUsed State.cqSize State.flag at hfull ⊢
    rw [hctx]
    simp only [hfld]
    exact hfull
  have hup' : u.hostUp = true := by
    unfold State.hostUp State.gated State.dom at hup ⊢
    rw [hleft.pcie_eq, hleft.pwr_eq]
    exact hup
  obtain ⟨hkept, hsync⟩ := State.finish_records (s := u) (c := x.ctx) (m := { x.ending r with lost := false }) rfl rfl hsys (by rw [hctx, hbuf]) hfull' hup'
  obtain ⟨hret, hretsync⟩ := State.retireArms_ringKept x.ctx x.ctx (u.finish x.ctx { x.ending r with lost := false }) x.eng x.slot
  have hall := hkept.trans hret
  have hrec : u.recordOf { x.ending r with lost := false } = rec_ := by
    unfold State.recordOf
    rw [hleft.time_eq]
    rfl
  rw [hrec] at hall
  have hpost : (u.posted x.ctx rec_).ctx x.ctx = { s.ctx x.ctx with cbuf := [rec_] } := by rw [State.ctx_posted (by rw [hctx, hbuf]), hctx]
  have hregs : (u.posted x.ctx rec_).regs = s.regs := hleft.regs_eq
  have hsize : (u.posted x.ctx rec_).cqSize x.ctx = s.cqSize x.ctx := by
    unfold State.cqSize
    rw [State.fld_congr hregs]
  have hwritten : u.frame [.ctxs, .hostMem, .poison, .bch] ((u.posted x.ctx rec_).cqWritten x.ctx rec_) :=
    State.frame.trans (t := u.posted x.ctx rec_) ((State.frame.refl _ u).updCtx) (State.cqWritten_frame _ _ _)
  have hmem := (hall.mem.trans hwritten.mem_eq).trans hleft.mem_eq
  have hrun := hall.running.trans hwritten.running_eq
  have hst : ((u.finish x.ctx { x.ending r with lost := false }).retireArms x.ctx x.eng x.slot).pwr.stall = [] := by
    rw [hall.stall, hwritten.pwr_eq, hleft.pwr_eq, hstall]
  have hmi : ((u.finish x.ctx { x.ending r with lost := false }).retireArms x.ctx x.eng x.slot).link.missing = [] := by
    rw [hall.missing, hwritten.link_eq, hmiss, hmissing]
  have hfl : ((u.finish x.ctx { x.ending r with lost := false }).retireArms x.ctx x.eng x.slot).pcie.flrWait = 0 := by
    rw [hall.flrWait, hwritten.pcie_eq, hleft.pcie_eq, hflr]
  have hsyncs : x.words.sigInc 1 = 0 → ((u.finish x.ctx { x.ending r with lost := false }).retireArms x.ctx x.eng x.slot).syncVal x.ctx (x.words.sigIdx 0) =
      s.syncVal x.ctx (x.words.sigIdx 0) + BitVec.ofNat 32 (x.words.sigInc 0) := fun hz => by
    rw [hretsync]
    refine (hsync hz).trans ?_
    rw [State.syncVal, hctx]
    rfl
  generalize (u.finish x.ctx { x.ending r with lost := false }).retireArms x.ctx x.eng x.slot = v at *
  have hexec : exec (.commandComplete x.ctx x.eng) s = .next { v with deposits := if s.deposits.isEmpty then v.deposits else [] } := by
    show Host.Outcome.next ((s.awaitPeers [] x.ctx x.eng _ (fun s => s.complete false x.ctx x.eng)).flrSettle allCtx) = _
    rw [State.awaitPeers_done (by simp) (by rw [hcomplete, hst]) (by rw [hcomplete, hmi]), hcomplete, State.flrSettle_none (by exact hfl)]
  refine ⟨_, hexec, ?_, hmem, fun i b hb => ?_, ?_, hsyncs⟩
  · show x ∉ v.running
    rw [hrun]
    exact hgone
  · have hstored := State.hostMem_cqWritten (u.posted x.ctx rec_) x.ctx rec_ (i := i) (b := b) (by rw [hpost]; exact hb)
    have hplace : (u.posted x.ctx rec_).cqPlace x.ctx = (s.reg (ctxBase x.ctx + Reg.ctxCqBase)).toNat / 256 * 256 + 32 * (s.ctx x.ctx).cqTail := by
      unfold State.cqPlace
      rw [hpost, State.reg_congr hregs]
    rw [hplace] at hstored
    exact (congrArg (fun h : SMap Byte => SMap.find? h _) hall.hostMem).trans hstored
  · show ((v.ctx x.ctx).cqTail, (v.ctx x.ctx).cqLap) = _
    rw [hall.tail, hall.lap, State.ctx_cqWritten, hpost, hsize]

end Sys2Proof.Machine
end

section
/-! PROOFS. Writes into queue windows, and the order of host accesses. -/

namespace Sys2Proof.Machine

set_option Elab.async false

open Sys2Proof

variable {s t u : State}

/-! ### A store marks the words it touches -/

theorem State.markWord_other {w v : Nat} (h : v ≠ w) (part : List SB) :
    SMap.get false (s.markWord w part).poison v = SMap.get false s.poison v ∧ SMap.get 0 (s.markWord w part).bch v = SMap.get 0 s.bch v := by
  have hfresh : ∀ u : State, SMap.get false (u.freshen w).poison v = SMap.get false u.poison v ∧ SMap.get 0 (u.freshen w).bch v = SMap.get 0 u.bch v :=
    fun u => ⟨rfl, SMap.get_put_other 0 u.bch 0 h⟩
  have hset : ∀ p : Bool, SMap.get false ((s.setPoison w p).freshen w).poison v = SMap.get false s.poison v ∧
      SMap.get 0 ((s.setPoison w p).freshen w).bch v = SMap.get 0 s.bch v := fun p => by
    obtain ⟨hp, hb⟩ := hfresh (s.setPoison w p)
    exact ⟨hp.trans (SMap.get_put_other false s.poison p h), hb⟩
  unfold State.markWord
  extract_lets err
  split
  · exact hset true
  split
  · exact hset false
  split
  · exact hset true
  split
  · exact hfresh s
  · exact ⟨rfl, rfl⟩

/-- A word that none of the bytes lies in keeps its marks. -/
theorem State.markWords_other {v : Nat} : ∀ (fuel : Nat) (s : State) (k : Nat) (data : List SB), v < k / 8 ∨ (k + data.length - 1) / 8 < v →
    SMap.get false (s.markWords k data fuel).poison v = SMap.get false s.poison v ∧
      SMap.get 0 (s.markWords k data fuel).bch v = SMap.get 0 s.bch v
  | 0, _, _, _, _ => ⟨rfl, rfl⟩
  | fuel + 1, s, k, data, h => by
    unfold State.markWords
    split
    · exact ⟨rfl, rfl⟩
    rename_i hne
    have hpos : 0 < data.length := List.length_pos_iff.mpr (by simpa using hne)
    extract_lets n
    have hn : n = 8 - k % 8 := rfl
    clear_value n
    have hv : v ≠ k / 8 := by omega
    have hrest : v < (k + n) / 8 ∨ (k + n + (data.drop n).length - 1) / 8 < v := by
      rw [List.length_drop]
      omega
    obtain ⟨hp, hb⟩ := State.markWords_other fuel (s.markWord (k / 8) (data.take n)) (k + n) (data.drop n) hrest
    obtain ⟨hp1, hb1⟩ := s.markWord_other hv (data.take n)
    exact ⟨hp.trans hp1, hb.trans hb1⟩

/-- Outside the words that a store touches every byte is delivered as before. -/
theorem State.store_peek_other {k j : Nat} {data : List SB} (h : j / 8 < k / 8 ∨ (k + data.length - 1) / 8 < j / 8) :
    (s.store k data).peek j = s.peek j := by
  have hmem : SMap.get 0 (s.store k data).mem j = SMap.get 0 s.mem j := State.store_get_other (s := s) k j data (by omega)
  obtain ⟨hp, hb⟩ := State.markWords_other data.length (s.pokes k (data.map (·.1))) k data h
  have hpokes := State.pokes_eq (data.map (·.1)) s k
  have hpoison : (s.store k data).isPoison j = s.isPoison j := hp.trans (by rw [hpokes]; rfl)
  have herr : (s.store k data).wordErr j = s.wordErr j := hb.trans (by rw [hpokes]; rfl)
  unfold State.peek
  rw [hmem, hpoison, herr]

/-! ### The write into a queue window -/

/-- The window that an offset of the physical function's BAR2 names. -/
theorem State.window?_pf {c : CtxId} {e : Engine} {o : Nat} (hheld : s.vfHolds c = false) (ho : o < 0x40000) :
    s.window? 0 ((4 * c.val + e.code.val) * 0x40000 + o) = some (c, e) := by
  have he : e.code.val < 4 := e.code.isLt
  have hc := c.isLt
  have hw : ((4 * c.val + e.code.val) * 0x40000 + o) / 0x40000 = 4 * c.val + e.code.val := by omega
  have hmod : (4 * c.val + e.code.val) % 4 = e.code.val := by omega
  have hdiv : (4 * c.val + e.code.val) / 4 = c.val := by omega
  have hctx : (Fin.ofNat 16 c.val : CtxId) = c := Fin.ext (Nat.mod_eq_of_lt hc)
  have hcode : Engine.ofCode e.code.val = some e := by cases e <;> rfl
  unfold State.window?
  simp only [hw, hmod, hdiv, hctx, hcode, hheld, Option.bind_some, if_true]
  rw [if_pos (by simp; omega)]

/-- With no entry under way and the endpoint on, a clean write into a queue window only stores. -/
theorem State.queueWrite_stores {c : CtxId} {e : Engine} (hrun : s.pwr.mode = .run) (hentry : s.pwr.entry = none) (hon : s.dom epDom = .on) (o : Nat)
    (data : List Byte) : s.queueWrite c e o data false = s.store (kQueue c e 0 o) (data.map (fun b => (b, false))) := by
  unfold State.queueWrite
  extract_lets s0 s1 s2
  have hpwr : s1.pwr = s.pwr := by
    show (State.store s _ _).pwr = _
    rw [State.store_eq]
  have hs2 : s2 = s1 := by
    show (if _ then s1.entryEvent 5 0 none else s1) = s1
    have hevent : s1.entryEvent 5 0 none = s1 := by
      unfold State.entryEvent
      rw [hpwr, hentry]
    rw [hevent, ite_self]
  rw [hs2]
  exact State.hostWakes_run (hpwr ▸ hrun) (by unfold State.dom; rw [hpwr]; exact hon)

theorem State.hostDrain_one {x : HostAcc} (h : s.aptWait = [x]) (hland : ∀ u : State, (u.hostLand x).2 = true) :
    s.hostDrain = ({ s with aptWait := [] }.hostLand x).1 := by
  unfold State.hostDrain
  rw [h]
  show s.hostGoOn 1 = _
  rw [State.hostGoOn, h]
  exact if_pos (hland _)

/-- The access that waited alone is done as its domain gets ready. -/
theorem State.domReady_lands {d : Nat} {x : HostAcc} (hd : d < 108) (hdom : s.dom d = .waking true) (hwait : s.aptWait = [x])
    (hcalm : { s with aptWait := [] }.calm) (hland : ∀ u : State, (u.hostLand x).2 = true) :
    s.domReady d = (({ s with aptWait := [] }.setDom d .on).hostLand x).1 := by
  obtain ⟨-, htails, hreports⟩ := hcalm
  unfold State.domReady
  rw [hdom]
  show (s.setDom d .on).domGoesOn d = _
  have hep : ¬ (d = epDom ∧ (s.setDom d .on).pcie.linkUp = true) := fun h => by
    have hd' : d = 116 := h.1
    omega
  have hreports' : ∀ o ∈ (s.setDom d .on).fpc.ops, o.phase ≠ .reporting := hreports
  have hport : ¬ (108 ≤ d ∧ d < 116) := by omega
  rw [State.domGoesOn, if_neg hport, if_neg hep, State.tailsGoOn_of_none (s := s.setDom d .on) htails, State.reportsGoOn_of_none hreports']
  exact State.hostDrain_one (s := s.setDom d .on) hwait hland

/-- Settles O21. -/
theorem queueEntryWrite : Obligations.QueueEntryWrite := by
  unfold Obligations.QueueEntryWrite
  refine ⟨fun c e o data s hs hentry hheld hbusy ho hpage => ?_, fun fn off size v data ep s hopen hbehind => ?_,
    fun d fn off data ep s hd hdom hwait hcalm => ?_⟩
  · obtain ⟨hrun, hready, hrec, hd3, hon, hnone⟩ := hs
    have hup : s.up = true := by simp [State.up, hrun]
    have hopen : s.barsOpen 0 = true := by
      rw [State.barsOpen, hup, hready, show s.pcie.d3.getLsbD (0 : Fin 16).val = false from hd3]
      rfl
    have hwin := s.window?_pf (c := c) (e := e) hheld ho
    have hoff : ((4 * c.val + e.code.val) * 0x40000 + o) % 0x40000 = o := by omega
    have hpage' : ((4 * c.val + e.code.val) * 0x40000 + o) % 4096 + data.length ≤ 4096 := by omega
    have hexec : exec (.queueEntryWrite 0 ((4 * c.val + e.code.val) * 0x40000 + o) data false) s =
        .next (s.store (kQueue c e 0 o) (data.map (fun b => (b, false)))) := by
      show Host.Outcome.next (if _ then _ else s.queueLand _ _ _ _) = _
      rw [if_neg (by simp [State.hostBehind, hnone]), State.queueLand, if_pos (by rw [hopen, hrec]; simpa using hpage'), hwin]
      simp only [hbusy, Bool.false_eq_true, if_false, hoff]
      rw [State.queueWrite_stores hrun hentry hon]
    refine ⟨_, hexec, (((State.frame.refl [.mem, .poison, .bch] s).store)).eq_take, fun i b hb => ?_, fun k hk => ?_, fun k hk => ?_⟩
    · exact State.store_get (s := s) (kQueue c e 0 o) i _ (b, false) (by rw [List.getElem?_map, hb]; rfl)
    · exact State.store_get_other (s := s) (kQueue c e 0 o) k _ (by rwa [List.length_map])
    · exact State.store_peek_other (by rwa [List.length_map])
  · have hwaits : (s.barsOpen fn && s.hostBehind fn) = true := by rw [hopen, hbehind]; rfl
    exact ⟨congrArg Host.Outcome.next (if_pos hwaits), if_pos hwaits⟩
  · exact congrArg Host.Outcome.next (State.domReady_lands hd hdom hwait hcalm fun _ => rfl)

end Sys2Proof.Machine
end

section
/-! PROOFS. The decode of a queue's head. -/

namespace Sys2Proof.Machine

set_option Elab.async false

open Sys2Proof

variable {s t u : State}

/-! ### Admission to a request -/

/-- The request of an entry may be joined or opened. -/
def State.mayAdmit (s : State) (c : CtxId) (num : Nat) : Prop :=
  (s.openReq c num = none ∧ (s.ctx c).reqs.length < 1024) ∨ (∃ r, s.openReq c num = some r ∧ r.aborting = false)

/-- An entry is admitted: its request, which no abort is in force for, is open, and nothing but the context's requests changes. -/
theorem State.admitReq_opens {c : CtxId} {num : Nat} (h : s.mayAdmit c num) :
    ∃ f : List Request → List Request, ∃ r, s.admitReq c num = some (s.updCtx c (fun x => { x with reqs := f x.reqs })) ∧
      (f (s.ctx c).reqs).find? (fun r => decide (r.num = num)) = some r ∧ r.aborting = false := by
  rcases h with ⟨hnone, hroom⟩ | ⟨r, hr, habort⟩
  · refine ⟨fun l => l ++ [{ num := num, bind := s.bindFor c num, live := 1 }], { num := num, bind := s.bindFor c num, live := 1 }, ?_, ?_, rfl⟩
    · unfold State.admitReq
      rw [hnone]
      exact if_neg (by omega)
    · rw [List.find?_append, show (s.ctx c).reqs.find? _ = none from hnone]
      simp
  · refine ⟨fun l => l.map (fun r => if r.num = num then { r with live := r.live + 1 } else r), { r with live := r.live + 1 }, ?_, ?_, habort⟩
    · unfold State.admitReq
      rw [hr]
    · have hnum : r.num = num := of_decide_eq_true (List.find?_some (p := fun r : Request => decide (r.num = num)) hr)
      have hpred : ((fun r => decide (r.num = num)) ∘ fun r : Request => if r.num = num then { r with live := r.live + 1 } else r) =
          fun r : Request => decide (r.num = num) := by
        funext x
        dsimp only [Function.comp_apply]
        split <;> rfl
      rw [List.find?_map, hpred, show (s.ctx c).reqs.find? _ = some r from hr, Option.map_some, if_pos hnum]

/-! ### The decode of a clean head -/

/-- The head is held, nothing but its context changes, and its request is open. -/
structure State.heldAt (s : State) (c : CtxId) (e : Engine) (w : Entry) (f : Fate) (t : State) : Prop where
  only : t = { s with ctxs := t.ctxs }
  others : ∀ d, d ≠ c → t.ctx d = s.ctx d
  head : (t.queue c e).head = (s.queue c e).head
  dec : (t.queue c e).dec = .held w (s.waitMet c w) f
  admitted : (t.openReq c w.reqNum).isSome = true

/-- A clean entry with a new tag is admitted and held; its checks say whether it will run. -/
theorem State.decodeClean_holds {c : CtxId} {e : Engine} {w : Entry} (htag : w.tag = 0 ∨ (s.window c w.tag = none ∧ s.tagLive c w.tag = false))
    (hadmit : s.mayAdmit c w.reqNum) :
    ∃ t, s.decodeClean c e w = some t ∧ s.heldAt c e w (((s.decodeCheck c e (s.bindNow c w.reqNum) w).map Fate.reject).getD .run) t := by
  obtain ⟨f, r, hadm, hfind, habort⟩ := State.admitReq_opens hadmit
  have hwin : (if w.tag = 0 then none else s.window c w.tag) = none := by
    rcases htag with h | ⟨h, -⟩
    · exact if_pos h
    · rw [h, ite_self]
  have hlive : ¬ (w.tag ≠ 0 ∧ s.tagLive c w.tag = true) := by
    rintro ⟨hne, hl⟩
    rcases htag with h | ⟨-, h⟩
    · exact hne h
    · rw [h] at hl
      exact Bool.false_ne_true hl
  have hctx : (s.updCtx c (fun x => { x with reqs := f x.reqs })).ctx c = { s.ctx c with reqs := f (s.ctx c).reqs } := State.ctx_updCtx_self _ _ _
  have hopen : (s.updCtx c (fun x => { x with reqs := f x.reqs })).openReq c w.reqNum = some r := by
    unfold State.openReq
    rw [hctx]
    exact hfind
  have hnoabort : (s.updCtx c (fun x => { x with reqs := f x.reqs })).aborting c w.reqNum = false := by
    rw [State.aborting, hopen, Option.any_some, habort]
  have hmet : (s.updCtx c (fun x => { x with reqs := f x.reqs })).waitMet c w = s.waitMet c w := by
    unfold State.waitMet State.syncVal
    rw [hctx]
    rfl
  have hdec : s.decodeClean c e w = some ((s.updCtx c (fun x => { x with reqs := f x.reqs })).hold c e w
      (((s.decodeCheck c e (s.bindNow c w.reqNum) w).map Fate.reject).getD .run)) := by
    unfold State.decodeClean
    rw [hwin]
    simp only [if_neg hlive, hadm, Option.map_some, hnoabort, Bool.false_eq_true, if_false]
  refine ⟨_, hdec, ?_⟩
  have hq : (s.updCtx c (fun x => { x with reqs := f x.reqs })).queue c e = s.queue c e := by rw [State.queue, hctx]; rfl
  refine ⟨rfl, fun d hd => ?_, ?_, ?_, ?_⟩
  · unfold State.hold State.setHead State.setQueue
    rw [State.ctx_updCtx_other _ _ hd, State.ctx_updCtx_other _ _ hd]
  · unfold State.hold State.setHead
    rw [State.queue_setQueue_self, hq]
  · unfold State.hold State.setHead
    rw [State.queue_setQueue_self, hmet]
  · unfold State.hold State.setHead State.setQueue State.openReq
    rw [State.ctx_updCtx_self, hctx]
    show (List.find? _ (f (s.ctx c).reqs)).isSome = true
    rw [hfind]
    rfl

/-- The reads of words without bit errors count nothing. -/
theorem State.noteSlot_clean {c : CtxId} {loc : Nat} {l : List Nat} (h : ∀ k ∈ l, s.wordErr k = 0) : s.noteSlot c loc l = s := by
  induction l with
  | nil => rfl
  | cons k l ih =>
    obtain ⟨hk, hl⟩ := List.forall_mem_cons.mp h
    have hnote : s.noteWord 3 (some c) (k / 8) loc = s := by
      unfold State.noteWord State.noteErr
      rw [show SMap.get 0 s.bch (k / 8) = 0 from hk]
      rfl
    unfold State.noteSlot
    rw [hnote]
    exact ih hl

/-- Without poisoned words the mask of a slot is 0. -/
theorem poisonMask_zero {ws : List (W64 × Bool)} (h : ∀ x ∈ ws, x.2 = false) :
    (ws.zipIdx.map (fun p => if p.1.2 then 2 ^ p.2 else 0)).sum = 0 := by
  refine List.sum_eq_zero fun n hn => ?_
  obtain ⟨p, hp, rfl⟩ := List.mem_map.mp hn
  have hmem : p.1 ∈ ws := List.fst_mem_of_mem_zipIdx hp
  rw [h _ hmem]
  rfl

/-- A request that an earlier decode leaves: its context's requests change, and slots of models that it held may drain. -/
theorem State.unadmit_keeps (s : State) (c : CtxId) (num n : Nat) (ends : Bool) :
    s.frame [.ctxs, .orphans, .models, .blks, .tsets] (s.unadmit c num n ends) ∧ (∀ d, d ≠ c → (s.unadmit c num n ends).ctx d = s.ctx d) ∧
      ∀ e, (s.unadmit c num n ends).queue c e = s.queue c e := by
  refine ⟨(State.frame.refl _ s).unadmit, ?_⟩
  unfold State.unadmit
  generalize hf : (fun x : Ctx => ({ x with reqs := _ } : Ctx)) = f
  have hq : ∀ x, (f x).queues = x.queues := fun x => by rw [← hf]
  have hctxs : (s.updCtx c f).drainSlots.ctxs = (s.updCtx c f).ctxs := ((State.frame.refl [.orphans, .models, .blks, .tsets] (s.updCtx c f)).drainSlots).ctxs_eq
  have hctx : ∀ d, (s.updCtx c f).drainSlots.ctx d = (s.updCtx c f).ctx d := fun d => by rw [State.ctx, hctxs]; rfl
  refine ⟨fun d hd => (hctx d).trans (State.ctx_updCtx_other _ _ hd), fun e => ?_⟩
  rw [State.queue, hctx, State.ctx_updCtx_self, hq]
  rfl

/-- Settles O22. -/
theorem queueEntryDecode : Obligations.QueueEntryDecode := by
  unfold Obligations.QueueEntryDecode
  intro c e s hen hbusy hidle hwords w u hphase htag hadmit
  have hq : u.queue c e = { s.queue c e with aside := none } := State.queue_setQueue_self _ _ _ _
  have hctx : u.ctx c = { s.ctx c with queues := (s.ctx c).queues.set e.code { s.queue c e with aside := none } } := State.ctx_updCtx_self _ _ _
  have hmask : (((s.slotWords c e).zipIdx.map (fun p => if p.1.2 then 2 ^ p.2 else 0)).sum) = 0 := by
    refine poisonMask_zero fun x hx => ?_
    obtain ⟨i, hi, rfl⟩ := List.mem_map.mp hx
    obtain ⟨-, hclean⟩ := hwords i (List.mem_range.mp hi)
    exact hclean
  have hnote : s.noteSlot c (slotLoc c e (s.queue c e).head) ((List.range 8).map (fun i => kQueue c e (s.queue c e).head (8 * i))) = s := by
    refine State.noteSlot_clean fun k hk => ?_
    obtain ⟨i, hi, rfl⟩ := List.mem_map.mp hk
    obtain ⟨herr, -⟩ := hwords i (List.mem_range.mp hi)
    exact herr
  have hwin : u.window c w.tag = s.window c w.tag := by unfold State.window; rw [hctx]
  have hopen : u.openReq c w.reqNum = s.openReq c w.reqNum := by unfold State.openReq; rw [hctx]
  have hreqs : (u.ctx c).reqs = (s.ctx c).reqs := by rw [hctx]
  have hmet : u.waitMet c w = s.waitMet c w := by unfold State.waitMet State.syncVal; rw [hctx]; rfl
  obtain ⟨t, hdec, hheld⟩ := State.decodeClean_holds (s := u) (c := c) (e := e) (w := w) (by rwa [hwin]) (by
    unfold State.mayAdmit
    rwa [hopen, hreqs])
  have hothers : ∀ d, d ≠ c → t.ctx d = s.ctx d := fun d hd => (hheld.others d hd).trans (State.ctx_updCtx_other _ _ hd)
  have hstep : exec (.queueEntryDecode c e) s = .next (match (s.queue c e).aside with
      | none => t
      | some tag => t.unadmit c (tagReq tag) 1 false) := by
    show Host.Outcome.next (s.decodeHead c e) = _
    unfold State.decodeHead
    extract_lets q ws w' mask s1 s2
    have hs2 : s2 = u := by
      show (State.setQueue s1 c e _) = _
      rw [show s1 = s from hnote]
    rw [if_neg (by simp [hen, hbusy, q, hidle]), if_neg (by
      rw [show mask = 0 from hmask, show wBit (w'.word 7) 0 = q.phase from hphase]
      simp), if_pos (show mask = 0 from hmask), hs2, hdec]
    rfl
  have honly : t = { s with ctxs := t.ctxs } := hheld.only
  obtain ⟨hmem, hregs, hrunning⟩ : t.mem = s.mem ∧ t.regs = s.regs ∧ t.running = s.running := by
    rw [honly]
    exact ⟨rfl, rfl, rfl⟩
  have hhead : (t.queue c e).head = (s.queue c e).head := hheld.head.trans (by rw [hq])
  have hdecoded := hheld.dec.trans (by rw [hmet])
  have hrun : ∀ o, u.decodeCheck c e (u.bindNow c w.reqNum) w = o → (t.queue c e).dec = .held w (s.waitMet c w) ((o.map Fate.reject).getD .run) :=
    fun o ho => by rw [hdecoded, ho]
  cases haside : (s.queue c e).aside with
  | none =>
    rw [haside] at hstep
    exact ⟨t, hstep, hmem, hregs, hrunning, hothers, hhead, hrun none, fun r hr => hrun (some r) hr, fun _ => ⟨honly, hheld.admitted⟩⟩
  | some tag =>
    rw [haside] at hstep
    obtain ⟨hun, hunothers, hunqueue⟩ := t.unadmit_keeps c (tagReq tag) 1 false
    refine ⟨_, hstep, hun.mem_eq.trans hmem, hun.regs_eq.trans hregs, hun.running_eq.trans hrunning,
      fun d hd => (hunothers d hd).trans (hothers d hd), ?_, fun h => ?_, fun r hr => ?_, fun h => nomatch h⟩
    · rw [hunqueue]
      exact hhead
    · rw [hunqueue]
      exact hrun none h
    · rw [hunqueue]
      exact hrun (some r) hr

end Sys2Proof.Machine
end

section
/-! PROOFS. The hand-over of a command. -/

namespace Sys2Proof.Machine

set_option Elab.async false

open Sys2Proof

variable {s t u : State}

/-! ### What the start of a command keeps -/

/-- The commands in execution stay in execution, with their words. -/
def State.execsStay (s t : State) : Prop :=
  ∀ x ∈ s.running, ∃ y ∈ t.running, y.ctx = x.ctx ∧ y.eng = x.eng ∧ y.slot = x.slot ∧ y.words = x.words

theorem State.execsStay.of_running (h : t.running = s.running) : s.execsStay t := fun x hx => ⟨x, h ▸ hx, rfl, rfl, rfl, rfl⟩

theorem State.execsStay.trans (h : s.execsStay t) (k : t.execsStay u) : s.execsStay u := fun x hx => by
  obtain ⟨y, hy, hc, he, hs, hw⟩ := h x hx
  obtain ⟨z, hz, kc, ke, ks, kw⟩ := k y hy
  exact ⟨z, hz, kc.trans hc, ke.trans he, ks.trans hs, kw.trans hw⟩

theorem State.execsStay.append {l : List Exec} (h : t.running = s.running ++ l) : s.execsStay t := fun x hx =>
  ⟨x, h ▸ List.mem_append_left _ hx, rfl, rfl, rfl, rfl⟩

theorem State.execsStay.updExec (s : State) (c : CtxId) (e : Engine) (slot : Nat) {f : Exec → Exec}
    (hf : ∀ x, (f x).ctx = x.ctx ∧ (f x).eng = x.eng ∧ (f x).slot = x.slot ∧ (f x).words = x.words) : s.execsStay (s.updExec c e slot f) := fun x hx => by
  refine ⟨_, List.mem_map.mpr ⟨x, hx, rfl⟩, ?_⟩
  split
  · exact hf x
  · exact ⟨rfl, rfl, rfl, rfl⟩

theorem State.execsStay.report (s : State) (c : CtxId) (e : Engine) (slot : Nat) (r : Report) : s.execsStay (s.report c e slot r) :=
  .updExec s c e slot fun _ => ⟨rfl, rfl, rfl, rfl⟩

/-- The commands in execution stay, and the queue as it is. -/
def State.starts (c : CtxId) (e : Engine) (s t : State) : Prop := s.execsStay t ∧ t.queue c e = s.queue c e

theorem State.starts.trans {c : CtxId} {e : Engine} (h : State.starts c e s t) (k : State.starts c e t u) : State.starts c e s u := by
  obtain ⟨hx, hq⟩ := h
  obtain ⟨kx, kq⟩ := k
  exact ⟨hx.trans kx, kq.trans hq⟩

theorem State.starts.of_ctxs {c : CtxId} {e : Engine} (h : t.ctxs = s.ctxs) (k : s.execsStay t) : State.starts c e s t :=
  ⟨k, by rw [State.queue, State.ctx, h]; rfl⟩

theorem State.starts.of_frame {c : CtxId} {e : Engine} (h : s.frame [.regs, .blks, .armings, .link, .pwr, .pcie, .log, .logNext, .out] t) :
    State.starts c e s t := .of_ctxs h.ctxs_eq (.of_running h.running_eq)

theorem State.starts.report {c : CtxId} {e : Engine} (s : State) (d : CtxId) (f : Engine) (slot : Nat) (r : Report) :
    State.starts c e s (s.report d f slot r) := .of_ctxs rfl (.report s d f slot r)

/-- The admission of a fill entry changes its context's requests alone. -/
theorem State.starts.admitReq {c : CtxId} {e : Engine} (s : State) (d : CtxId) (num : Nat) : State.starts c e s ((s.admitReq d num).getD s) := by
  have hupd : ∀ f : List Request → List Request, State.starts c e s (s.updCtx d (fun x => { x with reqs := f x.reqs })) := fun f => by
    refine ⟨.of_running rfl, ?_⟩
    by_cases hd : c = d
    · subst hd
      rw [State.queue, State.ctx_updCtx_self]
      rfl
    · rw [State.queue, State.ctx_updCtx_other _ _ hd]
      rfl
  unfold State.admitReq
  split
  · exact hupd _
  · split
    · exact .of_ctxs rfl (.of_running rfl)
    · exact hupd fun l => l ++ [{ num := num, bind := s.bindFor d num, live := 1 }]

theorem State.starts.attachAll {c : CtxId} {e : Engine} (s : State) (x : Exec) : State.starts c e s (s.attachAll x) :=
  .of_frame (((State.frame.refl [.armings, .link] s).attachAll).mono (by simp))

theorem State.starts.startFills {c : CtxId} {e : Engine} (d : CtxId) (slot : Nat) (bind : List (Nat × Nat)) : ∀ (l : List Entry) (i : Nat) (s : State),
    State.starts c e s (s.startFills d slot bind i l)
  | [], _, s => .of_ctxs rfl (.of_running rfl)
  | w :: l, i, s => by
    unfold State.startFills
    refine State.starts.trans ?_ (State.starts.startFills d slot bind l (i + 1) _)
    split
    · exact .of_ctxs rfl (.append rfl)
    · extract_lets b s1
      have h1 : State.starts c e s s1 := .admitReq s d w.reqNum
      split
      · exact h1.trans (.of_ctxs rfl (.append rfl))
      · refine State.starts.trans (h1.trans ?_) (.attachAll _ _)
        exact .of_ctxs rfl (.append rfl)

theorem State.starts.readFills {c : CtxId} {e : Engine} (s : State) (v : View) (w : Entry) : State.starts c e s (s.readFills v w).2 :=
  .of_frame (((State.frame.refl [.regs, .blks, .link, .pwr, .pcie, .log, .logNext, .out] s).readFills).mono (by simp))

theorem State.starts.readDesc {c : CtxId} {e : Engine} (s : State) (x : Exec) (a : Nat) : State.starts c e s (s.readDesc x a).2 :=
  .of_frame (((State.frame.refl [.regs, .blks, .link, .pwr, .pcie, .log, .logNext, .out] s).readDesc).mono (by simp))

theorem State.starts.copyStart {c : CtxId} {e : Engine} (s : State) (x : Exec) : State.starts c e s (s.copyStart x) := by
  unfold State.copyStart
  have h1 := State.starts.readDesc (c := c) (e := e) s x ((x.words : Entry).pos 128 52)
  extract_lets w
  split
  next s1 heq =>
    rw [show s.readDesc x (Entry.pos x.words 128 52) = _ from heq] at h1
    exact h1.trans (.report s1 _ _ _ _)
  next s1 heq =>
    rw [show s.readDesc x (Entry.pos x.words 128 52) = _ from heq] at h1
    have h2 := State.starts.readDesc (c := c) (e := e) s1 x ((x.words : Entry).pos 192 52)
    split
    next s2 heq2 =>
      rw [show s1.readDesc x (Entry.pos x.words 192 52) = _ from heq2] at h2
      exact (h1.trans h2).trans (.report s2 _ _ _ _)
    next s2 heq2 =>
      rw [show s1.readDesc x (Entry.pos x.words 192 52) = _ from heq2] at h2
      extract_lets d1 d2
      split
      · exact (h1.trans h2).trans (.report s2 _ _ _ _)
      · exact (h1.trans h2).trans (.of_ctxs rfl (.of_running rfl))

theorem State.starts.saveStart {c : CtxId} {e : Engine} (s : State) (x : Exec) : State.starts c e s (s.saveStart x) := by
  unfold State.saveStart
  dsimp only
  split
  · exact .report s _ _ _ _
  · exact .of_ctxs rfl (.updExec s _ _ _ fun _ => ⟨rfl, rfl, rfl, rfl⟩)

theorem State.starts.startExec {c : CtxId} {e : Engine} (s : State) (x : Exec) : State.starts c e s (s.startExec x) := by
  unfold State.startExec
  extract_lets w
  split
  · exact .copyStart s x
  · exact .saveStart s x
  · exact .saveStart s x
  · have h1 := State.starts.readFills (c := c) (e := e) s x.view w
    split
    next s1 heq =>
      rw [heq] at h1
      exact h1.trans (.report s1 _ _ _ _)
    next s1 heq =>
      rw [heq] at h1
      exact h1.trans (.startFills _ _ _ _ _ s1)
  · exact .of_ctxs rfl (.of_running rfl)

/-! ### The hand-over -/

/-- The place of a queue's next entry. -/
def Queue.passed (q : Queue) : Queue := { head := (q.head + 1) % 4096, phase := if q.head = 4095 then !q.phase else q.phase, dec := .idle }

/-- A command that is handed to its engine starts: it is in execution with its words, and its queue's head passes on. -/
theorem State.handTo_starts {c : CtxId} {e : Engine} {w : Entry} (hexact : (s.ctx c).exactReq = false) (hload : ¬ (e = .tmv ∧ w.opcode = 0x11)) :
    (∃ x ∈ (s.handTo c e w).running, x.ctx = c ∧ x.eng = e ∧ x.slot = (s.queue c e).head ∧ x.words = w) ∧
      (s.handTo c e w).queue c e = (s.queue c e).passed := by
  unfold State.handTo
  rw [if_neg (by simp [hexact]), if_neg hload]
  extract_lets slot b src x s0 s1
  have hx : x.ctx = c ∧ x.eng = e ∧ x.slot = (s.queue c e).head ∧ x.words = w := by
    simp only [x]
    split
    · exact ⟨rfl, rfl, rfl, rfl⟩
    · exact ⟨rfl, rfl, rfl, rfl⟩
  have hs0 : s0.queue c e = s.queue c e := by
    simp only [s0]
    split <;> rfl
  have hq : s1.queue c e = (s.queue c e).passed := by
    show (s0.advance c e).queue c e = _
    unfold State.advance
    rw [State.queue_setQueue_self, hs0]
    rfl
  have hstart := (State.starts.attachAll (c := c) (e := e) { s1 with running := s1.running ++ [x] } x).trans (.startExec _ x)
  obtain ⟨hstay, hqueue⟩ := hstart
  obtain ⟨hc, he, hs, hw⟩ := hx
  obtain ⟨y, hy, kc, ke, ks, kw⟩ := hstay x (List.mem_append_right _ (List.mem_singleton_self x))
  exact ⟨⟨y, hy, kc.trans hc, ke.trans he, ks.trans hs, kw.trans hw⟩, hqueue.trans hq⟩

/-- A TABLE_LOAD that is handed over keeps its queue's head, with the step of its start. -/
theorem State.handTo_loads {c : CtxId} {e : Engine} {w : Entry} (hexact : (s.ctx c).exactReq = false) (hload : e = .tmv ∧ w.opcode = 0x11) :
    s.handTo c e w = s.setQueue c e { s.queue c e with dec := .loading w false none, step := s.reg (ctxBase c + Reg.ctxStep) } := by
  unfold State.handTo
  rw [if_neg (by simp [hexact]), if_pos hload]

/-- The domains that work touches do not depend on the share tables. -/
theorem State.touch_share (ds : List Nat) (tab : List (List W64)) (at_ : List Nat) :
    { s.touch ds with shareTab := tab, shareAt := at_ } = State.touch { s with shareTab := tab, shareAt := at_ } ds := by
  by_cases h : (ds.filter (fun d => !(s.domOn d))).isEmpty = true
  · have h1 : s.touch ds = s := if_pos h
    have h2 : State.touch { s with shareTab := tab, shareAt := at_ } ds = { s with shareTab := tab, shareAt := at_ } := if_pos h
    rw [h1, h2]
  · have h1 : s.touch ds = { s with pwr := { s.pwr with stall := s.pwr.stall ++ ds.filter (fun d => !(s.domOn d)) } } := if_neg h
    have h2 : State.touch { s with shareTab := tab, shareAt := at_ } ds =
        { s with shareTab := tab, shareAt := at_, pwr := { s.pwr with stall := s.pwr.stall ++ ds.filter (fun d => !(s.domOn d)) } } := if_neg h
    rw [h1, h2]

/-- What `touch` leaves of a state. -/
theorem State.touch_pwr (s : State) (ds : List Nat) : s.touch ds = { s with pwr := (s.touch ds).pwr } := by
  unfold State.touch
  extract_lets l
  split <;> rfl

/-- Work that is ready at its turn is done. -/
theorem State.awaitPeers_ready {ds : List Nat} {c : CtxId} {e : Engine} {slot : Nat} {f : State → State}
    (hstall : (f (s.touch ds)).pwr.stall = []) (hmissing : (f (s.touch ds)).link.missing = []) :
    s.awaitPeers ds c e slot f = { f (s.touch ds) with deposits := if s.deposits.isEmpty then (f (s.touch ds)).deposits else [] } := by
  simp only [State.awaitPeers, State.orStall, hmissing, hstall, List.isEmpty_nil, if_true]

/-- Settles O23. -/
theorem commandHandover : Obligations.CommandHandover := by
  unfold Obligations.CommandHandover
  refine ⟨fun e j c w s1 s hhands hfind hexact => ?_, fun e s1 s hhands hfind => ?_⟩
  · intro s2 hready
    have hs2 : s2.touch (engineDoms e) = { s.touch (engineDoms e) with shareTab := s1.shareTab, shareAt := s.shareAt.set e.code.val ((j + 1) % 64) } :=
      (State.touch_share _ _ _).symm
    obtain ⟨hstall, hmissing⟩ := hready
    have hshare : (s.touch (engineDoms e)).shareAt = s.shareAt := by rw [State.touch_pwr]
    have hexec : exec (.commandHandover e) s = .next { (s2.touch (engineDoms e)).handTo c e w with
        deposits := if s.deposits.isEmpty then ((s2.touch (engineDoms e)).handTo c e w).deposits else [] } := by
      show Host.Outcome.next (s.handover e) = _
      unfold State.handover
      rw [if_neg (by simp [hhands]), hfind]
      dsimp only
      unfold State.withPeers
      rw [State.awaitPeers_ready (by rw [hshare, ← hs2]; exact hstall) (by rw [hshare, ← hs2]; exact hmissing), hshare, ← hs2]
    have hctx : (s2.touch (engineDoms e)).ctx c = s.ctx c := by rw [hs2, State.touch_pwr s]; rfl
    have hqueue : (s2.touch (engineDoms e)).queue c e = s.queue c e := by rw [State.queue, hctx]; rfl
    refine ⟨fun hload => ⟨_, hexec, ?_⟩, fun hload => ⟨_, hexec, ?_⟩⟩
    · obtain ⟨hrunning, hpassed⟩ := State.handTo_starts (s := s2.touch (engineDoms e)) (w := w) (by rw [hctx]; exact hexact) hload
      rw [hqueue] at hrunning hpassed
      exact ⟨hrunning, hpassed⟩
    · rw [State.handTo_loads (s := s2.touch (engineDoms e)) (w := w) (by rw [hctx]; exact hexact) hload, hqueue]
      have hreg : (s2.touch (engineDoms e)).reg = s.reg := by rw [hs2, State.touch_pwr s]; rfl
      rw [hreg]
      refine ⟨State.queue_setQueue_self _ _ _ _, ?_, ?_⟩
      · show (s2.touch (engineDoms e)).running = s.running
        rw [hs2, State.touch_pwr s]
      · show (s2.touch (engineDoms e)).mem = s.mem
        rw [hs2, State.touch_pwr s]
  · show Host.Outcome.next (s.handover e) = _
    unfold State.handover
    rw [if_neg (by simp [hhands]), hfind]

end Sys2Proof.Machine
end

section
/-! PROOFS. The tensor aperture. -/

namespace Sys2Proof.Machine

set_option Elab.async false

open Sys2Proof

variable {s t u : State}

/-! ### Addresses of one page -/

theorem piecesOf_page {a n : Nat} (hn : 0 < n) (hpage : a % 4096 + n ≤ 4096) : piecesOf a n = [(a, n)] := by
  have hmin : min n (4096 - a % 4096) = n := by omega
  unfold piecesOf
  rw [pieces, if_neg (by omega)]
  simp only [hmin, Nat.sub_self]
  cases n / 4096 + 1 with
  | zero => rfl
  | succ k => rw [pieces, if_pos rfl]

/-- The addresses of one page are translated alike. -/
theorem State.translate_page {v : View} {a i : Nat} (hi : a % 4096 + i < 4096) : s.translate v (a + i) = (s.translate v a).map (· + i) := by
  have hpred : (fun e : Nat × Model => e.2.valid && e.2.reaches v.ctx && decide (e.2.wbase * 4096 ≤ a + i) &&
      decide (a + i < (e.2.wbase + e.2.wsize) * 4096)) =
      fun e : Nat × Model => e.2.valid && e.2.reaches v.ctx && decide (e.2.wbase * 4096 ≤ a) && decide (a < (e.2.wbase + e.2.wsize) * 4096) := by
    funext e
    rw [show decide (e.2.wbase * 4096 ≤ a + i) = decide (e.2.wbase * 4096 ≤ a) from decide_eq_decide.mpr (by omega),
      show decide (a + i < (e.2.wbase + e.2.wsize) * 4096) = decide (a < (e.2.wbase + e.2.wsize) * 4096) from decide_eq_decide.mpr (by omega)]
  unfold State.translate
  rw [hpred]
  split
  · rfl
  · rename_i j m hfind
    have hin := List.find?_some hfind
    simp only [Bool.and_eq_true, decide_eq_true_eq] at hin
    obtain ⟨⟨-, hlo⟩, -⟩ := hin
    rw [Option.map_map]
    refine congrArg (fun f => Option.map f (v.slotOf j)) (funext fun k => ?_)
    show _ + (a + i - m.wbase * 4096) = _ + (a - m.wbase * 4096) + i
    rw [Nat.sub_add_comm hlo, Nat.add_assoc]

theorem State.translate_offset {v : View} {a b : Nat} (h : s.translate v a = some b) : b % 4096 = a % 4096 := by
  unfold State.translate at h
  split at h
  · rw [Option.some.inj h]
  · rename_i j m hfind
    have hin := List.find?_some hfind
    simp only [Bool.and_eq_true, decide_eq_true_eq] at hin
    obtain ⟨⟨-, hlo⟩, -⟩ := hin
    obtain ⟨k, -, hk⟩ := Option.map_eq_some_iff.mp h
    split at hk <;> omega

theorem State.objAt_page {c : CtxId} {a i : Nat} (hi : a % 4096 + i < 4096) : s.objAt c (a + i) = s.objAt c a := by
  have hpred : (fun e : Nat × Obj => e.2.visible c && e.2.holds (a + i)) = fun e : Nat × Obj => e.2.visible c && e.2.holds a := by
    funext e
    unfold Obj.holds
    rw [show decide (e.2.base * 4096 ≤ a + i) = decide (e.2.base * 4096 ≤ a) from decide_eq_decide.mpr (by omega),
      show decide (a + i < (e.2.base + e.2.size) * 4096) = decide (a < (e.2.base + e.2.size) * 4096) from decide_eq_decide.mpr (by omega)]
  unfold State.objAt
  rw [hpred]

/-- The addresses of one page lie in one object, at offsets that follow one another. -/
theorem State.reach_page {v : View} {a i : Nat} {r : Nat × Obj × Nat} (hi : a % 4096 + i < 4096) (h : s.reach v a = some r) :
    s.reach v (a + i) = some (r.1, r.2.1, r.2.2 + i) := by
  unfold State.reach at h ⊢
  split at h
  · cases h
  · rename_i hlt
    rw [if_neg (by omega)]
    obtain ⟨b, hb, hobj⟩ := Option.bind_eq_some_iff.mp h
    obtain ⟨e, he, hin⟩ := Option.bind_eq_some_iff.mp hobj
    have hoff := State.translate_offset hb
    have hholds : e.2.holds b = true := by
      have := List.find?_some he
      simp only [Bool.and_eq_true] at this
      exact this.2
    have hbase : e.2.base * 4096 ≤ b := by
      unfold Obj.holds at hholds
      simp only [Bool.and_eq_true, decide_eq_true_eq] at hholds
      exact hholds.1
    rw [State.translate_page hi, hb]
    simp only [Option.map_some, Option.bind_some]
    rw [State.objAt_page (by omega), he]
    simp only [Option.bind_some]
    split at hin
    · cases hin
    · rename_i hinst
      rw [if_neg hinst]
      obtain rfl := Option.some.inj hin
      simp only [Option.some.injEq, Prod.mk.injEq, true_and]
      omega

theorem kT0_plus (idx off i : Nat) : kT0 idx (off + i) = kT0 idx off + i := (Nat.add_assoc _ _ _).symm

theorem kT1_plus (idx off i : Nat) : kT1 idx (off + i) = kT1 idx off + i := (Nat.add_assoc _ _ _).symm

theorem State.homeLoc_plus {idx : Nat} {o : Obj} {off k : Nat} (i : Nat) :
    (s.homeLoc idx o off = some (.t0 k) → s.homeLoc idx o (off + i) = some (.t0 (k + i))) ∧
      (s.homeLoc idx o off = some (.t1 k) → s.homeLoc idx o (off + i) = some (.t1 (k + i))) := by
  unfold State.homeLoc
  split
  · refine ⟨fun h => ?_, by simp⟩
    obtain rfl := Loc.t0.inj (Option.some.inj h)
    rw [kT0_plus]
  · refine ⟨by simp, fun h => ?_⟩
    obtain rfl := Loc.t1.inj (Option.some.inj h)
    rw [kT1_plus]
  · extract_lets p q
    constructor
    · intro h
      split at h <;> simp at h
    · intro h
      split at h <;> simp at h
  · split
    · exact ⟨by simp, by simp⟩
    · split
      · exact ⟨by simp, by simp⟩
      · exact ⟨by simp, by simp⟩

/-- A place in T0 or T1, moved on by i bytes. -/
theorem State.readLoc_plus {idx : Nat} {o : Obj} {off k : Nat} (i : Nat) :
    (s.readLoc idx o off = some (.t0 k) → s.readLoc idx o (off + i) = some (.t0 (k + i))) ∧
      (s.readLoc idx o off = some (.t1 k) → s.readLoc idx o (off + i) = some (.t1 (k + i))) := by
  unfold State.readLoc
  split
  · refine ⟨fun h => ?_, by simp⟩
    obtain rfl := Loc.t0.inj (Option.some.inj h)
    rw [kT0_plus]
  · split
    · refine ⟨by simp, fun h => ?_⟩
      obtain rfl := Loc.t1.inj (Option.some.inj h)
      rw [kT1_plus]
    · exact State.homeLoc_plus i

/-- A place in the memories of the device itself: T0 or T1, with its key. -/
def nearPlace (p : Option Loc) (k : Nat) : Prop := p = some (.t0 k) ∨ p = some (.t1 k)

theorem State.readPlace_page {v : View} {a k i : Nat} (hi : a % 4096 + i < 4096) (h : nearPlace (s.readPlace v a) k) :
    nearPlace (s.readPlace v (a + i)) (k + i) := by
  have hstep : ∀ {p q : Loc}, (∀ r : Nat × Obj × Nat, s.readLoc r.1 r.2.1 r.2.2 = some p → s.readLoc r.1 r.2.1 (r.2.2 + i) = some q) →
      s.readPlace v a = some p → s.readPlace v (a + i) = some q := fun hloc hp => by
    obtain ⟨r, hr, hl⟩ := Option.bind_eq_some_iff.mp hp
    rw [State.readPlace, State.reach_page hi hr]
    exact hloc r hl
  exact h.imp (hstep fun r => (State.readLoc_plus i).1) (hstep fun r => (State.readLoc_plus i).2)

/-! ### A read of clean bytes -/

/-- The reads of words that have no uncorrectable error count, and change nothing else. -/
theorem State.noteWords_quiet {store : Nat} {c : Option CtxId} : ∀ (n w loc : Nat) (s : State), (∀ j, j < n → SMap.get 0 s.bch (w + j) ≠ 3) →
    s.frame [.regs] (s.noteWords store c w loc n)
  | 0, _, _, s, _ => .refl _ s
  | n + 1, w, loc, s, h => by
    have hword : s.frame [.regs] (s.noteWord store c w loc) := by
      unfold State.noteWord State.noteErr
      split
      · exact (State.frame.refl _ s).addFld
      · rw [if_neg (by simpa using h 0 (Nat.succ_pos n))]
        exact .refl _ s
    refine hword.trans (State.noteWords_quiet n (w + 1) (loc + 8) (s.noteWord store c w loc) fun j hj => ?_)
    rw [hword.bch_eq, Nat.add_assoc, Nat.add_comm 1 j]
    exact h (j + 1) (by omega)

/-- A byte that is delivered clean lies in a word without an uncorrectable error. -/
theorem State.wordErr_of_clean {k : Nat} (h : (s.peek k).2 = false) : s.wordErr k ≠ 3 := fun h3 => by
  unfold State.peek deliverByte at h
  rw [h3, if_neg (by decide)] at h
  simp at h

theorem State.noteWords_clean_bytes {store : Nat} {c : Option CtxId} {k n loc : Nat} (h : ∀ i, i < n → (s.peek (k + i)).2 = false) :
    s.frame [.regs] (s.noteWords store c (k / 8) loc (wordsTouched k n)) := by
  refine State.noteWords_quiet _ _ _ s fun j hj => ?_
  unfold wordsTouched at hj
  split at hj
  · omega
  have hk : k + (8 * (k / 8 + j) - k) < k + n := by omega
  have hdiv : (k + (8 * (k / 8 + j) - k)) / 8 = k / 8 + j := by omega
  have hclean := State.wordErr_of_clean (h (8 * (k / 8 + j) - k) (by omega))
  unfold State.wordErr at hclean
  rwa [hdiv] at hclean

/-- What a read of clean bytes of T0 or T1 content counts. -/
theorem State.noteRead_near (hawake : s.awake) {v : View} {a k n : Nat} (hn : 0 < n) (hpage : a % 4096 + n ≤ 4096)
    (hplace : nearPlace (s.readPlace v a) k) (h : ∀ i, i < n → (s.peek (k + i)).2 = false) : s.frame [.regs] (s.noteRead v a n) := by
  unfold State.noteRead
  rw [piecesOf_page hn hpage]
  unfold State.noteReadL State.noteReadL State.notePiece State.notePlace
  dsimp only
  rw [State.awake_touch s hawake]
  rcases hplace with hp | hp
  · rw [hp]
    exact State.noteWords_clean_bytes h
  · rw [hp]
    exact State.noteWords_clean_bytes h

/-- Clean bytes are delivered as they are. -/
theorem State.delivered_near {v : View} {a k n : Nat} (hpage : a % 4096 + n ≤ 4096) (hplace : nearPlace (s.readPlace v a) k)
    (h : ∀ i, i < n → (s.peek (k + i)).2 = false) :
    eplData (delivered (s.readBytes v a n)) = (List.range n).map (fun i => (s.peek (k + i)).1) ∧ anyPoison (delivered (s.readBytes v a n)) = false := by
  have hread : s.readBytes v a n = (List.range n).map (fun i => some (s.peek (k + i))) := by
    refine List.map_congr_left fun i hi => ?_
    have hi' := List.mem_range.mp hi
    unfold State.readByte
    rcases State.readPlace_page (i := i) (by omega) hplace with hp | hp
    · rw [hp]
      rfl
    · rw [hp]
      rfl
  have hdel : delivered (s.readBytes v a n) = (List.range n).map (fun i => s.peek (k + i)) := by
    rw [hread]
    refine List.ext_getElem? fun i => ?_
    unfold delivered
    rw [List.getElem?_map, List.getElem?_zipIdx, List.getElem?_map, List.getElem?_map]
    cases (List.range n)[i]? <;> rfl
  have hclean : ∀ b ∈ (List.range n).map (fun i => s.peek (k + i)), b.2 = false := fun b hb => by
    obtain ⟨i, hi, rfl⟩ := List.mem_map.mp hb
    exact h i (List.mem_range.mp hi)
  rw [hdel]
  refine ⟨?_, List.any_eq_false.mpr fun b hb => by rw [hclean b hb]; exact Bool.false_ne_true⟩
  unfold eplData
  rw [List.map_map]
  refine List.map_congr_left fun i hi => ?_
  simp only [Function.comp_apply, hclean _ (List.mem_map_of_mem hi), Bool.false_eq_true, if_false]

/-! ### An access by the physical function that no other one waits before -/

theorem State.serving.bars (hs : s.serving) : s.barsOpen 0 = true := by
  obtain ⟨hrun, hready, -, hd3, -, -⟩ := hs
  have hup : s.up = true := by simp [State.up, hrun]
  rw [State.barsOpen, hup, hready, show s.pcie.d3.getLsbD (0 : Fin 16).val = false from hd3]
  rfl

/-- The access is tried at once. -/
theorem State.putOff_drain (hnone : s.aptWait = []) (x : HostAcc) : (s.putOff x).hostDrain =
    if (s.hostLand x).2 then (s.hostLand x).1 else { (s.hostLand x).1 with aptWait := x :: (s.hostLand x).1.aptWait } := by
  have hput : (s.putOff x).aptWait = [x] := by
    show s.aptWait ++ [x] = [x]
    rw [hnone, List.nil_append]
  have hback : { s.putOff x with aptWait := [] } = s := by rw [← hnone]; rfl
  unfold State.hostDrain
  rw [hput]
  show (s.putOff x).hostGoOn 1 = _
  rw [State.hostGoOn, hput]
  dsimp only
  rw [hback]
  rfl

theorem State.serving.apertureRead (hs : s.serving) {off n : Nat} {c : CtxId} (hapt : s.aptCtx 0 = (c, true)) (hbar : aptInBar 0 off n = true) :
    exec (.apertureRead 0 off n) s = .next (s.putOff (.read 0 c true (s.aptAddr c off) n)).hostDrain := by
  have hopen := hs.bars
  obtain ⟨-, -, hrec, -, -, -⟩ := hs
  show Host.Outcome.next (if !(aptInBar 0 off n) then s else _) = _
  rw [if_neg (by simp [hbar]), if_neg (by simp [hopen]), if_neg (by simp [hrec]), hapt]

theorem State.serving.apertureWrite (hs : s.serving) {off : Nat} {data : List Byte} {c : CtxId} (hapt : s.aptCtx 0 = (c, true))
    (hbar : aptInBar 0 off data.length = true) (haddr : s.aptAddr c off + data.length ≤ 2 ^ 52) :
    exec (.apertureWrite 0 off data false) s = .next
      ((s.putOff (.write { ctx := c, addr := s.aptAddr c off, data := data.map (fun b => (b, false)), fn := 0 })).hostDrain).hostWakes := by
  have hopen := hs.bars
  obtain ⟨-, -, hrec, -, -, -⟩ := hs
  show Host.Outcome.next (if !(s.barsOpen 0) || !(aptInBar 0 off data.length) then s else _) = _
  rw [if_neg (by simp [hbar, hopen]), if_neg (by simp [hrec]), hapt]
  unfold State.aptWrite
  have hrange : ¬ ((!true || decide (2 ^ 52 < s.aptAddr c off + data.length)) = true) := by
    rw [decide_eq_false (Nat.not_lt.mpr haddr)]
    simp
  simp only [Bool.false_eq_true, if_false]
  rw [if_neg hrange]

/-! ### What the accesses do with every domain on -/

/-- A place in T0 or T1 can be read, and so can its page. -/
theorem State.canRead_near {v : View} {a n : Nat} (hn : 0 < n) (hpage : a % 4096 + n ≤ 4096) : s.canRead v a n = (s.readPlace v a).isSome := by
  unfold State.canRead
  rw [piecesOf_page hn hpage]
  simp

theorem State.canWrite_near {v : View} {a n : Nat} (hn : 0 < n) (hpage : a % 4096 + n ≤ 4096) : s.canWrite v a n = (s.writePlace v a).isSome := by
  unfold State.canWrite
  rw [piecesOf_page hn hpage]
  simp

/-- Work that reads no gated domain and misses no peer's bytes is done. -/
theorem State.tryPeers_done {c : CtxId} {e : Engine} {slot : Nat} {f : State → State} (hf : (f s).pwr.stall = []) (hs : s.pwr.stall = [])
    (hmissing : (f s).link.missing = []) :
    s.tryPeers c e slot f = ({ f s with deposits := if s.deposits.isEmpty then (f s).deposits else [] }, true) := by
  simp only [State.tryPeers, State.tryOnce_done s f hf hs, hmissing, List.isEmpty_nil, Bool.not_true, Bool.false_eq_true, if_false, if_true]

theorem nearPlace_isSome {p : Option Loc} {k : Nat} (h : nearPlace p k) : p.isSome = true := by
  rcases h with rfl | rfl <;> rfl

/-- A read of clean bytes of T0 or T1 content returns them. -/
theorem State.awake.readLands (hawake : s.awake) {c : CtxId} {a k n : Nat} (hn : 0 < n) (hpage : a % 4096 + n ≤ 4096) (haddr : a + n ≤ 2 ^ 52)
    (hplace : nearPlace (s.readPlace (s.hostView c) a) k) (h : ∀ i, i < n → (s.peek (k + i)).2 = false) :
    (s.aptReadLand c true a n).2 = true ∧ s.frame [.regs, .deposits, .out] (s.aptReadLand c true a n).1 ∧
      (s.aptReadLand c true a n).1.out = s.out ++ [.apertureData ((List.range n).map (fun i => (s.peek (k + i)).1)) false] := by
  have hcan : s.canRead (s.hostView c) a n = true := (State.canRead_near hn hpage).trans (nearPlace_isSome hplace)
  have hhost : s.readsHost (s.hostView c) a n = false := by
    unfold State.readsHost
    rw [piecesOf_page hn hpage]
    rcases hplace with hp | hp
    · simp [hp, Loc.isHost]
    · simp [hp, Loc.isHost]
  obtain ⟨hdata, hclean⟩ := State.delivered_near hpage hplace h
  have hnote := State.noteRead_near hawake hn hpage hplace h
  obtain ⟨-, -, hstall, hmissing⟩ := hawake
  have hland : s.aptReadLand c true a n = ({ (s.noteRead (s.hostView c) a n).emit
      (.apertureData (eplData (delivered (s.readBytes (s.hostView c) a n))) (anyPoison (delivered (s.readBytes (s.hostView c) a n)))) with
        deposits := if s.deposits.isEmpty then (s.noteRead (s.hostView c) a n).deposits else [] }, true) := by
    unfold State.aptReadLand
    extract_lets v
    rw [if_neg (by rw [decide_eq_false (Nat.not_lt.mpr haddr)]; simp [v, hcan]), if_neg (by simp [v, hhost])]
    refine State.tryPeers_done ?_ hstall ?_
    · show (s.noteRead (s.hostView c) a n).pwr.stall = []
      rw [hnote.pwr_eq, hstall]
    · show (s.noteRead (s.hostView c) a n).link.missing = []
      rw [hnote.link_eq, hmissing]
  rw [hland, hdata, hclean]
  refine ⟨rfl, (hnote.mono (by simp)).emit.update, ?_⟩
  show (s.noteRead (s.hostView c) a n).out ++ _ = _
  rw [hnote.out_eq]

/-- A write to T0 or T1 content stores its bytes. -/
theorem State.awake.writeLands (hawake : s.awake) {w : AptWrite} {k : Nat} (hn : 0 < w.data.length) (hpage : w.addr % 4096 + w.data.length ≤ 4096)
    (hplace : nearPlace (s.writePlace (s.hostView w.ctx) w.addr) k) :
    ∃ idx, s.aptLand w = ((s.store k w.data).markDirty idx, true) := by
  have hcan : s.canWrite (s.hostView w.ctx) w.addr w.data.length = true := (State.canWrite_near hn hpage).trans (nearPlace_isSome hplace)
  obtain ⟨loc, hloc⟩ := Option.isSome_iff_exists.mp (nearPlace_isSome hplace)
  obtain ⟨⟨idx, o, off⟩, hreach, -⟩ := Option.bind_eq_some_iff.mp hloc
  have hpiece : (s.writeBytes (s.hostView w.ctx) (.tmv, aptSlot) w.addr w.data).1 = (s.store k w.data).markDirty idx := by
    unfold State.writeBytes
    rw [piecesOf_page hn hpage]
    unfold State.writeL State.writeL State.writePiece
    rw [hreach, List.take_length]
    rcases hplace with hp | hp
    · rw [hp]
      dsimp only
      rw [State.awake_touch s hawake]
    · rw [hp]
      dsimp only
      rw [State.awake_touch s hawake]
  refine ⟨idx, ?_⟩
  have hf : s.frame [.mem, .poison, .bch, .objs] ((s.store k w.data).markDirty idx) := (State.frame.refl _ s).store.markDirty
  obtain ⟨-, -, hstall, -⟩ := hawake
  unfold State.aptLand
  rw [State.tryOnce_done s _ ?_ hstall]
  · dsimp only
    rw [if_pos hcan, hpiece]
  · dsimp only
    rw [if_pos hcan, hpiece, hf.pwr_eq, hstall]

/-! ### A write that meets a gated domain -/

/-- A domain whose clock is stopped and which is among those woken is waking. -/
theorem State.dom_wakeDoms_clock {d : Nat} : ∀ (ds : List Nat) (s : State), (d ∈ ds ∧ s.dom d = .clockGated) ∨ s.dom d = .waking true →
    (s.wakeDoms ds).dom d = .waking true
  | [], _, h => by
    rcases h with ⟨hm, -⟩ | h
    · cases hm
    · exact h
  | k :: ds, s, h => by
    refine State.dom_wakeDoms_clock ds (s.wakeDom k) ?_
    by_cases hk : d = k
    · subst hk
      refine .inr ?_
      unfold State.wakeDom
      rcases h with ⟨-, h⟩ | h
      · rw [h]
        exact State.dom_setDom_self _ _ _
      · rw [h]
        exact h
    · rw [s.dom_wakeDom_other hk]
      exact h.imp_left fun ⟨hm, hd⟩ => ⟨(List.mem_cons.mp hm).resolve_left hk, hd⟩

theorem State.dom_wakeDoms_on {d : Nat} : ∀ (ds : List Nat) (s : State), s.dom d = .on → (s.wakeDoms ds).dom d = .on
  | [], _, h => h
  | k :: ds, s, h => by
    refine State.dom_wakeDoms_on ds (s.wakeDom k) ?_
    by_cases hk : d = k
    · subst hk
      rw [State.wakeDom_on s _ h]
      exact h
    · rw [s.dom_wakeDom_other hk]
      exact h

theorem State.mode_wakeDom (s : State) (d : Nat) : (s.wakeDom d).pwr.mode = s.pwr.mode := by
  have hport : ∀ v : State, (v.wakePort d).pwr = v.pwr := fun v => by
    unfold State.wakePort
    extract_lets p
    split <;> rfl
  unfold State.wakeDom
  split
  · rfl
  · rw [hport]
    rfl
  · split
    · rfl
    · rw [hport]
      rfl
  · rfl

theorem State.mode_wakeDoms (ds : List Nat) (s : State) : (s.wakeDoms ds).pwr.mode = s.pwr.mode := by
  induction ds generalizing s with
  | nil => rfl
  | cons d ds ih => exact (ih (s.wakeDom d)).trans (s.mode_wakeDom d)

/-- A write that meets a gated domain stores nothing: it waits, and the domains that it met wake. -/
theorem State.aptLand_waits {w : AptWrite} (hcan : s.canWrite (s.hostView w.ctx) w.addr w.data.length = true) (h : (s.aptLand w).2 = false) :
    s.aptLand w = (s.wakeDoms (s.gatedBy (s.writeBytes (s.hostView w.ctx) (.tmv, aptSlot) w.addr w.data).1), false) := by
  have hf : s.aptLand w = s.tryOnce fun s =>
      if s.canWrite (s.hostView w.ctx) w.addr w.data.length then (s.writeBytes (s.hostView w.ctx) (.tmv, aptSlot) w.addr w.data).1 else s.aptFault w.ctx := rfl
  rw [hf] at h ⊢
  have hne : s.gatedBy (s.writeBytes (s.hostView w.ctx) (.tmv, aptSlot) w.addr w.data).1 ≠ [] := fun he => by
    unfold State.tryOnce at h
    simp only [hcan, if_true, he, List.isEmpty_nil] at h
    exact Bool.noConfusion h
  rw [State.tryOnce_waits s _ (by simpa only [hcan, if_true] using hne)]
  simp only [hcan, if_true]

theorem State.fld_addFld_at (s : State) (c : CtxId) {f : Fld} (h : f.lo + f.width ≤ 64) :
    (s.addFld (f.at c) 1).fld (f.at c) = min (2 ^ f.width - 1) (s.fld (f.at c) + 1) := State.fld_addFld_self s (f.at c) 1 h

/-- A faulting access counts. -/
theorem State.aptFault_counts (s : State) (c : CtxId) :
    (s.aptFault c).fld (Reg.ctxAptStat_faults.at c) = min (2 ^ 32 - 1) (s.fld (Reg.ctxAptStat_faults.at c) + 1) := by
  have h := s.fld_addFld_at c (f := Reg.ctxAptStat_faults) (by decide)
  have hw : Reg.ctxAptStat_faults.width = 32 := rfl
  rw [hw] at h
  exact h

/-- Settles O32. -/
theorem aperture : Obligations.Aperture := by
  unfold Obligations.Aperture
  intro off n data c k s hs hentry hapt hbar hlen haddr a w
  have hbar' : 0 < n ∧ off % 4096 + n ≤ 4096 := by
    unfold aptInBar at hbar
    simp only [Bool.and_eq_true, decide_eq_true_eq] at hbar
    exact ⟨hbar.1.2, hbar.2⟩
  obtain ⟨hn, hoff⟩ := hbar'
  have hpage : a % 4096 + n ≤ 4096 := by
    have ha : a = s.fld (Reg.ctxAptBase_addr.at c) * 2 ^ 30 + off := rfl
    omega
  have hwlen : w.data.length = n := by
    show (data.map _).length = n
    rw [List.length_map, hlen]
  have hread := hs.apertureRead hapt hbar
  have hwrite := hs.apertureWrite (data := data) hapt (by rw [hlen]; exact hbar) (by rw [hlen]; exact haddr)
  obtain ⟨hrun, -, -, -, hon, hnone⟩ := hs
  rw [State.putOff_drain hnone] at hread hwrite
  refine ⟨fun hcan hwaits => ?_, fun hawake => ⟨fun hplace hclean => ?_, fun hplace => ?_, fun hcan => ?_, fun hcan => ?_⟩⟩
  · have hland := State.aptLand_waits (w := w) (by rw [hwlen]; exact hcan) hwaits
    rw [show s.hostLand (.write _) = s.aptLand w from rfl, hland, if_neg Bool.false_ne_true] at hwrite
    generalize hG : s.gatedBy (s.writeBytes (s.hostView w.ctx) (.tmv, aptSlot) w.addr w.data).1 = G at hwrite
    have hkeep := State.wakeDoms_eq G s
    have hwakes : ∀ l, State.hostWakes { s.wakeDoms G with aptWait := l } = { s.wakeDoms G with aptWait := l } := fun l =>
      State.hostWakes_run ((State.mode_wakeDoms G s).trans hrun) (State.dom_wakeDoms_on G s hon)
    have hapts : (s.wakeDoms G).aptWait = [] := by rw [hkeep, hnone]
    rw [hwakes, hapts] at hwrite
    refine ⟨_, hwrite, by rw [hkeep], fun d hd hstall => ?_⟩
    refine State.dom_wakeDoms_clock G s (.inl ⟨?_, hd⟩)
    rw [← hG]
    exact List.mem_filter.mpr ⟨hstall, by rw [hd]; rfl⟩
  · obtain ⟨hdone, hf, hout⟩ := hawake.readLands hn hpage haddr hplace hclean
    rw [show s.hostLand (.read 0 c true (s.aptAddr c off) n) = s.aptReadLand c true a n from rfl, if_pos hdone] at hread
    exact ⟨_, hread, hf.mem_eq, hf.ctxs_eq, hout⟩
  · obtain ⟨idx, hland⟩ := hawake.writeLands (w := w) (k := k) (by omega) (by rw [hwlen]; exact hpage) hplace
    have hf : s.frame [.mem, .poison, .bch, .objs] ((s.store k w.data).markDirty idx) := (State.frame.refl _ s).store.markDirty
    have hwakes : ((s.store k w.data).markDirty idx).hostWakes = (s.store k w.data).markDirty idx :=
      State.hostWakes_run (by rw [hf.pwr_eq, hrun]) (by rw [State.dom, hf.pwr_eq]; exact hon)
    rw [show s.hostLand (.write _) = s.aptLand w from rfl, hland, if_pos rfl, hwakes] at hwrite
    have hmem : ((s.store k w.data).markDirty idx).mem = (s.store k w.data).mem := ((State.frame.refl [.objs] (s.store k w.data)).markDirty).mem_eq
    refine ⟨_, hwrite, hf.eq_take, fun i b hb => ?_, fun j hj => ?_⟩
    · rw [hmem]
      exact State.store_get (s := s) k i _ (b, false) (by rw [List.getElem?_map, hb]; rfl)
    · rw [hmem]
      exact State.store_get_other (s := s) k j _ (by rwa [hwlen])
  · have hland : s.hostLand (.read 0 c true (s.aptAddr c off) n) = ((s.aptFault c).emit .completerAbort, true) := by
      show s.aptReadLand c true a n = _
      unfold State.aptReadLand
      extract_lets v
      exact if_pos (by simp [v, hcan])
    rw [hland, if_pos rfl] at hread
    have hout : (s.aptFault c).out = s.out := ((State.frame.refl [.regs] s).aptFault).out_eq
    refine ⟨_, hread, ((State.frame.refl [.regs, .out] s).aptFault.emit).eq_take, congrArg (· ++ [Out.completerAbort]) hout, ?_⟩
    exact (State.fld_congr (s := s.aptFault c) (t := (s.aptFault c).emit .completerAbort) ((State.frame.refl [.out] (s.aptFault c)).emit).regs_eq _).trans (s.aptFault_counts c)
  · have hland : s.hostLand (.write w) = (s.aptFault c, true) := by
      show s.aptLand w = _
      obtain ⟨-, -, hstall, -⟩ := hawake
      have hcan' : s.canWrite (s.hostView w.ctx) w.addr w.data.length = false := by rw [hwlen]; exact hcan
      unfold State.aptLand
      rw [State.tryOnce_done s _ ?_ hstall]
      · simp only [hcan', Bool.false_eq_true, if_false]
        rfl
      · simp only [hcan', Bool.false_eq_true, if_false]
        exact hstall
    have hpwr : (s.aptFault c).pwr = s.pwr := ((State.frame.refl [.regs] s).aptFault).pwr_eq
    have hwakes : (s.aptFault c).hostWakes = s.aptFault c := State.hostWakes_run (by rw [hpwr, hrun]) (by rw [State.dom, hpwr]; exact hon)
    rw [show s.hostLand (.write _) = s.hostLand (.write w) from rfl, hland, if_pos rfl, hwakes] at hwrite
    exact ⟨_, hwrite, ((State.frame.refl [.regs] s).aptFault).eq_take, s.aptFault_counts c⟩

end Sys2Proof.Machine
end

section
/-! PROOFS. What the engines' work keeps: the bytes outside the objects of its context, and the commands in execution. -/

namespace Sys2Proof.Machine

set_option Elab.async false

open Sys2Proof

variable {s t u : State}

/-! ### The entries of a map -/

theorem SMap.mem_of_find? {α : Type} {i : Nat} {x : α} : ∀ {m : SMap α}, SMap.find? m i = some x → (i, x) ∈ m
  | (k, v) :: m, h => by
    unfold SMap.find? at h
    split at h
    · rename_i hik
      rw [hik, Option.some.inj h]
      exact List.mem_cons_self
    · exact List.mem_cons_of_mem _ (SMap.mem_of_find? h)

theorem SMap.mem_insert {α : Type} {i : Nat} {x : α} {e : Nat × α} : ∀ {m : SMap α}, e ∈ SMap.insert m i x → e = (i, x) ∨ e ∈ m
  | [], h => .inl (List.mem_singleton.mp h)
  | (k, v) :: m, h => by
    unfold SMap.insert at h
    split at h
    · exact (List.mem_cons.mp h).imp_right (List.mem_cons_of_mem _)
    · split at h
      · exact List.mem_cons.mp h
      · rcases List.mem_cons.mp h with h | h
        · exact .inr (h ▸ List.mem_cons_self)
        · exact (SMap.mem_insert h).imp_right (List.mem_cons_of_mem _)

/-! ### The place of a write -/

theorem State.homeLoc_keys {idx : Nat} {o : Obj} {off k : Nat} (h : nearPlace (s.homeLoc idx o off) k) : k = kT0 idx off ∨ k = kT1 idx off := by
  unfold State.homeLoc at h
  split at h
  · rcases h with h | h
    · exact .inl (Loc.t0.inj (Option.some.inj h)).symm
    · cases h
  · rcases h with h | h
    · cases h
    · exact .inr (Loc.t1.inj (Option.some.inj h)).symm
  · extract_lets p at h
    split at h <;> simp [nearPlace] at h
  · split at h
    · simp [nearPlace] at h
    · split at h <;> simp [nearPlace] at h

/-- The key of a byte in T0 or T1 is that of its object and offset. -/
theorem State.readLoc_keys {idx : Nat} {o : Obj} {off k : Nat} (h : nearPlace (s.readLoc idx o off) k) : k = kT0 idx off ∨ k = kT1 idx off := by
  unfold State.readLoc at h
  split at h
  · rcases h with h | h
    · exact .inl (Loc.t0.inj (Option.some.inj h)).symm
    · cases h
  · split at h
    · rcases h with h | h
      · cases h
      · exact .inr (Loc.t1.inj (Option.some.inj h)).symm
    · exact State.homeLoc_keys h

/-- An address lies in the object it reaches. -/
theorem State.reach_within {v : View} {a : Nat} {r : Nat × Obj × Nat} (h : s.reach v a = some r) : r.2.2 < r.2.1.size * 4096 := by
  unfold State.reach at h
  split at h
  · cases h
  · obtain ⟨b, -, hobj⟩ := Option.bind_eq_some_iff.mp h
    obtain ⟨e, he, hin⟩ := Option.bind_eq_some_iff.mp hobj
    have hfound := List.find?_some he
    simp only [Bool.and_eq_true] at hfound
    obtain ⟨-, hholds⟩ := hfound
    unfold Obj.holds at hholds
    simp only [Bool.and_eq_true, decide_eq_true_eq] at hholds
    obtain ⟨hlo, hhi⟩ := hholds
    split at hin
    · cases hin
    · obtain rfl := Option.some.inj hin
      show b - e.2.base * 4096 < e.2.size * 4096
      rw [Nat.add_mul] at hhi
      omega

theorem State.writePlace_owner {v : View} {a : Nat} {r : Nat × Obj × Nat} {l : Loc} (hr : s.reach v a = some r) (h : s.writePlace v a = some l) :
    r.2.1.owner = v.ctx ∧ s.readLoc r.1 r.2.1 r.2.2 = some l := by
  unfold State.writePlace at h
  rw [hr, Option.bind_some] at h
  split at h
  · cases h
  · rename_i hown
    exact ⟨not_ne_iff.mp (not_or.mp hown).2, h⟩

theorem State.writePlace_page {v : View} {a k i : Nat} (hi : a % 4096 + i < 4096) (h : nearPlace (s.writePlace v a) k) :
    nearPlace (s.writePlace v (a + i)) (k + i) := by
  have hstep : ∀ {p q : Loc}, (∀ r : Nat × Obj × Nat, s.readLoc r.1 r.2.1 r.2.2 = some p → s.readLoc r.1 r.2.1 (r.2.2 + i) = some q) →
      s.writePlace v a = some p → s.writePlace v (a + i) = some q := fun hloc hp => by
    obtain ⟨r, hr, hl⟩ := Option.bind_eq_some_iff.mp hp
    split at hl
    · cases hl
    · rename_i hown
      rw [State.writePlace, State.reach_page hi hr, Option.bind_some, if_neg hown]
      exact hloc r hl
  exact h.imp (hstep fun r => (State.readLoc_plus i).1) (hstep fun r => (State.readLoc_plus i).2)

/-- A write puts bytes of T0 and T1 only into objects of its context. -/
theorem State.writePlace_own {v : View} {a k : Nat} (h : nearPlace (s.writePlace v a) k) : s.ownKey v.ctx k := by
  have hin : ∀ l, s.writePlace v a = some l → nearPlace (some l) k → s.ownKey v.ctx k := fun l hl hnear => by
    obtain ⟨r, hr, -⟩ := Option.bind_eq_some_iff.mp hl
    obtain ⟨hown, hloc⟩ := State.writePlace_owner hr hl
    exact ⟨(r.1, r.2.1), State.reach_mem hr, hown, r.2.2, State.reach_within hr, State.readLoc_keys (s := s) (by rw [hloc]; exact hnear)⟩
  rcases h with h | h
  · exact hin _ h (.inl rfl)
  · exact hin _ h (.inr rfl)

/-- The pieces of a span lie in one page each. -/
theorem pieces_page : ∀ (fuel a n : Nat), ∀ p ∈ pieces fuel a n, p.1 % 4096 + p.2 ≤ 4096
  | 0, _, _, _, h => nomatch h
  | fuel + 1, a, n, p, h => by
    unfold pieces at h
    split at h
    · cases h
    · extract_lets k at h
      rcases List.mem_cons.mp h with rfl | h
      · have hk : k ≤ 4096 - a % 4096 := Nat.min_le_right _ _
        have := Nat.mod_lt a (show 0 < 4096 by decide)
        show a % 4096 + k ≤ 4096
        omega
      · exact pieces_page fuel _ _ p h

/-! ### What the work of a command keeps -/

/-- What the work of a command of context c may do to the memory and to the commands in execution: no byte changes outside the objects of c, which
stay its own, and each command stays in execution, with its result if it has one. -/
structure State.works (c : CtxId) (s t : State) : Prop where
  keys : ∀ k, t.ownKey c k → s.ownKey c k
  mem : ∀ k, ¬ s.ownKey c k → SMap.get 0 t.mem k = SMap.get 0 s.mem k
  execs : ∀ y ∈ s.running, ∃ z ∈ t.running, z.ctx = y.ctx ∧ z.eng = y.eng ∧ z.slot = y.slot ∧ (y.result ≠ none → z.result ≠ none)

/-- The parts that work changes beside the memory, the objects' marks and the commands in execution. -/
@[simp] def quietParts : List StatePart :=
  [.freeCtr, .regs, .blks, .armings, .link, .pwr, .pcie, .log, .logNext, .out, .deposits, .hostMem, .poison, .bch]

namespace State.works

variable {c : CtxId}

theorem refl (c : CtxId) (s : State) : State.works c s s :=
  ⟨fun _ h => h, fun _ _ => rfl, fun y hy => ⟨y, hy, rfl, rfl, rfl, id⟩⟩

theorem trans (h : State.works c s t) (k : State.works c t u) : State.works c s u where
  keys j hj := h.keys j (k.keys j hj)
  mem j hj := (k.mem j fun hown => hj (h.keys j hown)).trans (h.mem j hj)
  execs y hy := by
    obtain ⟨z, hz, hc, he, hs, hr⟩ := h.execs y hy
    obtain ⟨w, hw, kc, ke, ks, kr⟩ := k.execs z hz
    exact ⟨w, hw, kc.trans hc, ke.trans he, ks.trans hs, fun h => kr (hr h)⟩

theorem of_parts (hm : t.mem = s.mem) (ho : t.objs = s.objs) (hr : t.running = s.running) : State.works c s t where
  keys k hk := by
    unfold State.ownKey at hk ⊢
    rwa [ho] at hk
  mem k _ := by rw [hm]
  execs y hy := ⟨y, hr ▸ hy, rfl, rfl, rfl, id⟩

/-- A step that leaves memory, objects and the commands in execution alone. -/
theorem quiet (h : State.works c s t) (k : t.frame quietParts u) : State.works c s u := h.trans (.of_parts k.mem_eq k.objs_eq k.running_eq)

theorem updExec (h : State.works c s t) {d : CtxId} {e : Engine} {slot : Nat} {f : Exec → Exec}
    (hf : ∀ x, (f x).ctx = x.ctx ∧ (f x).eng = x.eng ∧ (f x).slot = x.slot ∧ (x.result ≠ none → (f x).result ≠ none)) :
    State.works c s (t.updExec d e slot f) := by
  refine h.trans ⟨fun _ hk => hk, fun _ _ => rfl, fun y hy => ⟨_, List.mem_map_of_mem hy, ?_⟩⟩
  split
  · exact hf y
  · exact ⟨rfl, rfl, rfl, id⟩

theorem image (h : State.works c s t) {d : CtxId} {e : Engine} {slot : Nat} {img : List Byte} {fmt exp : Nat} {poisoned : Bool} :
    State.works c s (t.image d e slot img fmt exp poisoned) := h.updExec fun _ => ⟨rfl, rfl, rfl, id⟩

theorem report (h : State.works c s t) {d : CtxId} {e : Engine} {slot : Nat} {r : Report} : State.works c s (t.report d e slot r) :=
  h.updExec fun _ => ⟨rfl, rfl, rfl, fun _ => Option.some_ne_none _⟩

theorem markDirty (h : State.works c s t) {idx : Nat} : State.works c s (t.markDirty idx) := by
  refine h.trans ?_
  unfold State.markDirty
  split
  · exact .refl c t
  · rename_i o hfind
    split
    · refine ⟨fun k hk => ?_, fun _ _ => rfl, fun y hy => ⟨y, hy, rfl, rfl, rfl, id⟩⟩
      obtain ⟨e, he, hown, off, hoff, hkey⟩ := hk
      rcases SMap.mem_insert he with rfl | he
      · exact ⟨(idx, o), SMap.mem_of_find? hfind, hown, off, hoff, hkey⟩
      · exact ⟨e, he, hown, off, hoff, hkey⟩
    · exact .refl c t

theorem store (h : State.works c s t) {k : Nat} {data : List SB} (hown : ∀ i, i < data.length → t.ownKey c (k + i)) :
    State.works c s (t.store k data) := by
  have hf : t.frame [.mem, .poison, .bch] (t.store k data) := (State.frame.refl _ t).store
  refine h.trans ⟨fun j hj => ?_, fun j hj => ?_, fun y hy => ⟨y, hf.running_eq ▸ hy, rfl, rfl, rfl, id⟩⟩
  · unfold State.ownKey at hj ⊢
    rwa [hf.objs_eq] at hj
  · refine State.store_get_other (s := t) k j data (Decidable.byContradiction fun hin => hj ?_)
    have hjk : k + (j - k) = j := by omega
    have := hown (j - k) (by omega)
    rwa [hjk] at this

/-- A write within a page. -/
theorem writePiece (h : State.works c s t) {v : View} {who : Engine × Nat} {a : Nat} {data : List SB} (hv : v.ctx = c)
    (hpage : a % 4096 + data.length ≤ 4096) : State.works c s (t.writePiece v who a data).1 := by
  have hown : ∀ k, nearPlace (t.writePlace v a) k → ∀ i, i < data.length → t.ownKey c (k + i) := fun k hk i hi =>
    hv ▸ State.writePlace_own (State.writePlace_page (by omega) hk)
  have htouch : ∀ ds k, (∀ i, i < data.length → t.ownKey c (k + i)) → State.works c s ((t.touch ds).store k data) := fun ds k hk => by
    refine (h.quiet (State.frame.refl quietParts t).touch).store fun i hi => ?_
    rw [State.touch_pwr t]
    exact hk i hi
  unfold State.writePiece
  split
  · rename_i hplace
    extract_lets +onlyGivenNames s1
    split
    · exact (htouch _ _ (hown _ (.inl hplace))).markDirty
    · exact (htouch _ _ (hown _ (.inr hplace))).markDirty
    · exact h.quiet (State.frame.refl quietParts t).hostStore
    · exact h.quiet (State.frame.refl quietParts t).overlay.peerWrite
    · exact h
  · exact h

theorem writeL {v : View} {who : Engine × Nat} (hv : v.ctx = c) {ps : List (Nat × Nat)} (hps : ∀ p ∈ ps, p.1 % 4096 + p.2 ≤ 4096) {data : List SB}
    (h : State.works c s t) : State.works c s (t.writeL v who ps data).1 := by
  induction ps generalizing t data with
  | nil => exact h
  | cons p ps ih =>
    unfold State.writeL
    extract_lets r
    refine ih (fun q hq => hps q (List.mem_cons_of_mem _ hq)) (h.writePiece hv ?_)
    have := hps p List.mem_cons_self
    have := List.length_take_le p.2 data
    omega

theorem writeBytes (h : State.works c s t) {v : View} {who : Engine × Nat} {a : Nat} {data : List SB} (hv : v.ctx = c) :
    State.works c s (t.writeBytes v who a data).1 := writeL hv (fun p hp => pieces_page _ _ _ p hp) h

theorem writeHdr (h : State.works c s t) {v : View} {who : Engine × Nat} {a : Nat} {hd : Hdr} (hv : v.ctx = c) :
    State.works c s (t.writeHdr v who a hd).1 := by
  unfold State.writeHdr
  split
  · exact h
  · exact h.writeBytes hv

end State.works

/-! ### The work that reports -/

/-- The work is within the context's objects, and the command that was in execution has a result. -/
def State.finishes (c : CtxId) (e : Engine) (slot : Nat) (s t : State) : Prop :=
  State.works c s t ∧ ((∃ y ∈ s.running, y.ctx = c ∧ y.eng = e ∧ y.slot = slot) → t.resulted c e slot)

/-- A report after work. -/
theorem State.works.reports {c : CtxId} {e : Engine} {slot : Nat} {r : Report} (h : State.works c s t) :
    State.finishes c e slot s (t.report c e slot r) := by
  refine ⟨h.report, fun ⟨y, hy, hc, he, hs⟩ => ?_⟩
  obtain ⟨z, hz, kc, ke, ks, -⟩ := h.execs y hy
  refine ⟨_, List.mem_map_of_mem hz, ?_⟩
  rw [if_pos ⟨kc.trans hc, ke.trans he, ks.trans hs⟩]
  exact ⟨kc.trans hc, ke.trans he, ks.trans hs, Option.some_ne_none _⟩

/-- Work after a report. -/
theorem State.finishes.then {c : CtxId} {e : Engine} {slot : Nat} (h : State.finishes c e slot s t) (k : State.works c t u) :
    State.finishes c e slot s u := by
  obtain ⟨hworks, hres⟩ := h
  refine ⟨hworks.trans k, fun hrun => ?_⟩
  obtain ⟨y, hy, hc, he, hs, hr⟩ := hres hrun
  obtain ⟨z, hz, kc, ke, ks, kr⟩ := k.execs y hy
  exact ⟨z, hz, kc.trans hc, ke.trans he, ks.trans hs, kr hr⟩

/-- Work before work that reports. -/
theorem State.works.finishes {c : CtxId} {e : Engine} {slot : Nat} (h : State.works c s t) (k : State.finishes c e slot t u) :
    State.finishes c e slot s u := by
  obtain ⟨hworks, hres⟩ := k
  refine ⟨h.trans hworks, fun ⟨y, hy, hc, he, hs⟩ => hres ?_⟩
  obtain ⟨z, hz, kc, ke, ks, -⟩ := h.execs y hy
  exact ⟨z, hz, kc.trans hc, ke.trans he, ks.trans hs⟩

/-! ### A command that runs at its turn -/

/-- The parts that the work of an engine changes. -/
@[simp] def engineParts : List StatePart :=
  [.freeCtr, .regs, .running, .mem, .hostMem, .deposits, .poison, .bch, .objs, .blks, .armings, .link, .pwr, .pcie, .log, .logNext, .out]

theorem State.workReady.awaited {ds : List Nat} {f : State → State} (h : s.workReady ds f) (c : CtxId) (e : Engine) (slot : Nat) :
    s.awaitPeers ds c e slot f = { f (s.touch ds) with deposits := if s.deposits.isEmpty then (f (s.touch ds)).deposits else [] } :=
  State.awaitPeers_ready h.1 h.2

theorem State.canRun.found {c : CtxId} {e : Engine} {slot op : Nat} {x : Exec} (h : s.canRun c e slot op x) :
    x ∈ s.running ∧ x.ctx = c ∧ x.eng = e ∧ x.slot = slot := by
  obtain ⟨hfind, -, -, -⟩ := h
  have hx := List.find?_some hfind
  simp only [Bool.and_eq_true, decide_eq_true_eq] at hx
  obtain ⟨⟨hc, he⟩, hs⟩ := hx
  exact ⟨List.mem_of_find?_eq_some hfind, hc, he, hs⟩

/-- A command whose work can run does it, with every domain of its engine named as needed. -/
theorem State.engineRun_works {c : CtxId} {e : Engine} {slot op : Nat} {x : Exec} {f : Exec → State → State} (hcan : s.canRun c e slot op x)
    (hready : s.workReady (engineDoms e) (f x)) : s.engineRun c e slot op f =
      { (f x (s.touch (engineDoms e))).keepStreams (s.touch (engineDoms e)) x with
        deposits := if s.deposits.isEmpty then (f x (s.touch (engineDoms e))).deposits else [] } := by
  obtain ⟨-, hc, he, hs⟩ := hcan.found
  obtain ⟨hfind, hop, hres, hin⟩ := hcan
  have hwork : (s.touch (engineDoms e)).workOf x f = (f x (s.touch (engineDoms e))).keepStreams (s.touch (engineDoms e)) x := by
    have hin' : (s.touch (engineDoms e)).streamsIn x.ctx x.eng (x.slot % 4096) = true := by
      rw [hc, he, hs, State.touch_pwr s]
      exact hin
    unfold State.workOf
    exact if_pos (by rw [hin', Bool.true_or])
  unfold State.engineRun
  rw [hfind]
  dsimp only
  rw [if_pos ⟨hop, hres⟩, State.withPeers, State.workReady.awaited (f := fun s => s.workOf x f) ?_ c e slot]
  · dsimp only
    rw [hwork]
    congr 1
    rw [State.keepStreams_eq]
  · unfold State.workReady
    dsimp only
    rw [hwork, State.keepStreams_pwr, State.keepStreams_link]
    exact hready

/-- Work that reports, of a command whose work can run. -/
theorem State.engineRun_reports {c : CtxId} {e : Engine} {slot op : Nat} {x : Exec} {f : Exec → State → State} (hcan : s.canRun c e slot op x)
    (hready : s.workReady (engineDoms e) (f x)) (hfin : State.finishes x.ctx x.eng x.slot (s.touch (engineDoms e)) (f x (s.touch (engineDoms e)))) :
    State.works c s (s.engineRun c e slot op f) ∧ (s.engineRun c e slot op f).resulted c e slot := by
  obtain ⟨hmem, hc, he, hs⟩ := hcan.found
  rw [hc, he, hs] at hfin
  have hall : State.finishes c e slot s (s.engineRun c e slot op f) := by
    rw [State.engineRun_works hcan hready]
    refine State.finishes.then (((State.works.refl c s).quiet (State.frame.refl quietParts s).touch).finishes hfin) ?_
    exact State.works.of_parts (State.keepStreams_mem (s := s.touch (engineDoms e)) _ _) (by rw [State.keepStreams_eq])
      (State.keepStreams_running (s := s.touch (engineDoms e)) _ _)
  exact ⟨hall.1, hall.2 ⟨x, hmem, hc, he, hs⟩⟩

/-- Work that reports and keeps the frame of the engines, of a command whose work can run. -/
theorem State.engineRun_finishes {c : CtxId} {e : Engine} {slot op : Nat} {x : Exec} {f : Exec → State → State} (hcan : s.canRun c e slot op x)
    (hready : s.workReady (engineDoms e) (f x)) (hfin : State.finishes x.ctx x.eng x.slot (s.touch (engineDoms e)) (f x (s.touch (engineDoms e))))
    (hframe : (s.touch (engineDoms e)).frame engineParts (f x (s.touch (engineDoms e)))) :
    (s.engineRun c e slot op f).resulted c e slot ∧ s.engineFrame (s.engineRun c e slot op f) c := by
  have hall : s.frame engineParts (s.engineRun c e slot op f) := by
    rw [State.engineRun_works hcan hready]
    exact (State.frame.keepStreams (((State.frame.refl engineParts s).touch).trans hframe)).update
  obtain ⟨hworks, hres⟩ := State.engineRun_reports hcan hready hfin
  exact ⟨hres, hall.pending_eq, hall.ctxs_eq, hall.models_eq, hall.quotas_eq, hall.sysCnt_eq, hall.cells_eq,
    hall.tsets_eq, hall.time_eq, hall.sec_eq, hworks.mem⟩

end Sys2Proof.Machine
end

section
/-! PROOFS. The commands of VEC and CAF complete, within the objects of their context. -/

namespace Sys2Proof.Machine

set_option Elab.async false

open Sys2Proof

variable {s t u : State}

variable {x : Exec}

/-- Work that reports after steps that leave memory and commands alone. -/
theorem State.frame.finishing {c : CtxId} {e : Engine} {slot : Nat} (h : s.frame quietParts t) (k : State.finishes c e slot t u) :
    State.finishes c e slot s u := ((State.works.refl c s).quiet h).finishes k

/-- A report after steps that leave memory and commands alone. -/
theorem State.frame.reporting {c : CtxId} {e : Engine} {slot : Nat} {r : Report} (h : s.frame quietParts t) :
    State.finishes c e slot s (t.report c e slot r) := ((State.works.refl c s).quiet h).reports

theorem State.finishes.either {c : CtxId} {e : Engine} {slot : Nat} {p : Prop} [Decidable p] (h : State.finishes c e slot s t)
    (k : State.finishes c e slot s u) : State.finishes c e slot s (if p then t else u) := by
  split
  · exact h
  · exact k

/-! ### VEC (R44 to R66, R491) -/

theorem State.works.writeOuts {outs : List VecOut} (h : State.works x.ctx s t) : State.works x.ctx s (t.writeOuts x outs).1 := by
  induction outs generalizing t with
  | nil => exact h
  | cons o outs ih =>
    unfold State.writeOuts
    extract_lets +onlyGivenNames r h' q
    exact ih ((h.writeBytes rfl).writeHdr rfl)

theorem State.vecFinish_finishes {outs img : List VecOut} {sts : List Status} {port : Nat} {rerun : Bool} :
    State.finishes x.ctx x.eng x.slot s (s.vecFinish x outs img sts port rerun) := by
  unfold State.vecFinish
  extract_lets +onlyGivenNames w n sts' s1
  have hw : State.works x.ctx s w.1 := (State.works.refl x.ctx s).writeOuts
  have h1 : State.works x.ctx s s1 := by
    unfold s1
    split
    · exact hw
    · exact hw.image
  exact h1.reports

theorem quantRun_finishes : State.finishes x.ctx x.eng x.slot s (quantRun x s) := by
  have h := State.frame.refl quietParts s
  unfold quantRun
  extract_lets +onlyGivenNames e
  split
  next heq => exact (h.readSrc.cast heq).reporting
  next s1 heq =>
    have h1 : s.frame quietParts s1 := h.readSrc.cast heq
    split
    next heq => exact (h1.readOutliers.cast heq).reporting
    next s2 heq =>
      have h2 : s.frame quietParts s2 := h1.readOutliers.cast heq
      exact .either (State.frame.finishing (State.frame.either h2.addStats.addFld h2.addStats) State.vecFinish_finishes) h2.reporting

theorem funcRun_finishes : State.finishes x.ctx x.eng x.slot s (funcRun x s) := by
  have h := State.frame.refl quietParts s
  unfold funcRun
  extract_lets +onlyGivenNames e
  split
  next heq => exact (h.readSrc.cast heq).reporting
  next heq => exact (h.readSrc.cast heq).finishing State.vecFinish_finishes

theorem scaleFindRun_finishes : State.finishes x.ctx x.eng x.slot s (scaleFindRun x s) := by
  have h := State.frame.refl quietParts s
  unfold scaleFindRun
  extract_lets +onlyGivenNames e
  split
  next heq => exact (h.readSrc.cast heq).reporting
  next heq => exact (h.readSrc.cast heq).finishing State.vecFinish_finishes

theorem rowRun_finishes {op : Nat} {f : Entry → List F32 → List F32} : State.finishes x.ctx x.eng x.slot s (rowRun op f x s) := by
  have h := State.frame.refl quietParts s
  unfold rowRun
  extract_lets +onlyGivenNames e
  split
  next heq => exact (h.readSrc.cast heq).reporting
  next heq => exact (h.readSrc.cast heq).finishing State.vecFinish_finishes

theorem rescaleRun_finishes : State.finishes x.ctx x.eng x.slot s (rescaleRun x s) := by
  have h := State.frame.refl quietParts s
  unfold rescaleRun
  extract_lets +onlyGivenNames e
  split
  next heq => exact (h.readSrc.cast heq).reporting
  next s1 heq =>
    have h1 : s.frame quietParts s1 := h.readSrc.cast heq
    extract_lets +onlyGivenNames nb rd s2
    have h2 : s.frame quietParts s2 := h1.readOperand
    extract_lets +onlyGivenNames tab
    split
    · exact h2.reporting
    · exact .either h2.reporting (h2.addStats.finishing State.vecFinish_finishes)

theorem outlierRun_finishes : State.finishes x.ctx x.eng x.slot s (outlierRun x s) := by
  have h := State.frame.refl quietParts s
  unfold outlierRun
  extract_lets +onlyGivenNames e
  split
  next heq => exact (h.readSrc.cast heq).reporting
  next s1 heq =>
    have h1 : s.frame quietParts s1 := h.readSrc.cast heq
    split
    next heq => exact (h1.readHdr.cast heq).reporting
    next hd s2 heq =>
      have h2 : s.frame quietParts s2 := h1.readHdr.cast heq
      refine .either h2.reporting ?_
      split
      next heq => exact (h2.readElems.cast heq).reporting
      next s3 heq =>
        have h3 : s.frame quietParts s3 := h2.readElems.cast heq
        have h4 := h.toward (if e.vAux < 320 then (.error { status := .tierFault }, s3) else
            s3.readOutliers x (e.vAux - 320) (hd.n / hd.ch) : Except Report (List Nat) × State).2 <| by
          split
          · exact h3
          · exact h3.readOutliers
        split
        next heq => exact (h4.cast heq).reporting
        next heq => exact (h4.cast heq).finishing State.vecFinish_finishes

theorem randomRun_finishes : State.finishes x.ctx x.eng x.slot s (randomRun x s) := by
  unfold randomRun
  exact State.vecFinish_finishes

theorem addRun_finishes : State.finishes x.ctx x.eng x.slot s (addRun x s) := by
  have h := State.frame.refl quietParts s
  unfold addRun
  extract_lets +onlyGivenNames e
  split
  next heq => exact (h.readSrc.cast heq).reporting
  next s1 heq =>
    have h1 : s.frame quietParts s1 := h.readSrc.cast heq
    split
    next heq => exact (h1.readSrc.cast heq).reporting
    next heq => exact .either (h1.readSrc.cast heq).reporting ((h1.readSrc.cast heq).addStats.finishing State.vecFinish_finishes)

/-- Settles O33: each run's work reports within the objects of its context. -/
theorem vecCommandsRun : Obligations.VecCommandsRun := by
  unfold Obligations.VecCommandsRun
  intro c slot x s runs
  have hruns : ∀ (i : Instr) (op : Nat) (f : Exec → State → State), exec i s = .next (s.engineRun c .vec slot op f) →
      (∀ s, State.finishes x.ctx x.eng x.slot s (f x s)) → (∀ s : State, s.frame engineParts (f x s)) → runs i op f :=
    fun i op f hexec hfin hframe hcan hready => ⟨_, hexec, State.engineRun_finishes hcan hready (hfin _) (hframe _)⟩
  exact ⟨hruns _ _ _ rfl (fun _ => quantRun_finishes) (fun s => (State.frame.refl _ s).quantRun),
    hruns _ _ _ rfl (fun _ => funcRun_finishes) (fun s => (State.frame.refl _ s).funcRun),
    hruns _ _ _ rfl (fun _ => scaleFindRun_finishes) (fun s => (State.frame.refl _ s).scaleFindRun),
    hruns _ _ _ rfl (fun _ => rowRun_finishes) (fun s => (State.frame.refl _ s).rowRun),
    hruns _ _ _ rfl (fun _ => rowRun_finishes) (fun s => (State.frame.refl _ s).rowRun),
    hruns _ _ _ rfl (fun _ => rescaleRun_finishes) (fun s => (State.frame.refl _ s).rescaleRun),
    hruns _ _ _ rfl (fun _ => outlierRun_finishes) (fun s => (State.frame.refl _ s).outlierRun),
    hruns _ _ _ rfl (fun _ => randomRun_finishes) (fun s => (State.frame.refl _ s).randomRun),
    hruns _ _ _ rfl (fun _ => addRun_finishes) (fun s => (State.frame.refl _ s).addRun)⟩

/-! ### CAF (R79, R111) -/

theorem State.works.mvWrite {dst stride v : Nat} {outs : List (List (Nat × Bool))} (h : State.works x.ctx s t) :
    State.works x.ctx s (t.mvWrite x dst stride v outs).1 := by
  induction outs generalizing t v with
  | nil => exact h
  | cons o outs ih =>
    unfold State.mvWrite
    extract_lets +onlyGivenNames r q
    exact ih (h.writeBytes rfl)

theorem State.mvBody_finishes {j : TsetSlot} {i : MvIn} {faults : List (Nat × Nat × Nat)} :
    State.finishes x.ctx x.eng x.slot s (s.mvBody x j i faults) := by
  unfold State.mvBody
  extract_lets +onlyGivenNames e nv r vecs ints sk removed s1
  have h1 : s.frame quietParts s1 := (State.frame.refl _ s).readRows.addFld.addFld.div
  extract_lets +onlyGivenNames good s2
  have h2 : s.frame quietParts s2 := h1.convFaults
  extract_lets +onlyGivenNames ctr outs s3 w ex h' flat bad s4
  have h3 : s.frame quietParts s3 := State.frame.either h2 h2.update
  exact ((((State.works.refl x.ctx s).quiet h3).mvWrite).writeHdr rfl).image.reports

theorem matvecRun_finishes {faults : List (Nat × Nat × Nat)} : State.finishes x.ctx x.eng x.slot s (matvecRun faults x s) := by
  have h := State.frame.refl quietParts s
  unfold matvecRun
  extract_lets +onlyGivenNames e tset
  split
  next heq => exact (h.readHdr.cast heq).reporting
  next s1 heq =>
    have h1 : s.frame quietParts s1 := h.readHdr.cast heq
    dsimp only
    split
    · split
      next heq => exact (h1.readHdr.cast heq).reporting
      next s2 heq =>
        have h2 : s.frame quietParts s2 := h1.readHdr.cast heq
        split
        · exact h2.reporting
        · exact h2.finishing State.mvBody_finishes
    · split
      · exact h1.reporting
      · exact h1.finishing State.mvBody_finishes

theorem scrubRun_finishes {weak : List (Nat × Nat × Nat)} : State.finishes x.ctx x.eng x.slot s (scrubRun weak x s) := by
  unfold scrubRun
  extract_lets +onlyGivenNames e t' w
  exact ((State.works.refl x.ctx s).writeBytes rfl).reports

/-- Settles O35. -/
theorem cafCommandsRun : Obligations.CafCommandsRun := by
  unfold Obligations.CafCommandsRun
  intro c slot l x s
  exact ⟨fun hcan hready => ⟨_, rfl, State.engineRun_finishes hcan hready matvecRun_finishes (State.frame.refl _ _).matvecRun⟩,
    fun hcan hready => ⟨_, rfl, State.engineRun_finishes hcan hready scrubRun_finishes (State.frame.refl _ _).scrubRun⟩⟩

end Sys2Proof.Machine
end

section
/-! PROOFS. The commands of MXE complete, within the objects of their context, and stall episodes count. -/

namespace Sys2Proof.Machine

set_option Elab.async false

open Sys2Proof

variable {s t u : State}

variable {x : Exec}

/-! ### The weight arming stays -/

/-- The arming that MATMUL consumes for its weights. -/
def weighs (x : Exec) (a : Arming) : Bool :=
  decide (a.ctx = x.ctx) && decide (a.eng = .mxe) && decide (a.slot = Entry.mmWslot x.words) && decide (a.consumer = some (.mxe, x.slot))

theorem State.weightArming_isSome : (s.weightArming x).isSome = true ↔ ∃ a ∈ s.armings, weighs x a = true := by
  unfold State.weightArming
  rw [Option.isSome_map, List.find?_isSome]
  constructor
  · rintro ⟨p, hp, h⟩
    exact ⟨p.1, List.fst_mem_of_mem_zipIdx hp, h⟩
  · rintro ⟨a, ha, h⟩
    obtain ⟨i, hi, rfl⟩ := List.getElem_of_mem ha
    exact ⟨(s.armings[i], i), by simp [List.mem_zipIdx_iff_getElem?, hi], h⟩

theorem State.weightArming_congr (h : t.armings = s.armings) : t.weightArming x = s.weightArming x := by
  unfold State.weightArming
  rw [h]

theorem State.weightArming_setArming {i : Nat} {a b : Arming} (hi : s.armings[i]? = some a) (hb : weighs x b = weighs x a)
    (h : (s.weightArming x).isSome = true) : ((s.setArming i b).weightArming x).isSome = true := by
  rw [State.weightArming_isSome] at h ⊢
  obtain ⟨c, hc, hw⟩ := h
  obtain ⟨j, hj, rfl⟩ := List.getElem_of_mem hc
  have hset : (s.setArming i b).armings = s.armings.set i b := rfl
  rw [hset]
  by_cases hij : i = j
  · subst hij
    refine ⟨b, List.mem_set hj _, hb.trans ?_⟩
    rw [List.getElem?_eq_getElem hj] at hi
    rwa [Option.some.inj hi] at hw
  · exact ⟨s.armings[j], List.mem_iff_getElem?.mpr ⟨j, by rw [List.getElem?_set_ne hij, List.getElem?_eq_getElem hj]⟩, hw⟩

theorem State.weightArming_readRows {addr rb stride rows : Nat} (h : (s.weightArming x).isSome = true) :
    ((s.readRows x addr rb stride rows).2.weightArming x).isSome = true := by
  have hdirect : (s.readDirectRows x.view addr rb stride rows).2.armings = s.armings :=
    ((State.frame.refl [.regs, .blks, .link, .pwr, .pcie, .log, .logNext, .out] s).readDirectRows).armings_eq
  unfold State.readRows
  split
  · rwa [State.weightArming_congr hdirect]
  · split
    · rwa [State.weightArming_congr hdirect]
    · rename_i a hi
      extract_lets bytes
      exact State.weightArming_setArming (b := { a with pos := rb * rows, data := [] }) hi rfl h

/-- A MATMUL that passes its check has its weight arming. -/
theorem State.matCheck_weights {i : MatIn} {hd : Hdr} (h : s.matCheck x i hd = none) : (s.weightArming x).isSome = true := by
  unfold State.matCheck at h
  extract_lets e ill at h
  cases hw : s.weightArming x with
  | some a => rfl
  | none =>
    rw [hw] at h
    simp only [ill] at h
    split_ifs at h

theorem State.matStart_weights {i : MatIn} (h : s.matStart x = (.ok i, t)) : (s.weightArming x).isSome = true := by
  have hread : ∀ {u v : State} {a : Nat} {r : Except Report Hdr}, u.armings = s.armings → u.readHdr x.view a = (r, v) → v.armings = s.armings :=
    fun {u v a r} harm he => by
      have := ((State.frame.refl [.regs, .blks, .link, .pwr, .pcie, .log, .logNext, .out] u).readHdr (v := x.view) (a := a)).armings_eq
      rw [he] at this
      exact this.trans harm
  unfold State.matStart at h
  extract_lets e at h
  split at h
  next => cases h
  next h0 s1 heq =>
    have h1 := hread rfl heq
    extract_lets rd at h
    have hrd : rd.2.armings = s.armings := by
      unfold rd
      split
      · split
        next heq => exact hread h1 heq
        next heq => exact hread h1 heq
      · exact h1
    clear_value rd
    split at h
    next => cases h
    next w s2 =>
      extract_lets hd o at h
      split at h
      · cases h
      · split at h
        · split at h
          · cases h
          · extract_lets base at h
            split at h
            · split at h
              · cases h
              · rename_i hcheck
                rw [← State.weightArming_congr (x := x) hrd]
                exact State.matCheck_weights hcheck
            · split at h
              next => cases h
              next s3 heq =>
                extract_lets j at h
                split at h
                · cases h
                · rename_i hcheck
                  rw [← State.weightArming_congr (x := x) (hread hrd heq)]
                  exact State.matCheck_weights hcheck
        · cases h

/-! ### MATMUL and COMBINE (R127, R130, R142, R143) -/

theorem State.works.writeRows {f : Fmt} {dst stride b : Nat} {rows : List (List (Nat × Bool))} (h : State.works x.ctx s t) :
    State.works x.ctx s (t.writeRows x f dst stride b rows).1 := by
  induction rows generalizing t b with
  | nil => exact h
  | cons o rows ih =>
    unfold State.writeRows
    extract_lets +onlyGivenNames r q
    exact ih (h.writeBytes rfl)

theorem State.mxeFinish_finishes {f : Fmt} {dst stride : Nat} {rows : List (List (Nat × Bool))} {hd : Hdr} {sts : List Status} {port : Nat} :
    State.finishes x.ctx .mxe x.slot s (s.mxeFinish x f dst stride rows hd sts port) := by
  unfold State.mxeFinish
  extract_lets +onlyGivenNames w q flat bad s1
  have hq : State.works x.ctx s q.1 := ((State.works.refl x.ctx s).writeRows).writeHdr rfl
  exact (hq.quiet (State.frame.refl quietParts q.1).addFld).image.reports

theorem State.matBody_finishes {i : MatIn} (h : (s.weightArming x).isSome = true) : State.finishes x.ctx .mxe x.slot s (s.matBody x i) := by
  unfold State.matBody
  extract_lets +onlyGivenNames e rb ra acts
  have h1 : s.frame quietParts ra.2 := (State.frame.refl _ s).readRows
  have hw : (ra.2.weightArming x).isSome = true := State.weightArming_readRows h
  split
  · rename_i hnone
    rw [hnone] at hw
    cases hw
  · extract_lets +onlyGivenNames rw sh rl rs
    have h2 : s.frame quietParts rw.2 := h1.readWeights
    have h3 : s.frame quietParts rl.2 := by
      unfold rl
      split
      · exact h2.readOperand
      · exact h2
    have h4 : s.frame quietParts rs.2 := by
      unfold rs
      split
      · exact h3.readOperand
      · exact h3
    exact h4.finishing State.mxeFinish_finishes

theorem State.matOne_finishes : State.finishes x.ctx .mxe x.slot s (s.matOne x) := by
  have h : s.frame quietParts (s.matStart x).2 := (State.frame.refl _ s).matStart
  unfold State.matOne
  split
  next heq => exact (h.cast heq).reporting
  next i s1 heq =>
    have h1 : s.frame quietParts s1 := h.cast heq
    refine .either h1.reporting (h1.finishing (State.matBody_finishes ?_))
    have harm : s1.armings = s.armings := by
      have := ((State.frame.refl [.regs, .blks, .link, .pwr, .pcie, .log, .logNext, .out] s).matStart (x := x)).armings_eq
      rwa [heq] at this
    rw [State.weightArming_congr harm]
    exact State.matStart_weights heq

theorem State.works.runFills {c : CtxId} {used : Nat} {fills : List Exec} (hfills : ∀ f ∈ fills, f.ctx = c) (h : State.works c s t) :
    State.works c s (t.runFills used fills) := by
  induction fills generalizing t used with
  | nil => exact h
  | cons f fills ih =>
    have hrest := fun g hg => hfills g (List.mem_cons_of_mem _ hg)
    unfold State.runFills
    extract_lets e bad
    clear_value bad
    cases bad with
    | none =>
      obtain ⟨hone, -⟩ := State.matOne_finishes (s := t) (x := f)
      rw [hfills f List.mem_cons_self] at hone
      exact ih hrest (h.trans hone)
    | some p => exact ih hrest h.report

theorem State.works.abortFills {c : CtxId} {fills : List Exec} (h : State.works c s t) : State.works c s (t.abortFills fills) := by
  induction fills generalizing t with
  | nil => exact h
  | cons f fills ih =>
    unfold State.abortFills
    exact ih h.report

theorem matmulRun_finishes : State.finishes x.ctx .mxe x.slot s (matmulRun x s) := by
  have hctx : ∀ f ∈ s.fillsOf x, f.ctx = x.ctx := fun f hf => by
    have := (List.mem_filter.mp hf).2
    simp only [Bool.and_eq_true, decide_eq_true_eq] at this
    exact this.1.1.1
  have hpart : ∀ (p : Exec → Bool), ∀ f ∈ (s.fillsOf x).filter p, f.ctx = x.ctx := fun p f hf => hctx f (List.mem_filter.mp hf).1
  unfold matmulRun
  extract_lets +onlyGivenNames fills
  split
  next s1 heq =>
    have h1 : s.frame quietParts s1 := (State.frame.refl _ s).matStart.cast heq
    refine .either (h1.reporting.then (State.works.refl _ _).abortFills) ?_
    extract_lets s2
    have h2 : State.works x.ctx s s2 := State.works.runFills (hpart _) ((State.works.refl _ s).quiet h1)
    exact h2.reports.then (State.works.runFills (hpart _) (.refl _ _))
  next =>
    extract_lets s2
    have h2 : State.works x.ctx s s2 := State.works.runFills (hpart _) (.refl _ s)
    exact (h2.finishes State.matOne_finishes).then (State.works.runFills (hpart _) (.refl _ _))

theorem combineRun_finishes : State.finishes x.ctx .mxe x.slot s (combineRun x s) := by
  unfold combineRun
  extract_lets +onlyGivenNames e
  split
  next heq => exact ((State.frame.refl quietParts s).readNodeHdrs.cast heq).reporting
  next s1 heq =>
    have h1 : s.frame quietParts s1 := (State.frame.refl quietParts s).readNodeHdrs.cast heq
    exact .either h1.reporting <| .either h1.reporting (h1.readRows.finishing State.mxeFinish_finishes)

/-! ### Stall episodes (R137) -/

theorem fldAt_off (c : CtxId) {f g : Fld} (h : f.off ≠ g.off) : (f.at c).off ≠ (g.at c).off := fun k => h (Nat.add_left_cancel k)

theorem State.fld_addFld_at_other (s : State) (c : CtxId) {f g : Fld} (n : Nat) (h : g.off ≠ f.off) :
    (s.addFld (f.at c) n).fld (g.at c) = s.fld (g.at c) := State.fld_addFld_other (s := s) _ _ _ (.inl (fldAt_off c h))

theorem State.fld_div_other (s : State) (c : CtxId) (code n : Nat) {g : Fld} (hcount : g.off ≠ ctxBase c + Reg.ctxDivCount)
    (hsrc : g.off ≠ ctxBase c + Reg.ctxDivSrc + 8 * (code / 4)) : (s.div c code n).fld g = s.fld g := by
  unfold State.div
  extract_lets src
  split
  · rfl
  · rw [State.fld_addFld_other (s := s.addFld _ _) src g n (.inl hsrc), State.fld_addFld_other (s := s) _ g n (.inl hcount)]

/-- The three counts of a stall episode, apart from each other. -/
theorem State.stallCounts (s : State) (c : CtxId) (n : Nat) :
    let t := (((s.addFld (Reg.ctxMxeStat_stallEpisodes.at c) 1).addFld (Reg.ctxMxeStallcyc_cycles.at c) n).addFld Reg.mxeStallTotal_cycles n).div c 1 1
    t.fld (Reg.ctxMxeStat_stallEpisodes.at c) = min (2 ^ 32 - 1) (s.fld (Reg.ctxMxeStat_stallEpisodes.at c) + 1) ∧
      t.fld (Reg.ctxMxeStallcyc_cycles.at c) = min (2 ^ 48 - 1) (s.fld (Reg.ctxMxeStallcyc_cycles.at c) + n) ∧
      t.fld Reg.mxeStallTotal_cycles = min (2 ^ 48 - 1) (s.fld Reg.mxeStallTotal_cycles + n) := by
  have hpage : ∀ o, Reg.mxeStallTotal_cycles.off ≠ ctxBase c + o := fun o =>
    (Nat.lt_of_lt_of_le (show Reg.mxeStallTotal_cycles.off < 0x1000000 by decide) (ctxBase_ge c o)).ne
  have hat : ∀ {f : Fld} {o : Nat}, f.off ≠ o → (f.at c).off ≠ ctxBase c + o := fun h k => h (Nat.add_left_cancel k)
  have hglobal : ∀ (u : State) (f : Fld) (m : Nat), (u.addFld Reg.mxeStallTotal_cycles m).fld (f.at c) = u.fld (f.at c) := fun u f m =>
    State.fld_addFld_other (s := u) _ _ _ (.inl (hpage f.off).symm)
  intro t
  refine ⟨?_, ?_, ?_⟩
  · rw [State.fld_div_other _ c 1 1 (hat (by decide)) (hat (by decide)), hglobal, State.fld_addFld_at_other _ c _ (by decide)]
    exact s.fld_addFld_at c (f := Reg.ctxMxeStat_stallEpisodes) (by decide)
  · rw [State.fld_div_other _ c 1 1 (hat (by decide)) (hat (by decide)), hglobal]
    rw [← s.fld_addFld_at_other c 1 (f := Reg.ctxMxeStat_stallEpisodes) (g := Reg.ctxMxeStallcyc_cycles) (by decide)]
    exact State.fld_addFld_self (s := s.addFld _ _) _ n (show 0 + 48 ≤ 64 by decide)
  · rw [State.fld_div_other _ c 1 1 (hpage _) (hpage _)]
    refine (State.fld_addFld_self (s := State.addFld _ _ _) _ n (by decide)).trans ?_
    rw [State.fld_addFld_other (s := s.addFld _ _) _ _ _ (.inl (hpage _)), State.fld_addFld_other (s := s) _ _ _ (.inl (hpage _))]
    rfl

/-- The opcode of an entry is the low byte of its first word. -/
theorem opcode_headD {w : Entry} : w.headD 0 &&& 0xFF = 1 ↔ Entry.opcode w = 1 := by
  have hword : (w.headD 0) = w.word 0 := by cases w <;> rfl
  have hbyte : (w.word 0 &&& 0xFF).toNat = Entry.opcode w := by
    rw [BitVec.toNat_and, show BitVec.toNat (0xFF : W64) = 2 ^ 8 - 1 from rfl, Nat.and_two_pow_sub_one_eq_mod]
    show _ = (w.word 0).toNat / 2 ^ 0 % 2 ^ 8
    rw [Nat.pow_zero, Nat.div_one]
  rw [hword, ← hbyte]
  exact BitVec.toNat_inj.symm

/-- Settles O36. -/
theorem mxeCommandsRun : Obligations.MxeCommandsRun := by
  unfold Obligations.MxeCommandsRun
  have hkey : ∀ {c slot op x s}, State.canRun s c .mxe slot op x → x.eng = .mxe := fun hcan => by
    obtain ⟨-, -, he, -⟩ := hcan.found
    exact he
  refine ⟨fun c slot x s => ⟨fun hcan hready => ⟨_, rfl, ?_⟩, fun hcan hready => ⟨_, rfl, ?_⟩⟩, fun cycles x s hpos hrun heng hfill hop hne => ?_⟩
  · exact State.engineRun_finishes hcan hready (by rw [hkey hcan]; exact matmulRun_finishes) (State.frame.refl _ _).matmulRun
  · exact State.engineRun_finishes hcan hready (by rw [hkey hcan]; exact combineRun_finishes) (State.frame.refl _ _).combineRun
  · have hfind : s.running.find? (fun x => decide (x.eng = .mxe) && decide (x.fillOf = none) && decide (x.words.headD 0 &&& 0xFF = 1)) = some x := by
      rw [hrun]
      exact List.find?_cons_of_pos (by rw [decide_eq_true heng, decide_eq_true hfill, decide_eq_true (opcode_headD.mpr hop)]; rfl)
    have hexec : exec (.operandStallEpisode cycles) s = .next (s.stallEpisode cycles) := rfl
    have hstall : s.stallEpisode cycles = (((s.addFld (Reg.ctxMxeStat_stallEpisodes.at x.ctx) 1).addFld (Reg.ctxMxeStallcyc_cycles.at x.ctx)
        cycles).addFld Reg.mxeStallTotal_cycles cycles).div x.ctx 1 1 := by
      unfold State.stallEpisode
      rw [hfind]
      exact if_neg (Nat.pos_iff_ne_zero.mp hpos)
    exact ⟨_, hexec, ((State.frame.refl [.regs] s).stallEpisode).eq_take, by rw [hstall]; exact s.stallCounts x.ctx cycles⟩

end Sys2Proof.Machine
end

section
/-! PROOFS. The commands of TMV complete, and code tables load. -/

namespace Sys2Proof.Machine

set_option Elab.async false

open Sys2Proof

variable {s t u : State}

variable {x : Exec}

/-! ### ARM and DISARM (R217, R235, R236) -/

/-- The parts that a read changes. -/
@[simp] def readParts : List StatePart := [.regs, .blks, .link, .pwr, .pcie, .log, .logNext, .out]

/-- The command reports, and at most one arming is installed behind those present. -/
def State.armsOne (x : Exec) (s t : State) : Prop := State.finishes x.ctx .tmv x.slot s t ∧ ∃ l, t.armings = s.armings ++ l ∧ l.length ≤ 1

theorem State.armsOne.of_read {r : Report} (h : s.frame readParts t) : State.armsOne x s (t.report x.ctx .tmv x.slot r) :=
  ⟨(h.mono (by simp)).reporting, [], by rw [List.append_nil]; exact h.armings_eq, Nat.zero_le _⟩

theorem State.install_armings (s : State) (a : Arming) : ∃ l, (s.install a).1.armings = s.armings ++ l ∧ l.length ≤ 1 := by
  unfold State.install
  extract_lets had
  split
  · exact ⟨[_], rfl, Nat.le_refl 1⟩
  · split
    · exact ⟨[_], rfl, Nat.le_refl 1⟩
    · split
      · exact ⟨[_], rfl, Nat.le_refl 1⟩
      · exact ⟨[_], rfl, Nat.le_refl 1⟩

theorem armRun_armed (hturn : s.tmvTurn x = true) : State.armsOne x s (armRun x s) := by
  have h := State.frame.refl readParts s
  unfold armRun
  extract_lets +onlyGivenNames e eng slot
  rw [if_neg (by simp [hturn])]
  split
  · exact .of_read h
  · split
    next heq => exact .of_read (h.readDesc.cast heq)
    next s1 heq =>
      have h1 : s.frame readParts s1 := h.readDesc.cast heq
      extract_lets +onlyGivenNames d
      split
      · exact .of_read h1
      · extract_lets +onlyGivenNames hd
        have hhd : s.frame readParts hd.2 := by
          unfold hd
          split
          · exact h1.readHdr
          · exact h1
        clear_value hd
        split
        next => exact .of_read hhd
        next h0 s2 =>
          have h2 : s.frame readParts s2 := hhd
          split
          · exact .of_read h2
          · extract_lets r
            obtain ⟨l, hl, hlen⟩ := State.install_armings s2
              { ctx := x.ctx, eng := eng, slot := slot, desc := d, nBlk := if d.cmp then h0.nBlk else 0, bind := x.bind }
            exact ⟨((h2.mono (k := readParts) (by simp)).trans (State.frame.refl quietParts s2).install).reporting, l, by rw [← h2.armings_eq]; exact hl, hlen⟩

/-- The armings that stay are those that are not removed. -/
theorem State.removeArms_armings {p : Arming → Bool} {a : Arming} (h : a ∈ (s.removeArms p).armings) :
    ∃ b ∈ s.armings, p b = false ∧ a.ctx = b.ctx ∧ a.eng = b.eng ∧ a.slot = b.slot ∧ a.consumer = b.consumer := by
  unfold State.removeArms at h
  extract_lets kept flag t at h
  rw [((State.frame.refl [.link] t).dropReqsOf).armings_eq] at h
  obtain ⟨b, hb, rfl⟩ := List.mem_map.mp h
  obtain ⟨hmem, hp⟩ := List.mem_filter.mp hb
  exact ⟨b, hmem, by simpa using hp, rfl, rfl, rfl, rfl⟩

theorem disarmRun_finishes (hturn : s.tmvTurn x = true) : State.finishes x.ctx .tmv x.slot s (disarmRun x s) := by
  unfold disarmRun
  extract_lets +onlyGivenNames e eng
  rw [if_neg (by simp [hturn])]
  exact ((State.frame.refl quietParts s).removeArms).reporting

theorem disarmRun_removes (hturn : s.tmvTurn x = true) {a : Arming} (ha : a ∈ (disarmRun x s).armings) (hctx : a.ctx = x.ctx)
    (heng : a.eng = (Engine.ofCode (Entry.pos x.words 128 2)).getD .mxe) (hslot : Entry.bit x.words 2 7 = true ∨ a.slot = Entry.pos x.words 130 5) :
    a.consumer ≠ none := fun hcons => by
  unfold disarmRun at ha
  extract_lets +onlyGivenNames e eng at ha
  rw [if_neg (by simp [hturn])] at ha
  obtain ⟨b, -, hp, hc, he, hs, hk⟩ := State.removeArms_armings ha
  refine Bool.false_ne_true (hp.symm.trans ?_)
  rw [← hc, ← he, ← hs, ← hk, decide_eq_true hctx, decide_eq_true heng, decide_eq_true hcons, Bool.true_and, Bool.true_and, Bool.true_and,
    Bool.or_eq_true, decide_eq_true_eq]
  exact hslot

/-! ### COPY (R237) -/

theorem State.works.copyRunOut {a : Nat} {run : List (List SB)} (h : State.works x.ctx s t) : State.works x.ctx s (t.copyRunOut x a run) :=
  h.writeBytes rfl

theorem State.works.copyElems {d : Desc} {i a n : Nat} {run els : List (List SB)} (h : State.works x.ctx s t) :
    State.works x.ctx s (t.copyElems x d i a n run els).1 := by
  induction els generalizing t i a n run with
  | nil =>
    unfold State.copyElems
    exact h.copyRunOut
  | cons el els ih =>
    unfold State.copyElems
    split
    · exact h.copyRunOut
    · split
      · exact h.copyRunOut
      · split
        · exact ih h
        · extract_lets +onlyGivenNames r
          exact ih h.copyRunOut

theorem copyRun_finishes (harm : s.armings.any (fun a => decide (a.ctx = x.ctx) && decide (a.consumer = some (.tmv, x.slot))) = true) :
    State.finishes x.ctx .tmv x.slot s (copyRun x s) := by
  unfold copyRun
  split
  next hnone =>
    rw [List.findIdx?_eq_none_iff] at hnone
    obtain ⟨a, ha, hp⟩ := List.any_eq_true.mp harm
    rw [hnone a ha] at hp
    cases hp
  next i hsome =>
    split
    next hnone =>
      obtain ⟨hi, -⟩ := List.findIdx?_eq_some_iff_getElem.mp hsome
      rw [List.getElem?_eq_getElem hi] at hnone
      cases hnone
    next a _ =>
      extract_lets +onlyGivenNames bytes s1 d w k
      have h1 : State.works x.ctx s s1 := (State.works.refl _ s).quiet ((State.frame.refl quietParts s).setArming (a := { a with pos := a.desc.len, data := [] }))
      have hw : State.works x.ctx s w.1 := h1.copyElems
      have hk : State.works x.ctx s k.1 := by
        unfold k
        split
        · exact hw.writeBytes rfl
        · exact hw
      exact hk.image.reports

/-! ### SLOT_TABLE (R238) -/

theorem slotTableRun_finishes (hturn : s.tmvTurn x = true) : State.finishes x.ctx .tmv x.slot s (slotTableRun x s) := by
  have hset : ∀ {u : State} {f : Ctx → Ctx}, State.works x.ctx u (u.updCtx x.ctx f) := .of_parts rfl rfl rfl
  unfold slotTableRun
  extract_lets +onlyGivenNames e n eng
  rw [if_neg (by simp [hturn])]
  extract_lets +onlyGivenNames r s1
  have h1 : s.frame quietParts s1 := State.frame.either (.refl _ s) (State.frame.refl _ s).noteSpan
  split
  · exact h1.reporting
  · split
    · exact h1.reporting
    · extract_lets +onlyGivenNames l
      split
      · exact h1.reporting
      · exact (((State.works.refl _ s).quiet h1).trans hset).reports

theorem slotTableRun_other {d : CtxId} (hd : d ≠ x.ctx) : (slotTableRun x s).ctx d = s.ctx d := by
  have hreport : ∀ (u : State) (r : Report), (u.report x.ctx .tmv x.slot r).ctx d = u.ctx d := fun _ _ => rfl
  unfold slotTableRun
  extract_lets +onlyGivenNames e n eng
  split
  · rfl
  · extract_lets +onlyGivenNames r s1
    have h1 : s1.ctxs = s.ctxs := (State.frame.either (l := readParts) (.refl _ s) (State.frame.refl _ s).noteSpan).ctxs_eq
    have h2 : s1.ctx d = s.ctx d := by rw [State.ctx, h1]; rfl
    split
    · exact h2
    · split
      · exact h2
      · extract_lets +onlyGivenNames l
        split
        · exact h2
        · rw [hreport, State.ctx_updCtx_other _ _ hd]
          exact h2

theorem slotTableRun_empties (hturn : s.tmvTurn x = true) (hn : Entry.pos x.words 192 13 = 0) :
    (slotTableRun x s).slotTab x.ctx ((Engine.ofCode (Entry.pos x.words 180 2)).getD .mxe) = { ents := [] } := by
  unfold slotTableRun
  extract_lets +onlyGivenNames e n eng
  rw [if_neg (by simp [hturn])]
  extract_lets +onlyGivenNames r s1
  have hn' : n = 0 := hn
  rw [if_neg fun h => h.1 hn', if_neg fun h => h.1 hn', if_pos hn']
  extract_lets l
  rw [if_neg (by simp [l])]
  unfold State.slotTab
  rw [show ∀ u : State, (u.report x.ctx .tmv x.slot {}).ctx x.ctx = u.ctx x.ctx from fun _ => rfl, State.ctx_updCtx_self]
  exact Vector.getElem_set_self _

/-! ### COMPRESS (R174) -/

theorem State.works.writeSeq {ws : List (Nat × List SB)} (h : State.works x.ctx s t) : State.works x.ctx s (t.writeSeq x ws).1 := by
  induction ws generalizing t with
  | nil => exact h
  | cons w ws ih =>
    unfold State.writeSeq
    split
    · exact ih (h.writeBytes rfl)
    · exact h

theorem State.compressBody_finishes {hd : Hdr} {r : Rd} : State.finishes x.ctx .tmv x.slot s (s.compressBody x hd r) := by
  unfold State.compressBody
  extract_lets +onlyGivenNames e dst ta blks nb areas
  split
  · exact (State.works.refl _ s).reports
  · extract_lets +onlyGivenNames t' ws w raw
    exact ((State.works.refl _ s).writeSeq).reports

theorem compressRun_finishes : State.finishes x.ctx .tmv x.slot s (compressRun x s) := by
  have h := State.frame.refl quietParts s
  unfold compressRun
  extract_lets +onlyGivenNames e ok
  split
  next heq => exact (h.readHdr.cast heq).reporting
  next s1 heq =>
    have h1 : s.frame quietParts s1 := h.readHdr.cast heq
    dsimp only
    split
    · split
      next heq => exact (h1.readHdr.cast heq).reporting
      next heq => exact .either (h1.readHdr.cast heq).reporting ((h1.readHdr.cast heq).readDirectRows.finishing State.compressBody_finishes)
    · exact .either h1.reporting (h1.readDirectRows.finishing State.compressBody_finishes)

/-! ### Lost reads and the reads of a command (R388)

The reads of a command go the same way whatever other reads by the host have been lost: which are lost is in no part that they read. -/

/-- The state with other reads by the host lost. -/
def State.withLost (s : State) (l : List (CtxId × Engine × Nat)) : State := { s with pcie := { s.pcie with lostReads := l } }

variable {l : List (CtxId × Engine × Nat)}

theorem State.wakePort_withLost (s : State) (d : Nat) : (s.withLost l).wakePort d = (s.wakePort d).withLost l := by
  unfold State.wakePort
  extract_lets p
  rw [apply_ite (State.withLost · l)]
  rfl

theorem State.wakeDom_withLost (s : State) (d : Nat) : (s.withLost l).wakeDom d = (s.wakeDom d).withLost l := by
  have hdom : (s.withLost l).dom d = s.dom d := rfl
  have hset : ∀ k, (s.withLost l).setDom d k = (s.setDom d k).withLost l := fun _ => rfl
  unfold State.wakeDom
  rw [hdom]
  cases s.dom d with
  | on => rfl
  | clockGated => rfl
  | powerGated => exact (congrArg (·.wakePort d) (hset _)).trans (State.wakePort_withLost _ d)
  | waking b => rfl
  | shutting k =>
    dsimp only
    split
    · rfl
    · exact (congrArg (·.wakePort d) (hset _)).trans (State.wakePort_withLost _ d)

theorem State.sendMsix_withLost (s : State) (fn : Fin 16) (v : Nat) : (s.withLost l).sendMsix fn v = (s.sendMsix fn v).withLost l := by
  unfold State.sendMsix
  rw [apply_ite (State.withLost · l), apply_ite (State.withLost · l), apply_ite (State.withLost · l), ← State.wakeDom_withLost]
  rfl

theorem State.logEvent_withLost (s : State) (src code : Nat) (c : Option CtxId) (loc detail : Nat) :
    (s.withLost l).logEvent src code c loc detail = (s.logEvent src code c loc detail).withLost l := by
  have hsend : ∀ u : State, (if (u.withLost l).flag Reg.telLogCfg_irqEn then (u.withLost l).sendMsix 0 ((u.withLost l).fld Reg.telLogCfg_vector)
      else u.withLost l) = (if u.flag Reg.telLogCfg_irqEn then u.sendMsix 0 (u.fld Reg.telLogCfg_vector) else u).withLost l := fun u => by
    rw [apply_ite (State.withLost · l), ← State.sendMsix_withLost]
    rfl
  have hlog : ∀ (m : Nat) (e : LogEnt), ({ (s.withLost l) with
      log := ((s.withLost l).log ++ [e]).drop (((s.withLost l).log ++ [e]).length - m),
      logNext := (s.withLost l).logNext + 1 } : State) =
      State.withLost { s with log := (s.log ++ [e]).drop ((s.log ++ [e]).length - m), logNext := s.logNext + 1 } l := fun _ _ => rfl
  unfold State.logEvent
  extract_lets e ll s1 e' ll' s1'
  have h1 : s1 = s1'.withLost l := hlog 1024 e
  rw [h1]
  exact hsend s1'

theorem State.noteErr_withLost (s : State) (store : Nat) (c : Option CtxId) (n w loc : Nat) :
    (s.withLost l).noteErr store c n w loc = (s.noteErr store c n w loc).withLost l := by
  unfold State.noteErr
  rw [apply_ite (State.withLost · l), apply_ite (State.withLost · l), ← State.logEvent_withLost]
  rfl

theorem State.noteWords_withLost (store : Nat) (c : Option CtxId) (n : Nat) (s : State) (w loc : Nat) :
    (s.withLost l).noteWords store c w loc n = (s.noteWords store c w loc n).withLost l := by
  induction n generalizing s w loc with
  | zero => rfl
  | succ n ih =>
    unfold State.noteWords State.noteWord
    rw [show (s.withLost l).bch = s.bch from rfl, State.noteErr_withLost, ih]

theorem State.noteDisturb_withLost (s : State) (b : Bool) (code p : Nat) : (s.withLost l).noteDisturb b code p = (s.noteDisturb b code p).withLost l := by
  have hset : (s.withLost l).setFld Reg.fpcDisturb_lastBlk (p / 2048) = (s.setFld Reg.fpcDisturb_lastBlk (p / 2048)).withLost l := rfl
  unfold State.noteDisturb
  rw [apply_ite (State.withLost · l), ← State.logEvent_withLost, hset]

theorem State.failedWords_withLost (c : Option CtxId) (p : Nat) (is : List Nat) (s : State) :
    (s.withLost l).failedWords c p is = (s.failedWords c p is).withLost l := by
  induction is generalizing s with
  | nil => rfl
  | cons i is ih =>
    unfold State.failedWords
    rw [← ih, apply_ite (State.withLost · l), ← State.logEvent_withLost]
    rfl

theorem State.pageRead_withLost (s : State) (c : Option CtxId) (p : Nat) : (s.withLost l).pageRead c p = (s.pageRead c p).withLost l := by
  have hcount : (s.withLost l).countRead p = (s.countRead p).withLost l := by
    unfold State.countRead
    extract_lets b n warn isOver s1 b' n' warn' isOver' s1'
    have h1 : s1 = s1'.withLost l := rfl
    rw [h1, State.noteDisturb_withLost, State.noteDisturb_withLost]
    rfl
  unfold State.pageRead
  extract_lets s1 s2 s1' s2'
  have h1 : s1 = s1'.withLost l := hcount
  have h2 : s2 = s2'.withLost l := by
    unfold s2 s2'
    rw [h1, apply_ite (State.withLost · l)]
    rfl
  rw [h2, State.failedWords_withLost]

theorem State.notePlace_withLost (s : State) (c : CtxId) (place : Option Loc) (page : Bool) (a n : Nat) :
    (s.withLost l).notePlace c place page a n = (s.notePlace c place page a n).withLost l := by
  have htouch : ∀ ds, (s.withLost l).touch ds = (s.touch ds).withLost l := fun ds => by
    unfold State.touch
    extract_lets ds' ds''
    rw [apply_ite (State.withLost · l)]
    rfl
  have hdoms : ∀ q, (s.withLost l).memDoms n q = s.memDoms n q := fun q => by cases q <;> rfl
  unfold State.notePlace
  rw [show (s.withLost l).memDoms n = s.memDoms n from funext hdoms, htouch]
  rcases place with - | q
  · rfl
  · cases q with
    | t0 k => exact State.noteWords_withLost _ _ _ _ _ _
    | t1 k => exact State.noteWords_withLost _ _ _ _ _ _
    | t2 p off =>
      cases p with
      | none => rfl
      | some p =>
        dsimp only
        rw [apply_ite (State.withLost · l), ← State.pageRead_withLost]
    | host b => rfl
    | peer p d pc b =>
      dsimp only
      rw [apply_ite (State.withLost · l)]
      rfl

theorem State.readPlace_withLost (s : State) (v : View) (a : Nat) : (s.withLost l).readPlace v a = s.readPlace v a := rfl

theorem State.noteReadL_withLost (v : View) (ps : List (Nat × Nat)) (s : State) (first : Bool) :
    (s.withLost l).noteReadL v first ps = (s.noteReadL v first ps).withLost l := by
  induction ps generalizing s first with
  | nil => rfl
  | cons p ps ih =>
    unfold State.noteReadL State.notePiece
    rw [State.readPlace_withLost, State.notePlace_withLost, ih]

theorem State.noteSpan_withLost (s : State) (v : View) (a n : Nat) : (s.withLost l).noteSpan v a n = (s.noteSpan v a n).withLost l := by
  unfold State.noteSpan
  extract_lets ps s1 s1'
  have h1 : s1 = s1'.withLost l := State.noteReadL_withLost v _ s true
  have hadd : ∀ f n, (s1'.withLost l).addFld f n = (s1'.addFld f n).withLost l := fun _ _ => rfl
  rw [h1, apply_ite (State.withLost · l), hadd]
  clear_value s1'
  rfl

theorem State.loadTable_withLost (s : State) (v : View) (w : Entry) :
    (s.withLost l).loadTable v w = ((s.loadTable v w).1.withLost l, (s.loadTable v w).2) := by
  unfold State.loadTable
  extract_lets +onlyGivenNames c t
  split
  · rfl
  · have hspan : ∀ a n, (s.withLost l).span v a n = s.span v a n := fun _ _ => rfl
    rw [State.noteSpan_withLost, hspan]
    generalize s.noteSpan v (w.pos 128 52) 128 = u
    generalize s.span v (w.pos 128 52) 128 = r
    dsimp only
    split
    · rfl
    · split
      · rfl
      · split
        · rfl
        · rfl

/-! ### TABLE_LOAD (R172, R176) -/

theorem State.loadTable_other {v : View} {w : Entry} {d : CtxId} (hd : d ≠ v.ctx) : (s.loadTable v w).1.ctx d = s.ctx d := by
  have hnote : ∀ a n, (s.noteSpan v a n).ctx d = s.ctx d := fun a n => by
    rw [State.ctx, ((State.frame.refl readParts s).noteSpan).ctxs_eq]
    rfl
  have hset : ∀ (u : State) (t : Nat) (y : Option CodeTable), (u.setTable v.ctx t y).ctx d = u.ctx d := fun u _ _ => State.ctx_updCtx_other _ _ hd
  unfold State.loadTable
  extract_lets +onlyGivenNames c t
  split
  · exact hset s t none
  · extract_lets r s1
    split
    · exact hnote _ _
    · split
      · exact hnote _ _
      · split
        · exact (hset s1 t _).trans (hnote _ _)
        · exact hnote _ _

/-- A TABLE_LOAD whose slot is not pinned and whose reads can run loads its table and holds its report. -/
theorem State.tableLoadStep_loads {c : CtxId} {w : Entry} {waiting : Bool} (hdec : (s.queue c .tmv).dec = .loading w waiting none)
    (hpin : s.pinned c (w.pos 180 3) = false) {v : View} (hv : v = { ctx := c, bind := s.bindOf c w, noHost := s.lostFor c .tmv (s.queue c .tmv).head })
    (hall : s.touch (engineDoms .tmv) = s) (hstall : (s.loadTable v w).1.pwr.stall = []) (hmissing : (s.loadTable v w).1.link.missing = []) :
    ∃ l d, s.tableLoadStep c waiting =
      { ((s.loadTable v w).1.withLost l).setTmvHead c (.loading w waiting (some (s.loadTable v w).2)) with deposits := d } := by
  subst hv
  have hload : ∀ u : State, u.dropLost c .tmv (u.queue c .tmv).head =
      u.withLost (u.pcie.lostReads.filter (fun k => decide (k ≠ (c, .tmv, (u.queue c .tmv).head)))) := fun _ => rfl
  unfold State.tableLoadStep
  rw [hdec]
  dsimp only
  rw [if_neg (by simp), hpin, if_neg Bool.false_ne_true, State.withPeers, State.awaitPeers_ready]
  · rw [hall, hload, State.loadTable_withLost]
    exact ⟨_, _, rfl⟩
  · rw [hall, hload, State.loadTable_withLost]
    exact hstall
  · rw [hall, hload, State.loadTable_withLost]
    exact hmissing

/-- What a load leaves: its report in the queue's head, the memory, and the other contexts. -/
theorem State.loaded_parts {c : CtxId} {w : Entry} {v : View} (hv : v.ctx = c) {h : Head} {ll : List (CtxId × Engine × Nat)} {d : SMap SB}
    (ht : t = { ((s.loadTable v w).1.withLost ll).setTmvHead c h with deposits := d }) :
    (t.queue c .tmv).dec = h ∧ t.mem = s.mem ∧ ∀ d, d ≠ c → t.ctx d = s.ctx d := by
  subst ht
  refine ⟨?_, ?_, fun d hd => ?_⟩
  · exact congrArg Queue.dec (State.queue_setQueue_self (s := (s.loadTable v w).1.withLost ll) c .tmv _)
  · exact ((State.frame.refl [.regs, .ctxs, .blks, .link, .pwr, .pcie, .log, .logNext, .out] s).loadTable).mem_eq
  · have hhead : ∀ u : State, (u.setTmvHead c h).ctx d = u.ctx d := fun u => State.ctx_updCtx_other u _ hd
    exact (hhead _).trans (State.loadTable_other (hv ▸ hd))

theorem State.table_setTable (s : State) (c : CtxId) (t : Nat) : (s.setTable c t none).table c t = none := by
  unfold State.table State.setTable
  rw [State.ctx_updCtx_self, List.getD_eq_getElem?_getD, List.getElem?_set_self']
  cases (s.ctx c).tables[t]? <;> rfl

theorem tableLoads (c : CtxId) (w : Entry) (waiting : Bool) (s : State) (hdec : (s.queue c .tmv).dec = .loading w waiting none) (hawake : s.awake) :
    (s.pinned c (w.pos 180 3) = true → ∃ t, s.tableLoadStep c waiting = t ∧ t = { s with ctxs := t.ctxs } ∧
      (t.queue c .tmv).dec = .loading w true none) ∧
    (s.pinned c (w.pos 180 3) = false → w.bit 2 55 = true → ∃ t, s.tableLoadStep c waiting = t ∧
      (t.queue c .tmv).dec = .loading w waiting (some {}) ∧ t.table c (w.pos 180 3) = none ∧ t.mem = s.mem ∧ ∀ d, d ≠ c → t.ctx d = s.ctx d) ∧
    (s.pinned c (w.pos 180 3) = false → s.workReady (engineDoms .tmv) (fun s =>
        (s.loadTable { ctx := c, bind := s.bindOf c w, noHost := s.lostFor c .tmv (s.queue c .tmv).head } w).1) →
      ∃ t r, s.tableLoadStep c waiting = t ∧ (t.queue c .tmv).dec = .loading w waiting (some r) ∧ t.mem = s.mem ∧ ∀ d, d ≠ c → t.ctx d = s.ctx d) := by
  have hall := State.awake_touch s hawake (ds := engineDoms .tmv)
  obtain ⟨-, -, hstall, hmissing⟩ := hawake
  refine ⟨fun hpin => ?_, fun hpin hclear => ?_, fun hpin hready => ?_⟩
  · have hstep : s.tableLoadStep c waiting = s.setTmvHead c (.loading w true none) := by
      unfold State.tableLoadStep
      rw [hdec]
      dsimp only
      rw [if_neg (by simp), hpin, if_pos rfl]
    exact ⟨_, hstep, rfl, congrArg Queue.dec (State.queue_setQueue_self s c .tmv _)⟩
  · generalize hv : ({ ctx := c, bind := s.bindOf c w, noHost := s.lostFor c .tmv (s.queue c .tmv).head } : View) = v
    have hc : v.ctx = c := by rw [← hv]
    have hload : s.loadTable v w = (s.setTable c (w.pos 180 3) none, {}) := by
      rw [← hc]
      exact if_pos hclear
    obtain ⟨l, d, hstep⟩ := State.tableLoadStep_loads hdec hpin hv.symm hall (by rw [hload]; exact hstall) (by rw [hload]; exact hmissing)
    obtain ⟨hq, hm, hother⟩ := State.loaded_parts hc hstep
    rw [hload] at hq
    refine ⟨_, rfl, hq, ?_, hm, hother⟩
    rw [hstep, hload]
    have htab := s.table_setTable c (w.pos 180 3)
    unfold State.table at htab ⊢
    rw [show ∀ (u : State) (d : SMap SB), ({ u with deposits := d } : State).ctx c = u.ctx c from fun _ _ => rfl, State.setTmvHead, State.setQueue,
      State.ctx_updCtx_self]
    exact htab
  · generalize hv : ({ ctx := c, bind := s.bindOf c w, noHost := s.lostFor c .tmv (s.queue c .tmv).head } : View) = v
    have hc : v.ctx = c := by rw [← hv]
    unfold State.workReady at hready
    rw [hall] at hready
    dsimp only at hready
    rw [hv] at hready
    obtain ⟨hstall', hmissing'⟩ := hready
    obtain ⟨l, d, hstep⟩ := State.tableLoadStep_loads hdec hpin hv.symm hall hstall' hmissing'
    obtain ⟨hq, hm, hother⟩ := State.loaded_parts hc hstep
    exact ⟨_, _, rfl, hq, hm, hother⟩

/-! ### The commands of TMV -/

/-- A TMV command keeps what its work does to the armings. -/
theorem State.engineRun_tmv {c : CtxId} {slot op : Nat} {x : Exec} {f : Exec → State → State} (hcan : s.canRun c .tmv slot op x)
    (hready : s.workReady (engineDoms .tmv) (f x)) : s.engineRun c .tmv slot op f =
      { f x (s.touch (engineDoms .tmv)) with deposits := if s.deposits.isEmpty then (f x (s.touch (engineDoms .tmv))).deposits else [] } := by
  obtain ⟨-, -, he, -⟩ := hcan.found
  rw [State.engineRun_works hcan hready, State.keepStreams, if_neg fun h => h.1 he]

/-- Settles O37. -/
theorem tmvCommandsRun : Obligations.TmvCommandsRun := by
  unfold Obligations.TmvCommandsRun
  refine ⟨fun c slot x s => ?_, fun c slot x s hcan hready => ?_, ?_⟩
  · have hturn : s.tmvTurn x = true → (s.touch (engineDoms .tmv)).tmvTurn x = true := fun h => by
      rw [State.touch_pwr s]
      exact h
    have harms : (s.touch (engineDoms .tmv)).armings = s.armings := by rw [State.touch_pwr s]
    refine ⟨fun hcan ht hready => ⟨_, rfl, ?_⟩, fun hcan ht hready => ⟨_, rfl, ?_⟩, fun hcan harm hready => ⟨_, rfl, ?_⟩,
      fun hcan ht hready => ⟨_, rfl, ?_⟩⟩
    · obtain ⟨-, -, he, -⟩ := hcan.found
      obtain ⟨hfin, l, hl, hlen⟩ := armRun_armed (hturn ht)
      have hdone := State.engineRun_finishes hcan hready (by rw [he]; exact hfin) ((State.frame.refl engineParts _).armRun)
      refine ⟨hdone.1, hdone.2, l, ?_, hlen⟩
      rw [State.engineRun_tmv hcan hready, ← harms]
      exact hl
    · obtain ⟨-, hc, he, -⟩ := hcan.found
      have hdone := State.engineRun_finishes hcan hready (by rw [he]; exact disarmRun_finishes (hturn ht)) ((State.frame.refl engineParts _).disarmRun)
      refine ⟨hdone.1, hdone.2, fun a ha hactx haeng hslot => ?_⟩
      rw [State.engineRun_tmv hcan hready] at ha
      exact disarmRun_removes (hturn ht) ha (hactx.trans hc.symm) haeng hslot
    · obtain ⟨-, hc, he, hs⟩ := hcan.found
      refine State.engineRun_finishes hcan hready ?_ ((State.frame.refl engineParts _).copyRun)
      rw [he]
      refine copyRun_finishes ?_
      rw [harms, hc, hs]
      exact harm
    · obtain ⟨-, hc, he, -⟩ := hcan.found
      have hrun := State.engineRun_tmv hcan hready
      obtain ⟨-, hres⟩ := State.engineRun_reports hcan hready (by rw [he]; exact slotTableRun_finishes (hturn ht))
      refine ⟨hres, ?_, fun d hd => ?_, fun hn => ?_⟩
      · rw [hrun]
        exact (((State.frame.refl ([.ctxs, .running, .deposits] ++ readParts) s).touch).trans (State.frame.refl _ _).slotTableRun).mem_eq
      · rw [hrun]
        refine (slotTableRun_other (hc ▸ hd)).trans ?_
        rw [State.touch_pwr s]
        rfl
      · rw [hrun, ← hc]
        exact slotTableRun_empties (hturn ht) hn
  · obtain ⟨-, -, he, -⟩ := hcan.found
    exact ⟨_, rfl, State.engineRun_finishes hcan hready (by rw [he]; exact compressRun_finishes) ((State.frame.refl engineParts _).compressRun)⟩
  · intro c w waiting s hdec hawake i
    have hexec : exec i s = .next (s.tableLoadStep c waiting) := by
      unfold i
      cases waiting <;> rfl
    rw [hexec]
    simp only [Host.Outcome.next.injEq]
    exact tableLoads c w waiting s hdec hawake

end Sys2Proof.Machine
end

section
/-! PROOFS. What RANDOM writes: why its header can land beside its place in a state whose object table is out of order. -/

namespace Sys2Proof.Machine

set_option Elab.async false

open Sys2Proof

variable {s t u : State}

theorem State.engineRun_mem {c : CtxId} {e : Engine} {slot op : Nat} {x : Exec} {f : Exec → State → State} (hcan : s.canRun c e slot op x)
    (hready : s.workReady (engineDoms e) (f x)) : (s.engineRun c e slot op f).mem = (f x (s.touch (engineDoms e))).mem := by
  rw [State.engineRun_works hcan hready]
  exact State.keepStreams_mem (s := s.touch (engineDoms e)) _ _

/-! An object that has a copy is marked dirty when the elements are written to it, and with that its entry moves in a table that is not in the
order of its numbers: before an entry that held the addresses of the header. -/

/-- The first entry of the table: its page holds the header. -/
def headerObj : Obj := { valid := true, size := 1 }

/-- The second entry, of a smaller number: it holds the elements, has a copy in T0, and overlaps the first one. -/
def elemsObj : Obj := { valid := true, size := 2, home := 1, cp0 := true }

/-- RANDOM of one element at tensor address 4,096. -/
def edgeExec : Exec := { ctx := 0, eng := .vec, slot := 0, words := [8, 0, 0, 4096, 0, 1] }

/-- The state of the refutation: that command in execution, and a table whose entries are out of order. -/
def edgeState : State := { running := [edgeExec], objs := [(5, headerObj), (3, elemsObj)] }

theorem edgeState_elems : nearPlace (edgeState.writePlace edgeExec.view 4096) (kT0 3 4096) := .inl rfl

theorem edgeState_header : nearPlace (edgeState.writePlace edgeExec.view 4032) (kT0 5 4032) := .inl rfl

theorem edgeState_touch : edgeState.touch (engineDoms .vec) = edgeState := rfl

theorem edgeState_runs : edgeState.canRun 0 .vec 0 8 edgeExec := ⟨rfl, rfl, rfl, rfl⟩

theorem edgeState_ready : edgeState.workReady (engineDoms .vec) (randomRun edgeExec) := ⟨rfl, rfl⟩

theorem edgeState_run : SMap.get 0 (randomRun edgeExec edgeState).mem (kT0 5 (4032 + 8)) = 0 := (rfl)

/-- The ninth byte of the header, the low byte of the count, is not where the header was to land. -/
theorem edgeState_missed : SMap.get 0 (edgeState.engineRun 0 .vec 0 8 randomRun).mem (kT0 5 4032 + 8) = 0 := by
  have hmem : (edgeState.engineRun 0 .vec 0 8 randomRun).mem = (randomRun edgeExec edgeState).mem := by
    rw [State.engineRun_mem edgeState_runs edgeState_ready, edgeState_touch]
  rw [hmem, ← kT0_plus]
  exact edgeState_run

/-- Refutes O34: the statement is about every state, also one whose object table is out of order; there the mark that the write of the elements
sets moves the entry of their object before the one that held the header's addresses, and the header lands in the other object. -/
theorem not_randomResult : ¬ Obligations.RandomResult := by
  unfold Obligations.RandomResult
  intro hall
  obtain ⟨t, -, ht, -, -, -, -, -, -, -, hbytes⟩ := hall 0 0 edgeExec edgeState edgeState_runs edgeState_ready rfl rfl rfl
  obtain rfl : edgeState.engineRun 0 .vec 0 8 randomRun = t := Host.Outcome.next.inj ht
  obtain ⟨-, hheader, -⟩ := hbytes (kT0 3 4096) (kT0 5 4032)
    (fun i hi => State.writePlace_page (s := edgeState) (by
      have hlen : i < 1 := hi
      show 4096 % 4096 + i < 4096
      omega) edgeState_elems)
    (fun i hi => State.writePlace_page (s := edgeState) (by
      show 4032 % 4096 + i < 4096
      omega) edgeState_header)
    (.inr (by decide))
  have hcount : SMap.get 0 (edgeState.engineRun 0 .vec 0 8 randomRun).mem (kT0 5 4032 + 8) = 1 := hheader 8 1 rfl
  rw [edgeState_missed] at hcount
  exact absurd hcount (by decide)

end Sys2Proof.Machine
end

section
/-! PROOFS. CTX_SAVE seals a context, CTX_RESTORE gives it back. -/

namespace Sys2Proof.Machine

set_option Elab.async false

open Sys2Proof

variable {s t u : State}

variable {x : Exec}

/-! ### What reads count -/

/-- No register of a page changes but the transfer counts of context c. -/
def State.countsReads (c : CtxId) (s t : State) : Prop := ∀ off, 0x1000000 ≤ off → off ≠ ctxBase c + Reg.ctxTmvStat → t.reg off = s.reg off

namespace State.countsReads

variable {c : CtxId}

theorem refl (c : CtxId) (s : State) : State.countsReads c s s := fun _ _ _ => rfl

theorem trans (h : State.countsReads c s t) (k : State.countsReads c t u) : State.countsReads c s u := fun off hoff hne =>
  (k off hoff hne).trans (h off hoff hne)

theorem of_regs (h : t.regs = s.regs) : State.countsReads c s t := fun off _ _ => State.reg_congr h off

theorem addFld (s : State) (f : Fld) (n : Nat) (hf : f.off < 0x1000000) : State.countsReads c s (s.addFld f n) := fun _ hoff _ =>
  State.reg_addFld_other (s := s) f n _ (Nat.lt_of_lt_of_le hf hoff).ne'

theorem setFld (s : State) (f : Fld) (n : Nat) (hf : f.off < 0x1000000) : State.countsReads c s (s.setFld f n) := fun _ hoff _ =>
  State.reg_setFld_other (s := s) f n _ (Nat.lt_of_lt_of_le hf hoff).ne'

theorem logEvent (s : State) (src code : Nat) (d : Option CtxId) (loc detail : Nat) : State.countsReads c s (s.logEvent src code d loc detail) :=
  .of_regs ((State.frame.refl [.log, .logNext, .pcie, .link, .pwr, .out] s).logEvent).regs_eq

theorem noteErr (s : State) {store : Nat} (hstore : store ≤ 3) (d : Option CtxId) (n w loc : Nat) :
    State.countsReads c s (s.noteErr store d n w loc) := by
  have hecc : ∀ f : Fld, f.off ≤ 0xD00000 → (f.plus (8 * store)).off < 0x1000000 := fun f hf => by
    show f.off + 8 * store < 0x1000000
    omega
  unfold State.noteErr
  split
  · exact .addFld s _ 1 (hecc Reg.telEcc_corrected (by decide))
  · split
    · exact (addFld s _ 1 (hecc Reg.telEcc_uncorr (by decide))).trans (.logEvent _ _ _ _ _ _)
    · exact .refl c s

theorem noteWords {store : Nat} (hstore : store ≤ 3) (d : Option CtxId) (n : Nat) (s : State) (w loc : Nat) :
    State.countsReads c s (s.noteWords store d w loc n) := by
  induction n generalizing s w loc with
  | zero => exact .refl c s
  | succ n ih => exact (noteErr s hstore d _ w loc).trans (ih _ _ _)

theorem noteDisturb (s : State) (b : Bool) (code p : Nat) : State.countsReads c s (s.noteDisturb b code p) := by
  unfold State.noteDisturb
  split
  · exact (setFld s _ _ (by decide)).trans (.logEvent _ _ _ _ _ _)
  · exact .refl c s

theorem failedWords (d : Option CtxId) (p : Nat) (is : List Nat) (s : State) : State.countsReads c s (s.failedWords d p is) := by
  induction is generalizing s with
  | nil => exact .refl c s
  | cons i is ih =>
    unfold State.failedWords
    refine State.countsReads.trans ?_ (ih _)
    split
    · exact (addFld s _ 1 (by decide)).trans (.logEvent _ _ _ _ _ _)
    · exact .refl c s

theorem pageRead (s : State) (d : Option CtxId) (p : Nat) : State.countsReads c s (s.pageRead d p) := by
  have hcount : State.countsReads c s (s.countRead p) := by
    unfold State.countRead
    extract_lets b n warn isOver s1
    have h1 : State.countsReads c s s1 := .of_regs rfl
    exact (h1.trans (.noteDisturb _ _ _ _)).trans (.noteDisturb _ _ _ _)
  unfold State.pageRead
  extract_lets s1 s2
  have h2 : State.countsReads c s s2 := by
    unfold s2
    split
    · exact hcount.trans (.addFld _ _ 1 (by decide))
    · exact hcount
  exact h2.trans (.failedWords _ _ _ _)

theorem notePlace (s : State) (d : CtxId) (place : Option Loc) (page : Bool) (a n : Nat) : State.countsReads c s (s.notePlace d place page a n) := by
  have htouch : ∀ ds, State.countsReads c s (s.touch ds) := fun ds => .of_regs ((State.frame.refl [.pwr] s).touch).regs_eq
  unfold State.notePlace
  extract_lets s1
  have h1 : State.countsReads c s s1 := htouch _
  split
  · exact h1.trans (.noteWords (by decide) _ _ _ _ _)
  · exact h1.trans (.noteWords (by decide) _ _ _ _ _)
  · split
    · exact h1.trans (.pageRead _ _ _)
    · exact h1
  · split
    · exact h1
    · exact h1.trans (.of_regs rfl)
  · exact h1

theorem noteReadL (v : View) (ps : List (Nat × Nat)) (s : State) (first : Bool) : State.countsReads c s (s.noteReadL v first ps) := by
  induction ps generalizing s first with
  | nil => exact .refl c s
  | cons p ps ih => exact (notePlace s v.ctx _ _ _ _).trans (ih _ _)

theorem noteSpan (s : State) (v : View) (a n : Nat) : State.countsReads v.ctx s (s.noteSpan v a n) := by
  unfold State.noteSpan
  extract_lets ps s1
  have h1 : State.countsReads v.ctx s s1 := .noteReadL v _ s true
  split
  · exact h1.trans fun off _ hne => State.reg_addFld_other (s := s1) _ 1 off hne
  · exact h1

end State.countsReads

/-- The key seed of a context is none of the registers that reads count in. -/
theorem State.countsReads.keySeed {c : CtxId} (h : State.countsReads c s t) (d : CtxId) : t.keySeed d = s.keySeed d := by
  refine List.map_congr_left fun k hk => h _ (by rw [Nat.add_assoc]; exact ctxBase_ge d _) ?_
  have hk4 := List.mem_range.mp hk
  unfold ctxBase Reg.ctxSecKeyseed Reg.ctxTmvStat
  omega

/-! ### A domain that is needed changes no read -/

theorem State.touch_stall (s : State) (ds : List Nat) : ∃ l, s.touch ds = { s with pwr := { s.pwr with stall := l } } := by
  unfold State.touch
  extract_lets l
  split
  · exact ⟨s.pwr.stall, rfl⟩
  · exact ⟨s.pwr.stall ++ l, rfl⟩

theorem State.span_touch (s : State) (ds : List Nat) (v : View) (a n : Nat) : (s.touch ds).span v a n = s.span v a n := by
  obtain ⟨l, hl⟩ := s.touch_stall ds
  rw [hl]
  rfl

theorem State.imageOf_touch (s : State) (ds : List Nat) (c : CtxId) : (s.touch ds).imageOf c = s.imageOf c := by
  obtain ⟨l, hl⟩ := s.touch_stall ds
  rw [hl]
  rfl

/-- A report of a command in execution. -/
theorem State.report_resulted {c : CtxId} {e : Engine} {slot : Nat} {r : Report} (h : ∃ y ∈ s.running, y.ctx = c ∧ y.eng = e ∧ y.slot = slot) :
    (s.report c e slot r).resulted c e slot := (State.works.refl c s).reports.2 h

theorem State.resulted.of_running {c : CtxId} {e : Engine} {slot : Nat} (h : s.resulted c e slot) (hr : t.running = s.running) :
    t.resulted c e slot := by
  unfold State.resulted
  rw [hr]
  exact h

/-! ### CTX_SAVE (R239, R240, R465) -/

/-- The report of a command whose bytes are written. -/
theorem State.writeReport_parts {v : View} {who : Engine × Nat} {a : Nat} {data : List SB} {c : CtxId} {e : Engine} {slot : Nat} {f : Bool → Report}
    (h : ∃ y ∈ s.running, y.ctx = c ∧ y.eng = e ∧ y.slot = slot) :
    ((s.writeBytes v who a data).1.report c e slot (f (s.writeBytes v who a data).2)).resulted c e slot ∧
      ((s.writeBytes v who a data).1.report c e slot (f (s.writeBytes v who a data).2)).sec = s.sec := by
  have hw : s.frame [.mem, .hostMem, .deposits, .poison, .bch, .objs, .link, .pwr, .out] (s.writeBytes v who a data).1 :=
    (State.frame.refl _ s).writeBytes
  exact ⟨State.report_resulted (by rwa [hw.running_eq]), hw.sec_eq⟩

/-- The seal that a CTX_SAVE makes of context c. -/
def State.sealOf (s : State) (x : Exec) (c : CtxId) : Seal :=
  { count := s.sec.saveCount + 1, tgt := c, seed := x.keySeed, saved := s.imageOf c }

/-- The state with the seal kept. -/
def State.keepSeal (s : State) (n : W64) (z : Seal) : State := { s with sec := { s.sec with saveCount := n, seals := s.sec.seals ++ [z] } }

theorem saveRun_eq (hmig : s.migAll.any (fun m => decide (m.ctx = Entry.target x.words)) = false)
    (htail : (s.ctx (Entry.target x.words)).tailBuf = []) : ∃ (u : State) (data : List SB) (f : Bool → Report),
      u = (s.noteQueues (Entry.target x.words)).keepSeal (s.sec.saveCount + 1) (s.sealOf x (Entry.target x.words)) ∧
      saveRun x s = (u.writeBytes x.view (.tmv, x.slot) (Entry.pos x.words 128 52) data).1.report x.ctx .tmv x.slot
        (f (u.writeBytes x.view (.tmv, x.slot) (Entry.pos x.words 128 52) data).2) := by
  have hno : ¬ ((s.mig ++ s.migWait).any (fun m => decide (m.ctx = Entry.target x.words)) || !(s.ctx (Entry.target x.words)).tailBuf.isEmpty) = true := by
    rw [show (s.mig ++ s.migWait).any _ = false from hmig, htail]
    exact Bool.false_ne_true
  exact ⟨_, clean (sealBytes (Entry.target x.words) (s.sec.saveCount + 1)), fun b => { status := if b then .ok else .tierFault }, rfl, if_neg hno⟩

/-- What a CTX_SAVE leaves: its report, the seal of the target's state as it stands, and the count. -/
theorem saveRun_seals (hmig : s.migAll.any (fun m => decide (m.ctx = Entry.target x.words)) = false)
    (htail : (s.ctx (Entry.target x.words)).tailBuf = []) (hrun : ∃ y ∈ s.running, y.ctx = x.ctx ∧ y.eng = .tmv ∧ y.slot = x.slot) :
    (saveRun x s).resulted x.ctx .tmv x.slot ∧ (saveRun x s).sec =
      { s.sec with saveCount := s.sec.saveCount + 1, seals := s.sec.seals ++ [s.sealOf x (Entry.target x.words)] } := by
  obtain ⟨u, data, f, hu, hrunEq⟩ := saveRun_eq hmig htail
  have hnote : s.frame quietParts (s.noteQueues (Entry.target x.words)) := (State.frame.refl _ s).noteQueues
  have hurun : u.running = s.running := by rw [hu]; exact hnote.running_eq
  obtain ⟨hres, hsec⟩ := State.writeReport_parts (s := u) (v := x.view) (who := (.tmv, x.slot)) (a := Entry.pos x.words 128 52) (data := data)
    (c := x.ctx) (e := .tmv) (slot := x.slot) (f := f) (by rwa [hurun])
  rw [hrunEq, hsec]
  refine ⟨hres, ?_⟩
  rw [hu, State.keepSeal, hnote.sec_eq]

/-! ### CTX_RESTORE (R241, R345, R457, R465) -/

theorem State.restore_parts (s : State) (t : CtxId) (v : Saved) :
    ((s.restore t v).ctx t).sync = v.body.sync ∧ ((s.restore t v).ctx t).reqs = v.body.reqs ∧ ((s.restore t v).ctx t).dup = v.body.dup ∧
      ((s.restore t v).ctx t).exactReq = (s.ctx t).exactReq ∧ (s.restore t v).sec.ctxMeas = s.sec.ctxMeas.set t.val 0 ∧
      (∀ d, d ≠ t → (s.restore t v).ctx d = s.ctx d) ∧ (s.restore t v).running = s.running := by
  unfold State.restore
  extract_lets +onlyGivenNames k old
  extract_lets src b s1 src' s0 s2
  have harms : s.frame [.armings, .link] (s.removeArms (fun a => decide (a.ctx = t))) := (State.frame.refl _ s).removeArms
  have h0 : s0.frame [.mem, .poison, .bch, .regs, .armings] (((s2.setRegsAt t v.regs).div t 7 1).installAll v.arms) :=
    ((State.frame.refl _ s0).zeroFrom.putQueue.putPoison).setRegsAt.div.installAll
  have hctx : ∀ d, State.ctx (((s2.setRegsAt t v.regs).div t 7 1).installAll v.arms) d = s0.ctx d := fun d => by
    rw [State.ctx, h0.ctxs_eq]
    rfl
  have hself : s0.ctx t = b := State.ctx_setCtx_self (s := s.removeArms _) t b
  have hother : ∀ d, d ≠ t → s0.ctx d = s.ctx d := fun d hd => by
    refine (State.ctx_setCtx_other (s.removeArms _) b hd).trans ?_
    exact congrArg (·[d]) harms.ctxs_eq
  have hsec : s0.sec.ctxMeas = s.sec.ctxMeas.set t.val 0 := by
    show (s.removeArms _).sec.ctxMeas.set t.val 0 = _
    rw [harms.sec_eq]
  have hrun : s0.running = s.running := harms.running_eq
  rw [hctx t, hself]
  exact ⟨rfl, rfl, rfl, rfl, by rw [h0.sec_eq]; exact hsec, fun d hd => (hctx d).trans (hother d hd), h0.running_eq.trans hrun⟩

theorem getD_set_default {α : Type} {l : List α} {i : Nat} {z : α} : (l.set i z).getD i z = z := by
  rw [List.getD_eq_getElem?_getD, List.getElem?_set_self']
  cases l[i]? <;> rfl

/-- What a CTX_RESTORE of `x` leaves of a state whose bytes at the image are `r`. -/
structure State.restored (x : Exec) (r : List SB × Bool) (s t : State) : Prop where
  reports : t.resulted x.ctx .tmv x.slot
  other : ∀ d, d ≠ Entry.target x.words → t.ctx d = s.ctx d
  back : ∀ z, r.2 = false → anyPoison r.1 = false → s.sealFor (Entry.target x.words) (r.1.map Prod.fst) = some z →
    s.installsOk z.saved.installs = true →
    (t.ctx (Entry.target x.words)).sync = z.saved.body.sync ∧ (t.ctx (Entry.target x.words)).reqs = z.saved.body.reqs ∧
    (t.ctx (Entry.target x.words)).dup = z.saved.body.dup ∧ (t.ctx (Entry.target x.words)).exactReq = (s.ctx (Entry.target x.words)).exactReq ∧
    t.sec.ctxMeas.getD (Entry.target x.words).val 0 = 0

theorem restoreRun_restored (hrun : ∃ y ∈ s.running, y.ctx = x.ctx ∧ y.eng = .tmv ∧ y.slot = x.slot) {r : List SB × Bool}
    (hspan : s.span x.view (Entry.pos x.words 128 52) (2 ^ 21) = r) : State.restored x r s (restoreRun x s) := by
  unfold restoreRun
  extract_lets +onlyGivenNames e t
  rw [hspan]
  have hnote : s.frame quietParts (s.noteSpan x.view (e.pos 128 52) (2 ^ 21)) := (State.frame.refl _ s).noteSpan
  have hseed := (State.countsReads.noteSpan s x.view (e.pos 128 52) (2 ^ 21)).keySeed t
  generalize s.noteSpan x.view (e.pos 128 52) (2 ^ 21) = s1 at hnote hseed
  have hrun1 : ∃ y ∈ s1.running, y.ctx = x.ctx ∧ y.eng = .tmv ∧ y.slot = x.slot := by rwa [hnote.running_eq]
  have hctx1 : ∀ d, s1.ctx d = s.ctx d := fun d => by
    rw [State.ctx, hnote.ctxs_eq]
    rfl
  have hseal : ∀ img, s1.sealFor t img = s.sealFor t img := fun img => by
    unfold State.sealFor
    rw [hnote.sec_eq, hseed]
  have hinst : ∀ l, s1.installsOk l = s.installsOk l := fun l => by
    unfold State.installsOk State.slotState State.installOf
    rw [hnote.models_eq]
  dsimp only
  split
  · rename_i hbad
    exact ⟨State.report_resulted hrun1, fun d _ => hctx1 d, fun z hr => absurd hbad (by rw [hr]; exact Bool.false_ne_true)⟩
  · split
    · rename_i hbad
      exact ⟨State.report_resulted hrun1, fun d _ => hctx1 d, fun z _ hp => absurd hbad (by rw [hp]; exact Bool.false_ne_true)⟩
    · split
      · rename_i hnone
        exact ⟨State.report_resulted hrun1, fun d _ => hctx1 d, fun z _ _ hz => by
          rw [hseal, hz] at hnone
          cases hnone⟩
      · rename_i z hz
        split
        · obtain ⟨hsync, hreqs, hdup, hexact, hmeas, hother, hrunning⟩ := s1.restore_parts t z.saved
          refine ⟨State.report_resulted (by rwa [hrunning]), fun d hd => (hother d hd).trans (hctx1 d), fun z' _ _ hz' _ => ?_⟩
          rw [hseal, hz'] at hz
          obtain rfl := Option.some.inj hz
          refine ⟨hsync, hreqs, hdup, hexact.trans (congrArg Ctx.exactReq (hctx1 t)), ?_⟩
          show (s1.restore t z'.saved).sec.ctxMeas.getD _ 0 = 0
          rw [hmeas]
          exact getD_set_default
        · rename_i hno
          refine ⟨State.report_resulted hrun1, fun d _ => hctx1 d, fun z' _ _ hz' hok => absurd hok ?_⟩
          rw [hseal, hz'] at hz
          obtain rfl := Option.some.inj hz
          rwa [← hinst]

/-- A needed domain and the bytes of peers change nothing of that. -/
theorem State.restored.touched {ds : List Nat} {r : List SB × Bool} {d : SMap SB} (h : State.restored x r (s.touch ds) t) :
    State.restored x r s { t with deposits := d } := by
  obtain ⟨hres, hother, hback⟩ := h
  have htouch : ∀ d, (s.touch ds).ctx d = s.ctx d := fun d => by
    rw [State.touch_pwr s]
    rfl
  have hseal : ∀ c img, (s.touch ds).sealFor c img = s.sealFor c img := fun c img => by
    rw [State.touch_pwr s]
    rfl
  have hinst : ∀ l, (s.touch ds).installsOk l = s.installsOk l := fun l => by
    rw [State.touch_pwr s]
    rfl
  simp only [hseal, hinst, htouch] at hother hback
  exact ⟨hres.of_running rfl, hother, hback⟩

/-- Settles O38. -/
theorem saveAndRestore : Obligations.SaveAndRestore := by
  unfold Obligations.SaveAndRestore
  intro c slot x s e
  have hrun : ∀ {op}, s.canRun c .tmv slot op x → x.ctx = c ∧ x.slot = slot ∧
      ∃ y ∈ (s.touch (engineDoms .tmv)).running, y.ctx = x.ctx ∧ y.eng = .tmv ∧ y.slot = x.slot := fun hcan => by
    obtain ⟨hx, hc, he, hs⟩ := hcan.found
    exact ⟨hc, hs, x, by rw [State.touch_pwr s]; exact hx, rfl, he, rfl⟩
  have htouch : ∀ d, (s.touch (engineDoms .tmv)).ctx d = s.ctx d := fun d => by
    rw [State.touch_pwr s]
    rfl
  have hsec : (s.touch (engineDoms .tmv)).sec = s.sec := by rw [State.touch_pwr s]
  refine ⟨fun hcan hmig htail hready => ?_, fun hcan hready => ?_⟩
  · obtain ⟨hc, hs, hin⟩ := hrun hcan
    obtain ⟨hres, hseals⟩ := saveRun_seals (s := s.touch (engineDoms .tmv)) (x := x) (by rw [State.touch_pwr s]; exact hmig)
      (by rw [htouch]; exact htail) hin
    have hz : (s.touch (engineDoms .tmv)).sealOf x e.target = s.sealOf x e.target := by
      unfold State.sealOf
      rw [hsec, State.imageOf_touch]
    rw [hsec, hz] at hseals
    have hctxs : (saveRun x (s.touch (engineDoms .tmv))).ctxs = s.ctxs :=
      ((State.frame.refl [.regs, .running, .mem, .hostMem, .deposits, .poison, .bch, .objs, .link, .pwr, .pcie, .sec, .log, .logNext, .out]
        s).touch.saveRun).ctxs_eq
    refine ⟨_, s.sealOf x e.target, rfl, ?_⟩
    rw [State.engineRun_tmv hcan hready]
    rw [hc, hs] at hres
    generalize saveRun x (s.touch (engineDoms .tmv)) = u at hres hctxs hseals
    exact ⟨hres, hctxs, congrArg Sec.saveCount hseals, congrArg Sec.seals hseals, rfl, rfl, rfl, rfl⟩
  · obtain ⟨hc, hs, hin⟩ := hrun hcan
    have hrest : State.restored x (s.span x.view (e.pos 128 52) (2 ^ 21)) s (s.engineRun c .tmv slot 6 restoreRun) := by
      rw [State.engineRun_tmv hcan hready]
      exact (restoreRun_restored hin (State.span_touch _ _ _ _ _)).touched
    obtain ⟨hres, hother, hback⟩ := hrest
    rw [hc, hs] at hres
    exact ⟨_, rfl, hres, hother, hback⟩

end Sys2Proof.Machine
end

section
/-! PROOFS. Stream transfers, deadlines, refreshes and decoded blocks. -/

namespace Sys2Proof.Machine

set_option Elab.async false

open Sys2Proof

variable {s t u : State}

/-! ### What counts leaves the domains, with every domain on -/

/-- Every domain is on, and the conditions of the domains are those of `s`. -/
def State.lit (s t : State) : Prop := t.pwr = s.pwr ∧ ∀ d, t.domOn d = true

namespace State.lit

theorem refl (h : ∀ d, s.domOn d = true) : s.lit s := ⟨rfl, h⟩

theorem via {f : State → State} (h : s.lit t) (hf : (f t).pwr = t.pwr) : s.lit (f t) := by
  obtain ⟨hp, hd⟩ := h
  refine ⟨hf.trans hp, fun d => ?_⟩
  have := hd d
  unfold State.domOn State.dom at this ⊢
  rwa [hf]

theorem epOn (h : s.lit t) : t.dom epDom = .on := State.domOn_dom (h.2 epDom)

/-- A step that leaves the domains alone. -/
theorem step (h : s.lit t) {k : List StatePart} (hf : t.frame k u) (hk : StatePart.pwr ∉ k := by simp) : s.lit u :=
  h.via (f := fun _ => u) (hf.pwr_eq hk)

theorem counted (h : s.lit t) (hc : t.counted u) : s.lit u := h.via (f := fun _ => u) (State.counted_pwr hc)

theorem notePlace (h : s.lit t) (c : CtxId) (place : Option Loc) (page : Bool) (a n : Nat) : s.lit (t.notePlace c place page a n) := by
  by_cases hp : ∃ p d pc b, place = some (.peer p d pc b)
  · obtain ⟨p, d, pc, b, rfl⟩ := hp
    refine h.via (f := (·.notePlace c (some (.peer p d pc b)) page a n)) ?_
    unfold State.notePlace
    simp only [State.touch_on t _ fun d _ => h.2 d]
    split <;> rfl
  · exact h.counted (State.counted_notePlace t h.2 c place page a n fun p d pc b he => hp ⟨p, d, pc, b, he⟩)

theorem noteReadL (v : View) (ps : List (Nat × Nat)) (first : Bool) (h : s.lit t) : s.lit (t.noteReadL v first ps) := by
  induction ps generalizing t first with
  | nil => exact h
  | cons p ps ih => exact ih false (notePlace h _ _ _ _ _)

theorem notePlainL (v : View) (ps : List (Nat × Nat)) (h : s.lit t) : s.lit (t.notePlainL v ps) := by
  induction ps generalizing t with
  | nil => exact h
  | cons p ps ih => exact ih (notePlace h _ _ _ _ _)

theorem pageReads (c : CtxId) (ps : List Nat) (h : s.lit t) : s.lit (t.pageReads c ps) := by
  induction ps generalizing t with
  | nil => exact h
  | cons p ps ih =>
    unfold State.pageReads
    exact ih (h.counted (State.counted_pageRead t h.epOn _ _))

theorem addFld (h : s.lit t) (f : Fld) (n : Nat) : s.lit (t.addFld f n) := h.via (f := (·.addFld f n)) rfl

theorem setReg (h : s.lit t) (off : Nat) (v : W64) : s.lit (t.setReg off v) := h.via (f := (·.setReg off v)) rfl

theorem div (h : s.lit t) (c : CtxId) (code n : Nat) : s.lit (t.div c code n) := h.step (State.frame.refl [.regs] t).div

theorem logEvent (h : s.lit t) (src code : Nat) (c : Option CtxId) (loc detail : Nat) : s.lit (t.logEvent src code c loc detail) :=
  h.counted (State.counted_logEvent t h.epOn _ _ _ _ _)

theorem either {p : Prop} [Decidable p] (h : s.lit t) (k : s.lit u) : s.lit (if p then t else u) := by
  split
  · exact h
  · exact k

theorem noteSpan (h : s.lit t) (v : View) (a n : Nat) : s.lit (t.noteSpan v a n) := by
  unfold State.noteSpan
  extract_lets ps s1
  have h1 : s.lit s1 := noteReadL v _ true h
  exact either (h1.addFld _ _) h1

theorem noteCapture (h : s.lit t) (a : Arming) (k : Capture) : s.lit (t.noteCapture a k) := by
  unfold State.noteCapture
  extract_lets g reads pages s1 s2 s3 s4
  have h1 : s.lit s1 := pageReads _ _ (notePlainL _ _ h)
  have h2 : s.lit s2 := either (h1.noteSpan _ _ _) h1
  have h3 : s.lit s3 := either ((h2.addFld _ _).div _ _ _) h2
  have h4 : s.lit s4 := h3.div _ _ _
  exact either (h4.addFld _ _) h4

theorem sendData (h : s.lit t) (p : PortId) (kind : Nat) (header : List Byte) (data : List SB) : s.lit (t.sendData p kind header data) :=
  h.via (f := (·.sendData p kind header data)) (by rw [State.sendData_on t p (State.domOn_dom (h.2 _))])

theorem logFaults (c : CtxId) (addr e : Nat) (l : List (Nat × Nat)) (h : s.lit t) : s.lit (t.logFaults c addr e l) := by
  induction l generalizing t with
  | nil => exact h
  | cons f l ih => exact ih (h.logEvent _ _ _ _ _)

theorem noteBlock (h : s.lit t) (c : CtxId) (addr k : Nat) (b : BlockRd) : s.lit (t.noteBlock c addr k b) := by
  have hcount : s.lit (t.countBlock c b) := h.step (State.frame.refl [.regs] t).countBlock
  unfold State.noteBlock
  extract_lets s0 kind f s1 s2 s3 s4 s5
  have h1 : s.lit s1 := hcount.setReg _ _
  have h2 : s.lit s2 := either (h1.addFld _ _) h1
  have h3 : s.lit s3 := either (h2.addFld _ _) h2
  have h4 : s.lit s4 := either (h3.addFld _ _) h3
  have h5 : s.lit s5 := logFaults _ _ _ _ h4
  exact either hcount (either (h5.logEvent _ _ _ _ _) h5)

end State.lit

theorem State.awake.lit (h : s.awake) : s.lit s := .refl fun d => s.awake_domOn h d

/-! ### The armings of a slot -/

theorem State.armAt_setArming_self {i : Nat} {a b : Arming} (h : s.armAt i = some a) : (s.setArming i b).armAt i = some b := by
  obtain ⟨hi, -⟩ := List.getElem?_eq_some_iff.mp h
  exact List.getElem?_set_self hi

theorem State.armAt_setArming_other {i j : Nat} (b : Arming) (h : j ≠ i) : (s.setArming i b).armAt j = s.armAt j := List.getElem?_set_ne h.symm

theorem State.armAt_congr (h : t.armings = s.armings) (i : Nat) : t.armAt i = s.armAt i := by rw [State.armAt, h]; rfl

theorem State.slotArms_armAt {c : CtxId} {e : Engine} {slot i : Nat} {a : Arming} {p : Nat × Arming → Bool}
    (h : (s.slotArms c e slot).find? p = some (i, a)) : s.armAt i = some a := by
  obtain ⟨⟨b, j⟩, hb, he⟩ := List.mem_map.mp (List.mem_of_find?_eq_some h)
  obtain ⟨rfl, rfl⟩ := Prod.mk.inj he
  exact List.mem_zipIdx_iff_getElem?.mp (List.mem_filter.mp hb).1

/-! ### Grants (R223, R227) -/

theorem State.askStream_sends (a : Arming) (tile : Nat) (l : List (Nat × PortId × Nat × CtxId × Nat × Nat)) (h : s.lit t) :
    s.lit (t.askStream a tile l) ∧ (t.askStream a tile l).link.missing = t.link.missing := by
  induction l generalizing t with
  | nil => exact ⟨h, rfl⟩
  | cons x l ih =>
    obtain ⟨off, p, d, pc, addr, n⟩ := x
    unfold State.askStream
    extract_lets tag s1 r src s2
    have h2 : s.lit s2 := h.via (f := fun _ => s2) rfl
    obtain ⟨hlit, hmissing⟩ := ih (h2.sendData p 1 (dataHeader 1 a.ctx.val pc.val 0 tag n addr) [])
    exact ⟨hlit, hmissing.trans (State.sendData_missing s2 p (State.domOn_dom (h2.2 _)) _ _ _)⟩

/-- A tile issued: it is in flight behind those before it, and no domain is met that is not on. -/
theorem State.issueAt_issues (hon : ∀ d, s.domOn d = true) {i : Nat} {a : Arming} (ha : s.armAt i = some a) :
    (s.issueAt i).pwr = s.pwr ∧ (s.issueAt i).link.missing = s.link.missing ∧ (∀ j, j ≠ i → (s.issueAt i).armAt j = s.armAt j) ∧
      ∃ b, (s.issueAt i).armAt i = some b ∧ b.issued = a.issued + 1 ∧ b.flight.length = a.flight.length + 1 := by
  unfold State.issueAt
  split
  · rename_i hnone
    rw [ha] at hnone
    cases hnone
  rename_i a' ha'
  obtain rfl := Option.some.inj (ha.symm.trans ha')
  extract_lets k old s1 src s2 f b
  have h1 : s.lit s1 := (State.lit.refl hon).noteCapture a k
  have harm : s1.armings = s.armings := ((State.frame.refl [.regs, .blks, .link, .pwr, .pcie, .log, .logNext, .out] s).noteCapture).armings_eq
  have hset : s.lit (s2.setArming i { b with flight := b.flight ++ [f] }) := h1.via (f := fun _ => s2.setArming i _) rfl
  obtain ⟨hlit, hmissing⟩ := State.askStream_sends a a.issued (peerRuns 0 (k.payload a)) hset
  have hask := ((State.frame.refl [.link, .pwr, .out] (s2.setArming i { b with flight := b.flight ++ [f] })).askStream (a := a)
    (tile := a.issued) (r3 := peerRuns 0 (k.payload a))).armings_eq
  have ha2 : s2.armAt i = some a := (State.armAt_congr (s := s) (t := s2) harm i).trans ha
  refine ⟨hlit.1, hmissing, fun j hj => ?_, { b with flight := b.flight ++ [f] }, ?_, rfl, ?_⟩
  · exact ((State.armAt_congr hask j).trans (State.armAt_setArming_other _ hj)).trans (State.armAt_congr (s := s) (t := s2) harm j)
  · exact (State.armAt_congr hask i).trans (State.armAt_setArming_self ha2)
  · show (b.flight ++ [f]).length = _
    rw [List.length_append]
    rfl

/-- The choice of the arbiter outside Exact mode. -/
theorem State.choose_arbitrated {e : Engine} {waits : List Nat} {i : Nat} {aged : Bool} {a : Arming}
    (hexact : ∀ c, (s.ctx c).exactActive = false) (harb : s.arbitrate (s.eligibles e) waits = some (i, aged)) (ha : s.armAt i = some a) :
    ∃ others, s.choose e waits = (some i, fun s =>
      (if aged then (s.addFld Reg.tmvAgecap_count 1).addFld (Reg.ctxTmvArb_agecap.at a.ctx) 1 else s).compareTable e a others) := by
  have hnone : allCtx.find? (fun c => (s.ctx c).exactActive) = none :=
    List.find?_eq_none.mpr fun c _ => by rw [hexact c]; exact Bool.false_ne_true
  unfold State.choose
  rw [hnone]
  dsimp only
  rw [harb]
  dsimp only
  rw [ha]
  exact ⟨_, rfl⟩

/-- A grant outside Exact mode, once a peer has sent what the tile needs: the tile is issued. -/
theorem State.grant_issues (hawake : s.awake) {e : Engine} {waits : List Nat} {i : Nat} {aged : Bool} {a : Arming} (hplaces : s.inFlight e < 8)
    (hexact : ∀ c, (s.ctx c).exactActive = false) (harb : s.arbitrate (s.eligibles e) waits = some (i, aged)) (ha : s.armAt i = some a)
    (hmeta : (s.needMeta a).link.missing = []) : ∃ u d, s.frame [.regs, .ctxs] u ∧ s.grant e waits = { u.issueAt i with deposits := d } ∧
      (u.issueAt i).pwr.stall = [] := by
  obtain ⟨others, hchoose⟩ := State.choose_arbitrated hexact harb ha
  have hu : s.frame [.regs, .ctxs]
      ((if aged then (s.addFld Reg.tmvAgecap_count 1).addFld (Reg.ctxTmvArb_agecap.at a.ctx) 1 else s).compareTable e a others) :=
    (State.frame.either ((State.frame.refl _ s).addFld.addFld) (.refl _ s)).compareTable
  generalize hv : (if aged then (s.addFld Reg.tmvAgecap_count 1).addFld (Reg.ctxTmvArb_agecap.at a.ctx) 1 else s).compareTable e a others = u at hu
  have hon : ∀ d, u.domOn d = true := fun d => by
    have := s.awake_domOn hawake d
    unfold State.domOn State.dom at this ⊢
    rwa [hu.pwr_eq]
  obtain ⟨hpwr, hmissing, -⟩ := State.issueAt_issues hon ((State.armAt_congr hu.armings_eq i).trans ha)
  have htouch := State.awake_touch s hawake (ds := [])
  obtain ⟨-, -, hstall, hmiss⟩ := hawake
  have hstall' : (u.issueAt i).pwr.stall = [] := by rw [hpwr, hu.pwr_eq, hstall]
  refine ⟨u, if s.deposits.isEmpty then (u.issueAt i).deposits else [], hu, ?_, hstall'⟩
  unfold State.grant
  rw [if_neg (Nat.not_le.mpr hplaces)]
  dsimp only
  rw [hchoose]
  dsimp only
  rw [Option.bind_some, ha, Option.map_some]
  dsimp only
  have hbody : ∀ s' : State, s' = s → (if (s'.needMeta a).link.missing.isEmpty = true then
      ((if aged then (s'.addFld Reg.tmvAgecap_count 1).addFld (Reg.ctxTmvArb_agecap.at a.ctx) 1 else s').compareTable e a others).issueAt i
      else s'.needMeta a) = u.issueAt i := fun s' hs' => by
    rw [hs', hmeta, hv]
    rfl
  rw [State.awaitPeers_ready]
  · rw [hbody _ htouch]
  · rw [hbody _ htouch, hstall']
  · rw [hbody _ htouch, hmissing, hu.link_eq, hmiss]

theorem transferGrants {e : Engine} {waits : List Nat} {i : Nat} {aged : Bool} {a : Arming} (hawake : s.awake) (hplaces : s.inFlight e < 8)
    (hexact : ∀ c, (s.ctx c).exactActive = false) (harb : s.arbitrate (s.eligibles e) waits = some (i, aged)) (ha : s.armAt i = some a)
    (hmeta : (s.needMeta a).link.missing = []) : ∃ t b, exec (.transferGrant e waits) s = .next t ∧ t.armAt i = some b ∧ b.issued = a.issued + 1 ∧
      b.flight.length = a.flight.length + 1 ∧ (∀ j, j ≠ i → t.armAt j = s.armAt j) ∧ t.mem = s.mem ∧ t.running = s.running := by
  obtain ⟨u, d, hu, hgrant, hstall⟩ := State.grant_issues hawake hplaces hexact harb ha hmeta
  have hon : ∀ d, u.domOn d = true := fun d => by
    have := s.awake_domOn hawake d
    unfold State.domOn State.dom at this ⊢
    rwa [hu.pwr_eq]
  obtain ⟨-, -, hother, b, hb, hissued, hflight⟩ := State.issueAt_issues hon ((State.armAt_congr hu.armings_eq i).trans ha)
  have hframe : u.frame [.regs, .blks, .armings, .link, .pwr, .pcie, .log, .logNext, .out] (u.issueAt i) := (State.frame.refl _ u).issueAt
  have hexec : exec (.transferGrant e waits) s = .next { u.issueAt i with deposits := d } := by
    refine congrArg Host.Outcome.next ?_
    rw [State.orStall_done]
    · rw [State.awake_touch s hawake, hgrant]
    · rw [State.awake_touch s hawake, hgrant]
      exact hstall
  exact ⟨_, b, hexec, hb, hissued, hflight, fun j hj => (hother j hj).trans (State.armAt_congr hu.armings_eq j),
    hframe.mem_eq.trans hu.mem_eq, hframe.running_eq.trans hu.running_eq⟩

/-! ### Arrivals, deadlines and refreshes (R223, R231, R335) -/

theorem State.noteErr_parts (s : State) (store : Nat) (c : Option CtxId) (n w loc : Nat) : ∃ regs log next pcie pwr out,
    s.noteErr store c n w loc = { s with regs := regs, log := log, logNext := next, pcie := pcie, pwr := pwr, out := out } := by
  unfold State.noteErr
  split
  · exact ⟨_, _, _, _, _, _, rfl⟩
  · split
    · obtain ⟨log, next, pcie, pwr, out, h⟩ := (s.addFld (eccUncorr store) 1).logEvent_parts 1 (store + 1) c loc (Config.syndrome w).toNat
      exact ⟨_, log, next, pcie, pwr, out, h⟩
    · exact ⟨_, _, _, _, _, _, rfl⟩

theorem State.noteTransit_parts (c : CtxId) (a : Nat) (errs : SMap Nat) (s : State) : ∃ regs log next pcie pwr out,
    s.noteTransit c a errs = { s with regs := regs, log := log, logNext := next, pcie := pcie, pwr := pwr, out := out } := by
  unfold State.noteTransit
  induction errs generalizing s with
  | nil => exact ⟨_, _, _, _, _, _, rfl⟩
  | cons x errs ih =>
    obtain ⟨regs, log, next, pcie, pwr, out, h⟩ := s.noteErr_parts 2 (some c) x.2 (a / 8 + x.1) (a + 8 * x.1)
    obtain ⟨regs', log', next', pcie', pwr', out', h'⟩ := ih (s.noteErr 2 (some c) x.2 (a / 8 + x.1) (a + 8 * x.1))
    rw [List.foldl_cons, h', h]
    exact ⟨regs', log', next', pcie', pwr', out', rfl⟩

theorem transferRetires {c : CtxId} {e : Engine} {slot i : Nat} {a : Arming} {f : Flight} {l : List Flight}
    (hfind : (s.slotArms c e slot).find? (fun a => !a.2.flight.isEmpty) = some (i, a)) (hflight : a.flight = f :: l) (hcome : s.awaits a f = false)
    (hchk : a.desc.chk = false) : ∃ t, exec (.transferRetire c e slot) s = .next t ∧
      t = { s with armings := t.armings, regs := t.regs, log := t.log, logNext := t.logNext, pcie := t.pcie, pwr := t.pwr, out := t.out } ∧
      (f.errs = [] → t = { s with armings := t.armings } ∧ throughFabric f.first f.errs f.data = f.data) ∧
      t.armAt i = some { a with flight := l, data := a.data ++ throughFabric f.first f.errs f.data } ∧ ∀ j, j ≠ i → t.armAt j = s.armAt j := by
  have ha := State.slotArms_armAt hfind
  have harrive : s.arrive a f = (throughFabric f.first f.errs f.data, s.noteTransit a.ctx f.first f.errs) :=
    if_pos (by rw [chkOk, hchk]; rfl)
  have hexec : exec (.transferRetire c e slot) s = .next ((s.noteTransit a.ctx f.first f.errs).setArming i
      { a with flight := l, data := a.data ++ throughFabric f.first f.errs f.data }) := by
    refine congrArg Host.Outcome.next ?_
    unfold State.retire
    rw [hfind]
    dsimp only
    rw [hflight]
    dsimp only
    rw [hcome, if_neg Bool.false_ne_true, harrive]
  obtain ⟨regs, log, next, pcie, pwr, out, hnote⟩ := State.noteTransit_parts a.ctx f.first f.errs s
  have harm : (s.noteTransit a.ctx f.first f.errs).armings = s.armings := by rw [hnote]
  refine ⟨_, hexec, by rw [hnote]; rfl, fun herrs => ?_, State.armAt_setArming_self ((State.armAt_congr harm i).trans ha),
    fun j hj => (State.armAt_setArming_other _ hj).trans (State.armAt_congr harm j)⟩
  rw [herrs]
  exact ⟨rfl, rfl⟩

theorem State.armings_addFld (s : State) (f : Fld) (n : Nat) : (s.addFld f n).armings = s.armings := rfl

theorem State.addFld_dropped {l : List Arming} {reqs : List PeerReq} (h : u = { s with armings := l, link := { s.link with peerReqs := reqs } }) (f : Fld)
    (n : Nat) : u.addFld f n = { s with
      armings := (u.addFld f n).armings, regs := (u.addFld f n).regs, link := { s.link with peerReqs := (u.addFld f n).link.peerReqs } } := by
  rw [h]
  rfl

theorem tileExpires {c : CtxId} {e : Engine} {slot i : Nat} {a : Arming}
    (hfind : (s.slotArms c e slot).find? (fun a => a.2.consumer.isSome && !a.2.fetched && a.2.dead.isNone) = some (i, a)) (hdl : a.desc.tileDl ≠ 0) :
    ∃ t, exec (.tileDeadlineExpiry c e slot) s = .next t ∧
      t = { s with armings := t.armings, regs := t.regs, link := { s.link with peerReqs := t.link.peerReqs } } ∧
      (∀ r ∈ t.link.peerReqs, ¬(r.stream = true ∧ r.write = false ∧ r.ctx = c ∧ r.eng = e ∧ r.slot = slot)) ∧
      t.armAt i = some { a with dead := some .tierLate, flight := [] } ∧
      t.fld (Reg.ctxTmvStat_late.at c) = min 4095 (s.fld (Reg.ctxTmvStat_late.at c) + 1) := by
  have hexec : exec (.tileDeadlineExpiry c e slot) s = .next (((s.setArming i { a with dead := some .tierLate, flight := [] }).dropReqs c e slot).addFld
      (Reg.ctxTmvStat_late.at c) 1) := by
    refine congrArg Host.Outcome.next ?_
    unfold State.tileLate
    rw [hfind]
    exact if_neg hdl
  generalize hb : ({ a with dead := some .tierLate, flight := [] } : Arming) = b at hexec
  have hlate := ((s.setArming i b).dropReqs c e slot).fld_addFld_at c (f := Reg.ctxTmvStat_late) (by decide)
  obtain ⟨reqs, hdrop⟩ : ∃ reqs, (s.setArming i b).dropReqs c e slot = { s with
      armings := s.armings.set i b, link := { s.link with peerReqs := reqs } } := ⟨_, rfl⟩
  have harm : (((s.setArming i b).dropReqs c e slot).addFld (Reg.ctxTmvStat_late.at c) 1).armAt i = some b := by
    rw [hdrop]
    exact (State.armAt_congr (State.armings_addFld _ _ _) i).trans
      (State.armAt_setArming_self (s := s) (State.slotArms_armAt hfind))
  refine ⟨_, hexec, State.addFld_dropped hdrop _ _, fun r hr => ?_, harm, hlate⟩
  rintro ⟨hstream, hwrite, hc, he, hs⟩
  have hkeep := (List.mem_filter.mp hr).2
  rw [hc, he, hs, hstream, hwrite] at hkeep
  simp at hkeep

theorem State.fld_whole (s : State) {f : Fld} (hlo : f.lo = 0) (hwidth : f.width = 64) : s.fld f = (s.reg f.off).toNat := by
  unfold State.fld wBits bitsOf
  rw [hlo, hwidth, Nat.pow_zero, Nat.div_one]
  exact Nat.mod_eq_of_lt (BitVec.isLt _)

theorem State.reg_div_count (s : State) (c : CtxId) (code : Nat) :
    ((s.div c code 1).reg (ctxBase c + Reg.ctxDivCount)).toNat = min (2 ^ 64 - 1) ((s.reg (ctxBase c + Reg.ctxDivCount)).toNat + 1) := by
  have hsrc : ctxBase c + Reg.ctxDivCount ≠ ctxBase c + Reg.ctxDivSrc + 8 * (code / 4) := by
    unfold Reg.ctxDivCount Reg.ctxDivSrc
    omega
  have hfld : ∀ u : State, u.fld (Reg.ctxDivCount_count.at c) = (u.reg (ctxBase c + Reg.ctxDivCount)).toNat := fun u =>
    u.fld_whole rfl rfl
  have hadd := s.fld_addFld_at c (f := Reg.ctxDivCount_count) (by decide)
  rw [hfld, hfld] at hadd
  refine Eq.trans (congrArg BitVec.toNat ?_) hadd
  unfold State.div
  extract_lets src
  rw [if_neg Nat.one_ne_zero]
  exact State.reg_addFld_other (s := s.addFld _ 1) src 1 _ hsrc

theorem refreshDelays {i k : Nat} {a : Arming} (ha : s.armAt i = some a) (hk : s.dstTile a = some k) :
    ∃ t, exec (.dramRefresh [i]) s = .next t ∧ t = { s with armings := t.armings, regs := t.regs } ∧
      t.armAt i = some { a with tilesHit := a.tilesHit ++ [k] } ∧ (∀ j, j ≠ i → t.armAt j = s.armAt j) ∧
      (t.reg (ctxBase a.ctx + Reg.ctxDivCount)).toNat = min (2 ^ 64 - 1) ((s.reg (ctxBase a.ctx + Reg.ctxDivCount)).toNat + 1) := by
  have hexec : exec (.dramRefresh [i]) s = .next ((s.setArming i { a with tilesHit := a.tilesHit ++ [k] }).div a.ctx 2 1) := by
    have hone : s.refreshOne i = (s.setArming i { a with tilesHit := a.tilesHit ++ [k] }).div a.ctx 2 1 := by
      unfold State.refreshOne
      rw [ha]
      dsimp only
      rw [hk]
    rw [← hone]
    rfl
  have harm : ((s.setArming i { a with tilesHit := a.tilesHit ++ [k] }).div a.ctx 2 1).armings =
      (s.setArming i { a with tilesHit := a.tilesHit ++ [k] }).armings := ((State.frame.refl [.regs] _).div).armings_eq
  exact ⟨_, hexec, ((State.frame.refl [.armings, .regs] s).setArming.div).eq_take, (State.armAt_congr harm i).trans (State.armAt_setArming_self ha),
    fun j hj => (State.armAt_congr harm j).trans (State.armAt_setArming_other _ hj), State.reg_div_count _ _ _⟩

/-! ### Decoded blocks (R135, R156, R167) -/

theorem decodeSyms_length {rows : List (Nat × Nat × List Nat)} {n : Nat} {bs : List Bool} {l : List Nat} {rest : List Bool}
    (h : decodeSyms rows n bs = .ok (l, rest)) : l.length = n := by
  induction n generalizing bs l rest with
  | zero =>
    unfold decodeSyms at h
    rw [← (Prod.mk.inj (Except.ok.inj h)).1]
    rfl
  | succ n ih =>
    unfold decodeSyms at h
    split at h
    · cases h
    · split at h
      · cases h
      · rename_i hrec
        rw [← (Prod.mk.inj (Except.ok.inj h)).1, List.length_cons, ih hrec]

theorem decodeSub_length {rows : List (Nat × Nat × List Nat)} {bs out : List Byte} (h : decodeSub rows bs = .ok out) : out.length = 256 := by
  unfold decodeSub at h
  split at h
  · cases h
  · rename_i hsyms
    split at h
    · cases h
    · rw [← Except.ok.inj h, List.length_map, decodeSyms_length hsyms]

theorem decodePayload_length {t : CodeTable} {ls : List Nat} {i : Nat} {bs out : List Byte} (h : decodePayload t ls i bs = .ok out) :
    out.length = 256 * ls.length := by
  induction ls generalizing i bs out with
  | nil =>
    unfold decodePayload at h
    rw [← Except.ok.inj h]
    rfl
  | cons l ls ih =>
    unfold decodePayload at h
    split at h
    · cases h
    · cases h
    · cases h
    · rename_i hsub
      split at h
      · cases h
      · rename_i hrest
        rw [← Except.ok.inj h, List.length_append, decodeSub_length hsub, ih hrest, List.length_cons]
        omega

theorem poisonBlock_length : poisonBlock.length = 4096 := by simp [poisonBlock, poisonRun]

theorem poisonBlock_poisoned : ∀ x ∈ poisonBlock, x.2 = true := fun _ hx => poisonRun_poisoned hx

/-- The header of a block in the raw form is followed by its 4,096 bytes. -/
theorem blockLen_raw {data : List SB} (h : (hdrOfBytes ((data.take 16).map (·.1))).raw = true) : blockLen data = 24 + 4096 := by
  unfold blockLen
  dsimp only
  rw [if_pos (.inr h)]

/-- A block as R135 and R167 deliver it: 4,096 bytes, poisoned where it has a fault. -/
def BlockRd.fills (b : BlockRd) : Prop := b.bytes.length = 4096 ∧ (b.status ≠ none → ∀ x ∈ b.bytes, x.2 = true)

theorem BlockRd.fills_poison {b : BlockRd} (h : b.bytes = poisonBlock) : b.fills :=
  ⟨h ▸ poisonBlock_length, fun _ => h ▸ poisonBlock_poisoned⟩

theorem BlockRd.fills_good {b : BlockRd} (hlen : b.bytes.length = 4096) (hf : b.faults = []) (hpair : b.pairing = false) (hp : b.poisoned = false) :
    b.fills := by
  refine ⟨hlen, fun h => absurd ?_ h⟩
  unfold BlockRd.status
  rw [hpair, hf, hp]
  rfl

theorem BlockRd.hdrOfBytes_lens (bs : List Byte) : (hdrOfBytes bs).lens.length = 16 := by
  unfold hdrOfBytes
  rw [List.length_map, List.length_range]

theorem State.expand_fills (s : State) (c : CtxId) (tmask : Nat) (hd rec payload : List SB)
    (hraw : (hdrOfBytes (hd.map (·.1))).raw = true → 4096 ≤ payload.length) : (s.expand c tmask hd rec payload).fills := by
  unfold State.expand
  extract_lets h r whole base tbl f1 f2 f345 f6 faults pair
  split
  · exact BlockRd.fills_poison (by dsimp only [base])
  · split
    · split
      · next hr => exact BlockRd.fills_good (by rw [List.length_take_of_le (hraw hr)]) rfl rfl rfl
      · cases tbl with
        | none => exact BlockRd.fills_poison (by dsimp only [base])
        | some t =>
          dsimp only
          cases hl : decodePayload t h.lens 0 (payload.map (·.1)) with
          | error _ => exact BlockRd.fills_poison (by dsimp only)
          | ok l =>
            refine BlockRd.fills_good ?_ rfl rfl rfl
            dsimp only
            exact (List.length_map _).trans ((decodePayload_length hl).trans (by rw [BlockRd.hdrOfBytes_lens]))
    · exact BlockRd.fills_poison (by dsimp only [base])

theorem State.decoding_armAt {c : CtxId} {slot i : Nat} {a : Arming} (h : s.decoding c slot = some (i, a)) : s.armAt i = some a := by
  obtain ⟨p, hp, he⟩ := Option.map_eq_some_iff.mp h
  obtain ⟨rfl, rfl⟩ := Prod.mk.inj he
  exact (List.mem_zipIdx_iff_getElem?).mp (List.mem_of_find?_eq_some hp)

/-- A block whose bytes are in is decoded, with what its reads and faults count. -/
theorem State.decodeNext_in {a : Arming} (h : a.blockIn = true) :
    let k := s.expand a.ctx a.desc.tmask (a.data.take 16) ((a.data.drop 16).take 8) ((a.data.take (blockLen a.data)).drop 24)
    ∃ st addr, s.decodeNext a = ({ a with dec := a.dec ++ k.bytes, decBlk := a.decBlk + 1, data := a.data.drop (blockLen a.data), decStat := st },
      s.noteBlock a.ctx addr a.decBlk k) := by
  intro k
  have hlen : ¬a.data.length < blockLen a.data := by
    unfold Arming.blockIn at h
    simp at h
    omega
  unfold State.decodeNext
  extract_lets
  rw [if_neg hlen]
  exact ⟨_, _, rfl⟩

theorem blockDecodes {c : CtxId} {slot i : Nat} {a : Arming} (hawake : s.awake) (hdec : s.decoding c slot = some (i, a)) (hin : a.blockIn = true)
    (htake : s.arrayTakes a = true ∨ s.decodedAhead + 4096 ≤ 65536) :
    let k := s.expand a.ctx a.desc.tmask (a.data.take 16) ((a.data.drop 16).take 8) ((a.data.take (blockLen a.data)).drop 24)
    ∃ t b, exec (.blockDecode c slot) s = .next t ∧ t.armAt i = some b ∧ b.decBlk = a.decBlk + 1 ∧
      b.data = a.data.drop (blockLen a.data) ∧ b.dec = a.dec ++ k.bytes ∧ k.bytes.length = 4096 ∧
      (k.status ≠ none → ∀ x ∈ k.bytes, x.2 = true) ∧ (∀ j, j ≠ i → t.armAt j = s.armAt j) ∧
      t.mem = s.mem ∧ t.ctxs = s.ctxs := by
  intro k
  obtain ⟨st, addr, hnext⟩ := State.decodeNext_in (s := s) hin
  generalize hb : ({ a with dec := a.dec ++ k.bytes, decBlk := a.decBlk + 1, data := a.data.drop (blockLen a.data), decStat := st } : Arming) = b
    at hnext
  have hrun : s.decodeBlock c slot = (s.noteBlock a.ctx addr a.decBlk k).setArming i b := by
    unfold State.decodeBlock
    rw [hdec]
    dsimp only
    rw [if_neg, hnext]
    rintro (hno | ⟨hno, hfull⟩)
    · rw [hin] at hno
      cases hno
    · rcases htake with h | h
      · rw [hno] at h
        cases h
      · omega
  have hexec : exec (.blockDecode c slot) s = .next ((s.noteBlock a.ctx addr a.decBlk k).setArming i b) := by
    refine congrArg Host.Outcome.next ?_
    rw [State.orStall_done]
    · rw [State.awake_touch s hawake, hrun]
    · rw [State.awake_touch s hawake, hrun]
      obtain ⟨hpwr, -⟩ := (State.awake.lit hawake).noteBlock a.ctx addr a.decBlk k
      obtain ⟨-, -, hstall, -⟩ := hawake
      exact (congrArg (·.stall) hpwr).trans hstall
  have hnote : s.frame [.regs, .link, .pwr, .pcie, .log, .logNext, .out] (s.noteBlock a.ctx addr a.decBlk k) := (State.frame.refl _ s).noteBlock
  have ⟨hlen, hpoison⟩ : k.fills := s.expand_fills _ _ _ _ _ fun hraw => by
    have hn := blockLen_raw hraw
    unfold Arming.blockIn at hin
    rw [List.length_drop, List.length_take, hn]
    rw [hn] at hin
    simp at hin
    omega
  refine ⟨_, b, hexec, State.armAt_setArming_self ((State.armAt_congr hnote.armings_eq i).trans (State.decoding_armAt hdec)), ?_, ?_, ?_, hlen, hpoison,
    fun j hj => (State.armAt_setArming_other _ hj).trans (State.armAt_congr hnote.armings_eq j), hnote.mem_eq, hnote.ctxs_eq⟩
  all_goals rw [← hb]

/-- Settles O39: each of the five clauses is the run of one command, and what the transfers, blocks and refreshes count leaves memory alone. -/
theorem streamTransfers : Obligations.StreamTransfers := by
  unfold Obligations.StreamTransfers
  refine ⟨⟨?_, ?_, ?_, ?_⟩, ?_⟩
  · exact fun e waits i aged a s hawake hplaces hexact harb ha hmeta => transferGrants hawake hplaces hexact harb ha hmeta
  · exact fun c e slot i a f l s hfind hflight hcome hchk => transferRetires hfind hflight hcome hchk
  · exact fun c e slot i a s hfind hdl => tileExpires hfind hdl
  · exact fun i k a s ha hk => refreshDelays ha hk
  · exact fun c slot i a s hawake hdec hin htake => blockDecodes hawake hdec hin htake

end Sys2Proof.Machine
end

section
/-! PROOFS. Migration requests, starts and ends, and what a PROMOTE copies. -/

namespace Sys2Proof.Machine

set_option Elab.async false

open Sys2Proof

variable {s t u : State}


/-! ### Requests (R260) -/

theorem State.migRequest_joins {c : CtxId} {op : Nat} {v : W64} (h : ∀ q ∈ s.migAll, q.ctx = c → q.id ≠ wBits v 8 8) :
    s.migRequest c op v = { s with mig := s.mig ++ [migOf c op (s.reg (ctxBase c + Reg.ctxMigObj)) v] } := by
  refine if_neg fun hany => ?_
  obtain ⟨q, hq, hsame⟩ := List.any_eq_true.mp hany
  simp only [Bool.and_eq_true, decide_eq_true_eq] at hsame
  exact h q hq hsame.1 hsame.2

theorem State.migRequest_rejects {c : CtxId} {op : Nat} {v : W64} (h : ∃ q ∈ s.migAll, q.ctx = c ∧ q.id = wBits v 8 8) :
    ∃ log next pcie pwr out, s.migRequest c op v = { s.addFld (Reg.ctxMigStat_rejected.at c) 1 with
      log := log, logNext := next, pcie := pcie, pwr := pwr, out := out } := by
  obtain ⟨q, hq, hc, hid⟩ := h
  have hany : s.migAll.any (fun q => decide (q.ctx = c) && decide (q.id = (migOf c op (s.reg (ctxBase c + Reg.ctxMigObj)) v).id)) = true :=
    List.any_eq_true.mpr ⟨q, hq, by simp [hc, hid, migOf]⟩
  obtain ⟨log, next, pcie, pwr, out, hlog⟩ := (s.addFld (Reg.ctxMigStat_rejected.at c) 1).logEvent_parts 5 2 (some c)
    (migOf c op (s.reg (ctxBase c + Reg.ctxMigObj)) v).addr (migOf c op (s.reg (ctxBase c + Reg.ctxMigObj)) v).id
  exact ⟨log, next, pcie, pwr, out, (if_pos hany).trans hlog⟩

/-- What a count and a log entry leave of a state. -/
theorem State.noted_parts {log : List LogEnt} {next : BitVec 32} {pcie : Pcie} {pwr : Pwr} {out : List Out} (hu : u = { s with regs := u.regs })
    (ht : t = { u with log := log, logNext := next, pcie := pcie, pwr := pwr, out := out }) :
    t = { s with regs := t.regs, log := t.log, logNext := t.logNext, pcie := t.pcie, pwr := t.pwr, out := t.out } ∧ t.regs = u.regs := by
  subst ht
  exact ⟨by rw [hu], rfl⟩

theorem migrationRequests {i : Instr} {c : CtxId} {op : Nat} {v : W64} (hi : exec i s = .next (s.migRequest c op v)) :
    ((∀ q ∈ s.migAll, q.ctx = c → q.id ≠ wBits v 8 8) →
      exec i s = .next { s with mig := s.mig ++ [migOf c op (s.reg (ctxBase c + Reg.ctxMigObj)) v] }) ∧
    ((∃ q ∈ s.migAll, q.ctx = c ∧ q.id = wBits v 8 8) →
      ∃ t, exec i s = .next t ∧ t = { s with regs := t.regs, log := t.log, logNext := t.logNext, pcie := t.pcie, pwr := t.pwr, out := t.out } ∧
        t.fld (Reg.ctxMigStat_rejected.at c) = min 65535 (s.fld (Reg.ctxMigStat_rejected.at c) + 1)) := by
  refine ⟨fun h => hi.trans (congrArg _ (State.migRequest_joins h)), fun h => ?_⟩
  obtain ⟨log, next, pcie, pwr, out, ht⟩ := State.migRequest_rejects (op := op) h
  have hcount := s.fld_addFld_at c (f := Reg.ctxMigStat_rejected) (by decide)
  obtain ⟨hparts, hregs⟩ := State.noted_parts (State.addFld_eq s _ _) ht
  exact ⟨_, hi, hparts, (State.fld_congr (by rw [hregs]) _).trans hcount⟩

/-! ### Starts (R254, R262, R263) -/

theorem State.migNext_mem {m : MigReq} {before l : List MigReq} (h : s.migNext before l = some m) : m ∈ l := by
  induction l generalizing before with
  | nil => cases h
  | cons q l ih =>
    unfold State.migNext at h
    split at h
    · rw [Option.some.inj h]
      exact List.mem_cons_self ..
    · exact List.mem_cons_of_mem _ (ih h)

theorem State.migStart_begins {m : MigReq} (hawake : s.awake) (hquiet : s.quiesced = false) (hands : s.cfeHands = true) (hbusy : s.migBusy < 64)
    (hnext : s.migNext [] s.mig = some m) (hstall : (s.migBegin m).pwr = s.pwr) : s.migStart = s.migBegin m := by
  have hgo : (s.quiesced || !s.cfeHands || decide (64 ≤ s.migBusy)) = false := by
    simp [hquiet, hands, hbusy]
  unfold State.migStart
  rw [hgo, if_neg Bool.false_ne_true, hnext]
  dsimp only
  rw [State.orStall_done]
  · rw [State.awake_touch s hawake]
  · rw [State.awake_touch s hawake, hstall]
    obtain ⟨-, -, hs, -⟩ := hawake
    exact hs

/-- What a start can change: objects, and the requests of its context and id, which have started. -/
def State.begins (s t : State) (c : CtxId) (id : Nat) : Prop :=
  t = { s with mig := t.mig, objs := t.objs } ∧ ∀ q ∈ t.mig, q.ctx = c → q.id = id → q.started = true

theorem State.begins_updMig {c : CtxId} {id : Nat} {f : MigReq → MigReq} (hu : u = { s with objs := u.objs })
    (hf : ∀ q, (f q).started = true) : s.begins (u.updMig c id f) c id := by
  refine ⟨?_, fun q hq hc hid => ?_⟩
  · unfold State.updMig
    rw [hu]
  obtain ⟨p, -, hp⟩ := List.mem_map.mp hq
  split at hp
  · rw [← hp]
    exact hf p
  · next hno => exact absurd ⟨by rw [hp]; exact hc, by rw [hp]; exact hid⟩ hno

theorem State.migBegin_begins (s : State) (m : MigReq) : s.begins (s.migBegin m) m.ctx m.id := by
  unfold State.migBegin
  extract_lets ends
  have hends : ∀ st i, s.begins (ends st i) m.ctx m.id := fun st i => State.begins_updMig rfl fun _ => rfl
  split
  · exact State.begins_updMig rfl fun _ => rfl
  split
  · exact hends _ _
  split
  · exact hends _ _
  split
  · exact hends _ _
  split
  · exact hends _ _
  extract_lets s1 wb n
  split
  · split
    · exact State.begins_updMig rfl fun _ => rfl
    · exact State.begins_updMig rfl fun _ => rfl
  · exact State.begins_updMig rfl fun _ => rfl

theorem State.mem_updMig {m : MigReq} (h : m ∈ s.mig) (f : MigReq → MigReq) : f m ∈ (s.updMig m.ctx m.id f).mig :=
  List.mem_map.mpr ⟨m, h, if_pos ⟨rfl, rfl⟩⟩

theorem Obj.hold_setHold (o : Obj) {t : Nat} (ht : t < 2) (l : List CtxId) : (o.setHold t l).hold t = l := by
  obtain rfl | rfl : t = 0 ∨ t = 1 := by omega
  · rfl
  · rfl

theorem Obj.chg_setChg (o : Obj) {t : Nat} (ht : t < 2) (c : CtxId) : (o.setChg t c).chg t = c := by
  obtain rfl | rfl : t = 0 ∨ t = 1 := by omega
  · rfl
  · rfl

theorem Obj.hold_setChg (o : Obj) (t n : Nat) (c : CtxId) : (o.setChg t c).hold n = o.hold n := by
  unfold Obj.setChg
  split
  · rfl
  · rfl

theorem State.migBegin_promote {m : MigReq} {i : Nat} {o : Obj} (hobj : s.migObj m.ctx m.addr = some (i, o)) (hreport : m.report = none)
    (htier : m.tier < 2) (hop : m.op = 0) (hinst : o.inst = false) (hallowed : m.allowed o = true) (hmoves : m.moves o = true) :
    s.migBegin m =
      if s.quotaTakes m.ctx m.tier (chargeOf m.tier o.size) = true ∧ chargeOf m.tier o.size ≤ s.freePages m.tier then
        ((s.setObj i { o with busy := true }).setObj i { (o.setHold m.tier [m.ctx]).setChg m.tier m.ctx with busy := true }).updMig m.ctx m.id
          (fun q => { q with started := true, obj := some i, charged := true })
      else (s.setObj i { o with busy := true }).updMig m.ctx m.id
        (fun q => { q with started := true, obj := some i, report := some .quota }) := by
  have hlegal : ¬(2 ≤ m.tier ∨ 3 ≤ m.op) := by omega
  unfold State.migBegin
  extract_lets ends
  have hnew : ¬m.report.isSome = true := by simp [hreport]
  rw [if_neg hnew, if_neg hlegal, hobj]
  dsimp only
  have hinst' : ¬o.inst = true := by simp [hinst]
  have hallowed' : ¬(!m.allowed o) = true := by simp [hallowed]
  rw [if_neg hinst', if_neg hallowed', if_pos ⟨hop, hmoves⟩]

/-- A PROMOTE that makes a copy takes its charge and reference as it starts, or will end with QUOTA (R263). -/
theorem State.migBegin_promotes {m : MigReq} {i : Nat} {o : Obj} (hmem : m ∈ s.mig) (hobj : s.migObj m.ctx m.addr = some (i, o))
    (hreport : m.report = none) (hop : m.op = 0) (hinst : o.inst = false) (hallowed : m.allowed o = true) (hmoves : m.moves o = true) :
    if s.quotaTakes m.ctx m.tier (chargeOf m.tier o.size) = true ∧ chargeOf m.tier o.size ≤ s.freePages m.tier then
      ((s.migBegin m).obj i).hold m.tier = [m.ctx] ∧ ((s.migBegin m).obj i).chg m.tier = m.ctx ∧ ((s.migBegin m).obj i).busy = true ∧
        ∃ q ∈ (s.migBegin m).mig, q.ctx = m.ctx ∧ q.id = m.id ∧ q.charged = true ∧ q.report = none
    else ((s.migBegin m).obj i).hold m.tier = o.hold m.tier ∧
      ∃ q ∈ (s.migBegin m).mig, q.ctx = m.ctx ∧ q.id = m.id ∧ q.report = some .quota := by
  have htier : m.tier < 2 := by
    unfold MigReq.allowed at hallowed
    simp only [Bool.and_eq_true, decide_eq_true_eq] at hallowed
    exact hallowed.1.1
  rw [State.migBegin_promote hobj hreport htier hop hinst hallowed hmoves]
  split
  · have hget : ∀ f : MigReq → MigReq, (((s.setObj i { o with busy := true }).setObj i
        { (o.setHold m.tier [m.ctx]).setChg m.tier m.ctx with busy := true }).updMig m.ctx m.id f).obj i =
        { (o.setHold m.tier [m.ctx]).setChg m.tier m.ctx with busy := true } := fun _ => State.obj_setObj_self _ _ _
    rw [hget]
    refine ⟨?_, Obj.chg_setChg _ htier _, rfl, _, State.mem_updMig hmem _, rfl, rfl, rfl, hreport⟩
    exact (Obj.hold_setChg (o.setHold m.tier [m.ctx]) m.tier m.tier m.ctx).trans (Obj.hold_setHold o htier _)
  · have hget : ∀ f : MigReq → MigReq, ((s.setObj i { o with busy := true }).updMig m.ctx m.id f).obj i = { o with busy := true } :=
      fun _ => State.obj_setObj_self _ _ _
    exact ⟨congrArg (·.hold m.tier) (hget _), _, State.mem_updMig hmem _, rfl, rfl, rfl⟩

end Sys2Proof.Machine
end

section
/-! PROOFS. The ends of migration operations, and what a PROMOTE copies. -/

namespace Sys2Proof.Machine

set_option Elab.async false

open Sys2Proof

variable {s t u : State}


/-! ### A request leaves the engine with its result (R261) -/

theorem State.hostUp_congr (hpcie : t.pcie = s.pcie) (hdoms : t.pwr.doms = s.pwr.doms) : t.hostUp = s.hostUp := by
  unfold State.hostUp State.gated State.dom
  rw [hpcie, hdoms]

theorem State.reg_addFld_rbase (s : State) (c : CtxId) (f : Fld) (n : Nat) (h : f.off ≠ ctxBase c + Reg.ctxMigRbase) :
    (s.addFld f n).reg (ctxBase c + Reg.ctxMigRbase) = s.reg (ctxBase c + Reg.ctxMigRbase) :=
  State.reg_addFld_other (s := s) f n _ (Ne.symm h)

/-- The request has left the engine, and its object is no longer busy; nothing but registers has changed besides. -/
def State.unlisted (s u : State) (m : MigReq) : Prop :=
  s.frame [.regs, .objs, .mig, .link] u ∧ u.link.missing = s.link.missing ∧ (∀ q ∈ u.mig, ¬(q.ctx = m.ctx ∧ q.id = m.id)) ∧
    u.reg (ctxBase m.ctx + Reg.ctxMigRbase) = s.reg (ctxBase m.ctx + Reg.ctxMigRbase) ∧
    ∀ i, m.obj = some i → u.obj i = { s.obj i with busy := false }

theorem State.unlisted.counts {m : MigReq} {f : Fld} {n : Nat} {p : Prop} [Decidable p] (h : s.unlisted u m) (hf : f.off ≠ ctxBase m.ctx + Reg.ctxMigRbase) :
    s.unlisted (if p then u.addFld f n else u) m := by
  split
  · obtain ⟨hframe, hmissing, hmig, hreg, hobj⟩ := h
    exact ⟨hframe.addFld, hmissing, hmig, (State.reg_addFld_rbase u m.ctx f n hf).trans hreg, hobj⟩
  · exact h

theorem State.migFinish_unlists (s : State) (m : MigReq) (st : Status) (moved : Bool) : ∃ u, s.unlisted u m ∧
    s.migFinish m st moved = if s.hostUp then u.migPost { m with report := some st, moved := moved }
      else { u with migWait := u.migWait ++ [{ m with report := some st, moved := moved }] }.wakeDom epDom := by
  have hdev : ∀ o, o < 0x1000000 → o ≠ ctxBase m.ctx + Reg.ctxMigRbase := fun o ho => by
    have := ctxBase_ge m.ctx Reg.ctxMigRbase
    omega
  unfold State.migFinish
  extract_lets e l s1 s2 s3 s4 s5
  have h2 : s.unlisted s2 m := by
    have hmig : ∀ q ∈ s1.mig, ¬(q.ctx = m.ctx ∧ q.id = m.id) := fun q hq hsame => by
      have := (List.mem_filter.mp hq).2
      rw [hsame.1, hsame.2] at this
      simp at this
    have h1 : s.frame [.regs, .objs, .mig, .link] s1 := (State.frame.refl _ s).update
    unfold s2
    split
    · next i hi =>
      exact ⟨h1.setObj, rfl, hmig, rfl, fun j hj => by
        rw [hi] at hj
        rw [← Option.some.inj hj]
        exact State.obj_setObj_self _ _ _⟩
    · next hi => exact ⟨h1, rfl, hmig, rfl, fun j hj => by rw [hi] at hj; cases hj⟩
  have h3 : s.unlisted s3 m := h2.counts (hdev _ (by decide))
  have h4 : s.unlisted s4 m := h3.counts (hdev _ (by decide))
  have h5 : s.unlisted s5 m := h4.counts (fun h => absurd (Nat.add_left_cancel h) (by decide))
  refine ⟨s5, h5, ?_⟩
  obtain ⟨hframe, -⟩ := h5
  rw [State.hostUp_congr hframe.pcie_eq (congrArg (·.doms) hframe.pwr_eq)]

/-- Where the result word of a request stands. -/
def State.migPlace (s : State) (m : MigReq) : Nat := wBits (s.reg (ctxBase m.ctx + Reg.ctxMigRbase)) 11 53 * 2048 + 8 * m.id

theorem State.migPost_frame (s : State) (m : MigReq) : s.frame [.ctxs, .hostMem, .poison, .bch] (s.migPost m) := (State.frame.refl _ s).migPost

theorem State.migPost_after (s : State) (m : MigReq) :
    (s.hostStore (s.migPlace m) (clean (leBytes 8 m.word.toNat))).frame [.ctxs] (s.migPost m) := by
  unfold State.migPost
  extract_lets a s1
  exact State.frame.either ((State.frame.refl _ _).scnAdd) (.refl _ _)

theorem State.migPost_word (s : State) (m : MigReq) {i : Nat} {b : Byte} (h : (leBytes 8 m.word.toNat)[i]? = some b) :
    SMap.find? (s.migPost m).hostMem (s.migPlace m + i) = some b := by
  rw [(s.migPost_after m).hostMem_eq]
  exact hostStore_find s _ i _ (x := (b, false)) (by simp [clean, h])

theorem hostStore_peek_other (s : State) {a k : Nat} {data : List SB} (ha : a + data.length ≤ 2 ^ 64) (hlen : 0 < data.length) (hk : 2 ^ 64 ≤ k) :
    (s.hostStore a data).peek k = s.peek k := by
  have hmarks := fun u : State => State.markWords_other (v := k / 8) data.length u a data (.inr (by omega))
  have hframe : s.frame [.hostMem, .poison, .bch] (s.hostStore a data) := (State.frame.refl _ s).hostStore
  have hmem := hframe.mem_eq
  unfold State.hostStore at hmem ⊢
  dsimp only at hmem ⊢
  obtain ⟨hp, hb⟩ := hmarks { s with hostMem := (data.zipIdx).foldl (fun (m : SMap Byte) (p : SB × Nat) => SMap.insert m (a + p.2) p.1.1) s.hostMem }
  unfold State.peek State.wordErr State.isPoison
  rw [hp, hb, hmem]

theorem State.migPost_peek (s : State) (m : MigReq) (hid : m.id < 256) {k : Nat} (hk : 2 ^ 64 ≤ k) : (s.migPost m).peek k = s.peek k := by
  have h := s.migPost_after m
  have hfar : s.migPlace m + 8 ≤ 2 ^ 64 := by
    have : wBits (s.reg (ctxBase m.ctx + Reg.ctxMigRbase)) 11 53 < 2 ^ 53 := wBits_lt _ _ _
    unfold State.migPlace
    omega
  rw [State.peek_congr h.mem_eq h.poison_eq h.bch_eq k]
  exact hostStore_peek_other s (by simpa [clean, leBytes] using hfar) (by simp [clean, leBytes]) hk

/-- A request has ended with a status: it is in the engine no longer, and with host memory within reach its result word is there. -/
def State.ended (s t : State) (c : CtxId) (id : Nat) (m : MigReq) (st : Status) : Prop :=
  (∀ q ∈ t.mig, ¬(q.ctx = c ∧ q.id = id)) ∧
    (s.hostUp = true → ∀ i b, (leBytes 8 (MigReq.word { m with report := some st, moved := false }).toNat)[i]? = some b →
      SMap.find? t.hostMem (wBits (s.reg (ctxBase c + Reg.ctxMigRbase)) 11 53 * 2048 + 8 * id + i) = some b)

/-- An ended request is in the engine no longer. -/
theorem State.migFinish_gone (s : State) (m : MigReq) (st : Status) (moved : Bool) : ∀ q ∈ (s.migFinish m st moved).mig, ¬(q.ctx = m.ctx ∧ q.id = m.id) := by
  obtain ⟨u, ⟨-, -, hmig, -⟩, hfinish⟩ := s.migFinish_unlists m st moved
  rw [hfinish]
  intro q hq
  split at hq
  · rw [(u.migPost_frame _).mig_eq] at hq
    exact hmig q hq
  · rw [((State.frame.refl [.pwr, .link, .migWait] u).update (t := { u with migWait := _ })).wakeDom.mig_eq] at hq
    exact hmig q hq

theorem State.migFinish_ended (s : State) (m : MigReq) (st : Status) : s.ended (s.migFinish m st false) m.ctx m.id m st := by
  refine ⟨s.migFinish_gone m st false, fun hup i b hb => ?_⟩
  obtain ⟨u, ⟨-, -, -, hreg, -⟩, hfinish⟩ := s.migFinish_unlists m st false
  rw [hfinish, if_pos hup, ← hreg]
  exact u.migPost_word _ hb

theorem State.migFinish_frame (s : State) (m : MigReq) (st : Status) (moved : Bool) :
    s.frame [.regs, .ctxs, .hostMem, .poison, .bch, .objs, .mig, .migWait, .link, .pwr] (s.migFinish m st moved) := (State.frame.refl _ s).migFinish

theorem State.ended.of_parts {c : CtxId} {id : Nat} {m : MigReq} {st : Status} (h : u.ended t c id m st) (hregs : u.regs = s.regs)
    (hup : u.hostUp = s.hostUp) : s.ended t c id m st := by
  obtain ⟨hmig, hword⟩ := h
  refine ⟨hmig, fun hon i b hb => ?_⟩
  rw [← State.reg_congr hregs]
  exact hword (hup.trans hon) i b hb

/-- With the endpoint's domain on, the end of a request changes no domain, no message of a peer that is missed, no byte of a tier, and of
its object only that it is busy. -/
theorem State.migFinish_keeps (hon : s.dom epDom = .on) (m : MigReq) (st : Status) (moved : Bool) :
    (s.migFinish m st moved).pwr = s.pwr ∧ (s.migFinish m st moved).link.missing = s.link.missing ∧
      (∀ i, m.obj = some i → (s.migFinish m st moved).obj i = { s.obj i with busy := false }) ∧
      (m.id < 256 → ∀ k, 2 ^ 64 ≤ k → (s.migFinish m st moved).peek k = s.peek k) := by
  obtain ⟨u, ⟨hframe, hmissing, -, -, hobj⟩, hfinish⟩ := s.migFinish_unlists m st moved
  have hpeek : ∀ k, u.peek k = s.peek k := State.peek_congr hframe.mem_eq hframe.poison_eq hframe.bch_eq
  rw [hfinish]
  split
  · have hpost := u.migPost_frame { m with report := some st, moved := moved }
    refine ⟨hpost.pwr_eq.trans hframe.pwr_eq, ?_, fun i hi => ?_, fun hid k hk => ?_⟩
    · rw [hpost.link_eq, hmissing]
    · rw [← hobj i hi]
      unfold State.obj
      rw [hpost.objs_eq]
    · exact (u.migPost_peek { m with report := some st, moved := moved } hid hk).trans (hpeek k)
  · have hwake : ({ u with migWait := u.migWait ++ [{ m with report := some st, moved := moved }] }).dom epDom = .on := by
      unfold State.dom at hon ⊢
      rw [hframe.pwr_eq]
      exact hon
    rw [State.wakeDom_on _ _ hwake]
    exact ⟨hframe.pwr_eq, hmissing, hobj, fun _ k _ => hpeek k⟩

/-! ### The ends (R261, R264, R267) -/

theorem State.found_mig {c : CtxId} {id : Nat} {p : MigReq → Bool} {m : MigReq}
    (h : s.mig.find? (fun m => decide (m.ctx = c) && decide (m.id = id) && p m) = some m) : m.ctx = c ∧ m.id = id := by
  have := List.find?_some h
  simp only [Bool.and_eq_true, decide_eq_true_eq] at this
  obtain ⟨⟨hc, hid⟩, -⟩ := this
  exact ⟨hc, hid⟩

/-- An operation that is given up ends with its status. -/
theorem State.undone_ended (s : State) (m : MigReq) (st : Status) :
    s.ended ((s.migUndo m).migFinish m st false) m.ctx m.id m st ∧ ((s.migUndo m).migFinish m st false).mem = s.mem := by
  have hundo : s.frame [.objs] (s.migUndo m) := (State.frame.refl _ s).migUndo
  exact ⟨((s.migUndo m).migFinish_ended m st).of_parts hundo.regs_eq (State.hostUp_congr hundo.pcie_eq (congrArg (·.doms) hundo.pwr_eq)),
    ((s.migUndo m).migFinish_frame m st false).mem_eq.trans hundo.mem_eq⟩

theorem Obj.dropRef_last {o : Obj} {t : Nat} {c : CtxId} (ht : t < 2) (h : o.hold t = [c]) : (o.dropRef t c).hold t = [] := by
  unfold Obj.dropRef
  rw [h, List.erase_cons_head]
  dsimp only
  split <;> exact Obj.hold_setHold o ht []

theorem Obj.cp_setCp (o : Obj) {t : Nat} (ht : t < 2) (b : Bool) : (o.setCp t b).cp t = b := by
  obtain rfl | rfl : t = 0 ∨ t = 1 := by omega
  · rfl
  · rfl

theorem Obj.hold_setCp (o : Obj) (t n : Nat) (b : Bool) : (o.setCp t b).hold n = o.hold n := by
  unfold Obj.setCp
  split
  · rfl
  · rfl

theorem kTier_plus (t i n : Nat) : kTier t i n = kTier t i 0 + n := by
  unfold kTier kT0 kT1
  split <;> omega

theorem kTier_aligned (t i : Nat) : kTier t i 0 % 8 = 0 := by
  unfold kTier kT0 kT1
  split <;> omega

theorem kTier_far (t i n : Nat) : 2 ^ 64 ≤ kTier t i n := by
  unfold kTier kT0 kT1
  split <;> omega

/-- The last holder's EVICT of a clean copy: the copy is freed, its bytes are zero, and the request ends (R264). -/
theorem State.evictEnd_frees (hon : s.dom epDom = .on) {m : MigReq} {i : Nat} (hobj : m.obj = some i) (htier : m.tier < 2) (hid : m.id < 256)
    (hlast : (s.obj i).hold m.tier = [m.ctx]) :
    (s.evictEnd m i false).pwr.stall = s.pwr.stall ∧ (s.evictEnd m i false).link.missing = s.link.missing ∧
      s.ended (s.evictEnd m i false) m.ctx m.id m .ok ∧ ((s.evictEnd m i false).obj i).cp m.tier = false ∧
      ((s.evictEnd m i false).obj i).hold m.tier = [] ∧
      ∀ off, off < (s.obj i).size * 4096 → (s.evictEnd m i false).peek (kTier m.tier i off) = (0, false) := by
  have hdrop := Obj.dropRef_last htier hlast
  unfold State.evictEnd
  extract_lets o o1
  have hempty : (o1.hold m.tier).isEmpty = true := by
    rw [hdrop]
    rfl
  rw [if_pos hempty]
  generalize hx : (if m.tier = 0 then s.freed0 i else s) = x
  have hfreed : s.frame [.pwr] x ∧ x.pwr.stall = s.pwr.stall ∧ x.pwr.doms = s.pwr.doms := by
    rw [← hx]
    split
    · refine ⟨(State.frame.refl _ s).freed0, ?_⟩
      unfold State.freed0
      extract_lets
      split <;> exact ⟨rfl, rfl⟩
    · exact ⟨.refl _ s, rfl, rfl⟩
  obtain ⟨hframe, hstall, hdoms⟩ := hfreed
  generalize hv : (x.zeroTier m.tier i o.size).setObj i { o1.setCp m.tier false with dirty := false } = v
  have hzero : x.frame [.mem, .poison, .bch, .objs] v := hv ▸ ((State.frame.refl _ x).zeroTier).setObj
  have hgot : v.obj i = { o1.setCp m.tier false with dirty := false } := hv ▸ State.obj_setObj_self _ _ _
  have hdom : v.dom epDom = .on := by
    unfold State.dom at hon ⊢
    rw [hzero.pwr_eq, hdoms, hon]
  obtain ⟨hpwr, hmissing, hobjs, hpeek⟩ := State.migFinish_keeps hdom m .ok false
  have hbyte : ∀ off, off < o.size * 4096 → v.peek (kTier m.tier i off) = (0, false) := fun off hoff => by
    have halign := kTier_aligned m.tier i
    have hoffs := kTier_plus m.tier i off
    have hend := kTier_plus m.tier i (o.size * 4096)
    rw [← hv]
    exact State.zeroFrom_peek (s := x) _ _ _ halign (by omega) ⟨by omega, by omega⟩
  have hup : v.hostUp = s.hostUp := by
    rw [State.hostUp_congr hzero.pcie_eq (congrArg (·.doms) hzero.pwr_eq), State.hostUp_congr hframe.pcie_eq hdoms]
  refine ⟨?_, ?_, (v.migFinish_ended m .ok).of_parts (hzero.regs_eq.trans hframe.regs_eq) hup, ?_, ?_, fun off hoff => ?_⟩
  · rw [hpwr, hzero.pwr_eq, hstall]
  · rw [hmissing, hzero.link_eq, hframe.link_eq]
  · rw [hobjs i hobj, hgot]
    exact Obj.cp_setCp o1 htier false
  · rw [hobjs i hobj, hgot]
    exact (Obj.hold_setCp o1 m.tier m.tier false).trans hdrop
  · exact (hpeek hid _ (kTier_far m.tier i off)).trans (hbyte off hoff)

theorem evictEnds {c : CtxId} {id : BitVec 8} {m : MigReq} {i : Nat}
    (hrun : s.mig.find? (fun m => decide (m.ctx = c) && decide (m.id = id.toNat) && m.started) = some m) (hreport : m.report = none)
    (hobj : m.obj = some i) (hop : m.op = 1) (htier : m.tier < 2) (hsent : m.sent = false) (hawake : s.awake) (hexact : s.exactCtx = none)
    (hlast : (s.obj i).hold m.tier = [c]) (hclean : (s.obj i).dirty = false) :
    ∃ t, exec (.migrationOpEnd c id) s = .next t ∧ s.ended t c id.toNat m .ok ∧ (t.obj i).cp m.tier = false ∧ (t.obj i).hold m.tier = [] ∧
      ∀ off, off < (s.obj i).size * 4096 → t.peek (kTier m.tier i off) = (0, false) := by
  obtain ⟨hc, hid⟩ := State.found_mig hrun
  have hlt : m.id < 256 := hid ▸ id.isLt
  have hhold : (s.obj i).hold m.tier = [m.ctx] := hc ▸ hlast
  have hat : s.migEndAt m i = s.evictEnd m i false := by
    unfold State.migEndAt
    extract_lets o
    split
    · next hzero => omega
    · have hholds : ¬(!(o.hold m.tier).contains m.ctx) = true := by simp [o, hhold]
      have hquiet : ¬(m.sent || decide ((o.hold m.tier).erase m.ctx = []) && o.dirty) = true := by simp [o, hsent, hclean]
      rw [if_neg hholds, if_neg hquiet]
    · next hone => exact absurd hop hone
  obtain ⟨hstall, hmissing, hended, hcp, hgone, hbytes⟩ := State.evictEnd_frees (State.domOn_dom (s.awake_domOn hawake epDom)) hobj htier hlt hhold
  have htouch : s.touch [93] = s := State.awake_touch s hawake [93]
  obtain ⟨-, -, hs, hm⟩ := hawake
  have hend : s.migEnd c id.toNat = s.awaitPeers [93] c .tmv (migSlot id.toNat) (fun s => s.migEndAt m i) := by
    unfold State.migEnd
    rw [hrun]
    dsimp only
    rw [hreport, hobj]
    dsimp only
    rw [hexact, if_neg (by simp)]
  have hdone : s.migEnd c id.toNat = { s.evictEnd m i false with deposits := if s.deposits.isEmpty then (s.evictEnd m i false).deposits else [] } := by
    rw [hend, State.awaitPeers_ready]
    · rw [htouch, hat]
    · rw [htouch, hat, hstall, hs]
    · rw [htouch, hat, hmissing, hm]
  subst hc
  rw [hid] at hended
  exact ⟨_, congrArg Host.Outcome.next hdone, hended, hcp, hgone, hbytes⟩

/-- Settles O40: requests join in order, a start marks its requests and objects, and an end leaves the engine and posts its word. -/
theorem migrationOperations : Obligations.MigrationOperations := by
  unfold Obligations.MigrationOperations
  refine ⟨⟨fun c v s => ⟨migrationRequests rfl, migrationRequests rfl, migrationRequests rfl⟩, fun m s hawake hquiet hands hbusy hnext => ?_,
    fun s hquiet => ?_⟩, fun c id m s => ⟨fun st hrun hst => ?_, fun hrun => ?_, fun i hrun hreport hobj hop htier hsent hawake hexact hlast hclean => ?_⟩⟩
  · have hbegins := s.migBegin_begins m
    have hexec : exec .migrationOpStart s = .next (s.migBegin m) :=
      congrArg _ (State.migStart_begins hawake hquiet hands hbusy hnext (by rw [hbegins.1]))
    refine ⟨⟨_, hexec, hbegins⟩, fun i o hobj hreport hop hinst hallowed hmoves => ⟨_, hexec, ?_⟩⟩
    exact State.migBegin_promotes (State.migNext_mem hnext) hobj hreport hop hinst hallowed hmoves
  · refine congrArg Host.Outcome.next ?_
    unfold State.migStart
    rw [hquiet]
    rfl
  · obtain ⟨hc, hid⟩ := State.found_mig hrun
    have hend : s.migEnd c id.toNat = (s.migUndo m).migFinish m st false := by
      unfold State.migEnd
      rw [hrun]
      dsimp only
      rw [hst]
    obtain ⟨hended, hmem⟩ := s.undone_ended m st
    rw [hc, hid] at hended
    exact ⟨_, congrArg Host.Outcome.next hend, hended, hmem⟩
  · obtain ⟨hc, hid⟩ := State.found_mig hrun
    have hend : s.migLate c id.toNat = (s.migUndo m).migFinish m .tierLate false := by
      unfold State.migLate
      rw [hrun]
    obtain ⟨hended, hmem⟩ := s.undone_ended m .tierLate
    rw [hc, hid] at hended
    exact ⟨_, congrArg Host.Outcome.next hend, hended, hmem⟩
  · exact evictEnds hrun hreport hobj hop htier hsent hawake hexact hlast hclean

/-! ### What a PROMOTE copies (R263) -/

theorem State.freshen_nil (h : s.bch = []) (w : Nat) : (s.freshen w).bch = [] := by
  unfold State.freshen
  dsimp only
  rw [h]
  rfl

theorem State.markWord_nil (h : s.bch = []) (w : Nat) (part : List SB) : (s.markWord w part).bch = [] := by
  unfold State.markWord
  rw [h]
  dsimp only
  split
  · exact State.freshen_nil h w
  split
  · exact State.freshen_nil h w
  split
  · exact State.freshen_nil h w
  split
  · exact State.freshen_nil h w
  · exact h

theorem State.markWords_nil (h : s.bch = []) (k : Nat) (data : List SB) (fuel : Nat) : (s.markWords k data fuel).bch = [] := by
  induction fuel generalizing s k data with
  | zero => exact h
  | succ fuel ih =>
    unfold State.markWords
    split
    · exact h
    · exact ih (State.markWord_nil h _ _) _ _

theorem State.store_nil (h : s.bch = []) (k : Nat) (data : List SB) : (s.store k data).bch = [] :=
  State.markWords_nil (by rw [State.pokes_eq]; exact h) _ _ _

/-- The words of aligned data are marked as the data is. -/
theorem State.markWords_whole {k : Nat} (hk : k % 8 = 0) {data : List SB} {j fuel : Nat} (hj : 8 * j + 8 ≤ data.length) (hfuel : j < fuel) :
    SMap.get false (s.markWords k data fuel).poison (k / 8 + j) = ((data.drop (8 * j)).take 8).any (·.2) := by
  induction fuel generalizing s k data j with
  | zero => omega
  | succ fuel ih =>
    have hne : ¬data.isEmpty = true := by
      rw [List.isEmpty_iff]
      rintro rfl
      simp at hj
    have hstep : s.markWords k data (fuel + 1) = (s.markWord (k / 8) (data.take 8)).markWords (k + 8) (data.drop 8) fuel := by
      rw [State.markWords, if_neg hne, hk]
    rw [hstep]
    cases j with
    | zero =>
      have hlen : (data.take 8).length = 8 := by
        rw [List.length_take]
        omega
      obtain ⟨hp, -⟩ := State.markWords_other (v := k / 8) fuel (s.markWord (k / 8) (data.take 8)) (k + 8) (data.drop 8) (.inl (by omega))
      rw [show k / 8 + 0 = k / 8 from rfl, hp, Nat.mul_zero, List.drop_zero]
      unfold State.markWord
      extract_lets err
      rw [if_pos hlen]
      split
      · next hany => exact (SMap.get_put_self _ _ _ _).trans hany.symm
      · next hany =>
        exact (SMap.get_put_self _ _ _ _).trans (Bool.eq_false_iff.mpr hany).symm
    | succ j =>
      have := ih (s := s.markWord (k / 8) (data.take 8)) (k := k + 8) (data := data.drop 8) (j := j) (by omega)
        (by rw [List.length_drop]; omega) (by omega)
      rw [List.drop_drop] at this
      rw [show k / 8 + (j + 1) = (k + 8) / 8 + j by omega, this, show 8 * (j + 1) = 8 + 8 * j by omega]

/-- With no bit errors anywhere, a byte is delivered as it stands. -/
theorem State.peek_nil (h : s.bch = []) (k : Nat) : s.peek k = (SMap.get 0 s.mem k, SMap.get false s.poison (k / 8)) := by
  unfold State.peek State.wordErr State.isPoison
  rw [h]
  rfl

/-- A word as it stands in memory: its bytes, all poisoned or none. -/
def State.copyBytes (s : State) (k n : Nat) : List SB := (List.range n).map (fun x => s.peek (k + x))

theorem State.copyBytes_get (s : State) {k n x : Nat} (hx : x < n) : (s.copyBytes k n)[x]? = some (s.peek (k + x)) := by
  unfold State.copyBytes
  rw [List.getElem?_map, List.getElem?_range hx, Option.map_some]

theorem State.copyBytes_length (s : State) (k n : Nat) : (s.copyBytes k n).length = n := by
  unfold State.copyBytes
  rw [List.length_map, List.length_range]

theorem State.copyBytes_word (h : s.bch = []) {k n j : Nat} (hk : k % 8 = 0) (hj : 8 * j + 8 ≤ n) :
    (((s.copyBytes k n).drop (8 * j)).take 8).any (·.2) = SMap.get false s.poison (k / 8 + j) := by
  have hsame : ∀ x ∈ ((s.copyBytes k n).drop (8 * j)).take 8, x.2 = SMap.get false s.poison (k / 8 + j) := fun x hx => by
    obtain ⟨y, hy, hget⟩ := List.mem_iff_getElem.mp hx
    rw [List.length_take, List.length_drop, State.copyBytes_length] at hy
    have hsome : (s.copyBytes k n)[8 * j + y]? = some x := by
      rw [← hget, List.getElem_take, List.getElem_drop]
      exact List.getElem?_eq_getElem _
    rw [s.copyBytes_get (by omega)] at hsome
    rw [← Option.some.inj hsome, State.peek_nil h]
    dsimp only
    congr 1
    omega
  have hne : ((s.copyBytes k n).drop (8 * j)).take 8 ≠ [] := fun hnil => by
    have := congrArg List.length hnil
    rw [List.length_take, List.length_drop, State.copyBytes_length, List.length_nil] at this
    omega
  generalize ((s.copyBytes k n).drop (8 * j)).take 8 = l at hsame hne
  cases l with
  | nil => exact absurd rfl hne
  | cons x l =>
    cases hp : SMap.get false s.poison (k / 8 + j) with
    | true => simp [hsame x (List.mem_cons_self ..), hp]
    | false =>
      rw [List.any_eq_false]
      intro y hy
      simp [hsame y hy, hp]

/-- Copied words read as those they were copied from. -/
theorem State.store_copied (ht : t.bch = []) (hs : s.bch = []) {a k n x : Nat} (ha : a % 8 = 0) (hk : k % 8 = 0) (hn : n % 8 = 0) (hx : x < n) :
    (t.store k (s.copyBytes a n)).peek (k + x) = s.peek (a + x) := by
  have hword : SMap.get false (t.store k (s.copyBytes a n)).poison ((k + x) / 8) = SMap.get false s.poison ((a + x) / 8) := by
    have hlen := s.copyBytes_length a n
    rw [show (k + x) / 8 = k / 8 + x / 8 by omega, show (a + x) / 8 = a / 8 + x / 8 by omega]
    exact (State.markWords_whole hk (by omega) (by omega)).trans (State.copyBytes_word hs ha (by omega))
  have hbyte := State.store_get (s := t) k x _ _ (s.copyBytes_get (k := a) hx)
  rw [State.peek_nil (State.store_nil ht _ _), hbyte, hword, State.peek_nil hs]

/-- One page is read from T1: its bytes as they are delivered, and a count. -/
theorem State.copyPage_near (hon : ∀ d, t.domOn d = true) (hb : t.bch = []) {m : MigReq} {o : Obj} {src : Nat → Option Loc} {i : Nat}
    (hsrc : ∀ x, src x = some (.t1 (kT1 i x))) (q : Nat) (put : State → List SB → State) :
    ∃ n, t.copyPage m o src q put = some (put (t.addFld (Reg.ctxMigStat_poison.at m.ctx) n) (t.copyBytes (kT1 i (4096 * q)) 4096)) := by
  have hbytes : ((List.range 4096).map (4096 * q + ·)).map (fun x => ((src x).map t.peekLoc).getD (0, true)) =
      t.copyBytes (kT1 i (4096 * q)) 4096 := by
    unfold State.copyBytes
    rw [List.map_map]
    refine List.map_congr_left fun x _ => ?_
    have hplus : kT1 i (4096 * q + x) = kT1 i (4096 * q) + x := by
      unfold kT1
      omega
    rw [Function.comp_apply, hsrc, hplus]
    rfl
  have hnote : ∀ page a, t.notePlace m.ctx (src (4096 * q)) page a 4096 = t := fun page a => by
    rw [hsrc]
    unfold State.notePlace
    rw [State.touch_on t _ fun d _ => hon d]
    exact State.noteWords_clean t hb _ _ _ _ _
  unfold State.copyPage
  extract_lets offs bytes s1
  have hnone : ¬offs.any (fun x => (src x).isNone) = true := by
    rw [List.any_eq_true]
    rintro ⟨x, -, hx⟩
    rw [hsrc] at hx
    cases hx
  rw [if_neg hnone]
  have h1 : s1 = t := hnote _ _
  have h2 : bytes = t.copyBytes (kT1 i (4096 * q)) 4096 := hbytes
  rw [h1, h2]
  exact ⟨_, rfl⟩

/-- The state of a PROMOTE of object i from T1 to T0 in which the pages of `qs` have been copied since `s`. -/
def State.promoted (s u : State) (i : Nat) (qs : List Nat) : Prop :=
  u.bch = [] ∧ s.frame [.regs, .mem, .poison, .bch] u ∧ (∀ k, kT1 0 0 ≤ k → u.peek k = s.peek k) ∧
    ∀ off, off < 2 ^ 42 → u.peek (kT0 i off) = if off / 4096 ∈ qs then s.peek (kT1 i off) else s.peek (kT0 i off)

/-- One page stored at its place in T0. -/
theorem State.promoted_page (hs : s.bch = []) (hcount : s.frame [.regs] t) {i q : Nat} (hi : i < 2 ^ 18) (hq : q < 2 ^ 30) :
    s.promoted (t.store (kT0 i (4096 * q)) (s.copyBytes (kT1 i (4096 * q)) 4096)) i [q] := by
  have ht : t.bch = [] := hcount.bch_eq.trans hs
  have hpeek : ∀ k, t.peek k = s.peek k := State.peek_congr hcount.mem_eq hcount.poison_eq hcount.bch_eq
  have hlen := s.copyBytes_length (kT1 i (4096 * q)) 4096
  have hframe : s.frame [.regs, .mem, .poison, .bch] t := hcount.mono (by simp)
  refine ⟨State.store_nil ht _ _, hframe.store, fun k hk => ?_, fun off hoff => ?_⟩
  · rw [← hpeek k]
    refine State.store_peek_other (.inr ?_)
    unfold kT1 at hk
    unfold kT0
    omega
  · by_cases hpage : off / 4096 = q
    · rw [if_pos (by simp [hpage])]
      have hk : kT0 i off = kT0 i (4096 * q) + off % 4096 := by
        unfold kT0
        omega
      have ha : kT1 i off = kT1 i (4096 * q) + off % 4096 := by
        unfold kT1
        omega
      rw [hk, ha]
      refine State.store_copied ht hs ?_ ?_ (by decide) (Nat.mod_lt _ (by decide))
      · unfold kT1
        omega
      · unfold kT0
        omega
    · rw [if_neg (by simpa using hpage), ← hpeek]
      refine State.store_peek_other ?_
      unfold kT0
      omega

theorem State.promoted.cons {i q : Nat} {qs : List Nat} (h : s.promoted t i [q]) (h' : t.promoted u i qs) (hi : i < 2 ^ 18) :
    s.promoted u i (q :: qs) := by
  obtain ⟨-, hframe, htop, hcopy⟩ := h
  obtain ⟨hbch, hframe', htop', hcopy'⟩ := h'
  refine ⟨hbch, hframe.trans hframe', fun k hk => (htop' k hk).trans (htop k hk), fun off hoff => ?_⟩
  have hhigh : kT1 0 0 ≤ kT1 i off := by
    unfold kT1
    omega
  rw [hcopy' off hoff, htop _ hhigh, hcopy off hoff]
  by_cases hmem : off / 4096 ∈ qs
  · rw [if_pos hmem, if_pos (List.mem_cons_of_mem _ hmem)]
  · rw [if_neg hmem]
    simp [hmem]

theorem State.domOn_addFld (s : State) (f : Fld) (n d : Nat) : (s.addFld f n).domOn d = s.domOn d := rfl

/-- Every page of the copy is filled. -/
theorem State.fillCopy_promotes {m : MigReq} {i : Nat} {o : Obj} (hi : i < 2 ^ 18) (htier : m.tier = 0) (hhome : o.home = 1) (hcp : o.cp1 = false)
    (qs : List Nat) (hqs : ∀ q ∈ qs, q < 2 ^ 30) (hon : ∀ d, s.domOn d = true) (hb : s.bch = []) :
    ∃ u, s.fillCopy m i o qs = some u ∧ s.promoted u i qs := by
  induction qs generalizing s with
  | nil => exact ⟨s, rfl, hb, .refl _ s, fun _ _ => rfl, fun off _ => (if_neg (List.not_mem_nil)).symm⟩
  | cons q qs ih =>
    have hq := hqs q (List.mem_cons_self ..)
    have hsrc : ∀ x, s.promoteLoc i o m.tier x = some (.t1 (kT1 i x)) := fun x => by
      unfold State.promoteLoc State.homeLoc
      rw [if_neg (by simp [hcp]), hhome]
    obtain ⟨n, hpage⟩ := State.copyPage_near (t := s) (m := m) (o := o) hon hb hsrc q (fun s b => (s.touch (s.memDoms 4096
      (if m.tier = 0 then .t0 (kT0 i (4096 * q)) else .t1 (kT1 i (4096 * q))))).store (kTier m.tier i (4096 * q)) b)
    rw [State.touch_on (s.addFld (Reg.ctxMigStat_poison.at m.ctx) n) _ fun d _ => (State.domOn_addFld _ _ _ d).trans (hon d)] at hpage
    generalize hv : s.addFld (Reg.ctxMigStat_poison.at m.ctx) n = v at hpage
    have hcount : s.frame [.regs] v := hv ▸ (State.frame.refl _ s).addFld
    have hdone := State.promoted_page hb hcount hi hq
    rw [show kTier m.tier i (4096 * q) = kT0 i (4096 * q) by rw [htier]; rfl] at hpage
    generalize v.store (kT0 i (4096 * q)) (s.copyBytes (kT1 i (4096 * q)) 4096) = w at hpage hdone
    obtain ⟨u, hu, hrest⟩ := ih (s := w) (fun q hq => hqs q (List.mem_cons_of_mem _ hq)) (fun d => by
      obtain ⟨-, hframe, -⟩ := hdone
      have := hon d
      unfold State.domOn State.dom at this ⊢
      rwa [hframe.pwr_eq]) (by obtain ⟨h, -⟩ := hdone; exact h)
    refine ⟨u, ?_, hdone.cons hrest hi⟩
    unfold State.fillCopy
    rw [show kTier m.tier i (4096 * q) = kT0 i (4096 * q) by rw [htier]; rfl, hpage, Option.bind_some, hu]

/-- Settles O41: page by page the copy takes what the home's bytes deliver, and the end of the request leaves every byte of both tiers. -/
theorem promoteCopiesBytes : Obligations.PromoteCopiesBytes := by
  unfold Obligations.PromoteCopiesBytes
  intro c id m i s hawake hexact hbch hrun hreport hobj hop htier hcharged hhome hcp hi hsize
  obtain ⟨hc, hid⟩ := State.found_mig hrun
  have hlt : m.id < 256 := hid ▸ id.isLt
  obtain ⟨u, hu, -, hframe, htop, hcopy⟩ := State.fillCopy_promotes (m := m) hi htier hhome hcp (List.range (s.obj i).size)
    (fun q hq => (List.mem_range.mp hq).trans hsize) (fun d => s.awake_domOn hawake d) hbch
  have hat : s.migEndAt m i = (u.setObj i ((u.obj i).setCp 0 true)).migFinish m .ok true := by
    unfold State.migEndAt
    extract_lets o
    rw [← htier]
    split
    · rw [if_pos hcharged, hu]
    · next hone => omega
    · next hzero _ => exact absurd hop hzero
  have hdom : (u.setObj i ((u.obj i).setCp 0 true)).dom epDom = .on := by
    have := State.domOn_dom (s.awake_domOn hawake epDom)
    unfold State.dom at this ⊢
    rw [← hframe.pwr_eq] at this
    exact this
  obtain ⟨hpwr, hmissing, hobjs, hpeek⟩ := State.migFinish_keeps hdom m .ok true
  have hgone := (u.setObj i ((u.obj i).setCp 0 true)).migFinish_gone m .ok true
  generalize hv : u.setObj i ((u.obj i).setCp 0 true) = v at hat hdom hpwr hmissing hobjs hpeek hgone
  have hset : u.frame [.objs] v := hv ▸ (State.frame.refl _ u).setObj
  have htouch : s.touch [93] = s := State.awake_touch s hawake [93]
  obtain ⟨-, -, hstall, hmiss⟩ := hawake
  have hend : s.migEnd c id.toNat = s.awaitPeers [93] c .tmv (migSlot id.toNat) (fun s => s.migEndAt m i) := by
    unfold State.migEnd
    rw [hrun]
    dsimp only
    rw [hreport, hobj]
    dsimp only
    rw [hexact, if_neg (by simp)]
  have hdone : s.migEnd c id.toNat = { v.migFinish m .ok true with
      deposits := if s.deposits.isEmpty then (v.migFinish m .ok true).deposits else [] } := by
    rw [hend, State.awaitPeers_ready]
    · rw [htouch, hat]
    · rw [htouch, hat, hpwr, hset.pwr_eq, hframe.pwr_eq, hstall]
    · rw [htouch, hat, hmissing, hset.link_eq, hframe.link_eq, hmiss]
  have hobj' : (v.migFinish m .ok true).obj i = { (s.obj i).setCp 0 true with busy := false } := by
    rw [hobjs i hobj, ← hv, State.obj_setObj_self]
    unfold State.obj
    rw [hframe.objs_eq]
  have hread : ∀ k, 2 ^ 64 ≤ k → (v.migFinish m .ok true).peek k = u.peek k := fun k hk =>
    (hpeek hlt k hk).trans (State.peek_congr hset.mem_eq hset.poison_eq hset.bch_eq k)
  rw [hc, hid] at hgone
  refine ⟨_, congrArg Host.Outcome.next hdone, (congrArg Obj.cp0 hobj').trans rfl, (congrArg Obj.busy hobj').trans rfl,
    (congrArg Obj.hold0 hobj').trans rfl, hgone, fun off hoff => ⟨?_, ?_⟩⟩
  · refine (hread _ (kTier_far 0 i off)).trans ((hcopy off (by omega)).trans (if_pos (List.mem_range.mpr (by omega))))
  · have hhigh : kT1 0 0 ≤ kT1 i off := by
      unfold kT1
      omega
    exact (hread _ (kTier_far 1 i off)).trans (htop _ hhigh)

end Sys2Proof.Machine
end

section
/-! PROOFS. Installations: what messages leave, drained slots, and the orders of the host. -/

namespace Sys2Proof.Machine

set_option Elab.async false

open Sys2Proof

variable {s t u : State}


/-! ### What a message leaves of the links and of power -/

/-- Of the link state only ports change, and of power only which domains wake. -/
def State.tells (s t : State) : Prop := s.portsOnly t ∧ t.pwr = { s.pwr with doms := t.pwr.doms }

namespace State.tells

theorem refl (s : State) : s.tells s := ⟨.refl s, rfl⟩

theorem trans (h : s.tells t) (k : t.tells u) : s.tells u := by
  obtain ⟨hl, hp⟩ := h
  obtain ⟨kl, kp⟩ := k
  refine ⟨hl.trans kl, ?_⟩
  rw [kp, hp]

theorem of_frame {k : List StatePart} (h : s.frame k t) (hl : StatePart.link ∉ k := by simp) (hp : StatePart.pwr ∉ k := by simp) : s.tells t := by
  refine ⟨?_, ?_⟩
  · unfold State.portsOnly
    rw [h.link_eq hl]
  · rw [h.pwr_eq hp]

theorem stall (h : s.tells t) : t.pwr.stall = s.pwr.stall := by
  obtain ⟨-, hp⟩ := h
  rw [hp]

theorem missing (h : s.tells t) : t.link.missing = s.link.missing := by
  obtain ⟨hl, -⟩ := h
  unfold State.portsOnly at hl
  rw [hl]

theorem dev (h : s.tells t) : t.link.dev = s.link.dev := by
  obtain ⟨hl, -⟩ := h
  unfold State.portsOnly at hl
  rw [hl]

theorem role (h : s.tells t) : t.link.role = s.link.role := by
  obtain ⟨hl, -⟩ := h
  unfold State.portsOnly at hl
  rw [hl]

theorem either {p : Prop} [Decidable p] (h : s.tells t) (k : s.tells u) : s.tells (if p then t else u) := by
  split
  · exact h
  · exact k

theorem wakePort (s : State) (d : Nat) : s.tells (s.wakePort d) := by
  refine ⟨s.portsOnly_wakePort d, ?_⟩
  unfold State.wakePort
  extract_lets p
  split <;> rfl

theorem wakeDom (s : State) (d : Nat) : s.tells (s.wakeDom d) := by
  have hset : ∀ x, s.tells (s.setDom d x) := fun _ => ⟨rfl, rfl⟩
  unfold State.wakeDom
  split
  · exact hset _
  · exact (hset _).trans (wakePort _ d)
  · split
    · exact hset _
    · exact (hset _).trans (wakePort _ d)
  · exact refl s

theorem pumpCtl (p : PortId) (fuel : Nat) (s : State) : s.tells (s.pumpCtl p fuel) := by
  refine ⟨s.portsOnly_pumpCtl p fuel, ?_⟩
  rw [((State.frame.refl [.link, .out] s).pumpCtl).pwr_eq]

theorem pumpData (p : PortId) : ∀ (fuel : Nat) (s : State), s.tells (s.pumpData p fuel)
  | 0, s => refl s
  | fuel + 1, s => by
    unfold State.pumpData
    extract_lets x
    split
    · exact refl s
    split
    · exact refl s
    · next f _ =>
      extract_lets y
      have hstep : s.tells ((s.setPort p y).emit (.flit p (encodeDataFlit x.txSeq f))) := ⟨rfl, rfl⟩
      exact hstep.trans (pumpData p fuel _)

theorem sendCtl (s : State) (p : PortId) (m : W64) : s.tells (s.sendCtl p m) := by
  unfold State.sendCtl
  extract_lets s1
  have h1 : s.tells s1 := (wakeDom s (108 + p.val)).trans ⟨rfl, rfl⟩
  exact h1.trans (pumpCtl _ _ _)

theorem sendCtlAll (m : W64) : ∀ (ps : List PortId) (s : State), s.tells (s.sendCtlAll m ps)
  | [], s => refl s
  | p :: ps, s => (sendCtl s p m).trans (sendCtlAll m ps _)

theorem sendData (s : State) (p : PortId) (kind : Nat) (header : List Byte) (data : List SB) : s.tells (s.sendData p kind header data) := by
  unfold State.sendData
  extract_lets s1
  have h1 : s.tells s1 := (wakeDom s (108 + p.val)).trans ⟨rfl, rfl⟩
  exact h1.trans (pumpData _ _ _)

theorem sendMgmt (s : State) (p : PortId) (data : List Byte) : s.tells (s.sendMgmt p data) := by
  unfold State.sendMgmt
  extract_lets tag s1
  have h1 : s.tells s1 := ⟨rfl, rfl⟩
  exact h1.trans (sendData _ _ _ _ _)

theorem sendMgmtAll (data : List Byte) : ∀ (ps : List PortId) (s : State), s.tells (s.sendMgmtAll data ps)
  | [], s => refl s
  | p :: ps, s => (sendMgmt s p data).trans (sendMgmtAll data ps _)

theorem sendMsix (s : State) (fn : Fin 16) (v : Nat) : s.tells (s.sendMsix fn v) := by
  obtain ⟨pcie, out, doms, h⟩ := s.sendMsix_parts fn v
  rw [h]
  exact ⟨rfl, rfl⟩

theorem setInst (s : State) (x : Inst) : s.tells (s.setInst x) := by
  unfold State.setInst
  extract_lets s1
  have h1 : s.tells s1 := ⟨rfl, rfl⟩
  exact either (h1.trans (sendMsix _ _ _)) h1

theorem clearShards (s : State) : s.tells s.clearShards := ⟨rfl, rfl⟩

end State.tells

theorem State.inst_setInst (s : State) (x : Inst) : (s.setInst x).inst = x := by
  unfold State.setInst
  extract_lets s1
  split
  · exact ((State.frame.refl [.link, .pcie, .pwr, .out] s1).sendMsix).inst_eq
  · rfl

theorem State.setInst_frame (s : State) (x : Inst) : s.frame [.inst, .link, .pwr, .pcie, .out] (s.setInst x) := (State.frame.refl _ s).setInst

theorem State.sendCtlAll_frame (s : State) (m : W64) (ps : List PortId) : s.frame [.link, .pwr, .out] (s.sendCtlAll m ps) :=
  (State.frame.refl _ s).sendCtlAll

theorem State.model_congr (h : t.models = s.models) (i : Nat) : t.model i = s.model i := by
  unfold State.model
  rw [h]

/-! ### What a read leaves of the links -/

/-- Of the link state only the bytes of peers that are missed change. -/
def State.readsOnly (s t : State) : Prop := t.link = { s.link with missing := t.link.missing }

namespace State.readsOnly

theorem refl (s : State) : s.readsOnly s := rfl

theorem trans (h : s.readsOnly t) (k : t.readsOnly u) : s.readsOnly u := by
  unfold State.readsOnly at *
  rw [k, h]

theorem of_link (h : t.link = s.link) : s.readsOnly t := by
  unfold State.readsOnly
  rw [h]

theorem dev (h : s.readsOnly t) : t.link.dev = s.link.dev := by
  unfold State.readsOnly at h
  rw [h]

theorem counts (s : State) (f : Fld) (n : Nat) : s.readsOnly (s.addFld f n) := rfl

theorem sets (s : State) (f : Fld) (n : Nat) : s.readsOnly (s.setFld f n) := rfl

theorem logEvent (s : State) (src code : Nat) (c : Option CtxId) (loc detail : Nat) : s.readsOnly (s.logEvent src code c loc detail) := by
  obtain ⟨log, next, pcie, pwr, out, h⟩ := s.logEvent_parts src code c loc detail
  rw [h]
  exact refl s

theorem noteWords (store : Nat) (c : Option CtxId) (n : Nat) (s : State) (w loc : Nat) : s.readsOnly (s.noteWords store c w loc n) := by
  induction n generalizing s w loc with
  | zero => exact refl s
  | succ n ih =>
    have hword : s.readsOnly (s.noteWord store c w loc) := by
      obtain ⟨regs, log, next, pcie, pwr, out, h⟩ := s.noteErr_parts store c (SMap.get 0 s.bch w) w loc
      exact of_link (congrArg (·.link) h)
    exact hword.trans (ih _ _ _)

theorem noteDisturb (s : State) (b : Bool) (code p : Nat) : s.readsOnly (s.noteDisturb b code p) := by
  unfold State.noteDisturb
  split
  · exact (sets s _ _).trans (logEvent _ _ _ _ _ _)
  · exact refl s

theorem failedWords (c : Option CtxId) (p : Nat) (is : List Nat) (s : State) : s.readsOnly (s.failedWords c p is) := by
  induction is generalizing s with
  | nil => exact refl s
  | cons i is ih =>
    unfold State.failedWords
    refine trans ?_ (ih _)
    split
    · exact (counts s _ 1).trans (logEvent _ _ _ _ _ _)
    · exact refl s

theorem pageRead (s : State) (c : Option CtxId) (p : Nat) : s.readsOnly (s.pageRead c p) := by
  have hcount : s.readsOnly (s.countRead p) := by
    unfold State.countRead
    extract_lets b n warn isOver s1
    have h1 : s.readsOnly s1 := of_link rfl
    exact (h1.trans (noteDisturb _ _ _ _)).trans (noteDisturb _ _ _ _)
  unfold State.pageRead
  extract_lets s1 s2
  have h2 : s.readsOnly s2 := by
    unfold s2
    split
    · exact hcount.trans (counts _ _ 1)
    · exact hcount
  exact h2.trans (failedWords _ _ _ _)

theorem notePlace (s : State) (c : CtxId) (place : Option Loc) (page : Bool) (a n : Nat) : s.readsOnly (s.notePlace c place page a n) := by
  unfold State.notePlace
  extract_lets s1
  have h1 : s.readsOnly s1 := of_link ((State.frame.refl [.pwr] s).touch).link_eq
  split
  · exact h1.trans (noteWords _ _ _ _ _ _)
  · exact h1.trans (noteWords _ _ _ _ _ _)
  · split
    · exact h1.trans (pageRead _ _ _)
    · exact h1
  · split
    · exact h1
    · exact h1.trans rfl
  · exact h1

theorem noteReadL (v : View) (ps : List (Nat × Nat)) (s : State) (first : Bool) : s.readsOnly (s.noteReadL v first ps) := by
  induction ps generalizing s first with
  | nil => exact refl s
  | cons p ps ih => exact (notePlace s v.ctx _ _ _ _).trans (ih _ _)

theorem read0 (s : State) (a n : Nat) : s.readsOnly (s.read0 a n).2 := noteReadL _ _ s true

end State.readsOnly

/-! ### Slots of a model, and those that drain (R319, R320) -/

theorem Model.st_congr (m : Model) {k j : Nat} (h : k = 0 ↔ j = 0) : m.st k = m.st j := by
  unfold Model.st
  simp only [h]

theorem Model.st_setSt_self (m : Model) (k : Nat) (x : SlotState) : (m.setSt k x).st k = x := by
  unfold Model.setSt Model.st
  split <;> rfl

theorem Model.st_setSt_other (m : Model) {k j : Nat} (h : ¬(k = 0 ↔ j = 0)) (x : SlotState) : (m.setSt k x).st j = m.st j := by
  unfold Model.setSt Model.st
  by_cases hk : k = 0
  · have hj : ¬j = 0 := fun hj => h (by simp [hk, hj])
    rw [if_neg hj, if_neg hj, if_pos hk]
  · have hj : j = 0 := by
      by_contra hj
      exact h (by simp [hk, hj])
    rw [if_pos hj, if_pos hj, if_neg hk]

theorem Model.setSt_keeps (m : Model) (k : Nat) (x : SlotState) : (m.setSt k x).valid = m.valid ∧ (m.setSt k x).boundary = m.boundary := by
  unfold Model.setSt
  split <;> exact ⟨rfl, rfl⟩

theorem State.makeStale_after (s : State) (i k : Nat) :
    (s.setModel i ((s.model i).setSt k .stale)).frame [.tsets, .orphans, .blks] (s.makeStale i k) := by
  unfold State.makeStale
  extract_lets m dead s1
  have h1 : (s.setModel i (m.setSt k .stale)).frame [.tsets, .orphans, .blks] s1 := ((State.frame.refl [.tsets, .orphans, .blks] _).setTsets)
  generalize s1 = v at h1
  have h2 : (s.setModel i (m.setSt k .stale)).frame [.tsets, .orphans, .blks] { v with orphans := v.orphans.filter (fun o => !decide (o.model = i ∧ o.slot = k)) } :=
    h1.update
  exact h2.pagesDead

theorem State.makeStale_model (s : State) (i k : Nat) : (s.makeStale i k).model i = (s.model i).setSt k .stale := by
  rw [State.model_congr (s.makeStale_after i k).models_eq]
  exact State.model_setModel_self _ _ _

theorem State.makeStale_other (s : State) {i j : Nat} (k : Nat) (h : j ≠ i) : (s.makeStale i k).model j = s.model j := by
  rw [State.model_congr (s.makeStale_after i k).models_eq]
  exact State.model_setModel_other _ _ h

/-- Whether a slot of a model drains where nothing is bound to it but `n` requests. -/
def Model.drains (m : Model) (k n : Nat) : Prop := m.valid ∧ m.st k = .retiring ∧ m.boundary = none ∧ n = 0

/-- What draining leaves of a model: slots go from RETIRING to STALE, and nothing else changes. -/
def Model.drained (m m' : Model) : Prop := m'.valid = m.valid ∧ m'.boundary = m.boundary ∧
  ∀ k, m'.st k = m.st k ∨ (m.st k = .retiring ∧ m'.st k = .stale)

theorem Model.drained.refl (m : Model) : m.drained m := ⟨rfl, rfl, fun _ => .inl rfl⟩

theorem Model.drained.trans {m m' m'' : Model} (h : m.drained m') (k : m'.drained m'') : m.drained m'' := by
  obtain ⟨hv, hb, hs⟩ := h
  obtain ⟨kv, kb, ks⟩ := k
  refine ⟨kv.trans hv, kb.trans hb, fun j => ?_⟩
  rcases hs j with h | ⟨h, h'⟩
  · rw [← h]
    exact ks j
  · rcases ks j with k | ⟨k, -⟩
    · exact .inr ⟨h, k.trans h'⟩
    · rw [h'] at k
      cases k

theorem Model.drained.keeps {m m' : Model} (h : m.drained m') {k : Nat} (hk : m.st k ≠ .retiring) : m'.st k = m.st k := by
  obtain ⟨-, -, hs⟩ := h
  rcases hs k with h | ⟨h, -⟩
  · exact h
  · exact absurd h hk

theorem Model.drained_setSt {m : Model} {k : Nat} (h : m.st k = .retiring) : m.drained (m.setSt k .stale) := by
  obtain ⟨hv, hb⟩ := m.setSt_keeps k .stale
  refine ⟨hv, hb, fun j => ?_⟩
  by_cases hj : k = 0 ↔ j = 0
  · exact .inr ⟨(m.st_congr hj).symm.trans h, (Model.st_congr _ hj).symm.trans (m.st_setSt_self k .stale)⟩
  · exact .inl (m.st_setSt_other hj _)

theorem State.drainSlot_drains (s : State) (j k i : Nat) : (s.model i).drained ((s.drainSlot j k).model i) := by
  unfold State.drainSlot
  extract_lets m
  split
  · next h =>
    obtain ⟨-, hst, -⟩ := h
    by_cases hi : i = j
    · rw [hi, State.makeStale_model]
      exact Model.drained_setSt hst
    · rw [State.makeStale_other _ _ hi]
      exact .refl _
  · exact .refl _

theorem State.drainSlot_ctxs (s : State) (j k : Nat) : (s.drainSlot j k).ctxs = s.ctxs := by
  unfold State.drainSlot
  extract_lets m
  split
  · exact ((State.frame.refl [.orphans, .models, .blks, .tsets] s).makeStale).ctxs_eq
  · rfl

theorem State.boundCount_congr (h : t.ctxs = s.ctxs) (i k : Nat) : t.boundCount i k = s.boundCount i k := by
  unfold State.boundCount
  simp only [State.ctx_congr h]

theorem State.drainModels_drains (i : Nat) : ∀ (l : List Nat) (s : State), (s.model i).drained ((s.drainModels l).model i)
  | [], _ => .refl _
  | j :: l, s => ((s.drainSlot_drains j 0 i).trans (State.drainSlot_drains _ j 1 i)).trans (State.drainModels_drains i l _)

/-- A slot that is STALE, or about to be. -/
def State.goes (s : State) (i k : Nat) : Prop := (s.model i).st k = .stale ∨ (s.model i).drains k (s.boundCount i k)

theorem State.goes_drainSlot {i k : Nat} (h : s.goes i k) (j n : Nat) : (s.drainSlot j n).goes i k := by
  have hdrain := s.drainSlot_drains j n i
  rcases h with h | ⟨hvalid, hst, hbound, hcount⟩
  · exact .inl ((hdrain.keeps (by rw [h]; decide)).trans h)
  · obtain ⟨kvalid, kbound, ks⟩ := hdrain
    rcases ks k with hk | ⟨-, hk⟩
    · exact .inr ⟨kvalid ▸ hvalid, hk.trans hst, kbound.trans hbound, (State.boundCount_congr (s.drainSlot_ctxs j n) i k).trans hcount⟩
    · exact .inl hk

theorem State.goes_gone {i k : Nat} (h : s.goes i k) : ((s.drainSlot i k).model i).st k = .stale := by
  rcases h with h | h
  · exact ((s.drainSlot_drains i k i).keeps (by rw [h]; decide)).trans h
  · have hgo : s.drainSlot i k = s.makeStale i k := if_pos h
    rw [hgo, State.makeStale_model, Model.st_setSt_self]

theorem State.drainModels_stale {i k : Nat} (hk : k < 2) {l : List Nat} (hi : i ∈ l) (h : s.goes i k) : ((s.drainModels l).model i).st k = .stale := by
  induction l generalizing s with
  | nil => cases hi
  | cons j l ih =>
    unfold State.drainModels
    have hstays : ∀ u : State, (u.model i).st k = .stale → ((u.drainModels l).model i).st k = .stale := fun u hu =>
      ((u.drainModels_drains i l).keeps (by rw [hu]; decide)).trans hu
    rcases List.mem_cons.mp hi with rfl | hmem
    · obtain rfl | rfl : k = 0 ∨ k = 1 := by omega
      · have hfirst := State.goes_gone h
        exact hstays _ (((State.drainSlot_drains _ i 1 i).keeps (by rw [hfirst]; decide)).trans hfirst)
      · exact hstays _ (State.goes_gone (State.goes_drainSlot h i 0))
    · exact ih hmem (State.goes_drainSlot (State.goes_drainSlot h j 0) j 1)

/-- A slot that is RETIRING and that a boundary or a request holds. -/
def State.lasts (s : State) (i k : Nat) : Prop := (s.model i).st k = .retiring ∧ ¬((s.model i).boundary = none ∧ s.boundCount i k = 0)

theorem State.lasts_drainSlot {i k : Nat} (hk : k < 2) (h : s.lasts i k) (j : Nat) {n : Nat} (hn : n < 2) : (s.drainSlot j n).lasts i k := by
  obtain ⟨hst, hheld⟩ := h
  obtain ⟨-, hbound, -⟩ := s.drainSlot_drains j n i
  refine ⟨?_, by rw [hbound, State.boundCount_congr (s.drainSlot_ctxs j n)]; exact hheld⟩
  unfold State.drainSlot
  extract_lets m
  split
  · next hdrain =>
    obtain ⟨-, -, hnone, hcount⟩ := hdrain
    by_cases hij : i = j
    · subst hij
      rw [State.makeStale_model, Model.st_setSt_other]
      · exact hst
      · intro hsame
        obtain rfl : n = k := by omega
        exact hheld ⟨hnone, hcount⟩
    · rw [State.makeStale_other _ _ hij]
      exact hst
  · exact hst

theorem State.drainModels_lasts {i k : Nat} (hk : k < 2) {l : List Nat} (h : s.lasts i k) : (s.drainModels l).lasts i k := by
  induction l generalizing s with
  | nil => exact h
  | cons j l ih => exact ih (State.lasts_drainSlot hk (State.lasts_drainSlot hk h j (by decide)) j (by decide))

theorem State.drainSlots_frame (s : State) : s.frame [.orphans, .models, .blks, .tsets] s.drainSlots := (State.frame.refl _ s).drainSlots

theorem State.drainSlots_drains (s : State) (i : Nat) : (s.model i).drained (s.drainSlots.model i) := s.drainModels_drains i _

/-! ### Orders (R314, R318 to R320, R325) -/

/-- What becomes of an order that has been carried out: what it read is spent, its quiesce ends, and no order waits. -/
def State.settled (u : State) (edits : Bool) (d : SMap SB) (lost : List (CtxId × Engine × Nat)) : State :=
  let r : State := { u with deposits := d, pcie := { u.pcie with lostReads := lost } }
  let q := if edits then r.endQuiet else r
  { q with inst := { q.inst with orders := [] } }

theorem State.settled_parts (u : State) (edits : Bool) (d : SMap SB) (lost : List (CtxId × Engine × Nat)) :
    u.settled edits d lost = { u with deposits := d, pcie := { u.pcie with lostReads := lost }, bankMgc := (u.settled edits d lost).bankMgc
                                      inst := { u.inst with orders := [], quiet := (u.settled edits d lost).inst.quiet } } ∧
      (edits = true → (u.settled edits d lost).inst.quiet = false) := by
  unfold State.settled State.endQuiet
  cases edits with
  | false => exact ⟨rfl, fun h => by cases h⟩
  | true =>
    cases hq : u.inst.quiet with
    | true => simp [hq]
    | false => simp [hq]

theorem State.settled_mem (u : State) (e : Bool) (d : SMap SB) (l : List (CtxId × Engine × Nat)) : (u.settled e d l).mem = u.mem := by
  obtain ⟨h, -⟩ := u.settled_parts e d l
  rw [h]

theorem State.settled_objs (u : State) (e : Bool) (d : SMap SB) (l : List (CtxId × Engine × Nat)) : (u.settled e d l).objs = u.objs := by
  obtain ⟨h, -⟩ := u.settled_parts e d l
  rw [h]

theorem State.settled_ctxs (u : State) (e : Bool) (d : SMap SB) (l : List (CtxId × Engine × Nat)) : (u.settled e d l).ctxs = u.ctxs := by
  obtain ⟨h, -⟩ := u.settled_parts e d l
  rw [h]

theorem State.settled_models (u : State) (e : Bool) (d : SMap SB) (l : List (CtxId × Engine × Nat)) : (u.settled e d l).models = u.models := by
  obtain ⟨h, -⟩ := u.settled_parts e d l
  rw [h]

theorem State.settled_inst (u : State) (e : Bool) (d : SMap SB) (l : List (CtxId × Engine × Nat)) :
    (u.settled e d l).inst = { u.inst with orders := [], quiet := (u.settled e d l).inst.quiet } := by
  obtain ⟨h, -⟩ := u.settled_parts e d l
  exact congrArg (·.inst) h

theorem State.tryOrder_waits {op : Nat} {v : W64} (hedits : s.orderEdits op = true) (hbusy : s.migBusy ≠ 0) : s.tryOrder op v = (s.askQuiet, false) :=
  if_pos (by
    rw [hedits, decide_eq_true hbusy]
    rfl)

/-- An order that does not stall is carried out. -/
theorem State.instCmd_done {op : Nat} {v : W64} (hmoon : s.isMoon = false) (hnone : s.inst.orders = []) (hedits : s.orderEdits op = true → s.migBusy = 0)
    (hs : s.pwr.stall = []) (hstall : (s.order op v).pwr.stall = []) (hmissing : (s.order op v).link.missing = []) :
    ∃ d lost, s.instCmd op v = (s.order op v).settled (s.orderEdits op) d lost := by
  have htry := State.tryPeers_done (s := s) (c := 0) (e := .tmv) (slot := instSlot) (f := fun s => (s.order op v).dropLost 0 .tmv instSlot) hstall hs hmissing
  refine ⟨if s.deposits.isEmpty then (s.order op v).deposits else [], (s.order op v).pcie.lostReads.filter (fun k => decide (k ≠ (0, .tmv, instSlot))), ?_⟩
  unfold State.instCmd
  rw [hmoon, if_neg Bool.false_ne_true, hnone, List.nil_append]
  unfold State.runOrders State.tryOrder
  have hgo : ¬(s.orderEdits op && decide (s.migBusy ≠ 0)) = true := by
    intro h
    simp only [Bool.and_eq_true, decide_eq_true_eq] at h
    exact h.2 (hedits h.1)
  rw [if_neg hgo, htry]
  unfold State.settled
  cases s.orderEdits op with
  | true => rfl
  | false => rfl

theorem State.instCmd_waits {op : Nat} {v : W64} (hmoon : s.isMoon = false) (hnone : s.inst.orders = []) (hedits : s.orderEdits op = true)
    (hbusy : s.migBusy ≠ 0) : s.instCmd op v = { s.askQuiet with inst := { s.askQuiet.inst with orders := [(op, v)] } } := by
  unfold State.instCmd
  rw [hmoon, if_neg Bool.false_ne_true, hnone, List.nil_append]
  unfold State.runOrders
  dsimp only
  rw [State.tryOrder_waits hedits hbusy]
  rfl

theorem State.order_frame (s : State) (op : Nat) (v : W64) :
    s.frame [.regs, .orphans, .bankMgc, .models, .blks, .fpc, .inst, .tsets, .link, .pwr, .pcie, .sec, .log, .logNext, .out] (s.order op v) :=
  (State.frame.refl _ s).order

/-- A refused order. -/
theorem State.order_refused {op code : Nat} {v : W64} (hmoon : s.isMoon = false) (hnone : s.inst.orders = []) (hedits : s.orderEdits op = true → s.migBusy = 0)
    (hs : s.pwr.stall = []) (hm : s.link.missing = []) (h : s.order op v = s.instRefuse code) :
    ∃ t, s.instCmd op v = t ∧ t = { s with inst := { s.inst with refused := code, quiet := t.inst.quiet }, bankMgc := t.bankMgc, deposits := t.deposits
                                           pcie := { s.pcie with lostReads := t.pcie.lostReads } } := by
  obtain ⟨d, lost, hcmd⟩ := State.instCmd_done hmoon hnone hedits hs (by rw [h]; exact hs) (by rw [h]; exact hm)
  obtain ⟨hparts, -⟩ := (s.order op v).settled_parts (s.orderEdits op) d lost
  refine ⟨_, hcmd, ?_⟩
  generalize (s.order op v).settled (s.orderEdits op) d lost = t at hparts
  rw [h] at hparts
  rw [hparts]
  simp [State.instRefuse, hnone]

theorem State.read0_frame (s : State) (a n : Nat) : s.frame [.regs, .blks, .link, .pwr, .pcie, .log, .logNext, .out] (s.read0 a n).2 :=
  (State.frame.refl _ s).read0

end Sys2Proof.Machine
end

section
/-! PROOFS. The orders of an installation. -/

namespace Sys2Proof.Machine

set_option Elab.async false

open Sys2Proof

variable {s t u : State}


/-! ### START (R314) -/

/-- What a START reads of the manifest: its header, and then its descriptors. -/
def State.manifestHdr (s : State) : Option (List Byte) × State := s.read0 (s.fld Reg.fpcInstAddr_addr) 64

def State.manifestBody (s : State) : Option (List Byte) × State :=
  s.manifestHdr.2.read0 (s.fld Reg.fpcInstAddr_addr + 64) (64 * (Manifest.ofBytes (s.manifestHdr.1.getD [])).n)

def State.startRefused (s : State) (v : W64) : Prop := (1 ≤ s.inst.state ∧ s.inst.state ≤ 4) ∨ s.slotOpen (wBits v 3 6) (wBits v 9 1) = false

theorem State.instStart_refuses {v : W64} (h : s.startRefused v) : s.instStart v = s.instRefuse 1 :=
  if_pos (h.imp id fun hopen => by rw [hopen]; rfl)

/-- A START that may be carried out: the manifest is read, and a build begins where it breaks no rule. -/
theorem State.instStart_eq {v : W64} (hgo : ¬s.startRefused v) :
    s.instStart v = match (if s.manifestHdr.1.isSome then s.manifestBody.1.bind (fun body =>
        manifestDescs (s.manifestHdr.1.getD []) body (wBits v 3 6) (s.model (wBits v 3 6)).wsize) else none) with
      | some ds => (if s.manifestHdr.1.isSome then s.manifestBody.2 else (s.manifestHdr.2.read0 (s.fld Reg.fpcInstAddr_addr + 64) 0).2).instBegin v
          (s.manifestHdr.1.getD []) true (ds.headD ⟨0, 0, 0, 0, 0, 0, 0⟩).devices ds
      | none => ((if s.manifestHdr.1.isSome then s.manifestBody.2 else (s.manifestHdr.2.read0 (s.fld Reg.fpcInstAddr_addr + 64) 0).2).instBegin v
          (s.manifestHdr.1.getD []) true [] []).instStop .illegalCommand s.link.dev 0 0 := by
  have hopen : ¬((1 ≤ s.inst.state ∧ s.inst.state ≤ 4) ∨ (!(s.slotOpen (wBits v 3 6) (wBits v 9 1))) = true) := by
    simpa [State.startRefused] using hgo
  unfold State.manifestBody State.manifestHdr State.instStart
  extract_lets md k a h hdr n b
  rw [if_neg hopen]
  cases hsome : h.1.isSome with
  | true =>
    have hb : b = h.2.read0 (a + 64) (64 * n) := by
      unfold b
      rw [hsome]
      rfl
    rw [hb]
    rfl
  | false =>
    have hb : b = h.2.read0 (a + 64) 0 := by
      unfold b
      rw [hsome]
      rfl
    rw [hb]
    rfl

theorem State.instStart_begins {v : W64} {hdr bs : List Byte} {ds : List ShardDesc} (hgo : ¬s.startRefused v) (hh : s.manifestHdr.1 = some hdr)
    (hb : s.manifestBody.1 = some bs) (hds : manifestDescs hdr bs (wBits v 3 6) (s.model (wBits v 3 6)).wsize = some ds) :
    s.instStart v = s.manifestBody.2.instBegin v hdr true (ds.headD ⟨0, 0, 0, 0, 0, 0, 0⟩).devices ds := by
  rw [State.instStart_eq hgo, hh, hb]
  simp only [Option.isSome_some, if_true, Option.bind_some, Option.getD_some, hds]

theorem State.instStart_fails {v : W64} (hgo : ¬s.startRefused v) (hbad : s.manifestHdr.1 = none ∨ s.manifestBody.1 = none ∨
      (∃ hdr bs, s.manifestHdr.1 = some hdr ∧ s.manifestBody.1 = some bs ∧ manifestDescs hdr bs (wBits v 3 6) (s.model (wBits v 3 6)).wsize = none)) :
    ∃ u hdr, s.frame [.regs, .blks, .link, .pwr, .pcie, .log, .logNext, .out] u ∧
      s.instStart v = (u.instBegin v hdr true [] []).instStop .illegalCommand s.link.dev 0 0 := by
  rw [State.instStart_eq hgo]
  have hnone : (if s.manifestHdr.1.isSome then s.manifestBody.1.bind (fun body =>
        manifestDescs (s.manifestHdr.1.getD []) body (wBits v 3 6) (s.model (wBits v 3 6)).wsize) else none) = none := by
    rcases hbad with h | h | ⟨hdr, bs, hh, hb, hds⟩
    · simp [h]
    · simp [h]
    · simp [hh, hb, hds]
  rw [hnone]
  refine ⟨_, _, ?_, rfl⟩
  split
  · exact (s.read0_frame _ _).trans (State.read0_frame _ _ _)
  · exact (s.read0_frame _ _).trans (State.read0_frame _ _ _)

theorem Model.st_setVer (m : Model) (k n j : Nat) : (m.setVer k n).st j = m.st j := by
  unfold Model.setVer
  split <;> rfl

/-- What the beginning of a build leaves. -/
theorem State.instBegin_parts (s : State) (cmd : W64) (hdr : List Byte) (leader : Bool) (devices : List Nat) (descs : List ShardDesc) :
    let i := (s.instBegin cmd hdr leader devices descs).inst
    (i.state = 1 ∧ i.model = wBits cmd 3 6 ∧ i.slot = wBits cmd 9 1 ∧ i.leader = leader ∧ i.descs = descs ∧ i.next = 0 ∧ i.devices = devices) ∧
      (devices.contains s.link.dev = true → ((s.instBegin cmd hdr leader devices descs).model (wBits cmd 3 6)).st (wBits cmd 9 1) = .building) ∧
      (devices.contains s.link.dev = false → (s.instBegin cmd hdr leader devices descs).models = s.models) := by
  unfold State.instBegin
  extract_lets i k md m s1 i'
  have hmodels : ∀ x, (s1.clearShards.setInst x).models = s1.models := fun x =>
    (State.setInst_frame s1.clearShards x).models_eq
  refine ⟨?_, fun hown => ?_, fun hother => ?_⟩
  · unfold i'
    rw [State.inst_setInst]
    exact ⟨rfl, rfl, rfl, rfl, rfl, rfl, rfl⟩
  · rw [State.model_congr (hmodels _)]
    unfold s1
    rw [if_pos hown, State.model_setModel_self, Model.st_setVer, Model.st_setSt_self]
  · rw [hmodels]
    unfold s1
    rw [if_neg (by rw [hother]; exact Bool.false_ne_true)]

/-- What the end of an installation with a status leaves. -/
theorem State.instStop_inst (s : State) (st : Status) (dev detail shard : Nat) :
    (s.instStop st dev detail shard).inst.state = 6 ∧ (s.instStop st dev detail shard).inst.resStatus = st ∧
      (s.instStop st dev detail shard).inst.resDev = dev ∧ (s.instStop st dev detail shard).inst.resDetail = detail := by
  unfold State.instStop
  extract_lets i m s1
  rw [State.inst_setInst]
  exact ⟨rfl, rfl, rfl, rfl⟩

theorem State.instStop_models {st : Status} {dev detail shard : Nat} (h : s.inst.devices.contains s.link.dev = false) :
    (s.instStop st dev detail shard).models = s.models := by
  unfold State.instStop
  extract_lets i m s1
  have h1 : s1 = s := if_neg (fun ⟨_, _, hown⟩ => by
    rw [h] at hown
    cases hown)
  have hend : s.frame [.bankMgc, .inst, .link, .fpc, .pwr, .pcie, .out] (s1.endQuiet.clearShards.releaseHeld i.held) := by
    rw [h1]
    exact ((State.frame.refl _ s).endQuiet.clearShards).releaseHeld
  exact (State.setInst_frame _ _).models_eq.trans hend.models_eq

/-! ### SWITCH (R318) -/

theorem State.tells.sendSwitch (s : State) (b : Option Boundary) (ps : List PortId) : s.tells (s.sendSwitch b ps) := by
  unfold State.sendSwitch
  extract_lets recs s1
  have hall : ∀ (ms : List W64) (t : State), s.tells t → s.tells (ms.foldl (fun (s : State) m => s.sendCtlAll m ps) t) := fun ms => by
    induction ms with
    | nil => exact fun _ h => h
    | cons m ms ih => exact fun t h => ih _ (h.trans (.sendCtlAll m ps t))
  exact (hall recs s (.refl s)).trans (.sendCtlAll _ _ _)

theorem State.sendSwitch_frame (s : State) (b : Option Boundary) (ps : List PortId) : s.frame [.link, .pwr, .out] (s.sendSwitch b ps) :=
  (State.frame.refl _ s).sendSwitch

theorem State.switchHere_frame (s : State) (b : Option Boundary) : s.frame [.orphans, .models, .blks, .tsets, .sec] (s.switchHere b) :=
  (State.frame.refl _ s).switchHere

/-- On a switch the target slot is ACTIVE and the boundary is the switch's (R318). -/
theorem State.switchHere_model (s : State) (b : Option Boundary) :
    ((s.switchHere b).model s.inst.model).st s.inst.slot = .active ∧ ((s.switchHere b).model s.inst.model).boundary = b := by
  unfold State.switchHere
  extract_lets i k m wasActive m1 m2 u s1 s2 record
  have hst : m2.st k = .active := by
    unfold m2
    split
    · exact (m1.st_setSt_other (by omega) .retiring).trans (m.st_setSt_self k .active)
    · exact m.st_setSt_self k .active
  have h1 : s1.model i.model = { m2 with boundary := b, unrec := some u } := State.model_setModel_self _ _ _
  have h2 : s2.model i.model = { m2 with boundary := b, unrec := some u } := by
    unfold s2
    split
    · exact (State.model_congr ((State.frame.refl [.tsets] s1).setTsets).models_eq _).trans h1
    · exact h1
  have hx : (s2.extend 8 (sha384 record)).model i.model = { m2 with boundary := b, unrec := some u } := h2
  have hdrain := (s2.extend 8 (sha384 record)).drainSlots_drains i.model
  rw [hx] at hdrain
  refine ⟨(hdrain.keeps ?_).trans hst, ?_⟩
  · exact fun h => absurd (hst.symm.trans h) (by decide)
  · obtain ⟨-, hb, -⟩ := hdrain
    exact hb

/-- The last acknowledgement of a switch with no boundary makes the installation SWITCHED. -/
theorem State.armed_switches (hst : s.inst.state = 3) (hall : s.inst.devices.all (fun d => s.inst.acked.contains d) = true)
    (hnum : s.inst.numbered = false) : s.armed.inst.state = 5 ∧ s.tells s.armed ∧ s.armed.models = s.models := by
  unfold State.armed
  rw [if_pos ⟨hst, hall⟩]
  extract_lets i s1 i1
  have hinst : s1.inst = { s.inst with state := 4 } := State.inst_setInst _ _
  have hgo : (!s1.inst.numbered) = true := by
    rw [hinst, hnum]
    rfl
  rw [if_pos hgo, State.inst_setInst]
  exact ⟨rfl, (State.tells.setInst s _).trans (.setInst s1 _), (State.setInst_frame s1 _).models_eq.trans (State.setInst_frame s _).models_eq⟩

/-- An IMMEDIATE switch of an installation on this device alone (R318, R319). -/
theorem State.leaderSwitch_alone (hst : s.inst.state = 3) (hdev : s.inst.devices = [s.link.dev]) :
    (s.leaderSwitch none).inst.state = 5 ∧ s.tells (s.leaderSwitch none) ∧ ((s.leaderSwitch none).model s.inst.model).st s.inst.slot = .active ∧
      ((s.leaderSwitch none).model s.inst.model).boundary = none := by
  unfold State.leaderSwitch
  extract_lets s1 own s2
  have h1 : s.tells s1 := .sendSwitch s _ _
  have hinst1 : s1.inst = s.inst := (s.sendSwitch_frame _ _).inst_eq
  have hown : own = true := by
    unfold own
    rw [hinst1, hdev, h1.dev]
    simp
  have h2 : s2 = s1.switchHere none := if_pos hown
  rw [hown, if_pos rfl]
  have hframe := s1.switchHere_frame none
  rw [← h2] at hframe
  have h12 : s1.tells s2 := .of_frame hframe
  have hinst2 : s2.inst = s.inst := hframe.inst_eq.trans hinst1
  have hmodel := s1.switchHere_model none
  rw [← h2, hinst1] at hmodel
  obtain ⟨hactive, hbound⟩ := hmodel
  have h3 := State.setInst_frame s2 { s2.inst with numbered := (none : Option Boundary).isSome, acked := [s2.link.dev] }
  have hinst3 := State.inst_setInst s2 { s2.inst with numbered := (none : Option Boundary).isSome, acked := [s2.link.dev] }
  have htell3 := State.tells.setInst s2 { s2.inst with numbered := (none : Option Boundary).isSome, acked := [s2.link.dev] }
  generalize s2.setInst { s2.inst with numbered := (none : Option Boundary).isSome, acked := [s2.link.dev] } = s3 at h3 hinst3 htell3
  obtain ⟨hfive, htell, hmodels⟩ := State.armed_switches (s := s3) (by rw [hinst3]; exact (congrArg Inst.state hinst2).trans hst)
    (by
      rw [hinst3]
      show s2.inst.devices.all _ = true
      rw [hinst2, hdev, (h1.trans h12).dev]
      simp) (by rw [hinst3]; rfl)
  have hfinal : ∀ i, s3.armed.model i = s2.model i := fun i => (State.model_congr hmodels i).trans (State.model_congr h3.models_eq i)
  exact ⟨hfive, ((h1.trans h12).trans htell3).trans htell, by rw [hfinal]; exact hactive, by rw [hfinal]; exact hbound⟩

/-! ### CLOSE and RETIRE (R319, R320) -/

/-- CLOSE removes the boundary of a model that has one. -/
theorem State.instClose_closes {v : W64} (h : (s.model (wBits v 3 6)).boundary ≠ none) :
    s.tells (s.instClose v) ∧ ((s.instClose v).model (wBits v 3 6)).boundary = none := by
  unfold State.instClose
  extract_lets md s1
  have hgo : ¬((s.model md).boundary.isNone = true ∧ ¬(s.inst.state = 4 ∧ s.inst.model = md)) := fun ⟨hnone, _⟩ =>
    h (Option.isNone_iff_eq_none.mp hnone)
  rw [if_neg hgo]
  have hclose : s.tells (s.closeHere md) := .of_frame ((State.frame.refl [.orphans, .models, .blks, .tsets] s).closeHere)
  have hbound : ((s.closeHere md).model md).boundary = none := by
    unfold State.closeHere
    obtain ⟨-, hb, -⟩ := (s.setModel md { s.model md with boundary := none }).drainSlots_drains md
    rw [hb, State.model_setModel_self]
  have h1 : s.tells s1 := hclose.trans (.sendCtlAll _ _ _)
  have hmodel : s1.model md = (s.closeHere md).model md := State.model_congr (State.sendCtlAll_frame _ _ _).models_eq _
  split
  · exact ⟨h1.trans (.setInst _ _), by rw [State.model_congr (State.setInst_frame s1 _).models_eq, hmodel]; exact hbound⟩
  · exact ⟨h1, by rw [hmodel]; exact hbound⟩

theorem Model.activeSlot_some {m : Model} {j : Nat} (h : m.activeSlot = some j) : j < 2 ∧ m.st j = .active := by
  unfold Model.activeSlot at h
  split at h
  · next ha =>
    rw [← Option.some.inj h]
    exact ⟨by decide, ha⟩
  · split at h
    · next hb =>
      rw [← Option.some.inj h]
      exact ⟨by decide, hb⟩
    · cases h

/-- RETIRE of an active slot: it is STALE at once where nothing holds it (R320). -/
theorem State.retireHere_drains {md j : Nat} (hj : (s.model md).activeSlot = some j) (hvalid : (s.model md).valid = true)
    (hother : (s.model md).st (1 - j) = .empty ∨ (s.model md).st (1 - j) = .stale) :
    ∃ t, s.retireHere md = some t ∧ s.frame [.orphans, .models, .blks, .tsets] t ∧
      (t.model md).st j = if (s.model md).boundary = none ∧ s.boundCount md j = 0 then .stale else .retiring := by
  obtain ⟨hlt, -⟩ := Model.activeSlot_some hj
  have hretire : s.retireHere md = some ((s.setModel md { (s.model md).setSt j .retiring with unrec := none }).setTsets j .retiring
      (s.slotTsets (s.model md) j)).drainSlots := by
    unfold State.retireHere
    dsimp only
    rw [hj, Option.bind_some, if_pos ⟨hvalid, hother⟩]
  refine ⟨_, hretire, (State.frame.refl _ s).retireHere hretire, ?_⟩
  generalize hx : ({ (s.model md).setSt j .retiring with unrec := none } : Model) = x
  obtain ⟨hv, hb⟩ := (s.model md).setSt_keeps j .retiring
  have hxv : x.valid = true := by
    rw [← hx]
    exact hv.trans hvalid
  have hxb : x.boundary = (s.model md).boundary := by
    rw [← hx]
    exact hb
  have hxst : x.st j = .retiring := by
    rw [← hx]
    exact (s.model md).st_setSt_self j .retiring
  have hset : (s.setModel md x).frame [.tsets] ((s.setModel md x).setTsets j .retiring (s.slotTsets (s.model md) j)) := (State.frame.refl _ _).setTsets
  generalize (s.setModel md x).setTsets j .retiring (s.slotTsets (s.model md) j) = u at hset
  have hmodel : u.model md = x := (State.model_congr hset.models_eq md).trans (State.model_setModel_self _ _ _)
  have hcount : u.boundCount md j = s.boundCount md j := State.boundCount_congr hset.ctxs_eq md j
  have hkey : md ∈ SMap.keys u.models := by
    have hne : x ≠ {} := fun h => by
      rw [h] at hxv
      cases hxv
    have hfind : SMap.find? u.models md = some x := by
      rw [hset.models_eq]
      unfold State.setModel SMap.put
      rw [if_neg hne]
      exact SMap.find?_insert_self _ _ _
    exact List.mem_map.mpr ⟨_, SMap.mem_of_find? hfind, rfl⟩
  split
  · next h =>
    obtain ⟨hnone, hzero⟩ := h
    refine State.drainModels_stale hlt hkey (.inr ⟨?_, ?_, ?_, hcount.trans hzero⟩)
    · rw [hmodel, hxv]
    · rw [hmodel, hxst]
    · rw [hmodel, hxb, hnone]
  · next h =>
    obtain ⟨hst, -⟩ := State.drainModels_lasts (s := u) (i := md) (l := SMap.keys u.models) hlt
      ⟨by rw [hmodel, hxst], by rw [hmodel, hxb, hcount]; exact h⟩
    exact hst

/-! ### ABORT and the timeout (R325) -/

theorem State.tells.instStop (s : State) (st : Status) (dev detail shard : Nat) : s.tells (s.instStop st dev detail shard) := by
  unfold State.instStop
  extract_lets i m s1
  have h1 : s.frame [.orphans, .models, .blks, .tsets] s1 := (State.frame.refl _ s).makeStale.either (.refl _ s)
  have hend : s.tells s1.endQuiet := (of_frame h1).trans (of_frame ((State.frame.refl [.bankMgc, .inst] s1).endQuiet))
  have hheld : s.tells (s1.endQuiet.clearShards.releaseHeld i.held) :=
    (hend.trans (clearShards _)).trans (of_frame ((State.frame.refl [.fpc] _).releaseHeld))
  exact hheld.trans (setInst _ _)

theorem State.instFail_ends {st : Status} {detail shard : Nat} (hmoon : s.isMoon = false) :
    s.tells (s.instFail st detail shard) ∧ (s.instFail st detail shard).inst.state = 6 ∧ (s.instFail st detail shard).inst.resStatus = st ∧
      (s.instFail st detail shard).inst.resDetail = detail := by
  unfold State.instFail
  extract_lets s1 m
  rw [hmoon, if_neg Bool.false_ne_true]
  obtain ⟨hstate, hstatus, -, hdetail⟩ := s.instStop_inst st s.link.dev detail shard
  have hinst := (s1.sendCtlAll_frame m s1.downstream).inst_eq
  exact ⟨(State.tells.instStop s st _ detail shard).trans (.sendCtlAll _ _ _), by rw [hinst]; exact hstate, by rw [hinst]; exact hstatus,
    by rw [hinst]; exact hdetail⟩

theorem installTimesOut (hlead : s.inst.leader = true) (hbuild : s.inst.building = true) :
    ∃ t, exec .installTimeout s = .next t ∧ t.inst.state = 6 ∧ t.inst.resStatus = .weightsUnavailable ∧
      t.inst.resDev = (s.inst.devices.filter (fun d => !s.inst.reported.contains d)).headD s.link.dev ∧ t.mem = s.mem := by
  generalize hd : (s.inst.devices.filter (fun d => !s.inst.reported.contains d)).headD s.link.dev = d
  have hfree : s.frame [.freeCtr] (s.unchecked d).2 := (State.frame.refl _ s).unchecked
  obtain ⟨hstate, hstatus, hdev, -⟩ := (s.unchecked d).2.instStop_inst .weightsUnavailable d 1 (s.unchecked d).1
  have hstop : (s.unchecked d).2.frame [.orphans, .bankMgc, .models, .blks, .fpc, .inst, .tsets, .link, .pwr, .pcie, .out]
      ((s.unchecked d).2.instStop .weightsUnavailable d 1 (s.unchecked d).1) := (State.frame.refl _ _).instStop
  have hsend := ((s.unchecked d).2.instStop .weightsUnavailable d 1 (s.unchecked d).1).sendCtlAll_frame
    (instMsg 4 d (s.unchecked d).1 s.inst.model) s.downstream
  have hexec : exec .installTimeout s = .next (((s.unchecked d).2.instStop .weightsUnavailable d 1 (s.unchecked d).1).sendCtlAll
      (instMsg 4 d (s.unchecked d).1 s.inst.model) s.downstream) := by
    rw [← hd]
    exact congrArg Host.Outcome.next (if_pos ⟨hlead, hbuild⟩)
  refine ⟨_, hexec, ?_, ?_, ?_, (hsend.mem_eq.trans hstop.mem_eq).trans hfree.mem_eq⟩
  · rw [hsend.inst_eq]
    exact hstate
  · rw [hsend.inst_eq]
    exact hstatus
  · rw [hsend.inst_eq]
    exact hdev

/-- Settles O50: each order is what it does in one state, settled, and what its messages leave keeps it from stalling. -/
theorem installOrders : Obligations.InstallOrders := by
  unfold Obligations.InstallOrders
  intro v s hmoon hs hm hnone md k h body reads refuses waits
  have hrefuses : ∀ op code, (s.orderEdits op = true → s.migBusy = 0) → s.order op v = s.instRefuse code → ∀ i, exec i s = .next (s.instCmd op v) →
      refuses i code := fun op code hedits horder i hi => by
    obtain ⟨t, ht, hparts⟩ := State.order_refused hmoon hnone hedits hs hm horder
    exact ⟨t, hi.trans (congrArg _ ht), hparts⟩
  have hwaits : ∀ op i, s.orderEdits op = true → exec i s = .next (s.instCmd op v) → waits i op := fun op i hedits hi hbusy =>
    ⟨_, hi.trans (congrArg _ (State.instCmd_waits hmoon hnone hedits hbusy)), rfl, rfl, rfl, rfl, rfl⟩
  have hnever : ∀ {p : Prop} {op : Nat}, s.orderEdits op = false → s.orderEdits op = true → p := fun h h' => by
    rw [h] at h'
    cases h'
  have hgoes : (s.inst.state = 0 ∨ 5 ≤ s.inst.state) → s.slotOpen md k = true → ¬s.startRefused v := fun hfree hopen href => by
    rcases href with href | href
    · omega
    · exact absurd (hopen.symm.trans href) (by decide)
  have htold : ∀ op, (s.orderEdits op = true → s.migBusy = 0) → s.tells (s.order op v) → ∃ d lost,
      s.instCmd op v = (s.order op v).settled (s.orderEdits op) d lost := fun op hedits htell =>
    State.instCmd_done hmoon hnone hedits hs (htell.stall.trans hs) (htell.missing.trans hm)
  refine ⟨fun hdr bs ds hfree hopen hreads hh hb hds => ?_, fun hfree hopen hreads hbad => ?_, fun href => ?_, fun hst hmd hbit hdev hbusy => ?_,
    fun hst => ?_, fun hst => ?_, fun hbound => ?_, fun j hj hvalid hother hbusy => ?_, fun hact hbusy => ?_, ?_, fun hlo hhi hlead => ?_,
    installTimesOut⟩
  · obtain ⟨hstall, hmissing⟩ := hreads
    have hbegin : s.order 1 v = _ := State.instStart_begins (hgoes hfree hopen) hh hb hds
    obtain ⟨d, lost, hcmd⟩ := State.instCmd_done hmoon hnone (hnever rfl) hs hstall hmissing
    have hframe := s.order_frame 1 v
    obtain ⟨⟨hstate, hmodel, hslot, hleader, hdescs, hnext, -⟩, hbuilding, -⟩ := s.manifestBody.2.instBegin_parts v hdr true
      (ds.headD ⟨0, 0, 0, 0, 0, 0, 0⟩).devices ds
    rw [← hbegin] at hstate hmodel hslot hleader hdescs hnext hbuilding
    refine ⟨_, congrArg Host.Outcome.next hcmd, ?_, ?_, ?_, ?_, ?_, ?_, ?_, ?_, ?_, fun e l hcons hdest => ?_⟩
    · rw [State.settled_inst]
      exact hstate
    · rw [State.settled_inst]
      exact hmodel
    · rw [State.settled_inst]
      exact hslot
    · rw [State.settled_inst]
      exact hleader
    · rw [State.settled_inst]
      exact hdescs
    · rw [State.settled_inst]
      exact hnext
    · rw [State.settled_mem, hframe.mem_eq]
    · rw [State.settled_objs, hframe.objs_eq]
    · rw [State.settled_ctxs, hframe.ctxs_eq]
    · rw [State.model_congr (State.settled_models _ _ _ _)]
      refine hbuilding ?_
      have hdev : s.manifestBody.2.link.dev = s.link.dev := ((State.readsOnly.read0 s _ _).trans (.read0 _ _ _)).dev
      rw [hcons, hdev]
      exact List.contains_iff_mem.mpr (List.mem_filter.mpr ⟨List.mem_range.mpr (BitVec.lt_of_getLsbD hdest), hdest⟩)
  · obtain ⟨hstall, hmissing⟩ := hreads
    obtain ⟨u, hdr, hread, hfail⟩ := State.instStart_fails (hgoes hfree hopen) hbad
    have hfail : s.order 1 v = _ := hfail
    obtain ⟨d, lost, hcmd⟩ := State.instCmd_done hmoon hnone (hnever rfl) hs hstall hmissing
    have hframe := s.order_frame 1 v
    obtain ⟨⟨-, -, -, -, -, -, hdevices⟩, -, hmodels⟩ := u.instBegin_parts v hdr true [] []
    obtain ⟨hstate, hstatus, -⟩ := (u.instBegin v hdr true [] []).instStop_inst .illegalCommand s.link.dev 0 0
    have hstop := State.instStop_models (s := u.instBegin v hdr true [] []) (st := .illegalCommand) (dev := s.link.dev) (detail := 0) (shard := 0)
      (by rw [hdevices]; rfl)
    rw [← hfail] at hstate hstatus hstop
    refine ⟨_, congrArg Host.Outcome.next hcmd, ?_, ?_, ?_, ?_, ?_⟩
    · rw [State.settled_inst]
      exact hstate
    · rw [State.settled_inst]
      exact hstatus
    · rw [State.settled_models, hstop, hmodels rfl, hread.models_eq]
    · rw [State.settled_mem, hframe.mem_eq]
    · rw [State.settled_objs, hframe.objs_eq]
  · exact hrefuses 1 1 (hnever rfl) (State.instStart_refuses href) _ rfl
  · have hswitch : s.order 2 v = s.leaderSwitch none := by
      show s.instSwitch v = _
      unfold State.instSwitch
      extract_lets i r
      rw [if_neg (by simp [i, hst, ← hmd, md]), if_neg, if_neg (by simp [i, hdev])]
      have : wBit v 11 = v.getLsbD 11 := rfl
      rw [this, hbit]
      exact Bool.false_ne_true
    obtain ⟨hfive, htell, hactive, hbound⟩ := State.leaderSwitch_alone hst hdev
    obtain ⟨d, lost, hcmd⟩ := htold 2 (fun _ => hbusy) (hswitch ▸ htell)
    have hframe := s.order_frame 2 v
    refine ⟨_, congrArg Host.Outcome.next hcmd, ?_, ?_, ?_, by rw [State.settled_mem, hframe.mem_eq]⟩
    · rw [State.settled_inst, hswitch]
      exact hfive
    · rw [State.model_congr (State.settled_models _ _ _ _), hswitch, hmd]
      exact hactive
    · rw [State.model_congr (State.settled_models _ _ _ _), hswitch, hmd]
      exact hbound
  · refine hrefuses 2 2 (hnever ?_) (if_pos (.inl hst)) _ rfl
    unfold State.orderEdits
    simp [hst]
  · refine hwaits 2 _ ?_ rfl
    unfold State.orderEdits
    simp [hst]
  · obtain ⟨htell, hgone⟩ := State.instClose_closes hbound
    obtain ⟨d, lost, hcmd⟩ := htold 3 (hnever rfl) htell
    exact ⟨_, congrArg Host.Outcome.next hcmd, by rw [State.model_congr (State.settled_models _ _ _ _)]; exact hgone, by rw [State.settled_mem, (s.order_frame 3 v).mem_eq]⟩
  · obtain ⟨u, hu, hframe, hstj⟩ := State.retireHere_drains hj hvalid hother
    have horder : s.order 4 v = u.sendMgmtAll (retireOrder md) u.downstream := by
      show s.instRetire v = _
      unfold State.instRetire
      rw [hu]
    have hsend : u.frame [.link, .pwr, .out] (s.order 4 v) := horder ▸ (State.frame.refl _ u).sendMgmtAll
    have htell : s.tells (s.order 4 v) := horder ▸ (State.tells.of_frame hframe).trans (.sendMgmtAll _ _ _)
    obtain ⟨d, lost, hcmd⟩ := htold 4 (fun _ => hbusy) htell
    obtain ⟨-, hquiet⟩ := (s.order 4 v).settled_parts (s.orderEdits 4) d lost
    refine ⟨_, congrArg Host.Outcome.next hcmd, by rw [State.settled_mem, (s.order_frame 4 v).mem_eq], ?_, ?_⟩
    · rw [State.settled_inst, hquiet rfl, hsend.inst_eq, hframe.inst_eq]
      exact congrArg (fun l => { s.inst with orders := l, quiet := false }) hnone.symm
    · rw [State.model_congr (State.settled_models _ _ _ _), State.model_congr hsend.models_eq]
      exact hstj
  · refine hrefuses 4 4 (fun _ => hbusy) ?_ _ rfl
    show s.instRetire v = _
    unfold State.instRetire State.retireHere
    dsimp only
    rw [hact]
    rfl
  · exact hwaits 4 _ rfl rfl
  · have horder : s.order 5 v = s.instFail .aborted 1 0 := if_pos ⟨hlo, hhi, hlead⟩
    obtain ⟨htell, hstate, hstatus, hdetail⟩ := State.instFail_ends (st := .aborted) (detail := 1) (shard := 0) hmoon
    rw [← horder] at htell hstate hstatus hdetail
    obtain ⟨d, lost, hcmd⟩ := htold 5 (hnever rfl) htell
    refine ⟨_, congrArg Host.Outcome.next hcmd, ?_, ?_, ?_, by rw [State.settled_mem, (s.order_frame 5 v).mem_eq]⟩
    · rw [State.settled_inst]
      exact hstate
    · rw [State.settled_inst]
      exact hstatus
    · rw [State.settled_inst]
      exact hdetail

end Sys2Proof.Machine
end
